-- ==== Sys2Proof/Word.lean ====
section
/-! DEFINITION. The word types of the S960: 32-bit instruction words and lanes, 64-bit doublewords, 1 KiB vector values (R26, R113),
the numbers of cores, crews, contexts and partitions (R10, R43, R399), and the names of the dies and seats. -/

namespace Sys2Proof

abbrev Byte := BitVec 8
/-- A 32-bit instruction word, lane or element (R113, R199). -/
abbrev Word := BitVec 32
/-- A 64-bit doubleword: c, a, x and m registers, addresses, times. -/
abbrev Dw := BitVec 64
/-- A 1 KiB value: a v register or a queue entry (R26, R199). -/
abbrev Line := BitVec 8192
/-- A 256-bit predicate: bit i governs lane i (R26, R199). -/
abbrev Pred := BitVec 256

/-- A package core number, die × 176 + n (R10). -/
abbrev CoreId := Fin 352
/-- A package crew number, die × 44 + crew (R10). -/
abbrev CrewId := Fin 88

/-- Die 0 is Bow and die 1 is Stern (R10). -/
inductive DieId | bow | stern
deriving DecidableEq, Repr

/-- The four seats of a core (R11), in seat order C, A, V, M. -/
inductive SeatId | c | a | v | m
deriving DecidableEq, Repr

def DieId.other : DieId → DieId
  | .bow => .stern
  | .stern => .bow

def DieId.toNat : DieId → Nat
  | .bow => 0
  | .stern => 1

def SeatId.toNat : SeatId → Nat
  | .c => 0
  | .a => 1
  | .v => 2
  | .m => 3

def SeatId.toFin : SeatId → Fin 4
  | .c => 0
  | .a => 1
  | .v => 2
  | .m => 3

/-- The die a core lies on (R10). -/
def dieOf (n : CoreId) : DieId := if n.val < 176 then .bow else .stern

/-- The core's number on its die, 0 to 175 (R10). -/
def dieCore (n : CoreId) : Nat := n.val % 176

/-- The package number of the core's crew (R10). -/
def crewOf (n : CoreId) : CrewId := ⟨n.val / 4, by omega⟩

/-- The crew position n mod 4 (R10). -/
def crewPos (n : CoreId) : Fin 4 := ⟨n.val % 4, by omega⟩

/-- The core at a position of a crew (R10). -/
def crewCore (w : CrewId) (p : Fin 4) : CoreId := ⟨4 * w.val + p.val, by omega⟩

def crewDie (w : CrewId) : DieId := if w.val < 44 then .bow else .stern

end Sys2Proof
end

