-- ==== Sys2Proof/Event.lean ====
section
/-! DEFINITION. What an event of the table names: writers, waiters, masters, links, command payloads and stream records. Plain data. -/

namespace Sys2Proof

/-- Who performs a write at its home (R71): block `blk` of a seat operation, write `k` of a copy's loaded chunk, write `k` of a store
pattern, or an agent outside the package (R90, R411). -/
inductive WriteSrc
  | seat (n : CoreId) (id blk : Nat)
  | copy (n : CoreId) (id k : Nat)
  | pattern (n : CoreId) (g : Fin 4) (k : Nat)
  | outside (pa : Nat) (bytes : List Byte)
  | outsideAmo (pa : Nat) (w64 : Bool) (op : BitVec 3) (v : Dw)
deriving DecidableEq, Repr

/-- A waiter of an arrival slot (R67, R72, R75): an AWAIT, a PARK that polls, a parked record, a copy, or a stream's input (R338). -/
inductive Waiter
  | await (n : CoreId)
  | park (n : CoreId)
  | parked (id : Nat)
  | copy (n : CoreId) (id : Nat)
  | cox (d : DieId) (e : Nat)
deriving DecidableEq, Repr

/-- The masters that can be frozen (R368). -/
inductive Master
  | core (n : CoreId)
  | copyEngine (n : CoreId)
  | endpointQueue (d : DieId) (q : Fin 64)
  | hostFunction (d : DieId) (fn : Fin 33)
deriving DecidableEq, Repr

/-- What the steps of a start report (R391, R392, R394): the failing step, 0 for none, whether the signature of the image holds, whether its header gives
a body of at most 256 KiB, and its digest (DESIGN CHOICE, log 34). -/
structure StartResult where
  failStep : Nat
  sigOk : Bool
  bodyOk : Bool
  digest : BitVec 512
deriving DecidableEq, Repr

/-- An access to a register of a function's window: its offset and its size in bytes (R307, R321); `policy` that the policy core makes it, which reaches the
debug registers by itself (R373). -/
structure Bar where
  fn : Fin 33
  off : Nat
  size : Nat
  policy : Bool := false
deriving DecidableEq, Repr

/-- A doorbell, and the function whose window it is reached through (R307, R310). -/
structure Door where
  fn : Fin 33
  ring : Fin 64
deriving DecidableEq, Repr

/-- Where a storage error is found (R366) and whether it is uncorrectable. -/
inductive ErrLoc
  | block (pa : Nat) (fatal : Bool)
  | queueEntry (n : CoreId) (q : BitVec 3) (pos : Nat) (fatal : Bool)
  | seatState (n : CoreId) (k : SeatId) (fatal : Bool)
  | slotWords (pa : Nat) (fatal : Bool)
  | shadow (n : CoreId) (fatal : Bool)
  | task (d : DieId) (pos : Nat) (fatal : Bool)
  | counter (d : DieId) (graph : Nat) (fatal : Bool)
deriving DecidableEq, Repr

/-- The links of a die that a snapshot marker travels on (R386), and the network, whose packets a cut die records (R387). -/
inductive Link
  | bridge
  | scaleUp (p : Fin 9)
  | host
  | network
deriving DecidableEq, Repr

/-- A stream record (R272): class, priority, period, offset, relative deadline, level graphs and costs. -/
structure StreamRec where
  cls : Nat
  prio : Nat
  period : Nat
  offset : Nat
  dline : Nat
  graphs : List Nat
  costs : List Nat
deriving DecidableEq, Repr

/-- A host command as the front end has read it (R312): slot header type and length, payload words, whether a reserved field was nonzero, and the
ring it came from with that ring's context, partition and function. -/
structure Cmd where
  typ : Nat
  len : Nat
  resv : Bool
  tag : Dw
  crec : Dw
  sigaddr : Dw
  sigval : Dw
  sigk : Nat
  w0 : Dw
  w1 : Dw
  w2 : Dw
  w3 : Dw
  ring : Fin 64
  ctx : Fin 64
  part : Fin 32
  fn : Fin 33
deriving DecidableEq, Repr

/-- The copy of an admitted fast stream that the peer die keeps (R419). -/
structure PeerStream where
  sid : Nat
  t0 : Nat
  srec : StreamRec
  level : Nat
  jid : Word
  ctx : Fin 64
  part : Fin 32
  tag : Dw
  crec : Dw
  sigaddr : Dw
  sigval : Dw
  sigk : Nat
deriving DecidableEq, Repr

end Sys2Proof
end

