-- ==== Sys2Proof/Syntax.lean ====
section
/-! DEFINITION. The steps of the S960, one constructor per row of spec/opcode_table.json, in the table's order: the 200 instruction words of the four
seats and the common group (R133 to R136, R125), whose fields are the word's fields and whose `st` is the stroke bit (R113), and the 128 events
of the part (spec/95). -/

namespace Sys2Proof

inductive Instr where
  -- C seat (R133)
  | add (st : Bool) (d a b : BitVec 5)
  | sub (st : Bool) (d a b : BitVec 5)
  | mul (st : Bool) (d a b : BitVec 5)
  | mulh (st : Bool) (d a b : BitVec 5)
  | mulhu (st : Bool) (d a b : BitVec 5)
  | div (st : Bool) (d a b : BitVec 5)
  | divu (st : Bool) (d a b : BitVec 5)
  | rem (st : Bool) (d a b : BitVec 5)
  | and (st : Bool) (d a b : BitVec 5)
  | or (st : Bool) (d a b : BitVec 5)
  | xor (st : Bool) (d a b : BitVec 5)
  | shl (st : Bool) (d a b : BitVec 5)
  | shr (st : Bool) (d a b : BitVec 5)
  | sar (st : Bool) (d a b : BitVec 5)
  | min (st : Bool) (d a b : BitVec 5)
  | max (st : Bool) (d a b : BitVec 5)
  | slt (st : Bool) (d a b : BitVec 5)
  | sltu (st : Bool) (d a b : BitVec 5)
  | addi (st : Bool) (d a : BitVec 5) (imm : BitVec 13)
  | andi (st : Bool) (d a : BitVec 5) (imm : BitVec 13)
  | ori (st : Bool) (d a : BitVec 5) (imm : BitVec 13)
  | xori (st : Bool) (d a : BitVec 5) (imm : BitVec 13)
  | shli (st : Bool) (d a : BitVec 5) (imm : BitVec 6)
  | shri (st : Bool) (d a : BitVec 5) (imm : BitVec 6)
  | sari (st : Bool) (d a : BitVec 5) (imm : BitVec 6)
  | slti (st : Bool) (d a : BitVec 5) (imm : BitVec 13)
  | lui (st : Bool) (d : BitVec 5) (imm : BitVec 18)
  | beq (st : Bool) (a b : BitVec 5) (imm : BitVec 13)
  | bne (st : Bool) (a b : BitVec 5) (imm : BitVec 13)
  | blt (st : Bool) (a b : BitVec 5) (imm : BitVec 13)
  | bge (st : Bool) (a b : BitVec 5) (imm : BitVec 13)
  | bltu (st : Bool) (a b : BitVec 5) (imm : BitVec 13)
  | bgeu (st : Bool) (a b : BitVec 5) (imm : BitVec 13)
  | jmp (st : Bool) (imm : BitVec 23)
  | jal (st : Bool) (imm : BitVec 23)
  | jr (st : Bool) (a : BitVec 5)
  | lset (st : Bool) (d a : BitVec 5) (imm : BitVec 13)
  | spawn (st : Bool) (a : BitVec 5)
  | park (st : Bool) (a b : BitVec 5) (fn : BitVec 1)
  | exit (st : Bool)
  | cncl (st : Bool) (a b : BitVec 5) (fn : BitVec 3)
  | crd (st : Bool) (d a b : BitVec 5) (fn : BitVec 3)
  | sysr (st : Bool) (d : BitVec 5) (sys : BitVec 13)
  | sysw (st : Bool) (a : BitVec 5) (sys : BitVec 13)
  | trap (st : Bool) (sys : BitVec 13)
  | rft (st : Bool)
  | time (st : Bool) (d : BitVec 5)
  | scope (st : Bool) (e : BitVec 5) (sm : BitVec 2)
  -- A seat (R134)
  | aadd (st : Bool) (d a b : BitVec 5)
  | asub (st : Bool) (d a b : BitVec 5)
  | amul (st : Bool) (d a b : BitVec 5)
  | aand (st : Bool) (d a b : BitVec 5)
  | aor (st : Bool) (d a b : BitVec 5)
  | ashl (st : Bool) (d a b : BitVec 5)
  | ashr (st : Bool) (d a b : BitVec 5)
  | aaddi (st : Bool) (d a : BitVec 5) (imm : BitVec 13)
  | alui (st : Bool) (d : BitVec 5) (imm : BitVec 18)
  | abeq (st : Bool) (a b : BitVec 5) (imm : BitVec 13)
  | abne (st : Bool) (a b : BitVec 5) (imm : BitVec 13)
  | ablt (st : Bool) (a b : BitVec 5) (imm : BitVec 13)
  | abge (st : Bool) (a b : BitVec 5) (imm : BitVec 13)
  | ajmp (st : Bool) (imm : BitVec 23)
  | ajr (st : Bool) (a : BitVec 5)
  | ldb (st : Bool) (t b : BitVec 5) (os : BitVec 2) (pm : BitVec 4) (off : BitVec 7)
  | ldbs (st : Bool) (t b : BitVec 5) (os : BitVec 2) (pm : BitVec 4) (off : BitVec 7)
  | ldh (st : Bool) (t b : BitVec 5) (os : BitVec 2) (pm : BitVec 4) (off : BitVec 7)
  | ldhs (st : Bool) (t b : BitVec 5) (os : BitVec 2) (pm : BitVec 4) (off : BitVec 7)
  | ldw (st : Bool) (t b : BitVec 5) (os : BitVec 2) (pm : BitVec 4) (off : BitVec 7)
  | ldws (st : Bool) (t b : BitVec 5) (os : BitVec 2) (pm : BitVec 4) (off : BitVec 7)
  | ldd (st : Bool) (t b : BitVec 5) (os : BitVec 2) (pm : BitVec 4) (off : BitVec 7)
  | stb (st : Bool) (t b : BitVec 5) (os : BitVec 2) (pm : BitVec 4) (off : BitVec 7)
  | sth (st : Bool) (t b : BitVec 5) (os : BitVec 2) (pm : BitVec 4) (off : BitVec 7)
  | stw (st : Bool) (t b : BitVec 5) (os : BitVec 2) (pm : BitVec 4) (off : BitVec 7)
  | std (st : Bool) (t b : BitVec 5) (os : BitVec 2) (pm : BitVec 4) (off : BitVec 7)
  | ldv (st : Bool) (t b : BitVec 5) (os : BitVec 2) (pm : BitVec 4) (off : BitVec 7)
  | stv (st : Bool) (t b : BitVec 5) (os : BitVec 2) (pm : BitVec 4) (off : BitVec 7)
  | qbind (st : Bool) (d : BitVec 5) (e r : BitVec 2)
  | qpat (st : Bool) (t b : BitVec 5) (os : BitVec 2) (pm : BitVec 4) (c : BitVec 5)
  | qstop (st : Bool) (d : BitVec 5)
  | qmc (st : Bool) (t b : BitVec 5) (os : BitVec 2) (pm c : BitVec 4)
  | amoadd (st : Bool) (t b : BitVec 5) (os : BitVec 2) (pm : BitVec 4) (c : BitVec 5) (fn : BitVec 2)
  | amomin (st : Bool) (t b : BitVec 5) (os : BitVec 2) (pm : BitVec 4) (c : BitVec 5) (fn : BitVec 2)
  | amomax (st : Bool) (t b : BitVec 5) (os : BitVec 2) (pm : BitVec 4) (c : BitVec 5) (fn : BitVec 2)
  | amoand (st : Bool) (t b : BitVec 5) (os : BitVec 2) (pm : BitVec 4) (c : BitVec 5) (fn : BitVec 2)
  | amoor (st : Bool) (t b : BitVec 5) (os : BitVec 2) (pm : BitVec 4) (c : BitVec 5) (fn : BitVec 2)
  | amoxor (st : Bool) (t b : BitVec 5) (os : BitVec 2) (pm : BitVec 4) (c : BitVec 5) (fn : BitVec 2)
  | amoswp (st : Bool) (t b : BitVec 5) (os : BitVec 2) (pm : BitVec 4) (c : BitVec 5) (fn : BitVec 2)
  | amocas (st : Bool) (t b : BitVec 5) (os : BitVec 2) (pm : BitVec 4) (c : BitVec 5) (fn : BitVec 2)
  | aset (st : Bool) (t b : BitVec 5) (os : BitVec 2) (pm : BitVec 4)
  | afree (st : Bool) (b : BitVec 5) (os : BitVec 2) (pm : BitVec 4) (off : BitVec 7)
  | await (st : Bool) (t b : BitVec 5) (os : BitVec 2) (pm : BitVec 4) (off : BitVec 7)
  | aread (st : Bool) (t b : BitVec 5) (os : BitVec 2) (pm : BitVec 4) (off : BitVec 7)
  | acred (st : Bool) (b : BitVec 5) (os : BitVec 2) (pm : BitVec 4) (c : BitVec 5)
  | cpy (st : Bool) (b : BitVec 5) (os : BitVec 2) (pm : BitVec 4) (off : BitVec 7)
  | gath (st : Bool) (b : BitVec 5) (os : BitVec 2) (pm : BitVec 4) (off : BitVec 7)
  | scat (st : Bool) (b : BitVec 5) (os : BitVec 2) (pm : BitVec 4) (off : BitVec 7)
  | cpyr (st : Bool) (b : BitVec 5) (os : BitVec 2) (pm : BitVec 4) (off : BitVec 7)
  | chlnk (st : Bool) (t b : BitVec 5) (os : BitVec 2) (pm : BitVec 4) (off : BitVec 7)
  | chkck (st : Bool) (b : BitVec 5) (os : BitVec 2) (pm : BitVec 4) (off : BitVec 7)
  | rgres (st : Bool) (t b : BitVec 5) (os : BitVec 2) (pm : BitVec 4)
  | rgpub (st : Bool) (t b : BitVec 5) (os : BitVec 2) (pm : BitVec 4)
  | rgpop (st : Bool) (t b : BitVec 5) (os : BitVec 2) (pm : BitVec 4) (c : BitVec 5)
  | rgcur (st : Bool) (t b : BitVec 5) (os : BitVec 2) (pm : BitVec 4) (c : BitVec 5)
  | waita (st : Bool) (b : BitVec 5) (os : BitVec 2) (pm : BitVec 4) (off : BitVec 7)
  -- V seat (R135)
  | vadd (st : Bool) (d a b : BitVec 6) (p : BitVec 3) (ty : BitVec 2)
  | vsub (st : Bool) (d a b : BitVec 6) (p : BitVec 3) (ty : BitVec 2)
  | vmul (st : Bool) (d a b : BitVec 6) (p : BitVec 3) (ty : BitVec 2)
  | vfma (st : Bool) (d a b : BitVec 6) (p : BitVec 3) (ty : BitVec 2)
  | vfms (st : Bool) (d a b : BitVec 6) (p : BitVec 3) (ty : BitVec 2)
  | vscac (st : Bool) (d a b : BitVec 6) (p : BitVec 3) (ty : BitVec 2)
  | vmax (st : Bool) (d a b : BitVec 6) (p : BitVec 3) (ty : BitVec 2)
  | vmin (st : Bool) (d a b : BitVec 6) (p : BitVec 3) (ty : BitVec 2)
  | vabs (st : Bool) (d a : BitVec 6) (p : BitVec 3) (ty : BitVec 2)
  | vneg (st : Bool) (d a : BitVec 6) (p : BitVec 3) (ty : BitVec 2)
  | vrcp (st : Bool) (d a : BitVec 6) (p : BitVec 3) (ty : BitVec 2)
  | vrsq (st : Bool) (d a : BitVec 6) (p : BitVec 3) (ty : BitVec 2)
  | vexp2 (st : Bool) (d a : BitVec 6) (p : BitVec 3) (ty : BitVec 2)
  | vlog2 (st : Bool) (d a : BitVec 6) (p : BitVec 3) (ty : BitVec 2)
  | vcmpeq (st : Bool) (d a b : BitVec 6) (p : BitVec 3) (ty : BitVec 2)
  | vcmpne (st : Bool) (d a b : BitVec 6) (p : BitVec 3) (ty : BitVec 2)
  | vcmplt (st : Bool) (d a b : BitVec 6) (p : BitVec 3) (ty : BitVec 2)
  | vcmple (st : Bool) (d a b : BitVec 6) (p : BitVec 3) (ty : BitVec 2)
  | vsel (st : Bool) (d a b : BitVec 6) (p : BitVec 3) (ty : BitVec 2)
  | vand (st : Bool) (d a b : BitVec 6) (p : BitVec 3) (ty : BitVec 2)
  | vor (st : Bool) (d a b : BitVec 6) (p : BitVec 3) (ty : BitVec 2)
  | vxor (st : Bool) (d a b : BitVec 6) (p : BitVec 3) (ty : BitVec 2)
  | vshl (st : Bool) (d a b : BitVec 6) (p : BitVec 3) (ty : BitVec 2)
  | vshr (st : Bool) (d a b : BitVec 6) (p : BitVec 3) (ty : BitVec 2)
  | vsar (st : Bool) (d a b : BitVec 6) (p : BitVec 3) (ty : BitVec 2)
  | pand (st : Bool) (d a b : BitVec 6)
  | por (st : Bool) (d a b : BitVec 6)
  | pnot (st : Bool) (d a : BitVec 6)
  | pcnt (st : Bool) (d a : BitVec 6)
  | vcvt (st : Bool) (d a b : BitVec 6) (p : BitVec 3) (ty : BitVec 2)
  | vqnt (st : Bool) (d a : BitVec 6) (p : BitVec 3) (ty : BitVec 2)
  | vdq (st : Bool) (d a : BitVec 6) (p : BitVec 3) (ty : BitVec 2)
  | vrsum (st : Bool) (d a b : BitVec 6) (p : BitVec 3) (ty : BitVec 2)
  | vrmax (st : Bool) (d a b : BitVec 6) (p : BitVec 3) (ty : BitVec 2)
  | vperm (st : Bool) (d a b : BitVec 6) (p : BitVec 3) (ty : BitVec 2)
  | vbcast (st : Bool) (d a b : BitVec 6) (p : BitVec 3) (ty : BitVec 2)
  | vscan (st : Bool) (d a b : BitVec 6) (p : BitVec 3) (ty : BitVec 2)
  | vaddiF32 (st : Bool) (d : BitVec 6) (md : BitVec 1) (imm : BitVec 16)
  | vmuliF32 (st : Bool) (d : BitVec 6) (md : BitVec 1) (imm : BitVec 16)
  | vmoviF32 (st : Bool) (d : BitVec 6) (md : BitVec 1) (imm : BitVec 16)
  | vaddiF16 (st : Bool) (d : BitVec 6) (md : BitVec 1) (imm : BitVec 16)
  | vmuliF16 (st : Bool) (d : BitVec 6) (md : BitVec 1) (imm : BitVec 16)
  | vmoviF16 (st : Bool) (d : BitVec 6) (md : BitVec 1) (imm : BitVec 16)
  | vaddiBF16 (st : Bool) (d : BitVec 6) (md : BitVec 1) (imm : BitVec 16)
  | vmuliBF16 (st : Bool) (d : BitVec 6) (md : BitVec 1) (imm : BitVec 16)
  | vmoviBF16 (st : Bool) (d : BitVec 6) (md : BitVec 1) (imm : BitVec 16)
  | vaddiI32 (st : Bool) (d : BitVec 6) (md : BitVec 1) (imm : BitVec 16)
  | vmoviI32 (st : Bool) (d : BitVec 6) (md : BitVec 1) (imm : BitVec 16)
  | vandi (st : Bool) (d : BitVec 6) (md : BitVec 1) (imm : BitVec 16)
  | vori (st : Bool) (d : BitVec 6) (md : BitVec 1) (imm : BitVec 16)
  | xadd (st : Bool) (d a b : BitVec 4) (imm : BitVec 11)
  | xsub (st : Bool) (d a b : BitVec 4) (imm : BitVec 11)
  | xmul (st : Bool) (d a b : BitVec 4) (imm : BitVec 6)
  | xli (st : Bool) (d a b : BitVec 4) (imm : BitVec 11)
  | xget (st : Bool) (d b : BitVec 4) (vr : BitVec 5)
  | xput (st : Bool) (a b : BitVec 4) (vr : BitVec 5)
  | vbz (st : Bool) (a : BitVec 4) (imm : BitVec 19)
  | vbnz (st : Bool) (a : BitVec 4) (imm : BitVec 19)
  | vjmp (st : Bool) (imm : BitVec 23)
  | vsweep (st : Bool) (d a b : BitVec 6) (p : BitVec 3) (ty : BitVec 2)
  | vjlim (st : Bool) (d a b : BitVec 6) (p : BitVec 3) (ty : BitVec 2)
  | vdist (st : Bool) (d a b : BitVec 6) (p : BitVec 3) (ty : BitVec 2)
  | vdph (st : Bool) (imm : BitVec 3)
  | vmov (st : Bool) (d a : BitVec 6) (p : BitVec 3) (ty : BitVec 2)
  | vpack (st : Bool) (d a b : BitVec 6) (p : BitVec 3) (ty : BitVec 2)
  | vunpk (st : Bool) (d a b : BitVec 6) (p : BitVec 3) (ty : BitVec 2)
  | vsplt (st : Bool) (d a b : BitVec 6) (p : BitVec 3) (ty : BitVec 2)
  | vcat (st : Bool) (d a b : BitVec 6) (p : BitVec 3) (ty : BitVec 2)
  -- M seat (R136)
  | mma (st : Bool) (o a b : BitVec 3) (f : BitVec 5) (kk : BitVec 9)
  | mmaj (st : Bool) (o a b : BitVec 3) (f : BitVec 5) (kk : BitVec 9)
  | mdrn (st : Bool) (o : BitVec 3)
  | mzero (st : Bool)
  | ftset (st : Bool) (a e : BitVec 4)
  | ftget (st : Bool) (d e : BitVec 4)
  | mpidx (st : Bool) (d : BitVec 4)
  | madd (st : Bool) (d a : BitVec 4) (imm : BitVec 15)
  | msub (st : Bool) (d a : BitVec 4) (imm : BitVec 15)
  | mand (st : Bool) (d a : BitVec 4) (imm : BitVec 15)
  | mor (st : Bool) (d a : BitVec 4) (imm : BitVec 15)
  | mshl (st : Bool) (d a : BitVec 4) (imm : BitVec 6)
  | mshr (st : Bool) (d a : BitVec 4) (imm : BitVec 6)
  | mli (st : Bool) (d : BitVec 4) (imm : BitVec 15)
  | mlui (st : Bool) (d : BitVec 4) (imm : BitVec 15)
  | mbz (st : Bool) (a : BitVec 4) (imm : BitVec 15)
  | mbnz (st : Bool) (a : BitVec 4) (imm : BitVec 15)
  | mblt (st : Bool) (a b : BitVec 4) (imm : BitVec 15)
  | mjmp (st : Bool) (imm : BitVec 23)
  | mjr (st : Bool) (a : BitVec 4)
  -- common group (R125)
  | nop (st : Bool)
  | mloop (st : Bool) (l : BitVec 3) (n : BitVec 6) (stg ms : BitVec 3)
  | tpost (st : Bool) (k : BitVec 4) (n : BitVec 8)
  | twait (st : Bool) (k : BitVec 4) (n : BitVec 8)
  | fset (st : Bool) (f : BitVec 3) (v : BitVec 1)
  | fwait (st : Bool) (f : BitVec 3) (v : BitVec 1)
  | brk (st : Bool) (c : BitVec 8)
  | bndy (st : Bool)
  -- events (spec/95)
  | resultLand (n : CoreId)
  | loadHoldEnd (n : CoreId)
  | queueEntryLand (n : CoreId) (q : BitVec 3) (k : Nat)
  | strokeRendezvous (n : CoreId)
  | seatRunOut (n : CoreId) (k : SeatId)
  | operationPerformed (n : CoreId) (id : Nat)
  | homeWrite (w : WriteSrc)
  | mirrorAck (d : DieId) (sid : Nat)
  | guardedDeadline (slot : Nat)
  | slotPoll (w : Waiter)
  | coxSlotPoll (d : DieId) (e : Nat)
  | waitaWake (n : CoreId)
  | pageWalkStart (d : DieId)
  | pageWalkComplete (d : DieId) (k : Nat)
  | copySuspend (n : CoreId) (id : Nat)
  | copyComplete (n : CoreId) (id : Nat)
  | spillCommandTake (n : CoreId)
  | spillFault (n : CoreId)
  | chainAdvance (n : CoreId)
  | spawnPush (n : CoreId)
  | parkRegister (n : CoreId)
  | unitPlace (n : CoreId)
  | unitRetire (n : CoreId) (k : Nat)
  | phaseComplete (d : DieId) (phid : Dw)
  | taskEntryFree (d : DieId)
  | cancelTimeout (n : CoreId)
  | trapEntry (n : CoreId)
  | masterThaw (m : Master)
  | masterReset (m : Master)
  | engineFaultTake (n : CoreId)
  | matrixOpStart (n : CoreId)
  | spanToBackBank (n : CoreId)
  | drainEntryPush (n : CoreId)
  | mdrnStart (n : CoreId)
  | mzeroComplete (n : CoreId)
  | jointStart (w : CrewId)
  | jointComplete (w : CrewId)
  | preemptRequest (d : DieId) (part : Fin 32)
  | boundaryStopTimeout (n : CoreId)
  | urgentStopFreeze (n : CoreId)
  | contextSave (n : CoreId)
  | contextRestore (n : CoreId)
  | sliceEnd (w : CrewId)
  | sliceSwitch (w : CrewId)
  | ringSegmentLink (n : CoreId)
  | ringSegmentPoll (k : Nat)
  | coxRelease (d : DieId) (e : Nat)
  | phaseSkip (d : DieId) (e : Nat)
  | powerEvaluation (d : DieId) (temp : BitVec 8) (above : Bool)
  | powerOn (d : DieId) (r : StartResult)
  | coldStart (d : DieId) (r : StartResult)
  | warmStart (d : DieId) (r : StartResult)
  | startTimeout (d : DieId)
  | atreq (d : DieId) (buf : Dw)
  | scrub (d : DieId)
  | dataErrorDetected (e : ErrLoc)
  | ringTake (d : DieId) (r : Fin 64)
  | ringWatchWake (d : DieId) (r : Fin 64)
  | rdoor (d : DieId) (x : Door)
  | ringEnable (d : DieId) (r : Fin 64) (v : Dw)
  | ringDisable (d : DieId) (r : Fin 64) (v : Dw)
  | phase (d : DieId) (cmd : Cmd)
  | cancel (d : DieId) (cmd : Cmd)
  | gload (d : DieId) (cmd : Cmd)
  | gfree (d : DieId) (cmd : Cmd)
  | kload (d : DieId) (cmd : Cmd)
  | kfree (d : DieId) (cmd : Cmd)
  | jobOpen (d : DieId) (cmd : Cmd)
  | jobClose (d : DieId) (cmd : Cmd)
  | stream (d : DieId) (cmd : Cmd)
  | badCommand (d : DieId) (cmd : Cmd)
  | reconfigure (d : DieId) (v : Dw)
  | reconfigDrainDone
  | sessionOpen (d : DieId) (v : Dw)
  | sessionClose (d : DieId) (v : Dw)
  | mailboxBadCode (d : DieId) (v : Dw)
  | channelSlot (d : DieId) (ch : Fin 112)
  | inboundWrite (d : DieId) (sid idx off : Nat) (bytes : List Byte)
  | ptpEventMessage (d : DieId) (ppm : Int) (offset : Int)
  | deviceTimeStep (d : DieId) (ns : Dw)
  | heartbeatSend (d : DieId)
  | heartbeatReceive (d : DieId)
  | peerLossTimeout (d : DieId)
  | bridgeLinkDown (d : DieId)
  | isolateAsserted (d : DieId)
  | streamTakeover (d : DieId) (sid : Nat)
  | invalPage (n : CoreId) (w : Dw)
  | invalContext (n : CoreId) (w : Dw)
  | invalReload (n : CoreId) (w : Dw)
  | invalComplete (n : CoreId)
  | cpyres (n : CoreId) (v : Dw)
  | save (n : CoreId) (v : Dw)
  | svreq (n : CoreId) (v : Dw)
  | svreqReply (n : CoreId) (v : Dw)
  | fdata (n : CoreId) (w : Option Dw)
  | debugStop (n : CoreId)
  | debugResume (n : CoreId)
  | debugStep (n : CoreId) (k : Nat)
  | clearConflictCells (n : CoreId)
  | clearReplayLog (n : CoreId)
  | stepDone (n : CoreId)
  | stopAt (n : CoreId)
  | breakpointMatch (n : CoreId) (k : SeatId)
  | dfdata (n : CoreId) (w : Option Dw)
  | traceEnable (w : CrewId) (v : Dw)
  | traceSample (n : CoreId)
  | traceDrain (w : CrewId)
  | crewPowerGate (w : CrewId) (forced : Bool)
  | crewPowerUp (w : CrewId)
  | snapshotGo (d : DieId) (v : Dw)
  | snapshotMarker (d : DieId) (link : Link) (id : Word)
  | snmk (d : DieId) (v : Dw)
  | snapshotDump (d : DieId)
  | snapshotResume (d : DieId)
  | registerWrite (d : DieId) (a : Bar) (w : Option Dw)
  | homeAnswer (n : CoreId)
  | groupBoundary (n : CoreId)
  | lastsentMirrorWrite (d : DieId) (sid : Nat) (q : Word)
  | peerStreamCopy (d : DieId) (p : PeerStream)
  | unsupportedPacket (d : DieId)
  | rlrd (n : CoreId) (v : Dw)
  | trrd (w : CrewId) (v : Dw)
  | clockStop (n : CoreId)
  | clockRestart (n : CoreId)
  | powerLoss (d : DieId)
  | functionLevelReset (d : DieId) (fn : Fin 33)
  | hostLinkDown (d : DieId)
  | isolateDeasserted (d : DieId)
deriving DecidableEq, Repr

end Sys2Proof
end

