-- ==== Sys2Proof/WellFormed.lean ====
section
/-! DEFINITION. Which words are instructions: the limits that R115, R118, R119, R131 to R136 and R204 put on used fields. A word that breaks one
raises the undefined-instruction trap. Events name things by bounded types and are all well formed. -/

namespace Sys2Proof

/-- Types f32, f16, bf16 and i32 of R118. -/
abbrev tyF32 : BitVec 2 := 0
abbrev tyF16 : BitVec 2 := 1
abbrev tyBf16 : BitVec 2 := 2
abbrev tyI32 : BitVec 2 := 3

/-- Operand kinds of R204, as the sets of codes they accept. -/
def codeSrc (x : BitVec 6) : Bool := x.toNat < 40 || 48 ≤ x.toNat
def codeSrcv (x : BitVec 6) : Bool := x.toNat < 40
def codeDst (x : BitVec 6) : Bool := x.toNat < 40
def codeAcc (x : BitVec 6) : Bool := x.toNat < 32
def codePair (x : BitVec 6) : Bool := x.toNat < 31
def codePd (x : BitVec 6) : Bool := x.toNat < 8
def codeGrp (n : Nat) (x : BitVec 6) : Bool := x.toNat ≤ 32 - n
def codeX (x : BitVec 6) : Bool := 48 ≤ x.toNat
/-- F of R204: f32, f16 and bf16. -/
def tyF (t : BitVec 2) : Bool := t != tyI32
/-- A rounding mode of R103. -/
def modeOk (p : BitVec 3) : Bool := p.toNat < 5
/-- A level count of R217: 0 to 8 for 32-bit types, 0 to 9 for 16-bit types, bits [5:4] zero. -/
def levelsOk (b : BitVec 6) (t : BitVec 2) : Bool :=
  b.toNat ≤ (if t = tyF16 ∨ t = tyBf16 then 9 else 8)
/-- Byte width of a VCVT format (R213). -/
def cvtWidth : Nat → Nat
  | 0 => 4
  | 1 => 2
  | 2 => 2
  | 3 => 4
  | _ => 1
/-- The part limit of R214: ws/wd for a narrowing, wd/ws for a widening, 1 for an equal width. -/
def cvtParts (s d : Nat) : Nat :=
  if cvtWidth d < cvtWidth s then cvtWidth s / cvtWidth d else cvtWidth d / cvtWidth s
def vcvtOk (d a b : BitVec 6) (p : BitVec 3) (ty : BitVec 2) : Bool :=
  let s := b.toNat / 8
  let f := b.toNat % 8
  codeDst d && codeSrcv a && s < 7 && f < 7 && modeOk p && ty.toNat < cvtParts s f
    && (!(cvtWidth f < cvtWidth s) || d.toNat < 32)

/-- The limits of the seat words (R115); an event is well formed. -/
def Instr.wf : Instr → Bool
  | .add _ _ _ _ => true
  | .sub _ _ _ _ => true
  | .mul _ _ _ _ => true
  | .mulh _ _ _ _ => true
  | .mulhu _ _ _ _ => true
  | .div _ _ _ _ => true
  | .divu _ _ _ _ => true
  | .rem _ _ _ _ => true
  | .and _ _ _ _ => true
  | .or _ _ _ _ => true
  | .xor _ _ _ _ => true
  | .shl _ _ _ _ => true
  | .shr _ _ _ _ => true
  | .sar _ _ _ _ => true
  | .min _ _ _ _ => true
  | .max _ _ _ _ => true
  | .slt _ _ _ _ => true
  | .sltu _ _ _ _ => true
  | .addi _ _ _ _ => true
  | .andi _ _ _ _ => true
  | .ori _ _ _ _ => true
  | .xori _ _ _ _ => true
  | .shli _ _ _ _ => true
  | .shri _ _ _ _ => true
  | .sari _ _ _ _ => true
  | .slti _ _ _ _ => true
  | .lui _ _ _ => true
  | .beq _ _ _ _ => true
  | .bne _ _ _ _ => true
  | .blt _ _ _ _ => true
  | .bge _ _ _ _ => true
  | .bltu _ _ _ _ => true
  | .bgeu _ _ _ _ => true
  | .jmp _ _ => true
  | .jal _ _ => true
  | .jr _ _ => true
  | .lset _ d _ _ => d.toNat < 8
  | .spawn _ _ => true
  | .park _ _ _ _ => true
  | .exit _ => true
  | .cncl _ _ _ fn => fn.toNat < 5
  | .crd _ _ _ _ fn => fn.toNat < 5
  | .sysr _ _ _ => true
  | .sysw _ _ _ => true
  | .trap _ _ => true
  | .rft _ => true
  | .time _ _ => true
  | .scope _ _ _ => true
  | .aadd _ _ _ _ => true
  | .asub _ _ _ _ => true
  | .amul _ _ _ _ => true
  | .aand _ _ _ _ => true
  | .aor _ _ _ _ => true
  | .ashl _ _ _ _ => true
  | .ashr _ _ _ _ => true
  | .aaddi _ _ _ _ => true
  | .alui _ _ _ => true
  | .abeq _ _ _ _ => true
  | .abne _ _ _ _ => true
  | .ablt _ _ _ _ => true
  | .abge _ _ _ _ => true
  | .ajmp _ _ => true
  | .ajr _ _ => true
  | .ldb _ _ _ _ _ _ => true
  | .ldbs _ _ _ _ _ _ => true
  | .ldh _ _ _ _ _ _ => true
  | .ldhs _ _ _ _ _ _ => true
  | .ldw _ _ _ _ _ _ => true
  | .ldws _ _ _ _ _ _ => true
  | .ldd _ _ _ _ _ _ => true
  | .stb _ _ _ _ _ _ => true
  | .sth _ _ _ _ _ _ => true
  | .stw _ _ _ _ _ _ => true
  | .std _ _ _ _ _ _ => true
  | .ldv _ t _ _ _ _ => t.toNat < 8
  | .stv _ t _ _ _ _ => t.toNat < 8
  | .qbind _ d _ r => d.toNat < 8 && r.toNat < 3
  | .qpat _ t _ _ _ c => t.toNat < 8 && c.toNat < 4
  | .qstop _ d => d.toNat < 8
  | .qmc _ t _ _ _ c => t.toNat < 8 && c != 0
  | .amoadd _ _ _ _ _ _ fn => fn.toNat < 2
  | .amomin _ _ _ _ _ _ fn => fn.toNat < 2
  | .amomax _ _ _ _ _ _ fn => fn.toNat < 2
  | .amoand _ _ _ _ _ _ fn => fn.toNat < 2
  | .amoor _ _ _ _ _ _ fn => fn.toNat < 2
  | .amoxor _ _ _ _ _ _ fn => fn.toNat < 2
  | .amoswp _ _ _ _ _ _ fn => fn.toNat < 2
  | .amocas _ _ _ _ _ _ fn => fn.toNat < 2
  | .aset _ _ _ _ _ => true
  | .afree _ _ _ _ _ => true
  | .await _ _ _ _ _ _ => true
  | .aread _ _ _ _ _ _ => true
  | .acred _ _ _ _ _ => true
  | .cpy _ _ _ _ _ => true
  | .gath _ _ _ _ _ => true
  | .scat _ _ _ _ _ => true
  | .cpyr _ _ _ _ _ => true
  | .chlnk _ _ _ _ _ _ => true
  | .chkck _ _ _ _ _ => true
  | .rgres _ _ _ _ _ => true
  | .rgpub _ _ _ _ _ => true
  | .rgpop _ _ _ _ _ _ => true
  | .rgcur _ _ _ _ _ _ => true
  | .waita _ _ _ _ _ => true
  | .vadd _ d a b _ _ => codeDst d && codeSrc a && codeSrc b
  | .vsub _ d a b _ _ => codeDst d && codeSrc a && codeSrc b
  | .vmul _ d a b _ _ => codeDst d && codeSrc a && codeSrc b
  | .vfma _ d a b _ _ => codeAcc d && codeSrc a && codeSrc b
  | .vfms _ d a b _ _ => codeAcc d && codeSrc a && codeSrc b
  | .vscac _ d a b _ ty => codeAcc d && codeSrc a && codeSrc b && ty == tyF32
  | .vmax _ d a b _ _ => codeDst d && codeSrc a && codeSrc b
  | .vmin _ d a b _ _ => codeDst d && codeSrc a && codeSrc b
  | .vabs _ d a _ _ => codeDst d && codeSrc a
  | .vneg _ d a _ _ => codeDst d && codeSrc a
  | .vrcp _ d a _ ty => codeDst d && codeSrc a && tyF ty
  | .vrsq _ d a _ ty => codeDst d && codeSrc a && tyF ty
  | .vexp2 _ d a _ ty => codeDst d && codeSrc a && tyF ty
  | .vlog2 _ d a _ ty => codeDst d && codeSrc a && tyF ty
  | .vcmpeq _ d a b _ _ => codePd d && codeSrc a && codeSrc b
  | .vcmpne _ d a b _ _ => codePd d && codeSrc a && codeSrc b
  | .vcmplt _ d a b _ _ => codePd d && codeSrc a && codeSrc b
  | .vcmple _ d a b _ _ => codePd d && codeSrc a && codeSrc b
  | .vsel _ d a b _ _ => codeDst d && codeSrc a && codeSrc b
  | .vand _ d a b _ ty => codeDst d && codeSrc a && codeSrc b && ty == tyI32
  | .vor _ d a b _ ty => codeDst d && codeSrc a && codeSrc b && ty == tyI32
  | .vxor _ d a b _ ty => codeDst d && codeSrc a && codeSrc b && ty == tyI32
  | .vshl _ d a b _ ty => codeDst d && codeSrc a && codeSrc b && ty == tyI32
  | .vshr _ d a b _ ty => codeDst d && codeSrc a && codeSrc b && ty == tyI32
  | .vsar _ d a b _ ty => codeDst d && codeSrc a && codeSrc b && ty == tyI32
  | .pand _ d a b => codePd d && codePd a && codePd b
  | .por _ d a b => codePd d && codePd a && codePd b
  | .pnot _ d a => codePd d && codePd a
  | .pcnt _ d a => d.toNat < 16 && codePd a
  | .vcvt _ d a b p ty => vcvtOk d a b p ty
  | .vqnt _ d a p ty => codeDst d && codeSrcv a && modeOk p && ty == tyF32
  | .vdq _ d a p ty => codeDst d && codeSrcv a && modeOk p && tyF ty
  | .vrsum _ d a b _ ty => codeDst d && codeSrc a && levelsOk b ty
  | .vrmax _ d a b _ ty => codeDst d && codeSrc a && levelsOk b ty
  | .vperm _ d a b _ _ => codeDst d && codeSrc a && codeSrc b
  | .vbcast _ d a b _ _ => codeDst d && codeSrc a && codeX b
  | .vscan _ d a b _ ty => codeDst d && codeSrc a && levelsOk b ty
  | .vaddiF32 _ d md _ => codeAcc d && md == 0
  | .vmuliF32 _ d md _ => codeAcc d && md == 0
  | .vmoviF32 _ d md _ => codeAcc d && md == 0
  | .vaddiF16 _ d md _ => codeAcc d && md == 0
  | .vmuliF16 _ d md _ => codeAcc d && md == 0
  | .vmoviF16 _ d md _ => codeAcc d && md == 0
  | .vaddiBF16 _ d md _ => codeAcc d && md == 0
  | .vmuliBF16 _ d md _ => codeAcc d && md == 0
  | .vmoviBF16 _ d md _ => codeAcc d && md == 0
  | .vaddiI32 _ d _ _ => codeAcc d
  | .vmoviI32 _ d _ _ => codeAcc d
  | .vandi _ d _ _ => codeAcc d
  | .vori _ d _ _ => codeAcc d
  | .xadd _ _ _ _ _ => true
  | .xsub _ _ _ _ _ => true
  | .xmul _ _ _ _ _ => true
  | .xli _ _ a b _ => b.toNat < 2 && (b != 0 || a == 0)
  | .xget _ _ _ _ => true
  | .xput _ _ _ _ => true
  | .vbz _ _ _ => true
  | .vbnz _ _ _ => true
  | .vjmp _ _ => true
  | .vsweep _ d a b _ ty => codePd d && codeGrp 4 a && codeSrcv b && ty == tyF32
  | .vjlim _ d a b _ ty => codePair d && codeSrc a && codeGrp 6 b && ty == tyF32
  | .vdist _ d a b _ ty => codeDst d && codeGrp 3 a && codeSrcv b && ty == tyF32
  | .vdph _ _ => true
  | .vmov _ d a _ _ => codeDst d && codeSrc a
  | .vpack _ d a b _ _ => codeDst d && codeSrc a && codeSrc b
  | .vunpk _ d a b _ _ => codeDst d && codeSrc a && codeSrc b
  | .vsplt _ d a b _ _ => codeDst d && codeSrc a && codeSrc b
  | .vcat _ d a b _ _ => codeDst d && codeSrc a && codeSrc b
  | .mma _ _ _ _ f _ => f.toNat < 24
  | .mmaj _ _ _ _ f _ => f.toNat < 24
  | .mdrn _ _ => true
  | .mzero _ => true
  | .ftset _ _ _ => true
  | .ftget _ _ _ => true
  | .mpidx _ _ => true
  | .madd _ _ _ _ => true
  | .msub _ _ _ _ => true
  | .mand _ _ _ _ => true
  | .mor _ _ _ _ => true
  | .mshl _ _ _ _ => true
  | .mshr _ _ _ _ => true
  | .mli _ _ _ => true
  | .mlui _ _ _ => true
  | .mbz _ _ _ => true
  | .mbnz _ _ _ => true
  | .mblt _ _ _ _ => true
  | .mjmp _ _ => true
  | .mjr _ _ => true
  | .nop _ => true
  | .mloop _ _ _ stg ms => stg.toNat ≤ ms.toNat
  | .tpost _ _ n => n != 0
  | .twait _ _ n => n != 0
  | .fset _ _ _ => true
  | .fwait _ _ _ => true
  | .brk _ _ => true
  | .bndy _ => true
  | .resultLand _ => true
  | .loadHoldEnd _ => true
  | .queueEntryLand _ _ _ => true
  | .strokeRendezvous _ => true
  | .seatRunOut _ _ => true
  | .operationPerformed _ _ => true
  | .homeWrite _ => true
  | .mirrorAck _ _ => true
  | .guardedDeadline _ => true
  | .slotPoll _ => true
  | .coxSlotPoll _ _ => true
  | .waitaWake _ => true
  | .pageWalkStart _ => true
  | .pageWalkComplete _ _ => true
  | .copySuspend _ _ => true
  | .copyComplete _ _ => true
  | .spillCommandTake _ => true
  | .spillFault _ => true
  | .chainAdvance _ => true
  | .spawnPush _ => true
  | .parkRegister _ => true
  | .unitPlace _ => true
  | .unitRetire _ _ => true
  | .phaseComplete _ _ => true
  | .taskEntryFree _ => true
  | .cancelTimeout _ => true
  | .trapEntry _ => true
  | .masterThaw _ => true
  | .masterReset _ => true
  | .engineFaultTake _ => true
  | .matrixOpStart _ => true
  | .spanToBackBank _ => true
  | .drainEntryPush _ => true
  | .mdrnStart _ => true
  | .mzeroComplete _ => true
  | .jointStart _ => true
  | .jointComplete _ => true
  | .preemptRequest _ _ => true
  | .boundaryStopTimeout _ => true
  | .urgentStopFreeze _ => true
  | .contextSave _ => true
  | .contextRestore _ => true
  | .sliceEnd _ => true
  | .sliceSwitch _ => true
  | .ringSegmentLink _ => true
  | .ringSegmentPoll _ => true
  | .coxRelease _ _ => true
  | .phaseSkip _ _ => true
  | .powerEvaluation _ _ _ => true
  | .powerOn _ _ => true
  | .coldStart _ _ => true
  | .warmStart _ _ => true
  | .startTimeout _ => true
  | .atreq _ _ => true
  | .scrub _ => true
  | .dataErrorDetected _ => true
  | .ringTake _ _ => true
  | .ringWatchWake _ _ => true
  | .rdoor _ _ => true
  | .ringEnable _ _ _ => true
  | .ringDisable _ _ _ => true
  | .phase _ _ => true
  | .cancel _ _ => true
  | .gload _ _ => true
  | .gfree _ _ => true
  | .kload _ _ => true
  | .kfree _ _ => true
  | .jobOpen _ _ => true
  | .jobClose _ _ => true
  | .stream _ _ => true
  | .badCommand _ _ => true
  | .reconfigure _ _ => true
  | .reconfigDrainDone => true
  | .sessionOpen _ _ => true
  | .sessionClose _ _ => true
  | .mailboxBadCode _ _ => true
  | .channelSlot _ _ => true
  | .inboundWrite _ _ _ _ _ => true
  | .ptpEventMessage _ _ _ => true
  | .deviceTimeStep _ _ => true
  | .heartbeatSend _ => true
  | .heartbeatReceive _ => true
  | .peerLossTimeout _ => true
  | .bridgeLinkDown _ => true
  | .isolateAsserted _ => true
  | .streamTakeover _ _ => true
  | .invalPage _ _ => true
  | .invalContext _ _ => true
  | .invalReload _ _ => true
  | .invalComplete _ => true
  | .cpyres _ _ => true
  | .save _ _ => true
  | .svreq _ _ => true
  | .svreqReply _ _ => true
  | .fdata _ _ => true
  | .debugStop _ => true
  | .debugResume _ => true
  | .debugStep _ _ => true
  | .clearConflictCells _ => true
  | .clearReplayLog _ => true
  | .stepDone _ => true
  | .stopAt _ => true
  | .breakpointMatch _ _ => true
  | .dfdata _ _ => true
  | .traceEnable _ _ => true
  | .traceSample _ => true
  | .traceDrain _ => true
  | .crewPowerGate _ _ => true
  | .crewPowerUp _ => true
  | .snapshotGo _ _ => true
  | .snapshotMarker _ _ _ => true
  | .snmk _ _ => true
  | .snapshotDump _ => true
  | .snapshotResume _ => true
  | .registerWrite _ _ _ => true
  | .homeAnswer _ => true
  | .groupBoundary _ => true
  | .lastsentMirrorWrite _ _ _ => true
  | .peerStreamCopy _ _ => true
  | .unsupportedPacket _ => true
  | .rlrd _ _ => true
  | .trrd _ _ => true
  | .clockStop _ => true
  | .clockRestart _ => true
  | .powerLoss _ => true
  | .functionLevelReset _ _ => true
  | .hostLinkDown _ => true
  | .isolateDeasserted _ => true

end Sys2Proof
end

