-- ==== Sys2Proof/Decode.lean ====
section
/-! DEFINITION. Decoding (R113, R114, R117 to R120, R133 to R136): a word in the opcode space of the seat that fetched it, rejected by name, and the
encoder written from the same rows. A reserved field is checked by encoding the instruction again: a word that is not its own encoding
holds a nonzero reserved bit (R8, R115). -/

namespace Sys2Proof

/-- Why a word raises the undefined-instruction trap (R115). -/
inductive Reject
  | unassigned      -- opcode byte 0x00, or not assigned in the fetching seat
  | reservedField   -- a field the instruction leaves reserved is nonzero
  | badField        -- a used field holds a value the instruction does not accept
deriving DecidableEq, Repr

/-- The instruction word (R113), from its row's format; none for an event, which has no word. -/
def encode : Instr → Option Word
  | .add st d a b => some (BitVec.ofBool st ++ 0x01#8 ++ d ++ a ++ b ++ 0#8)
  | .sub st d a b => some (BitVec.ofBool st ++ 0x02#8 ++ d ++ a ++ b ++ 0#8)
  | .mul st d a b => some (BitVec.ofBool st ++ 0x03#8 ++ d ++ a ++ b ++ 0#8)
  | .mulh st d a b => some (BitVec.ofBool st ++ 0x04#8 ++ d ++ a ++ b ++ 0#8)
  | .mulhu st d a b => some (BitVec.ofBool st ++ 0x05#8 ++ d ++ a ++ b ++ 0#8)
  | .div st d a b => some (BitVec.ofBool st ++ 0x06#8 ++ d ++ a ++ b ++ 0#8)
  | .divu st d a b => some (BitVec.ofBool st ++ 0x07#8 ++ d ++ a ++ b ++ 0#8)
  | .rem st d a b => some (BitVec.ofBool st ++ 0x08#8 ++ d ++ a ++ b ++ 0#8)
  | .and st d a b => some (BitVec.ofBool st ++ 0x09#8 ++ d ++ a ++ b ++ 0#8)
  | .or st d a b => some (BitVec.ofBool st ++ 0x0A#8 ++ d ++ a ++ b ++ 0#8)
  | .xor st d a b => some (BitVec.ofBool st ++ 0x0B#8 ++ d ++ a ++ b ++ 0#8)
  | .shl st d a b => some (BitVec.ofBool st ++ 0x0C#8 ++ d ++ a ++ b ++ 0#8)
  | .shr st d a b => some (BitVec.ofBool st ++ 0x0D#8 ++ d ++ a ++ b ++ 0#8)
  | .sar st d a b => some (BitVec.ofBool st ++ 0x0E#8 ++ d ++ a ++ b ++ 0#8)
  | .min st d a b => some (BitVec.ofBool st ++ 0x0F#8 ++ d ++ a ++ b ++ 0#8)
  | .max st d a b => some (BitVec.ofBool st ++ 0x10#8 ++ d ++ a ++ b ++ 0#8)
  | .slt st d a b => some (BitVec.ofBool st ++ 0x11#8 ++ d ++ a ++ b ++ 0#8)
  | .sltu st d a b => some (BitVec.ofBool st ++ 0x12#8 ++ d ++ a ++ b ++ 0#8)
  | .addi st d a imm => some (BitVec.ofBool st ++ 0x18#8 ++ d ++ a ++ imm)
  | .andi st d a imm => some (BitVec.ofBool st ++ 0x19#8 ++ d ++ a ++ imm)
  | .ori st d a imm => some (BitVec.ofBool st ++ 0x1A#8 ++ d ++ a ++ imm)
  | .xori st d a imm => some (BitVec.ofBool st ++ 0x1B#8 ++ d ++ a ++ imm)
  | .shli st d a imm => some (BitVec.ofBool st ++ 0x1C#8 ++ d ++ a ++ 0#7 ++ imm)
  | .shri st d a imm => some (BitVec.ofBool st ++ 0x1D#8 ++ d ++ a ++ 0#7 ++ imm)
  | .sari st d a imm => some (BitVec.ofBool st ++ 0x1E#8 ++ d ++ a ++ 0#7 ++ imm)
  | .slti st d a imm => some (BitVec.ofBool st ++ 0x1F#8 ++ d ++ a ++ imm)
  | .lui st d imm => some (BitVec.ofBool st ++ 0x20#8 ++ d ++ imm)
  | .beq st a b imm => some (BitVec.ofBool st ++ 0x28#8 ++ a ++ b ++ imm)
  | .bne st a b imm => some (BitVec.ofBool st ++ 0x29#8 ++ a ++ b ++ imm)
  | .blt st a b imm => some (BitVec.ofBool st ++ 0x2A#8 ++ a ++ b ++ imm)
  | .bge st a b imm => some (BitVec.ofBool st ++ 0x2B#8 ++ a ++ b ++ imm)
  | .bltu st a b imm => some (BitVec.ofBool st ++ 0x2C#8 ++ a ++ b ++ imm)
  | .bgeu st a b imm => some (BitVec.ofBool st ++ 0x2D#8 ++ a ++ b ++ imm)
  | .jmp st imm => some (BitVec.ofBool st ++ 0x2E#8 ++ imm)
  | .jal st imm => some (BitVec.ofBool st ++ 0x2F#8 ++ imm)
  | .jr st a => some (BitVec.ofBool st ++ 0x30#8 ++ 0#5 ++ a ++ 0#13)
  | .lset st d a imm => some (BitVec.ofBool st ++ 0x38#8 ++ d ++ a ++ imm)
  | .spawn st a => some (BitVec.ofBool st ++ 0x39#8 ++ 0#5 ++ a ++ 0#13)
  | .park st a b fn => some (BitVec.ofBool st ++ 0x3A#8 ++ 0#5 ++ a ++ b ++ 0#7 ++ fn)
  | .exit st => some (BitVec.ofBool st ++ 0x3B#8 ++ 0#23)
  | .cncl st a b fn => some (BitVec.ofBool st ++ 0x3C#8 ++ 0#5 ++ a ++ b ++ 0#5 ++ fn)
  | .crd st d a b fn => some (BitVec.ofBool st ++ 0x3D#8 ++ d ++ a ++ b ++ 0#5 ++ fn)
  | .sysr st d sys => some (BitVec.ofBool st ++ 0x40#8 ++ d ++ 0#5 ++ sys)
  | .sysw st a sys => some (BitVec.ofBool st ++ 0x41#8 ++ 0#5 ++ a ++ sys)
  | .trap st sys => some (BitVec.ofBool st ++ 0x42#8 ++ 0#10 ++ sys)
  | .rft st => some (BitVec.ofBool st ++ 0x43#8 ++ 0#23)
  | .time st d => some (BitVec.ofBool st ++ 0x44#8 ++ d ++ 0#18)
  | .scope st e sm => some (BitVec.ofBool st ++ 0x45#8 ++ 0#16 ++ e ++ sm)
  | .aadd st d a b => some (BitVec.ofBool st ++ 0x01#8 ++ d ++ a ++ b ++ 0#8)
  | .asub st d a b => some (BitVec.ofBool st ++ 0x02#8 ++ d ++ a ++ b ++ 0#8)
  | .amul st d a b => some (BitVec.ofBool st ++ 0x03#8 ++ d ++ a ++ b ++ 0#8)
  | .aand st d a b => some (BitVec.ofBool st ++ 0x04#8 ++ d ++ a ++ b ++ 0#8)
  | .aor st d a b => some (BitVec.ofBool st ++ 0x05#8 ++ d ++ a ++ b ++ 0#8)
  | .ashl st d a b => some (BitVec.ofBool st ++ 0x06#8 ++ d ++ a ++ b ++ 0#8)
  | .ashr st d a b => some (BitVec.ofBool st ++ 0x07#8 ++ d ++ a ++ b ++ 0#8)
  | .aaddi st d a imm => some (BitVec.ofBool st ++ 0x08#8 ++ d ++ a ++ imm)
  | .alui st d imm => some (BitVec.ofBool st ++ 0x09#8 ++ d ++ imm)
  | .abeq st a b imm => some (BitVec.ofBool st ++ 0x10#8 ++ a ++ b ++ imm)
  | .abne st a b imm => some (BitVec.ofBool st ++ 0x11#8 ++ a ++ b ++ imm)
  | .ablt st a b imm => some (BitVec.ofBool st ++ 0x12#8 ++ a ++ b ++ imm)
  | .abge st a b imm => some (BitVec.ofBool st ++ 0x13#8 ++ a ++ b ++ imm)
  | .ajmp st imm => some (BitVec.ofBool st ++ 0x14#8 ++ imm)
  | .ajr st a => some (BitVec.ofBool st ++ 0x15#8 ++ 0#5 ++ a ++ 0#13)
  | .ldb st t b os pm off => some (BitVec.ofBool st ++ 0x20#8 ++ t ++ b ++ os ++ pm ++ off)
  | .ldbs st t b os pm off => some (BitVec.ofBool st ++ 0x21#8 ++ t ++ b ++ os ++ pm ++ off)
  | .ldh st t b os pm off => some (BitVec.ofBool st ++ 0x22#8 ++ t ++ b ++ os ++ pm ++ off)
  | .ldhs st t b os pm off => some (BitVec.ofBool st ++ 0x23#8 ++ t ++ b ++ os ++ pm ++ off)
  | .ldw st t b os pm off => some (BitVec.ofBool st ++ 0x24#8 ++ t ++ b ++ os ++ pm ++ off)
  | .ldws st t b os pm off => some (BitVec.ofBool st ++ 0x25#8 ++ t ++ b ++ os ++ pm ++ off)
  | .ldd st t b os pm off => some (BitVec.ofBool st ++ 0x26#8 ++ t ++ b ++ os ++ pm ++ off)
  | .stb st t b os pm off => some (BitVec.ofBool st ++ 0x27#8 ++ t ++ b ++ os ++ pm ++ off)
  | .sth st t b os pm off => some (BitVec.ofBool st ++ 0x28#8 ++ t ++ b ++ os ++ pm ++ off)
  | .stw st t b os pm off => some (BitVec.ofBool st ++ 0x29#8 ++ t ++ b ++ os ++ pm ++ off)
  | .std st t b os pm off => some (BitVec.ofBool st ++ 0x2A#8 ++ t ++ b ++ os ++ pm ++ off)
  | .ldv st t b os pm off => some (BitVec.ofBool st ++ 0x2B#8 ++ t ++ b ++ os ++ pm ++ off)
  | .stv st t b os pm off => some (BitVec.ofBool st ++ 0x2C#8 ++ t ++ b ++ os ++ pm ++ off)
  | .qbind st d e r => some (BitVec.ofBool st ++ 0x30#8 ++ d ++ 0#14 ++ e ++ r)
  | .qpat st t b os pm c => some (BitVec.ofBool st ++ 0x31#8 ++ t ++ b ++ os ++ pm ++ c ++ 0#2)
  | .qstop st d => some (BitVec.ofBool st ++ 0x32#8 ++ d ++ 0#18)
  | .qmc st t b os pm c => some (BitVec.ofBool st ++ 0x33#8 ++ t ++ b ++ os ++ pm ++ 0#1 ++ c ++ 0#2)
  | .amoadd st t b os pm c fn => some (BitVec.ofBool st ++ 0x38#8 ++ t ++ b ++ os ++ pm ++ c ++ fn)
  | .amomin st t b os pm c fn => some (BitVec.ofBool st ++ 0x39#8 ++ t ++ b ++ os ++ pm ++ c ++ fn)
  | .amomax st t b os pm c fn => some (BitVec.ofBool st ++ 0x3A#8 ++ t ++ b ++ os ++ pm ++ c ++ fn)
  | .amoand st t b os pm c fn => some (BitVec.ofBool st ++ 0x3B#8 ++ t ++ b ++ os ++ pm ++ c ++ fn)
  | .amoor st t b os pm c fn => some (BitVec.ofBool st ++ 0x3C#8 ++ t ++ b ++ os ++ pm ++ c ++ fn)
  | .amoxor st t b os pm c fn => some (BitVec.ofBool st ++ 0x3D#8 ++ t ++ b ++ os ++ pm ++ c ++ fn)
  | .amoswp st t b os pm c fn => some (BitVec.ofBool st ++ 0x3E#8 ++ t ++ b ++ os ++ pm ++ c ++ fn)
  | .amocas st t b os pm c fn => some (BitVec.ofBool st ++ 0x3F#8 ++ t ++ b ++ os ++ pm ++ c ++ fn)
  | .aset st t b os pm => some (BitVec.ofBool st ++ 0x40#8 ++ t ++ b ++ os ++ pm ++ 0#7)
  | .afree st b os pm off => some (BitVec.ofBool st ++ 0x41#8 ++ 0#5 ++ b ++ os ++ pm ++ off)
  | .await st t b os pm off => some (BitVec.ofBool st ++ 0x42#8 ++ t ++ b ++ os ++ pm ++ off)
  | .aread st t b os pm off => some (BitVec.ofBool st ++ 0x43#8 ++ t ++ b ++ os ++ pm ++ off)
  | .acred st b os pm c => some (BitVec.ofBool st ++ 0x44#8 ++ 0#5 ++ b ++ os ++ pm ++ c ++ 0#2)
  | .cpy st b os pm off => some (BitVec.ofBool st ++ 0x48#8 ++ 0#5 ++ b ++ os ++ pm ++ off)
  | .gath st b os pm off => some (BitVec.ofBool st ++ 0x49#8 ++ 0#5 ++ b ++ os ++ pm ++ off)
  | .scat st b os pm off => some (BitVec.ofBool st ++ 0x4A#8 ++ 0#5 ++ b ++ os ++ pm ++ off)
  | .cpyr st b os pm off => some (BitVec.ofBool st ++ 0x4B#8 ++ 0#5 ++ b ++ os ++ pm ++ off)
  | .chlnk st t b os pm off => some (BitVec.ofBool st ++ 0x50#8 ++ t ++ b ++ os ++ pm ++ off)
  | .chkck st b os pm off => some (BitVec.ofBool st ++ 0x51#8 ++ 0#5 ++ b ++ os ++ pm ++ off)
  | .rgres st t b os pm => some (BitVec.ofBool st ++ 0x58#8 ++ t ++ b ++ os ++ pm ++ 0#7)
  | .rgpub st t b os pm => some (BitVec.ofBool st ++ 0x59#8 ++ t ++ b ++ os ++ pm ++ 0#7)
  | .rgpop st t b os pm c => some (BitVec.ofBool st ++ 0x5A#8 ++ t ++ b ++ os ++ pm ++ c ++ 0#2)
  | .rgcur st t b os pm c => some (BitVec.ofBool st ++ 0x5B#8 ++ t ++ b ++ os ++ pm ++ c ++ 0#2)
  | .waita st b os pm off => some (BitVec.ofBool st ++ 0x60#8 ++ 0#5 ++ b ++ os ++ pm ++ off)
  | .vadd st d a b p ty => some (BitVec.ofBool st ++ 0x01#8 ++ d ++ a ++ b ++ p ++ ty)
  | .vsub st d a b p ty => some (BitVec.ofBool st ++ 0x02#8 ++ d ++ a ++ b ++ p ++ ty)
  | .vmul st d a b p ty => some (BitVec.ofBool st ++ 0x03#8 ++ d ++ a ++ b ++ p ++ ty)
  | .vfma st d a b p ty => some (BitVec.ofBool st ++ 0x04#8 ++ d ++ a ++ b ++ p ++ ty)
  | .vfms st d a b p ty => some (BitVec.ofBool st ++ 0x05#8 ++ d ++ a ++ b ++ p ++ ty)
  | .vscac st d a b p ty => some (BitVec.ofBool st ++ 0x06#8 ++ d ++ a ++ b ++ p ++ ty)
  | .vmax st d a b p ty => some (BitVec.ofBool st ++ 0x07#8 ++ d ++ a ++ b ++ p ++ ty)
  | .vmin st d a b p ty => some (BitVec.ofBool st ++ 0x08#8 ++ d ++ a ++ b ++ p ++ ty)
  | .vabs st d a p ty => some (BitVec.ofBool st ++ 0x09#8 ++ d ++ a ++ 0#6 ++ p ++ ty)
  | .vneg st d a p ty => some (BitVec.ofBool st ++ 0x0A#8 ++ d ++ a ++ 0#6 ++ p ++ ty)
  | .vrcp st d a p ty => some (BitVec.ofBool st ++ 0x0B#8 ++ d ++ a ++ 0#6 ++ p ++ ty)
  | .vrsq st d a p ty => some (BitVec.ofBool st ++ 0x0C#8 ++ d ++ a ++ 0#6 ++ p ++ ty)
  | .vexp2 st d a p ty => some (BitVec.ofBool st ++ 0x0D#8 ++ d ++ a ++ 0#6 ++ p ++ ty)
  | .vlog2 st d a p ty => some (BitVec.ofBool st ++ 0x0E#8 ++ d ++ a ++ 0#6 ++ p ++ ty)
  | .vcmpeq st d a b p ty => some (BitVec.ofBool st ++ 0x10#8 ++ d ++ a ++ b ++ p ++ ty)
  | .vcmpne st d a b p ty => some (BitVec.ofBool st ++ 0x11#8 ++ d ++ a ++ b ++ p ++ ty)
  | .vcmplt st d a b p ty => some (BitVec.ofBool st ++ 0x12#8 ++ d ++ a ++ b ++ p ++ ty)
  | .vcmple st d a b p ty => some (BitVec.ofBool st ++ 0x13#8 ++ d ++ a ++ b ++ p ++ ty)
  | .vsel st d a b p ty => some (BitVec.ofBool st ++ 0x14#8 ++ d ++ a ++ b ++ p ++ ty)
  | .vand st d a b p ty => some (BitVec.ofBool st ++ 0x18#8 ++ d ++ a ++ b ++ p ++ ty)
  | .vor st d a b p ty => some (BitVec.ofBool st ++ 0x19#8 ++ d ++ a ++ b ++ p ++ ty)
  | .vxor st d a b p ty => some (BitVec.ofBool st ++ 0x1A#8 ++ d ++ a ++ b ++ p ++ ty)
  | .vshl st d a b p ty => some (BitVec.ofBool st ++ 0x1B#8 ++ d ++ a ++ b ++ p ++ ty)
  | .vshr st d a b p ty => some (BitVec.ofBool st ++ 0x1C#8 ++ d ++ a ++ b ++ p ++ ty)
  | .vsar st d a b p ty => some (BitVec.ofBool st ++ 0x1D#8 ++ d ++ a ++ b ++ p ++ ty)
  | .pand st d a b => some (BitVec.ofBool st ++ 0x20#8 ++ d ++ a ++ b ++ 0#5)
  | .por st d a b => some (BitVec.ofBool st ++ 0x21#8 ++ d ++ a ++ b ++ 0#5)
  | .pnot st d a => some (BitVec.ofBool st ++ 0x22#8 ++ d ++ a ++ 0#11)
  | .pcnt st d a => some (BitVec.ofBool st ++ 0x23#8 ++ d ++ a ++ 0#11)
  | .vcvt st d a b p ty => some (BitVec.ofBool st ++ 0x28#8 ++ d ++ a ++ b ++ p ++ ty)
  | .vqnt st d a p ty => some (BitVec.ofBool st ++ 0x29#8 ++ d ++ a ++ 0#6 ++ p ++ ty)
  | .vdq st d a p ty => some (BitVec.ofBool st ++ 0x2A#8 ++ d ++ a ++ 0#6 ++ p ++ ty)
  | .vrsum st d a b p ty => some (BitVec.ofBool st ++ 0x30#8 ++ d ++ a ++ b ++ p ++ ty)
  | .vrmax st d a b p ty => some (BitVec.ofBool st ++ 0x31#8 ++ d ++ a ++ b ++ p ++ ty)
  | .vperm st d a b p ty => some (BitVec.ofBool st ++ 0x32#8 ++ d ++ a ++ b ++ p ++ ty)
  | .vbcast st d a b p ty => some (BitVec.ofBool st ++ 0x33#8 ++ d ++ a ++ b ++ p ++ ty)
  | .vscan st d a b p ty => some (BitVec.ofBool st ++ 0x34#8 ++ d ++ a ++ b ++ p ++ ty)
  | .vaddiF32 st d md imm => some (BitVec.ofBool st ++ 0x38#8 ++ d ++ md ++ imm)
  | .vmuliF32 st d md imm => some (BitVec.ofBool st ++ 0x39#8 ++ d ++ md ++ imm)
  | .vmoviF32 st d md imm => some (BitVec.ofBool st ++ 0x3A#8 ++ d ++ md ++ imm)
  | .vaddiF16 st d md imm => some (BitVec.ofBool st ++ 0x3B#8 ++ d ++ md ++ imm)
  | .vmuliF16 st d md imm => some (BitVec.ofBool st ++ 0x3C#8 ++ d ++ md ++ imm)
  | .vmoviF16 st d md imm => some (BitVec.ofBool st ++ 0x3D#8 ++ d ++ md ++ imm)
  | .vaddiBF16 st d md imm => some (BitVec.ofBool st ++ 0x3E#8 ++ d ++ md ++ imm)
  | .vmuliBF16 st d md imm => some (BitVec.ofBool st ++ 0x3F#8 ++ d ++ md ++ imm)
  | .vmoviBF16 st d md imm => some (BitVec.ofBool st ++ 0x40#8 ++ d ++ md ++ imm)
  | .vaddiI32 st d md imm => some (BitVec.ofBool st ++ 0x41#8 ++ d ++ md ++ imm)
  | .vmoviI32 st d md imm => some (BitVec.ofBool st ++ 0x42#8 ++ d ++ md ++ imm)
  | .vandi st d md imm => some (BitVec.ofBool st ++ 0x43#8 ++ d ++ md ++ imm)
  | .vori st d md imm => some (BitVec.ofBool st ++ 0x44#8 ++ d ++ md ++ imm)
  | .xadd st d a b imm => some (BitVec.ofBool st ++ 0x48#8 ++ d ++ a ++ b ++ imm)
  | .xsub st d a b imm => some (BitVec.ofBool st ++ 0x49#8 ++ d ++ a ++ b ++ imm)
  | .xmul st d a b imm => some (BitVec.ofBool st ++ 0x4A#8 ++ d ++ a ++ b ++ 0#5 ++ imm)
  | .xli st d a b imm => some (BitVec.ofBool st ++ 0x4B#8 ++ d ++ a ++ b ++ imm)
  | .xget st d b vr => some (BitVec.ofBool st ++ 0x4C#8 ++ d ++ 0#4 ++ b ++ 0#6 ++ vr)
  | .xput st a b vr => some (BitVec.ofBool st ++ 0x4D#8 ++ 0#4 ++ a ++ b ++ 0#6 ++ vr)
  | .vbz st a imm => some (BitVec.ofBool st ++ 0x50#8 ++ a ++ imm)
  | .vbnz st a imm => some (BitVec.ofBool st ++ 0x51#8 ++ a ++ imm)
  | .vjmp st imm => some (BitVec.ofBool st ++ 0x52#8 ++ imm)
  | .vsweep st d a b p ty => some (BitVec.ofBool st ++ 0x58#8 ++ d ++ a ++ b ++ p ++ ty)
  | .vjlim st d a b p ty => some (BitVec.ofBool st ++ 0x59#8 ++ d ++ a ++ b ++ p ++ ty)
  | .vdist st d a b p ty => some (BitVec.ofBool st ++ 0x5A#8 ++ d ++ a ++ b ++ p ++ ty)
  | .vdph st imm => some (BitVec.ofBool st ++ 0x5B#8 ++ 0#20 ++ imm)
  | .vmov st d a p ty => some (BitVec.ofBool st ++ 0x60#8 ++ d ++ a ++ 0#6 ++ p ++ ty)
  | .vpack st d a b p ty => some (BitVec.ofBool st ++ 0x61#8 ++ d ++ a ++ b ++ p ++ ty)
  | .vunpk st d a b p ty => some (BitVec.ofBool st ++ 0x62#8 ++ d ++ a ++ b ++ p ++ ty)
  | .vsplt st d a b p ty => some (BitVec.ofBool st ++ 0x63#8 ++ d ++ a ++ b ++ p ++ ty)
  | .vcat st d a b p ty => some (BitVec.ofBool st ++ 0x64#8 ++ d ++ a ++ b ++ p ++ ty)
  | .mma st o a b f kk => some (BitVec.ofBool st ++ 0x01#8 ++ o ++ a ++ b ++ f ++ kk)
  | .mmaj st o a b f kk => some (BitVec.ofBool st ++ 0x02#8 ++ o ++ a ++ b ++ f ++ kk)
  | .mdrn st o => some (BitVec.ofBool st ++ 0x03#8 ++ o ++ 0#20)
  | .mzero st => some (BitVec.ofBool st ++ 0x04#8 ++ 0#23)
  | .ftset st a e => some (BitVec.ofBool st ++ 0x08#8 ++ 0#4 ++ a ++ 0#11 ++ e)
  | .ftget st d e => some (BitVec.ofBool st ++ 0x09#8 ++ d ++ 0#15 ++ e)
  | .mpidx st d => some (BitVec.ofBool st ++ 0x0A#8 ++ d ++ 0#19)
  | .madd st d a imm => some (BitVec.ofBool st ++ 0x10#8 ++ d ++ a ++ imm)
  | .msub st d a imm => some (BitVec.ofBool st ++ 0x11#8 ++ d ++ a ++ imm)
  | .mand st d a imm => some (BitVec.ofBool st ++ 0x12#8 ++ d ++ a ++ imm)
  | .mor st d a imm => some (BitVec.ofBool st ++ 0x13#8 ++ d ++ a ++ imm)
  | .mshl st d a imm => some (BitVec.ofBool st ++ 0x14#8 ++ d ++ a ++ 0#9 ++ imm)
  | .mshr st d a imm => some (BitVec.ofBool st ++ 0x15#8 ++ d ++ a ++ 0#9 ++ imm)
  | .mli st d imm => some (BitVec.ofBool st ++ 0x16#8 ++ d ++ 0#4 ++ imm)
  | .mlui st d imm => some (BitVec.ofBool st ++ 0x17#8 ++ d ++ 0#4 ++ imm)
  | .mbz st a imm => some (BitVec.ofBool st ++ 0x18#8 ++ a ++ 0#4 ++ imm)
  | .mbnz st a imm => some (BitVec.ofBool st ++ 0x19#8 ++ a ++ 0#4 ++ imm)
  | .mblt st a b imm => some (BitVec.ofBool st ++ 0x1A#8 ++ a ++ b ++ imm)
  | .mjmp st imm => some (BitVec.ofBool st ++ 0x1B#8 ++ imm)
  | .mjr st a => some (BitVec.ofBool st ++ 0x1C#8 ++ a ++ 0#19)
  | .nop st => some (BitVec.ofBool st ++ 0xF8#8 ++ 0#23)
  | .mloop st l n stg ms => some (BitVec.ofBool st ++ 0xF9#8 ++ l ++ n ++ stg ++ ms ++ 0#8)
  | .tpost st k n => some (BitVec.ofBool st ++ 0xFA#8 ++ k ++ n ++ 0#11)
  | .twait st k n => some (BitVec.ofBool st ++ 0xFB#8 ++ k ++ n ++ 0#11)
  | .fset st f v => some (BitVec.ofBool st ++ 0xFC#8 ++ f ++ v ++ 0#19)
  | .fwait st f v => some (BitVec.ofBool st ++ 0xFD#8 ++ f ++ v ++ 0#19)
  | .brk st c => some (BitVec.ofBool st ++ 0xFE#8 ++ c ++ 0#15)
  | .bndy st => some (BitVec.ofBool st ++ 0xFF#8 ++ 0#23)
  | _ => none

/-- The C-seat map (R133): the fields of a word, its reserved bits not yet looked at. -/
def fieldsC (w : Word) : Option Instr :=
  let st := w.getLsbD 31
  match (w.extractLsb' 23 8).toNat with
  | 0x01 => some (.add st (w.extractLsb' 18 5) (w.extractLsb' 13 5) (w.extractLsb' 8 5))
  | 0x02 => some (.sub st (w.extractLsb' 18 5) (w.extractLsb' 13 5) (w.extractLsb' 8 5))
  | 0x03 => some (.mul st (w.extractLsb' 18 5) (w.extractLsb' 13 5) (w.extractLsb' 8 5))
  | 0x04 => some (.mulh st (w.extractLsb' 18 5) (w.extractLsb' 13 5) (w.extractLsb' 8 5))
  | 0x05 => some (.mulhu st (w.extractLsb' 18 5) (w.extractLsb' 13 5) (w.extractLsb' 8 5))
  | 0x06 => some (.div st (w.extractLsb' 18 5) (w.extractLsb' 13 5) (w.extractLsb' 8 5))
  | 0x07 => some (.divu st (w.extractLsb' 18 5) (w.extractLsb' 13 5) (w.extractLsb' 8 5))
  | 0x08 => some (.rem st (w.extractLsb' 18 5) (w.extractLsb' 13 5) (w.extractLsb' 8 5))
  | 0x09 => some (.and st (w.extractLsb' 18 5) (w.extractLsb' 13 5) (w.extractLsb' 8 5))
  | 0x0A => some (.or st (w.extractLsb' 18 5) (w.extractLsb' 13 5) (w.extractLsb' 8 5))
  | 0x0B => some (.xor st (w.extractLsb' 18 5) (w.extractLsb' 13 5) (w.extractLsb' 8 5))
  | 0x0C => some (.shl st (w.extractLsb' 18 5) (w.extractLsb' 13 5) (w.extractLsb' 8 5))
  | 0x0D => some (.shr st (w.extractLsb' 18 5) (w.extractLsb' 13 5) (w.extractLsb' 8 5))
  | 0x0E => some (.sar st (w.extractLsb' 18 5) (w.extractLsb' 13 5) (w.extractLsb' 8 5))
  | 0x0F => some (.min st (w.extractLsb' 18 5) (w.extractLsb' 13 5) (w.extractLsb' 8 5))
  | 0x10 => some (.max st (w.extractLsb' 18 5) (w.extractLsb' 13 5) (w.extractLsb' 8 5))
  | 0x11 => some (.slt st (w.extractLsb' 18 5) (w.extractLsb' 13 5) (w.extractLsb' 8 5))
  | 0x12 => some (.sltu st (w.extractLsb' 18 5) (w.extractLsb' 13 5) (w.extractLsb' 8 5))
  | 0x18 => some (.addi st (w.extractLsb' 18 5) (w.extractLsb' 13 5) (w.extractLsb' 0 13))
  | 0x19 => some (.andi st (w.extractLsb' 18 5) (w.extractLsb' 13 5) (w.extractLsb' 0 13))
  | 0x1A => some (.ori st (w.extractLsb' 18 5) (w.extractLsb' 13 5) (w.extractLsb' 0 13))
  | 0x1B => some (.xori st (w.extractLsb' 18 5) (w.extractLsb' 13 5) (w.extractLsb' 0 13))
  | 0x1C => some (.shli st (w.extractLsb' 18 5) (w.extractLsb' 13 5) (w.extractLsb' 0 6))
  | 0x1D => some (.shri st (w.extractLsb' 18 5) (w.extractLsb' 13 5) (w.extractLsb' 0 6))
  | 0x1E => some (.sari st (w.extractLsb' 18 5) (w.extractLsb' 13 5) (w.extractLsb' 0 6))
  | 0x1F => some (.slti st (w.extractLsb' 18 5) (w.extractLsb' 13 5) (w.extractLsb' 0 13))
  | 0x20 => some (.lui st (w.extractLsb' 18 5) (w.extractLsb' 0 18))
  | 0x28 => some (.beq st (w.extractLsb' 18 5) (w.extractLsb' 13 5) (w.extractLsb' 0 13))
  | 0x29 => some (.bne st (w.extractLsb' 18 5) (w.extractLsb' 13 5) (w.extractLsb' 0 13))
  | 0x2A => some (.blt st (w.extractLsb' 18 5) (w.extractLsb' 13 5) (w.extractLsb' 0 13))
  | 0x2B => some (.bge st (w.extractLsb' 18 5) (w.extractLsb' 13 5) (w.extractLsb' 0 13))
  | 0x2C => some (.bltu st (w.extractLsb' 18 5) (w.extractLsb' 13 5) (w.extractLsb' 0 13))
  | 0x2D => some (.bgeu st (w.extractLsb' 18 5) (w.extractLsb' 13 5) (w.extractLsb' 0 13))
  | 0x2E => some (.jmp st (w.extractLsb' 0 23))
  | 0x2F => some (.jal st (w.extractLsb' 0 23))
  | 0x30 => some (.jr st (w.extractLsb' 13 5))
  | 0x38 => some (.lset st (w.extractLsb' 18 5) (w.extractLsb' 13 5) (w.extractLsb' 0 13))
  | 0x39 => some (.spawn st (w.extractLsb' 13 5))
  | 0x3A => some (.park st (w.extractLsb' 13 5) (w.extractLsb' 8 5) (w.extractLsb' 0 1))
  | 0x3B => some (.exit st)
  | 0x3C => some (.cncl st (w.extractLsb' 13 5) (w.extractLsb' 8 5) (w.extractLsb' 0 3))
  | 0x3D => some (.crd st (w.extractLsb' 18 5) (w.extractLsb' 13 5) (w.extractLsb' 8 5) (w.extractLsb' 0 3))
  | 0x40 => some (.sysr st (w.extractLsb' 18 5) (w.extractLsb' 0 13))
  | 0x41 => some (.sysw st (w.extractLsb' 13 5) (w.extractLsb' 0 13))
  | 0x42 => some (.trap st (w.extractLsb' 0 13))
  | 0x43 => some (.rft st)
  | 0x44 => some (.time st (w.extractLsb' 18 5))
  | 0x45 => some (.scope st (w.extractLsb' 2 5) (w.extractLsb' 0 2))
  | _ => none

/-- The A-seat map (R134). -/
def fieldsA (w : Word) : Option Instr :=
  let st := w.getLsbD 31
  match (w.extractLsb' 23 8).toNat with
  | 0x01 => some (.aadd st (w.extractLsb' 18 5) (w.extractLsb' 13 5) (w.extractLsb' 8 5))
  | 0x02 => some (.asub st (w.extractLsb' 18 5) (w.extractLsb' 13 5) (w.extractLsb' 8 5))
  | 0x03 => some (.amul st (w.extractLsb' 18 5) (w.extractLsb' 13 5) (w.extractLsb' 8 5))
  | 0x04 => some (.aand st (w.extractLsb' 18 5) (w.extractLsb' 13 5) (w.extractLsb' 8 5))
  | 0x05 => some (.aor st (w.extractLsb' 18 5) (w.extractLsb' 13 5) (w.extractLsb' 8 5))
  | 0x06 => some (.ashl st (w.extractLsb' 18 5) (w.extractLsb' 13 5) (w.extractLsb' 8 5))
  | 0x07 => some (.ashr st (w.extractLsb' 18 5) (w.extractLsb' 13 5) (w.extractLsb' 8 5))
  | 0x08 => some (.aaddi st (w.extractLsb' 18 5) (w.extractLsb' 13 5) (w.extractLsb' 0 13))
  | 0x09 => some (.alui st (w.extractLsb' 18 5) (w.extractLsb' 0 18))
  | 0x10 => some (.abeq st (w.extractLsb' 18 5) (w.extractLsb' 13 5) (w.extractLsb' 0 13))
  | 0x11 => some (.abne st (w.extractLsb' 18 5) (w.extractLsb' 13 5) (w.extractLsb' 0 13))
  | 0x12 => some (.ablt st (w.extractLsb' 18 5) (w.extractLsb' 13 5) (w.extractLsb' 0 13))
  | 0x13 => some (.abge st (w.extractLsb' 18 5) (w.extractLsb' 13 5) (w.extractLsb' 0 13))
  | 0x14 => some (.ajmp st (w.extractLsb' 0 23))
  | 0x15 => some (.ajr st (w.extractLsb' 13 5))
  | 0x20 => some (.ldb st (w.extractLsb' 18 5) (w.extractLsb' 13 5) (w.extractLsb' 11 2) (w.extractLsb' 7 4) (w.extractLsb' 0 7))
  | 0x21 => some (.ldbs st (w.extractLsb' 18 5) (w.extractLsb' 13 5) (w.extractLsb' 11 2) (w.extractLsb' 7 4) (w.extractLsb' 0 7))
  | 0x22 => some (.ldh st (w.extractLsb' 18 5) (w.extractLsb' 13 5) (w.extractLsb' 11 2) (w.extractLsb' 7 4) (w.extractLsb' 0 7))
  | 0x23 => some (.ldhs st (w.extractLsb' 18 5) (w.extractLsb' 13 5) (w.extractLsb' 11 2) (w.extractLsb' 7 4) (w.extractLsb' 0 7))
  | 0x24 => some (.ldw st (w.extractLsb' 18 5) (w.extractLsb' 13 5) (w.extractLsb' 11 2) (w.extractLsb' 7 4) (w.extractLsb' 0 7))
  | 0x25 => some (.ldws st (w.extractLsb' 18 5) (w.extractLsb' 13 5) (w.extractLsb' 11 2) (w.extractLsb' 7 4) (w.extractLsb' 0 7))
  | 0x26 => some (.ldd st (w.extractLsb' 18 5) (w.extractLsb' 13 5) (w.extractLsb' 11 2) (w.extractLsb' 7 4) (w.extractLsb' 0 7))
  | 0x27 => some (.stb st (w.extractLsb' 18 5) (w.extractLsb' 13 5) (w.extractLsb' 11 2) (w.extractLsb' 7 4) (w.extractLsb' 0 7))
  | 0x28 => some (.sth st (w.extractLsb' 18 5) (w.extractLsb' 13 5) (w.extractLsb' 11 2) (w.extractLsb' 7 4) (w.extractLsb' 0 7))
  | 0x29 => some (.stw st (w.extractLsb' 18 5) (w.extractLsb' 13 5) (w.extractLsb' 11 2) (w.extractLsb' 7 4) (w.extractLsb' 0 7))
  | 0x2A => some (.std st (w.extractLsb' 18 5) (w.extractLsb' 13 5) (w.extractLsb' 11 2) (w.extractLsb' 7 4) (w.extractLsb' 0 7))
  | 0x2B => some (.ldv st (w.extractLsb' 18 5) (w.extractLsb' 13 5) (w.extractLsb' 11 2) (w.extractLsb' 7 4) (w.extractLsb' 0 7))
  | 0x2C => some (.stv st (w.extractLsb' 18 5) (w.extractLsb' 13 5) (w.extractLsb' 11 2) (w.extractLsb' 7 4) (w.extractLsb' 0 7))
  | 0x30 => some (.qbind st (w.extractLsb' 18 5) (w.extractLsb' 2 2) (w.extractLsb' 0 2))
  | 0x31 => some (.qpat st (w.extractLsb' 18 5) (w.extractLsb' 13 5) (w.extractLsb' 11 2) (w.extractLsb' 7 4) (w.extractLsb' 2 5))
  | 0x32 => some (.qstop st (w.extractLsb' 18 5))
  | 0x33 => some (.qmc st (w.extractLsb' 18 5) (w.extractLsb' 13 5) (w.extractLsb' 11 2) (w.extractLsb' 7 4) (w.extractLsb' 2 4))
  | 0x38 => some (.amoadd st (w.extractLsb' 18 5) (w.extractLsb' 13 5) (w.extractLsb' 11 2) (w.extractLsb' 7 4) (w.extractLsb' 2 5) (w.extractLsb' 0 2))
  | 0x39 => some (.amomin st (w.extractLsb' 18 5) (w.extractLsb' 13 5) (w.extractLsb' 11 2) (w.extractLsb' 7 4) (w.extractLsb' 2 5) (w.extractLsb' 0 2))
  | 0x3A => some (.amomax st (w.extractLsb' 18 5) (w.extractLsb' 13 5) (w.extractLsb' 11 2) (w.extractLsb' 7 4) (w.extractLsb' 2 5) (w.extractLsb' 0 2))
  | 0x3B => some (.amoand st (w.extractLsb' 18 5) (w.extractLsb' 13 5) (w.extractLsb' 11 2) (w.extractLsb' 7 4) (w.extractLsb' 2 5) (w.extractLsb' 0 2))
  | 0x3C => some (.amoor st (w.extractLsb' 18 5) (w.extractLsb' 13 5) (w.extractLsb' 11 2) (w.extractLsb' 7 4) (w.extractLsb' 2 5) (w.extractLsb' 0 2))
  | 0x3D => some (.amoxor st (w.extractLsb' 18 5) (w.extractLsb' 13 5) (w.extractLsb' 11 2) (w.extractLsb' 7 4) (w.extractLsb' 2 5) (w.extractLsb' 0 2))
  | 0x3E => some (.amoswp st (w.extractLsb' 18 5) (w.extractLsb' 13 5) (w.extractLsb' 11 2) (w.extractLsb' 7 4) (w.extractLsb' 2 5) (w.extractLsb' 0 2))
  | 0x3F => some (.amocas st (w.extractLsb' 18 5) (w.extractLsb' 13 5) (w.extractLsb' 11 2) (w.extractLsb' 7 4) (w.extractLsb' 2 5) (w.extractLsb' 0 2))
  | 0x40 => some (.aset st (w.extractLsb' 18 5) (w.extractLsb' 13 5) (w.extractLsb' 11 2) (w.extractLsb' 7 4))
  | 0x41 => some (.afree st (w.extractLsb' 13 5) (w.extractLsb' 11 2) (w.extractLsb' 7 4) (w.extractLsb' 0 7))
  | 0x42 => some (.await st (w.extractLsb' 18 5) (w.extractLsb' 13 5) (w.extractLsb' 11 2) (w.extractLsb' 7 4) (w.extractLsb' 0 7))
  | 0x43 => some (.aread st (w.extractLsb' 18 5) (w.extractLsb' 13 5) (w.extractLsb' 11 2) (w.extractLsb' 7 4) (w.extractLsb' 0 7))
  | 0x44 => some (.acred st (w.extractLsb' 13 5) (w.extractLsb' 11 2) (w.extractLsb' 7 4) (w.extractLsb' 2 5))
  | 0x48 => some (.cpy st (w.extractLsb' 13 5) (w.extractLsb' 11 2) (w.extractLsb' 7 4) (w.extractLsb' 0 7))
  | 0x49 => some (.gath st (w.extractLsb' 13 5) (w.extractLsb' 11 2) (w.extractLsb' 7 4) (w.extractLsb' 0 7))
  | 0x4A => some (.scat st (w.extractLsb' 13 5) (w.extractLsb' 11 2) (w.extractLsb' 7 4) (w.extractLsb' 0 7))
  | 0x4B => some (.cpyr st (w.extractLsb' 13 5) (w.extractLsb' 11 2) (w.extractLsb' 7 4) (w.extractLsb' 0 7))
  | 0x50 => some (.chlnk st (w.extractLsb' 18 5) (w.extractLsb' 13 5) (w.extractLsb' 11 2) (w.extractLsb' 7 4) (w.extractLsb' 0 7))
  | 0x51 => some (.chkck st (w.extractLsb' 13 5) (w.extractLsb' 11 2) (w.extractLsb' 7 4) (w.extractLsb' 0 7))
  | 0x58 => some (.rgres st (w.extractLsb' 18 5) (w.extractLsb' 13 5) (w.extractLsb' 11 2) (w.extractLsb' 7 4))
  | 0x59 => some (.rgpub st (w.extractLsb' 18 5) (w.extractLsb' 13 5) (w.extractLsb' 11 2) (w.extractLsb' 7 4))
  | 0x5A => some (.rgpop st (w.extractLsb' 18 5) (w.extractLsb' 13 5) (w.extractLsb' 11 2) (w.extractLsb' 7 4) (w.extractLsb' 2 5))
  | 0x5B => some (.rgcur st (w.extractLsb' 18 5) (w.extractLsb' 13 5) (w.extractLsb' 11 2) (w.extractLsb' 7 4) (w.extractLsb' 2 5))
  | 0x60 => some (.waita st (w.extractLsb' 13 5) (w.extractLsb' 11 2) (w.extractLsb' 7 4) (w.extractLsb' 0 7))
  | _ => none

/-- The V-seat map (R135). -/
def fieldsV (w : Word) : Option Instr :=
  let st := w.getLsbD 31
  match (w.extractLsb' 23 8).toNat with
  | 0x01 => some (.vadd st (w.extractLsb' 17 6) (w.extractLsb' 11 6) (w.extractLsb' 5 6) (w.extractLsb' 2 3) (w.extractLsb' 0 2))
  | 0x02 => some (.vsub st (w.extractLsb' 17 6) (w.extractLsb' 11 6) (w.extractLsb' 5 6) (w.extractLsb' 2 3) (w.extractLsb' 0 2))
  | 0x03 => some (.vmul st (w.extractLsb' 17 6) (w.extractLsb' 11 6) (w.extractLsb' 5 6) (w.extractLsb' 2 3) (w.extractLsb' 0 2))
  | 0x04 => some (.vfma st (w.extractLsb' 17 6) (w.extractLsb' 11 6) (w.extractLsb' 5 6) (w.extractLsb' 2 3) (w.extractLsb' 0 2))
  | 0x05 => some (.vfms st (w.extractLsb' 17 6) (w.extractLsb' 11 6) (w.extractLsb' 5 6) (w.extractLsb' 2 3) (w.extractLsb' 0 2))
  | 0x06 => some (.vscac st (w.extractLsb' 17 6) (w.extractLsb' 11 6) (w.extractLsb' 5 6) (w.extractLsb' 2 3) (w.extractLsb' 0 2))
  | 0x07 => some (.vmax st (w.extractLsb' 17 6) (w.extractLsb' 11 6) (w.extractLsb' 5 6) (w.extractLsb' 2 3) (w.extractLsb' 0 2))
  | 0x08 => some (.vmin st (w.extractLsb' 17 6) (w.extractLsb' 11 6) (w.extractLsb' 5 6) (w.extractLsb' 2 3) (w.extractLsb' 0 2))
  | 0x09 => some (.vabs st (w.extractLsb' 17 6) (w.extractLsb' 11 6) (w.extractLsb' 2 3) (w.extractLsb' 0 2))
  | 0x0A => some (.vneg st (w.extractLsb' 17 6) (w.extractLsb' 11 6) (w.extractLsb' 2 3) (w.extractLsb' 0 2))
  | 0x0B => some (.vrcp st (w.extractLsb' 17 6) (w.extractLsb' 11 6) (w.extractLsb' 2 3) (w.extractLsb' 0 2))
  | 0x0C => some (.vrsq st (w.extractLsb' 17 6) (w.extractLsb' 11 6) (w.extractLsb' 2 3) (w.extractLsb' 0 2))
  | 0x0D => some (.vexp2 st (w.extractLsb' 17 6) (w.extractLsb' 11 6) (w.extractLsb' 2 3) (w.extractLsb' 0 2))
  | 0x0E => some (.vlog2 st (w.extractLsb' 17 6) (w.extractLsb' 11 6) (w.extractLsb' 2 3) (w.extractLsb' 0 2))
  | 0x10 => some (.vcmpeq st (w.extractLsb' 17 6) (w.extractLsb' 11 6) (w.extractLsb' 5 6) (w.extractLsb' 2 3) (w.extractLsb' 0 2))
  | 0x11 => some (.vcmpne st (w.extractLsb' 17 6) (w.extractLsb' 11 6) (w.extractLsb' 5 6) (w.extractLsb' 2 3) (w.extractLsb' 0 2))
  | 0x12 => some (.vcmplt st (w.extractLsb' 17 6) (w.extractLsb' 11 6) (w.extractLsb' 5 6) (w.extractLsb' 2 3) (w.extractLsb' 0 2))
  | 0x13 => some (.vcmple st (w.extractLsb' 17 6) (w.extractLsb' 11 6) (w.extractLsb' 5 6) (w.extractLsb' 2 3) (w.extractLsb' 0 2))
  | 0x14 => some (.vsel st (w.extractLsb' 17 6) (w.extractLsb' 11 6) (w.extractLsb' 5 6) (w.extractLsb' 2 3) (w.extractLsb' 0 2))
  | 0x18 => some (.vand st (w.extractLsb' 17 6) (w.extractLsb' 11 6) (w.extractLsb' 5 6) (w.extractLsb' 2 3) (w.extractLsb' 0 2))
  | 0x19 => some (.vor st (w.extractLsb' 17 6) (w.extractLsb' 11 6) (w.extractLsb' 5 6) (w.extractLsb' 2 3) (w.extractLsb' 0 2))
  | 0x1A => some (.vxor st (w.extractLsb' 17 6) (w.extractLsb' 11 6) (w.extractLsb' 5 6) (w.extractLsb' 2 3) (w.extractLsb' 0 2))
  | 0x1B => some (.vshl st (w.extractLsb' 17 6) (w.extractLsb' 11 6) (w.extractLsb' 5 6) (w.extractLsb' 2 3) (w.extractLsb' 0 2))
  | 0x1C => some (.vshr st (w.extractLsb' 17 6) (w.extractLsb' 11 6) (w.extractLsb' 5 6) (w.extractLsb' 2 3) (w.extractLsb' 0 2))
  | 0x1D => some (.vsar st (w.extractLsb' 17 6) (w.extractLsb' 11 6) (w.extractLsb' 5 6) (w.extractLsb' 2 3) (w.extractLsb' 0 2))
  | 0x20 => some (.pand st (w.extractLsb' 17 6) (w.extractLsb' 11 6) (w.extractLsb' 5 6))
  | 0x21 => some (.por st (w.extractLsb' 17 6) (w.extractLsb' 11 6) (w.extractLsb' 5 6))
  | 0x22 => some (.pnot st (w.extractLsb' 17 6) (w.extractLsb' 11 6))
  | 0x23 => some (.pcnt st (w.extractLsb' 17 6) (w.extractLsb' 11 6))
  | 0x28 => some (.vcvt st (w.extractLsb' 17 6) (w.extractLsb' 11 6) (w.extractLsb' 5 6) (w.extractLsb' 2 3) (w.extractLsb' 0 2))
  | 0x29 => some (.vqnt st (w.extractLsb' 17 6) (w.extractLsb' 11 6) (w.extractLsb' 2 3) (w.extractLsb' 0 2))
  | 0x2A => some (.vdq st (w.extractLsb' 17 6) (w.extractLsb' 11 6) (w.extractLsb' 2 3) (w.extractLsb' 0 2))
  | 0x30 => some (.vrsum st (w.extractLsb' 17 6) (w.extractLsb' 11 6) (w.extractLsb' 5 6) (w.extractLsb' 2 3) (w.extractLsb' 0 2))
  | 0x31 => some (.vrmax st (w.extractLsb' 17 6) (w.extractLsb' 11 6) (w.extractLsb' 5 6) (w.extractLsb' 2 3) (w.extractLsb' 0 2))
  | 0x32 => some (.vperm st (w.extractLsb' 17 6) (w.extractLsb' 11 6) (w.extractLsb' 5 6) (w.extractLsb' 2 3) (w.extractLsb' 0 2))
  | 0x33 => some (.vbcast st (w.extractLsb' 17 6) (w.extractLsb' 11 6) (w.extractLsb' 5 6) (w.extractLsb' 2 3) (w.extractLsb' 0 2))
  | 0x34 => some (.vscan st (w.extractLsb' 17 6) (w.extractLsb' 11 6) (w.extractLsb' 5 6) (w.extractLsb' 2 3) (w.extractLsb' 0 2))
  | 0x38 => some (.vaddiF32 st (w.extractLsb' 17 6) (w.extractLsb' 16 1) (w.extractLsb' 0 16))
  | 0x39 => some (.vmuliF32 st (w.extractLsb' 17 6) (w.extractLsb' 16 1) (w.extractLsb' 0 16))
  | 0x3A => some (.vmoviF32 st (w.extractLsb' 17 6) (w.extractLsb' 16 1) (w.extractLsb' 0 16))
  | 0x3B => some (.vaddiF16 st (w.extractLsb' 17 6) (w.extractLsb' 16 1) (w.extractLsb' 0 16))
  | 0x3C => some (.vmuliF16 st (w.extractLsb' 17 6) (w.extractLsb' 16 1) (w.extractLsb' 0 16))
  | 0x3D => some (.vmoviF16 st (w.extractLsb' 17 6) (w.extractLsb' 16 1) (w.extractLsb' 0 16))
  | 0x3E => some (.vaddiBF16 st (w.extractLsb' 17 6) (w.extractLsb' 16 1) (w.extractLsb' 0 16))
  | 0x3F => some (.vmuliBF16 st (w.extractLsb' 17 6) (w.extractLsb' 16 1) (w.extractLsb' 0 16))
  | 0x40 => some (.vmoviBF16 st (w.extractLsb' 17 6) (w.extractLsb' 16 1) (w.extractLsb' 0 16))
  | 0x41 => some (.vaddiI32 st (w.extractLsb' 17 6) (w.extractLsb' 16 1) (w.extractLsb' 0 16))
  | 0x42 => some (.vmoviI32 st (w.extractLsb' 17 6) (w.extractLsb' 16 1) (w.extractLsb' 0 16))
  | 0x43 => some (.vandi st (w.extractLsb' 17 6) (w.extractLsb' 16 1) (w.extractLsb' 0 16))
  | 0x44 => some (.vori st (w.extractLsb' 17 6) (w.extractLsb' 16 1) (w.extractLsb' 0 16))
  | 0x48 => some (.xadd st (w.extractLsb' 19 4) (w.extractLsb' 15 4) (w.extractLsb' 11 4) (w.extractLsb' 0 11))
  | 0x49 => some (.xsub st (w.extractLsb' 19 4) (w.extractLsb' 15 4) (w.extractLsb' 11 4) (w.extractLsb' 0 11))
  | 0x4A => some (.xmul st (w.extractLsb' 19 4) (w.extractLsb' 15 4) (w.extractLsb' 11 4) (w.extractLsb' 0 6))
  | 0x4B => some (.xli st (w.extractLsb' 19 4) (w.extractLsb' 15 4) (w.extractLsb' 11 4) (w.extractLsb' 0 11))
  | 0x4C => some (.xget st (w.extractLsb' 19 4) (w.extractLsb' 11 4) (w.extractLsb' 0 5))
  | 0x4D => some (.xput st (w.extractLsb' 15 4) (w.extractLsb' 11 4) (w.extractLsb' 0 5))
  | 0x50 => some (.vbz st (w.extractLsb' 19 4) (w.extractLsb' 0 19))
  | 0x51 => some (.vbnz st (w.extractLsb' 19 4) (w.extractLsb' 0 19))
  | 0x52 => some (.vjmp st (w.extractLsb' 0 23))
  | 0x58 => some (.vsweep st (w.extractLsb' 17 6) (w.extractLsb' 11 6) (w.extractLsb' 5 6) (w.extractLsb' 2 3) (w.extractLsb' 0 2))
  | 0x59 => some (.vjlim st (w.extractLsb' 17 6) (w.extractLsb' 11 6) (w.extractLsb' 5 6) (w.extractLsb' 2 3) (w.extractLsb' 0 2))
  | 0x5A => some (.vdist st (w.extractLsb' 17 6) (w.extractLsb' 11 6) (w.extractLsb' 5 6) (w.extractLsb' 2 3) (w.extractLsb' 0 2))
  | 0x5B => some (.vdph st (w.extractLsb' 0 3))
  | 0x60 => some (.vmov st (w.extractLsb' 17 6) (w.extractLsb' 11 6) (w.extractLsb' 2 3) (w.extractLsb' 0 2))
  | 0x61 => some (.vpack st (w.extractLsb' 17 6) (w.extractLsb' 11 6) (w.extractLsb' 5 6) (w.extractLsb' 2 3) (w.extractLsb' 0 2))
  | 0x62 => some (.vunpk st (w.extractLsb' 17 6) (w.extractLsb' 11 6) (w.extractLsb' 5 6) (w.extractLsb' 2 3) (w.extractLsb' 0 2))
  | 0x63 => some (.vsplt st (w.extractLsb' 17 6) (w.extractLsb' 11 6) (w.extractLsb' 5 6) (w.extractLsb' 2 3) (w.extractLsb' 0 2))
  | 0x64 => some (.vcat st (w.extractLsb' 17 6) (w.extractLsb' 11 6) (w.extractLsb' 5 6) (w.extractLsb' 2 3) (w.extractLsb' 0 2))
  | _ => none

/-- The M-seat map (R136). -/
def fieldsM (w : Word) : Option Instr :=
  let st := w.getLsbD 31
  match (w.extractLsb' 23 8).toNat with
  | 0x01 => some (.mma st (w.extractLsb' 20 3) (w.extractLsb' 17 3) (w.extractLsb' 14 3) (w.extractLsb' 9 5) (w.extractLsb' 0 9))
  | 0x02 => some (.mmaj st (w.extractLsb' 20 3) (w.extractLsb' 17 3) (w.extractLsb' 14 3) (w.extractLsb' 9 5) (w.extractLsb' 0 9))
  | 0x03 => some (.mdrn st (w.extractLsb' 20 3))
  | 0x04 => some (.mzero st)
  | 0x08 => some (.ftset st (w.extractLsb' 15 4) (w.extractLsb' 0 4))
  | 0x09 => some (.ftget st (w.extractLsb' 19 4) (w.extractLsb' 0 4))
  | 0x0A => some (.mpidx st (w.extractLsb' 19 4))
  | 0x10 => some (.madd st (w.extractLsb' 19 4) (w.extractLsb' 15 4) (w.extractLsb' 0 15))
  | 0x11 => some (.msub st (w.extractLsb' 19 4) (w.extractLsb' 15 4) (w.extractLsb' 0 15))
  | 0x12 => some (.mand st (w.extractLsb' 19 4) (w.extractLsb' 15 4) (w.extractLsb' 0 15))
  | 0x13 => some (.mor st (w.extractLsb' 19 4) (w.extractLsb' 15 4) (w.extractLsb' 0 15))
  | 0x14 => some (.mshl st (w.extractLsb' 19 4) (w.extractLsb' 15 4) (w.extractLsb' 0 6))
  | 0x15 => some (.mshr st (w.extractLsb' 19 4) (w.extractLsb' 15 4) (w.extractLsb' 0 6))
  | 0x16 => some (.mli st (w.extractLsb' 19 4) (w.extractLsb' 0 15))
  | 0x17 => some (.mlui st (w.extractLsb' 19 4) (w.extractLsb' 0 15))
  | 0x18 => some (.mbz st (w.extractLsb' 19 4) (w.extractLsb' 0 15))
  | 0x19 => some (.mbnz st (w.extractLsb' 19 4) (w.extractLsb' 0 15))
  | 0x1A => some (.mblt st (w.extractLsb' 19 4) (w.extractLsb' 15 4) (w.extractLsb' 0 15))
  | 0x1B => some (.mjmp st (w.extractLsb' 0 23))
  | 0x1C => some (.mjr st (w.extractLsb' 19 4))
  | _ => none

/-- The common group (R125). -/
def fieldsCommon (w : Word) : Option Instr :=
  let st := w.getLsbD 31
  match (w.extractLsb' 23 8).toNat with
  | 0xF8 => some (.nop st)
  | 0xF9 => some (.mloop st (w.extractLsb' 20 3) (w.extractLsb' 14 6) (w.extractLsb' 11 3) (w.extractLsb' 8 3))
  | 0xFA => some (.tpost st (w.extractLsb' 19 4) (w.extractLsb' 11 8))
  | 0xFB => some (.twait st (w.extractLsb' 19 4) (w.extractLsb' 11 8))
  | 0xFC => some (.fset st (w.extractLsb' 20 3) (w.extractLsb' 19 1))
  | 0xFD => some (.fwait st (w.extractLsb' 20 3) (w.extractLsb' 19 1))
  | 0xFE => some (.brk st (w.extractLsb' 15 8))
  | 0xFF => some (.bndy st)
  | _ => none

/-- The map of the fetching seat and the common group (R114). -/
def fieldsOf (k : SeatId) (w : Word) : Option Instr :=
  if 0xF8 ≤ (w.extractLsb' 23 8).toNat then fieldsCommon w
  else match k with
    | .c => fieldsC w
    | .a => fieldsA w
    | .v => fieldsV w
    | .m => fieldsM w

/-- Decoding in a seat, total on every word (R115). -/
def decode (k : SeatId) (w : Word) : Except Reject Instr :=
  match fieldsOf k w with
  | none => .error .unassigned
  | some i =>
    if encode i = some w then (if i.wf then .ok i else .error .badField)
    else .error .reservedField

/-- A little-endian word of four bytes (R6, R113). -/
def wordOfBytes : List Byte → Option Word
  | [b0, b1, b2, b3] => some (b3 ++ b2 ++ b1 ++ b0)
  | _ => none

/-- The bytes of a word, the lowest address first (R6). -/
def bytesOfWord (w : Word) : List Byte :=
  [w.extractLsb' 0 8, w.extractLsb' 8 8, w.extractLsb' 16 8, w.extractLsb' 24 8]

/-- Decoding from the stored bytes. -/
def decodeBytes (k : SeatId) (bs : List Byte) : Except Reject Instr :=
  match wordOfBytes bs with
  | none => .error .unassigned
  | some w => decode k w

/-- The seat whose opcode space a bare table word is read in: the first of C, A, V, M that decodes it (log 3; a word alone names no seat, R114). -/
def tableSeat (w : Word) : Option SeatId :=
  [SeatId.c, .a, .v, .m].find? fun k => (decode k w).toOption.isSome

/-- The instruction the decoder reads from a table row's bits (numbered as the table numbers them) (DESIGN CHOICE, log 3). -/
def decodeTableWord (nbits w : Nat) : Option Instr :=
  if nbits = 32 ∧ w < 2 ^ 32 then
    match tableSeat (BitVec.ofNat 32 w) with
    | none => none
    | some k => (decodeBytes k (bytesOfWord (BitVec.ofNat 32 w))).toOption
  else none

end Sys2Proof
end

