-- ==== Sys2Proof/Config.lean ====
section
/-! DEFINITION. The free values of the model: what the spec leaves open (R9 and the rules that log entries 7, 8 and 11 name), as constants without
a body, so that no proof can rest on one value. Each is applied to the plain counter `State.free`, and a tag that tells the uses of one step apart. -/

namespace Sys2Proof.Config

/-- An undefined scalar (R9): a read inside a producer's window (R32), word 1 of a live slot (R67), an unacquired load (R85). -/
opaque freeDw : Nat → Nat → Dw

/-- An undefined 1 KiB value (R9). -/
opaque freeLine : Nat → Nat → Line

/-- A choice the spec leaves to the device: an order between enabled operations, which free entry is taken, an old or a new word. -/
opaque pick : Nat → Nat → Nat

/-- Where the policy core places the floor slots on a channel's wheel, from the floors: which of those left stands at the next place (R402) (DESIGN CHOICE,
log 10). -/
opaque slotOwner : Nat → Nat → List Nat → Nat → Nat

/-- The Ed25519 device key of a die, which nothing reads (R395) (DESIGN CHOICE, log 34). -/
opaque deviceKey : Nat → BitVec 256

/-- The Ed25519 signature of a message by a key (R395) (DESIGN CHOICE, log 34). -/
opaque ed25519 : BitVec 256 → List Byte → BitVec 512

/-- The memory channel of an HBM offset, the fixed hash of R48 (R400: 0 to 95), and of a pool offset (96 to 111); the spec gives neither map
(DESIGN CHOICE, log 25). -/
opaque hbmChannel : Nat → Fin 96

opaque poolChannel : Nat → Fin 16

end Sys2Proof.Config
end

