-- ==== Sys2Proof/Machine/State.lean ====
section
/-! DEFINITION. The state of an S960 package as the spec gives it, the reasons a step can stop, and the state right after reset. Plain data only. -/

namespace Sys2Proof.Machine

open Sys2Proof

/-! ## Causes -/

/-- The causes of R348. -/
inductive Cause
  | undefinedInstruction | delaySlotWord | branchTarget | strokeWithoutCrew
  | loopMismatch | loopBusy | loopBody | loopTrip | tokenOverflow | breakpoint | software | return_ | privilege
  | queueDirection | queueBusy | queueWidth | poisonedHead | patternBusy | shapeUnitBusy
  | format | jointBusy | crew | jointMismatch | jointWithoutCrew
  | nonCanonical | localHole | rangeEntry | notPresent | pageSize | alignment | protection | data | coreData
  | liveSlot | slotState | slotBusy | slotPlacement | regionOverlap | regionTableFull | slotAction | parkMask
  | engineFault | spillFault | handlerFault | ringStarved
deriving DecidableEq, Repr

/-- The cause a seat holds while its trap is pending (R349, R355). -/
structure SeatCause where
  cause : Cause
  tval : Dw
  tpc : Dw
  issued : Bool
deriving DecidableEq, Repr

/-! ## Seats, queues and the engine -/

/-- A running loop of a seat (R38 to R42, R355). `base` is the number of iterations already run before a resumption (i0 of R42), `dith` that this kernel
step has issued a matrix operation that advances the dither phase (R106). -/
structure Loop where
  reg : BitVec 3
  len : Nat
  stage : Nat
  ms : Nat
  head : Dw
  trip : Nat
  step : Nat
  pos : Nat
  b0 : BitVec 3
  base : Nat
  group : Bool
  lsq : Bool
  lepi : Bool
  lmid : Bool
  i0 : Nat
  dith : Bool
deriving DecidableEq, Repr

/-- One seat (R26, R35, R36, R41, R355). -/
structure Seat where
  pc : Dw
  act : Bool
  dtgt : Dw
  dslots : BitVec 2
  dtaken : Bool
  strk : Bool
  loop : Option Loop
  rb : BitVec 3
  osb : Vector (BitVec 5) 4
  cause : Option SeatCause
deriving DecidableEq, Repr

/-- One entry of a queue (R29); `poison` is the TVAL of the fault that poisoned it (R362). -/
structure QEntry where
  ticket : Nat
  landed : Bool
  data : Line
  poison : Option Dw
deriving DecidableEq, Repr

/-- A queue and its binding (R27). -/
structure Queue where
  dir : BitVec 2
  esz : BitVec 2
  pat : Bool
  ents : List QEntry
deriving DecidableEq, Repr

inductive EngKind | mma | mmaj | mdrn
deriving DecidableEq, Repr

/-- An entry of the engine's operation queue (R230). -/
structure EngOp where
  kind : EngKind
  word : Word
  ent : BitVec 16
  addr : Dw
deriving DecidableEq, Repr

/-- The matrix engine (R230, R231, R239). `scales` counts the scale entries taken for the span, `spanDone` says that the span waits for the back
bank, `latA` and `latB` hold the operand entries whose groups are not all used, `gotA` and `gotB` count those of the next group already held, `drainT` is the
entry that the drain has reserved (R240) and `drainPc` the word it drains for, `halt` is a pending MZERO or EXIT. `jrun` says that a joint operation of the
MMAJ at `jaddr` is not complete, `jmoved` that its last span stands in the back bank, `jdrain` that the drain's span is one of it (R253, R254). -/
structure Engine where
  front : Vector (BitVec 4096) 128
  back : Vector (BitVec 4096) 128
  scale : Vector (BitVec 384) 128
  opq : List EngOp
  running : Bool
  kpos : Nat
  scales : Nat
  spanDone : Bool
  latA : Line
  latA2 : Line
  latB : Line
  latB2 : Line
  gotA : Nat
  gotB : Nat
  drainT : Option Nat
  drainPc : Dw
  dpos : Nat
  dbusy : Bool
  drainQ : BitVec 3
  bf16 : Bool
  lastBf16 : Bool
  halt : Bool
  jcnt : Word
  jrun : Bool
  jaddr : Dw
  jmoved : Bool
  jdrain : Bool
deriving DecidableEq, Repr

/-- Where a result goes (R32, R357). -/
inductive Dest
  | none
  | c (i : BitVec 5)
  | a (i : BitVec 5)
  | x (i : BitVec 4)
  | m (i : BitVec 4)
  | v (i : BitVec 5)
  | p (i : BitVec 3)
  | l (i : BitVec 3)
  | sys (i : BitVec 10)
  | fmt (i : BitVec 4)
  | dph
  | queue (q : BitVec 3) (ticket : Nat)
deriving DecidableEq, Repr

/-- A result in flight (R32): `rem` clock edges remain to its landing, `en` holds the byte enables (R201; lane bits for a predicate), `ready` is
false while a load's data has not returned (R57), `op` names the operation that supplies it, `ext` says that its value comes from outside the core
(R389). -/
structure InFlight where
  seat : SeatId
  dest : Dest
  val : Line
  en : BitVec 1024
  rem : Nat
  ready : Bool
  op : Nat
  ext : Bool
  poison : Option Dw
  err : Option SeatCause
deriving DecidableEq, Repr

/-- The shape unit (R224, R228, R354): the word in flight, whether it is VDIST, its queue operand, registers and lanes; the groups done, the schedule cycles
until the next word may issue and until this one lands; and what it had computed when `accAt` groups were done. -/
structure Shape where
  word : Word
  dist : Bool
  operand : Line
  src : List Line
  on : Pred
  idx : Nat
  rem : Nat
  left : Nat
  acc : Line
  accAt : Nat
deriving DecidableEq, Repr

/-- A PARK that has issued and waits for quiescence (R151). -/
structure ParkWait where
  pc : Dw
  slotVa : Dw
  phase : BitVec 1
  mask : Word
  polling : Bool
deriving DecidableEq, Repr

/-- A wait of the A seat at a slot or a line (R177, R178, R179, R196); `released` holds the place in the home's order at which the acquire has read the
slot (R85). -/
inductive AWait
  | await (pa : Nat) (ph : Bool) (polling : Bool) (released : Option Nat)
  | answer (op : Nat)
  | line (op : Nat) (pa : Nat) (woken : Bool)
deriving DecidableEq, Repr

/-- What a core saves with its context (R26, R353 to R357). `acqs` lists the acquires made (operation, slot, the home's count at the acquire; R85)
and `scov` the acquires that an operation naming a stream follows, `seen` the place of the latest write that the A seat has seen to a byte of a bound
region (R83). -/
structure Ctx where
  seats : Vector Seat 4
  c : Vector Dw 32
  a : Vector Dw 32
  x : Vector Dw 16
  m : Vector Dw 16
  v : Vector Line 32
  p : Vector Pred 8
  fmt : Vector (BitVec 16) 16
  l : Vector Dw 8
  k : Vector (BitVec 16) 16
  f : BitVec 8
  osiss : Vector (BitVec 16) 4
  osprf : Vector (BitVec 16) 4
  queues : Vector Queue 8
  eng : Engine
  shape : Option Shape
  dph : BitVec 3
  uhand : Dw
  uhandGov : Dw
  inflight : List InFlight
  park : Option ParkWait
  await : Option AWait
  scov : Vector (List Nat) 4
  acqs : List (Nat × Nat × Nat)
  seen : List (Nat × Nat)
deriving DecidableEq, Repr

/-! ## Memory operations, patterns and copies -/

/-- What an unperformed operation of the A seat does (R164 to R196). Addresses `pa` are physical (R428) but for `va` (DEDUCED, log 64). -/
inductive OpKind
  | load (pa size : Nat) (sext : Bool) (d : BitVec 5)
  | store (pa : Nat) (bytes : List Byte)
  | amo (pa : Nat) (w64 : Bool) (fn : BitVec 3) (c t : Dw) (d : BitVec 5)
  | ldv (blocks : List Nat) (va : Dw) (q : BitVec 3) (ticket : Nat)
  | stv (blocks : List Nat) (data : Line)
  | aset (rec slot rbase : Nat) (va : Dw)
  | afree (slot : Nat)
  | aread (slot sel : Nat) (d : BitVec 5)
  | acred (slot n : Nat)
  | rgres (hdr : Nat) (d : BitVec 5)
  | rgpub (hdr : Nat) (i : Dw)
  | rgpop (hdr : Nat) (j : Dw) (d : BitVec 5)
  | rgcur (hdr : Nat) (j : Dw) (d : BitVec 5)
  | chlnk (rec : Nat) (ent : Dw)
  | chkck (rec : Nat)
  | waita (line : Nat)
  | copy (id : Nat)
  | pattern (g : Fin 4) (serial : Nat)
  | multicast (serial : Nat)
deriving DecidableEq, Repr

/-- What the bridge brings back to an operation that its home has performed: its result with the error it met, the writes that its seat has seen, and the acquire
it has made (R83, R85, R387). -/
structure Reply where
  val : Option (Line × Option SeatCause)
  seen : List (Nat × Nat)
  acqs : List (Nat × Nat × Nat)
deriving DecidableEq, Repr

/-- An operation issued and not yet performed (R58 to R63). `done` lists the parts already performed at their homes, `bad` those of them whose read met a
poisoned block, `va` is the address that the trap of a load, an ASET or an AFREE, or the fault of a CHKCK, names, `reply` the answer of a home that is still
on the bridge. -/
structure MemOp where
  id : Nat
  os : BitVec 2
  pm : BitVec 4
  scope : BitVec 5
  owner : Nat
  kind : OpKind
  done : List Nat
  bad : List Nat
  homed : Bool
  cov : List Nat
  pc : Dw
  va : Dw
  buf : Line
  reply : Option Reply
deriving DecidableEq, Repr

/-- An engine fault in a queue (R362). -/
structure EFault where
  tval : Dw
  cause : Nat
deriving DecidableEq, Repr

/-- One access of a port or of a copy: its place and size, the bytes once it is read, and whether it met a poisoned block (R65, R367). -/
structure Part where
  pa : Nat
  size : Nat
  got : Option (List Byte)
  bad : Bool
deriving DecidableEq, Repr

/-- The accesses of one queue entry that a pattern reads (R65, R169): their places once all are translated, or the fault that the entry is to carry. -/
structure EntryRead where
  parts : Option (List Part)
  fault : Option EFault
deriving DecidableEq, Repr

/-- One write of a loaded chunk; `cut` marks a block of a row that the chunk's edge cuts (R183). -/
structure ChunkWrite where
  pa : Nat
  bytes : List Byte
  cut : Bool
deriving DecidableEq, Repr

/-- One chunk of a copy at work (R184): `ixs` and `reads` are its index and source accesses, `dest` its writes with their data still to come, `chunk` the
writes left once it is `loaded`, each within one 64-byte block, `begun` that one of this chunk or of a later one is performed, `cause` the fault that it met,
`zeros` its source blocks replaced by zeros. -/
structure ChunkLoad where
  ixs : List Part
  reads : List Part
  dest : List ChunkWrite
  loaded : Bool
  chunk : List ChunkWrite
  begun : Bool
  cause : Nat
  zeros : Nat
deriving DecidableEq, Repr

/-- A pattern generator or the multicast port at work (R168 to R173). `next` is the first run not yet taken into an entry, `stop` a pending QSTOP, `fault` the
fault that its next entry is to carry, or that a store pattern has reported with writes outstanding, `reads` the entries being read, the next one first,
`members` the positions a multicast still feeds (zero for a generator). -/
structure Pattern where
  serial : Nat
  op : Nat
  owner : Nat
  q : BitVec 3
  va : Dw
  shape : Option (BitVec 512)
  next : Nat
  reads : List EntryRead
  writes : List (Nat × List Byte)
  stop : Bool
  fault : Option EFault
  members : BitVec 4
deriving DecidableEq, Repr

inductive CopyState | fetch | check | waitSlot | polling | resume | move | suspended
deriving DecidableEq, Repr

/-- A copy in the engine or waiting in the spill ring (R182 to R187). `op` is its operation of a stream, none for a chain entry or a CPYRES, and
`resumeOf` lists operations performed with it (R186). `record` is the fetched record, `recPa` its place once `located`, `wslot` and `cslot` are physical, `loads` the
chunks at work from `done` on, `cause` a fault of the whole copy not yet recorded, `frozen` an asked suspension by a pre-emption (R346),
`undef` a record changed while suspended (R64). -/
structure Copy where
  id : Nat
  op : Option Nat
  owner : Nat
  ctx : Fin 64
  code : BitVec 8
  recVa : Dw
  recPa : Nat
  located : Bool
  resumeOf : List Nat
  chained : Bool
  spilled : Bool
  record : BitVec 512
  st : CopyState
  done : Nat
  cause : Nat
  zcnt : Nat
  wslot : Nat
  cslot : Nat
  loads : List ChunkLoad
  acq : List (Nat × Nat)
  cancel : Bool
  frozen : Bool
  undef : Bool
deriving DecidableEq, Repr

/-- The chain walk of an engine (R190): `linking` that the entry is counted and the next one is being looked for, `stuck` that its link could not be
read, `cancel` that its unit is cancelled (R13). -/
structure Chain where
  recPa : Nat
  ctx : Fin 64
  owner : Nat
  cur : Option Nat
  entry : Dw
  linking : Bool
  stuck : Bool
  cancel : Bool
deriving DecidableEq, Repr

/-! ## Units -/

structure Sec where
  base : Dw
  words : Nat
deriving DecidableEq, Repr

/-- Why a stop is pending for a unit (R128, R345, R405, R13). -/
inductive StopWhy | preempt | slice | cancel
deriving DecidableEq, Repr

/-- A pending stop: when it was posted and whether it is urgent, with the clocks counted since the urgent request (R345, R42). -/
structure Stop where
  why : StopWhy
  posted : Nat
  urgent : Bool
  clks : Nat
deriving DecidableEq, Repr

/-- The unit on a core (R12 to R24). -/
structure UnitInfo where
  serial : Nat
  lid : Word
  uidx : Word
  ucnt : BitVec 25
  phid : Dw
  jid : Word
  prio : BitVec 4
  dline : Dw
  ctx : Fin 64
  part : Fin 32
  kdesc : Dw
  argb : Dw
  secs : Vector Sec 4
  crew : Bool
  order : Nat
  stop : Option Stop
  acq : List (Nat × Nat)
deriving DecidableEq, Repr

/-- A unit whose seats have halted and whose operations are not all performed (R24, R13). -/
structure Leaving where
  unit : UnitInfo
  cancelled : Bool
  fault : Bool
  status : Nat
deriving DecidableEq, Repr

/-- A system-register access of a handler that acts after its word has issued (R358, R360, R361); `svfull` is a service
request that a full ring holds, with the m of its trap. -/
inductive SysReq
  | inval (w : Dw)
  | invalDone
  | cpyres (v : Dw)
  | save (v : Dw)
  | svreq (v : Dw)
  | svfull (v : Dw) (m : Nat)
  | reply
  | fdata (w : Option Dw)
deriving DecidableEq, Repr

/-- The running trap handler and its frame (R350 to R358). `saved` holds what stood at F, `writes` the doublewords written through FDATA
(DEDUCED, log 60), `bad` that the shadow has an uncorrectable error (R363). -/
structure Handler where
  sup : Bool
  cause : Cause
  tpc : Dw
  tval : Dw
  tseat : SeatId
  orig : Cause
  dcode : BitVec 8
  esc : Bool
  saved : Ctx
  writes : List (Nat × Dw)
  saveWritten : Bool
  efinfo : Nat
  bad : Bool
  req : Option SysReq
deriving DecidableEq, Repr

/-- A unit held in the shadow by a pre-emption (R346, R363) (DEDUCED, log 15). -/
structure Held where
  unit : UnitInfo
  ctx : Ctx
  pats : Vector (Option Pattern) 4
  mcast : Option Pattern
  bad : Bool
deriving DecidableEq, Repr

/-- A unit in its partition's swap area (R405, R410): it resumes on this core. `wrote` is its context as it went to the area, none where a later image has
taken its place there. -/
structure Image where
  part : Fin 32
  held : Held
  wrote : Option Ctx
  efq : List EFault
deriving DecidableEq, Repr

/-- Reasons of a debug halt (R373). -/
inductive HaltWhy | request | comparator | brk | stopAt | stepDone | cut | divergence | replayEnd
deriving DecidableEq, Repr

/-- Why the seats of a core stand frozen outside a handler. -/
inductive Freeze
  | stopped (why : StopWhy) (boundary : Bool)
  | master
  | halt
deriving DecidableEq, Repr

/-- The debug registers of a core (R373, R374, R381 to R384, R389), and the queues that a store pattern of a play run has taken, `playQs` (R390)
(DEDUCED, log 58). -/
structure Dbg where
  dcfg : BitVec 3
  stopAt : Dw
  bps : Vector Dw 4
  dfidx : Nat
  dcidx : Nat
  halted : Option HaltWhy
  pending : Option HaltWhy
  deferred : Bool
  left : Option Nat
  skipBp : List (SeatId × Dw)
  ecsel : Vector (BitVec 16) 8
  ecval : Vector (BitVec 48) 8
  cells : Vector Word 320
  snap : Vector Word 320
  rlbase : Dw
  rlsize : Dw
  rlwr : Dw
  rlrd : Dw
  rlcsc : Dw
  rlq : List (List Byte)
  playQs : BitVec 8
deriving DecidableEq, Repr

/-- Effects that are applied at the end of the clock (R31, R160, R167). -/
inductive Pending
  | post (k : BitVec 4) (n : BitVec 8)
  | flag (f : BitVec 3) (v : Bool)
  | scope (os : BitVec 2) (e : BitVec 5)
  | bind (q : BitVec 3) (dir esz : BitVec 2)
  | leave (cancelled fault : Bool)
  | lost
  | boundary
deriving DecidableEq, Repr

/-- An access that waits on a walk (R54): the agent of the core that asked. -/
inductive Agent
  | seat (k : SeatId)
  | fetch (k : SeatId)
  | pattern (g : Fin 4)
  | multicast
  | copy (id : Nat)
  | other
deriving DecidableEq, Repr

/-- What a walk brings to an access that joined it (R54). -/
inductive WalkAns
  | fault (c : Cause)
  | leaf (e : Dw)
deriving DecidableEq, Repr

/-- A CRD whose answer has not returned: its result in flight, the member asked for and the partition of the unit that asks (R145, R154). -/
structure CrdAsk where
  op : Nat
  level : Nat
  a : Dw
  b : Dw
  part : Fin 32
deriving DecidableEq, Repr

/-- One core: `fidx` and `svreply` are the registers FIDX and SVREPLY (R358), `bankPtr` the round-robin pointers of the scratchpad's banks (R47), `chosen` the
seat whose cause the frame of a core frozen for want of a supervisor handler reports (R349, R368). -/
structure Core where
  ctx : Ctx
  unit : Option UnitInfo
  leaving : List Leaving
  handler : Option Handler
  fidx : Nat
  svreply : Dw
  chosen : Option SeatId
  frozen : Option Freeze
  held : Option Held
  images : List Image
  csc : Dw
  hold : Bool
  pend : List Pending
  moved : BitVec 4
  skip : BitVec 4
  why : List Nat
  ended : Bool
  ops : List MemOp
  pats : Vector (Option Pattern) 4
  mcast : Option Pattern
  copies : List Copy
  latch : Option Copy
  chains : List Chain
  efq : List EFault
  heldq : List EFault
  walkAns : List (Agent × Dw × WalkAns)
  cpFrozen : Bool
  stopped : Bool
  spawns : List (Nat × Dw × UnitInfo × List Nat)
  crds : List CrdAsk
  dbg : Dbg
  bankPtr : Vector Nat 32
deriving DecidableEq, Repr

/-- The trace and gate state of a crew (R373, R377 to R380): `epochs` the causes of the epoch records that wait until the crew runs again, `gateLost` the records
that a forced gate has dropped, `gating` a gate that waits
for the buffer to drain, `split` the doublewords at the head of the buffer that belong to a record whose beginning has been drained. -/
structure Crew where
  trctl : Dw
  trbase : Dw
  trsize : Dw
  trwr : Dw
  trrd : Dw
  trlost : Nat
  buf : List Dw
  last : Vector Dw 4
  epochs : List Nat
  gateLost : Nat
  gated : Bool
  gating : Bool
  split : Nat
  lost : Nat
deriving DecidableEq, Repr

/-! ## The die -/

/-- A context's descriptor values and range entries (R51, R81, R359). -/
structure Context where
  ctxd : Dw
  ptroot : Dw
  rtab : Dw
  spill : Dw
  shbase : Dw
  shlen : BitVec 24
  svring : Dw
  svrep : Dw
  scope : Vector Dw 28
  ranges : Vector (BitVec 256) 64
deriving DecidableEq, Repr

/-- A miss, a walk in progress or a cached translation (R54). -/
structure Walk where
  ctx : Fin 64
  page : Dw
  started : Bool
  stale : Bool
  waiters : List (CoreId × Agent)
deriving DecidableEq, Repr

/-- A cached page translation: the page of `va` with its leaf entry (R53, R54). -/
structure Tlb where
  ctx : Fin 64
  va : Dw
  size : Nat
  leaf : Dw
deriving DecidableEq, Repr

/-- A host command ring (R321, R322, R309): `watch` the armed line, `wake` that the front end has to look, `blocked` the command taken and not yet
carried out, `c` the consumer's index, `again` that the ring was enabled again while that command was being carried out. -/
structure Ring where
  base : Dw
  ctl : Dw
  enabled : Bool
  cause : BitVec 7
  watch : Option Nat
  wake : Bool
  blocked : Option Cmd
  c : Nat
  cva : Dw
  carried : Bool
  again : Bool
deriving DecidableEq, Repr

/-- A unit record as it stands in a run queue (R149). -/
structure UnitRec where
  kdesc : Dw
  argb : Dw
  uidx : Word
  ucnt : BitVec 25
deriving DecidableEq, Repr

/-- A continuation record (R21), with the unit's partition and kernel; `bad` the slot whose error is pending (R366), `acq`, `acqs` and `scov` the unit's
acquires (R85). -/
structure ContRec where
  cpc : Dw
  argb : Dw
  rmask : Word
  prio : BitVec 4
  ucnt : BitVec 25
  uidx : Word
  lid : Word
  phid : Dw
  jid : Word
  ctx : Fin 64
  dline : Dw
  osc : Vector (BitVec 16) 4
  regs : List Dw
  part : Fin 32
  kdesc : Dw
  bad : Option Dw
  acq : List (Nat × Nat)
  acqs : List (Nat × Nat × Nat)
  scov : Vector (List Nat) 4
deriving DecidableEq, Repr

/-- What a task entry holds (R328). -/
inductive TaskKind
  | one (r : UnitRec) (lid : Word)
  | cont (r : ContRec)
  | launch (kdesc argb : Dw) (lid : Word) (units next : Nat) (skips : List Nat)
deriving DecidableEq, Repr

/-- A task entry in a run queue (R328, R329). -/
structure Task where
  kind : TaskKind
  part : Fin 32
  ctx : Fin 64
  prio : BitVec 4
  dline : Dw
  phid : Dw
  jid : Word
  since : Nat
  acq : List (Nat × Nat)
deriving DecidableEq, Repr

/-- A launch (R12): its node, or for a pushed one the index of its unit. -/
structure Launch where
  lid : Word
  phid : Dw
  total : Nat
  done : Nat
  node : Option Nat
  uidx : Word
deriving DecidableEq, Repr

/-- A node of a resident graph (R317). -/
structure Node where
  kdesc : Dw
  argb : Dw
  units : Nat
  npred : Nat
  succ : List Nat
deriving DecidableEq, Repr

structure Graph where
  num : Nat
  ctx : Fin 64
  bytes : Nat
  nodes : List Node
deriving DecidableEq, Repr

/-- The launch state of a node in a running phase (R319). -/
inductive NodeSt | waiting | queued | launched | complete | cancelled
deriving DecidableEq, Repr

/-- A phase released and not complete (R12, R314, R316, R319); `rejected` that a node of it has been rejected and what it holds is still to be cancelled,
`nacq` the slots whose completion has launched a node (R85). -/
structure Phase where
  phid : Dw
  jid : Word
  graph : Nat
  nodes : List Node
  prio : BitVec 4
  ctx : Fin 64
  part : Fin 32
  dline : Dw
  hasdl : Bool
  level : Nat
  stream : Option Nat
  cmd : Cmd
  tstart : Nat
  status : Nat
  cancelled : Bool
  rejected : Bool
  faults : Nat
  urun : Nat
  ucan : Nat
  pushed : Nat
  pushedDone : Nat
  alive : Nat
  cnt : List Nat
  nst : List NodeSt
  acq : List (Nat × Nat)
  nacq : List (Nat × Nat × Nat)
deriving DecidableEq, Repr

structure Job where
  jid : Word
  part : Fin 32
  isOpen : Bool
  total : Nat
  done : Nat
deriving DecidableEq, Repr

/-- A phase or stream release waiting behind its graph (R316); `kill` the status that a cancel gives it, 0 for none (R13, R347). -/
structure QPhase where
  graph : Nat
  cmd : Cmd
  prio : BitVec 4
  jid : Word
  stream : Option Nat
  dline : Dw
  level : Nat
  acq : List (Nat × Nat)
  kill : Nat
deriving DecidableEq, Repr

structure Kernel where
  ctx : Fin 64
  addr : Dw
  secs : Vector Sec 4
  ft : Vector (BitVec 16) 16
  crew : Bool
deriving DecidableEq, Repr

/-- A Cox stream entry (R337) with the stream's t0 (R337, R415); `susp` a suspended stream (R341), `iacq` the place of the input slot's flip in its home's
order (R339) and `itime` its device time, `key` the stream's own number, by which its phases name it when its entry has been used again, `rose` that the
stream has come back one step in this period (R342), `polling` an input slot whose waiters are full, with the phase last seen (R75), `sid` its session (R415).
-/
structure Cox where
  e : Nat
  key : Nat
  slow : Bool
  iarr : Bool
  prio : BitVec 4
  level : Nat
  state : Nat
  part : Fin 32
  ctx : Fin 64
  miss : Nat
  nrel : Nat
  ndl : Nat
  islot : Nat
  lgraph : Vector Nat 4
  period : Nat
  dline : Nat
  lcost : Vector Nat 4
  cmd : Cmd
  jid : Word
  t0 : Nat
  offset : Nat
  polling : Bool
  seen : Bool
  susp : Bool
  iacq : Nat
  itime : Nat
  rose : Bool
  sid : Option Nat
deriving DecidableEq, Repr

/-- A session entry that is not all zero (R412): a closed one holds what the other die has mirrored into it (R416); `err` says that a send of it met a
poisoned block (R367). -/
structure Session where
  sid : Nat
  isOpen : Bool
  prim : Bool
  rod : Bool
  part : Fin 32
  ctx : Fin 64
  epq : Fin 64
  lastsent : Word
  cseq : Word
  fstr : Option Nat
  sstr : Option Nat
  fin : Nat
  sin : Nat
  gslot : Nat
  raddr : BitVec 128
  rjob : BitVec 24
  rpid : BitVec 12
  err : Bool
deriving DecidableEq, Repr

/-- A region-triggered send that waits for the peer's acknowledgement, with the bytes as they stood at the flip (R92, R416); `asked` that the sequence is on
its way to the peer. -/
structure Send where
  sid : Nat
  seq : Word
  time : Nat
  bytes : List Byte
  asked : Bool
  mirrored : Bool
deriving DecidableEq, Repr

/-- The wheel of a memory channel (R402). -/
structure Channel where
  pos : Nat
  credits : Vector Nat 32
  meters : Vector Int 32
  deficit : Vector Nat 33
deriving DecidableEq, Repr

/-- A write that a slot's home has performed into its region: its first byte and bytes, its place in the home's order, and whether it counted (R71,
R85). -/
structure WLog where
  pa : Nat
  bytes : List Byte
  place : Nat
  counted : Bool
deriving DecidableEq, Repr

/-- A live arrival slot with its region entry (R67 to R69) and the waiters and owner its home keeps, `die` the die of its context; `wlog` lists the writes
into the region (R85). -/
structure Slot where
  pa : Nat
  expect : Word
  arrived : Word
  waiters : List Waiter
  region : BitVec 12
  tag : BitVec 2
  kind : BitVec 3
  phase : Bool
  arg : Word
  closed : Bool
  ovr : Bool
  base : Nat
  len64 : Nat
  late : Word
  dline : Dw
  die : DieId
  ctx : Fin 64
  part : Fin 32
  poisoned : Bool
  wlog : List WLog
deriving DecidableEq, Repr

/-- A message that a cut die holds (R386, R387): an inbound write of a session, a packet of an unsupported kind, a write from outside the package; over the
bridge an operation of a seat of the other die, an access of a copy or a pattern there (a read where it has no bytes), the answer or acknowledgement of a
home there to an operation, the release of a waiter, a launch action with the record it has read (none where it could not) and a token post by a slot there, a
mirrored sequence and its acknowledgement, an atomic and a credit of a core that is lost. -/
inductive Msg
  | inbound (sid idx off : Nat) (bytes : List Byte)
  | unsupported
  | write (w : WriteSrc)
  | op (n : CoreId) (id : Nat)
  | copyAccess (n : CoreId) (id pa : Nat) (bytes : List Byte)
  | portAccess (n : CoreId) (g : Fin 4) (pa : Nat) (bytes : List Byte)
  | reply (n : CoreId) (id : Nat)
  | wake (w : Waiter) (slot : Nat) (ph : Bool) (place : Nat)
  | launch (slot : Slot) (record : Option (BitVec 512))
  | mirror (sid : Nat) (q : Word)
  | mirrored (sid : Nat) (q : Word)
  | amo (pa : Nat) (w64 : Bool) (fn : BitVec 3) (c t : Dw)
  | credit (slot n : Nat)
  | token (core : CoreId) (k : BitVec 4) (n : Nat) (slot : Slot)
deriving DecidableEq, Repr

/-- A snapshot in progress (R385 to R388): the links whose marker is still to come, those on which the die's own marker is still to leave, the channel state
recorded, what is held until the resume. -/
structure Snapshot where
  id : Word
  scope : BitVec 2
  own : Bool
  waiting : List Link
  outgoing : List Link
  channel : List (Link × Msg)
  heldMsgs : List Msg
  dumped : Bool
deriving DecidableEq, Repr

/-- The fields of a completion record but for the tag and tend (DEDUCED, log 36). -/
structure Crec where
  status : Nat
  level : Nat
  dmet : Bool
  hasdl : Bool
  faults : Nat
  urun : Nat
  ucan : Nat
  phid : Dw
  jid : Word
  graph : Nat
  tstart : Nat
deriving DecidableEq, Repr

/-- The start state of a die (R391, R392). -/
inductive StartSt | off | starting (warm : Bool) (since : Nat) | running | failed
deriving DecidableEq, Repr

/-- One die: `pwrAt` holds since when the package's power has lowered the step (R397), `orphans` the records that a lost die owes for its slow streams (R419),
`levelSince`, for each partition and best-effort level, since when the level has had ready work and placed no unit (R330), `gathers` the crews that
pre-emptions vacate for crew candidates (R344). -/
structure Die where
  start : StartSt
  time : Nat
  acc : Nat
  ppm : Int
  clkStep : Nat
  coolSince : Nat
  pwrAt : Nat
  capLow : Nat
  pwrctl : Dw
  temp : BitVec 8
  bkind : BitVec 2
  wfail : BitVec 2
  fstep : BitVec 4
  sigbad : Bool
  stepping : BitVec 8
  digest : BitVec 512
  hstat : BitVec 4
  mboxin : Dw
  mboxout : Dw
  mboxst : BitVec 2
  contexts : Vector Context 64
  walks : List Walk
  tlb : List Tlb
  rings : Vector Ring 64
  ringTurn : Nat
  frozenFns : List Nat
  frozenQs : List Nat
  tasks : List Task
  levelSince : Vector Nat 384
  gathers : List CrewId
  waitLaunch : List (Dw × Nat)
  lidNext : Word
  phases : List Phase
  phaseCount : Nat
  queuedPh : List QPhase
  launches : List Launch
  jobs : List Job
  kernels : List Kernel
  graphs : List Graph
  badCounters : List Nat
  cox : List Cox
  sessions : List Session
  peers : List PeerStream
  sends : List Send
  orphans : List (Cmd × Crec)
  peerLost : Bool
  isolated : Bool
  hbSeen : Nat
  hbSent : Nat
  hbIn : Bool
  markerIn : Option (Word × BitVec 2)
  locked : Bool
  linkDown : Bool
  channels : Vector Channel 112
  ecsel : Vector (BitVec 16) 32
  ecval : Vector (BitVec 48) 32
  dsel : Nat
  snctl : Dw
  snid : Word
  snstat : Dw
  dmpbase : Dw
  dmpsize : Dw
  collect : Dw
  mkhost : Dw
  snap : Option Snapshot
deriving DecidableEq, Repr

/-! ## The package -/

/-- A parked record registered with a slot (R19), whose address in the unit's context is `va`. -/
structure Parked where
  id : Nat
  die : DieId
  slot : Nat
  va : Dw
  record : ContRec
deriving DecidableEq, Repr

/-- What a partition owns on one die (R399, R401, R404, R408). -/
structure PartDie where
  crews : BitVec 44
  granules : BitVec 64
  contexts : BitVec 64
  queues : BitVec 64
  bands : Vector Dw 112
  share : Nat
  ceiling : Nat
  tb : Nat
  weights : Vector Nat 12
  drr : Vector Nat 12
  swap : Dw
  segBase : Dw
  segSize : Nat
  segUsed : List (Nat × Nat)
deriving DecidableEq, Repr

structure Partition where
  exist : Bool
  bow : PartDie
  stern : PartDie
deriving DecidableEq, Repr

/-- A shared crew (R404 to R406): its partitions with their slice lengths in ns and their lost-time accounts in ns / 1,050; `mark` the device time up
to which the running slice's account is settled. -/
structure Shared where
  crew : CrewId
  members : List (Fin 32 × Nat × Nat)
  cur : Nat
  ends : Nat
  switching : Bool
  mark : Nat
deriving DecidableEq, Repr

/-- A ring with a linked segment (R332, R333): the header, and the core and context that reach it. -/
structure SegLink where
  hdr : Nat
  core : CoreId
  ctx : Fin 64
  part : Fin 32
deriving DecidableEq, Repr

/-- A reconfiguration whose drains have not finished (R410): the contexts and granules with the partition that has lost them. -/
structure Reconf where
  die : DieId
  crews : List CrewId
  contexts : List (DieId × Fin 64 × Fin 32)
  granules : List (DieId × Fin 64 × Fin 32)
  queues : List (DieId × Fin 64)
deriving DecidableEq, Repr

/-- What leaves the package, in order: the driver, the robot and the host see it (DESIGN CHOICE, log 66); `chunk` is a send operation of a session, to its
address, job and process, reliable-ordered by `rod` (R416). -/
inductive Out
  | msix (d : DieId) (fn : Fin 33) (vec : Nat)
  | chunk (d : DieId) (sid : Nat) (raddr : BitVec 128) (rjob : BitVec 24) (rpid : BitVec 12) (rod : Bool) (bytes : List Byte)
  | notice (d : DieId) (what : Nat) (v : Dw)
  | frozen (d : DieId) (m : Master) (cause : Nat)
  | actionFault (d : DieId) (entry : BitVec 256) (cause : Nat)
  | marker (d : DieId) (link : Link) (id : Word)
  | dump (d : DieId) (id : Word) (toHost : Bool)
  | heartbeat (d : DieId)
  | announce (d : DieId) (p : PeerStream)
  | trace (w : CrewId) (off : Nat) (dws : List Dw)
  | registerRead (d : DieId) (a : Bar) (v : Dw)
deriving DecidableEq, Repr

/-- Whose turn it is within a clock of the core `cur` (model's own; DESIGN CHOICE, log 1). -/
inductive Turn | seat (k : SeatId) | finish
deriving DecidableEq, Repr

/-- The whole package. -/
structure State where
  cores : Vector Core 352
  crews : Vector Crew 88
  bow : Die
  stern : Die
  mem : List Host.Cell
  poison : List Nat
  slots : List Slot
  parked : List Parked
  parts : Vector Partition 32
  shared : List Shared
  links : List SegLink
  reconf : Option Reconf
  isolate : Option DieId
  source : DieId
  outs : List Out
  cur : CoreId
  turn : Turn
  inputs : List Instr
  free : Nat
  nextId : Nat
deriving DecidableEq, Repr

/-! ## Stops -/

/-- Why the machine stops with a fault. -/
inductive Fault
  /-- Raised by an access of the device itself (a policy-core list, a page table, a descriptor, a trace area) to a physical address that names no
  location (R428). Safe: the spec says such a value names no location and gives no effect. -/
  | noLocation (pa : Nat)
deriving DecidableEq, Repr

/-- Why the model gives no meaning to a step. -/
inductive Refusal
  /-- Raised by an arm of exec whose instruction is not modelled yet. Safe. -/
  | notModelled (mnemonic : String)
deriving DecidableEq, Repr

/-! ## Reset -/

def Seat.reset : Seat :=
  { pc := 0, act := false, dtgt := 0, dslots := 0, dtaken := false, strk := false, loop := none, rb := 0,
    osb := Vector.replicate 4 28, cause := none }

def Queue.reset : Queue := { dir := 0, esz := 0, pat := false, ents := [] }

def Engine.reset : Engine :=
  { front := Vector.replicate 128 0, back := Vector.replicate 128 0, scale := Vector.replicate 128 0, opq := [], running := false, kpos := 0,
    scales := 0, spanDone := false, latA := 0, latA2 := 0, latB := 0, latB2 := 0, gotA := 0, gotB := 0, drainT := none, drainPc := 0, dpos := 0, dbusy := false, drainQ := 0, bf16 := false,
    lastBf16 := false, halt := false, jcnt := 0, jrun := false, jaddr := 0, jmoved := false, jdrain := false }

/-- The context of a core at reset: the registers the spec gives no reset value hold zero (DESIGN CHOICE, log 5). -/
def Ctx.reset : Ctx :=
  { seats := Vector.replicate 4 Seat.reset, c := Vector.replicate 32 0, a := Vector.replicate 32 0, x := Vector.replicate 16 0,
    m := Vector.replicate 16 0, v := Vector.replicate 32 0, p := (Vector.replicate 8 0).set 0 (BitVec.allOnes 256), fmt := Vector.replicate 16 0,
    l := Vector.replicate 8 0, k := Vector.replicate 16 0, f := 0, osiss := Vector.replicate 4 0, osprf := Vector.replicate 4 0,
    queues := Vector.replicate 8 Queue.reset, eng := Engine.reset, shape := none, dph := 0, uhand := 0, uhandGov := 0, inflight := [], park := none,
    await := none, scov := Vector.replicate 4 [], acqs := [], seen := [] }

def Dbg.reset : Dbg :=
  { dcfg := 0, stopAt := 0, bps := Vector.replicate 4 0, dfidx := 0, dcidx := 0, halted := none, pending := none, deferred := false, left := none,
    skipBp := [], ecsel := Vector.replicate 8 0, ecval := Vector.replicate 8 0, cells := Vector.replicate 320 0, snap := Vector.replicate 320 0,
    rlbase := 0, rlsize := 0, rlwr := 0, rlrd := 0, rlcsc := 0, rlq := [], playQs := 0 }

def Core.reset : Core :=
  { ctx := Ctx.reset, unit := none, leaving := [], handler := none, fidx := 0, svreply := 0, chosen := none, frozen := none, held := none, images := [],
    csc := 0, hold := false, pend := [], moved := 0, skip := 0, why := [], ended := false, ops := [], pats := Vector.replicate 4 none, mcast := none, copies := [], latch := none, chains := [], efq := [], heldq := [],
    walkAns := [], cpFrozen := false, stopped := false, spawns := [], crds := [], dbg := Dbg.reset, bankPtr := Vector.replicate 32 0 }

def Crew.reset : Crew :=
  { trctl := 0, trbase := 0, trsize := 0, trwr := 0, trrd := 0, trlost := 0, buf := [], last := Vector.replicate 4 0, epochs := [], gateLost := 0, gated := false,
    gating := false, split := 0, lost := 0 }

def Context.reset : Context :=
  { ctxd := 0, ptroot := 0, rtab := 0, spill := 0, shbase := 0, shlen := 0, svring := 0, svrep := 0, scope := Vector.replicate 28 0,
    ranges := Vector.replicate 64 0 }

def Ring.reset : Ring :=
  { base := 0, ctl := 0, enabled := false, cause := 0, watch := none, wake := false, blocked := none, c := 0, cva := 0, carried := false, again := false }

def Channel.reset : Channel :=
  { pos := 0, credits := Vector.replicate 32 0, meters := Vector.replicate 32 0, deficit := Vector.replicate 33 0 }

/-- A die before power-on (R391): nothing runs, every table is empty (DESIGN CHOICE, log 5). -/
def Die.reset : Die :=
  { start := .off, time := 0, acc := 0, ppm := 0, clkStep := 0, coolSince := 0, pwrAt := 0, capLow := 0, pwrctl := 0, temp := 0, bkind := 0, wfail := 0, fstep := 0,
    sigbad := false, stepping := 0, digest := 0, hstat := 0, mboxin := 0, mboxout := 0, mboxst := 0, contexts := Vector.replicate 64 Context.reset, walks := [],
    tlb := [], rings := Vector.replicate 64 Ring.reset, ringTurn := 0, frozenFns := [], frozenQs := [], tasks := [],
    levelSince := Vector.replicate 384 0, gathers := [], waitLaunch := [], lidNext := 1, phases := [], phaseCount := 0, queuedPh := [], launches := [], jobs := [], kernels := [], graphs := [], badCounters := [],
    cox := [], sessions := [], peers := [], sends := [], orphans := [], peerLost := false, isolated := false, hbSeen := 0, hbSent := 0, hbIn := false, markerIn := none,
    locked := false, linkDown := false, channels := Vector.replicate 112 Channel.reset, ecsel := Vector.replicate 32 0, ecval := Vector.replicate 32 0, dsel := 0,
    snctl := 0, snid := 0, snstat := 0, dmpbase := 0, dmpsize := 0, collect := 0, mkhost := 0, snap := none }

def PartDie.reset : PartDie :=
  { crews := 0, granules := 0, contexts := 0, queues := 0, bands := Vector.replicate 112 0, share := 0, ceiling := 0, tb := 0,
    weights := Vector.replicate 12 0, drr := Vector.replicate 12 0, swap := 0, segBase := 0, segSize := 0, segUsed := [] }

/-- The package right after reset: both dies off, no partition, no slot, memory with nothing listed (R391) (DESIGN CHOICE, log 2)
(DESIGN CHOICE, log 5). -/
def State.reset : State :=
  { cores := Vector.replicate 352 Core.reset, crews := Vector.replicate 88 Crew.reset, bow := Die.reset, stern := Die.reset, mem := [], poison := [],
    slots := [], parked := [], parts := Vector.replicate 32 { exist := false, bow := PartDie.reset, stern := PartDie.reset }, shared := [], links := [],
    reconf := none, isolate := none, source := .bow, outs := [], cur := 0, turn := .seat .c, inputs := [], free := 0, nextId := 0 }

end Sys2Proof.Machine
end

