-- ==== Sys2Proof/Machine/Mem.lean ====
section
/-! DEFINITION. Memory as sorted (address, byte) cells in one canonical form, little-endian accesses (R6), and the physical map (R428). -/

namespace Sys2Proof.Machine

open Sys2Proof

/-- What an address with no cell reads as: HBM is cleared at a cold start (R391); the other spaces by choice (DESIGN CHOICE, log 4). -/
def memDefault : Byte := 0

/-- One byte of memory (DESIGN CHOICE, log 4). -/
def memRead : List Host.Cell → Nat → Byte
  | [], _ => memDefault
  | (k, b) :: r, a => if a = k then b else memRead r a

/-- Write one byte, keeping the canonical form. -/
def memWrite : List Host.Cell → Nat → Byte → List Host.Cell
  | [], a, b => if b = memDefault then [] else [(a, b)]
  | (k, x) :: r, a, b =>
    if a = k then (if b = memDefault then r else (k, b) :: r)
    else if a < k then (if b = memDefault then (k, x) :: r else (a, b) :: (k, x) :: r)
    else (k, x) :: memWrite r a b

/-- Every address of the list is above `lo`, rising strictly, and no byte is the default. -/
def memWfFrom : Option Nat → List Host.Cell → Bool
  | _, [] => true
  | lo, (k, b) :: r => (match lo with | none => true | some l => decide (l < k)) && decide (b ≠ memDefault) && memWfFrom (some k) r

/-- The canonical form. -/
def Memory.wf (m : List Host.Cell) : Bool := memWfFrom none m

/-- The bytes of an access, lowest address first. -/
def memReadBytes (m : List Host.Cell) (a : Nat) : Nat → List Byte
  | 0 => []
  | n + 1 => memRead m a :: memReadBytes m (a + 1) n

def memWriteBytes (m : List Host.Cell) (a : Nat) : List Byte → List Host.Cell
  | [] => m
  | b :: r => memWriteBytes (memWrite m a b) (a + 1) r

/-- Little-endian value of bytes (R6). -/
def leValue : List Byte → Nat
  | [] => 0
  | b :: r => b.toNat + 256 * leValue r

/-- The n little-endian bytes of a value (R6). -/
def leBytes (v : Nat) : Nat → List Byte
  | 0 => []
  | n + 1 => BitVec.ofNat 8 v :: leBytes (v / 256) n

def memReadDw (m : List Host.Cell) (a : Nat) : Dw := BitVec.ofNat 64 (leValue (memReadBytes m a 8))

def memReadWord (m : List Host.Cell) (a : Nat) : Word := BitVec.ofNat 32 (leValue (memReadBytes m a 4))

/-- A 64-byte record (R64, R149, R168, R176, R182). -/
def memReadRec (m : List Host.Cell) (a : Nat) : BitVec 512 := BitVec.ofNat 512 (leValue (memReadBytes m a 64))

/-- The spaces of the physical map (R428). -/
inductive Space
  | hbm (d : DieId) (off : Nat)
  | pool (d : DieId) (off : Nat)
  | pad (n : CoreId) (off : Nat)
  | host (off : Nat)
deriving DecidableEq, Repr

def hbmSize : Nat := 288 * 2 ^ 30
def poolSize : Nat := 64 * 2 ^ 20
def padSize : Nat := 2 * 2 ^ 20
def hostBase : Nat := 2 ^ 55

def hbmBase : DieId → Nat
  | .bow => 0
  | .stern => 0x80 * 2 ^ 32

def poolBase : DieId → Nat
  | .bow => 0x100 * 2 ^ 32
  | .stern => 0x100 * 2 ^ 32 + 0x10000000

/-- First byte of the scratchpad of a core (R428). -/
def padBase (n : CoreId) : Nat :=
  (match dieOf n with | .bow => 0x200 * 2 ^ 32 | .stern => 0x201 * 2 ^ 32) + dieCore n * padSize

/-- Scale-up peers keep their own physical maps (R428); their bytes lie in the cells above 2^64 (DESIGN CHOICE, log 4). -/
def peerBase (peer : Nat) : Nat := 2 ^ 64 * (1 + peer)

/-- The space of a physical address, none where it names no location (R428). -/
def spaceOf (pa : Nat) : Option Space :=
  if pa < hbmSize then some (.hbm .bow pa)
  else if 0x80 * 2 ^ 32 ≤ pa ∧ pa < 0x80 * 2 ^ 32 + hbmSize then some (.hbm .stern (pa - 0x80 * 2 ^ 32))
  else if poolBase .bow ≤ pa ∧ pa < poolBase .bow + poolSize then some (.pool .bow (pa - poolBase .bow))
  else if poolBase .stern ≤ pa ∧ pa < poolBase .stern + poolSize then some (.pool .stern (pa - poolBase .stern))
  else if h : 0x200 * 2 ^ 32 ≤ pa ∧ pa < 0x200 * 2 ^ 32 + 176 * padSize then
    some (.pad ⟨(pa - 0x200 * 2 ^ 32) / padSize, by simp only [padSize] at *; omega⟩ ((pa - 0x200 * 2 ^ 32) % padSize))
  else if h : 0x201 * 2 ^ 32 ≤ pa ∧ pa < 0x201 * 2 ^ 32 + 176 * padSize then
    some (.pad ⟨176 + (pa - 0x201 * 2 ^ 32) / padSize, by simp only [padSize] at *; omega⟩ ((pa - 0x201 * 2 ^ 32) % padSize))
  else if hostBase ≤ pa ∧ pa < 2 ^ 56 then some (.host (pa - hostBase))
  else none

/-- The target of a translation as a cell address: the space named by tgt and the offset in it (R51, R53, R428); none where a byte of the access lies
beyond the space's size. -/
def targetPa (d : DieId) (tgt : BitVec 3) (peer : Nat) (t size : Nat) : Option Nat :=
  match tgt with
  | 0 => if t + size ≤ hbmSize then some (hbmBase d + t) else none
  | 1 => if t + size ≤ poolSize then some (poolBase d + t) else none
  | 2 => if t + size ≤ hbmSize then some (hbmBase d.other + t) else none
  | 3 => if t + size ≤ poolSize then some (poolBase d.other + t) else none
  | 4 => if t + size ≤ 2 ^ 55 then some (hostBase + t) else none
  | 5 => if t + size ≤ 2 ^ 64 then some (peerBase peer + t) else none
  | _ => none

/-- The die whose homes own a location (R48); host and peers are reached from the die that asks. -/
def homeDie (pa : Nat) : Option DieId :=
  match spaceOf pa with
  | some (.hbm d _) => some d
  | some (.pool d _) => some d
  | some (.pad n _) => some (dieOf n)
  | _ => none

end Sys2Proof.Machine
end

