-- ==== Sys2Proof/Machine/Float.lean ====
section
/-! DEFINITION. Number formats and rounding (R93 to R105, R110): floats as exact dyadic values, one rounding per result, the Q4Q codebook and SE20. -/

namespace Sys2Proof.Machine

open Sys2Proof

/-! ## Values and formats -/

/-- A float value: NaN, an infinity, or (−1)^neg × m × 2^e, exact, with the sign of a zero kept. -/
inductive Fv
  | nan
  | inf (neg : Bool)
  | fin (neg : Bool) (m : Nat) (e : Int)
deriving DecidableEq, Repr

/-- A format of R93: exponent and fraction widths, bias, and whether it is E4M3, which has no infinity. -/
structure Ffmt where
  ew : Nat
  fw : Nat
  bias : Int
  e4m3 : Bool
deriving DecidableEq, Repr

def fp32 : Ffmt := { ew := 8, fw := 23, bias := 127, e4m3 := false }
def fp16 : Ffmt := { ew := 5, fw := 10, bias := 15, e4m3 := false }
def bf16 : Ffmt := { ew := 8, fw := 7, bias := 127, e4m3 := false }
def e4m3 : Ffmt := { ew := 4, fw := 3, bias := 7, e4m3 := true }
def e5m2 : Ffmt := { ew := 5, fw := 2, bias := 15, e4m3 := false }

/-- The rounding modes of R103; a dither carries its threshold θ in sixteenths (R104). -/
inductive Rmode
  | near | zero | up | down
  | dither (th : Nat)
deriving DecidableEq, Repr

/-- θ[i] × 16 = 2j + 1 with j in the order 0, 4, 2, 6, 1, 5, 3, 7 (R104). -/
def theta16 (i : Nat) : Nat :=
  match i % 8 with
  | 0 => 1 | 1 => 9 | 2 => 5 | 3 => 13 | 4 => 3 | 5 => 11 | 6 => 7 | _ => 15

/-- The mode a 3-bit field names, for the element at position q under a dither phase (R103, R104). -/
def rmodeOf (p : BitVec 3) (q phase : Nat) : Rmode :=
  match p with
  | 0 => .near | 1 => .zero | 2 => .up | 3 => .down | _ => .dither (theta16 (q + phase))

def Ffmt.maxBits (f : Ffmt) : Nat := if f.e4m3 then 0x7E else (2 ^ f.ew - 1) * 2 ^ f.fw - 1

def Ffmt.infBits (f : Ffmt) : Nat := if f.e4m3 then 0x7E else (2 ^ f.ew - 1) * 2 ^ f.fw

/-- The canonical quiet NaN (R94). -/
def Ffmt.nanBits (f : Ffmt) : Nat := if f.e4m3 then 0x7F else (2 ^ f.ew - 1) * 2 ^ f.fw + 2 ^ (f.fw - 1)

/-- The unit of the subnormals is 2^emin. -/
def Ffmt.emin (f : Ffmt) : Int := 1 - f.bias - f.fw

/-- The value of a bit pattern (R93). -/
def Ffmt.value (f : Ffmt) (x : Nat) : Fv :=
  let s := decide (x / 2 ^ (f.ew + f.fw) % 2 = 1)
  let ex := x / 2 ^ f.fw % 2 ^ f.ew
  let fr := x % 2 ^ f.fw
  if f.e4m3 ∧ ex = 15 ∧ fr = 7 then .nan
  else if !f.e4m3 ∧ ex = 2 ^ f.ew - 1 then (if fr = 0 then .inf s else .nan)
  else if ex = 0 then .fin s fr f.emin
  else .fin s (2 ^ f.fw + fr) (f.emin + ex - 1)

/-! ## Rounding (R95, R103 to R105, R110) -/

/-- The magnitude is rounded away: q is the kept part, r / d the rest. -/
def roundsUp (mode : Rmode) (neg : Bool) (q r d : Nat) : Bool :=
  match mode with
  | .near => decide (d < 2 * r) || (decide (2 * r = d) && decide (q % 2 = 1))
  | .zero => false
  | .up => !neg && decide (r ≠ 0)
  | .down => neg && decide (r ≠ 0)
  | .dither th => decide (th * d ≤ 16 * r)

/-- A magnitude m × 2^e split at unit 2^u: quotient, rest, divisor. -/
def splitAt (m : Nat) (e u : Int) : Nat × Nat × Nat :=
  if u ≤ e then (m * 2 ^ (e - u).toNat, 0, 1)
  else let d := 2 ^ (u - e).toNat; (m / d, m % d, d)

/-- The bits of a magnitude rounded in a mode, before the overflow rule, and whether it was exact. -/
def Ffmt.roundBits (f : Ffmt) (mode : Rmode) (neg : Bool) (m : Nat) (e : Int) : Nat × Bool :=
  let u := max f.emin (e + (m.log2 : Int) - f.fw)
  let (q, r, d) := splitAt m e u
  let q' := if roundsUp mode neg q r d then q + 1 else q
  ((if q' < 2 ^ f.fw then q' else (u - f.emin + 1).toNat * 2 ^ f.fw + (q' - 2 ^ f.fw)), decide (r = 0))

/-- What a result beyond the largest finite value becomes (R95). -/
def Ffmt.overflow (f : Ffmt) (mode : Rmode) (neg : Bool) : Nat :=
  match mode with
  | .near | .dither _ => f.infBits
  | .zero => f.maxBits
  | .up => if neg then f.maxBits else f.infBits
  | .down => if neg then f.infBits else f.maxBits

/-- Round a value to the format: NaN canonical, one rounding, overflow by R95; a dithered value beyond the ladder rounds to nearest (R105). -/
def Ffmt.round (f : Ffmt) (mode : Rmode) (v : Fv) : Nat :=
  let sign (neg : Bool) (b : Nat) : Nat := if neg then 2 ^ (f.ew + f.fw) + b else b
  match v with
  | .nan => f.nanBits
  | .inf n => sign n f.infBits
  | .fin n m e =>
    if m = 0 then sign n 0
    else
      let t := f.roundBits .zero n m e
      let beyond := decide (f.maxBits < t.1) || (decide (t.1 = f.maxBits) && !t.2)
      let mode' : Rmode := match mode with | .dither th => if beyond then .near else .dither th | o => o
      let b := (f.roundBits mode' n m e).1
      sign n (if f.maxBits < b then f.overflow mode' n else b)

/-- The canonical pattern of a value that the format holds. -/
def Ffmt.canon (f : Ffmt) (x : Nat) : Nat := f.round .near (f.value x)

/-! ## Exact arithmetic in the extended reals -/

def Fv.neg : Fv → Fv
  | .nan => .nan
  | .inf n => .inf (!n)
  | .fin n m e => .fin (!n) m e

def Fv.abs : Fv → Fv
  | .nan => .nan
  | .inf _ => .inf false
  | .fin _ m e => .fin false m e

def signedMag (n : Bool) (m : Nat) : Int := if n then -(m : Int) else m

/-- An exact zero sum is +0, unless both terms are negative (R205). -/
def Fv.add : Fv → Fv → Fv
  | .nan, _ | _, .nan => .nan
  | .inf a, .inf b => if a = b then .inf a else .nan
  | .inf a, _ => .inf a
  | _, .inf b => .inf b
  | .fin a m e, .fin b k g =>
    let u := min e g
    let t := signedMag a (m * 2 ^ (e - u).toNat) + signedMag b (k * 2 ^ (g - u).toNat)
    if t = 0 then .fin (a && b) 0 u else .fin (decide (t < 0)) t.natAbs u

def Fv.sub (x y : Fv) : Fv := x.add y.neg

def Fv.mul : Fv → Fv → Fv
  | .nan, _ | _, .nan => .nan
  | .inf a, .inf b => .inf (a != b)
  | .inf a, .fin b m _ => if m = 0 then .nan else .inf (a != b)
  | .fin a m _, .inf b => if m = 0 then .nan else .inf (a != b)
  | .fin a m e, .fin b k g => .fin (a != b) (m * k) (e + g)

def Fv.isNan : Fv → Bool
  | .nan => true
  | _ => false

/-- −1, 0 or 1 as the first finite value is below, equal to or above the second. -/
def cmpFin (a : Bool) (m : Nat) (e : Int) (b : Bool) (k : Nat) (g : Int) : Int :=
  let u := min e g
  (signedMag a (m * 2 ^ (e - u).toNat) - signedMag b (k * 2 ^ (g - u).toNat)).sign

/-- The comparison as extended reals; a NaN compares as equal and is excluded by its users. -/
def Fv.cmp : Fv → Fv → Int
  | .nan, _ | _, .nan => 0
  | .inf a, .inf b => if a = b then 0 else if a then -1 else 1
  | .inf a, _ => if a then -1 else 1
  | _, .inf b => if b then 1 else -1
  | .fin a m e, .fin b k g => cmpFin a m e b k g

def Fv.lt (x y : Fv) : Bool := !x.isNan && !y.isNan && decide (x.cmp y < 0)
def Fv.le (x y : Fv) : Bool := !x.isNan && !y.isNan && decide (x.cmp y ≤ 0)
def Fv.eq (x y : Fv) : Bool := !x.isNan && !y.isNan && decide (x.cmp y = 0)

def Fv.negSign : Fv → Bool
  | .nan => false
  | .inf n => n
  | .fin n _ _ => n

/-- The larger of two; −0 orders below +0, a NaN in either gives NaN (R205). -/
def Fv.max (x y : Fv) : Fv :=
  if x.isNan || y.isNan then .nan
  else if x.cmp y < 0 then y else if 0 < x.cmp y then x else if x.negSign then y else x

def Fv.min (x y : Fv) : Fv :=
  if x.isNan || y.isNan then .nan
  else if x.cmp y < 0 then x else if 0 < x.cmp y then y else if x.negSign then x else y

def Fv.zero : Fv := .fin false 0 0

def Fv.ofInt (v : Int) : Fv := .fin (decide (v < 0)) v.natAbs 0

/-! ## Roots, reciprocals, powers and logarithms (R208)

A result that no dyadic with few digits holds is given by a dyadic that has at least 40 digits more than the type and lies strictly between the two
nearest such dyadics on the result's side, so that it rounds as the exact value does (DEDUCED, log 12). -/

/-- The integer square root, one bit of the root at a time. -/
def isqrtBits (n : Nat) : Nat → Nat → Nat
  | 0, r => r
  | k + 1, r => isqrtBits n k (if (r + 2 ^ k) * (r + 2 ^ k) ≤ n then r + 2 ^ k else r)

def isqrt (n : Nat) : Nat := isqrtBits n (n.log2 / 2 + 1) 0

/-- q × 2^e, or a value just above it where the exact value was not reached. -/
def stickyFv (n : Bool) (q : Nat) (exact : Bool) (e : Int) : Fv := .fin n (2 * q + (if exact then 0 else 1)) (e - 1)

/-- 1 / x (R208). -/
def Fv.rcp : Fv → Fv
  | .nan => .nan
  | .inf n => .fin n 0 0
  | .fin n m e => if m = 0 then .inf n else
      let k := m.log2 + 64
      stickyFv n (2 ^ k / m) (decide (2 ^ k % m = 0)) (-e - k)

/-- The square root of a value that is not negative. -/
def sqrtFin (m : Nat) (e : Int) : Fv :=
  let (m', e') := if e % 2 = 0 then (m, e) else (2 * m, e - 1)
  let n := m' * 2 ^ 128
  let q := isqrt n
  stickyFv false q (decide (q * q = n)) (e' / 2 - 64)

/-- 1 / √x (R208). -/
def Fv.rsq : Fv → Fv
  | .nan => .nan
  | .inf n => if n then .nan else .fin false 0 0
  | .fin n m e =>
    if m = 0 then .inf n
    else if n then .nan
    else
      let (m', e') := if e % 2 = 0 then (m, e) else (2 * m, e - 1)
      let q := isqrt (2 ^ 192 / m')
      stickyFv false q (decide (q * q * m' = 2 ^ 192)) (-(e' / 2) - 96)

/-- 2^(0.b₁b₂…) in units of 2^-256 from below: `r` is 2^(2^-i), `f` the bits still to come, as a fraction of 2^n (DEDUCED, log 12). -/
def exp2Frac : Nat → Nat → Nat → Nat → Nat
  | 0, _, _, acc => acc
  | n + 1, f, r, acc =>
    let r' := isqrt (r * 2 ^ 256)
    exp2Frac n (f % 2 ^ n) r' (if 2 ^ n ≤ f then acc * r' / 2 ^ 256 else acc)

/-- 2^x (R208) (DEDUCED, log 12). -/
def Fv.exp2 : Fv → Fv
  | .nan => .nan
  | .inf n => if n then .fin false 0 0 else .inf false
  | .fin n m e =>
    if m = 0 then .fin false 1 0
    else if 1024 ≤ (splitAt m e 0).1 then (if n then .fin false 1 (-2048) else .fin false 1 2048)
    else if 0 ≤ e then .fin false 1 (signedMag n (m * 2 ^ e.toNat))
    else
      let k := (-e).toNat
      let v : Int := signedMag n m
      let fl := v / 2 ^ k
      let fr := (v % 2 ^ k).toNat
      if fr = 0 then .fin false 1 fl
      else stickyFv false (exp2Frac k fr (2 ^ 257) (2 ^ 256)) false (fl - 256)

/-- The binary digits of log2 x, `n` of them, for x in [1, 2) given in units of 2^-512. -/
def log2Frac : Nat → Nat → Nat → Nat
  | 0, _, acc => acc
  | n + 1, x, acc =>
    let y := x * x / 2 ^ 512
    if 2 ^ 513 ≤ y then log2Frac n (y / 2) (2 * acc + 1) else log2Frac n y (2 * acc)

/-- log2 x (R208) (DEDUCED, log 12). -/
def Fv.log2 : Fv → Fv
  | .nan => .nan
  | .inf n => if n then .nan else .inf false
  | .fin n m e =>
    if m = 0 then .inf true
    else if n then .nan
    else
      let ex : Int := e + m.log2
      if m = 2 ^ m.log2 then .ofInt ex
      else
        let t := 2 * log2Frac 192 (m * 2 ^ 512 / 2 ^ m.log2) 0 + 1
        let v : Int := ex * 2 ^ 193 + t
        .fin (decide (v < 0)) v.natAbs (-193)

/-! ## Integers (R96) -/

/-- A value rounded to an integer in a mode; the rest of its rule is the saturation. -/
def Fv.toIntRound (mode : Rmode) : Fv → Int
  | .nan => 0
  | .inf _ => 0
  | .fin n m e =>
    let (q, r, d) := splitAt m e 0
    signedMag n (if roundsUp mode n q r d then q + 1 else q)

/-- Saturation to a width in bits (R96). -/
def satInt (w : Nat) (v : Int) : Int := max (-(2 ^ (w - 1) : Int)) (min v (2 ^ (w - 1) - 1))

/-- The integer a conversion gives: NaN is 0, an infinity an end of the range (R96). -/
def Fv.toIntSat (w : Nat) (mode : Rmode) (v : Fv) : Int :=
  match v with
  | .nan => 0
  | .inf n => if n then -(2 ^ (w - 1)) else 2 ^ (w - 1) - 1
  | v => satInt w (v.toIntRound mode)

/-- The two's complement pattern. -/
def intBits (w : Nat) (v : Int) : Nat := (BitVec.ofInt w v).toNat

/-- The integer of a pattern. -/
def bitsInt (w x : Nat) : Int := (BitVec.ofNat w x).toInt

/-! ## Q4Q and SE20 (R97 to R102) -/

/-- Magnitude × 1024 of an index (R97). -/
def q4Mag (i : Nat) : Nat :=
  match i with
  | 0 => 43 | 1 => 130 | 2 => 221 | 3 => 318 | 4 => 427 | 5 => 555 | 6 => 725 | _ => 1024

/-- The value of an SE20 (R98); none for e = 63, the marker and the reserved ones. -/
def se20Value (x : Nat) : Option Fv :=
  let e := x / 16384 % 64
  if e = 63 then none else some (.fin false (16384 + x % 16384) ((e : Int) - 77))

/-- An element of a Q4Q block by its code, the block's SE20, its mask bit and the super-scale (R100). -/
def q4Dequant (code se20 : Nat) (mask : Bool) (sup : Fv) : Fv :=
  let neg := decide (8 ≤ code % 16)
  match se20Value se20 with
  | none => .nan
  | some s => if mask ∧ code % 8 = 7 then .inf neg else ((Fv.fin neg (q4Mag (code % 8)) (-10)).mul s).mul sup

/-- Numerator and denominator of |x| / (s × t), as naturals, for finite x and finite nonzero s × t. -/
def ratioOf (xm : Nat) (xe : Int) (sm : Nat) (se : Int) : Nat × Nat :=
  let u := min xe se
  (xm * 2 ^ (xe - u).toNat, sm * 2 ^ (se - u).toNat)

/-- A_b / S rounded upward to the SE20 grid (R102, step 3). -/
def se20Ceil (a d : Nat) : Nat :=
  if d * 32767 ≤ a * 32768 then 0xFBFFF
  else
    let ceil (e : Nat) : Nat := (a * 2 ^ (77 - e) + d - 1) / d
    match (List.range 63).find? fun e => decide (ceil e ≤ 32768) with
    | none => 0xFBFFF
    | some e =>
      let c := ceil e
      if c ≤ 16384 then e * 16384
      else if c = 32768 then (e + 1) * 16384
      else e * 16384 + (c - 16384)

/-- The index of the magnitude chosen for y = a / d (R102, step 4). -/
def q4Index (mode : Rmode) (neg : Bool) (a d : Nat) : Nat :=
  let ge (i : Nat) : Bool := decide (q4Mag i * d ≤ 1024 * a)
  if !ge 0 then 0
  else if ge 7 then 7
  else
    let lo := ((List.range 7).filter fun i => ge (i + 1)).length
    let r := 1024 * a - q4Mag lo * d
    let gap := (q4Mag (lo + 1) - q4Mag lo) * d
    let up := match mode with
      | .near => decide (gap < 2 * r)
      | .zero => false
      | .up => !neg && decide (r ≠ 0)
      | .down => neg && decide (r ≠ 0)
      | .dither th => decide (th * gap ≤ 16 * r)
    if up then lo + 1 else lo

end Sys2Proof.Machine
end

