-- ==== Sys2Proof/Machine/ShapeUnit.lean ====
section
/-! DEFINITION. Elements of a 1 KiB value (R199), and the shape unit of the V seat (R224 to R228): what VSWEEP and VDIST have computed after each of their
sixteen clocks. -/

namespace Sys2Proof.Machine

open Sys2Proof

def bit (b : Bool) : Nat := if b then 1 else 0

def packNat (base : Nat) : List Nat → Nat
  | [] => 0
  | v :: r => v % base + base * packNat base r

/-- A 1 KiB value from its elements, zero above the last. -/
def packElems (w : Nat) (l : List Nat) : Line := BitVec.ofNat 8192 (packNat (2 ^ (8 * w)) l)

/-- A predicate from one bit a lane. -/
def predOf (f : Nat → Bool) : Pred := BitVec.ofNat 256 (packNat 2 ((List.range 256).map fun i => bit (f i)))

def elemOf (w : Nat) (x : Line) (e : Nat) : Nat := (x.extractLsb' (8 * w * e) (8 * w)).toNat

/-! ## The tests (R225, R227) -/

/-- Value of an FP32 element. -/
def f32At (x : Line) (e : Nat) : Fv := fp32.value (elemOf 4 x e)

def r32 (v : Fv) : Fv := fp32.value (fp32.round .near v)

/-- One obstacle against one sphere (R225). -/
def sweepHit (x y z r : Fv) (o : Line) (k : Nat) : Bool :=
  let dx := x.sub (f32At o (4 * k))
  let dy := y.sub (f32At o (4 * k + 1))
  let dz := z.sub (f32At o (4 * k + 2))
  let t := r.add (f32At o (4 * k + 3))
  if dx.isNan || dy.isNan || dz.isNan || t.isNan then true
  else Fv.le Fv.zero t && Fv.le (((dx.mul dx).add (dy.mul dy)).add (dz.mul dz)) (t.mul t)

/-- The distance of a point to one shape record (R227); none for an empty record. -/
def shapeDist (x y z : Fv) (o : Line) (k : Nat) : Option Fv :=
  let w (i : Nat) : Fv := f32At o (8 * k + i)
  let box (p c h : Fv) : Fv := r32 (((p.sub c).abs).sub h)
  match elemOf 4 o (8 * k + 7) with
  | 0 => none
  | 1 => some (r32 (((((w 0).mul x).add ((w 1).mul y)).add ((w 2).mul z)).sub (w 3)))
  | 2 =>
    let gx := box x (w 0) (w 3)
    let gy := box y (w 1) (w 4)
    let gz := box z (w 2) (w 5)
    if gx.isNan || gy.isNan || gz.isNan then some .nan
    else if Fv.zero.lt gx || Fv.zero.lt gy || Fv.zero.lt gz then
      let sq (g : Fv) : Fv := let m := Fv.zero.max g; m.mul m
      match ((sq gx).add (sq gy)).add (sq gz) with
      | .fin _ m e => some (r32 (if m = 0 then Fv.zero else sqrtFin m e))
      | v => some v
    else some ((gx.max gy).max gz)
  | _ => some .nan

/-! ## Progress (R228) -/

/-- What the unit has before its first group: no lane touches, or every distance is +∞; an off lane has nothing (R200). -/
def Shape.start (dist : Bool) (on : Pred) : Line :=
  if dist then packElems 4 ((List.range 256).map fun e => if on.getLsbD e then fp32.round .near (.inf false) else 0) else 0

/-- A word that begins: VDIST lands 20 clocks after its issue, VSWEEP 24 (DEDUCED, log 26). -/
def Shape.begun (w : Word) (dist : Bool) (b : Line) (src : List Line) (on : Pred) : Shape :=
  { word := w, dist := dist, operand := b, src := src, on := on, idx := 0, rem := 16, left := if dist then 20 else 24, acc := Shape.start dist on, accAt := 0 }

/-- One clock: four obstacles, or two shape records. -/
def Shape.group (h : Shape) (acc : Line) (g : Nat) : Line :=
  let r (i : Nat) : Line := h.src.getD i 0
  if h.dist then
    packElems 4 ((List.range 256).map fun e => if !h.on.getLsbD e then 0 else fp32.round .near ([2 * g, 2 * g + 1].foldl (fun v k =>
      match shapeDist (f32At (r 0) e) (f32At (r 1) e) (f32At (r 2) e) h.operand k with | some z => v.min z | none => v) (f32At acc e)))
  else
    (predOf fun e => acc.getLsbD e || (h.on.getLsbD e && (List.range 4).any fun k =>
      sweepHit (f32At (r 0) e) (f32At (r 1) e) (f32At (r 2) e) (f32At (r 3) e) h.operand (4 * g + k))).setWidth 8192

/-- The result after `n` of the sixteen groups. -/
def Shape.upto (h : Shape) (n : Nat) : Line := (List.range (n - h.accAt)).foldl (fun acc i => h.group acc (h.accAt + i)) h.acc

/-- The partial result at the group reached. -/
def Shape.partly (h : Shape) : Line := h.upto h.idx

/-- The result that lands. -/
def Shape.final (h : Shape) : Line := h.upto 16

/-- The group or record index reached, in the five bits of the frame (R354). -/
def Shape.index (h : Shape) : Nat := min 31 (if h.dist then 2 * h.idx else h.idx)

/-- What has been computed stands, whatever is written next. -/
def Shape.settled (h : Shape) : Shape := { h with acc := h.partly, accAt := h.idx }

/-- One schedule cycle (R224) (DEDUCED, log 26). -/
def Shape.tick (h : Shape) : Option Shape :=
  if h.left = 0 then none else some { h with idx := min 16 (h.idx + 1), rem := h.rem - 1, left := h.left - 1 }

end Sys2Proof.Machine
end

