-- ==== Sys2Proof/Machine/Ops.lean ====
section
/-! DEFINITION. The named operations over the state: access to cores, dies and registers, results in flight (R32, R33), the sequencing of a seat
(R35, R40), taking a trap (R348 to R351) and returning from one (R352). -/

namespace Sys2Proof.Machine

open Sys2Proof

/-! ## Access -/

def State.coreAt (s : State) (n : CoreId) : Core := s.cores.get n

def State.setCore (s : State) (n : CoreId) (c : Core) : State := { s with cores := s.cores.set n c }

def State.modCore (s : State) (n : CoreId) (f : Core → Core) : State := s.setCore n (f (s.coreAt n))

def State.modCtx (s : State) (n : CoreId) (f : Ctx → Ctx) : State := s.modCore n fun c => { c with ctx := f c.ctx }

def State.crewAt (s : State) (w : CrewId) : Crew := s.crews.get w

def State.setCrew (s : State) (w : CrewId) (c : Crew) : State := { s with crews := s.crews.set w c }

def State.die (s : State) : DieId → Die
  | .bow => s.bow
  | .stern => s.stern

def State.setDie (s : State) (d : DieId) (x : Die) : State :=
  match d with
  | .bow => { s with bow := x }
  | .stern => { s with stern := x }

def State.modDie (s : State) (d : DieId) (f : Die → Die) : State := s.setDie d (f (s.die d))

def Partition.onDie (p : Partition) : DieId → PartDie
  | .bow => p.bow
  | .stern => p.stern

def Partition.setDie (p : Partition) (d : DieId) (x : PartDie) : Partition :=
  match d with
  | .bow => { p with bow := x }
  | .stern => { p with stern := x }

def State.part (s : State) (p : Fin 32) (d : DieId) : PartDie := (s.parts.get p).onDie d

def State.modPart (s : State) (p : Fin 32) (d : DieId) (f : PartDie → PartDie) : State :=
  { s with parts := s.parts.set p ((s.parts.get p).setDie d (f (s.part p d))) }

def Ctx.seat (x : Ctx) (k : SeatId) : Seat := x.seats.get k.toFin

def Ctx.setSeat (x : Ctx) (k : SeatId) (t : Seat) : Ctx := { x with seats := x.seats.set k.toFin t }

def Ctx.modSeat (x : Ctx) (k : SeatId) (f : Seat → Seat) : Ctx := x.setSeat k (f (x.seat k))

/-- The context number, die descriptor and partition of the unit on a core. -/
def Core.ctxNum (c : Core) : Fin 64 := match c.unit with | some u => u.ctx | none => 0

def State.contextOf (s : State) (n : CoreId) (x : Fin 64) : Context := ((s.die (dieOf n)).contexts).get x

/-- The free values move on (R9). -/
def State.fresh (s : State) : State := { s with free := s.free + 1 }

def State.outp (s : State) (o : Out) : State := { s with outs := s.outs ++ [o] }

/-- A choice among n that the spec leaves to the device (DESIGN CHOICE, log 11). -/
def State.choose (s : State) (tag n : Nat) : Nat := if n = 0 then 0 else Config.pick s.free tag % n

/-! ## Registers -/

/-- The physical register of a rotating name (R41). -/
def rotName (b : BitVec 3) (i : BitVec 5) : BitVec 5 :=
  if i.toNat < 24 then i else BitVec.ofNat 5 (24 + (i.toNat - 24 + 8 - b.toNat) % 8)

/-- A result to the register is in flight, so that a read falls in the open window of R32 (DESIGN CHOICE, log 7). -/
def Ctx.inWindow (x : Ctx) (d : Dest) : Bool := x.inflight.any fun r => decide (r.dest = d) && decide (r.rem ≠ 0)

/-- A read of a c register: c0 is zero (R26); a read in the window is a free value (R32) (DESIGN CHOICE, log 7). -/
def State.rdC (s : State) (tag : Nat) (i : BitVec 5) : Dw :=
  let x := (s.coreAt s.cur).ctx
  if i = 0 then 0 else if x.inWindow (.c i) then Config.freeDw s.free tag else x.c.get i.toFin

def Ctx.aPhys (x : Ctx) (i : BitVec 5) : BitVec 5 := rotName (x.seat .a).rb i

def State.rdA (s : State) (tag : Nat) (i : BitVec 5) : Dw :=
  let x := (s.coreAt s.cur).ctx
  let j := x.aPhys i
  if i = 0 then 0 else if x.inWindow (.a j) then Config.freeDw s.free tag else x.a.get j.toFin

def State.rdX (s : State) (tag : Nat) (i : BitVec 4) : Dw :=
  let x := (s.coreAt s.cur).ctx
  if x.inWindow (.x i) then Config.freeDw s.free tag else x.x.get i.toFin

def State.rdM (s : State) (tag : Nat) (i : BitVec 4) : Dw :=
  let x := (s.coreAt s.cur).ctx
  if x.inWindow (.m i) then Config.freeDw s.free tag else x.m.get i.toFin

def Ctx.vPhys (x : Ctx) (i : BitVec 5) : BitVec 5 := rotName (x.seat .v).rb i

def State.rdV (s : State) (tag : Nat) (i : BitVec 5) : Line :=
  let x := (s.coreAt s.cur).ctx
  let j := x.vPhys i
  if x.inWindow (.v j) then Config.freeLine s.free tag else x.v.get j.toFin

/-- p0 reads all-true (R26) (DESIGN CHOICE, log 7). -/
def State.rdP (s : State) (tag : Nat) (i : BitVec 3) : Pred :=
  let x := (s.coreAt s.cur).ctx
  if i = 0 then BitVec.allOnes 256 else if x.inWindow (.p i) then (Config.freeLine s.free tag).setWidth 256 else x.p.get i.toFin

/-- The window of a one-clock result is empty, so a loop register reads its old or its new value (R32, R145). -/
def State.rdL (s : State) (i : BitVec 3) : Dw :=
  (s.coreAt s.cur).ctx.l.get i.toFin

def State.rdFmt (s : State) (tag : Nat) (i : BitVec 4) : BitVec 16 :=
  let x := (s.coreAt s.cur).ctx
  if x.inWindow (.fmt i) then (Config.freeDw s.free tag).setWidth 16 else x.fmt.get i.toFin

/-- Merge the enabled bytes of a value into a line (R201). -/
def mergeBytes (en : BitVec 1024) (old new : Line) : Line :=
  (List.range 1024).foldl (fun (acc : Line) j =>
    if en.getLsbD j then (acc &&& ~~~((0xFF : Line) <<< (8 * j))) ||| (new &&& ((0xFF : Line) <<< (8 * j))) else acc) old

/-- Merge a vector value: all bytes enabled is the whole value. -/
def mergeLine (en : BitVec 1024) (old new : Line) : Line := if en = BitVec.allOnes 1024 then new else mergeBytes en old new

/-- Write one landed result to its destination (R32); c0, a0 and p0 discard writes (R26). -/
def Ctx.land (x : Ctx) (r : InFlight) : Ctx :=
  match r.dest with
  | .none => x
  | .c i => if i = 0 then x else { x with c := x.c.set i.toFin (r.val.setWidth 64) }
  | .a i => if i = 0 then x else { x with a := x.a.set i.toFin (r.val.setWidth 64) }
  | .x i => { x with x := x.x.set i.toFin (r.val.setWidth 64) }
  | .m i => { x with m := x.m.set i.toFin (r.val.setWidth 64) }
  | .v i => { x with v := x.v.set i.toFin (mergeLine r.en (x.v.get i.toFin) r.val) }
  | .p i => if i = 0 then x else
      { x with p := x.p.set i.toFin ((x.p.get i.toFin &&& ~~~(r.en.setWidth 256)) ||| (r.val.setWidth 256 &&& r.en.setWidth 256)) }
  | .l i => { x with l := x.l.set i.toFin (r.val.setWidth 64) }
  | .sys i => if i = 12 then { x with uhand := (r.val.setWidth 64) &&& ~~~(3 : Dw) } else x
  | .fmt i => { x with fmt := x.fmt.set i.toFin (r.val.setWidth 16) }
  | .dph => { x with dph := r.val.setWidth 3 }
  | .queue q t =>
      let u := x.queues.get q.toFin
      { x with queues := x.queues.set q.toFin { u with ents := u.ents.map fun e =>
          if e.ticket = t then { e with landed := true, data := r.val, poison := r.poison } else e } }

/-- A result of a seat of the current core, to land after `lat` schedule cycles. -/
def mkResult (k : SeatId) (d : Dest) (v : Line) (lat : Nat) : InFlight :=
  { seat := k, dest := d, val := v, en := BitVec.allOnes 1024, rem := lat, ready := true, op := 0, ext := false, poison := none, err := none }

def Ctx.sendR (x : Ctx) (r : InFlight) : Ctx := { x with inflight := x.inflight ++ [r] }

def State.sendR (s : State) (r : InFlight) : State := s.modCtx s.cur fun x => x.sendR r

/-- Send a scalar to a c register. -/
def State.sendC (s : State) (d : BitVec 5) (v : Dw) (lat : Nat) : State := s.sendR (mkResult .c (.c d) (v.setWidth 8192) lat)

/-- Send a scalar to an a register, resolved at issue (R33, R41). A write to a0 is discarded. -/
def State.sendA (s : State) (d : BitVec 5) (v : Dw) (lat : Nat) : State :=
  s.sendR (mkResult .a (.a ((s.coreAt s.cur).ctx.aPhys d)) (v.setWidth 8192) lat)

def State.sendM (s : State) (d : BitVec 4) (v : Dw) (lat : Nat) : State := s.sendR (mkResult .m (.m d) (v.setWidth 8192) lat)

def State.sendX (s : State) (d : BitVec 4) (v : Dw) (lat : Nat) : State := s.sendR (mkResult .v (.x d) (v.setWidth 8192) lat)

/-! ## Queues (R27 to R29) -/

def Ctx.queue (x : Ctx) (q : BitVec 3) : Queue := x.queues.get q.toFin

def Ctx.setQueue (x : Ctx) (q : BitVec 3) (u : Queue) : Ctx := { x with queues := x.queues.set q.toFin u }

def Queue.full (u : Queue) : Nat := (u.ents.filter fun e => e.landed).length

def Queue.resv (u : Queue) : Nat := (u.ents.filter fun e => !e.landed).length

/-- full + resv = 4 (R29). -/
def Queue.noRoom (u : Queue) : Bool := decide (4 ≤ u.ents.length)

/-- Reserve the tail entry. -/
def Queue.reserve (u : Queue) (ticket : Nat) : Queue :=
  { u with ents := u.ents ++ [{ ticket := ticket, landed := false, data := 0, poison := none }] }

def Queue.landEntry (u : Queue) (ticket : Nat) (v : Line) (poison : Option Dw) : Queue :=
  { u with ents := u.ents.map fun e => if e.ticket = ticket then { e with landed := true, data := v, poison := poison } else e }

/-- The head entry once it has landed. -/
def Queue.head (u : Queue) : Option QEntry := match u.ents with | e :: _ => if e.landed then some e else none | [] => none

def Queue.take (u : Queue) : Queue := { u with ents := u.ents.tail }

/-- A binding as R27 lays it out. -/
def Queue.binding (u : Queue) : BitVec 16 :=
  u.dir.setWidth 16 ||| (u.esz.setWidth 16 <<< 2) ||| (BitVec.ofNat 16 u.full <<< 4) ||| (BitVec.ofNat 16 u.resv <<< 7) |||
    ((if u.pat then 1 else 0 : BitVec 16) <<< 10) |||
    ((match u.ents with | e :: _ => if e.poison.isSome then 1 else 0 | [] => 0 : BitVec 16) <<< 11)

/-! ## Loop registers (R38) -/

/-- A seat of the core runs a loop on the register. -/
def Ctx.loopOn (x : Ctx) (l : BitVec 3) : Bool :=
  [SeatId.c, .a, .v, .m].any fun k => match (x.seat k).loop with | some lp => decide (lp.reg = l) | none => false

/-- A loop of the core uses the register: one of a seat's, or the C seat's own that a handler's frame keeps (R38, R350). -/
def Core.loopOn (c : Core) (l : BitVec 3) : Bool :=
  c.ctx.loopOn l || (match c.handler with | some h => (match (h.saved.seat .c).loop with | some lp => decide (lp.reg = l) | none => false) | none => false)

/-- The value of a loop register as a seat sees it: in a loop body the count is the iteration the seat executes (R38, R40). -/
def Ctx.loopView (x : Ctx) (k : SeatId) (l : BitVec 3) (stored : Dw) : Dw :=
  match (x.seat k).loop with
  | some lp => if lp.reg = l then
      (BitVec.ofInt 32 ((lp.step : Int) + lp.base - lp.stage)) ++ (stored.extractLsb' 0 32)
    else stored
  | none => stored

/-! ## Sequencing -/

/-- Where control goes after a word has issued. -/
inductive Flow
  | seq
  | branch (taken : Bool) (t : Dw)
  | loop (lp : Loop)
  | skip (pc : Dw)
  | stay
deriving DecidableEq, Repr

/-- What a word does at issue: it stalls (with the state in which it waits), traps without issuing, issues, or issues and then traps. -/
inductive Verdict
  | stall (s : State)
  | trap (c : Cause) (tval : Dw)
  | go (s : State) (f : Flow)
  | goTrap (s : State) (f : Flow) (c : Cause) (tval : Dw)
deriving DecidableEq, Repr

/-- One past the iterations a loop may run: the trip, or i0 in a forced early epilogue (R42). -/
def Loop.limit (lp : Loop) : Nat := if lp.lsq then lp.i0 else lp.trip

/-- The iteration the seat executes in this kernel step, as an integer (R40, R42). -/
def Loop.iter (lp : Loop) : Int := (lp.step : Int) + lp.base - lp.stage

/-- A word of this kernel step issues (R40, R42). -/
def Loop.issues (lp : Loop) : Bool := decide ((lp.base : Int) ≤ lp.iter ∧ lp.iter < lp.limit)

/-- Kernel steps of the loop (R40, R42). -/
def Loop.steps (lp : Loop) : Nat := lp.limit + lp.ms - lp.base

/-- The pc after the word at the head of a seat, its delay slots counted down (R35). -/
def Seat.next (t : Seat) : Seat :=
  if t.dslots = 0 then { t with pc := t.pc + 4 }
  else if t.dslots = 1 ∧ t.dtaken then { t with pc := t.dtgt, dslots := 0, dtaken := false, dtgt := 0 }
  else { t with pc := t.pc + 4, dslots := t.dslots - 1 }

/-- The end of a loop that has run all its steps: the stored count becomes T (R40); a forced early epilogue instead leaves the seat at its MLOOP
with the iterations started (R42). -/
def Ctx.loopDone (x : Ctx) (k : SeatId) (lp : Loop) : Ctx :=
  if lp.lsq ∧ lp.i0 < lp.trip then
    x.modSeat k fun t => { t with loop := some { lp with lepi := true, lmid := false, step := 0, pos := 0 }, pc := lp.head }
  else
    let x := x.modSeat k fun t => { t with loop := none, pc := lp.head + 4 + 4 * BitVec.ofNat 64 lp.len }
    { x with l := x.l.set lp.reg.toFin ((BitVec.ofNat 32 lp.trip) ++ ((x.l.get lp.reg.toFin).extractLsb' 0 32)) }

/-- The seat moves past one word of its loop body, issued or squashed: the next word, or the next kernel step with its rotation and
its advance of the dither phase (R40, R41, R106). -/
def Ctx.loopNext (x : Ctx) (k : SeatId) (lp : Loop) : Ctx :=
  if lp.pos + 1 < lp.len then
    x.modSeat k fun t => { t with pc := t.pc + 4, loop := some { lp with pos := lp.pos + 1 } }
  else
    let lp' := { lp with step := lp.step + 1, pos := 0, dith := false }
    let x := if lp.dith then { x with dph := x.dph + 1 } else x
    let x := x.modSeat k fun t =>
      { t with rb := (if k = .a ∨ k = .v then t.rb + 1 else t.rb), loop := some lp', pc := lp.head + 4 }
    if lp'.steps ≤ lp'.step then x.loopDone k lp' else x

/-- Move a seat past the word it has issued. -/
def Ctx.advance (x : Ctx) (k : SeatId) (f : Flow) : Ctx :=
  let x := x.modSeat k fun t => { t with strk := false }
  match f with
  | .stay => x
  | .skip pc => x.modSeat k fun t => { t with pc := pc }
  | .loop lp => x.modSeat k fun t => { t with pc := t.pc + 4, loop := some lp }
  | .branch taken t => x.modSeat k fun u => { u with pc := u.pc + 4, dslots := 2, dtaken := taken, dtgt := if taken then t else 0 }
  | .seq => match (x.seat k).loop with
    | some lp => if lp.lepi ∧ !lp.lmid then x.modSeat k Seat.next else x.loopNext k lp
    | none => x.modSeat k Seat.next

/-- The turn passes to the next seat of the clock. -/
def State.passTurn (s : State) : State :=
  { s with free := s.free + 1, turn := match s.turn with
      | .seat .c => .seat .a
      | .seat .a => .seat .v
      | .seat .v => .seat .m
      | .seat .m => .finish
      | .finish => .finish }

/-- The codes of R348. -/
def Cause.code : Cause → BitVec 8
  | .undefinedInstruction => 0x01 | .delaySlotWord => 0x02 | .branchTarget => 0x03 | .strokeWithoutCrew => 0x04
  | .loopMismatch => 0x05 | .loopBusy => 0x06 | .loopBody => 0x07 | .loopTrip => 0x08 | .tokenOverflow => 0x09
  | .breakpoint => 0x0A | .software => 0x0B | .return_ => 0x0C | .privilege => 0x0D
  | .queueDirection => 0x10 | .queueBusy => 0x11 | .queueWidth => 0x12 | .poisonedHead => 0x13 | .patternBusy => 0x14
  | .shapeUnitBusy => 0x15 | .format => 0x18 | .jointBusy => 0x19 | .crew => 0x1A | .jointMismatch => 0x1B
  | .jointWithoutCrew => 0x1C | .nonCanonical => 0x20 | .localHole => 0x21 | .rangeEntry => 0x22 | .notPresent => 0x23
  | .pageSize => 0x24 | .alignment => 0x25 | .protection => 0x26 | .data => 0x27 | .coreData => 0x28
  | .liveSlot => 0x30 | .slotState => 0x31 | .slotBusy => 0x32 | .slotPlacement => 0x33 | .regionOverlap => 0x34
  | .regionTableFull => 0x35 | .slotAction => 0x36 | .parkMask => 0x37 | .engineFault => 0x38 | .spillFault => 0x39
  | .handlerFault => 0x3A | .ringStarved => 0x3B

/-- The causes whose delivery starts at the supervisor handler (R348). -/
def Cause.toSup : Cause → Bool
  | .return_ | .privilege | .notPresent | .pageSize | .data | .coreData | .spillFault | .handlerFault | .ringStarved => true
  | _ => false

/-- The 4-bit engine-fault codes of R362 for the causes of R55 and for data. -/
def Cause.efCode : Cause → Nat
  | .nonCanonical => 1 | .localHole => 2 | .rangeEntry => 3 | .notPresent => 4 | .pageSize => 5 | .alignment => 6
  | .protection => 7 | .data => 8 | .slotState => 13 | _ => 0

/-! ## The frame and the shadow as doublewords (R353 to R357) -/

/-- A field of a block at a bit offset. -/
def fld {w : Nat} (off : Nat) (v : Nat) : BitVec w := BitVec.ofNat w v <<< off

/-- The n-th doubleword of a block. -/
def dwOf {w : Nat} (b : BitVec w) (i : Nat) : Dw := b.extractLsb' (64 * i) 64

/-- A block with its n-th doubleword replaced. -/
def setDwOf {w : Nat} (b : BitVec w) (i : Nat) (v : Dw) : BitVec w :=
  (b &&& ~~~((BitVec.allOnes 64).setWidth w <<< (64 * i))) ||| (v.setWidth w <<< (64 * i))

/-- The seat block of R355; `chosen` is the seat whose cause TCAUSE reports. -/
def Ctx.seatBlock (x : Ctx) (k : SeatId) (chosen : Option SeatId) : BitVec 512 :=
  let t := x.seat k
  let base : BitVec 512 := fld 0 t.pc.toNat ||| fld 64 t.dtgt.toNat ||| fld 128 t.dslots.toNat ||| fld 130 (bit t.act) ||| fld 131 (bit t.strk) |||
    fld 302 (if k = .a ∨ k = .v then t.rb.toNat else 0)
  let q : BitVec 512 := match t.cause with
    | some c => fld 136 c.cause.code.toNat ||| fld 144 (bit c.issued) ||| fld 145 (bit (decide (chosen = some k))) ||| fld 192 c.tval.toNat
    | none => 0
  let l : BitVec 512 := match t.loop with
    | some lp => fld 256 (lp.step % 2 ^ 32) ||| fld 288 (lp.pos % 64) ||| fld 294 lp.reg.toNat ||| fld 297 1 ||| fld 298 (bit lp.lepi) |||
        fld 299 lp.b0.toNat ||| fld 305 (bit lp.lmid) ||| fld 306 (bit (lp.lsq && !lp.lepi)) |||
        fld 320 (if lp.lepi || lp.lsq then lp.i0 % 2 ^ 32 else 0)
    | none => 0
  base ||| q ||| l

/-- A loop that a written frame brings into being: its body, of no words yet, its stages and its trip are read at its MLOOP word (R39, R355). -/
def blankLoop : Loop :=
  { reg := 0, len := 0, stage := 0, ms := 0, head := 0, trip := 0, step := 0, pos := 0, b0 := 0, base := 0, group := false, lsq := false, lepi := false,
    lmid := false, i0 := 0, dith := false }

/-- Write back a seat block; cause, issued and chosen are kept (R358) (DEDUCED, log 23). -/
def Ctx.setSeatBlock (x : Ctx) (k : SeatId) (b : BitVec 512) : Ctx :=
  x.modSeat k fun t =>
    { t with
      pc := b.extractLsb' 0 64, dtgt := b.extractLsb' 64 64, dslots := b.extractLsb' 128 2, dtaken := decide (b.extractLsb' 64 64 ≠ 0),
      act := b.getLsbD 130, strk := b.getLsbD 131, rb := (if k = .a ∨ k = .v then b.extractLsb' 302 3 else 0),
      cause := t.cause.map fun c => { c with tval := b.extractLsb' 192 64 },
      loop := if b.getLsbD 297 then
          some { t.loop.getD blankLoop with
            step := (b.extractLsb' 256 32).toNat, pos := (b.extractLsb' 288 6).toNat, reg := b.extractLsb' 294 3, lepi := b.getLsbD 298,
            b0 := b.extractLsb' 299 3, lmid := b.getLsbD 305, lsq := b.getLsbD 306 || b.getLsbD 298, i0 := (b.extractLsb' 320 32).toNat }
        else none }

/-- The k-steps of the operation at the head of the queue: none before it runs, nor of an MDRN; with an empty queue those the last MMA or MMAJ reached
(R231) (DEDUCED, log 77). -/
def Engine.headSteps (e : Engine) : Nat :=
  match e.opq with
  | o :: _ => if e.running ∧ o.kind ≠ .mdrn then e.kpos else 0
  | [] => e.kpos

/-- The progress index (R231) (DEDUCED, log 77). -/
def Engine.pidx (e : Engine) : Word :=
  fld 0 (e.headSteps % 8192) ||| fld 13 (e.dpos % 128) ||| fld 20 (bit e.dbusy) ||| fld 21 (e.opq.length % 4) |||
    fld 23 (bit (match e.opq with | o :: _ => decide (o.kind = .mmaj) | [] => false))

def packU16 (v : Vector (BitVec 16) 4) : Dw := v[3] ++ v[2] ++ v[1] ++ v[0]

def packBind (v : Vector (BitVec 5) 4) : BitVec 20 := v[3] ++ v[2] ++ v[1] ++ v[0]

def Dest.isVec : Dest → Bool
  | .v _ | .p _ | .queue _ _ => true
  | _ => false

/-- The kind and index of a dump entry (R357). -/
def Dest.kindIdx : Dest → Nat × Nat
  | .c i => (0, i.toNat) | .a i => (1, i.toNat) | .x i => (2, i.toNat) | .m i => (3, i.toNat) | .v i => (4, i.toNat) | .p i => (5, i.toNat)
  | .l i => (6, i.toNat) | .sys i => (7, i.toNat) | .fmt i => (8, i.toNat) | .dph => (9, 0) | .queue q _ => (10, q.toNat) | .none => (1, 0)

/-- The vector dump slot of entry j: the number of vector results before it. -/
def Ctx.dumpSlot (x : Ctx) (j : Nat) : Nat := ((x.inflight.take j).filter fun r => r.dest.isVec).length

/-- The place in flight of the shape unit's result. -/
def Ctx.shapeAt (x : Ctx) (h : Shape) : Option Nat :=
  (List.range x.inflight.length).find? fun j => match x.inflight[j]? with
    | some r => decide (r.seat = .v) && r.dest.isVec && decide (r.rem = h.left)
    | none => false

/-- The results in flight as a freeze dumps them: the shape unit's with what it has computed so far (R228, R357). -/
def Ctx.dumped (x : Ctx) : List InFlight :=
  match x.shape with
  | some h => match x.shapeAt h with
    | some k => x.inflight.mapIdx fun j r => if j = k then { r with val := h.partly } else r
    | none => x.inflight
  | none => x.inflight

/-- The vector results in flight, in slot order. -/
def Ctx.vecDumps (x : Ctx) : List InFlight := x.dumped.filter fun r => r.dest.isVec

/-- A scalar dump entry (R357); `rem` is the landing clock minus F (DEDUCED, log 26). -/
def Ctx.dumpEntry (x : Ctx) (j : Nat) : BitVec 128 :=
  match x.inflight[j]? with
  | some r => fld 0 (if r.dest.isVec then x.dumpSlot j else (r.val.setWidth 64).toNat) ||| fld 64 (r.rem + 1) ||| fld 71 1 ||| fld 72 r.seat.toNat |||
      fld 74 r.dest.kindIdx.1 ||| fld 78 r.dest.kindIdx.2
  | none => 0

/-- The core block (R356). -/
def Ctx.coreBlock (x : Ctx) (hlev esc : Bool) (dcode : BitVec 8) : BitVec 1024 :=
  fld 0 (packU16 x.osiss).toNat ||| fld 64 (packU16 x.osprf).toNat ||| fld 128 (packBind (x.seat .a).osb).toNat ||| fld 148 x.f.toNat |||
  fld 156 x.dph.toNat ||| fld 160 x.eng.pidx.toNat ||| fld 192 x.eng.jcnt.toNat ||| fld 224 (bit hlev) ||| fld 225 (bit esc) |||
  fld 232 dcode.toNat |||
  (List.range 8).foldl (fun acc i => acc ||| fld (256 + 16 * i) (x.queue (BitVec.ofNat 3 i)).binding.toNat) 0 |||
  fld 384 x.inflight.length ||| fld 392 x.vecDumps.length ||| fld 397 (bit x.shape.isSome) ||| fld 448 x.uhand.toNat

def Ctx.pack4 (f : Nat → BitVec 16) (j : Nat) : Dw := f (4 * j + 3) ++ f (4 * j + 2) ++ f (4 * j + 1) ++ f (4 * j)

/-- The doubleword of the shadow at an index (R353, R354), 0 to 4,095 over the frame and to 29,439 over every area. -/
def Ctx.shadowDw (x : Ctx) (chosen : Option SeatId) (hlev esc : Bool) (dcode : BitVec 8) (i : Nat) : Dw :=
  if i < 32 then dwOf (x.seatBlock (match i / 8 with | 0 => .c | 1 => .a | 2 => .v | _ => .m) chosen) (i % 8)
  else if i < 48 then dwOf (x.coreBlock hlev esc dcode) (i - 32)
  else if i < 80 then x.c.toArray.getD (i - 48) 0
  else if i < 112 then x.a.toArray.getD (i - 80) 0
  else if i < 128 then x.x.toArray.getD (i - 112) 0
  else if i < 144 then x.m.toArray.getD (i - 128) 0
  else if i < 176 then dwOf (x.p.toArray.getD ((i - 144) / 4) 0) ((i - 144) % 4)
  else if i < 180 then Ctx.pack4 (fun j => x.fmt.toArray.getD j 0) (i - 176)
  else if i < 188 then x.l.toArray.getD (i - 180) 0
  else if i < 192 then Ctx.pack4 (fun j => x.k.toArray.getD j 0) (i - 188)
  else if i < 196 then
    match x.eng.opq[(i - 192) / 2]? with
    | some o => if i % 2 = 0 then fld 0 o.word.toNat ||| fld 32 o.ent.toNat ||| fld 48 1 else 0
    | none => 0
  else if i < 200 then (if i = 196 then match x.shape with
    | some h => fld 0 h.word.toNat ||| fld 32 h.index ||| fld 37 1
    | none => 0 else 0)
  else if i < 256 then 0
  else if i < 512 then dwOf (x.dumpEntry ((i - 256) / 2)) (i % 2)
  else if i < 896 then match x.vecDumps[(i - 512) / 16]? with | some r => dwOf r.en ((i - 512) % 16) | none => 0
  else if i < 3968 then match x.vecDumps[(i - 896) / 128]? with | some r => dwOf r.val ((i - 896) % 128) | none => 0
  else if i < 4096 then match x.shape with | some h => dwOf h.operand (i - 3968) | none => 0
  else if i < 8192 then dwOf (x.v.toArray.getD ((i - 4096) / 128) 0) (i % 128)
  else if i < 12288 then
    match (x.queue (BitVec.ofNat 3 ((i - 8192) / 512))).ents[(i - 8192) / 128 % 4]? with | some e => dwOf e.data (i % 128) | none => 0
  else if i < 20480 then dwOf (x.eng.front.toArray.getD ((i - 12288) / 64) 0) (i % 64)
  else if i < 28672 then dwOf (x.eng.back.toArray.getD ((i - 20480) / 64) 0) (i % 64)
  else if i < 29440 then dwOf (x.eng.scale.toArray.getD ((i - 28672) / 6) 0) ((i - 28672) % 6)
  else 0

/-- Write back the core block: only the fields of the unit's own state (R352) (DEDUCED, log 23). -/
def Ctx.setCoreBlock (x : Ctx) (b : BitVec 1024) : Ctx :=
  let osb : Vector (BitVec 5) 4 := #v[b.extractLsb' 128 5, b.extractLsb' 133 5, b.extractLsb' 138 5, b.extractLsb' 143 5]
  let x := [SeatId.c, .a, .v, .m].foldl (fun y k => y.modSeat k fun t => { t with osb := osb }) x
  let x := (List.range 8).foldl (fun (y : Ctx) i =>
    let q := BitVec.ofNat 3 i
    let u := y.queue q
    y.setQueue q { u with dir := b.extractLsb' (256 + 16 * i) 2, esz := b.extractLsb' (258 + 16 * i) 2,
                          ents := match u.ents with
                            | e :: r => (if b.getLsbD (267 + 16 * i) then e else { e with poison := none }) :: r
                            | [] => [] }) x
  { x with f := b.extractLsb' 148 8, dph := b.extractLsb' 156 3, uhand := b.extractLsb' 448 64,
           eng := { x.eng with kpos := (b.extractLsb' 160 13).toNat, dpos := (b.extractLsb' 173 7).toNat, dbusy := b.getLsbD 180,
                               jcnt := b.extractLsb' 192 32 } }

/-- A queue with the full, resv and pat fields of a written binding (R352, R356): what the counts no longer hold goes, what they add is empty
(DEDUCED, log 23). -/
def Queue.refill (u : Queue) (b : BitVec 16) : Queue :=
  let full := (b.extractLsb' 4 3).toNat
  let resv := (b.extractLsb' 7 3).toNat
  if u.full = full ∧ u.resv = resv then { u with pat := b.getLsbD 10 }
  else
    let l := u.ents.filter fun e => e.landed
    let r := u.ents.filter fun e => !e.landed
    let blank (t : Nat) (landed : Bool) : QEntry := { ticket := t, landed := landed, data := 0, poison := none }
    { u with pat := b.getLsbD 10,
             ents := l.take full ++ List.replicate (full - l.length) (blank (2 ^ 71) true) ++ r.take resv ++
               (List.range (resv - r.length)).map fun j => blank (2 ^ 70 + r.length + j) false }

/-- The queues of a doubleword of bindings, `old` being what it has held: those whose counts or pat change are filled anew. -/
def Ctx.refillDw (x : Ctx) (first : Nat) (old v : Dw) : Ctx :=
  ([0, 1, 2, 3] : List Nat).foldl (fun y j =>
    let q := BitVec.ofNat 3 (first + j)
    if old.extractLsb' (16 * j + 4) 7 = v.extractLsb' (16 * j + 4) 7 then y else y.setQueue q ((y.queue q).refill (v.extractLsb' (16 * j) 16))) x

def setNth {α : Type} (l : List α) (i : Nat) (f : α → α) : List α := l.mapIdx fun j v => if j = i then f v else v

/-- Update the n-th vector result in flight. -/
def Ctx.setVecDump (x : Ctx) (n : Nat) (f : InFlight → InFlight) : Ctx :=
  { x with inflight := x.inflight.mapIdx fun j r => if r.dest.isVec ∧ x.dumpSlot j = n then f r else r }

/-- The shape unit goes on from a state that has been written: its result in flight follows (R228). -/
def Ctx.reshape (x : Ctx) (h : Shape) : Ctx :=
  { x with shape := some h
           inflight := match x.shapeAt h with
             | some k => x.inflight.mapIdx fun j r => if j = k then { r with val := h.final } else r
             | none => x.inflight }

/-- Write a doubleword of the n-th vector dump slot; the slot of the shape unit holds its partial result. -/
def Ctx.setVecVal (x : Ctx) (n i : Nat) (v : Dw) : Ctx :=
  match (x.shape.bind fun h => (x.shapeAt h).map fun k => (h, k)) with
  | some (h, k) =>
    if x.dumpSlot k = n then x.reshape { h.settled with acc := setDwOf h.partly i v }
    else x.setVecDump n fun r => { r with val := setDwOf r.val i v }
  | none => x.setVecDump n fun r => { r with val := setDwOf r.val i v }

/-- Write the doubleword of the shape unit (R354). -/
def Ctx.setShape (x : Ctx) (v : Dw) : Ctx :=
  match x.shape with
  | none => x
  | some h =>
    let i := (v.extractLsb' 32 5).toNat
    let done := if h.dist then i / 2 else i
    if v.getLsbD 37 then x.reshape { h.settled with word := v.extractLsb' 0 32, idx := min 16 done, accAt := min 16 done } else { x with shape := none }

/-- The destination a dump entry names (R357); a queue entry keeps its reservation. -/
def destOf (kind idx : Nat) (old : Dest) : Dest :=
  match kind with
  | 0 => .c (BitVec.ofNat 5 idx) | 1 => .a (BitVec.ofNat 5 idx) | 2 => .x (BitVec.ofNat 4 idx) | 3 => .m (BitVec.ofNat 4 idx)
  | 4 => .v (BitVec.ofNat 5 idx) | 5 => .p (BitVec.ofNat 3 idx) | 6 => .l (BitVec.ofNat 3 idx) | 7 => .sys (BitVec.ofNat 10 idx)
  | 8 => .fmt (BitVec.ofNat 4 idx) | 9 => .dph | _ => old

def setVec {α : Type} {n : Nat} (v : Vector α n) (i : Nat) (f : α → α) : Vector α n := v.mapIdx fun j y => if j = i then f y else y

/-- The kind of an engine word (R230): opcodes 0x01 to 0x03 of the M seat. -/
def engKindOf (w : Word) : Option EngKind :=
  match (w.extractLsb' 23 8).toNat with | 1 => some .mma | 2 => some .mmaj | 3 => some .mdrn | _ => none

/-- Write entry j of the engine's operation queue: a clear valid bit takes the entry out, a set one past the last makes a new one (R354)
(DEDUCED, log 23). -/
def Engine.putOp (e : Engine) (j : Nat) (v : Dw) : Engine :=
  let w : Word := v.extractLsb' 0 32
  if !v.getLsbD 48 then { e with opq := e.opq.eraseIdx j, running := e.running && !decide (j = 0) }
  else if j = e.opq.length then match engKindOf w with
    | some k => { e with opq := e.opq ++ [{ kind := k, word := w, ent := v.extractLsb' 32 16, addr := 0 }] }
    | none => e
  else { e with opq := setNth e.opq j fun o => { o with kind := (engKindOf w).getD o.kind, word := w, ent := v.extractLsb' 32 16 } }

/-- A dump entry not in use yet. -/
def blankDump : InFlight := { mkResult .c .none 0 0 with en := 0 }

/-- The dump entries in use become n (R356). -/
def Ctx.setDumps (x : Ctx) (n : Nat) : Ctx := { x with inflight := x.inflight.take n ++ List.replicate (n - x.inflight.length) blankDump }

/-- Write the second doubleword of dump entry j (R357): v = 0 takes it out of use, the entry past the last comes into use; a queue entry of a new one is
the queue's next reserved one that no other result in flight names. -/
def Ctx.setDumpTail (x : Ctx) (j : Nat) (v : Dw) : Ctx :=
  let x := if j = x.inflight.length ∧ v.getLsbD 7 then x.setDumps (j + 1) else x
  let seat : SeatId := match (v.extractLsb' 8 2).toNat with | 0 => .c | 1 => .a | 2 => .v | _ => .m
  let kind := (v.extractLsb' 10 4).toNat
  let old (r : InFlight) : Dest :=
    match r.dest with
    | .queue q t => .queue q t
    | d =>
      let q : BitVec 3 := v.extractLsb' 14 3
      let named := x.inflight.filterMap fun r => match r.dest with | .queue p t => if p = q then some t else none | _ => none
      if kind = 10 then match (x.queue q).ents.find? fun e => !e.landed && !named.contains e.ticket with | some e => .queue q e.ticket | none => .none
      else d
  { x with inflight := setNth x.inflight j fun r =>
    if v.getLsbD 7 then { r with rem := (v.extractLsb' 0 7).toNat - 1, seat := seat, dest := destOf kind (v.extractLsb' 14 10).toNat (old r) }
    else { r with dest := .none } }

/-- Write a doubleword of the shadow into the context it lays out (R353, R358, R375) (DEDUCED, log 23). -/
def Ctx.setShadowDw (x : Ctx) (chosen : Option SeatId) (i : Nat) (v : Dw) : Ctx :=
  if i < 32 then
    let k : SeatId := match i / 8 with | 0 => .c | 1 => .a | 2 => .v | _ => .m
    x.setSeatBlock k (setDwOf (x.seatBlock k chosen) (i % 8) v)
  else if i = 38 then x.setDumps (v.extractLsb' 0 8).toNat
  else if i < 48 then x.setCoreBlock (setDwOf (x.coreBlock false false 0) (i - 32) v)
  else if i < 80 then { x with c := setVec x.c (i - 48) fun o => if i = 48 then o else v }
  else if i < 112 then { x with a := setVec x.a (i - 80) fun o => if i = 80 then o else v }
  else if i < 128 then { x with x := setVec x.x (i - 112) fun _ => v }
  else if i < 144 then { x with m := setVec x.m (i - 128) fun _ => v }
  else if i < 176 then { x with p := setVec x.p ((i - 144) / 4) fun o => if i < 148 then o else setDwOf o ((i - 144) % 4) v }
  else if i < 180 then { x with fmt := x.fmt.mapIdx fun j o => if j / 4 = i - 176 then v.extractLsb' (16 * (j % 4)) 16 else o }
  else if i < 188 then { x with l := setVec x.l (i - 180) fun _ => v }
  else if i < 192 then { x with k := x.k.mapIdx fun j o => if j / 4 = i - 188 then v.extractLsb' (16 * (j % 4)) 16 else o }
  else if i < 196 then
    if i % 2 = 0 then { x with eng := x.eng.putOp ((i - 192) / 2) v } else x
  else if i < 256 then (if i = 196 then x.setShape v else x)
  else if i < 512 then
    let j := (i - 256) / 2
    if i % 2 = 1 then x.setDumpTail j v
    else { x with inflight := setNth x.inflight j fun r => if r.dest.isVec then r else { r with val := v.setWidth 8192 } }
  else if i < 896 then x.setVecDump ((i - 512) / 16) fun r => { r with en := setDwOf r.en ((i - 512) % 16) v }
  else if i < 3968 then x.setVecVal ((i - 896) / 128) ((i - 896) % 128) v
  else if i < 4096 then match x.shape with | some h => x.reshape { h.settled with operand := setDwOf h.operand (i - 3968) v } | none => x
  else if i < 8192 then { x with v := setVec x.v ((i - 4096) / 128) fun o => setDwOf o (i % 128) v }
  else if i < 12288 then
    let q := BitVec.ofNat 3 ((i - 8192) / 512)
    let u := x.queue q
    x.setQueue q { u with ents := setNth u.ents ((i - 8192) / 128 % 4) fun e => { e with data := setDwOf e.data (i % 128) v } }
  else if i < 20480 then { x with eng := { x.eng with front := setVec x.eng.front ((i - 12288) / 64) fun o => setDwOf o (i % 64) v } }
  else if i < 28672 then { x with eng := { x.eng with back := setVec x.eng.back ((i - 20480) / 64) fun o => setDwOf o (i % 64) v } }
  else if i < 29440 then { x with eng := { x.eng with scale := setVec x.eng.scale ((i - 28672) / 6) fun o => setDwOf o ((i - 28672) % 6) v } }
  else x

/-- Writes in the order of the shadow, so that an entry comes into use before its slots are filled; of two to one doubleword the later stays last. -/
def orderWrites : List (Nat × Dw) → List (Nat × Dw)
  | [] => []
  | w :: r => let rec put : List (Nat × Dw) → List (Nat × Dw)
      | [] => [w]
      | a :: l => if w.1 ≤ a.1 then w :: a :: l else a :: put l
    put (orderWrites r)

/-- The bits of a shadow doubleword that a write may change: its defined fields but the causes of the seat blocks and the registers that are hard-wired
(R26, R231, R353 to R358); reserved ones read as zero (R8). -/
def shadowMask (i : Nat) : Dw :=
  if i < 32 then match i % 8 with | 0 | 1 | 3 => BitVec.allOnes 64 | 2 => 0xF | 4 => 0x7FFFFFFFFFFFF | 5 => 0xFFFFFFFF | _ => 0
  else if i < 48 then match i - 32 with
    | 0 | 1 | 7 => BitVec.allOnes 64 | 2 => 0x00FFFFFF7FFFFFFF | 3 => 0xFF03FFFFFFFF | 4 | 5 => 0x0FFF0FFF0FFF0FFF | 6 => 0x3FFF | _ => 0
  else if i = 48 ∨ i = 80 ∨ (144 ≤ i ∧ i < 148) then 0
  else if i < 192 then BitVec.allOnes 64
  else if i < 196 then (if i % 2 = 0 then 0x1FFFFFFFFFFFF else 0)
  else if i < 256 then (if i = 196 then 0x3FFFFFFFFF else 0)
  else if i < 512 then (if i % 2 = 0 then BitVec.allOnes 64 else 0xFFFFFF)
  else if i < 29440 then BitVec.allOnes 64
  else 0

/-- The full, resv and pat fields of four bindings (R27). -/
def queueBits : Dw := 0x07F007F007F007F0

/-- The shadow doubleword that a running handler sees: as the trap or its SAVE left it, with what it has written through FDATA; after a SAVE the full,
resv and pat fields of the bindings stand as the queues do (R352, R353, R358) (DEDUCED, log 60). -/
def Handler.shadowAt (h : Handler) (live : Ctx) (i : Nat) : Dw :=
  let of (x : Ctx) : Dw := x.shadowDw (some h.tseat) h.sup h.esc h.dcode i
  let v := h.writes.foldl (fun v w => if w.1 = i then (v &&& ~~~(shadowMask i)) ||| (w.2 &&& shadowMask i) else v)
    (of (if h.saveWritten && decide (4096 ≤ i) then live else h.saved))
  if h.saveWritten && (decide (i = 36) || decide (i = 37)) then (v &&& ~~~queueBits) ||| (of live &&& queueBits) else v

/-! ## Continuation records -/

/-- A list of doublewords as a block, the first in the lowest bits. -/
def dwBlock (l : List Dw) : BitVec 1536 := BitVec.ofNat 1536 (packNat (2 ^ 64) (l.map BitVec.toNat))

/-- The 192 bytes of a continuation record as R21 lays them out; reserved bits and unused doublewords are zero. -/
def ContRec.bits (r : ContRec) : BitVec 1536 :=
  fld 0 r.cpc.toNat ||| fld 64 r.argb.toNat ||| fld 128 r.rmask.toNat ||| fld 160 r.prio.toNat ||| fld 164 r.ucnt.toNat ||| fld 192 r.uidx.toNat |||
  fld 224 r.lid.toNat ||| fld 256 r.phid.toNat ||| fld 320 r.jid.toNat ||| fld 352 r.ctx.val ||| fld 384 r.dline.toNat ||| fld 448 (packU16 r.osc).toNat |||
  (dwBlock (r.regs.take 16) <<< 512)

/-- Doubleword i of a record (R21). -/
def ContRec.dw (r : ContRec) (i : Nat) : Dw := dwOf r.bits i

/-- The 96 bytes of a stream entry (R337). -/
def Cox.bits (k : Cox) : BitVec 768 :=
  fld 0 1 ||| fld 1 (bit k.slow) ||| fld 3 (bit k.iarr) ||| fld 4 k.prio.toNat ||| fld 8 (k.level % 4) ||| fld 10 (if k.susp then 4 else k.state % 8) |||
  fld 13 k.part.val ||| fld 18 k.ctx.val ||| fld 32 (min k.miss 65535) ||| fld 64 (k.nrel % 2 ^ 64) ||| fld 128 (k.ndl % 2 ^ 64) |||
  fld 192 (k.islot / 16 % 2 ^ 52) |||
  (List.range 4).foldl (fun b n => b ||| fld (256 + 12 * n) (k.lgraph.toList.getD n 0 % 4096) ||| fld (384 + 32 * n) (k.lcost.toList.getD n 0 % 2 ^ 32)) 0 |||
  fld 320 (k.period % 2 ^ 32) ||| fld 352 (k.dline % 2 ^ 32) ||| fld 512 k.cmd.crec.toNat ||| fld 576 k.cmd.sigaddr.toNat ||| fld 640 k.cmd.sigval.toNat |||
  fld 704 (k.cmd.sigk % 8)

/-! ## Live slots and watched lines -/

/-- The 16 bytes of a live slot (R67). -/
def Slot.image (t : Slot) : BitVec 128 :=
  fld 0 t.expect.toNat ||| fld 32 t.arrived.toNat ||| fld 64 (t.waiters.length % 65536) ||| fld 80 t.region.toNat ||| fld 92 t.kind.toNat |||
  fld 95 (bit t.phase) ||| fld 96 t.arg.toNat

/-- Two byte ranges share a byte. -/
def overlaps (a n b m : Nat) : Bool := decide (a < b + m) && decide (b < a + n)

/-- Wake the watchers of a line that a write, an atomic or a slot changes (R89, R196, R310, R323) (DEDUCED, log 18). -/
def State.wakeLine (s : State) (pa n : Nat) : State :=
  let hit (l : Nat) : Bool := overlaps pa n l 64
  let s := if s.cores.toList.any (fun c => match c.ctx.await with | some (.line _ l _) => hit l | _ => false) then
      { s with cores := s.cores.map fun c => match c.ctx.await with
        | some (.line op l w) => if hit l then { c with ctx := { c.ctx with await := some (.line op l true) } } else
            { c with ctx := { c.ctx with await := some (.line op l w) } }
        | _ => c }
    else s
  let wakeDie (d : Die) : Die :=
    if d.rings.toList.any (fun r => match r.watch with | some l => hit l | none => false) then
      { d with rings := d.rings.map fun r => match r.watch with | some l => if hit l then { r with wake := true } else r | none => r }
    else d
  { s with bow := wakeDie s.bow, stern := wakeDie s.stern }

def State.slot? (s : State) (pa : Nat) : Option Slot := s.slots.find? fun t => decide (t.pa = pa)

/-- A slot changes at its home; where its 16 bytes change, the watchers of their line wake (R67, R89). -/
def State.modSlot (s : State) (pa : Nat) (f : Slot → Slot) : State :=
  let s' := { s with slots := s.slots.map fun t => if t.pa = pa then f t else t }
  if (match s.slot? pa with | some t => decide (t.image ≠ (f t).image) | none => false) then s'.wakeLine pa 16 else s'

/-! ## Taking a trap (R348 to R351) -/

/-- TVAL is stated for the cause: a faulting address, a BRK or TRAP code, a record address, or what R254 and R362 give (R155). -/
def Cause.tvalStated : Cause → Bool
  | .breakpoint | .software | .poisonedHead | .jointMismatch | .jointWithoutCrew | .nonCanonical | .localHole | .rangeEntry | .notPresent | .pageSize
  | .alignment | .protection | .data | .liveSlot | .slotState | .slotBusy | .slotPlacement | .regionOverlap | .regionTableFull | .slotAction
  | .engineFault | .spillFault => true
  | _ => false

/-- A seat records the cause of its trap; the freeze follows at the end of the clock (R34, R349). TVAL of a cause that the spec gives none is a free
value. -/
def State.raise (s : State) (n : CoreId) (k : SeatId) (c : Cause) (tval tpc : Dw) (issued : Bool) : State :=
  let tv := if c.tvalStated then tval else Config.freeDw s.free (640 + k.toNat)
  s.modCtx n fun x => x.modSeat k fun t => { t with cause := some { cause := c, tval := tv, tpc := tpc, issued := issued } }

/-- The first seat cause in seat order C, A, V, M (R349) (DEDUCED, log 62). -/
def Ctx.firstCause (x : Ctx) : Option (SeatId × SeatCause) :=
  [SeatId.c, .a, .v, .m].findSome? fun k => match (x.seat k).cause with | some c => some (k, c) | none => none

/-- The cause that brings the next trap: while a handler runs only the C seat issues, and the causes of the other seats wait for its end (R349)
(DEDUCED, log 62). -/
def Core.dueCause (c : Core) : Option (SeatId × SeatCause) :=
  if c.handler.isSome then (match (c.ctx.seat .c).cause with | some q => some (.c, q) | none => none) else c.ctx.firstCause

/-- Causes that stay pending after the chosen one: those whose word issued (R349) (DEDUCED, log 62). -/
def Ctx.keepCauses (x : Ctx) (chosen : SeatId) : Ctx :=
  [SeatId.c, .a, .v, .m].foldl (fun y k => y.modSeat k fun t =>
    { t with cause := match t.cause with | some c => if k ≠ chosen ∧ c.issued then some c else none | none => none }) x

/-- The seats as a freeze leaves them: a waiting AWAIT is withdrawn (R179), a WAITA ends as a wake (R196), no handler cause stands
(DEDUCED, log 72). -/
def Ctx.atFreeze (x : Ctx) : Ctx :=
  { x with await := match x.await with
      | some (.await _ _ _ _) => none
      | some (.line op pa _) => some (.line op pa true)
      | w => w }

/-- The slot at which the A seat is registered (R179). -/
def Ctx.awaitsAt (x : Ctx) : Option Nat :=
  match x.await with
  | some (.await pa _ _ _) => some pa
  | _ => none

/-- A freeze, or the end of the unit, withdraws the AWAIT of a core: its slot has one waiter less (R13, R179) (DEDUCED, log 72). -/
def State.withdrawAwait (s : State) (n : CoreId) : State :=
  match (s.coreAt n).ctx.awaitsAt with
  | some pa => s.modSlot pa fun t => { t with waiters := t.waiters.filter fun w => decide (w ≠ .await n) }
  | none => s

/-- What a user handler has changed of the unit's own state is discarded (R351): what RFT would restore (R352). -/
def Ctx.discard (live saved : Ctx) : Ctx :=
  let x := [SeatId.c, .a, .v, .m].foldl (fun y k => y.modSeat k fun t => { t with osb := (saved.seat k).osb }) live
  { x with c := saved.c, f := saved.f, dph := saved.dph, uhand := saved.uhand, uhandGov := saved.uhandGov }

/-- The C seat of a handler at its entry: one seat, no loop, no delay slot (R350). -/
def Ctx.enterHandler (x : Ctx) (pc : Dw) : Ctx :=
  let x := x.setSeat .c { (x.seat .c) with pc := pc, act := true, dtgt := 0, dslots := 0, dtaken := false, strk := false, loop := none, cause := none }
  { x with inflight := [], park := none }

/-- A core frozen as a master (R368); the policy core is notified with the core and the cause. -/
def State.freezeCore (s : State) (n : CoreId) (c : Cause) : State :=
  if (s.coreAt n).frozen = some .master then s
  else (s.modCore n fun k => { k with frozen := some .master, hold := false }).outp (.frozen (dieOf n) (.core n) c.code.toNat)

/-- A copy engine frozen as a master (R368). -/
def State.freezeCopies (s : State) (n : CoreId) : State :=
  if (s.coreAt n).cpFrozen then s
  else (s.modCore n fun c => { c with cpFrozen := true }).outp (.frozen (dieOf n) (.copyEngine n) Cause.protection.code.toNat)

/-- An endpoint queue frozen as a master: it neither sends nor receives (R368). -/
def State.freezeQueue (s : State) (d : DieId) (q : Fin 64) : State :=
  if (s.die d).frozenQs.contains q.val then s
  else (s.modDie d fun x => { x with frozenQs := x.frozenQs ++ [q.val] }).outp (.frozen d (.endpointQueue d q) Cause.protection.code.toNat)

/-- A host function frozen as a master: its rings are taken no further (R307, R368). -/
def State.freezeFunction (s : State) (d : DieId) (fn : Fin 33) : State :=
  if (s.die d).frozenFns.contains fn.val then s
  else (s.modDie d fun x => { x with frozenFns := x.frozenFns ++ [fn.val] }).outp (.frozen d (.hostFunction d fn) Cause.protection.code.toNat)

/-- Entries of a drained tile (R236). -/
def Engine.drainCount (e : Engine) : Nat := if e.bf16 then 32 else 64

/-- The accesses of a core's seats no longer wait for their walks, and what walks have brought them is not kept (R54, R360). -/
def State.dropWaits (s : State) (n : CoreId) : State :=
  let ofSeat : Agent → Bool
    | .seat _ | .fetch _ => true
    | _ => false
  (s.modCore n fun c => { c with walkAns := c.walkAns.filter fun w => !ofSeat w.1 }).modDie (dieOf n) fun d =>
    { d with walks := d.walks.map fun w => { w with waiters := w.waiters.filter fun x => !(decide (x.1 = n) && ofSeat x.2) } }

/-- The drain entry that is reserved lands: in a freeze too (R247) and after an MZERO (R243); an MDRN leaves its queue with its last one. -/
def Ctx.drainLands (x : Ctx) : Ctx :=
  match x.eng.drainT with
  | none => x
  | some t =>
    let e := x.eng
    let x := { x with queues := x.queues.map fun (q : Queue) => { q with ents := q.ents.map fun (i : QEntry) => if i.ticket = t then { i with landed := true } else i } }
    if !e.dbusy then { x with eng := { e with drainT := none } }
    else
      let last := decide (e.drainCount ≤ e.dpos + 1)
      let mdrn := e.running && (match e.opq with | o :: _ => decide (o.kind = .mdrn) | [] => false)
      { x with eng := { e with drainT := none, dpos := e.dpos + 1, dbusy := !last, running := if last && mdrn then false else e.running,
                               opq := if last && mdrn then e.opq.tail else e.opq } }

/-- Taking a trap: the frame keeps the context at F, with every result in flight; the handler starts on the C seat at UHAND or at shbase
(R348 to R351). A trap of the user handler goes to the supervisor handler as "handler fault", a trap of the supervisor handler, or one that needs a
supervisor handler where shbase is 0, freezes the core as a master, the frame with its causes kept (R351, R368) (DEDUCED, log 60). -/
def State.takeTrap (s : State) (n : CoreId) (k : SeatId) (q : SeatCause) (efinfo : Nat) : State :=
  let s := (s.withdrawAwait n).dropWaits n
  let core := { s.coreAt n with hold := false }
  let sh := (s.contextOf n core.ctxNum).shbase
  match core.handler with
  | none =>
    let saved := core.ctx.atFreeze
    let live := (saved.keepCauses k)
    let sup := q.cause.toSup || decide (core.ctx.uhandGov = 0)
    if sup && decide (sh = 0) then (s.setCore n { core with ctx := saved, chosen := some k }).freezeCore n q.cause
    else
      let h : Handler :=
        { sup := sup, cause := q.cause, tpc := q.tpc, tval := q.tval, tseat := k, orig := q.cause, dcode := 0, esc := false, saved := saved,
          writes := [], saveWritten := false, efinfo := efinfo, bad := false, req := none }
      s.setCore n { core with handler := some h, ctx := (live.enterHandler (if sup then sh else core.ctx.uhandGov)) }
  | some h =>
    if h.sup || decide (sh = 0) then (s.modCtx n fun x => x.modSeat k fun t => { t with cause := none }).freezeCore n .handlerFault
    else
      let declined := decide (q.cause = .software)
      let h' := { h with sup := true, cause := (if declined then h.orig else .handlerFault), esc := true,
                         dcode := if declined then q.tval.setWidth 8 else 0 }
      s.setCore n { core with handler := some h', pend := [], ctx := (core.ctx.discard h.saved).enterHandler sh }

/-! ## Returning from a trap (R352) -/

/-- A dumped load that the landing waits for has not its value yet (R57, R352). -/
def Ctx.awaitsDump (x : Ctx) : Bool := x.inflight.any fun r => decide (r.rem = 0) && !r.ready

/-- The context RFT resumes: c1 to c31, the C seat and the core-block fields of the unit's own state from the frame, the rest as it stands, then
the doublewords written through FDATA, and the dumped results in flight again (R352, R358). -/
def Ctx.afterReturn (live : Ctx) (h : Handler) : Ctx :=
  let seatC := { h.saved.seat .c with cause := match (h.saved.seat .c).cause with
    | some q => if h.tseat ≠ .c ∧ q.issued then some q else none
    | none => none }
  let x := live.setSeat .c seatC
  let x := { x.discard h.saved with inflight := h.saved.inflight, park := h.saved.park, eng := { x.eng with jcnt := h.saved.eng.jcnt } }
  (orderWrites h.writes).foldl (fun y w => y.setShadowDw none w.1 w.2) x

/-- Returning from a trap: the handler ends, the frame is restored and all four seats resume on the next clock; this one is no schedule cycle, which
mark 104 says (R158, R352, R372). -/
def State.returnTrap (s : State) (n : CoreId) (h : Handler) : State :=
  s.modCore n fun k => { k with handler := none, ctx := k.ctx.afterReturn h, skip := 0xF, why := k.why ++ [104] }

/-- The clock of the core is that of an RFT. -/
def Core.returned (c : Core) : Bool := c.why.contains 104

end Sys2Proof.Machine
end

