-- ==== Sys2Proof/Machine/Trace.lean ====
section
/-! DEFINITION. The trace buffer of a crew and its records (R377 to R380), the replay log of a core (R389, R390), and the halt of a core (R374, R376). -/

namespace Sys2Proof.Machine

open Sys2Proof

/-- MHz of a clock step (R396). -/
def stepMHz (step : Nat) : Nat :=
  match step with
  | 0 => 1050 | 1 => 945 | 2 => 840 | 3 => 735 | 4 => 630 | 5 => 525 | _ => 420

def sat32 (n : Nat) : Nat := min n (2 ^ 32 - 1)

/-! ## Trace records (R378, R379) -/

def traceHdr (kind pos len delta : Nat) : Dw := BitVec.ofNat 64 (kind + pos * 2 ^ 4 + len * 2 ^ 6 + delta * 2 ^ 14)

/-- The 64 KiB buffer of a crew has room for more doublewords (R377). -/
def Crew.room (c : Crew) (k : Nat) : Bool := decide (c.buf.length + k ≤ 8192)

/-- A record that finds the buffer full is dropped and counted (R377). -/
def Crew.lose (c : Crew) : Crew := { c with trlost := sat32 (c.trlost + 1), lost := sat32 (c.lost + 1) }

/-- The loss record that stands for the records dropped before it (R379). -/
def Crew.lossRecord (c : Crew) (n cause : Nat) : Crew := { c with buf := c.buf ++ [traceHdr 2 0 2 0, BitVec.ofNat 64 (sat32 n + cause * 2 ^ 32)] }

/-- Once the buffer has room again, the loss record comes first. -/
def Crew.flushLoss (c : Crew) : Crew := if c.lost ≠ 0 && c.room 2 then { c.lossRecord c.lost 2 with lost := 0 } else c

def Crew.enabled (c : Crew) : Bool := c.trctl.getLsbD 0

/-- The crew has no clock: it is gated, or the clocks of its four cores are stopped (R380). -/
def State.crewStill (s : State) (w : CrewId) : Bool := (s.crewAt w).gated || [(0 : Fin 4), 1, 2, 3].all fun p => (s.coreAt (crewCore w p)).stopped

/-- The crew's buffer with an epoch record of now (R379). -/
def State.withEpoch (s : State) (w : CrewId) (c : Crew) (cause : Nat) : Crew :=
  let d := s.die (crewDie w)
  let csc (p : Fin 4) : Dw := (s.coreAt (crewCore w p)).csc
  { c with last := Vector.ofFn csc,
           buf := c.buf ++ [traceHdr 1 0 7 0, BitVec.ofNat 64 d.time, BitVec.ofNat 64 (cause + stepMHz d.clkStep * 2 ^ 16), csc 0, csc 1, csc 2, csc 3] }

/-- An epoch record (R379, R380): that of a crew without a clock waits until it runs again; one that finds the buffer full is dropped and counted. -/
def State.traceEpoch (s : State) (w : CrewId) (cause : Nat) : State :=
  let c := (s.crewAt w).flushLoss
  if !c.enabled then s
  else if s.crewStill w then s.setCrew w { s.crewAt w with epochs := (s.crewAt w).epochs ++ [cause] }
  else if c.lost ≠ 0 || !c.room 7 then s.setCrew w c.lose
  else s.setCrew w (s.withEpoch w c cause)

/-- Epoch records that have waited are written, in their order (R380). -/
def State.lateEpochs (s : State) (w : CrewId) (l : List Nat) : State := l.foldl (fun s q => s.traceEpoch w q) s

/-- The delta of the core's next record does not fit in its 50 bits (R378). -/
def State.deltaFar (s : State) (n : CoreId) : Bool := decide (2 ^ 50 ≤ ((s.coreAt n).csc - (s.crewAt (crewOf n)).last.get (crewPos n)).toNat)

/-- A record of a core, of a kind that TRCTL selects; one that finds the buffer full, or whose epoch did, is dropped and counted (R377, R378). -/
def State.traceRec (s : State) (n : CoreId) (kind : Nat) (data : List Dw) : State :=
  let w := crewOf n
  let c := s.crewAt w
  if !c.enabled || !c.trctl.getLsbD (2 + (kind - 3)) then s
  else
    let s := if s.deltaFar n then s.traceEpoch w 5 else s
    let c := (s.crewAt w).flushLoss
    let delta := ((s.coreAt n).csc - c.last.get (crewPos n)).toNat
    if c.lost ≠ 0 || s.deltaFar n || !c.room (data.length + 1) then s.setCrew w c.lose
    else s.setCrew w { c with buf := c.buf ++ traceHdr kind (crewPos n).val (data.length + 1) delta :: data,
                              last := c.last.set (crewPos n) (s.coreAt n).csc }

/-- A unit event (R379, kind 4). -/
def State.traceUnit (s : State) (n : CoreId) (u : UnitInfo) (event cause : Nat) : State :=
  s.traceRec n 4 [BitVec.ofNat 64 (event + cause * 2 ^ 8), u.uidx ++ u.lid, u.phid]

def State.traceUnitOf (s : State) (n : CoreId) (event cause : Nat) : State :=
  match (s.coreAt n).unit with
  | some u => s.traceUnit n u event cause
  | none => s

/-- The program counters of the seats, 0 for an inactive one (R379, kind 3). -/
def Ctx.pcs (x : Ctx) : List Dw := x.seats.toList.map fun t => if t.act then t.pc else 0

/-! ## The replay log (R389) -/

def Dbg.rec_ (d : Dbg) : Bool := d.dcfg.getLsbD 1

def Dbg.play (d : Dbg) : Bool := d.dcfg.getLsbD 2

/-- Bytes of the log not yet read. -/
def Dbg.logUsed (d : Dbg) : Nat := (d.rlwr.toNat + d.rlsize.toNat - d.rlrd.toNat) % d.rlsize.toNat

/-- The area has room for an entry (R389) (DEDUCED, log 31). -/
def Dbg.logRoom (d : Dbg) (len : Nat) : Bool := decide (d.logUsed + len < d.rlsize.toNat)

/-- An entry has found the log full, so the core holds; no entry is lost (R389) (DEDUCED, log 31). -/
def Core.logFull (c : Core) : Bool := decide (c.dbg.rlq ≠ [])

def areaRead (m : List Host.Cell) (base size off n : Nat) : List Byte := (List.range n).map fun j => memRead m (base + (off + j) % size)

/-- The clock of an entry: CSC minus the CSC of the start entry. -/
def Dbg.cyc (d : Dbg) (csc : Dw) : Nat := (csc - d.rlcsc).toNat % 2 ^ 48

/-- Append one entry (R389): it is written at the end of the clock, or once the log has room (DEDUCED, log 31). -/
def State.logEntry (s : State) (n : CoreId) (kind : Nat) (k : SeatId) (idx val : Nat) (data : List Byte) : State :=
  let c := s.coreAt n
  let d := c.dbg
  if !d.rec_ || c.unit.isNone then s
  else
    let d := if kind = 1 then { d with rlcsc := c.csc } else d
    let bytes := leBytes (kind + k.toNat * 2 ^ 4 + idx % 1024 * 2 ^ 6 + d.cyc c.csc * 2 ^ 16) 8 ++ leBytes val 8 ++ data
    s.setCore n { c with dbg := { d with rlq := d.rlq ++ [bytes] } }

/-- The start entry (R389): 0 at a unit's entry, 1 at a halt. -/
def State.logStart (s : State) (n : CoreId) (halt : Nat) : State :=
  match (s.coreAt n).unit with
  | some u => s.logEntry n 1 .c halt (u.lid.toNat + u.uidx.toNat * 2 ^ 32) []
  | none => s

def State.logLine (s : State) (n : CoreId) (q : BitVec 3) (v : Line) : State :=
  if (s.coreAt n).dbg.rec_ then s.logEntry n 3 .a q.toNat 0 (leBytes v.toNat 1024) else s

/-- A wake of a seat, and a token post from outside the core. -/
def State.logWake (s : State) (n : CoreId) (k : SeatId) : State := s.logEntry n 4 k 0 0 []

def State.logPost (s : State) (n : CoreId) (t : BitVec 4) (v : Nat) : State := s.logEntry n 5 .c t.toNat v []

/-- An entry of the log as a play reads it (R390). -/
structure LogHead where
  kind : Nat
  seat : Nat
  idx : Nat
  cyc : Nat
  val : Dw
deriving DecidableEq, Repr

def State.logNext (s : State) (n : CoreId) : LogHead :=
  let d := (s.coreAt n).dbg
  let v := leValue (areaRead s.mem d.rlbase.toNat d.rlsize.toNat d.rlrd.toNat 8)
  { kind := v % 16, seat := v / 16 % 4, idx := v / 64 % 1024, cyc := v / 2 ^ 16,
    val := BitVec.ofNat 64 (leValue (areaRead s.mem d.rlbase.toNat d.rlsize.toNat (d.rlrd.toNat + 8) 8)) }

/-- The data of a queue entry in the log. -/
def State.logData (s : State) (n : CoreId) : Line :=
  let d := (s.coreAt n).dbg
  BitVec.ofNat 8192 (leValue (areaRead s.mem d.rlbase.toNat d.rlsize.toNat (d.rlrd.toNat + 16) 1024))

/-- The next entry of a play run is the wake of the A seat on this clock (R390). -/
def State.wakesNow (s : State) (n : CoreId) : Bool :=
  let e := s.logNext n
  decide (e.kind = 4 ∧ e.seat = 1 ∧ e.cyc = (s.coreAt n).dbg.cyc (s.coreAt n).csc)

def State.logSkip (s : State) (n : CoreId) (len : Nat) : State :=
  s.modCore n fun c => { c with dbg := { c.dbg with rlrd := BitVec.ofNat 64 ((c.dbg.rlrd.toNat + len) % c.dbg.rlsize.toNat) } }

/-! ## Halts (R373, R374) -/

def HaltWhy.code : HaltWhy → Nat
  | .request => 1 | .comparator => 2 | .brk => 3 | .stopAt => 4 | .stepDone => 5 | .cut => 6 | .divergence => 7 | .replayEnd => 8

/-- The words at which the seats stand, which no comparator matches on the first clock after the resume (R374) (DEDUCED, log 30). -/
def Ctx.heads (x : Ctx) : List (SeatId × Dw) := ([SeatId.c, .a, .v, .m].filter fun k => (x.seat k).act).map fun k => (k, (x.seat k).pc)

/-- The core halts on this edge, and its state stays in the core; a hold ends (R57), a waiting AWAIT is withdrawn and a WAITA ends, as at a trap (R179, R196,
R374) (DEDUCED, log 72). -/
def State.debugHalt (s : State) (n : CoreId) (why : HaltWhy) : State :=
  let s := (s.withdrawAwait n).modCore n fun c =>
    { c with frozen := some .halt, hold := false, ctx := c.ctx.atFreeze,
             dbg := { c.dbg with halted := some why, pending := none, deferred := false, left := none, skipBp := c.ctx.heads } }
  (s.traceUnitOf n 9 why.code).logStart n 1

/-- A core in a play run performs no memory operation of its own (R390). -/
def State.playing (s : State) (n : CoreId) : Bool := (s.coreAt n).dbg.play

end Sys2Proof.Machine
end

