-- ==== Sys2Proof/Machine/Translate.lean ====
section
/-! DEFINITION. Address translation and access checks (R43 to R55), the page-table walk (R52 to R54), and what a partition may reach (R399, R401). -/

namespace Sys2Proof.Machine

open Sys2Proof

/-! ## Reads at a home -/

/-- The access touches a live slot (R74). -/
def State.hitsSlot (s : State) (pa n : Nat) : Bool := s.slots.any fun t => overlaps pa n t.pa 16

/-- The deadlines of a guarded region that have come by a moment. -/
def Slot.overdue (t : Slot) (now : Nat) : Nat :=
  let p := (t.arg.extractLsb' 13 18).toNat * 4096
  if t.kind ≠ 4 ∨ t.dline = BitVec.allOnes 64 ∨ now < t.dline.toNat then 0
  else if p = 0 then 1
  else (now - t.dline.toNat) / p + 1

/-- The 16 bytes of a live slot as its home answers them now: a deadline that has come has cleared arrived (R67, R79). -/
def State.slotImage (s : State) (t : Slot) : BitVec 128 :=
  let d := s.die ((homeDie t.pa).getD .bow)
  if t.overdue d.time ≠ 0 ∧ d.snap.isNone then ({ t with arrived := 0 } : Slot).image else t.image

/-- A byte as its home answers it: a live slot's layout stands in its 16 bytes, word 1 of it is a free value (R67) (DESIGN CHOICE, log 8). -/
def State.byteAt (s : State) (pa : Nat) : Byte :=
  match s.slots.find? fun t => decide (t.pa ≤ pa) && decide (pa < t.pa + 16) with
  | some t =>
    let o := pa - t.pa
    if 4 ≤ o ∧ o < 8 then (Config.freeDw s.free (4096 + o)).setWidth 8 else (s.slotImage t).extractLsb' (8 * o) 8
  | none => memRead s.mem pa

def State.bytesAt (s : State) (pa n : Nat) : List Byte := (List.range n).map fun j => s.byteAt (pa + j)

def State.valueAt (s : State) (pa n : Nat) : Nat := leValue (s.bytesAt pa n)

/-- A 64-byte block is poisoned (R366). -/
def State.poisoned (s : State) (pa n : Nat) : Bool := s.poison.any fun b => overlaps pa n b 64

/-- A 64-byte record as its home answers it (R64, R67). -/
def State.recAt (s : State) (pa : Nat) : BitVec 512 := BitVec.ofNat 512 (s.valueAt pa 64)

/-- A doubleword as its home answers it (R52, R54, R67). -/
def State.dwAt (s : State) (pa : Nat) : Dw := BitVec.ofNat 64 (s.valueAt pa 8)

/-! ## Translation -/

/-- What an access needs (R51, R175, R429). -/
structure Need where
  rd : Bool
  wr : Bool
  at_ : Bool
deriving DecidableEq, Repr

/-- A place looked up, with nothing read or written there. -/
def needNone : Need := { rd := false, wr := false, at_ := false }
def needRd : Need := { rd := true, wr := false, at_ := false }
def needWr : Need := { rd := false, wr := true, at_ := false }
def needRw : Need := { rd := true, wr := true, at_ := false }
def needAt : Need := { rd := true, wr := true, at_ := true }

/-- The result of a translation: a physical address, a fault with its cause, a miss that waits for a walk, or a target that breaks the partition's
protection or bands (R368). -/
inductive Tr
  | ok (pa : Nat)
  | fault (c : Cause)
  | miss
  | breaks (pa : Nat)
deriving DecidableEq, Repr

/-- Where an address lies before the permission check. -/
inductive Loc
  | at_ (pa : Nat) (rd wr at_ : Bool) (free : Bool)
  | fault (c : Cause)
  | miss
  | breaks (pa : Nat)
deriving DecidableEq, Repr

def localBase : Nat := 0xFFFFFFFFFC000000

/-- The local window (R44, R45). -/
def localLoc (n : CoreId) (sup : Bool) (o size : Nat) : Loc :=
  if o < 0x200000 then (if o + size ≤ 0x200000 then .at_ (padBase n + o) true true true true else .fault .localHole)
  else if o < 0x800000 then .fault .localHole
  else if h : o < 0x1000000 then
    let p : Fin 4 := ⟨(o - 0x800000) / 0x200000, by omega⟩
    let q := (o - 0x800000) % 0x200000
    if q + size ≤ 0x200000 then .at_ (padBase (crewCore (crewOf n) p) + q) true true true true else .fault .localHole
  else if o < 0x1040000 then
    (if o + size ≤ 0x1040000 then .at_ (2 ^ 80 + n.val * 2 ^ 18 + (o - 0x1000000)) sup false false true else .fault .localHole)
  else .fault .localHole

/-- The fields of a range entry (R51). -/
def rangeBase (e : BitVec 256) : Nat := (e.extractLsb' 0 57).toNat
def rangeLimit (e : BitVec 256) : Nat := (e.extractLsb' 64 57).toNat
def rangeOff (e : BitVec 256) : Nat := (e.extractLsb' 128 64).toNat
def rangeValid (e : BitVec 256) : Bool := e.getLsbD 192
def rangeTgt (e : BitVec 256) : BitVec 3 := e.extractLsb' 197 3
def rangePeer (e : BitVec 256) : Nat := (e.extractLsb' 200 8).toNat

/-- A matching entry that faults "range entry" (R51). -/
def rangeBad (e : BitVec 256) : Bool :=
  decide (rangeBase e % 4096 ≠ 0) || decide (rangeLimit e % 4096 ≠ 0) || decide (e.extractLsb' 208 48 ≠ 0) || decide (6 ≤ (rangeTgt e).toNat) ||
  (if rangeTgt e = 5 then decide (192 ≤ rangePeer e) else decide (rangePeer e ≠ 0))

def rangeHit (va : Nat) (e : BitVec 256) : Bool := rangeValid e && decide (rangeBase e ≤ va) && decide (va < rangeLimit e)

/-- The lowest-numbered valid entry that matches (R50). -/
def rangeFind (x : Context) (va : Nat) : Option (BitVec 256) := x.ranges.toList.find? (rangeHit va)

/-- The fields of a page-table entry (R53). -/
def pteV (e : Dw) : Bool := e.getLsbD 0
def pteLeaf (e : Dw) : Bool := e.getLsbD 1
def pteSz (e : Dw) : Nat := (e.extractLsb' 6 3).toNat
def pteTgt (e : Dw) : BitVec 3 := e.extractLsb' 9 3
def pteFrame (e : Dw) : Nat := (e.extractLsb' 12 44).toNat * 4096
def ptePeer (e : Dw) : Nat := (e.extractLsb' 56 8).toNat

/-- Bytes of a page size code, the level of its leaf and the length of its run (R52). -/
def pageBytes : Nat → Nat
  | 0 => 2 ^ 12 | 1 => 2 ^ 14 | 2 => 2 ^ 16 | 3 => 2 ^ 18 | 4 => 2 ^ 21 | 5 => 2 ^ 25 | _ => 2 ^ 30

def pageLevel : Nat → Nat
  | 0 => 5 | 1 => 5 | 2 => 5 | 3 => 5 | 4 => 4 | 5 => 4 | 6 => 3 | _ => 0

def pageRun : Nat → Nat
  | 1 => 4 | 2 => 16 | 3 => 64 | 5 => 16 | _ => 1

/-- The index of a level (R52). -/
def levelIdx (va level : Nat) : Nat := va / 2 ^ (12 + 9 * (5 - level)) % 512

/-- The peer field of an entry is out of its rule (R53). -/
def ptePeerBad (e : Dw) : Bool := if pteTgt e = 5 then decide (192 ≤ ptePeer e) else decide (ptePeer e ≠ 0)

/-- What a walk finds. -/
inductive WalkRes
  | leaf (e : Dw)
  | fault (c : Cause)
  | noLoc (pa : Nat)
  | breaks (pa : Nat)
deriving DecidableEq, Repr

/-- The walk of the five-level tables from a table at `tab`, `fuel` levels left, its entries as `rd` answers them (R52, R53, R54); a table that the context's
partition may not reach breaks its protection (R368, R400). A table in a scratchpad, where R52 puts none, is walked like any other (DESIGN CHOICE, log 74). -/
def walkTables (rd : Nat → Dw) (reach : Nat → Bool) (d : DieId) (va : Nat) : Nat → Nat → WalkRes
  | 0, _ => .fault .pageSize
  | fuel + 1, tab =>
    let level := 5 - fuel
    if spaceOf tab = none then .noLoc tab
    else if !reach (tab + 8 * levelIdx va level) then .breaks (tab + 8 * levelIdx va level)
    else
    let i := levelIdx va level
    let e := rd (tab + 8 * i)
    if !pteV e then .fault .notPresent
    else if 6 ≤ (pteTgt e).toNat || ptePeerBad e then .fault .pageSize
    else if pteLeaf e then
      let r := pageRun (pteSz e)
      if pageLevel (pteSz e) ≠ level then .fault .pageSize
      else if pteFrame e % pageBytes (pteSz e) ≠ 0 then .fault .pageSize
      else if (List.range r).all (fun j => decide (rd (tab + 8 * (i - i % r + j)) = e)) then .leaf e
      else .fault .pageSize
    else if pteTgt e = 5 ∨ fuel = 0 then .fault .pageSize
    else match targetPa d (pteTgt e) 0 (pteFrame e) 4096 with
      | some t => walkTables rd reach d va fuel t
      | none => .fault .protection

/-- The location that a leaf entry gives an access `off` bytes into its page (R53, R428). -/
def leafLoc (d : DieId) (sup : Bool) (e : Dw) (off size : Nat) : Loc :=
  match targetPa d (pteTgt e) (ptePeer e) (pteFrame e + off) size with
  | some pa => if e.getLsbD 5 && !sup then .fault .protection
               else .at_ pa (e.getLsbD 2) (e.getLsbD 3) (e.getLsbD 4 && e.getLsbD 2 && e.getLsbD 3) false
  | none => .fault .protection

/-- The page translation that serves an access: what a walk that it joined has brought (R54), then one of the cached ones, or none of them and a new
walk (DEDUCED, log 63). -/
def State.leafUsed (s : State) (n : CoreId) (ctx : Fin 64) (ag : Agent) (va : Dw) : Option WalkAns :=
  let v := va.toNat
  match (s.coreAt n).walkAns.find? (fun w => decide (w.1 = ag) && decide (w.2.1.toNat = v / 4096)) with
  | some (_, _, a) => some a
  | none =>
    let hits := (s.die (dieOf n)).tlb.filter fun t => decide (t.ctx = ctx) && decide (t.va.toNat ≤ v) && decide (v < t.va.toNat + t.size)
    hits[s.choose 1 (hits.length + 1)]?.map fun t => .leaf t.leaf

/-- The location an address has in a context (R50): the local window, the range entries, then the pages (R54). -/
def locate (s : State) (n : CoreId) (ctx : Fin 64) (ag : Agent) (sup : Bool) (va : Dw) (size : Nat) : Loc :=
  let x := s.contextOf n ctx
  let v := va.toNat
  if localBase ≤ v then localLoc n sup (v - localBase) size
  else if 2 ^ 57 ≤ v then .fault .nonCanonical
  else match rangeFind x v with
    | some e =>
      if rangeBad e then .fault .rangeEntry
      else match targetPa (dieOf n) (rangeTgt e) (rangePeer e) ((v + rangeOff e) % 2 ^ 64) size with
        | some pa => if e.getLsbD 196 && !sup then .fault .protection
                     else .at_ pa (e.getLsbD 193) (e.getLsbD 194) (e.getLsbD 195 && e.getLsbD 193 && e.getLsbD 194) false
        | none => .fault .protection
    | none =>
      match s.leafUsed n ctx ag va with
      | some (.fault c) => .fault c
      | some (.leaf e) => leafLoc (dieOf n) sup e (v % pageBytes (pteSz e)) size
      | none => .miss

/-- The partition holds a band on a channel (R401) (DESIGN CHOICE, log 25). -/
def bandHeld (b : Dw) : Bool := decide (b.extractLsb' 0 7 ≠ 0) || decide (b.extractLsb' 8 8 ≠ 0) || decide (b.extractLsb' 16 11 ≠ 0)

/-- The channel of a location on its die (R400), none for scratchpads and host memory: HBM interleaves in blocks of 1 KiB (R48) (DESIGN CHOICE,
log 25). -/
def channelOf (pa : Nat) : Option (DieId × Fin 112) :=
  match spaceOf pa with
  | some (.hbm d o) => some (d, ⟨(Config.hbmChannel (o / 1024)).val, by omega⟩)
  | some (.pool d o) => some (d, ⟨96 + (Config.poolChannel o).val, by omega⟩)
  | _ => none

/-- A partition may reach a physical target: it owns the pool granule and holds a band on the channel (R368, R399, R401). -/
def State.mayReach (s : State) (p : Fin 32) (pa : Nat) : Bool :=
  (match spaceOf pa with
   | some (.pool d o) => (s.part p d).granules.getLsbD (o / 2 ^ 20)
   | _ => true) &&
  (match channelOf pa with
   | some (d, ch) => bandHeld ((s.part p d).bands.get ch)
   | none => true)

/-- The checks after the location, in the order of R55: alignment, then protection. -/
def checkLoc (s : State) (p : Fin 32) (need : Need) (mis : Bool) : Loc → Tr
  | .miss => .miss
  | .breaks pa => .breaks pa
  | .fault .protection => if mis then .fault .alignment else .fault .protection
  | .fault c => .fault c
  | .at_ pa rd wr at_ free =>
    if mis then .fault .alignment
    else if (need.rd && !rd) || (need.wr && !wr) || (need.at_ && !at_) then .fault .protection
    else if free || s.mayReach p pa then .ok pa
    else .breaks pa

/-- Translate one access of an agent of core n, for a unit of a context and partition (R50, R55). -/
def translate (s : State) (n : CoreId) (ctx : Fin 64) (p : Fin 32) (ag : Agent) (sup : Bool) (need : Need) (mis : Bool) (va : Dw) (size : Nat) : Tr :=
  checkLoc s p need mis (locate s n ctx ag sup va size)

/-- The location with a page walk made at once where no cached translation serves: for accesses that no seat or engine port makes (the argument block,
a unit record, the spill and service rings, the front end), whose walks differ in time only (DESIGN CHOICE, log 10). A table that names no location
faults such an access "protection", where PAGE_WALK_COMPLETE stops the machine (DESIGN CHOICE, log 74). -/
def locateNow (s : State) (n : CoreId) (ctx : Fin 64) (p : Fin 32) (ag : Agent) (sup : Bool) (va : Dw) (size : Nat) : Loc :=
  match locate s n ctx ag sup va size with
  | .miss =>
    match walkTables s.dwAt (s.mayReach p) (dieOf n) va.toNat 5 (s.contextOf n ctx).ptroot.toNat with
    | .leaf e => leafLoc (dieOf n) sup e (va.toNat % pageBytes (pteSz e)) size
    | .fault c => .fault c
    | .noLoc _ => .fault .protection
    | .breaks pa => .breaks pa
  | l => l

def translateNow (s : State) (n : CoreId) (ctx : Fin 64) (p : Fin 32) (sup : Bool) (need : Need) (mis : Bool) (va : Dw) (size : Nat) : Tr :=
  checkLoc s p need mis (locateNow s n ctx p .other sup va size)

/-- A context that is being torn down, with the partition that has lost it, whose units still drain (R410). -/
def State.drainOf (s : State) (d : DieId) (x : Fin 64) : Option (Fin 32) :=
  s.reconf.bind fun r => (r.contexts.find? fun y => decide (y.1 = d) && decide (y.2.1 = x)).map fun y => y.2.2

/-- The partition that owns a context of a die (R399), or whose units drain in it (R410). -/
def State.ownerOf (s : State) (d : DieId) (x : Fin 64) : Option (Fin 32) :=
  match s.drainOf d x with
  | some p => some p
  | none => (List.finRange 32).find? fun p => (s.part p d).contexts.getLsbD x.val

/-- An access made for a context by no unit: where no partition owns the context, it owns no target either (R368, R400). -/
def translateFor (s : State) (n : CoreId) (ctx : Fin 64) (ag : Agent) (need : Need) (mis : Bool) (va : Dw) (size : Nat) : Tr :=
  match s.ownerOf (dieOf n) ctx with
  | some p => translate s n ctx p ag false need mis va size
  | none => .breaks 0

def translateNowFor (s : State) (n : CoreId) (ctx : Fin 64) (sup : Bool) (need : Need) (mis : Bool) (va : Dw) (size : Nat) : Tr :=
  match s.ownerOf (dieOf n) ctx with
  | some p => translateNow s n ctx p sup need mis va size
  | none => .breaks 0

/-! ## One access in several blocks (R44, R55) -/

/-- The order in which causes are reported (R55). -/
def Cause.rank : Cause → Nat
  | .nonCanonical => 0 | .localHole => 1 | .rangeEntry => 2 | .notPresent => 3 | .pageSize => 4 | .alignment => 5 | _ => 6

/-- Every part of a list of accesses translates, or what stands against it. -/
inductive TrAll
  | ok (pas : List (Nat × Nat))
  | fault (c : Cause) (va : Dw)
  | miss (va : Dw)
  | breaks
deriving DecidableEq, Repr

/-- The first fault in the order of R55 among the parts of one access. -/
def firstFault (l : List (Dw × Tr)) : Option (Cause × Dw) :=
  l.foldl (fun m a => match a.2, m with
    | .fault c, none => some (c, a.1)
    | .fault c, some (b, v) => if c.rank < b.rank then some (c, a.1) else some (b, v)
    | _, m => m) none

/-- One access in parts: it waits for a part that misses, and the cause reported is the first in the order of R55 over all of it. -/
def translateWhole (s : State) (n : CoreId) (ctx : Fin 64) (p : Fin 32) (ag : Agent) (need : Need) (al : Nat) (l : List (Dw × Nat)) : TrAll :=
  let r := l.map fun a => (a.1, translate s n ctx p ag false need (decide (a.1.toNat % al ≠ 0)) a.1 a.2)
  match r.find? fun a => decide (a.2 = .miss) with
  | some a => .miss a.1
  | none => match firstFault r with
    | some (c, va) => .fault c va
    | none =>
      if r.any fun a => match a.2 with | .breaks _ => true | _ => false then .breaks
      else .ok ((r.zip l).map fun a => (match a.1.2 with | .ok pa => pa | _ => 0, a.2.2))

/-- A run of bytes that crosses the end of its row of the local window, or of its crew position (R44). -/
def crossesRow (n : CoreId) (va : Dw) (size : Nat) : Bool :=
  decide (localBase ≤ va.toNat) && decide (localLoc n true (va.toNat - localBase) size = .fault .localHole)

/-- An access that missed joins the walk of its page (R54). -/
def State.addMiss (s : State) (n : CoreId) (ctx : Fin 64) (ag : Agent) (va : Dw) : State :=
  let pg : Dw := va >>> 12
  let w : CoreId × Agent := (n, ag)
  s.modDie (dieOf n) fun d =>
    if d.walks.any (fun k => decide (k.ctx = ctx) && decide (k.page = pg) && !k.stale) then
      { d with walks := d.walks.map fun k =>
          if k.ctx = ctx ∧ k.page = pg ∧ k.stale = false ∧ w ∉ k.waiters then { k with waiters := k.waiters ++ [w] } else k }
    else { d with walks := d.walks ++ [{ ctx := ctx, page := pg, started := false, stale := false, waiters := [w] }] }

/-- What walks have brought to an agent is used up (R54, R361). -/
def State.clearWalkAns (s : State) (n : CoreId) (ag : Agent) : State :=
  s.modCore n fun c => { c with walkAns := c.walkAns.filter fun w => decide (w.1 ≠ ag) }

/-- What walks have brought to seats that have moved past their words is used up (R54). -/
def dropAnswers (moved : BitVec 4) (l : List (Agent × Dw × WalkAns)) : List (Agent × Dw × WalkAns) :=
  l.filter fun w => match w.1 with
    | .seat k | .fetch k => !moved.getLsbD k.toNat
    | _ => true

/-- The context and partition of the unit on a core. -/
def State.ctxOn (s : State) (n : CoreId) : Fin 64 := (s.coreAt n).ctxNum

def State.partOn (s : State) (n : CoreId) : Fin 32 := match (s.coreAt n).unit with | some u => u.part | none => 0

/-- A context's values as its descriptor and its range table hold them (R51, R82, R359) (DESIGN CHOICE, log 59). -/
def loadContext (rd : Nat → Dw) (ctxd : Dw) : Context :=
  let at_ (i : Nat) : Dw := rd (ctxd.toNat + 8 * i)
  let rtab := (at_ 1).toNat
  { ctxd := ctxd, ptroot := at_ 0, rtab := at_ 1, spill := at_ 2, shbase := at_ 3, shlen := (at_ 4).setWidth 24, svring := at_ 5, svrep := at_ 6,
    scope := Vector.ofFn fun j => at_ (8 + j.val)
    ranges := Vector.ofFn fun j => rd (rtab + 32 * j.val + 24) ++ rd (rtab + 32 * j.val + 16) ++ rd (rtab + 32 * j.val + 8) ++ rd (rtab + 32 * j.val) }

/-- An address of the descriptor or the range table that names no location (R428). -/
def contextLost (rd : Nat → Dw) (ctxd : Dw) : Option Nat :=
  if (spaceOf ctxd.toNat).isNone then some ctxd.toNat
  else
    let rtab := (rd (ctxd.toNat + 8)).toNat
    if (spaceOf rtab).isNone then some rtab else none

/-- The policy core installs a context: the hardware reads its descriptor (R359). Where the descriptor lies is the policy core's, which the spec does not
say, so it is a free 64-byte aligned address; one that names no location installs nothing (DESIGN CHOICE, log 59). -/
def State.installContext (s : State) (d : DieId) (x : Fin 64) : State :=
  let a : Dw := Config.freeDw s.free (1000 + 64 * d.toNat + x.val) &&& ~~~63
  match contextLost s.dwAt a with
  | none => s.modDie d fun y => { y with contexts := y.contexts.set x.val (loadContext s.dwAt a) }
  | some _ => s

/-- Some partition owns the context (R399). -/
def State.contextOwned (s : State) (d : DieId) (x : Fin 64) : Bool :=
  (List.finRange 32).any fun p => (s.part p d).contexts.getLsbD x.val

/-- The contexts of a die that a list grants and that nobody owned before it are installed (R359, R410) (DESIGN CHOICE, log 59). -/
def State.installGranted (s : State) (before : State) : State :=
  [DieId.bow, DieId.stern].foldl (fun s d => (List.finRange 64).foldl (fun s x =>
    if s.contextOwned d x && !before.contextOwned d x then s.installContext d x else s) s) s

end Sys2Proof.Machine
end

