-- ==== Sys2Proof/Machine/Issue.lean ====
section
/-! DEFINITION. Issue: the fetch of a word (R11, R36, R121, R315), the checks every word meets (R35, R37, R39, R115, R349, R350), the settling of a
word's verdict, and the close of a core clock (R31, R32, R57, R372). -/

namespace Sys2Proof.Machine

open Sys2Proof

/-! ## Event counters (R383, R384) -/

/-- Count one occurrence of an event in a counter: the select word's src and en, the count wrapping with the sticky ovf (DEDUCED, log 69). -/
def bumpCounter (sel : BitVec 16) (val : BitVec 48) (code inc : Nat) (okCtx : Bool) : BitVec 16 × BitVec 48 :=
  if (sel.extractLsb' 0 6).toNat = code ∧ sel.getLsbD 6 ∧ okCtx then
    (if 2 ^ 48 ≤ val.toNat + inc then sel ||| 0x8000 else sel, val + BitVec.ofNat 48 inc)
  else (sel, val)

/-- The filter of a select word for a core event: with cfilt set, a unit of its context runs on the core (R383). -/
def Core.counts (c : Core) (sel : BitVec 16) : Bool :=
  !sel.getLsbD 8 || (match c.unit with | some u => decide (u.ctx.val = (sel.extractLsb' 9 6).toNat) | none => false)

/-- The core counters, whose cfilt compares the unit's context. -/
def Core.bump (c : Core) (code inc : Nat) : Core :=
  let cell (i : Fin 8) : BitVec 16 × BitVec 48 :=
    let sel := c.dbg.ecsel.get i
    bumpCounter sel (c.dbg.ecval.get i) code inc (c.counts sel)
  { c with dbg := { c.dbg with ecsel := Vector.ofFn fun i => (cell i).1, ecval := Vector.ofFn fun i => (cell i).2 } }

/-- A counter with trc set has wrapped. -/
def Dbg.wrapped (old new : Dbg) : Bool :=
  (List.finRange 8).any fun i => (new.ecsel.get i).getLsbD 7 && decide ((new.ecval.get i).toNat < (old.ecval.get i).toNat)

/-- A counter record (R379, kind 6): the counters that have overflowed, then all eight. -/
def State.counterRecord (s : State) (n : CoreId) : State :=
  let d := (s.coreAt n).dbg
  let mask := ((List.finRange 8).filter fun i => (d.ecsel.get i).getLsbD 15).foldl (fun m i => m + 2 ^ i.val) 0
  s.traceRec n 6 (BitVec.ofNat 64 mask :: d.ecval.toList.map fun v => v.setWidth 64)

/-- A core event: the core's counters, and the die's, which sum over the cores (R383) (DEDUCED, log 69). -/
def State.count (s : State) (n : CoreId) (code inc : Nat) : State :=
  let old := (s.coreAt n).dbg
  let s := s.modCore n fun c => c.bump code inc
  let s := if Dbg.wrapped old (s.coreAt n).dbg then s.counterRecord n else s
  let ok (sel : BitVec 16) : Bool := (s.coreAt n).counts sel
  s.modDie (dieOf n) fun d =>
    { d with ecsel := Vector.ofFn fun i => (bumpCounter (d.ecsel.get i) (d.ecval.get i) code inc (ok (d.ecsel.get i))).1,
             ecval := Vector.ofFn fun i => (bumpCounter (d.ecsel.get i) (d.ecval.get i) code inc (ok (d.ecsel.get i))).2 }

/-- The entry that the core's drain has reserved lands now (R240, R247). -/
def State.landReserved (s : State) (n : CoreId) : State :=
  if (s.coreAt n).ctx.eng.drainT.isSome then (s.count n 22 1).modCtx n Ctx.drainLands else s

/-- A die event (DEDUCED, log 69). -/
def State.countDie (s : State) (x : DieId) (code inc : Nat) : State :=
  s.modDie x fun d =>
    { d with ecsel := Vector.ofFn fun i => (bumpCounter (d.ecsel.get i) (d.ecval.get i) code inc true).1,
             ecval := Vector.ofFn fun i => (bumpCounter (d.ecsel.get i) (d.ecval.get i) code inc true).2 }

/-! ## What a seat may do -/

/-- The loop whose body a seat is in; a loop stopped by a finished early epilogue waits at its MLOOP word (R42). -/
def Seat.body (t : Seat) : Option Loop :=
  match t.loop with
  | some lp => if lp.lepi && !lp.lmid then none else some lp
  | none => none

/-- The core is advancing: a unit is on it, nothing freezes, holds or stops it. -/
def State.advancing (s : State) (n : CoreId) : Bool :=
  let c := s.coreAt n
  c.unit.isSome && c.frozen.isNone && !c.hold && !c.stopped && !(s.crewAt (crewOf n)).gated

/-- The core runs its seats, so that its schedule cycle rises (R372). -/
def State.running (s : State) (n : CoreId) : Bool := s.advancing n && (s.coreAt n).handler.isNone

def seatBit (k : SeatId) : BitVec 4 := 1 <<< k.toNat

/-- The seat stalls behind a wait of its own: a PARK whose slots have issued (R18), a slot wait (R177, R178, R196), or an access of a handler to a system
register that has not acted (R358, R360, R361) (DEDUCED, log 60). -/
def Core.seatWaits (c : Core) (k : SeatId) : Bool :=
  match k with
  | .c => (match c.ctx.park with | some _ => decide ((c.ctx.seat .c).dslots = 0) | none => false) ||
          (match c.handler with | some h => h.req.isSome | none => false)
  | .a => match c.ctx.await with | some (.answer _) => true | some (.line _ _ w) => !w | _ => false
  | _ => false

/-- Seat k of the current core may try the word at its head in this turn. -/
def State.canIssue (s : State) (k : SeatId) : Bool :=
  let c := s.coreAt s.cur
  let t := c.ctx.seat k
  s.advancing s.cur && decide (s.turn = .seat k) && t.act && t.cause.isNone && decide ((c.moved ||| c.skip) &&& (seatBit k) = 0) && !c.seatWaits k &&
  (c.handler.isNone || decide (k = .c)) &&
  (match t.body with | some lp => !lp.group | none => true)

/-- The section a seat fetches from (R11, R350). -/
def State.section_ (s : State) (n : CoreId) (k : SeatId) : Sec :=
  let c := s.coreAt n
  match c.handler, c.unit with
  | some h, some u =>
    if h.sup then { base := (s.contextOf n c.ctxNum).shbase, words := (s.contextOf n c.ctxNum).shlen.toNat } else u.secs.get SeatId.c.toFin
  | none, some u => u.secs.get k.toFin
  | _, none => { base := 0, words := 0 }

/-- What the head of a seat holds. -/
inductive Fetch
  | word (w : Word)
  | past
  | target
  | fault (c : Cause)
  | miss
  | breaks
deriving DecidableEq, Repr

/-- The instruction word at a place: in the shadow row, of the frame that the handler stands over (R44, R353). -/
def State.instrAt (s : State) (n : CoreId) (pa : Nat) : Word :=
  if 2 ^ 80 ≤ pa then match (s.coreAt n).handler with
    | some h => (h.shadowAt (s.coreAt n).ctx (pa % 2 ^ 18 / 8)).extractLsb' (8 * (pa % 8)) 32
    | none => 0
  else BitVec.ofNat 32 (s.valueAt pa 4)

/-- Fetch the word at a seat's pc: inside the section, one past its end (R36), or no branch target (R121) (DEDUCED, log 9). -/
def State.fetch (s : State) (n : CoreId) (k : SeatId) : Fetch :=
  let c := s.coreAt n
  let pc := (c.ctx.seat k).pc
  let sec := s.section_ n k
  if pc.toNat = sec.base.toNat + 4 * sec.words then .past
  else if pc.toNat % 4 ≠ 0 ∨ pc.toNat < sec.base.toNat ∨ sec.base.toNat + 4 * sec.words < pc.toNat then .target
  else match translate s n (s.ctxOn n) (s.partOn n) (.fetch k) (match c.handler with | some h => h.sup | none => false) needRd false pc 4 with
    | .ok pa => .word (s.instrAt n pa)
    | .fault q => .fault q
    | .miss => .miss
    | .breaks _ => .breaks

/-- Branches, jumps, MLOOP, PARK and EXIT: no delay slot and no loop body may hold them (R35, R39). -/
def isTransfer : Instr → Bool
  | .beq _ _ _ _ | .bne _ _ _ _ | .blt _ _ _ _ | .bge _ _ _ _ | .bltu _ _ _ _ | .bgeu _ _ _ _ | .jmp _ _ | .jal _ _ | .jr _ _
  | .abeq _ _ _ _ | .abne _ _ _ _ | .ablt _ _ _ _ | .abge _ _ _ _ | .ajmp _ _ | .ajr _ _ | .vbz _ _ _ | .vbnz _ _ _ | .vjmp _ _
  | .mbz _ _ _ | .mbnz _ _ _ | .mblt _ _ _ _ | .mjmp _ _ | .mjr _ _ | .mloop _ _ _ _ _ | .park _ _ _ _ | .exit _ => true
  | _ => false

/-- The seats of the current core that are active. -/
def Ctx.actives (x : Ctx) : List SeatId := [SeatId.c, .a, .v, .m].filter fun k => (x.seat k).act

/-- The outcome of the checks that come before a word's own. -/
inductive Pre
  | ok
  | wait
  | trap (c : Cause)
deriving DecidableEq, Repr

/-- The checks every word meets, in order: a stroked word that waits for its partners (R37, R116), undefined (R115), a delay slot (R35), a loop body (R39), a
handler (R350) or no partner (R37). In a rendezvous the stroke has met already (DEDUCED, log 71). -/
def State.precheck (s : State) (k : SeatId) (st : Bool) (i : Instr) (met : Bool) : Pre :=
  let c := s.coreAt s.cur
  let t := c.ctx.seat k
  if st && !met && t.body.isNone && c.handler.isNone && decide (c.ctx.actives ≠ [k]) then .wait
  else if !i.wf then .trap .undefinedInstruction
  else if decide (t.dslots ≠ 0) && (st || isTransfer i) then .trap .delaySlotWord
  else match t.body with
    | some _ => if isTransfer i then .trap .loopBody else .ok
    | none => if !st || met then .ok else .trap .strokeWithoutCrew

/-- Why a seat stalls, for the counters of R384; 100 marks the end of a loop (R382). -/
def State.why (s : State) (code : Nat) : State := s.modCore s.cur fun c => { c with why := c.why ++ [code] }

/-- A seat of the current core moves past a word, issued or squashed: the end of a loop is noted (R382), an advance of the dither phase counted. -/
def State.pass (s : State) (k : SeatId) (f : Flow) : State :=
  let x := (s.coreAt s.cur).ctx
  let s := s.modCtx s.cur fun x => x.advance k f
  let y := (s.coreAt s.cur).ctx
  let s := if y.dph ≠ x.dph then s.count s.cur 37 1 else s
  if (x.seat k).body.isSome && (y.seat k).body.isNone then s.why 100 else s

/-- Settle a verdict: the seat moves on and counts as moved, or its trap is recorded with the word's address (R34, R35). -/
def State.settle (s : State) (k : SeatId) (v : Verdict) : State :=
  let pc := ((s.coreAt s.cur).ctx.seat k).pc
  match v with
  | .stall s' => s'
  | .trap c tval => s.raise s.cur k c tval pc false
  | .go s' f => (s'.pass k f).modCore s'.cur fun c => { c with moved := c.moved ||| (seatBit k) }
  | .goTrap s' f q tval =>
    ((s'.pass k f).modCore s'.cur fun c => { c with moved := c.moved ||| (seatBit k) }).raise s'.cur k q tval pc true

/-- The word raises the undefined-instruction trap, which is reported before any other cause (R115). A word with defined fields does so only on the C seat:
SYSR, SYSW, SPAWN and PARK, by where it stands (R155, R156, R350); a stroked one waits for its partners first (R116). -/
def Verdict.isUndefined : Verdict → Bool
  | .trap .undefinedInstruction _ => true
  | _ => false

/-- One word of seat k at the head of its seat: `v` is the verdict of the word's own rule in this state. -/
def issue (k : SeatId) (st : Bool) (i : Instr) (v : Verdict) (s : State) : Host.Outcome State Fault Refusal :=
  if s.canIssue k then
    match s.precheck k st i false with
    | .trap c => .next (s.settle k (if decide (k = .c) && v.isUndefined then v else .trap c 0)).passTurn
    | .wait => .next ((s.modCtx s.cur fun x => x.modSeat k fun t => { t with strk := true }).passTurn)
    | .ok => .next (s.settle k v).passTurn
  else .next s.passTurn

/-- The seat whose turn it is; at the finish of a clock, C. -/
def State.turnSeat (s : State) : SeatId := match s.turn with | .seat k => k | .finish => .c

/-- A squashed word occupies its clock, which the marks 110 to 113 say, and does nothing else (R40). -/
def State.squash (s : State) (k : SeatId) : State :=
  ((s.pass k .seq).count s.cur 18 1).why (110 + k.toNat)

/-! ## The close of a clock -/

/-- Apply what the clock's words left for its end (R31, R160, R167), in seat order. -/
def Ctx.applyPending (x : Ctx) : Pending → Ctx
  | .post k n => { x with k := x.k.set k.toFin (x.k.get k.toFin + n.setWidth 16) }
  | .flag f v => { x with f := if v then x.f ||| ((1 : BitVec 8) <<< f.toNat) else x.f &&& ~~~((1 : BitVec 8) <<< f.toNat) }
  | .scope os e => [SeatId.c, .a, .v, .m].foldl (fun y k => y.modSeat k fun t => { t with osb := t.osb.set os.toFin e }) x
  | .bind q d e => x.setQueue q { x.queue q with dir := d, esz := e }
  | .leave _ _ => x
  | .lost => x
  | .boundary => x

/-- One schedule cycle passes for the results in flight (R32). -/
def Ctx.tick (x : Ctx) : Ctx := { x with inflight := x.inflight.map fun r => { r with rem := r.rem - 1 } }

/-- One schedule cycle of the shape unit (R224, R228) (DEDUCED, log 26). -/
def Ctx.tickShape (x : Ctx) : Ctx := { x with shape := x.shape.bind Shape.tick }

/-- The load whose landing clock comes next has no data yet, so that the core holds (R57, R145). -/
def Ctx.mustHold (x : Ctx) : Bool := x.inflight.any fun r => decide (r.rem = 0) && !r.ready

/-- The places an operation of the seat itself acts on. -/
def OpKind.places : OpKind → List Nat
  | .load pa _ _ _ | .store pa _ | .amo pa _ _ _ _ _ => [pa]
  | .ldv blocks _ _ _ => blocks
  | .stv blocks _ => blocks
  | .aset r slot _ _ => [r, slot]
  | .afree slot | .aread slot _ _ | .acred slot _ => [slot]
  | .rgres hdr _ | .rgpub hdr _ | .rgpop hdr _ _ | .rgcur hdr _ _ => [hdr]
  | .chlnk r _ | .chkck r => [r]
  | .waita l => [l]
  | .copy _ | .pattern _ _ | .multicast _ => []

/-- The bank of a scratchpad that a place lies in (R46). -/
def padBank (n : CoreId) (pa : Nat) : Option Nat :=
  match spaceOf pa with | some (.pad m off) => if m = n then some (off / 64 % 32) else none | _ => none

/-- The accesses that a core has still to make, each with its requester in the order of R47: the A seat's loads and stores, the pattern generators' reads and writes,
and the copies' writes and reads. -/
def Core.asked (c : Core) : List (Nat × Nat) :=
  let places (o : MemOp) : List Nat := (o.kind.places.mapIdx fun i pa => (i, pa)).filterMap fun x => if o.done.contains x.1 then none else some x.2
  (c.ops.flatMap fun o => (places o).map fun pa => (match o.kind with | .store _ _ | .stv _ _ => 1 | _ => 0, pa)) ++
  ((List.range 4).flatMap fun g => match c.pats.toList.getD g none with
    | some p => (p.reads.flatMap fun e => (e.parts.getD []).filterMap fun a => if a.got.isNone then some (2 + g, a.pa) else none) ++ p.writes.map fun w => (2 + g, w.1)
    | none => []) ++
  c.copies.flatMap fun k => k.loads.flatMap fun x => (x.chunk.map fun a => (6, a.pa)) ++ x.reads.filterMap fun a => if a.got.isNone then some (7, a.pa) else none

/-- The requests that may stand at the banks of a core's scratchpad (R47, R381): its own, those of its crew-mates over the crew network, and the matrix
drain's at a bank that the spec does not name. -/
def State.bankAsks (s : State) (n : CoreId) : List (Nat × Nat) :=
  let at_ (l : List (Nat × Nat)) : List (Nat × Nat) := l.filterMap fun a => (padBank n a.2).map fun b => (a.1, b)
  let mates := ([(0 : Fin 4), 1, 2, 3].map (crewCore (crewOf n))).filter fun m => decide (m ≠ n)
  at_ (s.coreAt n).asked ++ (mates.flatMap fun m => at_ (s.coreAt m).asked).map (fun a => (8, a.2)) ++
  if (s.coreAt n).ctx.eng.dbusy then [(9, Config.pick s.free 832 % 32)] else []

/-- The first of a bank's requesters from its pointer on. -/
def firstFrom (ptr : Nat) (l : List Nat) : Option Nat := ((List.range 10).map fun i => (ptr + i) % 10).find? fun r => l.contains r

/-- The banks at a clock of the core (R47, R381): of the accesses to be made, which hold a request now is timing, so a free choice; each bank grants one,
round-robin from its pointer, and the cell of each other grows (DESIGN CHOICE, log 10). -/
def State.loseBanks (s : State) (n : CoreId) : State :=
  let asks := s.bankAsks n
  if asks.isEmpty then s
  else
    let holders (b : Nat) : List Nat := (List.range 10).filter fun r => asks.contains (r, b) && decide (Config.pick s.free (512 + 32 * r + b) % 2 = 1)
    let granted (c : Core) (b : Nat) : Option Nat := firstFrom (c.bankPtr.toList.getD b 0) (holders b)
    let loses (c : Core) (i : Nat) : Bool := (holders (i % 32)).contains (i / 32) && decide (granted c (i % 32) ≠ some (i / 32))
    s.modCore n fun c =>
      let cells := c.dbg.cells.mapIdx fun i v => if loses c i then BitVec.ofNat 32 (sat32 (v.toNat + 1)) else v
      { c with dbg := { c.dbg with cells := cells }
               bankPtr := c.bankPtr.mapIdx fun b v => match granted c b with | some r => (r + 1) % 10 | none => v }

/-- The conflict clocks over all cells between two states of the cells (R384, code 23). -/
def lostClocks (old new : Vector Word 320) : Nat := ((List.range 320).map fun i => (new.toList.getD i 0).toNat - (old.toList.getD i 0).toNat).sum

/-- The clock counters of a core (R384, codes 0 to 17 and 23); a core whose clock is stopped, or whose crew is gated, has no clock (R372). -/
def State.countClock (s : State) (n : CoreId) : State :=
  if (s.coreAt n).stopped || (s.crewAt (crewOf n)).gated then s else
  let old := (s.coreAt n).dbg.cells
  let s := s.loseBanks n
  let c := s.coreAt n
  let s := s.count n 23 (lostClocks old c.dbg.cells)
  let run := s.running n && !c.returned
  let s := s.count n 0 1
  let s := if run then s.count n 1 1 else s
  let s := if c.hold && c.frozen.isNone then s.count n 2 1 else s
  let s := if c.frozen.isSome || c.handler.isSome || c.returned then s.count n 3 1 else s
  let s := [SeatId.c, .a, .v, .m].foldl (fun (s : State) k =>
    if c.moved &&& (seatBit k) ≠ 0 then s.count n (4 + k.toNat) 1
    else if run && (c.ctx.seat k).act && !c.why.contains (110 + k.toNat) then s.count n (8 + k.toNat) 1 else s) s
  let s := if run && [SeatId.c, .a, .v, .m].any (fun k => (c.ctx.seat k).strk) then s.count n 12 1 else s
  let s := if run && (((c.ctx.seat .a).act && c.seatWaits .a) || (match c.ctx.park with | some p => p.polling | none => false)) then s.count n 17 1 else s
  c.why.foldl (fun s w => s.count n w 1) s

/-- The conflict record: the growth of the cells since the core's last snapshot, in rows (R381, R382). -/
def State.conflictRecord (s : State) (n : CoreId) : State :=
  let d := (s.coreAt n).dbg
  let grown (i : Nat) : Nat := min 65535 ((d.cells.toArray.getD i 0).toNat - (d.snap.toArray.getD i 0).toNat)
  let rows := (List.range 10).filter fun r => (List.range 32).any fun b => decide (grown (32 * r + b) ≠ 0)
  let mask := rows.foldl (fun m r => m + 2 ^ r) 0
  let data := rows.flatMap fun r => (List.range 8).map fun j =>
    BitVec.ofNat 64 ((List.range 4).foldl (fun a b => a + grown (32 * r + 4 * j + b) * 2 ^ (16 * b)) 0)
  let s := s.modCore n fun c => { c with dbg := { c.dbg with snap := c.dbg.cells } }
  s.traceRec n 5 (BitVec.ofNat 64 mask :: data)

/-- The conflict record of a clock on which a loop has ended, if TRCTL asks for it (R382). -/
def State.loopRecord (s : State) (n : CoreId) : State :=
  if (s.coreAt n).why.contains 100 && (s.crewAt (crewOf n)).trctl.getLsbD 4 then s.conflictRecord n else s

/-- The debug state at the end of a running clock (R374): a step count that has run out or a stop-at value reached asks for a halt. -/
def Dbg.tick (d : Dbg) (csc : Dw) : Dbg :=
  let left := d.left.map (· - 1)
  let d := { d with left := left, skipBp := [] }
  if left = some 0 then { d with left := none, pending := some (d.pending.getD .stepDone) }
  else if d.stopAt ≠ 0 ∧ csc = d.stopAt then { d with pending := some (d.pending.getD .stopAt) }
  else d

/-- The sample period (R377). -/
def Crew.period (c : Crew) : Nat := 2 ^ max 4 (c.trctl.extractLsb' 7 5).toNat

/-- A clock that ends with this schedule cycle is one of the sample's (R379); mark 103 stands until the record is written. -/
def Crew.samples (c : Crew) (csc : Dw) : Bool := c.enabled && c.trctl.getLsbD 2 && decide (csc.toNat % c.period = 0)

/-- A clock of the core counts toward the 640 of an urgent stop: held or not, but in no handler and no freeze (R42, R57, R365). -/
def State.stopRuns (s : State) (n : CoreId) : Bool :=
  let c := s.coreAt n
  c.frozen.isNone && c.handler.isNone && !c.stopped && !(s.crewAt (crewOf n)).gated && !c.returned

/-- The end of a core clock: pending posts, flags and bindings apply, the schedule cycle rises and results come one cycle nearer, unless the core
is frozen or held or returns from a trap (R31, R32, R57, R352, R372); a full replay log holds it too (R389). -/
def State.tickClock (s : State) (n : CoreId) : State :=
  let s := (s.countClock n).loopRecord n
  let ret := (s.coreAt n).returned
  let run := s.running n && !ret
  let adv := s.advancing n && !ret
  let counts := s.stopRuns n
  let w := s.crewAt (crewOf n)
  s.modCore n fun c =>
    let x := c.pend.foldl Ctx.applyPending c.ctx
    let x := if adv then x.tick else x
    let x := if run then x.tickShape else x
    { c with
      ctx := x
      pend := [], moved := 0, skip := 0, why := if run && w.samples (c.csc + 1) then [103] else [], ended := true, walkAns := dropAnswers c.moved c.walkAns
      hold := if adv then x.mustHold || c.logFull else c.hold
      csc := if run then c.csc + 1 else c.csc
      dbg := if run then c.dbg.tick (c.csc + 1) else c.dbg
      unit := if counts then c.unit.map fun u => { u with stop := u.stop.map fun p => if p.urgent then { p with clks := p.clks + 1 } else p } else c.unit }

/-- The edge before or after a clock of the current core: none of its words has had its turn, or the clock has closed. -/
def State.atEdge (s : State) (n : CoreId) : Bool :=
  let c := s.coreAt n
  decide (s.cur = n) && ((decide (s.turn = .seat .c) && decide (c.moved ||| c.skip = 0)) || (decide (s.turn = .finish) && c.ended))

/-- The last value of the 64-bit count (R7); device time never decreases (R417), so that it stays there (DESIGN CHOICE, log 76). -/
def timeTop : Nat := 2 ^ 64 - 1

/-- One core clock of device time: 1,000 / f ns, corrected by a servo's ppm, the fraction kept (R7, R396, R417) (DESIGN CHOICE, log 76). -/
def Die.tickAt (d : Die) (ppm : Int) : Die :=
  match d.start with
  | .running =>
    let a := d.acc + 1000 * (1000000 + ppm).toNat
    let f := stepMHz d.clkStep * 1000000
    { d with time := min (d.time + a / f) timeTop, acc := a % f }
  | _ => d

def Die.tickTime (d : Die) : Die := d.tickAt d.ppm

/-- The servo's range. -/
def clampPpm (v : Int) : Int := max (-200) (min 200 v)

/-- Die d follows the package's time source over the bridge (R417). -/
def State.follows (s : State) (d : DieId) : Bool :=
  decide (s.source ≠ d) && decide ((s.die d).start = .running) && decide ((s.die d.other).start = .running)

/-- The frequency at which a follower runs: its source's, corrected toward it within the servo's range; ahead of its source it slews (R417). -/
def State.followPpm (s : State) (d : DieId) : Int :=
  let src := s.die d.other
  clampPpm (src.ppm + (if (s.die d).time < src.time then 200 else if src.time < (s.die d).time then -200 else 0))

/-- Device time of a die after one of its clocks (R7, R417). -/
def State.tickDie (s : State) (d : DieId) : State :=
  if s.follows d then s.modDie d fun x => x.tickAt (s.followPpm d) else s.modDie d Die.tickTime

/-- A follower that is more than 50 ns behind its source (R417). -/
def State.lags (s : State) (d : DieId) : Bool := s.follows d && decide ((s.die d).time + 50 < (s.die d.other).time)

/-- The next core's clock begins; when the last core of a die has had its clock, device time moves on. -/
def State.nextCore (s : State) : State :=
  let n := s.cur
  let s := s.modCore n fun c => { c with ended := false, moved := 0, skip := 0, ctx := { c.ctx with uhandGov := c.ctx.uhand } }
  let s := if dieCore n = 175 then s.tickDie (dieOf n) else s
  { s with free := s.free + 1, cur := ⟨(n.val + 1) % 352, Nat.mod_lt _ (by omega)⟩, turn := .seat .c }

end Sys2Proof.Machine
end

