-- ==== Sys2Proof/Machine/Phases.lean ====
section
/-! DEFINITION. Launches, phases and jobs: their completion counters (R12, R14, R17), the walk of a graph (R319), cancellation (R13), and units that
leave a core (R24, R254). -/

namespace Sys2Proof.Machine

open Sys2Proof

def unitLimit : Nat := 16777216

/-- The next launch id of a die: 1 first, 1 again after 0xFFFF_FFFF, never 0 (R12). -/
def Die.takeLid (d : Die) : Word × Die := (d.lidNext, { d with lidNext := if d.lidNext = 0xFFFFFFFF then 1 else d.lidNext + 1 })

def Die.phase? (d : Die) (phid : Dw) : Option Phase := d.phases.find? fun p => decide (p.phid = phid)

def Die.modPhase (d : Die) (phid : Dw) (f : Phase → Phase) : Die :=
  { d with phases := d.phases.map fun p => if p.phid = phid then f p else p }

def Die.modLaunch (d : Die) (lid : Word) (f : Launch → Launch) : Die :=
  { d with launches := d.launches.map fun l => if l.lid = lid then f l else l }

def Die.kernel? (d : Die) (ctx : Fin 64) (a : Dw) : Option Kernel := d.kernels.find? fun k => decide (k.ctx = ctx) && decide (k.addr = a)

/-- The die whose counters hold a phase (R12): the one that asks, or the other where only that one has it. -/
def State.phaseHome (s : State) (d : DieId) (phid : Dw) : DieId :=
  if ((s.die d).phase? phid).isNone && ((s.die d.other).phase? phid).isSome then d.other else d

/-- Task entries a partition holds on the die (R328). -/
def Die.taskCount (d : Die) (p : Fin 32) : Nat := (d.tasks.filter fun t => decide (t.part = p)).length

/-- The place of a partition's best-effort level among the waiting times. -/
def levelKey (p : Fin 32) (prio : BitVec 4) : Nat := 12 * p.val + prio.toNat

/-- The waiting time of a best-effort level starts again (R330). -/
def Die.levelStart (d : Die) (p : Fin 32) (prio : BitVec 4) : Die :=
  if prio.toNat < 12 then { d with levelSince := setVec d.levelSince (levelKey p prio) fun _ => d.time } else d

/-- Insert a task in its queue: queues 12 to 15 by deadline for a continuation record, otherwise at the tail (R329); a level that had no ready
work waits from now on (R330). -/
def Die.pushTask (d : Die) (t : Task) : Die :=
  let d := if d.tasks.any fun u => decide (u.part = t.part) && decide (u.prio = t.prio) then d else d.levelStart t.part t.prio
  let byDl := (match t.kind with | .cont _ => true | _ => false) && decide (12 ≤ t.prio.toNat)
  if byDl then
    let before := d.tasks.takeWhile fun u => !(decide (u.prio = t.prio) && decide (u.part = t.part) && decide (t.dline.toNat < u.dline.toNat))
    { d with tasks := before ++ t :: d.tasks.drop before.length }
  else { d with tasks := d.tasks ++ [t] }

/-- The pieces of a graph walk: launch a node, count a node complete, or decrement one counter (R319). -/
inductive NodeWork
  | launch (n : Nat)
  | complete (n : Nat)
  | dec (n : Nat)
deriving DecidableEq, Repr


/-- The record of a phase that a rejected node or a CNCL cancels (R13, R319): no further node is launched. -/
def Phase.stopWith (p : Phase) (status : Nat) : Phase :=
  { p with cancelled := true, status := if p.status = 0 then status else p.status }

/-- Hand a node's launch to the unit scheduler as one task entry (R319, R329); its units follow the acquires of the phase and of the slot phases whose
completion has launched the node (R85, R339). -/
def Die.handUnits (d : Die) (p : Phase) (n : Nat) (nd : Node) : Die :=
  let (lid, d) := d.takeLid
  let acq := p.acq ++ (p.nacq.filter fun a => decide (a.1 = n)).map fun a => a.2
  let t : Task := { kind := .launch nd.kdesc nd.argb lid nd.units 0 [], part := p.part, ctx := p.ctx, prio := p.prio, dline := p.dline,
                    phid := p.phid, jid := p.jid, since := d.time, acq := acq }
  let d := d.modPhase p.phid fun q => { q with nst := q.nst.set n .launched, alive := q.alive + nd.units }
  { (d.pushTask t) with launches := d.launches ++ [{ lid := lid, phid := p.phid, total := nd.units, done := 0, node := some n, uidx := 0 }] }

/-- Hand a node's launch on, or let it wait for a free entry behind the launches of its partition that wait already (R319, R329). -/
def Die.launchUnits (d : Die) (share : Nat) (p : Phase) (n : Nat) (nd : Node) : Die :=
  if share ≤ d.taskCount p.part || d.waitLaunch.any (fun w => match d.phase? w.1 with | some q => decide (q.part = p.part) | none => false) then
    { (d.modPhase p.phid fun q => { q with nst := q.nst.set n .queued }) with waitLaunch := d.waitLaunch ++ [(p.phid, n)] }
  else d.handUnits p n nd

/-- One piece of a walk that the completions `acq` of slots have brought; what it leaves to do stands before the rest (R319, R85). -/
def Die.nodeStep (d : Die) (share : Nat) (acq : List (Nat × Nat)) (phid : Dw) (w : NodeWork) : Die × List NodeWork :=
  match d.phase? phid with
  | none => (d, [])
  | some p =>
    match w with
    | .launch n =>
      match p.nodes[n]? with
      | none => (d, [])
      | some nd =>
        if p.cancelled then
          (d.modPhase phid fun q => { q with nst := q.nst.set n .cancelled, ucan := sat32 (q.ucan + nd.units) }, [])
        else if nd.units = 0 then (d, [.complete n])
        else if unitLimit < nd.units then (d.modPhase phid fun q => { q.stopWith 4 with rejected := true }, [.complete n])
        else if (match d.kernel? p.ctx nd.kdesc with | some k => k.crew | none => false) && decide (nd.units % 4 ≠ 0) then
          (d.modPhase phid fun q => { q.stopWith 4 with rejected := true, nst := q.nst.set n .cancelled, ucan := sat32 (q.ucan + nd.units) }, [])
        else
          let more := acq.map fun a => (n, a)
          ((d.modPhase phid fun q => { q with nacq := q.nacq ++ more }).launchUnits share { p with nacq := p.nacq ++ more } n nd, [])
    | .complete n =>
      (d.modPhase phid fun q => { q with nst := q.nst.set n .complete },
       match p.nodes[n]? with | some nd => nd.succ.map NodeWork.dec | none => [])
    | .dec n =>
      if d.badCounters.contains p.graph then (d, []) else
      let c := p.cnt.getD n 0
      (d.modPhase phid fun q => { q with cnt := q.cnt.set n (c - 1) }, if c = 1 then [.launch n] else [])

def Die.runNodes (share : Nat) (acq : List (Nat × Nat)) (phid : Dw) : Nat → Die → List NodeWork → Die
  | 0, d, _ => d
  | _, d, [] => d
  | fuel + 1, d, w :: r => let (d', m) := d.nodeStep share acq phid w; Die.runNodes share acq phid fuel d' (m ++ r)

/-- Fuel for a walk: each node is launched and completed once, each successor decremented once. -/
def Phase.fuel (p : Phase) : Nat := 4 * p.nodes.length + (p.nodes.map fun n => n.succ.length).sum + 4

/-- Walk the graph of a phase with the given work, which the completions `acq` of slots have brought (R319, R85). -/
def State.walk (s : State) (d : DieId) (phid : Dw) (work : List NodeWork) (acq : List (Nat × Nat) := []) : State :=
  match (s.die d).phase? phid with
  | none => s
  | some p => s.setDie d (Die.runNodes (s.part p.part d).share acq phid p.fuel (s.die d) work)

/-- The units of a launch not yet expanded. -/
def Task.pending (t : Task) : Nat :=
  match t.kind with
  | .launch _ _ _ units next skips => units - next - skips.length
  | _ => 1

def Task.lid (t : Task) : Word :=
  match t.kind with | .one _ l => l | .cont r => r.lid | .launch _ _ l _ _ _ => l

/-- Count one finished unit (R12, R14): its launch, its phase, and the node when the launch is complete. -/
def State.unitDone (s : State) (d : DieId) (phid : Dw) (lid : Word) (run fault : Bool) (status : Nat) : State :=
  let s := (s.modDie (s.phaseHome d phid) fun x => x.modPhase phid fun p =>
      { p with urun := if run then sat32 (p.urun + 1) else p.urun, ucan := if run then p.ucan else sat32 (p.ucan + 1),
               faults := if fault then sat32 (p.faults + 1) else p.faults, alive := p.alive - 1,
               status := if status ≠ 0 ∧ p.status = 0 then status else p.status }).modDie d fun x => x.modLaunch lid fun l => { l with done := l.done + 1 }
  match (s.die d).launches.find? fun l => decide (l.lid = lid) with
  | some l =>
    if l.done = l.total then
      match l.node with
      | some n => s.walk d phid [.complete n]
      | none => s.modDie (s.phaseHome d phid) fun x => x.modPhase phid fun p => { p with pushedDone := p.pushedDone + 1 }
    else s
  | none => s

/-- Repeat a count over units that are cancelled at once. -/
def State.cancelUnits (s : State) (d : DieId) (phid : Dw) (lid : Word) : Nat → State
  | 0 => s
  | n + 1 => State.cancelUnits (s.unitDone d phid lid false false 0) d phid lid n

/-- Cancel the ready work a test selects: its task entries go, its units count as cancelled (R13). -/
def State.cancelTasks (s : State) (d : DieId) (sel : Task → Bool) : State :=
  let gone := (s.die d).tasks.filter sel
  let s := s.modDie d fun x => { x with tasks := x.tasks.filter fun t => !sel t }
  gone.foldl (fun s t => s.cancelUnits d t.phid t.lid t.pending) s

/-- Waiters that a test selects leave their slots, whose lines change (R67, R89). -/
def State.dropWaiters (s : State) (gone : Waiter → Bool) : State :=
  s.slots.foldl (fun s t => if t.waiters.any gone then s.modSlot t.pa fun u => { u with waiters := u.waiters.filter fun w => !gone w } else s) s

/-- Discard the parked records a test selects and decrement their slots' waiters (R13). -/
def State.cancelParked (s : State) (d : DieId) (sel : ContRec → Bool) : State :=
  let gone := s.parked.filter fun p => decide (p.die = d) && sel p.record
  let s := s.dropWaiters fun w => gone.any fun p => decide (w = .parked p.id)
  let s := { s with parked := s.parked.filter fun p => !(decide (p.die = d) && sel p.record) }
  gone.foldl (fun s p => s.unitDone d p.record.phid p.record.lid false false 0) s

/-- A copy or a chain walk of the units that a test selects is cancelled (R13). -/
def Copy.cancelIf (hit : Nat → Bool) (k : Copy) : Copy := if hit k.owner then { k with cancel := true } else k

def Chain.cancelIf (hit : Nat → Bool) (h : Chain) : Chain := if hit h.owner then { h with cancel := true } else h

/-- Post a pending cancel for the running units a test selects, count as cancelled those that have left and not retired (R14), and cancel the copies of every
selected unit (R13) (DEDUCED, log 27). -/
def State.cancelRunning (s : State) (d : DieId) (sel : UnitInfo → Bool) : State :=
  let now := (s.die d).time
  { s with cores := Vector.ofFn fun n =>
      let c := s.cores.get n
      if dieOf n ≠ d then c
      else
        let hit (serial : Nat) : Bool :=
          (match c.unit with | some u => decide (u.serial = serial) && sel u | none => false) ||
          (match c.held with | some h => decide (h.unit.serial = serial) && sel h.unit | none => false) ||
          (c.images.any fun x => decide (x.held.unit.serial = serial) && sel x.held.unit) ||
          (c.leaving.any fun l => decide (l.unit.serial = serial) && sel l.unit)
        { c with
          unit := c.unit.map fun u => if sel u then { u with stop := some (match u.stop with
              | some p => if p.why = .cancel then p else { p with why := .cancel, posted := now }
              | none => { why := .cancel, posted := now, urgent := false, clks := 0 }) } else u
          leaving := c.leaving.map fun l => if sel l.unit then { l with cancelled := true } else l
          copies := c.copies.map (Copy.cancelIf hit), latch := c.latch.map (Copy.cancelIf hit), chains := c.chains.map (Chain.cancelIf hit) } }

/-- A core on which a held unit has been cancelled: its stopped patterns count as performed (R13). -/
def Core.dropHeld (c : Core) (u : UnitInfo) : Core :=
  { c with
    ops := c.ops.filter fun o : MemOp => !(decide (o.owner = u.serial) && (match o.kind with | .pattern _ _ | .multicast _ => true | _ => false))
    leaving := c.leaving ++ [{ unit := u, cancelled := true, fault := false, status := 0 }] }

/-- A unit held in a shadow or a swap area that a cancel covers never resumes: it is counted as cancelled when its operations are performed (R13). -/
def State.cancelHeld (s : State) (d : DieId) (sel : UnitInfo → Bool) : State :=
  { s with cores := Vector.ofFn fun n =>
      let c := s.cores.get n
      if dieOf n ≠ d then c
      else
        let c := match c.held with
          | some h => if sel h.unit then { c with held := none, heldq := [] }.dropHeld h.unit else c
          | none => c
        let gone := c.images.filter fun x => sel x.held.unit
        gone.foldl (fun c x => c.dropHeld x.held.unit) { c with images := c.images.filter fun x => !sel x.held.unit } }

/-- Cancel everything a test selects: ready, parked, running and held. -/
def State.cancelAll (s : State) (d : DieId) (phOk : Dw → Bool) (lidOk : Word → Bool) : State :=
  let s := s.cancelTasks d fun t => phOk t.phid && lidOk t.lid
  let s := s.cancelParked d fun r => phOk r.phid && lidOk r.lid
  let s := s.cancelHeld d fun u => phOk u.phid && lidOk u.lid
  s.cancelRunning d fun u => phOk u.phid && lidOk u.lid

/-- Cancel a phase (R13): no further node is launched, waiting launches are counted as cancelled; units that slots of the other die have pushed into it
are reached too (R78). -/
def State.cancelPhase (s : State) (d : DieId) (phid : Dw) (status : Nat) : State :=
  let s := s.modDie d fun x =>
    let waiting := x.waitLaunch.filter fun w => decide (w.1 = phid)
    let x := { x with waitLaunch := x.waitLaunch.filter fun w => decide (w.1 ≠ phid) }
    x.modPhase phid fun p =>
      let p := p.stopWith status
      waiting.foldl (fun p w => { p with nst := p.nst.set w.2 .cancelled,
                                         ucan := sat32 (p.ucan + (match p.nodes[w.2]? with | some n => n.units | none => 0)) }) p
  (s.cancelAll d (fun q => decide (q = phid)) fun _ => true).cancelAll d.other (fun q => decide (q = phid)) fun _ => true

/-- A phase that a rejected node has cancelled during a walk is cancelled with all it holds (R319). -/
def State.sweepPhase (s : State) (d : DieId) (phid : Dw) : State :=
  match (s.die d).phase? phid with
  | some p => if p.rejected then (s.modDie d fun x => x.modPhase phid fun q => { q with rejected := false }).cancelPhase d phid 4 else s
  | none => s

/-- As `sweepPhase`, for every phase of the die. -/
def State.sweepAll (s : State) (d : DieId) : State := (s.die d).phases.foldl (fun s p => s.sweepPhase d p.phid) s

/-- The level and identifier of CNCL, CRD and CANCEL (R12, R153). -/
structure Member where
  level : Nat
  a : Dw
  b : Dw
deriving DecidableEq, Repr

def Member.lid (m : Member) : Word := m.a.setWidth 32

/-- The launch of a member, if its phase belongs to the partition. -/
def State.launchOf (s : State) (d : DieId) (p : Fin 32) (lid : Word) : Option Launch :=
  match (s.die d).launches.find? fun l => decide (l.lid = lid) with
  | some l => match (s.die (s.phaseHome d l.phid)).phase? l.phid with | some ph => if ph.part = p then some l else none | none => none
  | none => none

/-- The unit is still to finish: running, held, leaving, parked, or ready. -/
def State.unitAlive (s : State) (d : DieId) (lid uidx : Word) : Bool :=
  ((s.die d).tasks.any fun t => decide (t.lid = lid) && (match t.kind with
    | .one r _ => decide (r.uidx = uidx)
    | .cont r => decide (r.uidx = uidx)
    | .launch _ _ _ _ next skips => decide (next ≤ uidx.toNat) && !skips.contains uidx.toNat)) ||
  (s.parked.any fun p => decide (p.die = d) && decide (p.record.lid = lid) && decide (p.record.uidx = uidx)) ||
  ((List.finRange 352).any fun n => let c := s.coreAt n
    decide (dieOf n = d) && ((match c.unit with | some u => decide (u.lid = lid) && decide (u.uidx = uidx) | none => false) ||
    (match c.held with | some h => decide (h.unit.lid = lid) && decide (h.unit.uidx = uidx) | none => false) ||
    (c.images.any fun x => decide (x.held.unit.lid = lid) && decide (x.held.unit.uidx = uidx)) ||
    (c.leaving.any fun l => decide (l.unit.lid = lid) && decide (l.unit.uidx = uidx))))

/-- Cancel one unit of a launch (R13, level 0). -/
def State.cancelUnit (s : State) (d : DieId) (l : Launch) (uidx : Word) : State :=
  let s := s.cancelTasks d fun t => match t.kind with
    | .one r lid => decide (lid = l.lid) && decide (r.uidx = uidx)
    | .cont r => decide (r.lid = l.lid) && decide (r.uidx = uidx)
    | .launch _ _ _ _ _ _ => false
  let hit := (s.die d).tasks.any fun t => match t.kind with
    | .launch _ _ lid units next skips => decide (lid = l.lid) && decide (next ≤ uidx.toNat) && decide (uidx.toNat < units) && !skips.contains uidx.toNat
    | _ => false
  let s := if hit then
      let skipOne (t : Task) : Task := match t.kind with
        | .launch k a lid units next skips => if lid = l.lid then { t with kind := .launch k a lid units next (skips ++ [uidx.toNat]) } else t
        | _ => t
      (s.modDie d fun x => { x with tasks := (x.tasks.map skipOne).filter fun t => decide (t.pending ≠ 0) }).unitDone d l.phid l.lid false false 0
    else s
  let s := s.cancelParked d fun r => decide (r.lid = l.lid) && decide (r.uidx = uidx)
  let s := s.cancelHeld d fun u => decide (u.lid = l.lid) && decide (u.uidx = uidx)
  s.cancelRunning d fun u => decide (u.lid = l.lid) && decide (u.uidx = uidx)

/-- A phase that a cancel of one of its members affects reports status 1, unless it has a status already (R13)
(DEDUCED, log 36). -/
def State.affected (s : State) (d : DieId) (phid : Dw) (hit : Bool) : State :=
  if hit then s.modDie (s.phaseHome d phid) fun x => x.modPhase phid fun p => { p with status := if p.status = 0 then 1 else p.status } else s

/-- The stream entries of a test go, with their waiters on their input slots (R336, R338). -/
def State.dropCox (s : State) (d : DieId) (gone : Cox → Bool) : State :=
  let es := ((s.die d).cox.filter gone).map fun k => k.e
  let stale : Waiter → Bool
    | .cox w e => decide (w = d) && es.contains e
    | _ => false
  let s := s.dropWaiters stale
  let mine (o : Option Nat) : Option Nat := o.filter fun e => !es.contains e
  let free (z : Session) : Session := { z with fstr := mine z.fstr, sstr := mine z.sstr }
  s.modDie d fun x => { x with cox := x.cox.filter (fun k => !gone k), sessions := x.sessions.map free }

/-- The cancelled member (R13, R14, R153): a member that does not exist, or lies outside the partition, is left alone (DEDUCED, log 21). -/
def State.cancelLevel (s : State) (d : DieId) (p : Fin 32) (m : Member) : State :=
  match m.level with
  | 0 => match s.launchOf d p m.lid with
    | some l => (s.affected d l.phid (s.unitAlive d l.lid (m.b.setWidth 32))).cancelUnit d l (m.b.setWidth 32)
    | none => s
  | 1 => match s.launchOf d p m.lid with
    | some l => (s.affected d l.phid (decide (l.done < l.total))).cancelAll d (fun q => decide (q = l.phid)) fun i => decide (i = l.lid)
    | none => s
  | 2 =>
    let g := m.a.toNat % 2 ^ 32
    let s := ((s.die d).phases.filter fun ph => decide (ph.graph = g) && decide (ph.part = p)).foldl (fun s ph => s.cancelPhase d ph.phid 1) s
    s.modDie d fun x => { x with queuedPh := x.queuedPh.map fun q =>
      if q.graph = g ∧ q.cmd.part = p then { q with kill := 1 } else q }
  | 3 => match (s.die d).phase? m.a with
    | some ph => if ph.part = p then s.cancelPhase d ph.phid 1 else s
    | none => s
  | 4 => match (s.die d).jobs.find? fun j => decide (j.jid = m.lid) && decide (j.part = p) with
    | some j =>
      let s := ((s.die d).phases.filter fun ph => decide (ph.jid = j.jid) && decide (ph.part = p)).foldl (fun s ph => s.cancelPhase d ph.phid 1) s
      let s := s.modDie d.other fun x => { x with peers := x.peers.filter fun k => !(decide (k.jid = j.jid) && decide (k.part = p)) }
      (s.dropCox d fun k => decide (k.jid = j.jid) && decide (k.part = p)).modDie d fun x => { x with
        queuedPh := x.queuedPh.map fun q => if q.jid = j.jid ∧ q.cmd.part = p then { q with kill := 1 } else q }
    | none => s
  | _ => s

/-- CNCL and CANCEL (R13, R14, R153): as `cancelLevel`, with the phases that a walk of it has rejected a node of. -/
def State.cancelMember (s : State) (d : DieId) (p : Fin 32) (m : Member) : State := (s.cancelLevel d p m).sweepAll d

/-- The completion state of a level (R154) (DEDUCED, log 21). -/
def crdWord (done total : Nat) (fixed : Bool) : Dw :=
  BitVec.ofNat 64 (done % 2 ^ 32 + (if fixed then total % 2 ^ 31 else 0x7FFFFFFF) * 2 ^ 32)

def crdAbsent : Dw := BitVec.ofNat 64 (2 ^ 63)

def Phase.graphDone (p : Phase) : Bool := p.nst.all fun t => decide (t = .complete) || decide (t = .cancelled)

/-- The read of a completion counter at its home (R12, R154) (DEDUCED, log 21). -/
def State.readMember (s : State) (d : DieId) (p : Fin 32) (m : Member) : Dw :=
  match m.level with
  | 0 => match s.launchOf d p m.lid with
    | some l => if (if l.node.isSome then m.b.toNat % 2 ^ 32 < l.total else m.b.setWidth 32 = l.uidx) then
        crdWord (if s.unitAlive d l.lid (m.b.setWidth 32) then 0 else 1) 1 true else crdAbsent
    | none => crdAbsent
  | 1 => match s.launchOf d p m.lid with
    | some l => crdWord l.done l.total true
    | none => crdAbsent
  | 2 => match (s.die d).phases.find? fun ph => decide (ph.graph = m.a.toNat % 2 ^ 32) && decide (ph.part = p) with
    | some ph => crdWord ((ph.nst.filter fun t => decide (t = .complete) || decide (t = .cancelled)).length) ph.nodes.length true
    | none => crdAbsent
  | 3 => match (s.die d).phase? m.a with
    | some ph => if ph.part = p then crdWord ((if ph.graphDone then 1 else 0) + ph.pushedDone) (1 + ph.pushed) (decide (ph.alive = 0)) else crdAbsent
    | none => crdAbsent
  | 4 => match (s.die d).jobs.find? fun j => decide (j.jid = m.lid) && decide (j.part = p) with
    | some j => crdWord j.done j.total (!j.isOpen)
    | none => crdAbsent
  | _ => crdAbsent

/-! ## A unit leaves its core -/

/-- The engine as EXIT leaves it: the running operation goes to its next group boundary and ends, the waiting one and the entries not yet pushed
are discarded (R232). -/
def Engine.atExit (e : Engine) : Engine :=
  { e with opq := [], running := false, spanDone := false, dbusy := false, halt := false, jrun := false }

/-- The engine as the end of a unit of the crew leaves it: the joint operation stops and is removed, and nothing more of it is drained, of an earlier span
neither (R232, R254) (DESIGN CHOICE, log 75). -/
def Engine.jointStops (e : Engine) : Engine :=
  if !e.jrun then e
  else
    let e := { e with jrun := false, dbusy := e.dbusy && !e.jdrain }
    if e.jmoved then e else { e with opq := e.opq.tail, running := false, spanDone := false }

/-- TVAL of a joint operation's trap: its number, its leader and the member (R254). -/
def jointTval (j : Word) (n : CoreId) : Dw := fld 0 j.toNat ||| fld 32 (j.toNat % 4) ||| fld 34 (crewPos n).val

/-- A unit of the crew leaves while a joint operation runs: it stops in all four engines, and the other members' M seats trap "joint without crew" at its
MMAJ (R254). -/
def State.jointLeave (s : State) (n : CoreId) : State :=
  if !(s.coreAt n).ctx.eng.jrun then s
  else
    [(0 : Fin 4), 1, 2, 3].foldl (fun s p =>
      let m := crewCore (crewOf n) p
      let e := (s.coreAt m).ctx.eng
      let s := s.modCtx m fun x => { x with eng := x.eng.jointStops }
      if m = n ∨ !e.jrun then s else s.raise m .m .jointWithoutCrew (jointTval (e.jcnt - 1) m) e.jaddr true) s

/-- The unit leaves its core: the trace's unit event, where there is one (R379), and the end of the replay log (R389). -/
def State.endOn (s : State) (n : CoreId) (event : Nat) : State :=
  (if event = 0 then s else s.traceUnitOf n event 0).logEntry n 6 .c 0 0 []

/-- The unit's seats halt and its core is free; it counts when its operations are performed (R13, R24, R152). -/
def State.leaveUnit (s : State) (n : CoreId) (cancelled fault : Bool) (status : Nat) : State :=
  let s := ((s.withdrawAwait n).jointLeave n).endOn n (if cancelled && !fault then 0 else 4)
  s.modCore n fun c =>
    match c.unit with
    | none => c
    | some u =>
      { c with
        unit := none, handler := none, hold := false, frozen := none, efq := []
        leaving := c.leaving ++ [{ unit := u, cancelled := cancelled, fault := fault, status := status }]
        copies := c.copies.map (Copy.cancelIf fun n => cancelled && decide (n = u.serial))
        latch := c.latch.map (Copy.cancelIf fun n => cancelled && decide (n = u.serial))
        chains := c.chains.map (Chain.cancelIf fun n => cancelled && decide (n = u.serial))
        ctx := { c.ctx with
          seats := c.ctx.seats.map fun t => { t with act := false, cause := none, loop := none, strk := false, dslots := 0, dtaken := false }
          inflight := [], park := none, await := none, shape := none, eng := c.ctx.eng.atExit } }

end Sys2Proof.Machine
end

