-- ==== Sys2Proof/Machine/Operands.lean ====
section
/-! DEFINITION. Operand forms of the C, A and M seats: extended immediates (R122), branch targets (R121), and the effective address of the memory
formats (R163). The vector operands are in Vec.lean. -/

namespace Sys2Proof.Machine

open Sys2Proof

/-- Sign-extended immediate (R122). -/
def sx {w : Nat} (v : BitVec w) : Dw := v.signExtend 64

/-- Zero-extended immediate (R122). -/
def zx {w : Nat} (v : BitVec w) : Dw := v.setWidth 64

/-- The address of the word at the head of a seat of the current core. -/
def State.pcOf (s : State) (k : SeatId) : Dw := ((s.coreAt s.cur).ctx.seat k).pc

/-- A + 4 × sext(disp) (R121). -/
def target {w : Nat} (a : Dw) (disp : BitVec w) : Dw := a + 4 * sx disp

/-- sext(imm18) << 13 (R122, R144). -/
def luiVal (imm : BitVec 18) : Dw := sx imm <<< 13

/-- A branch verdict (R35, R146). -/
def branchV (s : State) (taken : Bool) (t : Dw) : Verdict := .go s (.branch taken t)

/-- ea = a[b] + sext(off7) × unit, modulo 2^64 (R163). -/
def State.ea (s : State) (b : BitVec 5) (off : BitVec 7) (unit : Nat) : Dw := s.rdA 1 b + sx off * BitVec.ofNat 64 unit

/-- A queue of the current core. -/
def State.queueAt (s : State) (q : BitVec 3) : Queue := (s.coreAt s.cur).ctx.queue q

end Sys2Proof.Machine
end

