-- ==== Sys2Proof/Machine/CSeat.lean ====
section
/-! DEFINITION. The C seat (R142 to R160): scalar arithmetic, control transfer, loops, the life of a unit, system registers. -/

namespace Sys2Proof.Machine

open Sys2Proof

/-! ## Arithmetic (R142, R143) -/

def mulHigh (a b : Dw) : Dw := (a.signExtend 128 * b.signExtend 128).extractLsb' 64 64

def mulHighU (a b : Dw) : Dw := (a.setWidth 128 * b.setWidth 128).extractLsb' 64 64

/-- Signed quotient, truncated toward zero; −1 for b = 0 (R143). -/
def divS (a b : Dw) : Dw := if b = 0 then BitVec.allOnes 64 else BitVec.ofInt 64 (a.toInt.tdiv b.toInt)

def divU (a b : Dw) : Dw := if b = 0 then BitVec.allOnes 64 else BitVec.ofNat 64 (a.toNat / b.toNat)

/-- a − b × DIV(a, b): the sign of a nonzero result is that of a; a for b = 0 (R143). -/
def remS (a b : Dw) : Dw := if b = 0 then a else BitVec.ofInt 64 (a.toInt.tmod b.toInt)

/-- A result of CRD, TIME or SYSR, which the replay log records (R389). -/
def State.sendExt (s : State) (d : BitVec 5) (v : Dw) (lat : Nat) : State :=
  s.sendR { mkResult .c (.c d) (v.setWidth 8192) lat with ext := true }

/-- A register form: both operands are read, the result lands after `lat` clocks (R142, R145). -/
def aluC (d a b : BitVec 5) (lat : Nat) (f : Dw → Dw → Dw) (s : State) : Verdict := .go (s.sendC d (f (s.rdC 0 a) (s.rdC 1 b)) lat) .seq

/-- An immediate form, 1 clk (R144, R145). -/
def aluCI (d a : BitVec 5) (f : Dw → Dw) (s : State) : Verdict := .go (s.sendC d (f (s.rdC 0 a)) 1) .seq

def branchC (a b : BitVec 5) (imm : BitVec 13) (f : Dw → Dw → Bool) (s : State) : Verdict :=
  branchV s (f (s.rdC 0 a) (s.rdC 1 b)) (target (s.pcOf .c) imm)

/-- An effect left for the end of the clock. -/
def State.pendF (s : State) (p : Pending) : State := s.modCore s.cur fun c => { c with pend := c.pend ++ [p] }

/-! ## Loops and the life of a unit -/

/-- LSET: "loop trip" where the value is negative or above 2^32 − 1, "loop busy" on a register a running loop uses (R148). -/
def lsetV (d a : BitVec 5) (imm : BitVec 13) (s : State) : Verdict :=
  let v := s.rdC 0 a + sx imm
  let l : BitVec 3 := d.setWidth 3
  if 2 ^ 32 ≤ v.toNat then .trap .loopTrip 0
  else if (s.coreAt s.cur).loopOn l then .trap .loopBusy 0
  else .go (s.sendR (mkResult .c (.l l) ((zx (v.setWidth 32)).setWidth 8192) 1)) .seq

/-- The identities of the operations the A seat has issued and that are not performed. -/
def Core.opIds (c : Core) : List Nat :=
  match c.unit with
  | some u => (c.ops.filter fun o : MemOp => decide (o.owner = u.serial)).map fun o => o.id
  | none => []

/-- SPAWN in a handler is undefined (R350); otherwise the read of the record is left to SPAWN_PUSH, after the operations issued before (R150). -/
def spawnV (a : BitVec 5) (s : State) : Verdict :=
  let c := s.coreAt s.cur
  match c.handler, c.unit with
  | none, some u =>
    if s.playing s.cur then .go s .seq else
    let s := { s with nextId := s.nextId + 1 }.modCore s.cur fun c => { c with spawns := c.spawns ++ [(s.nextId, s.rdC 0 a, u, c.opIds)] }
    .go s .seq
  | _, _ => .trap .undefinedInstruction 0

/-- Bits set in a mask. -/
def popCount {w : Nat} (v : BitVec w) : Nat := ((List.range w).filter fun i => v.getLsbD i).length

/-- PARK: undefined in a handler (R350); "park mask" with more than sixteen registers or c0 (R20); "crew" in a crew unit (R331). -/
def parkV (a b : BitVec 5) (fn : BitVec 1) (s : State) : Verdict :=
  let c := s.coreAt s.cur
  let mask : Word := (s.rdC 1 b).setWidth 32
  match c.handler, c.unit with
  | none, some u =>
    if 16 < popCount mask ∨ mask.getLsbD 0 then .trap .parkMask 0
    else if u.crew then .trap .crew 0
    else
      let p : ParkWait := { pc := s.pcOf .c, slotVa := s.rdC 0 a, phase := fn, mask := mask, polling := false }
      .go (s.modCtx s.cur fun x => { x with park := some p }) (.branch false 0)
  | _, _ => .trap .undefinedInstruction 0

/-- EXIT: the seats halt at the end of the clock; in the supervisor handler the unit is cancelled with a fault, in the user handler it is a
handler fault (R24, R152, R352). A pending cancel takes the unit here (R13). -/
def exitV (s : State) : Verdict :=
  let c := s.coreAt s.cur
  match c.handler with
  | some h => if h.sup then .go (s.pendF (.leave true true)) .stay else .trap .handlerFault 0
  | none =>
    let cancelled := match c.unit with | some u => (match u.stop with | some p => decide (p.why = .cancel) | none => false) | none => false
    .go (s.pendF (.leave cancelled false)) .seq

/-- The member that CNCL and CRD name (R153). -/
def State.member (s : State) (a b : BitVec 5) (fn : BitVec 3) : Member := { level := fn.toNat, a := s.rdC 0 a, b := s.rdC 1 b }

/-- The question of a CRD goes to the counter's home (R154). -/
def State.askCrd (s : State) (m : Member) : State :=
  { s.modCore s.cur fun c => { c with crds := c.crds ++ [{ op := s.nextId, level := m.level, a := m.a, b := m.b, part := s.partOn s.cur }] } with
    nextId := s.nextId + 1 }

def cnclV (a b : BitVec 5) (fn : BitVec 3) (s : State) : Verdict :=
  .go (if s.playing s.cur then s else s.cancelMember (dieOf s.cur) (s.partOn s.cur) (s.member a b fn)) .seq

/-- CRD: the counter is read at its home at a later point, in OPERATION_PERFORMED, and a late answer holds the core (R145, R154); a play run has the value
from its log (R390). -/
def crdV (d a b : BitVec 5) (fn : BitVec 3) (s : State) : Verdict :=
  if s.playing s.cur then .go (s.sendExt d 0 64) .seq
  else .go ((s.askCrd (s.member a b fn)).sendR { mkResult .c (.c d) 0 64 with ext := true, ready := false, op := s.nextId }) .seq

/-! ## System registers (R155, R358) -/

/-- Registers 13 to 16 hold values while a handler runs and read as zero otherwise; 257 to 266 are a handler's (R155, R358). -/
def Handler.sysReg (h : Handler) (c : Core) (i : Nat) : Dw :=
  match i with
  | 13 => zx h.cause.code
  | 14 => h.tpc
  | 15 => h.tval
  | 16 => BitVec.ofNat 64 h.tseat.toNat
  | 257 => fld 0 h.orig.code.toNat ||| fld 8 h.dcode.toNat ||| fld 16 (bit h.esc)
  | 258 => BitVec.ofNat 64 c.fidx
  | 259 => h.shadowAt c.ctx c.fidx
  | 260 => BitVec.ofNat 64 h.efinfo
  | 261 => BitVec.ofNat 64 c.efq.length
  | 266 => c.svreply
  | _ => 0

/-- The greatest index into the shadow: over the frame, after a SAVE over every area (R358). -/
def Handler.fidxMax (h : Handler) : Nat := if h.saveWritten then 29439 else 4095

/-- The value SYSR reads, FDATA beyond what stands in the shadow being a free value (DESIGN CHOICE, log 60); none for a number that is no register or may not
be read in the present mode. -/
def State.sysRead (s : State) (i : Nat) : Except Cause Dw :=
  let c := s.coreAt s.cur
  let sup := match c.handler with | some h => h.sup | none => false
  match c.unit with
  | none => .error .undefinedInstruction
  | some u =>
    if i ≤ 16 then
      .ok (match i with
      | 0 => BitVec.ofNat 64 s.cur.val
      | 1 => BitVec.ofNat 64 (u.ctx.val + 256 * u.part.val)
      | 2 => BitVec.ofNat 64 (bit sup + 2 * bit c.handler.isSome)
      | 3 => u.phid
      | 4 => zx u.jid
      | 5 => zx u.lid
      | 6 => zx u.prio
      | 7 => u.dline
      | 8 => c.csc
      | 9 => zx (packBind (c.ctx.seat .a).osb)
      | 10 => packU16 c.ctx.osiss
      | 11 => packU16 c.ctx.osprf
      | 12 => c.ctx.uhand
      | n => match c.handler with | some h => h.sysReg c n | none => 0)
    else if 256 ≤ i ∧ i ≤ 1023 then
      if !sup then .error .privilege
      else if 266 < i then .error .undefinedInstruction
      else .ok (match i, c.handler with
        | 256, _ => (s.contextOf s.cur u.ctx).ctxd
        | 259, some h => if h.fidxMax < c.fidx then Config.freeDw s.free 659 else h.sysReg c 259
        | n, some h => h.sysReg c n
        | _, none => 0)
    else .error .undefinedInstruction

def State.modHandler (s : State) (n : CoreId) (f : Handler → Handler) : State := s.modCore n fun c => { c with handler := c.handler.map f }

/-- FDATA through SYSR: FIDX rises in the FDATA step (R358) (DEDUCED, log 14). -/
def sysrV (d : BitVec 5) (sys : BitVec 13) (s : State) : Verdict :=
  match s.sysRead sys.toNat with
  | .error c => .trap c 0
  | .ok v =>
    let s := if sys.toNat = 259 then s.modHandler s.cur fun h => { h with req := some (.fdata none) } else s
    .go (s.sendExt d v 2) .seq

/-- A ring header is bad (R191): a field outside its range, a reserved value, a misaligned address. -/
def ringBad (h : BitVec 512) : Bool :=
  let lsize := (h.extractLsb' 128 8).toNat
  let ssz := (h.extractLsb' 136 16).toNat
  let ncons := (h.extractLsb' 216 7).toNat
  let nseg := (h.extractLsb' 256 64).toNat
  let nl := (h.extractLsb' 320 8).toNat
  decide ((h.extractLsb' 64 64).toNat % 64 ≠ 0) || decide (lsize = 0) || decide (24 < lsize) || decide (ssz < 2) || decide (4096 < ssz) ||
  decide ((h.extractLsb' 152 64).toNat % 64 ≠ 0) || decide (ncons = 0) || decide (64 < ncons) || decide (2 ≤ (h.extractLsb' 223 2).toNat) ||
  decide (h.extractLsb' 225 31 ≠ 0) || decide (nseg % 64 ≠ 0) || (decide (nseg ≠ 0) && (decide (nl ≤ lsize) || decide (24 < nl))) ||
  decide (h.extractLsb' 328 56 ≠ 0) || decide (h.extractLsb' 448 64 ≠ 0)

/-- The service ring of the context can take a record (R361). -/
def State.svcRingOk (s : State) (n : CoreId) : Bool :=
  let x := s.contextOf n (s.ctxOn n)
  if x.svring = 0 then false
  else match translateNow s n (s.ctxOn n) (s.partOn n) true needRw (decide (x.svring.toNat % 64 ≠ 0)) x.svring 64 with
    | .ok pa => !ringBad (s.recAt pa)
    | _ => false

/-- SYSW (R156, R358): a read-only register is undefined; UHAND lands after 1 clk with bits [1:0] zero; INVAL, CPYRES, SAVE and SVREQ act in the
steps that carry their names while C waits (DEDUCED, log 14). -/
def syswV (a : BitVec 5) (sys : BitVec 13) (s : State) : Verdict :=
  let c := s.coreAt s.cur
  let v := s.rdC 0 a
  let i := sys.toNat
  let sup := match c.handler with | some h => h.sup | none => false
  let req (r : SysReq) : Verdict := .go (s.modHandler s.cur fun h => { h with req := some r }) .seq
  if i = 12 then .go (s.sendR (mkResult .c (.sys 12) (v.setWidth 8192) 1)) .seq
  else if 256 ≤ i ∧ i ≤ 1023 then
    if !sup then .trap .privilege 0
    else match i with
      | 258 =>
        let lim := match c.handler with | some h => h.fidxMax | none => 0
        .go (if v.toNat ≤ lim then s.modCore s.cur fun c => { c with fidx := v.toNat } else s) .seq
      | 259 => req (.fdata (some v))
      | 262 => if v.extractLsb' 0 2 = 3 ∨ v.extractLsb' 2 10 ≠ 0 ∨ v.extractLsb' 57 7 ≠ 0 then .trap .undefinedInstruction 0 else req (.inval v)
      | 263 => req (.cpyres v)
      | 264 => if v = 1 then req (.save v) else .go s .seq
      | 265 => if s.svcRingOk s.cur then req (.svreq v) else .trap .handlerFault 0
      | _ => .trap .undefinedInstruction 0
  else .trap .undefinedInstruction 0

/-- The seats whose loop a write has brought into being get it from its MLOOP word, which stands at the seat's pc once its epilogue has ended, else before
its body (R39, R355) (DEDUCED, log 23). -/
def State.adoptLoop (s : State) (n : CoreId) (k : SeatId) : State :=
  let t := (s.coreAt n).ctx.seat k
  match t.loop with
  | none => s
  | some lp =>
    if lp.len ≠ 0 then s
    else
      let head := if lp.lepi && !lp.lmid then t.pc else t.pc - BitVec.ofNat 64 (4 + 4 * lp.pos)
      match translateNow s n (s.ctxOn n) (s.partOn n) false needRd false head 4 with
      | .ok pa => match decode k (s.instrAt n pa) with
        | .ok (.mloop st _ m stg ms) =>
          let trip := (((s.coreAt n).ctx.l.get lp.reg.toFin).setWidth 32).toNat
          s.modCtx n fun x => x.modSeat k fun t =>
            { t with loop := some { lp with len := m.toNat + 1, stage := stg.toNat, ms := ms.toNat, head := head, trip := trip, group := st } }
        | _ => s
      | _ => s

def State.adoptLoops (s : State) (n : CoreId) : State := [SeatId.c, .a, .v, .m].foldl (fun s k => s.adoptLoop n k) s

/-- RFT: "return" where no handler runs; it waits for the handler's results and for dumped loads whose landing comes next (R158, R352). A frame that an
uncorrectable error has reached cancels the unit (R363). -/
def rftV (s : State) : Verdict :=
  let c := s.coreAt s.cur
  match c.handler with
  | none => .trap .return_ 0
  | some h =>
    if c.ctx.inflight ≠ [] ∨ h.saved.awaitsDump then .stall s
    else if h.bad then .go (s.pendF .lost) .stay
    else .go (((s.returnTrap s.cur h).adoptLoops s.cur).traceUnitOf s.cur 8 0) .stay

/-! ## The words -/

/-- ADD (R142): a + b modulo 2^64. -/
def vAdd (d a b : BitVec 5) (s : State) : Verdict :=
  aluC d a b 1 (fun a b => a + b) s

/-- ADD (R142): a + b modulo 2^64. -/
def execAdd (st : Bool) (d a b : BitVec 5) (s : State) : Host.Outcome State Fault Refusal :=
  issue .c st (.add st d a b) (vAdd d a b s) s

/-- SUB (R142). -/
def vSub (d a b : BitVec 5) (s : State) : Verdict :=
  aluC d a b 1 (fun a b => a - b) s

/-- SUB (R142). -/
def execSub (st : Bool) (d a b : BitVec 5) (s : State) : Host.Outcome State Fault Refusal :=
  issue .c st (.sub st d a b) (vSub d a b s) s

/-- MUL (R142): bits [63:0] of the product. -/
def vMul (d a b : BitVec 5) (s : State) : Verdict :=
  aluC d a b 3 (fun a b => a * b) s

/-- MUL (R142): bits [63:0] of the product. -/
def execMul (st : Bool) (d a b : BitVec 5) (s : State) : Host.Outcome State Fault Refusal :=
  issue .c st (.mul st d a b) (vMul d a b s) s

/-- MULH (R142): bits [127:64], both signed. -/
def vMulh (d a b : BitVec 5) (s : State) : Verdict :=
  aluC d a b 3 (fun a b => mulHigh a b) s

/-- MULH (R142): bits [127:64], both signed. -/
def execMulh (st : Bool) (d a b : BitVec 5) (s : State) : Host.Outcome State Fault Refusal :=
  issue .c st (.mulh st d a b) (vMulh d a b s) s

/-- MULHU (R142): bits [127:64], both unsigned. -/
def vMulhu (d a b : BitVec 5) (s : State) : Verdict :=
  aluC d a b 3 (fun a b => mulHighU a b) s

/-- MULHU (R142): bits [127:64], both unsigned. -/
def execMulhu (st : Bool) (d a b : BitVec 5) (s : State) : Host.Outcome State Fault Refusal :=
  issue .c st (.mulhu st d a b) (vMulhu d a b s) s

/-- DIV (R142, R143). -/
def vDiv (d a b : BitVec 5) (s : State) : Verdict :=
  aluC d a b 18 (fun a b => divS a b) s

/-- DIV (R142, R143). -/
def execDiv (st : Bool) (d a b : BitVec 5) (s : State) : Host.Outcome State Fault Refusal :=
  issue .c st (.div st d a b) (vDiv d a b s) s

/-- DIVU (R142, R143). -/
def vDivu (d a b : BitVec 5) (s : State) : Verdict :=
  aluC d a b 18 (fun a b => divU a b) s

/-- DIVU (R142, R143). -/
def execDivu (st : Bool) (d a b : BitVec 5) (s : State) : Host.Outcome State Fault Refusal :=
  issue .c st (.divu st d a b) (vDivu d a b s) s

/-- REM (R142, R143). -/
def vRem (d a b : BitVec 5) (s : State) : Verdict :=
  aluC d a b 18 (fun a b => remS a b) s

/-- REM (R142, R143). -/
def execRem (st : Bool) (d a b : BitVec 5) (s : State) : Host.Outcome State Fault Refusal :=
  issue .c st (.rem st d a b) (vRem d a b s) s

/-- AND (R142). -/
def vAnd (d a b : BitVec 5) (s : State) : Verdict :=
  aluC d a b 1 (fun a b => a &&& b) s

/-- AND (R142). -/
def execAnd (st : Bool) (d a b : BitVec 5) (s : State) : Host.Outcome State Fault Refusal :=
  issue .c st (.and st d a b) (vAnd d a b s) s

/-- OR (R142). -/
def vOr (d a b : BitVec 5) (s : State) : Verdict :=
  aluC d a b 1 (fun a b => a ||| b) s

/-- OR (R142). -/
def execOr (st : Bool) (d a b : BitVec 5) (s : State) : Host.Outcome State Fault Refusal :=
  issue .c st (.or st d a b) (vOr d a b s) s

/-- XOR (R142). -/
def vXor (d a b : BitVec 5) (s : State) : Verdict :=
  aluC d a b 1 (fun a b => a ^^^ b) s

/-- XOR (R142). -/
def execXor (st : Bool) (d a b : BitVec 5) (s : State) : Host.Outcome State Fault Refusal :=
  issue .c st (.xor st d a b) (vXor d a b s) s

/-- SHL (R142): by b[5:0]. -/
def vShl (d a b : BitVec 5) (s : State) : Verdict :=
  aluC d a b 1 (fun a b => a <<< (b.toNat % 64)) s

/-- SHL (R142): by b[5:0]. -/
def execShl (st : Bool) (d a b : BitVec 5) (s : State) : Host.Outcome State Fault Refusal :=
  issue .c st (.shl st d a b) (vShl d a b s) s

/-- SHR (R142): zero fill. -/
def vShr (d a b : BitVec 5) (s : State) : Verdict :=
  aluC d a b 1 (fun a b => a >>> (b.toNat % 64)) s

/-- SHR (R142): zero fill. -/
def execShr (st : Bool) (d a b : BitVec 5) (s : State) : Host.Outcome State Fault Refusal :=
  issue .c st (.shr st d a b) (vShr d a b s) s

/-- SAR (R142): sign fill. -/
def vSar (d a b : BitVec 5) (s : State) : Verdict :=
  aluC d a b 1 (fun a b => a.sshiftRight (b.toNat % 64)) s

/-- SAR (R142): sign fill. -/
def execSar (st : Bool) (d a b : BitVec 5) (s : State) : Host.Outcome State Fault Refusal :=
  issue .c st (.sar st d a b) (vSar d a b s) s

/-- MIN (R142), signed. -/
def vMin (d a b : BitVec 5) (s : State) : Verdict :=
  aluC d a b 1 (fun a b => if a.slt b then a else b) s

/-- MIN (R142), signed. -/
def execMin (st : Bool) (d a b : BitVec 5) (s : State) : Host.Outcome State Fault Refusal :=
  issue .c st (.min st d a b) (vMin d a b s) s

/-- MAX (R142), signed. -/
def vMax (d a b : BitVec 5) (s : State) : Verdict :=
  aluC d a b 1 (fun a b => if a.slt b then b else a) s

/-- MAX (R142), signed. -/
def execMax (st : Bool) (d a b : BitVec 5) (s : State) : Host.Outcome State Fault Refusal :=
  issue .c st (.max st d a b) (vMax d a b s) s

/-- SLT (R142), signed. -/
def vSlt (d a b : BitVec 5) (s : State) : Verdict :=
  aluC d a b 1 (fun a b => if a.slt b then 1 else 0) s

/-- SLT (R142), signed. -/
def execSlt (st : Bool) (d a b : BitVec 5) (s : State) : Host.Outcome State Fault Refusal :=
  issue .c st (.slt st d a b) (vSlt d a b s) s

/-- SLTU (R142), unsigned. -/
def vSltu (d a b : BitVec 5) (s : State) : Verdict :=
  aluC d a b 1 (fun a b => if a.ult b then 1 else 0) s

/-- SLTU (R142), unsigned. -/
def execSltu (st : Bool) (d a b : BitVec 5) (s : State) : Host.Outcome State Fault Refusal :=
  issue .c st (.sltu st d a b) (vSltu d a b s) s

/-- ADDI (R144). -/
def vAddi (d a : BitVec 5) (imm : BitVec 13) (s : State) : Verdict :=
  aluCI d a (fun a => a + sx imm) s

/-- ADDI (R144). -/
def execAddi (st : Bool) (d a : BitVec 5) (imm : BitVec 13) (s : State) : Host.Outcome State Fault Refusal :=
  issue .c st (.addi st d a imm) (vAddi d a imm s) s

/-- ANDI (R144), zero-extended. -/
def vAndi (d a : BitVec 5) (imm : BitVec 13) (s : State) : Verdict :=
  aluCI d a (fun a => a &&& zx imm) s

/-- ANDI (R144), zero-extended. -/
def execAndi (st : Bool) (d a : BitVec 5) (imm : BitVec 13) (s : State) : Host.Outcome State Fault Refusal :=
  issue .c st (.andi st d a imm) (vAndi d a imm s) s

/-- ORI (R144). -/
def vOri (d a : BitVec 5) (imm : BitVec 13) (s : State) : Verdict :=
  aluCI d a (fun a => a ||| zx imm) s

/-- ORI (R144). -/
def execOri (st : Bool) (d a : BitVec 5) (imm : BitVec 13) (s : State) : Host.Outcome State Fault Refusal :=
  issue .c st (.ori st d a imm) (vOri d a imm s) s

/-- XORI (R144). -/
def vXori (d a : BitVec 5) (imm : BitVec 13) (s : State) : Verdict :=
  aluCI d a (fun a => a ^^^ zx imm) s

/-- XORI (R144). -/
def execXori (st : Bool) (d a : BitVec 5) (imm : BitVec 13) (s : State) : Host.Outcome State Fault Refusal :=
  issue .c st (.xori st d a imm) (vXori d a imm s) s

/-- SHLI (R144). -/
def vShli (d a : BitVec 5) (imm : BitVec 6) (s : State) : Verdict :=
  aluCI d a (fun a => a <<< imm.toNat) s

/-- SHLI (R144). -/
def execShli (st : Bool) (d a : BitVec 5) (imm : BitVec 6) (s : State) : Host.Outcome State Fault Refusal :=
  issue .c st (.shli st d a imm) (vShli d a imm s) s

/-- SHRI (R144). -/
def vShri (d a : BitVec 5) (imm : BitVec 6) (s : State) : Verdict :=
  aluCI d a (fun a => a >>> imm.toNat) s

/-- SHRI (R144). -/
def execShri (st : Bool) (d a : BitVec 5) (imm : BitVec 6) (s : State) : Host.Outcome State Fault Refusal :=
  issue .c st (.shri st d a imm) (vShri d a imm s) s

/-- SARI (R144). -/
def vSari (d a : BitVec 5) (imm : BitVec 6) (s : State) : Verdict :=
  aluCI d a (fun a => a.sshiftRight imm.toNat) s

/-- SARI (R144). -/
def execSari (st : Bool) (d a : BitVec 5) (imm : BitVec 6) (s : State) : Host.Outcome State Fault Refusal :=
  issue .c st (.sari st d a imm) (vSari d a imm s) s

/-- SLTI (R144), signed. -/
def vSlti (d a : BitVec 5) (imm : BitVec 13) (s : State) : Verdict :=
  aluCI d a (fun a => if a.slt (sx imm) then 1 else 0) s

/-- SLTI (R144), signed. -/
def execSlti (st : Bool) (d a : BitVec 5) (imm : BitVec 13) (s : State) : Host.Outcome State Fault Refusal :=
  issue .c st (.slti st d a imm) (vSlti d a imm s) s

/-- LUI (R144): sext(imm18) << 13. -/
def vLui (d : BitVec 5) (imm : BitVec 18) (s : State) : Verdict :=
  .go (s.sendC d (luiVal imm) 1) .seq

/-- LUI (R144): sext(imm18) << 13. -/
def execLui (st : Bool) (d : BitVec 5) (imm : BitVec 18) (s : State) : Host.Outcome State Fault Refusal :=
  issue .c st (.lui st d imm) (vLui d imm s) s

/-- BEQ (R146, R121). -/
def vBeq (a b : BitVec 5) (imm : BitVec 13) (s : State) : Verdict :=
  branchC a b imm (fun a b => a == b) s

/-- BEQ (R146, R121). -/
def execBeq (st : Bool) (a b : BitVec 5) (imm : BitVec 13) (s : State) : Host.Outcome State Fault Refusal :=
  issue .c st (.beq st a b imm) (vBeq a b imm s) s

/-- BNE (R146, R121). -/
def vBne (a b : BitVec 5) (imm : BitVec 13) (s : State) : Verdict :=
  branchC a b imm (fun a b => a != b) s

/-- BNE (R146, R121). -/
def execBne (st : Bool) (a b : BitVec 5) (imm : BitVec 13) (s : State) : Host.Outcome State Fault Refusal :=
  issue .c st (.bne st a b imm) (vBne a b imm s) s

/-- BLT (R146, R121). -/
def vBlt (a b : BitVec 5) (imm : BitVec 13) (s : State) : Verdict :=
  branchC a b imm (fun a b => a.slt b) s

/-- BLT (R146, R121). -/
def execBlt (st : Bool) (a b : BitVec 5) (imm : BitVec 13) (s : State) : Host.Outcome State Fault Refusal :=
  issue .c st (.blt st a b imm) (vBlt a b imm s) s

/-- BGE (R146, R121). -/
def vBge (a b : BitVec 5) (imm : BitVec 13) (s : State) : Verdict :=
  branchC a b imm (fun a b => !a.slt b) s

/-- BGE (R146, R121). -/
def execBge (st : Bool) (a b : BitVec 5) (imm : BitVec 13) (s : State) : Host.Outcome State Fault Refusal :=
  issue .c st (.bge st a b imm) (vBge a b imm s) s

/-- BLTU (R146, R121). -/
def vBltu (a b : BitVec 5) (imm : BitVec 13) (s : State) : Verdict :=
  branchC a b imm (fun a b => a.ult b) s

/-- BLTU (R146, R121). -/
def execBltu (st : Bool) (a b : BitVec 5) (imm : BitVec 13) (s : State) : Host.Outcome State Fault Refusal :=
  issue .c st (.bltu st a b imm) (vBltu a b imm s) s

/-- BGEU (R146, R121). -/
def vBgeu (a b : BitVec 5) (imm : BitVec 13) (s : State) : Verdict :=
  branchC a b imm (fun a b => !a.ult b) s

/-- BGEU (R146, R121). -/
def execBgeu (st : Bool) (a b : BitVec 5) (imm : BitVec 13) (s : State) : Host.Outcome State Fault Refusal :=
  issue .c st (.bgeu st a b imm) (vBgeu a b imm s) s

/-- JMP (R147). -/
def vJmp (imm : BitVec 23) (s : State) : Verdict :=
  branchV s true (target (s.pcOf .c) imm)

/-- JMP (R147). -/
def execJmp (st : Bool) (imm : BitVec 23) (s : State) : Host.Outcome State Fault Refusal :=
  issue .c st (.jmp st imm) (vJmp imm s) s

/-- JAL (R147): c31 receives the address of the word after the delay slots. -/
def vJal (imm : BitVec 23) (s : State) : Verdict :=
  branchV (s.sendC 31 (s.pcOf .c + 12) 1) true (target (s.pcOf .c) imm)

/-- JAL (R147): c31 receives the address of the word after the delay slots. -/
def execJal (st : Bool) (imm : BitVec 23) (s : State) : Host.Outcome State Fault Refusal :=
  issue .c st (.jal st imm) (vJal imm s) s

/-- JR (R147): the value as it stands on the issue clock. -/
def vJr (a : BitVec 5) (s : State) : Verdict :=
  branchV s true (s.rdC 0 a)

/-- JR (R147): the value as it stands on the issue clock. -/
def execJr (st : Bool) (a : BitVec 5) (s : State) : Host.Outcome State Fault Refusal :=
  issue .c st (.jr st a) (vJr a s) s

/-- LSET (R148, R38). -/
def vLset (d a : BitVec 5) (imm : BitVec 13) (s : State) : Verdict :=
  lsetV d a imm s

/-- LSET (R148, R38). -/
def execLset (st : Bool) (d a : BitVec 5) (imm : BitVec 13) (s : State) : Host.Outcome State Fault Refusal :=
  issue .c st (.lset st d a imm) (vLset d a imm s) s

/-- SPAWN (R150): issues without stalling; the record is read when the earlier operations are performed (SPAWN_PUSH). -/
def vSpawn (a : BitVec 5) (s : State) : Verdict :=
  spawnV a s

/-- SPAWN (R150): issues without stalling; the record is read when the earlier operations are performed (SPAWN_PUSH). -/
def execSpawn (st : Bool) (a : BitVec 5) (s : State) : Host.Outcome State Fault Refusal :=
  issue .c st (.spawn st a) (vSpawn a s) s

/-- PARK (R20, R151, R331): two delay slots, then the wait for quiescence (PARK_REGISTER). -/
def vPark (a b : BitVec 5) (fn : BitVec 1) (s : State) : Verdict :=
  parkV a b fn s

/-- PARK (R20, R151, R331): two delay slots, then the wait for quiescence (PARK_REGISTER). -/
def execPark (st : Bool) (a b : BitVec 5) (fn : BitVec 1) (s : State) : Host.Outcome State Fault Refusal :=
  issue .c st (.park st a b fn) (vPark a b fn s) s

/-- EXIT (R24, R152, R352). -/
def vExit (s : State) : Verdict :=
  exitV s

/-- EXIT (R24, R152, R352). -/
def execExit (st : Bool) (s : State) : Host.Outcome State Fault Refusal :=
  issue .c st (.exit st) (vExit s) s

/-- CNCL (R13, R14, R153). -/
def vCncl (a b : BitVec 5) (fn : BitVec 3) (s : State) : Verdict :=
  cnclV a b fn s

/-- CNCL (R13, R14, R153). -/
def execCncl (st : Bool) (a b : BitVec 5) (fn : BitVec 3) (s : State) : Host.Outcome State Fault Refusal :=
  issue .c st (.cncl st a b fn) (vCncl a b fn s) s

/-- CRD (R154), 64 clk. -/
def vCrd (d a b : BitVec 5) (fn : BitVec 3) (s : State) : Verdict :=
  crdV d a b fn s

/-- CRD (R154), 64 clk. -/
def execCrd (st : Bool) (d a b : BitVec 5) (fn : BitVec 3) (s : State) : Host.Outcome State Fault Refusal :=
  issue .c st (.crd st d a b fn) (vCrd d a b fn s) s

/-- SYSR (R155, R156, R358), 2 clk. -/
def vSysr (d : BitVec 5) (sys : BitVec 13) (s : State) : Verdict :=
  sysrV d sys s

/-- SYSR (R155, R156, R358), 2 clk. -/
def execSysr (st : Bool) (d : BitVec 5) (sys : BitVec 13) (s : State) : Host.Outcome State Fault Refusal :=
  issue .c st (.sysr st d sys) (vSysr d sys s) s

/-- SYSW (R155, R156, R358). -/
def vSysw (a : BitVec 5) (sys : BitVec 13) (s : State) : Verdict :=
  syswV a sys s

/-- SYSW (R155, R156, R358). -/
def execSysw (st : Bool) (a : BitVec 5) (sys : BitVec 13) (s : State) : Host.Outcome State Fault Refusal :=
  issue .c st (.sysw st a sys) (vSysw a sys s) s

/-- TRAP (R157): issues, then traps "software" with TVAL = sys. -/
def vTrap (sys : BitVec 13) (s : State) : Verdict :=
  .goTrap s .seq .software (zx sys)

/-- TRAP (R157): issues, then traps "software" with TVAL = sys. -/
def execTrap (st : Bool) (sys : BitVec 13) (s : State) : Host.Outcome State Fault Refusal :=
  issue .c st (.trap st sys) (vTrap sys s) s

/-- RFT (R158, R352). -/
def vRft (s : State) : Verdict :=
  rftV s

/-- RFT (R158, R352). -/
def execRft (st : Bool) (s : State) : Host.Outcome State Fault Refusal :=
  issue .c st (.rft st) (vRft s) s

/-- TIME (R159): the device time of the issue clock, 4 clk. -/
def vTime (d : BitVec 5) (s : State) : Verdict :=
  .go (s.sendExt d (BitVec.ofNat 64 (s.die (dieOf s.cur)).time) 4) .seq

/-- TIME (R159): the device time of the issue clock, 4 clk. -/
def execTime (st : Bool) (d : BitVec 5) (s : State) : Host.Outcome State Fault Refusal :=
  issue .c st (.time st d) (vTime d s) s

/-- SCOPE (R160): binds from the clock after issue. -/
def vScope (e : BitVec 5) (sm : BitVec 2) (s : State) : Verdict :=
  .go (s.pendF (.scope sm e)) .seq

/-- SCOPE (R160): binds from the clock after issue. -/
def execScope (st : Bool) (e : BitVec 5) (sm : BitVec 2) (s : State) : Host.Outcome State Fault Refusal :=
  issue .c st (.scope st e sm) (vScope e sm s) s

end Sys2Proof.Machine
end

