-- ==== Sys2Proof/Machine/Home.lean ====
section
/-! DEFINITION. The homes: reads with live slots in place (R67), writes with their counting (R71, R72, R79, R80), the actions of a slot (R76 to R78),
entry consistency (R85), poison (R367), and region-triggered sends (R92, R416). -/

namespace Sys2Proof.Machine

open Sys2Proof

/-! ## Slots -/

/-- The region entry (R69). -/
def Slot.entry (t : Slot) : BitVec 256 :=
  fld 0 1 ||| fld 1 (bit t.closed) ||| fld 2 (bit t.ovr) ||| fld 6 (t.base / 64) ||| fld 64 t.len64 ||| fld 96 t.late.toNat |||
  fld 128 (t.pa / 16) ||| fld 192 t.dline.toNat

/-- The bytes of [a, a + n) that lie in [b, b + m). -/
def common (a n b m : Nat) : Nat := min (a + n) (b + m) - max a b

def WLog.holds (w : WLog) (pa : Nat) : Bool := decide (w.pa ≤ pa) && decide (pa < w.pa + w.bytes.length)

/-- The last write to a byte of a region (R85) (DEDUCED, log 17). -/
def Slot.lastLog (t : Slot) (pa : Nat) : Option WLog := t.wlog.reverse.find? fun w => w.holds pa

/-- The last write to a byte that one of the acquires covers: it counted, before the acquire read the slot (R85) (DEDUCED, log 17). -/
def Slot.coveredLog (t : Slot) (places : List Nat) (pa : Nat) : Option WLog :=
  t.wlog.reverse.find? fun w => w.holds pa && w.counted && places.any fun p => decide (w.place < p)

/-- A byte of a load (R85): of a bound region, the value of the last write that an acquire covers, or, where later writes have come, that one or the
byte as it stands, by `old`, but none before the place `lo` that the seat has seen (R83); where no acquire covers the write that made it, a free value
(R9). `acq` lists the acquires that order the access. With it stands the place of the write that the byte comes from
(DESIGN CHOICE, log 6) (DEDUCED, log 17). -/
def State.seenAt (s : State) (old : Bool) (acq : List (Nat × Nat)) (lo pa : Nat) : Byte × Nat :=
  let free : Byte × Nat := ((Config.freeLine s.free pa).setWidth 8, lo)
  match s.slots.find? fun t => decide (t.base ≤ pa) && decide (pa < t.base + 64 * t.len64) with
  | none => (s.byteAt pa, lo)
  | some t =>
    let places := (acq.filter fun a => decide (a.1 = t.pa)).map fun a => a.2
    if places = [] then free
    else match t.lastLog pa, t.coveredLog places pa with
      | none, _ => (s.byteAt pa, lo)
      | some _, none => free
      | some w, some v => if old && decide (w ≠ v) && decide (lo ≤ v.place) then (v.bytes.getD (pa - v.pa) 0, v.place) else (s.byteAt pa, w.place)

def State.seenByte (s : State) (old : Bool) (acq : List (Nat × Nat)) (pa : Nat) : Byte := (s.seenAt old acq 0 pa).1

/-- The bytes an access of an engine or of the device sees (R85, R9) (DESIGN CHOICE, log 6) (DESIGN CHOICE, log 8). -/
def State.loadBytes (s : State) (acq : List (Nat × Nat)) (pa n : Nat) : List Byte :=
  (List.range n).map fun j => s.seenByte (decide (s.choose 13 2 = 1)) acq (pa + j)

/-- The place of the latest write to a byte that the A seat has seen, 0 for none (R83). -/
def Ctx.seenPlace (x : Ctx) (pa : Nat) : Nat := match x.seen.find? fun a => decide (a.1 = pa) with | some a => a.2 | none => 0

/-- The seat has seen writes: each a byte and the write's place (R83). -/
def Ctx.note (x : Ctx) (l : List (Nat × Nat)) : Ctx :=
  { x with seen := l.foldl (fun m a => if a.2 = 0 then m else a :: m.filter fun b => decide (b.1 ≠ a.1)) x.seen }

/-- What a load of the A seat sees, each byte with its write's place: never an earlier write than its own earlier accesses have seen (R83, R85, R9). -/
def State.loadSeat (s : State) (x : Ctx) (acq : List (Nat × Nat)) (pa n : Nat) : List (Byte × Nat) :=
  (List.range n).map fun j => s.seenAt (decide (s.choose 13 2 = 1)) acq (x.seenPlace (pa + j)) (pa + j)

/-- The place of the last write to a byte of a bound region, 0 elsewhere. -/
def State.placeOf (s : State) (pa : Nat) : Nat :=
  match s.slots.find? fun t => decide (t.base ≤ pa) && decide (pa < t.base + 64 * t.len64) with
  | some t => match t.lastLog pa with | some w => w.place | none => 0
  | none => 0

/-- The writes last made to a run of bytes, as an atomic or a store of the seat itself has seen them (R83). -/
def State.lastPlaces (s : State) (pa n : Nat) : List (Nat × Nat) := (List.range n).map fun j => (pa + j, s.placeOf (pa + j))

/-- The acquires that an operation follows: those of the streams it names and those its unit began with (R60, R85). -/
def Ctx.acqOf (x : Ctx) (cov : List Nat) (unitAcq : List (Nat × Nat)) : List (Nat × Nat) :=
  unitAcq ++ (x.acqs.filter fun a => cov.contains a.1).map fun a => a.2

/-! ## Messages to a cut die (R386, R387), and the bridge -/

/-- A message crosses the bridge from a die; how many flits it takes the spec does not say, so their number is a free value (R384) (DEDUCED, log 69). -/
def State.crosses (s : State) (d : DieId) : State :=
  let k := Config.pick s.free 720 + 1
  (s.countDie d 57 k).countDie d.other 58 k

/-- A cut die records a message of a link until the link's marker has come, and holds it (R387) (DEDUCED, log 67). -/
def State.hold (s : State) (d : DieId) (l : Link) (i : Msg) : State :=
  s.modDie d fun x => { x with snap := x.snap.map fun p =>
    { p with heldMsgs := p.heldMsgs ++ [i],
             channel := if p.waiting.contains l || decide (l = .network) then p.channel ++ [(l, i)] else p.channel } }

/-! ## Actions (R76 to R78) -/

/-- An action that cannot be carried out: dropped, the policy core notified with the region entry and the cause (R77) (DEDUCED, log 65). -/
def State.actionFault (s : State) (d : DieId) (t : Slot) (cause : Nat) : State :=
  (s.countDie d 49 1).outp (.actionFault d t.entry cause)

def recU (r : BitVec 512) (off w : Nat) : Nat := (r.extractLsb' off w).toNat

/-- A unit record that SPAWN or a launch action may push: the checks on its own fields (R78, R149, R150). -/
def unitRecOk (r : BitVec 512) : Bool :=
  decide (recU r 0 6 = 0) && decide (recU r 64 6 = 0) && decide (recU r 128 32 < recU r 160 25) && decide (1 ≤ recU r 160 25) &&
  decide (recU r 160 25 ≤ unitLimit) && decide (recU r 185 7 = 0) && decide (recU r 292 28 = 0) && decide (recU r 384 128 = 0)

def unitRecOf (r : BitVec 512) : UnitRec :=
  { kdesc := r.extractLsb' 0 64, argb := r.extractLsb' 64 64, uidx := r.extractLsb' 128 32, ucnt := r.extractLsb' 160 25 }

/-- Push one unit as a launch of its own (R12, R23, R78); the caller has checked the share. Into a phase that a cancel has reached it is pushed too, and
runs (DESIGN CHOICE, log 75). The phase's counters stand on the die that has released it (R12, R78). -/
def State.pushUnit (s : State) (d : DieId) (r : UnitRec) (part : Fin 32) (ctx : Fin 64) (prio : BitVec 4) (dline phid : Dw) (jid : Word)
    (acq : List (Nat × Nat)) : State :=
  (s.modDie (s.phaseHome d phid) fun x => x.modPhase phid fun p => { p with pushed := p.pushed + 1, alive := p.alive + 1 }).modDie d fun x =>
    let (lid, x) := x.takeLid
    let t : Task := { kind := .one r lid, part := part, ctx := ctx, prio := prio, dline := dline, phid := phid, jid := jid, since := x.time,
                      acq := acq }
    { (x.pushTask t) with launches := x.launches ++ [{ lid := lid, phid := phid, total := 1, done := 0, node := none, uidx := r.uidx }] }

/-- Launch action, op 0 (R78), as it arrives at its die: the unit runs on the die of the context that made the slot live, and its phase may be one of the other die
(DEDUCED, log 65). -/
def State.launchNow (s : State) (d : DieId) (t : Slot) (read : Option (BitVec 512)) : State :=
  let r := read.getD 0
  let phid : Dw := r.extractLsb' 192 64
  let die := s.die t.die
  let home := s.phaseHome t.die phid
  let ph := (s.die home).phase? phid
  let bad := fun (s : State) => (match ph with
    | some _ => s.modDie home fun x => x.modPhase phid fun p => { p with faults := sat32 (p.faults + 1) }
    | none => s).actionFault d t 4
  if read.isNone ∨ !unitRecOk r ∨ (s.drainOf t.die t.ctx).isSome ∨ (die.kernel? t.ctx (r.extractLsb' 0 64)).isNone then bad s
  else match ph with
    | none => bad s
    | some p =>
      if p.part ≠ t.part ∨ p.jid ≠ r.extractLsb' 256 32 then bad s
      else if (s.part t.part t.die).share ≤ die.taskCount t.part then s.actionFault d t 1
      else s.pushUnit t.die (unitRecOf r) t.part t.ctx (r.extractLsb' 288 4) (r.extractLsb' 320 64) phid (r.extractLsb' 256 32)
        (p.acq ++ [(t.pa, s.nextId)])

/-- Launch action, op 0 (R78): it reads its record at the slot's die; the link of a cut die holds one that comes from the other one (R386). -/
def State.launchAction (s : State) (d : DieId) (t : Slot) : State :=
  let pa := poolBase d + (t.arg.extractLsb' 0 20).toNat * 64
  let read := if spaceOf pa = none ∨ s.poisoned pa 64 then none else some (s.recAt pa)
  if t.die ≠ d ∧ (s.die t.die).snap.isSome then s.hold t.die .bridge (.launch t read) else s.launchNow d t read

/-- Launch action, op 1: decrement a node's counter in the running phase of a resident graph (R319); the units that this launches follow an acquire of
the slot (R85). -/
def State.nodeAction (s : State) (d : DieId) (t : Slot) : State :=
  let g := (t.arg.extractLsb' 16 12).toNat
  let n := (t.arg.extractLsb' 0 16).toNat
  match (s.die d).phases.find? fun p => decide (p.graph = g) with
  | none => s.actionFault d t 2
  | some p =>
    if p.nodes.length ≤ n ∨ p.cnt.getD n 0 = 0 then s.actionFault d t 2
    else (s.walk d p.phid [.dec n] [(t.pa, s.nextId)]).sweepPhase d p.phid

/-- A post from outside the core, with the seats it wakes from a TWAIT for the replay log (R31, R389). -/
def State.outsidePost (s : State) (n : CoreId) (k : BitVec 4) (v : Nat) : State :=
  let old := ((s.coreAt n).ctx.k.get k.toFin).toNat
  let woken (q : SeatId) : Bool := ((s.coreAt n).ctx.seat q).act && (match s.fetch n q with
    | .word w => match decode q w with
      | .ok (.twait _ t m) => decide (t = k) && decide (old < m.toNat) && decide (m.toNat ≤ old + v)
      | _ => false
    | _ => false)
  let l := if (s.coreAt n).dbg.rec_ then [SeatId.c, .a, .v, .m].filter woken else []
  let s := (s.logPost n k v).modCtx n fun x => { x with k := x.k.set k.toFin (x.k.get k.toFin + BitVec.ofNat 16 v) }
  l.foldl (fun s q => s.logWake n q) s

/-- A post of a slot's token action to a core (R76, R31) (DEDUCED, log 65). -/
def State.tokenPost (s : State) (d : DieId) (t : Slot) (core : CoreId) (k : BitVec 4) (n : Nat) : State :=
  if 65535 < ((s.coreAt core).ctx.k.get k.toFin).toNat + n then s.actionFault d t 0
  else if s.playing core then s
  else s.outsidePost core k n

/-- Token action (R76, R31); the link of a cut die holds a post from the other one (R386) (DEDUCED, log 65). -/
def State.tokenAction (s : State) (d : DieId) (t : Slot) : State :=
  let n := (t.arg.extractLsb' 13 16).toNat
  let k := (t.arg.extractLsb' 9 4)
  if h : (t.arg.extractLsb' 0 9).toNat < 352 then
    let core : CoreId := ⟨(t.arg.extractLsb' 0 9).toNat, h⟩
    if dieOf core ≠ d ∧ (s.die (dieOf core)).snap.isSome then s.hold (dieOf core) .bridge (.token core k n t) else s.tokenPost d t core k n
  else s.actionFault d t 0

/-- The entry of a session that is open on the die. -/
def Die.session? (d : Die) (sid : Nat) : Option Session := d.sessions.find? fun x => decide (x.sid = sid) && x.isOpen

def Die.modSession (d : Die) (sid : Nat) (f : Session → Session) : Die :=
  { d with sessions := d.sessions.map fun x => if x.sid = sid then f x else x }

/-- An entry that is not open, with the sequence the other die has mirrored into it (R412, R416). -/
def Session.closed (sid : Nat) (q : Word) : Session :=
  { sid := sid, isOpen := false, prim := false, rod := false, part := 0, ctx := 0, epq := 0, lastsent := q, cseq := 0, fstr := none, sstr := none, fin := 0,
    sin := 0, gslot := 0, raddr := 0, rjob := 0, rpid := 0, err := false }

/-- The last sequence sent, written into the entry of a session, open or not (R416). -/
def Die.setLast (d : Die) (sid : Nat) (q : Word) : Die :=
  if d.sessions.any fun x => decide (x.sid = sid) then d.modSession sid fun x => { x with lastsent := q }
  else { d with sessions := d.sessions ++ [.closed sid q] }

/-- The last sequence that the entry of a session holds. -/
def Die.lastSent (d : Die) (sid : Nat) : Word := match d.sessions.find? fun x => decide (x.sid = sid) with | some x => x.lastsent | none => 0

/-- The bytes of a region or half as a send carries them: poisoned blocks go as zeros (R92, R367). -/
def State.sendBytes (s : State) (pa n : Nat) : List Byte :=
  (List.range n).map fun j => if s.poisoned (pa + j) 1 then 0 else s.byteAt (pa + j)

/-- The bytes of a chunk: the session and sequence, the time of the flip, the region (R416). -/
def chunkBytes (sid : Nat) (q : Word) (time : Nat) (bytes : List Byte) : List Byte :=
  leBytes (sid % 8192 + q.toNat * 2 ^ 32) 8 ++ leBytes time 8 ++ bytes

/-- The partition of an endpoint queue may reach every byte of a range (R400, R401). -/
def State.mayReachAll (s : State) (p : Fin 32) (pa n : Nat) : Bool := (List.range n).all fun j => s.mayReach p (pa + j)

/-- A send operation of a session leaves the die (R411, R416). -/
def State.sendOp (s : State) (d : DieId) (sid : Nat) (bytes : List Byte) : State :=
  match (s.die d).session? sid with
  | some z => (s.countDie d 60 1).outp (.chunk d sid z.raddr z.rjob z.rpid z.rod bytes)
  | none => s

/-- A queued chunk leaves (R416). -/
def State.sendChunk (s : State) (d : DieId) (x : Send) : State := s.sendOp d x.sid (chunkBytes x.sid x.seq x.time x.bytes)

/-- A region-triggered send at a flip (R416, R424): where the session is not open, or the die does not send its chunks, nothing is sent; a duplicate sequence
is dropped, otherwise lastsent moves on and the chunk leaves once the peer holds the sequence, or at once where the peer is lost; the sends of a frozen queue
and of a cut die wait (R368, R386). A queue whose partition may not read the region is frozen (R368, R400). -/
def State.regionSend (s : State) (d : DieId) (sid pa n : Nat) : State :=
  match (s.die d).session? sid with
  | none => s
  | some x =>
    if !x.prim then s
    else
      let q := x.cseq
      let df := (q - x.lastsent).toNat
      if df = 0 ∨ 2 ^ 31 ≤ df then s.countDie d 62 1
      else
        let lost := (s.die d).peerLost
        let m : Send := { sid := sid, seq := q, time := (s.die d).time, bytes := s.sendBytes pa n, asked := (s.die d).snap.isNone, mirrored := lost }
        let s := if s.mayReachAll x.part pa n then s else s.freezeQueue d x.epq
        let s := s.modDie d fun y => y.modSession sid fun z => { z with lastsent := q, err := z.err || s.poisoned pa n }
        if lost ∧ !(s.die d).frozenQs.contains x.epq.val ∧ (s.die d).snap.isNone then s.sendChunk d m
        else s.modDie d fun y => { y with sends := y.sends ++ [m] }

/-- The next deadline of a guarded region after an event (R79); a slot without a deadline stays without one (DESIGN CHOICE, log 75). -/
def Slot.nextDline (t : Slot) : Dw :=
  let p := (t.arg.extractLsb' 13 18).toNat * 4096
  if p = 0 ∨ t.dline = BitVec.allOnes 64 then BitVec.allOnes 64 else t.dline + BitVec.ofNat 64 p

/-- Release one waiter of a slot whose phase has flipped to `ph` (R19, R72, R179, R185, R338); `at_` is the flip's place in the home's order. -/
def State.wakeWaiter (s : State) (pa : Nat) (ph : Bool) (at_ : Nat) (w : Waiter) : State :=
  match w with
  | .await n =>
    match (s.coreAt n).ctx.await with
    | some (.await p q b _) => if p = pa then (s.modCtx n fun x => { x with await := some (.await p q b (some at_)) }).logWake n .a else s
    | _ => s
  | .park _ => s
  | .parked id =>
    match s.parked.find? fun p => decide (p.id = id) with
    | none => s
    | some p =>
      let s := { s with parked := s.parked.filter fun q => decide (q.id ≠ id) }
      s.modDie p.die fun x => x.pushTask
        { kind := .cont p.record, part := p.record.part, ctx := p.record.ctx, prio := p.record.prio, dline := p.record.dline, phid := p.record.phid,
          jid := p.record.jid, since := x.time, acq := [(pa, at_)] }
  | .copy n id => s.modCore n fun c => { c with copies := c.copies.map fun k =>
      if k.id = id ∧ k.st = .waitSlot ∧ k.wslot = pa then (if ph = k.record.getLsbD 448 then { k with st := .move, acq := k.acq ++ [(pa, at_)] } else k) else k }
  | .cox d e => s.modDie d fun x => { x with cox := x.cox.map fun k =>
      if k.e = e then { k with iarr := true, iacq := at_, itime := if k.iarr then k.itime else (s.die d).time, state := if k.state = 1 then 0 else k.state } else k }

/-- The die on which a waiter stands. -/
def State.waiterDie (s : State) : Waiter → Option DieId
  | .await n | .park n | .copy n _ => some (dieOf n)
  | .parked id => (s.parked.find? fun p => decide (p.id = id)).map fun p => p.die
  | .cox d _ => some d

/-- Release one waiter of a slot; the link of a cut die holds a release that comes from the other one (R386). -/
def State.releaseWaiter (s : State) (pa : Nat) (ph : Bool) (w : Waiter) : State :=
  match s.waiterDie w with
  | some e => if homeDie pa ≠ some e ∧ (s.die e).snap.isSome then s.hold e .bridge (.wake w pa ph s.nextId) else s.wakeWaiter pa ph s.nextId w
  | none => s

/-- Waiters that register again at once: the Cox unit (R338), and a copy whose awaited phase has not come (R185). -/
def waitsAgain (s : State) : Waiter → Bool
  | .cox d e => (s.die d).cox.any fun k => decide (k.e = e)
  | .copy n id => (s.coreAt n).copies.any fun k => decide (k.id = id) && decide (k.st = .waitSlot)
  | _ => false

/-- The action of a slot, after its waiters are released (R76); that of a poisoned slot is dropped (R366). -/
def State.slotAction (s : State) (d : DieId) (t : Slot) : State :=
  if t.poisoned then s.actionFault d t 7
  else match t.kind with
  | 1 => match t.arg.extractLsb' 30 2 with
    | 0 => s.launchAction d t
    | _ => s.nodeAction d t
  | 2 => s.regionSend d (t.arg.extractLsb' 0 13).toNat t.base (64 * t.len64)
  | 3 => s.tokenAction d t
  | 4 => if t.arg.getLsbD 31 then
      s.regionSend d (t.arg.extractLsb' 0 13).toNat (t.base + (if t.phase then 32 * t.len64 else 0)) (32 * t.len64) else s
  | _ => s

/-- One phase of a slot completes (R72, R79). -/
def State.completeSlot (s : State) (d : DieId) (pa : Nat) (above : Bool) : State :=
  match s.slot? pa with
  | none => s
  | some t =>
    let ph := !t.phase
    let s := { s with nextId := s.nextId + 1 }
    let s := s.modSlot pa fun t => { t with phase := ph, arrived := 0, ovr := t.ovr || above, waiters := [],
                                            dline := if t.kind = 4 then t.nextDline else t.dline }
    let s := s.countDie d 48 1
    let s := t.waiters.foldl (fun s w => s.releaseWaiter pa ph w) s
    let s := s.modSlot pa fun u => { u with waiters := t.waiters.filter fun w => waitsAgain s w }
    s.slotAction d ((s.slot? pa).getD t)

/-- Count n bytes toward a slot (R71, R72): at most one phase completes, and bytes beyond the total are not counted. -/
def State.countBytes (s : State) (d : DieId) (pa n : Nat) : State :=
  match s.slot? pa with
  | none => s
  | some t =>
    if n = 0 then s
    else if t.expect.toNat ≤ t.arrived.toNat + n then s.completeSlot d pa (decide (t.expect.toNat < t.arrived.toNat + n))
    else s.modSlot pa fun t => { t with arrived := t.arrived + BitVec.ofNat 32 n }

/-- The deadline events of a guarded region that have come (R79, R80); a cut die applies them at its resume (R386). -/
def State.deadline (s : State) (d : DieId) (pa : Nat) : State :=
  match s.slot? pa with
  | none => s
  | some t =>
    let k := t.overdue (s.die d).time
    if k ≠ 0 ∧ (s.die d).snap.isNone then
      let p := (t.arg.extractLsb' 13 18).toNat * 4096
      (s.countDie d 50 k).modSlot pa fun t =>
        { t with arrived := 0, closed := true, late := t.late + BitVec.ofNat 32 k,
                 dline := if p = 0 then BitVec.allOnes 64 else t.dline + BitVec.ofNat 64 (k * p) }
    else s

/-- First byte and length of the bytes a slot counts: the whole region, or the new half of a guarded one unless it is closed (R71, R79, R80). -/
def Slot.counting (t : Slot) : Nat × Nat :=
  if t.kind = 4 then
    if t.closed then (0, 0) else (t.base + (if t.phase then 0 else 32 * t.len64), 32 * t.len64)
  else (t.base, 64 * t.len64)

/-- The count of one write toward one slot; the home keeps what it has written into the region, and whether it counted (R85). -/
def State.countWrite (s : State) (pa n : Nat) (t : Slot) : State :=
  if !overlaps pa n t.base (64 * t.len64) then s
  else
    let d := (homeDie t.pa).getD .bow
    let s := s.deadline d t.pa
    match s.slot? t.pa with
    | none => s
    | some t =>
      let c := t.counting
      let k := if overlaps pa n c.1 c.2 then common pa n c.1 c.2 else 0
      let cut (counted : Bool) (b m : Nat) : List WLog :=
        if overlaps pa n b m then
          [{ pa := max pa b, bytes := (List.range (common pa n b m)).map fun j => memRead s.mem (max pa b + j), place := s.nextId, counted := counted }]
        else []
      let s := { (s.modSlot t.pa fun t => { t with wlog := t.wlog ++ cut false t.base (64 * t.len64) ++ cut true c.1 c.2 }) with nextId := s.nextId + 1 }
      s.countBytes d t.pa k

/-- Poison after a write: a block that the write covers whole is cleared (R367) (DEDUCED, log 40). -/
def State.clearPoison (s : State) (pa n : Nat) : State :=
  { s with poison := s.poison.filter fun b => !(decide (pa ≤ b) && decide (b + 64 ≤ pa + n)) }

/-- HBM and pool accesses (R384, codes 40 to 43): 0 a read, 1 a write. -/
def State.countAccess (s : State) (pa k : Nat) : State :=
  match spaceOf pa with
  | some (.hbm d _) => s.countDie d (40 + k) 1
  | some (.pool d _) => s.countDie d (42 + k) 1
  | _ => s

/-- The bytes that a write leaves in memory: those under a slot that went live after the write was checked stay as they are (R74)
(DESIGN CHOICE, log 75). -/
def State.asideSlots (s : State) (pa : Nat) (bytes : List Byte) : List Byte :=
  if s.hitsSlot pa bytes.length then bytes.mapIdx fun j b => if s.hitsSlot (pa + j) 1 then memRead s.mem (pa + j) else b else bytes

/-- A write performed at its home (R71, R72): the bytes, the watchers, and the counts (DESIGN CHOICE, log 6) (DEDUCED, log 18) (DEDUCED, log 40). -/
def State.homeStore (s : State) (pa : Nat) (bytes : List Byte) : State :=
  let bytes := s.asideSlots pa bytes
  let n := bytes.length
  let s := { s with mem := memWriteBytes s.mem pa bytes }.countAccess pa 1
  let s := s.clearPoison pa n
  let s := s.wakeLine pa n
  s.slots.foldl (fun s t => s.countWrite pa n t) s

/-- A write by the device's own hand that counts toward no slot: a trace area, a dump, a zeroed granule (R71, R377, R388, R410). -/
def State.plainStore (s : State) (pa : Nat) (bytes : List Byte) : State :=
  (({ s with mem := memWriteBytes s.mem pa (s.asideSlots pa bytes) }).clearPoison pa bytes.length).wakeLine pa bytes.length

/-- Bytes put into an area that wraps around, in one or two pieces (R377, R389). -/
def areaPieces (base size off : Nat) (bytes : List Byte) : List (Nat × List Byte) :=
  let k := size - off % size
  if bytes.length ≤ k then [(base + off % size, bytes)] else [(base + off % size, bytes.take k), (base, bytes.drop k)]

/-- The entries of a core's replay log that have room are written, in order; like any write they count toward slots (R71, R389) (DEDUCED, log 31). -/
def State.flushLog (s : State) (n : CoreId) : State := go (s.coreAt n).dbg.rlq.length s
where
  go : Nat → State → State
  | 0, s => s
  | fuel + 1, s =>
    let d := (s.coreAt n).dbg
    match d.rlq with
    | [] => s
    | e :: r =>
      if !d.logRoom e.length then s
      else
        let s := s.modCore n fun c => { c with dbg := { c.dbg with
          rlq := r, rlwr := BitVec.ofNat 64 ((d.rlwr.toNat + e.length) % d.rlsize.toNat) } }
        go fuel ((areaPieces d.rlbase.toNat d.rlsize.toNat d.rlwr.toNat e).foldl (fun s p => s.homeStore p.1 p.2) s)

/-- ACRED at the home (R73, R181): counts without writing; on a closed guarded slot an ACRED of 0 clears closed; a slot that is not live counts
nothing and the policy core is notified. -/
def State.credit (s : State) (pa n : Nat) : State :=
  let d := (homeDie pa).getD .bow
  let s := s.deadline d pa
  match s.slot? pa with
  | none => s.outp (.notice d 2 (BitVec.ofNat 64 pa))
  | some t =>
    if t.kind = 4 ∧ t.closed then (if n = 0 then s.modSlot pa fun t => { t with closed := false } else s)
    else s.countBytes d pa n

end Sys2Proof.Machine
end

