-- ==== Sys2Proof/Machine/ASeat.lean ====
section
/-! DEFINITION. The A seat (R161 to R196): address arithmetic, loads and stores, queues and patterns, atomics, arrival slots, copies, chains, rings. -/

namespace Sys2Proof.Machine

open Sys2Proof

def aluA (d a b : BitVec 5) (lat : Nat) (f : Dw → Dw → Dw) (s : State) : Verdict := .go (s.sendA d (f (s.rdA 0 a) (s.rdA 1 b)) lat) .seq

/-! ## Operations of a stream (R59 to R61) -/

def State.serial (s : State) : Nat := match (s.coreAt s.cur).unit with | some u => u.serial | none => 0

/-- The stream has 64 operations issued and not performed (R61). -/
def State.streamFull (s : State) (os : BitVec 2) : Bool :=
  decide (64 ≤ ((s.coreAt s.cur).ops.filter fun o : MemOp => decide (o.owner = s.serial) && decide (o.os = os)).length)

/-- The acquires an operation with mask pm follows (R60, R85). -/
def Ctx.coverOf (x : Ctx) (pm : BitVec 4) : List Nat := (List.range 4).flatMap fun i => if pm.getLsbD i then x.scov.toArray.getD i [] else []

/-- Issue one operation (R58, R59): it joins its stream at the scope bound now, its identity is `s.nextId`. In a play run it counts only (R390). -/
def State.issueOp (s : State) (os : BitVec 2) (pm : BitVec 4) (kind : OpKind) (acquires : Bool) (va : Dw := 0) : State :=
  let c := s.coreAt s.cur
  let cov := c.ctx.coverOf pm
  let o : MemOp := { id := s.nextId, os := os, pm := pm, scope := (c.ctx.seat .a).osb.get os.toFin, owner := s.serial, kind := kind, done := [], bad := [],
                     homed := false, cov := cov, pc := (c.ctx.seat .a).pc, va := va, buf := 0, reply := none }
  if s.playing s.cur then
    { s.modCtx s.cur fun x => { x with osiss := x.osiss.set os.toFin (x.osiss.get os.toFin + 1),
                                       osprf := x.osprf.set os.toFin (x.osprf.get os.toFin + 1) } with nextId := s.nextId + 1 }
  else
  let x := { c.ctx with osiss := c.ctx.osiss.set os.toFin (c.ctx.osiss.get os.toFin + 1),
                        scov := c.ctx.scov.set os.toFin (((c.ctx.scov.get os.toFin) ++ cov ++ (if acquires then [s.nextId] else [])).eraseDups) }
  { s.setCore s.cur { c with ctx := x, ops := c.ops ++ [o] } with nextId := s.nextId + 1 }

/-- Every operation of the unit in a stream the mask names is performed (R60). -/
def State.maskDone (s : State) (pm : BitVec 4) : Bool :=
  (s.coreAt s.cur).ops.all fun o : MemOp => !(decide (o.owner = s.serial) && pm.getLsbD o.os.toNat)

/-- Translate an access of the A seat and go on with its physical address: a miss joins the walk, a fault traps precisely with the address in TVAL,
a target outside the partition freezes the core (R54, R56, R163, R368). -/
def State.withA (s : State) (need : Need) (align size : Nat) (va : Dw) (k : Nat → Verdict) : Verdict :=
  match translate s s.cur (s.ctxOn s.cur) (s.partOn s.cur) (.seat .a) false need (decide (va.toNat % align ≠ 0)) va size with
  | .ok pa => k pa
  | .fault c => .trap c va
  | .miss => .stall (s.addMiss s.cur (s.ctxOn s.cur) (.seat .a) va)
  | .breaks _ => .stall (s.freezeCore s.cur .protection)

/-- Issue with a result to register t: the load's entry in the pipeline waits for its data (R57, R165). -/
def State.issueLoad (s : State) (os : BitVec 2) (pm : BitVec 4) (kind : BitVec 5 → OpKind) (t : BitVec 5) (lat : Nat) (acquires : Bool) (va : Dw) :
    State :=
  let d := (s.coreAt s.cur).ctx.aPhys t
  let r : InFlight := { mkResult .a (.a d) 0 lat with ready := s.playing s.cur, op := s.nextId, ext := true }
  (s.issueOp os pm (kind d) acquires va).sendR r

/-- Stream exhaustion stalls before issue (R61). -/
def State.ifRoom (s : State) (os : BitVec 2) (v : Verdict) : Verdict := if s.streamFull os then .stall (s.why 13) else v

/-- The access is translated and checked before the stream's room is looked at, so that a word that meets both traps (DESIGN CHOICE, log 75). -/
def loadV (n : Nat) (sext : Bool) (t b : BitVec 5) (os : BitVec 2) (pm : BitVec 4) (off : BitVec 7) (s : State) : Verdict :=
  let va := s.ea b off n
  s.withA needRd n n va fun pa => s.ifRoom os (.go (s.issueLoad os pm (fun d => .load pa n sext d) t 8 false va) .seq)

def storeV (n : Nat) (t b : BitVec 5) (os : BitVec 2) (pm : BitVec 4) (off : BitVec 7) (s : State) : Verdict :=
  let va := s.ea b off n
  s.withA needWr n n va fun pa =>
    if s.hitsSlot pa n then .trap .liveSlot va
    else s.ifRoom os (.go (s.issueOp os pm (.store pa (leBytes (s.rdA 0 t).toNat n)) false) .seq)

/-- The sixteen 64-byte blocks of a vector access, one access in the checks of R55 (R166). -/
def State.withBlocks (s : State) (need : Need) (va : Dw) (k : List Nat → Verdict) : Verdict :=
  if crossesRow s.cur va 1024 then .trap .localHole va
  else match translateWhole s s.cur (s.ctxOn s.cur) (s.partOn s.cur) (.seat .a) need 64
      ((List.range 16).map fun i => (va + BitVec.ofNat 64 (64 * i), 64)) with
  | .ok pas => k (pas.map fun a => a.1)
  | .fault c a => .trap c a
  | .miss a => .stall (s.addMiss s.cur (s.ctxOn s.cur) (.seat .a) a)
  | .breaks => .stall (s.freezeCore s.cur .protection)

def qOf (t : BitVec 5) : BitVec 3 := t.setWidth 3

def ldvV (t b : BitVec 5) (os : BitVec 2) (pm : BitVec 4) (off : BitVec 7) (s : State) : Verdict :=
  let q := qOf t
  let u := s.queueAt q
  let va := s.ea b off 1024
  if u.dir ≠ 1 then .trap .queueDirection 0
  else if u.pat then .trap .queueBusy 0
  else s.withBlocks needRd va fun blocks =>
    if u.noRoom then .stall (s.why 15)
    else s.ifRoom os (.go ((s.issueOp os pm (.ldv blocks va q s.nextId) false).modCtx s.cur fun x => x.setQueue q ((x.queue q).reserve s.nextId)) .seq)

def stvV (t b : BitVec 5) (os : BitVec 2) (pm : BitVec 4) (off : BitVec 7) (s : State) : Verdict :=
  let q := qOf t
  let u := s.queueAt q
  let va := s.ea b off 1024
  if u.dir ≠ 2 then .trap .queueDirection 0
  else if u.pat then .trap .queueBusy 0
  else s.withBlocks needWr va fun blocks =>
    if blocks.any fun pa => s.hitsSlot pa 64 then .trap .liveSlot va
    else match u.head with
      | none => .stall (s.why 14)
      | some e => s.ifRoom os (match e.poison with
        | some tv => .trap .poisonedHead tv
        | none => .go ((s.issueOp os pm (.stv blocks e.data) false).modCtx s.cur fun x => x.setQueue q (x.queue q).take) .seq)

/-! ## Queues and patterns -/

def qbindV (d : BitVec 5) (dir esz : BitVec 2) (s : State) : Verdict :=
  let q := qOf d
  let u := s.queueAt q
  if dir = 3 then .trap .undefinedInstruction 0
  else if u.ents ≠ [] ∨ u.pat then .trap .queueBusy 0
  else .go (s.pendF (.bind q dir esz)) .seq

/-- A pattern as it starts: the record is not yet fetched (R64, R170). -/
def mkPattern (s : State) (q : BitVec 3) (va : Dw) (members : BitVec 4) : Pattern :=
  { serial := s.nextId, op := s.nextId, owner := s.serial, q := q, va := va, shape := none, next := 0, reads := [], writes := [], stop := false,
    fault := none, members := members }

/-- QPAT (R168 to R172). In a play run a store pattern writes nothing and takes what V puts into its queue, whose places the log does not give back (R390)
(DESIGN CHOICE, log 29). -/
def qpatV (t b : BitVec 5) (os : BitVec 2) (pm : BitVec 4) (c : BitVec 5) (s : State) : Verdict :=
  let q := qOf t
  let g : Fin 4 := (c.setWidth 2).toFin
  let u := s.queueAt q
  if ((s.coreAt s.cur).pats.get g).isSome then .trap .patternBusy 0
  else if u.pat then .trap .queueBusy 0
  else if u.dir = 0 then .trap .queueDirection 0
  else if s.playing s.cur then
    .go ((s.issueOp os pm (.pattern g s.nextId) false).modCore s.cur fun k =>
      { k with dbg := { k.dbg with playQs := if u.dir = 2 then k.dbg.playQs ||| (1 <<< q.toNat) else k.dbg.playQs } }) .seq
  else s.ifRoom os
    (.go (((s.issueOp os pm (.pattern g s.nextId) false).modCore s.cur fun k =>
        { k with pats := k.pats.set g (some (mkPattern s q (s.rdA 1 b) 0)) }).modCtx s.cur fun x => x.setQueue q { x.queue q with pat := true }) .seq)

/-- A multicast has found its targets free and feeds them (R173). -/
def Pattern.opened (p : Pattern) : Bool := p.shape.isSome || p.fault.isSome

/-- QSTOP ends the pattern of the queue at an entry boundary; on a queue that a crew-mate's multicast feeds it removes this core only (R172). -/
def qstopV (d : BitVec 5) (s : State) : Verdict :=
  let q := qOf d
  let n := s.cur
  if !(s.queueAt q).pat then .go s .seq
  else
    let c := s.coreAt n
    let mine (p : Option Pattern) : Option Pattern := p.map fun p => if p.q = q then { p with stop := true } else p
    if c.pats.toList.any fun p => match p with | some p => decide (p.q = q) | none => false then
      .go (s.modCore n fun c => { c with pats := c.pats.map mine }) .seq
    else if (match c.mcast with | some p => decide (p.q = q) && p.opened && p.members.getLsbD (crewPos n).val | none => false) then
      .go (s.modCore n fun c => { c with mcast := mine c.mcast }) .seq
    else
      let s := [(0 : Fin 4), 1, 2, 3].foldl (fun (s : State) p =>
        let m := crewCore (crewOf n) p
        s.modCore m fun c => { c with mcast := c.mcast.map fun p =>
          if p.q = q ∧ p.opened then { p with members := p.members &&& ~~~((1 : BitVec 4) <<< (crewPos n).val) } else p }) s
      .go (s.modCtx n fun x => x.setQueue q { x.queue q with pat := false }) .seq

def qmcV (t b : BitVec 5) (os : BitVec 2) (pm c : BitVec 4) (s : State) : Verdict :=
  let q := qOf t
  if ((s.coreAt s.cur).mcast).isSome then .trap .patternBusy 0
  else if s.playing s.cur then .go (s.issueOp os pm (.multicast s.nextId) false) .seq
  else s.ifRoom os
    (.go ((s.issueOp os pm (.multicast s.nextId) false).modCore s.cur fun k => { k with mcast := some (mkPattern s q (s.rdA 1 b) c) }) .seq)

/-! ## Atomics -/

/-- The new value of an atomic on w bits, none where AMOCAS fails (R174). -/
def amoNew {w : Nat} (fn : BitVec 3) (old c t : BitVec w) : Option (BitVec w) :=
  match fn with
  | 0 => some (old + c)
  | 1 => some (if old.slt c then old else c)
  | 2 => some (if old.slt c then c else old)
  | 3 => some (old &&& c)
  | 4 => some (old ||| c)
  | 5 => some (old ^^^ c)
  | 6 => some c
  | _ => if old = t then some c else none

def amoV (op : BitVec 3) (t b : BitVec 5) (os : BitVec 2) (pm : BitVec 4) (c : BitVec 5) (fn : BitVec 2) (s : State) : Verdict :=
  let n := if fn = 1 then 8 else 4
  let va := s.rdA 1 b
  s.withA needAt n n va fun pa =>
    if s.hitsSlot pa n then .trap .liveSlot va
    else s.ifRoom os
      (.go (s.issueLoad os pm (fun d => .amo pa (decide (fn = 1)) op (s.rdA 2 c) (s.rdA 0 t) d) t 24 false va) .seq)

/-! ## Arrival slots -/

/-- ASET stands at the head of its seat until the home answers; the region's address is translated with the record (R70, R177, R429). -/
def asetV (t b : BitVec 5) (os : BitVec 2) (pm : BitVec 4) (s : State) : Verdict :=
  let sva := s.rdA 1 b
  let rva := s.rdA 0 t
  s.withA needRw 1 16 sva fun spa => s.withA needRd 64 64 rva fun rpa =>
    s.ifRoom os (.go ((s.issueOp os pm (.aset rpa spa 0 rva) false sva).modCtx s.cur fun x => { x with await := some (.answer s.nextId) }) .stay)

def afreeV (b : BitVec 5) (os : BitVec 2) (pm : BitVec 4) (off : BitVec 7) (s : State) : Verdict :=
  let va := s.ea b off 16
  s.withA needRw 16 16 va fun pa =>
    s.ifRoom os (.go ((s.issueOp os pm (.afree pa) false va).modCtx s.cur fun x => { x with await := some (.answer s.nextId) }) .stay)

/-- An operation issued and performed on one clock (R179). -/
def State.issueDone (s : State) (os : BitVec 2) (pm : BitVec 4) (acq : Option (Nat × Nat)) : State :=
  let s' := s.issueOp os pm (.waita 0) acq.isSome
  if s.playing s.cur then s' else
  s'.modCore s'.cur fun c =>
    { c with ops := c.ops.filter fun o : MemOp => decide (o.id ≠ s.nextId)
             ctx := { c.ctx with osprf := c.ctx.osprf.set os.toFin (c.ctx.osprf.get os.toFin + 1),
                                 acqs := match acq with | some a => c.ctx.acqs ++ [(s.nextId, a.1, a.2)] | none => c.ctx.acqs } }

/-- AWAIT waits at the head of its seat (R179): it reads the phase once the operations named by pm are performed, registers as a waiter, or polls
where the slot holds 65,535 (R75), and issues when it is released; it acquires the phase as of the home's read (R85). -/
def awaitV (t b : BitVec 5) (os : BitVec 2) (pm : BitVec 4) (off : BitVec 7) (s : State) : Verdict :=
  let va := s.ea b off 16
  let want := (s.rdA 0 t).getLsbD 0
  let wait (w : AWait) (s : State) : Verdict := .stall ((s.why 17).modCtx s.cur fun x => { x with await := some w })
  match (s.coreAt s.cur).ctx.await with
  | some (.await pa ph polling released) =>
    if s.playing s.cur then
      if released.isSome then .go ((s.issueDone os pm none).modCtx s.cur fun x => { x with await := none }) .seq else wait (.await pa ph polling released) s
    else if (match s.slot? pa with | some sl => sl.poisoned | none => false) then .trap .data va
    else match released with
    | some at_ => s.ifRoom os (.go ((s.issueDone os pm (some (pa, at_))).modCtx s.cur fun x => { x with await := none }) .seq)
    | none => if (s.slot? pa).isNone then .trap .slotState va else wait (.await pa ph polling none) s
  | _ =>
    s.withA needRd 16 16 va fun pa =>
      if !s.maskDone pm then .stall (s.why 17)
      else if s.playing s.cur then (if s.wakesNow s.cur then wait (.await pa want false (some s.nextId)) (s.logSkip s.cur 16) else wait (.await pa want false none) s)
      else match s.slot? pa with
        | none => .trap .slotState va
        | some sl =>
          if sl.poisoned then .trap .data va
          else if sl.phase ≠ want then wait (.await pa want false (some s.nextId)) (s.logWake s.cur .a)
          else if 65535 ≤ sl.waiters.length then wait (.await pa want true none) s
          else wait (.await pa want false none) (s.modSlot pa fun u => { u with waiters := u.waiters ++ [.await s.cur] })

/-- Bits [3:0] of ea select the view; a selector from 5 to 15 faults "alignment" (R180) (DEDUCED, log 37). -/
def areadV (t b : BitVec 5) (os : BitVec 2) (pm : BitVec 4) (off : BitVec 7) (s : State) : Verdict :=
  let ea := s.ea b off 16
  let sel := ea.toNat % 16
  s.withA needRd (if 5 ≤ sel then 16 else 1) (if 5 ≤ sel then 1 else 16) (if 5 ≤ sel then ea else ea - BitVec.ofNat 64 sel) fun pa =>
    s.ifRoom os (.go (s.issueLoad os pm (fun d => .aread pa sel d) t 8 true ea) .seq)

def acredV (b : BitVec 5) (os : BitVec 2) (pm : BitVec 4) (c : BitVec 5) (s : State) : Verdict :=
  let va := s.rdA 1 b
  s.withA needWr 16 16 va fun pa =>
    s.ifRoom os (.go (s.issueOp os pm (.acred pa ((s.rdA 2 c).toNat % 2 ^ 32)) false) .seq)

/-! ## Copies, chains, rings -/

/-- A cancel waits for the unit's boundary (R13). -/
def UnitInfo.cancelPending (u : UnitInfo) : Bool :=
  match u.stop with
  | some q => decide (q.why = StopWhy.cancel)
  | none => false

/-- Entries of the copy engine in use: every copy that is not in the spill ring (R187). -/
def Core.engineEntries (c : Core) : Nat := (c.copies.filter fun k : Copy => !k.spilled).length

/-- A command without an operation of its own, its record not yet fetched (R185, R190, R358). -/
def newCopy (id owner : Nat) (ctx : Fin 64) (code : BitVec 8) (va : Dw) : Copy :=
  { id := id, op := none, owner := owner, ctx := ctx, code := code, recVa := va, recPa := 0, located := false, resumeOf := [], chained := false, spilled := false,
    record := 0, st := .fetch, done := 0, cause := 0, zcnt := 0, wslot := 0, cslot := 0, loads := [],
    acq := [], cancel := false, frozen := false, undef := false }

/-- A command as it enters the engine or the spill ring (R185, R334); that of a unit which a cancel has reached is cancelled with it (R13). -/
def mkCopy (s : State) (code : BitVec 8) (va : Dw) (op : Option Nat) (spilled : Bool) : Copy :=
  { newCopy s.nextId s.serial (s.ctxOn s.cur) code va with
    op := op, spilled := spilled, cancel := match (s.coreAt s.cur).unit with | some u => u.cancelPending | none => false }

/-- The slot of a ring that holds index i (R192, R332). -/
def ringSlotVa (h : BitVec 512) (i : Nat) : Dw :=
  let seg := recU h 64 64
  let lsize := recU h 128 8
  let ssz := recU h 136 16 * 16
  let nseg := recU h 256 64
  let nl := recU h 320 8
  let xidx := recU h 384 64
  if nseg ≠ 0 ∧ xidx ≤ i then BitVec.ofNat 64 (nseg + i % 2 ^ nl * ssz) else BitVec.ofNat 64 (seg + i % 2 ^ lsize * ssz)

/-- What writing a command to the spill ring brings: it is written, the header is bad or the write faults (R335), or the ring breaks the partition's
protection (R368). -/
inductive Spilled
  | written (s : State)
  | faults
  | breaks

/-- Write one command to the core's spill ring (R334, R335); a write that touches a live slot faults (R74). -/
def State.spillWrite (s : State) (n : CoreId) (k : Copy) (os : BitVec 2) (pm : BitVec 4) : Spilled :=
  let x := s.contextOf n k.ctx
  let hva := x.spill + BitVec.ofNat 64 (64 * dieCore n)
  match translateNow s n k.ctx (s.partOn n) true needRw (decide (hva.toNat % 64 ≠ 0)) hva 64 with
  | .ok hpa =>
    let h := s.recAt hpa
    if ringBad h || s.hitsSlot hpa 8 then .faults
    else
      let i := recU h 0 64
      let sva := ringSlotVa h i
      match translateNow s n k.ctx (s.partOn n) true needWr false sva 32 with
      | .ok spa =>
        if s.hitsSlot spa 32 then .faults
        else
          let w1 := k.code.toNat + os.toNat * 2 ^ 8 + pm.toNat * 2 ^ 10
          let s := s.homeStore (spa + 16) (leBytes k.recVa.toNat 8 ++ leBytes w1 8)
          let s := s.homeStore hpa (leBytes (i + 1) 8)
          .written (s.homeStore spa (leBytes (i + 1) 8))
      | .breaks _ => .breaks
      | _ => .faults
  | .breaks _ => .breaks
  | _ => .faults

/-- CPY, GATH, SCAT and CPYR (R185 to R187, R334, R335): the record needs rd and wr and 64-byte alignment; a full latch stalls; a command that finds
all 64 entries in use, or commands in the spill ring before it, goes to the spill ring. -/
def copyV (code : BitVec 8) (b : BitVec 5) (os : BitVec 2) (pm : BitVec 4) (off : BitVec 7) (s : State) : Verdict :=
  let va := s.ea b off 64
  s.withA needRw 64 64 va fun _ =>
    let c := s.coreAt s.cur
    if c.latch.isSome then .stall s
    else if s.playing s.cur then .go (s.issueOp os pm (.copy s.nextId) false) .seq
    else
      let spill := decide (64 ≤ c.engineEntries) || c.copies.any fun k : Copy => k.spilled
      let k := mkCopy s code va (some s.nextId) spill
      let s' := s.issueOp os pm (.copy s.nextId) false
      s.ifRoom os
        (if !spill then .go (s'.modCore s'.cur fun c => { c with copies := c.copies ++ [k] }) .seq
         else match s'.spillWrite s'.cur k os pm with
           | .written s'' => .go (s''.modCore s''.cur fun c => { c with copies := c.copies ++ [k] }) .seq
           | .faults => .go (s'.modCore s'.cur fun c => { c with latch := some k }) .seq
           | .breaks => .go ((s'.modCore s'.cur fun c => { c with latch := some k }).freezeCore s'.cur .protection) .seq)

/-- CHLNK (R189): the chain record needs rd and wr, and its 64-byte alignment is checked like any access (DESIGN CHOICE, log 80). -/
def chlnkV (t b : BitVec 5) (os : BitVec 2) (pm : BitVec 4) (off : BitVec 7) (s : State) : Verdict :=
  let va := s.ea b off 64
  s.withA needRw 64 64 va fun pa =>
    if s.hitsSlot pa 16 then .trap .liveSlot va else s.ifRoom os (.go (s.issueOp os pm (.chlnk pa (s.rdA 0 t)) false) .seq)

/-- CHKCK (R190): the chain record needs rd and wr (DESIGN CHOICE, log 80). -/
def chkckV (b : BitVec 5) (os : BitVec 2) (pm : BitVec 4) (off : BitVec 7) (s : State) : Verdict :=
  let va := s.ea b off 64
  s.withA needRw 64 64 va fun pa => s.ifRoom os (.go (s.issueOp os pm (.chkck pa) false va) .seq)

/-- RGRES (R193): the header needs rd and wr; here and in the other ring operations a header that is not 64-byte aligned traps "alignment" at the word,
and no permission at_ is asked for (DESIGN CHOICE, log 80). -/
def rgresV (t b : BitVec 5) (os : BitVec 2) (pm : BitVec 4) (s : State) : Verdict :=
  let va := s.rdA 1 b
  s.withA needRw 64 64 va fun pa =>
    if s.hitsSlot pa 8 then .trap .liveSlot va
    else s.ifRoom os (.go (s.issueLoad os pm (fun d => .rgres pa d) t 24 false va) .seq)

/-- RGPUB (R194): the header needs rd (DESIGN CHOICE, log 80). -/
def rgpubV (t b : BitVec 5) (os : BitVec 2) (pm : BitVec 4) (s : State) : Verdict :=
  let va := s.rdA 1 b
  s.withA needRd 64 64 va fun pa => s.ifRoom os (.go (s.issueOp os pm (.rgpub pa (s.rdA 0 t)) false) .seq)

/-- RGPOP (R195): the header needs rd, its cursor rd and wr (DESIGN CHOICE, log 80). -/
def rgpopV (t b : BitVec 5) (os : BitVec 2) (pm : BitVec 4) (c : BitVec 5) (s : State) : Verdict :=
  let va := s.rdA 1 b
  s.withA needRd 64 64 va fun pa => s.ifRoom os (.go (s.issueLoad os pm (fun d => .rgpop pa (s.rdA 2 c) d) t 32 false va) .seq)

/-- RGCUR (R195): the header and its cursor need rd (DESIGN CHOICE, log 80). -/
def rgcurV (t b : BitVec 5) (os : BitVec 2) (pm : BitVec 4) (c : BitVec 5) (s : State) : Verdict :=
  let va := s.rdA 1 b
  s.withA needRd 64 64 va fun pa => s.ifRoom os (.go (s.issueLoad os pm (fun d => .rgcur pa (s.rdA 2 c) d) t 8 false va) .seq)

/-- WAITA issues once the operations named by pm are performed, arms the watch, and the seat waits (R89, R196). -/
def waitaV (b : BitVec 5) (os : BitVec 2) (pm : BitVec 4) (off : BitVec 7) (s : State) : Verdict :=
  let va := s.ea b off 64
  s.withA needRd 64 64 va fun pa =>
    if !s.maskDone pm then .stall (s.why 17)
    else s.ifRoom os
      (.go ((s.issueOp os pm (.waita pa) false).modCtx s.cur fun x => { x with await := some (.line s.nextId pa false) }) .seq)

/-! ## The words -/

/-- AADD (R161). -/
def vAadd (d a b : BitVec 5) (s : State) : Verdict :=
  aluA d a b 1 (fun a b => a + b) s

/-- AADD (R161). -/
def execAadd (st : Bool) (d a b : BitVec 5) (s : State) : Host.Outcome State Fault Refusal :=
  issue .a st (.aadd st d a b) (vAadd d a b s) s

/-- ASUB (R161). -/
def vAsub (d a b : BitVec 5) (s : State) : Verdict :=
  aluA d a b 1 (fun a b => a - b) s

/-- ASUB (R161). -/
def execAsub (st : Bool) (d a b : BitVec 5) (s : State) : Host.Outcome State Fault Refusal :=
  issue .a st (.asub st d a b) (vAsub d a b s) s

/-- AMUL (R161). -/
def vAmul (d a b : BitVec 5) (s : State) : Verdict :=
  aluA d a b 3 (fun a b => a * b) s

/-- AMUL (R161). -/
def execAmul (st : Bool) (d a b : BitVec 5) (s : State) : Host.Outcome State Fault Refusal :=
  issue .a st (.amul st d a b) (vAmul d a b s) s

/-- AAND (R161). -/
def vAand (d a b : BitVec 5) (s : State) : Verdict :=
  aluA d a b 1 (fun a b => a &&& b) s

/-- AAND (R161). -/
def execAand (st : Bool) (d a b : BitVec 5) (s : State) : Host.Outcome State Fault Refusal :=
  issue .a st (.aand st d a b) (vAand d a b s) s

/-- AOR (R161). -/
def vAor (d a b : BitVec 5) (s : State) : Verdict :=
  aluA d a b 1 (fun a b => a ||| b) s

/-- AOR (R161). -/
def execAor (st : Bool) (d a b : BitVec 5) (s : State) : Host.Outcome State Fault Refusal :=
  issue .a st (.aor st d a b) (vAor d a b s) s

/-- ASHL (R161). -/
def vAshl (d a b : BitVec 5) (s : State) : Verdict :=
  aluA d a b 1 (fun a b => a <<< (b.toNat % 64)) s

/-- ASHL (R161). -/
def execAshl (st : Bool) (d a b : BitVec 5) (s : State) : Host.Outcome State Fault Refusal :=
  issue .a st (.ashl st d a b) (vAshl d a b s) s

/-- ASHR (R161). -/
def vAshr (d a b : BitVec 5) (s : State) : Verdict :=
  aluA d a b 1 (fun a b => a >>> (b.toNat % 64)) s

/-- ASHR (R161). -/
def execAshr (st : Bool) (d a b : BitVec 5) (s : State) : Host.Outcome State Fault Refusal :=
  issue .a st (.ashr st d a b) (vAshr d a b s) s

/-- AADDI (R161). -/
def vAaddi (d a : BitVec 5) (imm : BitVec 13) (s : State) : Verdict :=
  .go (s.sendA d (s.rdA 0 a + sx imm) 1) .seq

/-- AADDI (R161). -/
def execAaddi (st : Bool) (d a : BitVec 5) (imm : BitVec 13) (s : State) : Host.Outcome State Fault Refusal :=
  issue .a st (.aaddi st d a imm) (vAaddi d a imm s) s

/-- ALUI (R161). -/
def vAlui (d : BitVec 5) (imm : BitVec 18) (s : State) : Verdict :=
  .go (s.sendA d (luiVal imm) 1) .seq

/-- ALUI (R161). -/
def execAlui (st : Bool) (d : BitVec 5) (imm : BitVec 18) (s : State) : Host.Outcome State Fault Refusal :=
  issue .a st (.alui st d imm) (vAlui d imm s) s

/-- ABEQ (R162, R121). -/
def vAbeq (a b : BitVec 5) (imm : BitVec 13) (s : State) : Verdict :=
  branchV s ((fun a b : Dw => a == b) (s.rdA 0 a) (s.rdA 1 b)) (target (s.pcOf .a) imm)

/-- ABEQ (R162, R121). -/
def execAbeq (st : Bool) (a b : BitVec 5) (imm : BitVec 13) (s : State) : Host.Outcome State Fault Refusal :=
  issue .a st (.abeq st a b imm) (vAbeq a b imm s) s

/-- ABNE (R162, R121). -/
def vAbne (a b : BitVec 5) (imm : BitVec 13) (s : State) : Verdict :=
  branchV s ((fun a b : Dw => a != b) (s.rdA 0 a) (s.rdA 1 b)) (target (s.pcOf .a) imm)

/-- ABNE (R162, R121). -/
def execAbne (st : Bool) (a b : BitVec 5) (imm : BitVec 13) (s : State) : Host.Outcome State Fault Refusal :=
  issue .a st (.abne st a b imm) (vAbne a b imm s) s

/-- ABLT (R162, R121). -/
def vAblt (a b : BitVec 5) (imm : BitVec 13) (s : State) : Verdict :=
  branchV s ((fun a b : Dw => a.slt b) (s.rdA 0 a) (s.rdA 1 b)) (target (s.pcOf .a) imm)

/-- ABLT (R162, R121). -/
def execAblt (st : Bool) (a b : BitVec 5) (imm : BitVec 13) (s : State) : Host.Outcome State Fault Refusal :=
  issue .a st (.ablt st a b imm) (vAblt a b imm s) s

/-- ABGE (R162, R121). -/
def vAbge (a b : BitVec 5) (imm : BitVec 13) (s : State) : Verdict :=
  branchV s ((fun a b : Dw => !a.slt b) (s.rdA 0 a) (s.rdA 1 b)) (target (s.pcOf .a) imm)

/-- ABGE (R162, R121). -/
def execAbge (st : Bool) (a b : BitVec 5) (imm : BitVec 13) (s : State) : Host.Outcome State Fault Refusal :=
  issue .a st (.abge st a b imm) (vAbge a b imm s) s

/-- AJMP (R162). -/
def vAjmp (imm : BitVec 23) (s : State) : Verdict :=
  branchV s true (target (s.pcOf .a) imm)

/-- AJMP (R162). -/
def execAjmp (st : Bool) (imm : BitVec 23) (s : State) : Host.Outcome State Fault Refusal :=
  issue .a st (.ajmp st imm) (vAjmp imm s) s

/-- AJR (R162). -/
def vAjr (a : BitVec 5) (s : State) : Verdict :=
  branchV s true (s.rdA 0 a)

/-- AJR (R162). -/
def execAjr (st : Bool) (a : BitVec 5) (s : State) : Host.Outcome State Fault Refusal :=
  issue .a st (.ajr st a) (vAjr a s) s

/-- LDB (R164, R165). -/
def vLdb (t b : BitVec 5) (os : BitVec 2) (pm : BitVec 4) (off : BitVec 7) (s : State) : Verdict :=
  loadV 1 false t b os pm off s

/-- LDB (R164, R165). -/
def execLdb (st : Bool) (t b : BitVec 5) (os : BitVec 2) (pm : BitVec 4) (off : BitVec 7) (s : State) : Host.Outcome State Fault Refusal :=
  issue .a st (.ldb st t b os pm off) (vLdb t b os pm off s) s

/-- LDBS (R164, R165). -/
def vLdbs (t b : BitVec 5) (os : BitVec 2) (pm : BitVec 4) (off : BitVec 7) (s : State) : Verdict :=
  loadV 1 true t b os pm off s

/-- LDBS (R164, R165). -/
def execLdbs (st : Bool) (t b : BitVec 5) (os : BitVec 2) (pm : BitVec 4) (off : BitVec 7) (s : State) : Host.Outcome State Fault Refusal :=
  issue .a st (.ldbs st t b os pm off) (vLdbs t b os pm off s) s

/-- LDH (R164, R165). -/
def vLdh (t b : BitVec 5) (os : BitVec 2) (pm : BitVec 4) (off : BitVec 7) (s : State) : Verdict :=
  loadV 2 false t b os pm off s

/-- LDH (R164, R165). -/
def execLdh (st : Bool) (t b : BitVec 5) (os : BitVec 2) (pm : BitVec 4) (off : BitVec 7) (s : State) : Host.Outcome State Fault Refusal :=
  issue .a st (.ldh st t b os pm off) (vLdh t b os pm off s) s

/-- LDHS (R164, R165). -/
def vLdhs (t b : BitVec 5) (os : BitVec 2) (pm : BitVec 4) (off : BitVec 7) (s : State) : Verdict :=
  loadV 2 true t b os pm off s

/-- LDHS (R164, R165). -/
def execLdhs (st : Bool) (t b : BitVec 5) (os : BitVec 2) (pm : BitVec 4) (off : BitVec 7) (s : State) : Host.Outcome State Fault Refusal :=
  issue .a st (.ldhs st t b os pm off) (vLdhs t b os pm off s) s

/-- LDW (R164, R165). -/
def vLdw (t b : BitVec 5) (os : BitVec 2) (pm : BitVec 4) (off : BitVec 7) (s : State) : Verdict :=
  loadV 4 false t b os pm off s

/-- LDW (R164, R165). -/
def execLdw (st : Bool) (t b : BitVec 5) (os : BitVec 2) (pm : BitVec 4) (off : BitVec 7) (s : State) : Host.Outcome State Fault Refusal :=
  issue .a st (.ldw st t b os pm off) (vLdw t b os pm off s) s

/-- LDWS (R164, R165). -/
def vLdws (t b : BitVec 5) (os : BitVec 2) (pm : BitVec 4) (off : BitVec 7) (s : State) : Verdict :=
  loadV 4 true t b os pm off s

/-- LDWS (R164, R165). -/
def execLdws (st : Bool) (t b : BitVec 5) (os : BitVec 2) (pm : BitVec 4) (off : BitVec 7) (s : State) : Host.Outcome State Fault Refusal :=
  issue .a st (.ldws st t b os pm off) (vLdws t b os pm off s) s

/-- LDD (R164, R165). -/
def vLdd (t b : BitVec 5) (os : BitVec 2) (pm : BitVec 4) (off : BitVec 7) (s : State) : Verdict :=
  loadV 8 false t b os pm off s

/-- LDD (R164, R165). -/
def execLdd (st : Bool) (t b : BitVec 5) (os : BitVec 2) (pm : BitVec 4) (off : BitVec 7) (s : State) : Host.Outcome State Fault Refusal :=
  issue .a st (.ldd st t b os pm off) (vLdd t b os pm off s) s

/-- STB (R164). -/
def vStb (t b : BitVec 5) (os : BitVec 2) (pm : BitVec 4) (off : BitVec 7) (s : State) : Verdict :=
  storeV 1 t b os pm off s

/-- STB (R164). -/
def execStb (st : Bool) (t b : BitVec 5) (os : BitVec 2) (pm : BitVec 4) (off : BitVec 7) (s : State) : Host.Outcome State Fault Refusal :=
  issue .a st (.stb st t b os pm off) (vStb t b os pm off s) s

/-- STH (R164). -/
def vSth (t b : BitVec 5) (os : BitVec 2) (pm : BitVec 4) (off : BitVec 7) (s : State) : Verdict :=
  storeV 2 t b os pm off s

/-- STH (R164). -/
def execSth (st : Bool) (t b : BitVec 5) (os : BitVec 2) (pm : BitVec 4) (off : BitVec 7) (s : State) : Host.Outcome State Fault Refusal :=
  issue .a st (.sth st t b os pm off) (vSth t b os pm off s) s

/-- STW (R164). -/
def vStw (t b : BitVec 5) (os : BitVec 2) (pm : BitVec 4) (off : BitVec 7) (s : State) : Verdict :=
  storeV 4 t b os pm off s

/-- STW (R164). -/
def execStw (st : Bool) (t b : BitVec 5) (os : BitVec 2) (pm : BitVec 4) (off : BitVec 7) (s : State) : Host.Outcome State Fault Refusal :=
  issue .a st (.stw st t b os pm off) (vStw t b os pm off s) s

/-- STD (R164). -/
def vStd (t b : BitVec 5) (os : BitVec 2) (pm : BitVec 4) (off : BitVec 7) (s : State) : Verdict :=
  storeV 8 t b os pm off s

/-- STD (R164). -/
def execStd (st : Bool) (t b : BitVec 5) (os : BitVec 2) (pm : BitVec 4) (off : BitVec 7) (s : State) : Host.Outcome State Fault Refusal :=
  issue .a st (.std st t b os pm off) (vStd t b os pm off s) s

/-- LDV (R166). -/
def vLdv (t b : BitVec 5) (os : BitVec 2) (pm : BitVec 4) (off : BitVec 7) (s : State) : Verdict :=
  ldvV t b os pm off s

/-- LDV (R166). -/
def execLdv (st : Bool) (t b : BitVec 5) (os : BitVec 2) (pm : BitVec 4) (off : BitVec 7) (s : State) : Host.Outcome State Fault Refusal :=
  issue .a st (.ldv st t b os pm off) (vLdv t b os pm off s) s

/-- STV (R166). -/
def vStv (t b : BitVec 5) (os : BitVec 2) (pm : BitVec 4) (off : BitVec 7) (s : State) : Verdict :=
  stvV t b os pm off s

/-- STV (R166). -/
def execStv (st : Bool) (t b : BitVec 5) (os : BitVec 2) (pm : BitVec 4) (off : BitVec 7) (s : State) : Host.Outcome State Fault Refusal :=
  issue .a st (.stv st t b os pm off) (vStv t b os pm off s) s

/-- QBIND (R27, R28, R167). -/
def vQbind (d : BitVec 5) (e r : BitVec 2) (s : State) : Verdict :=
  qbindV d r e s

/-- QBIND (R27, R28, R167). -/
def execQbind (st : Bool) (d : BitVec 5) (e r : BitVec 2) (s : State) : Host.Outcome State Fault Refusal :=
  issue .a st (.qbind st d e r) (vQbind d e r s) s

/-- QPAT (R170). -/
def vQpat (t b : BitVec 5) (os : BitVec 2) (pm : BitVec 4) (c : BitVec 5) (s : State) : Verdict :=
  qpatV t b os pm c s

/-- QPAT (R170). -/
def execQpat (st : Bool) (t b : BitVec 5) (os : BitVec 2) (pm : BitVec 4) (c : BitVec 5) (s : State) : Host.Outcome State Fault Refusal :=
  issue .a st (.qpat st t b os pm c) (vQpat t b os pm c s) s

/-- QSTOP (R172). -/
def vQstop (d : BitVec 5) (s : State) : Verdict :=
  qstopV d s

/-- QSTOP (R172). -/
def execQstop (st : Bool) (d : BitVec 5) (s : State) : Host.Outcome State Fault Refusal :=
  issue .a st (.qstop st d) (vQstop d s) s

/-- QMC (R173). -/
def vQmc (t b : BitVec 5) (os : BitVec 2) (pm c : BitVec 4) (s : State) : Verdict :=
  qmcV t b os pm c s

/-- QMC (R173). -/
def execQmc (st : Bool) (t b : BitVec 5) (os : BitVec 2) (pm c : BitVec 4) (s : State) : Host.Outcome State Fault Refusal :=
  issue .a st (.qmc st t b os pm c) (vQmc t b os pm c s) s

/-- AMOADD (R174, R175). -/
def vAmoadd (t b : BitVec 5) (os : BitVec 2) (pm : BitVec 4) (c : BitVec 5) (fn : BitVec 2) (s : State) : Verdict :=
  amoV 0 t b os pm c fn s

/-- AMOADD (R174, R175). -/
def execAmoadd (st : Bool) (t b : BitVec 5) (os : BitVec 2) (pm : BitVec 4) (c : BitVec 5) (fn : BitVec 2) (s : State) : Host.Outcome State Fault Refusal :=
  issue .a st (.amoadd st t b os pm c fn) (vAmoadd t b os pm c fn s) s

/-- AMOMIN (R174, R175). -/
def vAmomin (t b : BitVec 5) (os : BitVec 2) (pm : BitVec 4) (c : BitVec 5) (fn : BitVec 2) (s : State) : Verdict :=
  amoV 1 t b os pm c fn s

/-- AMOMIN (R174, R175). -/
def execAmomin (st : Bool) (t b : BitVec 5) (os : BitVec 2) (pm : BitVec 4) (c : BitVec 5) (fn : BitVec 2) (s : State) : Host.Outcome State Fault Refusal :=
  issue .a st (.amomin st t b os pm c fn) (vAmomin t b os pm c fn s) s

/-- AMOMAX (R174, R175). -/
def vAmomax (t b : BitVec 5) (os : BitVec 2) (pm : BitVec 4) (c : BitVec 5) (fn : BitVec 2) (s : State) : Verdict :=
  amoV 2 t b os pm c fn s

/-- AMOMAX (R174, R175). -/
def execAmomax (st : Bool) (t b : BitVec 5) (os : BitVec 2) (pm : BitVec 4) (c : BitVec 5) (fn : BitVec 2) (s : State) : Host.Outcome State Fault Refusal :=
  issue .a st (.amomax st t b os pm c fn) (vAmomax t b os pm c fn s) s

/-- AMOAND (R174, R175). -/
def vAmoand (t b : BitVec 5) (os : BitVec 2) (pm : BitVec 4) (c : BitVec 5) (fn : BitVec 2) (s : State) : Verdict :=
  amoV 3 t b os pm c fn s

/-- AMOAND (R174, R175). -/
def execAmoand (st : Bool) (t b : BitVec 5) (os : BitVec 2) (pm : BitVec 4) (c : BitVec 5) (fn : BitVec 2) (s : State) : Host.Outcome State Fault Refusal :=
  issue .a st (.amoand st t b os pm c fn) (vAmoand t b os pm c fn s) s

/-- AMOOR (R174, R175). -/
def vAmoor (t b : BitVec 5) (os : BitVec 2) (pm : BitVec 4) (c : BitVec 5) (fn : BitVec 2) (s : State) : Verdict :=
  amoV 4 t b os pm c fn s

/-- AMOOR (R174, R175). -/
def execAmoor (st : Bool) (t b : BitVec 5) (os : BitVec 2) (pm : BitVec 4) (c : BitVec 5) (fn : BitVec 2) (s : State) : Host.Outcome State Fault Refusal :=
  issue .a st (.amoor st t b os pm c fn) (vAmoor t b os pm c fn s) s

/-- AMOXOR (R174, R175). -/
def vAmoxor (t b : BitVec 5) (os : BitVec 2) (pm : BitVec 4) (c : BitVec 5) (fn : BitVec 2) (s : State) : Verdict :=
  amoV 5 t b os pm c fn s

/-- AMOXOR (R174, R175). -/
def execAmoxor (st : Bool) (t b : BitVec 5) (os : BitVec 2) (pm : BitVec 4) (c : BitVec 5) (fn : BitVec 2) (s : State) : Host.Outcome State Fault Refusal :=
  issue .a st (.amoxor st t b os pm c fn) (vAmoxor t b os pm c fn s) s

/-- AMOSWP (R174, R175). -/
def vAmoswp (t b : BitVec 5) (os : BitVec 2) (pm : BitVec 4) (c : BitVec 5) (fn : BitVec 2) (s : State) : Verdict :=
  amoV 6 t b os pm c fn s

/-- AMOSWP (R174, R175). -/
def execAmoswp (st : Bool) (t b : BitVec 5) (os : BitVec 2) (pm : BitVec 4) (c : BitVec 5) (fn : BitVec 2) (s : State) : Host.Outcome State Fault Refusal :=
  issue .a st (.amoswp st t b os pm c fn) (vAmoswp t b os pm c fn s) s

/-- AMOCAS (R174, R175). -/
def vAmocas (t b : BitVec 5) (os : BitVec 2) (pm : BitVec 4) (c : BitVec 5) (fn : BitVec 2) (s : State) : Verdict :=
  amoV 7 t b os pm c fn s

/-- AMOCAS (R174, R175). -/
def execAmocas (st : Bool) (t b : BitVec 5) (os : BitVec 2) (pm : BitVec 4) (c : BitVec 5) (fn : BitVec 2) (s : State) : Host.Outcome State Fault Refusal :=
  issue .a st (.amocas st t b os pm c fn) (vAmocas t b os pm c fn s) s

/-- ASET (R70, R177): waits for the answer of the home (HOME_ANSWER). -/
def vAset (t b : BitVec 5) (os : BitVec 2) (pm : BitVec 4) (s : State) : Verdict :=
  asetV t b os pm s

/-- ASET (R70, R177): waits for the answer of the home (HOME_ANSWER). -/
def execAset (st : Bool) (t b : BitVec 5) (os : BitVec 2) (pm : BitVec 4) (s : State) : Host.Outcome State Fault Refusal :=
  issue .a st (.aset st t b os pm) (vAset t b os pm s) s

/-- AFREE (R74, R178): waits for the answer of the home (HOME_ANSWER). -/
def vAfree (b : BitVec 5) (os : BitVec 2) (pm : BitVec 4) (off : BitVec 7) (s : State) : Verdict :=
  afreeV b os pm off s

/-- AFREE (R74, R178): waits for the answer of the home (HOME_ANSWER). -/
def execAfree (st : Bool) (b : BitVec 5) (os : BitVec 2) (pm : BitVec 4) (off : BitVec 7) (s : State) : Host.Outcome State Fault Refusal :=
  issue .a st (.afree st b os pm off) (vAfree b os pm off s) s

/-- AWAIT (R75, R179). -/
def vAwait (t b : BitVec 5) (os : BitVec 2) (pm : BitVec 4) (off : BitVec 7) (s : State) : Verdict :=
  awaitV t b os pm off s

/-- AWAIT (R75, R179). -/
def execAwait (st : Bool) (t b : BitVec 5) (os : BitVec 2) (pm : BitVec 4) (off : BitVec 7) (s : State) : Host.Outcome State Fault Refusal :=
  issue .a st (.await st t b os pm off) (vAwait t b os pm off s) s

/-- AREAD (R180). -/
def vAread (t b : BitVec 5) (os : BitVec 2) (pm : BitVec 4) (off : BitVec 7) (s : State) : Verdict :=
  areadV t b os pm off s

/-- AREAD (R180). -/
def execAread (st : Bool) (t b : BitVec 5) (os : BitVec 2) (pm : BitVec 4) (off : BitVec 7) (s : State) : Host.Outcome State Fault Refusal :=
  issue .a st (.aread st t b os pm off) (vAread t b os pm off s) s

/-- ACRED (R73, R181). -/
def vAcred (b : BitVec 5) (os : BitVec 2) (pm : BitVec 4) (c : BitVec 5) (s : State) : Verdict :=
  acredV b os pm c s

/-- ACRED (R73, R181). -/
def execAcred (st : Bool) (b : BitVec 5) (os : BitVec 2) (pm : BitVec 4) (c : BitVec 5) (s : State) : Host.Outcome State Fault Refusal :=
  issue .a st (.acred st b os pm c) (vAcred b os pm c s) s

/-- CPY (R182 to R187). -/
def vCpy (b : BitVec 5) (os : BitVec 2) (pm : BitVec 4) (off : BitVec 7) (s : State) : Verdict :=
  copyV 0x48 b os pm off s

/-- CPY (R182 to R187). -/
def execCpy (st : Bool) (b : BitVec 5) (os : BitVec 2) (pm : BitVec 4) (off : BitVec 7) (s : State) : Host.Outcome State Fault Refusal :=
  issue .a st (.cpy st b os pm off) (vCpy b os pm off s) s

/-- GATH (R182 to R187). -/
def vGath (b : BitVec 5) (os : BitVec 2) (pm : BitVec 4) (off : BitVec 7) (s : State) : Verdict :=
  copyV 0x49 b os pm off s

/-- GATH (R182 to R187). -/
def execGath (st : Bool) (b : BitVec 5) (os : BitVec 2) (pm : BitVec 4) (off : BitVec 7) (s : State) : Host.Outcome State Fault Refusal :=
  issue .a st (.gath st b os pm off) (vGath b os pm off s) s

/-- SCAT (R182 to R187). -/
def vScat (b : BitVec 5) (os : BitVec 2) (pm : BitVec 4) (off : BitVec 7) (s : State) : Verdict :=
  copyV 0x4a b os pm off s

/-- SCAT (R182 to R187). -/
def execScat (st : Bool) (b : BitVec 5) (os : BitVec 2) (pm : BitVec 4) (off : BitVec 7) (s : State) : Host.Outcome State Fault Refusal :=
  issue .a st (.scat st b os pm off) (vScat b os pm off s) s

/-- CPYR (R182 to R187). -/
def vCpyr (b : BitVec 5) (os : BitVec 2) (pm : BitVec 4) (off : BitVec 7) (s : State) : Verdict :=
  copyV 0x4b b os pm off s

/-- CPYR (R182 to R187). -/
def execCpyr (st : Bool) (b : BitVec 5) (os : BitVec 2) (pm : BitVec 4) (off : BitVec 7) (s : State) : Host.Outcome State Fault Refusal :=
  issue .a st (.cpyr st b os pm off) (vCpyr b os pm off s) s

/-- CHLNK (R189). -/
def vChlnk (t b : BitVec 5) (os : BitVec 2) (pm : BitVec 4) (off : BitVec 7) (s : State) : Verdict :=
  chlnkV t b os pm off s

/-- CHLNK (R189). -/
def execChlnk (st : Bool) (t b : BitVec 5) (os : BitVec 2) (pm : BitVec 4) (off : BitVec 7) (s : State) : Host.Outcome State Fault Refusal :=
  issue .a st (.chlnk st t b os pm off) (vChlnk t b os pm off s) s

/-- CHKCK (R190). -/
def vChkck (b : BitVec 5) (os : BitVec 2) (pm : BitVec 4) (off : BitVec 7) (s : State) : Verdict :=
  chkckV b os pm off s

/-- CHKCK (R190). -/
def execChkck (st : Bool) (b : BitVec 5) (os : BitVec 2) (pm : BitVec 4) (off : BitVec 7) (s : State) : Host.Outcome State Fault Refusal :=
  issue .a st (.chkck st b os pm off) (vChkck b os pm off s) s

/-- RGRES (R193). -/
def vRgres (t b : BitVec 5) (os : BitVec 2) (pm : BitVec 4) (s : State) : Verdict :=
  rgresV t b os pm s

/-- RGRES (R193). -/
def execRgres (st : Bool) (t b : BitVec 5) (os : BitVec 2) (pm : BitVec 4) (s : State) : Host.Outcome State Fault Refusal :=
  issue .a st (.rgres st t b os pm) (vRgres t b os pm s) s

/-- RGPUB (R194). -/
def vRgpub (t b : BitVec 5) (os : BitVec 2) (pm : BitVec 4) (s : State) : Verdict :=
  rgpubV t b os pm s

/-- RGPUB (R194). -/
def execRgpub (st : Bool) (t b : BitVec 5) (os : BitVec 2) (pm : BitVec 4) (s : State) : Host.Outcome State Fault Refusal :=
  issue .a st (.rgpub st t b os pm) (vRgpub t b os pm s) s

/-- RGPOP (R195). -/
def vRgpop (t b : BitVec 5) (os : BitVec 2) (pm : BitVec 4) (c : BitVec 5) (s : State) : Verdict :=
  rgpopV t b os pm c s

/-- RGPOP (R195). -/
def execRgpop (st : Bool) (t b : BitVec 5) (os : BitVec 2) (pm : BitVec 4) (c : BitVec 5) (s : State) : Host.Outcome State Fault Refusal :=
  issue .a st (.rgpop st t b os pm c) (vRgpop t b os pm c s) s

/-- RGCUR (R195). -/
def vRgcur (t b : BitVec 5) (os : BitVec 2) (pm : BitVec 4) (c : BitVec 5) (s : State) : Verdict :=
  rgcurV t b os pm c s

/-- RGCUR (R195). -/
def execRgcur (st : Bool) (t b : BitVec 5) (os : BitVec 2) (pm : BitVec 4) (c : BitVec 5) (s : State) : Host.Outcome State Fault Refusal :=
  issue .a st (.rgcur st t b os pm c) (vRgcur t b os pm c s) s

/-- WAITA (R89, R196). -/
def vWaita (b : BitVec 5) (os : BitVec 2) (pm : BitVec 4) (off : BitVec 7) (s : State) : Verdict :=
  waitaV b os pm off s

/-- WAITA (R89, R196). -/
def execWaita (st : Bool) (b : BitVec 5) (os : BitVec 2) (pm : BitVec 4) (off : BitVec 7) (s : State) : Host.Outcome State Fault Refusal :=
  issue .a st (.waita st b os pm off) (vWaita b os pm off s) s

end Sys2Proof.Machine
end

