-- ==== Sys2Proof/Machine/Perform.lean ====
section
/-! DEFINITION. The performing of operations at their homes (R58 to R66, R83): which are enabled, what each does, the answers to ASET and AFREE
(R70, R177, R178), ring operations (R193 to R195, R332), links (R189). -/

namespace Sys2Proof.Machine

open Sys2Proof

def rangesMeet (a b : List (Nat × Nat)) : Bool := a.any fun x => b.any fun y => overlaps x.1 x.2 y.1 y.2

/-- The operations before one in its core's issue order. -/
def opsBefore (l : List MemOp) (id : Nat) : List MemOp := l.takeWhile fun o => decide (o.id ≠ id)

def Core.op? (c : Core) (id : Nat) : Option MemOp := c.ops.find? fun o => decide (o.id = id)

/-- R60: every earlier operation of the unit in a stream the mask names is performed; operations of two units are not ordered (R363). -/
def Core.maskReady (c : Core) (o : MemOp) : Bool :=
  (opsBefore c.ops o.id).all fun e => !(decide (e.owner = o.owner) && o.pm.getLsbD e.os.toNat)

/-- The context of a unit on the core: running, held in the shadow or in a swap area, or left on the core by an EXIT. -/
def Core.modOwner (c : Core) (serial : Nat) (f : Ctx → Ctx) : Core :=
  if (match c.unit with | some u => decide (u.serial = serial) | none => false) then { c with ctx := f c.ctx }
  else if (match c.held with | some h => decide (h.unit.serial = serial) | none => false) then
    { c with held := c.held.map fun h => { h with ctx := f h.ctx } }
  else if c.images.any fun x => decide (x.held.unit.serial = serial) then
    { c with images := c.images.map fun x => if x.held.unit.serial = serial then { x with held := { x.held with ctx := f x.held.ctx } } else x }
  else if c.unit.isNone then { c with ctx := f c.ctx } else c

/-- The units that a core holds beside the running one: in its shadow and in swap areas. -/
def Core.stored (c : Core) : List Held := c.held.toList ++ c.images.map fun x => x.held

def Core.ownerCtx (c : Core) (serial : Nat) : Ctx :=
  if (match c.unit with | some u => decide (u.serial = serial) | none => false) then c.ctx
  else match c.stored.find? fun h => decide (h.unit.serial = serial) with | some h => h.ctx | none => c.ctx

/-- The unit runs on the core or is held in its shadow or a swap area, so that its queues stand. -/
def Core.ownerStands (c : Core) (serial : Nat) : Bool :=
  (match c.unit with | some u => decide (u.serial = serial) | none => false) ||
  c.stored.any fun h => decide (h.unit.serial = serial)

/-- The unit with a serial number on a core: running, held in the shadow, or leaving. -/
def Core.ownerUnit (c : Core) (serial : Nat) : Option UnitInfo :=
  (c.unit.toList ++ (c.stored.map fun h => h.unit) ++ c.leaving.map fun l => l.unit).find? fun u => decide (u.serial = serial)

/-- A cancel has reached the unit (R13). -/
def Core.ownerCancelled (c : Core) (serial : Nat) : Bool :=
  (match c.unit with | some u => decide (u.serial = serial) && u.cancelPending | none => false) ||
  c.leaving.any fun l => decide (l.unit.serial = serial) && l.cancelled

def Core.ownerCtxNum (c : Core) (serial : Nat) : Fin 64 := match c.ownerUnit serial with | some u => u.ctx | none => 0

def Core.ownerPart (c : Core) (serial : Nat) : Fin 32 := match c.ownerUnit serial with | some u => u.part | none => 0

/-- The acquires that the unit began with (R85). -/
def Core.ownerAcq (c : Core) (serial : Nat) : List (Nat × Nat) :=
  match (c.unit.toList ++ (c.stored.map fun h => h.unit) ++ c.leaving.map fun l => l.unit).find? fun u => decide (u.serial = serial) with
  | some u => u.acq
  | none => []

/-- The operation is performed: the performed counter of its stream rises (R59, R62, R363). -/
def State.finishOp (s : State) (n : CoreId) (id : Nat) : State :=
  s.modCore n fun c =>
    match c.op? id with
    | none => c
    | some o =>
      { c with ops := c.ops.filter fun e => decide (e.id ≠ id) }.modOwner o.owner fun x =>
        { x with osprf := x.osprf.set o.os.toFin (x.osprf.get o.os.toFin + 1) }

def fillResult (id : Nat) (v : Line) (err : Option SeatCause) (r : InFlight) : InFlight :=
  if r.op = id ∧ r.ready = false then { r with val := v, ready := true, err := err } else r

/-- The data of an operation return to its result in flight, wherever its unit's results stand (R57). -/
def State.fill (s : State) (n : CoreId) (id : Nat) (v : Line) (err : Option SeatCause) : State :=
  s.modCore n fun c =>
    let f (x : Ctx) : Ctx := { x with inflight := x.inflight.map (fillResult id v err) }
    { c with ctx := f c.ctx, handler := c.handler.map fun h => { h with saved := f h.saved }, held := c.held.map fun h => { h with ctx := f h.ctx }
             images := c.images.map fun x => { x with held := { x.held with ctx := f x.held.ctx } } }

def State.fillDw (s : State) (n : CoreId) (id : Nat) (v : Dw) : State := s.fill n id (v.setWidth 8192) none

def State.modOp (s : State) (n : CoreId) (id : Nat) (f : MemOp → MemOp) : State :=
  s.modCore n fun c => { c with ops := c.ops.map fun o => if o.id = id then f o else o }

/-- The "data" trap of a load or atomic that met a poisoned block: the destination is unchanged, TPC names the word (R367). -/
def dataErr (o : MemOp) : SeatCause := { cause := .data, tval := o.va, tpc := o.pc, issued := true }

/-- What an atomic writes at its home: nothing where it is a failed AMOCAS (R71, R174). -/
def State.amoStore (s : State) (pa : Nat) (w64 : Bool) (fn : BitVec 3) (c t : Dw) : State :=
  match (if w64 then (amoNew fn (BitVec.ofNat 64 (s.valueAt pa 8)) c t).map fun v => leBytes v.toNat 8
         else (amoNew fn (BitVec.ofNat 32 (s.valueAt pa 4)) (c.setWidth 32) (t.setWidth 32)).map fun v => leBytes v.toNat 4) with
  | some b => s.homeStore pa b
  | none => s

/-- An atomic at its home (R71, R174): the old value, sign-extended, is what its operation returns; a failed AMOCAS writes and counts nothing
(DEDUCED, log 18). -/
def State.performAmo (s : State) (n : CoreId) (id pa : Nat) (w64 : Bool) (fn : BitVec 3) (c t : Dw) : State :=
  let old : Dw := if w64 then BitVec.ofNat 64 (s.valueAt pa 8) else (BitVec.ofNat 32 (s.valueAt pa 4)).signExtend 64
  (s.amoStore pa w64 fn c t).modOp n id fun o => { o with buf := old.setWidth 8192 }

/-- An access that a ring or chain operation makes for the unit that issued it (R152, R363). -/
def State.ringTr (s : State) (n : CoreId) (o : MemOp) (need : Need) (va : Dw) (size : Nat) : Tr :=
  let c := s.coreAt n
  translateNow s n (c.ownerCtxNum o.owner) (c.ownerPart o.owner) false need (decide (va.toNat % size ≠ 0)) va size

def cursorVa (h : BitVec 512) (j : Nat) : Dw := BitVec.ofNat 64 (recU h 152 64 + 64 * j)

/-- The cell addresses that an operation of the seat itself touches, for the same-address rule (R60): those of its word, and for the ring and chain
operations those that the header or the record leads to; engine operations are ordered by masks only (R65). -/
def State.opRanges (s : State) (n : CoreId) (o : MemOp) : List (Nat × Nat) :=
  let at_ (va : Dw) : List (Nat × Nat) := match s.ringTr n o needNone va 8 with | .ok pa => [(pa, 8)] | _ => []
  match o.kind with
  | .load pa n _ _ => [(pa, n)]
  | .store pa b => [(pa, b.length)]
  | .amo pa w _ _ _ _ => [(pa, if w then 8 else 4)]
  | .ldv b _ _ _ | .stv b _ => b.map fun p => (p, 64)
  | .aset r slot _ _ => [(r, 64), (slot, 16)]
  | .afree slot | .aread slot _ _ | .acred slot _ => [(slot, 16)]
  | .rgres hdr _ => [(hdr, 64)]
  | .rgpub hdr i => (hdr, 64) :: (if ringBad (s.recAt hdr) then [] else at_ (ringSlotVa (s.recAt hdr) i.toNat))
  | .rgpop hdr j _ => (hdr, 64) :: (if ringBad (s.recAt hdr) then [] else
      at_ (cursorVa (s.recAt hdr) j.toNat) ++ (match s.ringTr n o needNone (cursorVa (s.recAt hdr) j.toNat) 8 with
        | .ok pa => at_ (ringSlotVa (s.recAt hdr) (s.valueAt pa 8)) | _ => []))
  | .rgcur hdr j _ => (hdr, 64) :: (if ringBad (s.recAt hdr) then [] else at_ (cursorVa (s.recAt hdr) j.toNat))
  | .chlnk r ent => (r, 64) :: (at_ (ent + 64) ++ at_ (BitVec.ofNat 64 (s.valueAt (r + 8) 8) + 64))
  | .chkck r => [(r, 64)]
  | .waita _ | .copy _ | .pattern _ _ | .multicast _ => []

/-- R60: the operation's mask is met, and no earlier access of the unit to the same bytes is outstanding. -/
def State.opReady (s : State) (n : CoreId) (o : MemOp) : Bool :=
  let c := s.coreAt n
  c.maskReady o && (opsBefore c.ops o.id).all fun e => !(decide (e.owner = o.owner) && rangesMeet (s.opRanges n e) (s.opRanges n o))

/-- The seat that issued an operation has seen writes (R83). -/
def State.noteOf (s : State) (n : CoreId) (o : MemOp) (l : List (Nat × Nat)) : State := s.modCore n fun c => c.modOwner o.owner fun x => x.note l

/-- One part of a store or atomic performed at its home (R58, R71, R83) (DEDUCED, log 64). -/
def State.performPart (s : State) (n : CoreId) (o : MemOp) (blk : Nat) : State :=
  match o.kind with
  | .store pa bytes =>
    if blk = 0 then
      let s := s.homeStore pa bytes
      (s.noteOf n o (s.lastPlaces pa bytes.length)).modOp n o.id fun o => { o with done := [0], homed := true }
    else s
  | .amo pa w64 fn c t _ =>
    if blk ≠ 0 then s
    else if s.poisoned pa (if w64 then 8 else 4) then
      s.modOp n o.id fun o => { o with done := [0], bad := [0], homed := true }
    else
      let s := s.performAmo n o.id pa w64 fn c t
      (s.noteOf n o (s.lastPlaces pa (if w64 then 8 else 4))).modOp n o.id fun o => { o with done := [0], homed := true }
  | .stv blocks data =>
    match blocks[blk]? with
    | none => s
    | some pa =>
      let bytes := (List.range 64).map fun j => data.extractLsb' (8 * (64 * blk + j)) 8
      let s := s.homeStore pa bytes
      (s.noteOf n o (s.lastPlaces pa 64)).modOp n o.id fun o => { o with done := o.done ++ [blk], homed := decide (blocks.length ≤ o.done.length + 1) }
  | _ => s

/-- A load's value (R164). -/
def loadValue (bytes : List Byte) (sext : Bool) : Dw :=
  let v := leValue bytes
  let w := 8 * bytes.length
  if sext && decide (2 ^ (w - 1) ≤ v) then BitVec.ofNat 64 (v + (2 ^ 64 - 2 ^ w)) else BitVec.ofNat 64 v

/-- An engine fault of an operation that a unit issued (R362): the core's queue, the queue kept for a held unit, or, once the unit has exited, the
policy core. -/
def State.engineFault (s : State) (n : CoreId) (owner : Nat) (tval : Dw) (cause : Nat) : State :=
  let f : EFault := { tval := tval, cause := cause }
  let s := if 1 ≤ cause ∧ cause ≤ 7 then s.count n 25 1 else s
  let c := s.coreAt n
  if (match c.unit with | some u => decide (u.serial = owner) | none => false) then s.setCore n { c with efq := c.efq ++ [f] }
  else if (match c.held with | some h => decide (h.unit.serial = owner) | none => false) then s.setCore n { c with heldq := c.heldq ++ [f] }
  else if c.images.any fun x => decide (x.held.unit.serial = owner) then
    s.setCore n { c with images := c.images.map fun x => if x.held.unit.serial = owner then { x with efq := x.efq ++ [f] } else x }
  else s.outp (.notice (dieOf n) (32 + cause) tval)

/-! ## Rings -/

/-- What the accesses of a ring or chain operation bring: a place, no place, or a target that breaks protection (R368). -/
def Tr.place : Tr → Option Nat
  | .ok pa => some pa
  | _ => none

def Tr.isBreak : Tr → Bool
  | .breaks _ => true
  | _ => false

/-- The translations of the cursors of a ring. -/
def State.cursors (s : State) (n : CoreId) (o : MemOp) (h : BitVec 512) : List Tr :=
  (List.range (recU h 216 7)).map fun j => s.ringTr n o needRd (cursorVa h j) 8

/-- The smallest cursor of a ring, none where a cursor cannot be read. -/
def State.minCursor (s : State) (l : List Tr) : Option Nat :=
  l.foldl (fun m a => match m, a with
    | some v, .ok pa => some (min v (s.valueAt pa 8))
    | _, _ => none) (some (2 ^ 64 - 1))

/-- The full test (R193, R332). -/
def ringFull (h : BitVec 512) (m : Nat) : Bool :=
  let widx := recU h 0 64
  if recU h 256 64 = 0 then decide (2 ^ recU h 128 8 ≤ widx - m) else decide (2 ^ recU h 320 8 ≤ widx - max m (recU h 384 64))

def refusedIdx : Dw := BitVec.ofNat 64 (2 ^ 64 - 2)

/-- The unit of an operation stands saved, in the shadow or in a swap area. -/
def Core.savedOwner (c : Core) (o : MemOp) : Bool := c.stored.any fun h => decide (h.unit.serial = o.owner)

/-- RGRES at the header's home (R193): a full ring with ovf 0 holds the operation and notifies the policy core (R333); one whose hold a stop has ended,
or that finds the ring full while its unit stands saved, is made again after the restore (DEDUCED, log 20) (DEDUCED, log 45). -/
def State.performRgres (s : State) (n : CoreId) (o : MemOp) (hdr : Nat) : State :=
  let saved := (s.coreAt n).savedOwner o
  if saved && decide (o.done ≠ []) then s else
  let h := s.recAt hdr
  let cs := if ringBad h then [] else s.cursors n o h
  if cs.any Tr.isBreak then s.freezeCore n .protection
  else match (if ringBad h || s.hitsSlot hdr 8 then none else s.minCursor cs) with
  | none => (s.fillDw n o.id refusedIdx).finishOp n o.id
  | some m =>
    if ringFull h m then
      if recU h 223 2 = 1 then (s.fillDw n o.id (BitVec.allOnes 64)).finishOp n o.id
      else if o.done = [] && !saved then
        ((s.modOp n o.id fun o => { o with done := [m] }).countDie (dieOf n) 63 1).outp (.notice (dieOf n) 3 (BitVec.ofNat 64 hdr))
      else s
    else
      let w := recU h 0 64
      ((s.homeStore hdr (leBytes (w + 1) 8)).fillDw n o.id (BitVec.ofNat 64 w)).finishOp n o.id

/-- RGPUB: one 8-byte store of i + 1 to the slot's seq (R194); one that would touch a live arrival slot stores nothing (DEDUCED, log 20). -/
def State.performRgpub (s : State) (n : CoreId) (o : MemOp) (hdr : Nat) (i : Dw) : State :=
  let h := s.recAt hdr
  if ringBad h then s.finishOp n o.id
  else match s.ringTr n o needWr (ringSlotVa h i.toNat) 8 with
    | .breaks _ => s.freezeCore n .protection
    | .ok pa => (if s.hitsSlot pa 8 then s else s.homeStore pa (leBytes (i.toNat + 1) 8)).finishOp n o.id
    | _ => s.finishOp n o.id

/-- RGPOP and RGCUR (R195) (DEDUCED, log 20). -/
def State.performRgpop (s : State) (n : CoreId) (o : MemOp) (hdr : Nat) (j : Dw) (pop : Bool) : State :=
  let h := s.recAt hdr
  let bad := ringBad h || decide (recU h 216 7 ≤ j.toNat)
  let refused := (s.fillDw n o.id refusedIdx).finishOp n o.id
  if bad then refused
  else match s.ringTr n o (if pop then needRw else needRd) (cursorVa h j.toNat) 8 with
  | .breaks _ => s.freezeCore n .protection
  | .ok cpa =>
    let u := s.valueAt cpa 8
    if !pop then (s.fillDw n o.id (BitVec.ofNat 64 u)).finishOp n o.id
    else match s.ringTr n o needRd (ringSlotVa h u) 8 with
      | .breaks _ => s.freezeCore n .protection
      | .ok spa =>
        if s.hitsSlot cpa 8 then refused
        else if s.valueAt spa 8 = (u + 1) % 2 ^ 64 then
          ((s.homeStore cpa (leBytes (u + 1) 8)).fillDw n o.id (BitVec.ofNat 64 u)).finishOp n o.id
        else (s.fillDw n o.id (BitVec.allOnes 64)).finishOp n o.id
      | _ => refused
  | _ => refused

/-- CHLNK in one indivisible step at the chain record's home (R189); a link whose entry cannot be written is not made (DEDUCED, log 20). -/
def State.performChlnk (s : State) (n : CoreId) (o : MemOp) (rec_ : Nat) (ent : Dw) : State :=
  let tail : Dw := BitVec.ofNat 64 (s.valueAt (rec_ + 8) 8)
  let tr (va : Dw) : Tr := s.ringTr n o needWr (va + 64) 8
  let places := if tail = 0 then [tr ent] else [tr ent, tr tail]
  if places.any Tr.isBreak then s.freezeCore n .protection
  else
    let bad := s.hitsSlot rec_ 16 || places.any fun a => match a with | .ok pa => s.hitsSlot pa 8 | _ => true
    let s := if bad then s.outp (.notice (dieOf n) 4 ent)
      else
        let s := s.homeStore (((tr ent).place).getD 0) (leBytes 0 8)
        let s := if tail = 0 then s.homeStore rec_ (leBytes ent.toNat 8) else s.homeStore (((tr tail).place).getD 0) (leBytes ent.toNat 8)
        s.homeStore (rec_ + 8) (leBytes ent.toNat 8)
    s.finishOp n o.id

/-- CHKCK: the engine reads the chain record and walks it, for the unit that issued it, if it is idle and not empty (R190); where the record lies under
a live arrival slot, the engine's write of run faults (R74). -/
def State.performChkck (s : State) (n : CoreId) (o : MemOp) (rec_ : Nat) : State :=
  let head : Dw := BitVec.ofNat 64 (s.valueAt rec_ 8)
  let run := (s.byteAt (rec_ + 16)).getLsbD 0
  let s :=
    if run || decide (head = 0) then s
    else if s.hitsSlot rec_ 64 then s.engineFault n o.owner o.va 7
    else
      (s.homeStore (rec_ + 16) [s.byteAt (rec_ + 16) ||| 1]).modCore n fun c =>
        { c with chains := c.chains ++ [{ recPa := rec_, ctx := c.ownerCtxNum o.owner, owner := o.owner, cur := none, entry := head,
                                          linking := false, stuck := false, cancel := c.ownerCancelled o.owner }] }
  s.finishOp n o.id

/-! ## The answer to ASET and AFREE -/

/-- The reserved bits of arg, by kind (R76). -/
def argOk (kind : Nat) (arg : Word) : Bool :=
  match kind with
  | 0 => decide (arg = 0)
  | 1 => match (arg.extractLsb' 30 2).toNat with
    | 0 => decide (arg.extractLsb' 20 10 = 0)
    | 1 => decide (arg.extractLsb' 28 2 = 0)
    | _ => false
  | 2 => decide (arg.extractLsb' 13 19 = 0)
  | 3 => decide (arg.extractLsb' 29 3 = 0) && decide (arg.extractLsb' 13 16 ≠ 0) && decide ((arg.extractLsb' 0 9).toNat ≤ 351)
  | _ => true

/-- The end of the mapping that serves an address: its row of the local window, its range entry, or the page, of the size its leaf gives, of the very
translation that the access uses (R70); 0 where a walk made at once finds none. -/
def State.mappingEnd (s : State) (n : CoreId) (cx : Fin 64) (ag : Agent) (va : Dw) : Nat :=
  let v := va.toNat
  let page (e : Dw) : Nat := (v / pageBytes (pteSz e) + 1) * pageBytes (pteSz e)
  if localBase ≤ v then (let o := v - localBase
    if o < 0x200000 then localBase + 0x200000 else localBase + (o / 0x200000 + 1) * 0x200000)
  else match rangeFind (s.contextOf n cx) v with
    | some e => rangeLimit e
    | none => match s.leafUsed n cx ag va with
      | some (.leaf e) => page e
      | some (.fault _) => 0
      | none => match walkTables s.dwAt (fun _ => true) (dieOf n) v 5 (s.contextOf n cx).ptroot.toNat with
        | .leaf e => page e
        | _ => 0

/-- The last byte of a region lies in the space of its first one (R68, R428). -/
def sameSpace (base n : Nat) : Bool :=
  match spaceOf base, spaceOf (base + n - 1) with
  | some (.hbm a _), some (.hbm b _) => decide (a = b)
  | some (.pool a _), some (.pool b _) => decide (a = b)
  | some (.pad a _), some (.pad b _) => decide (a = b)
  | some (.host _), some (.host _) => true
  | _, _ => false

/-- The table of a region: its tag's table and the numbers free in it (R68). -/
def State.freeEntries (s : State) (sp : Space) : List (BitVec 2 × BitVec 12) :=
  let used := s.slots.filter fun t => match spaceOf t.base, sp with
    | some (.pad a _), .pad b _ => decide (a = b)
    | some (.pool a _), .pool b _ => decide (a = b)
    | some (.hbm a _), .hbm b _ => decide (a = b)
    | _, _ => false
  let no (tag : BitVec 2) (r : Nat) : Bool := used.any fun t => decide (t.tag = tag) && decide (t.region.toNat = r)
  let of (tag : BitVec 2) (m : Nat) : List (BitVec 2 × BitVec 12) :=
    ((List.range m).filter fun r => !no tag r).map fun r => (tag, BitVec.ofNat 12 r)
  match sp with
  | .pad _ _ => of 0 64
  | .pool _ _ => of 1 1024
  | .hbm _ _ => of 2 4096 ++ of 3 4096
  | .host _ => []

/-- The checks of ASET's table on slot and region, in its order (R70, R176); none accepts. A length of 0 or above 16,777,216 is refused "slot
placement" (DESIGN CHOICE, log 75). -/
def State.asetCheck (s : State) (n : CoreId) (cx : Fin 64) (ag : Agent) (slot base : Nat) (rva : Dw) (r : BitVec 512) : Option Cause :=
  let len := recU r 192 25
  let kind := recU r 32 3
  let sOk := match spaceOf slot with | some (.pad _ _) | some (.pool _ _) => true | _ => false
  let place := match spaceOf slot, spaceOf base with
    | some (.pad a _), some (.pad b _) => decide (a = b)
    | some (.pool _ _), some (.pad _ _) => false
    | some _, some (.host _) => false
    | some _, some _ => decide (homeDie slot = homeDie base)
    | _, _ => false
  if slot % 16 ≠ 0 || !sOk || (s.slot? slot).isSome then some .slotPlacement
  else if base % 64 ≠ 0 || decide (len = 0) || decide (unitLimit < len) || decide (s.mappingEnd n cx ag rva < rva.toNat + 64 * len) || !sameSpace base (64 * len) || !place then
    some .slotPlacement
  else if (s.slots.any fun t => overlaps base (64 * len) t.base (64 * t.len64)) || overlaps base (64 * len) slot 16 then some .regionOverlap
  else if (match spaceOf base with | some sp => (s.freeEntries sp).isEmpty | none => true) then some .regionTableFull
  else if recU r 0 32 = 0 ∨ 4 < kind ∨ !argOk kind (r.extractLsb' 64 32) ∨ (kind = 4 ∧ len % 2 = 1) ∨ recU r 35 29 ≠ 0 ∨ recU r 96 32 ≠ 0 ∨
      recU r 217 39 ≠ 0 ∨ recU r 320 192 ≠ 0 ∨ (kind ≠ 4 ∧ recU r 256 64 ≠ 0) then some .slotAction
  else none

/-- An operation that a refusal takes back: it was never issued, and its counters stand as before it (R56, R70). -/
def State.takeBack (s : State) (n : CoreId) (id : Nat) : State :=
  s.modCore n fun c =>
    match c.op? id with
    | none => c
    | some o =>
      { c with ops := c.ops.filter fun e => decide (e.id ≠ id) }.modOwner o.owner fun x =>
        { x with osiss := x.osiss.set o.os.toFin (x.osiss.get o.os.toFin - 1) }

/-- The A seat of the core stands at the word of an operation until its home answers. -/
def Core.standsAt (c : Core) (id : Nat) : Bool := decide (c.ctx.await = some (.answer id))

/-- The home's refusal: a precise trap at the word, which stands at the head of the A seat (R70, R177, R178); where the unit has left, the operation is
taken back, and no trap has a seat to go to (R152) (DEDUCED, log 22). -/
def State.refuse (s : State) (n : CoreId) (id : Nat) (c : Cause) (tval : Dw) : State :=
  let at_ := (s.coreAt n).standsAt id
  let s := s.takeBack n id
  if at_ then (s.modCtx n fun x => { x with await := none }).raise n .a c tval ((s.coreAt n).ctx.seat .a).pc false else s

/-- The home's answer: the word is done and the seat moves on; where the unit has left, the operation is performed (R152). -/
def State.answered (s : State) (n : CoreId) (id : Nat) : State :=
  if (s.coreAt n).standsAt id then ((s.finishOp n id).logWake n .a).modCtx n fun x => { x with await := none }.advance .a .seq else s.finishOp n id

/-- ASET at the home (R67 to R70, R176, R177, R429); which free entry is taken is a choice of the device. -/
def State.answerAset (s : State) (n : CoreId) (o : MemOp) (rpa slot : Nat) (rva : Dw) : State :=
  let r := s.recAt rpa
  if s.poisoned rpa 64 then s.refuse n o.id .data rva
  else
    let base : Dw := r.extractLsb' 128 64
    let c := s.coreAt n
    let cx := c.ownerCtxNum o.owner
    let pt := c.ownerPart o.owner
    let here := c.standsAt o.id
    match (if here then translate s n cx pt (.seat .a) false needRd false base 1 else translateNow s n cx pt false needRd false base 1) with
    | .miss => if here then s.addMiss n cx (.seat .a) base else s
    | .fault c => s.refuse n o.id c base
    | .breaks _ => s.freezeCore n .protection
    | .ok pa =>
      match s.asetCheck n cx (if here then .seat .a else .other) slot pa base r with
      | some c => s.refuse n o.id c o.va
      | none =>
        match spaceOf pa with
        | none => s.refuse n o.id .slotPlacement base
        | some sp =>
          let l := s.freeEntries sp
          let e := l.getD (s.choose 2 l.length) (0, 0)
          let dl : Dw := r.extractLsb' 256 64
          let t : Slot :=
            { pa := slot, expect := r.extractLsb' 0 32, arrived := 0, waiters := [], region := e.2, tag := e.1, kind := r.extractLsb' 32 3,
              phase := false, arg := r.extractLsb' 64 32, closed := false, ovr := false, base := pa, len64 := recU r 192 25, late := 0,
              dline := if dl = 0 ∨ r.extractLsb' 32 3 ≠ (4 : BitVec 3) then BitVec.allOnes 64 else dl,
              die := dieOf n, ctx := cx, part := pt, poisoned := false, wlog := [] }
          ({ s with slots := s.slots ++ [t] }.wakeLine slot 16).answered n o.id

/-- AFREE at the home (R74, R178): the 16 bytes are ordinary memory again, holding zero. -/
def State.answerAfree (s : State) (n : CoreId) (o : MemOp) (slot : Nat) : State :=
  match s.slot? slot with
  | none => s.refuse n o.id .slotState o.va
  | some t =>
    if t.waiters ≠ [] then s.refuse n o.id .slotBusy o.va
    else ({ s with slots := s.slots.filter fun u => decide (u.pa ≠ slot), mem := memWriteBytes s.mem slot (leBytes 0 16) }.wakeLine slot 16).answered n o.id

/-- The state of a slot as AREAD returns it (R180). -/
def State.areadValue (s : State) (slot sel : Nat) : Dw :=
  match s.slot? slot with
  | none => if sel = 0 then BitVec.ofNat 64 (2 ^ 63) else 0
  | some t =>
    if sel = 0 then
      fld 0 t.arrived.toNat ||| fld 32 (bit t.phase) ||| fld 33 t.tag.toNat ||| fld 35 (bit t.closed) ||| fld 36 (bit t.ovr) ||| fld 37 t.kind.toNat |||
      fld 40 t.region.toNat
    else dwOf t.entry (sel - 1)

/-! ## The steps -/

/-- The blocks of an LDV not yet read. -/
def MemOp.left (o : MemOp) : List Nat :=
  match o.kind with
  | .ldv b _ _ _ => (List.range b.length).filter fun i => !o.done.contains i
  | _ => []

/-- An LDV reads one of its blocks, single-copy atomic (R166); the entry it makes lands in QUEUE_ENTRY_LAND (DEDUCED, log 64). -/
def State.readBlock (s : State) (n : CoreId) (o : MemOp) (blocks : List Nat) (i : Nat) : State :=
  let c := s.coreAt n
  let pa := blocks.getD i 0
  let x := c.ownerCtx o.owner
  let l := s.loadSeat x (x.acqOf o.cov (c.ownerAcq o.owner)) pa 64
  let v : Line := BitVec.ofNat 8192 (leValue (l.map fun b => b.1) * 2 ^ (512 * i))
  ((s.countAccess pa 0).noteOf n o (l.mapIdx fun j b => (pa + j, b.2))).modOp n o.id fun o =>
    { o with done := o.done ++ [i], bad := if s.poisoned pa 64 then o.bad ++ [i] else o.bad, buf := o.buf ||| v, homed := decide (blocks.length ≤ o.done.length + 1) }

/-- An operation of the seat itself is performed (R58, R59, R83). -/
def State.performOp (s : State) (n : CoreId) (o : MemOp) : State :=
  let c := s.coreAt n
  match o.kind with
  | .load pa size sext _ =>
    let x := c.ownerCtx o.owner
    let l := s.loadSeat x (x.acqOf o.cov (c.ownerAcq o.owner)) pa size
    let s' := if s.poisoned pa size then s.fill n o.id 0 (some (dataErr o))
      else (s.fillDw n o.id (loadValue (l.map fun b => b.1) sext)).noteOf n o (l.mapIdx fun j b => (pa + j, b.2))
    ((s'.finishOp n o.id).count n 38 1).countAccess pa 0
  | .store _ _ | .stv _ _ => if o.homed then (s.finishOp n o.id).count n 39 1 else s
  | .amo _ _ _ _ _ _ =>
    if !o.homed then s else (if o.bad = [] then s.fill n o.id o.buf none else s.fill n o.id 0 (some (dataErr o))).finishOp n o.id
  | .ldv blocks _ _ _ =>
    match o.left with
    | [] => s
    | l => s.readBlock n o blocks (l.getD (s.choose 3 l.length) 0)
  | .aread slot sel _ =>
    if (match s.slot? slot with | some t => t.poisoned | none => false) then (s.fill n o.id 0 (some (dataErr o))).finishOp n o.id
    else
      let s := s.deadline ((homeDie slot).getD .bow) slot
      let s := s.fillDw n o.id (s.areadValue slot sel)
      let s := if (s.slot? slot).isSome then
          s.modCore n fun c => c.modOwner o.owner fun x => { x with acqs := x.acqs ++ [(o.id, slot, s.nextId)] } else s
      s.finishOp n o.id
  | .acred slot k => (s.credit slot k).finishOp n o.id
  | .rgres hdr _ => s.performRgres n o hdr
  | .rgpub hdr i => s.performRgpub n o hdr i
  | .rgpop hdr j _ => s.performRgpop n o hdr j true
  | .rgcur hdr j _ => s.performRgpop n o hdr j false
  | .chlnk r e => s.performChlnk n o r e
  | .chkck r => s.performChkck n o r
  | .waita _ => s.finishOp n o.id
  | .aset _ _ _ _ | .afree _ | .copy _ | .pattern _ _ | .multicast _ => s

/-! ## Over the bridge to a cut die (R386, R387) -/

/-- The result in flight of an operation, wherever its unit's results stand. -/
def Core.resultOf (c : Core) (id : Nat) : Option InFlight :=
  ((c.ctx :: (c.handler.toList.map fun h => h.saved)) ++ c.stored.map fun h => h.ctx).findSome? fun x => x.inflight.find? fun r => decide (r.op = id)

/-- The home has performed the operation, and what it sends back has not arrived. -/
def MemOp.answered (o : MemOp) : Bool :=
  o.reply.isSome || (o.homed && (match o.kind with | .store _ _ | .stv _ _ | .amo _ _ _ _ _ _ | .ldv _ _ _ _ => true | _ => false))

/-- A home on the other die performs an operation of a cut one: its answer stays on the bridge (R387). -/
def State.performAway (s : State) (n : CoreId) (o : MemOp) : State :=
  let t := s.performOp n o
  if ((t.coreAt n).op? o.id).isSome || (t.coreAt n).frozen ≠ (s.coreAt n).frozen then t
  else
    let x := (s.coreAt n).ownerCtx o.owner
    let y := (t.coreAt n).ownerCtx o.owner
    let r : Reply :=
      { val := ((t.coreAt n).resultOf o.id).map fun f => (f.val, f.err), seen := y.seen.filter fun a => !x.seen.contains a,
        acqs := y.acqs.drop x.acqs.length }
    (t.setCore n (s.coreAt n)).modOp n o.id fun o => { o with homed := true, reply := some r }

/-- The answer arrives (R59, R83, R85). -/
def State.deliver (s : State) (n : CoreId) (o : MemOp) (r : Reply) : State :=
  let s := match r.val with | some v => s.fill n o.id v.1 v.2 | none => s
  let s := match o.kind with | .load _ _ _ _ => s.count n 38 1 | _ => s
  ((s.noteOf n o r.seen).modCore n fun c => c.modOwner o.owner fun x => { x with acqs := x.acqs ++ r.acqs }).finishOp n o.id

end Sys2Proof.Machine
end

