-- ==== Sys2Proof/Machine/Pattern.lean ====
section
/-! DEFINITION. Pattern generators and multicasts (R168 to R173): the record fetch, the runs of a shape, load entries, store entries, and how their
faults reach the queues and the engine-fault queue (R56, R362). -/

namespace Sys2Proof.Machine

open Sys2Proof

/-- A generator of the core, or its multicast port. -/
abbrev Port := Option (Fin 4)

def Core.port (c : Core) : Port → Option Pattern
  | some g => c.pats.get g
  | none => c.mcast

def Core.setPort (c : Core) (g : Port) (p : Option Pattern) : Core :=
  match g with
  | some g => { c with pats := c.pats.set g p }
  | none => { c with mcast := p }

def State.modPort (s : State) (n : CoreId) (g : Port) (f : Pattern → Pattern) : State :=
  s.modCore n fun c => c.setPort g ((c.port g).map f)

def portAgent : Port → Agent
  | some g => .pattern g
  | none => .multicast

/-- The port that works with the serial number. -/
def Core.portOf (c : Core) (serial : Nat) : Option (Port × Pattern) :=
  ([some 0, some 1, some 2, some 3, none] : List Port).findSome? fun g => match c.port g with
    | some p => if p.serial = serial then some (g, p) else none
    | none => none

/-- The runs of a port in order, each one access in parts (R44, R55): all translate, or what the first that does not brings. -/
def translateRuns (s : State) (n : CoreId) (ctx : Fin 64) (p : Fin 32) (ag : Agent) (need : Need) : List (List (Dw × Nat)) → TrAll
  | [] => .ok []
  | run :: r =>
    match run.head? with
    | none => translateRuns s n ctx p ag need r
    | some (va, _) =>
      if crossesRow n va (run.foldl (fun a x => a + x.2) 0) then .fault .localHole va
      else match translateWhole s n ctx p ag need 1 run with
        | .ok a => match translateRuns s n ctx p ag need r with
          | .ok l => .ok (a ++ l)
          | e => e
        | e => e

/-- Every access of a list translates, or what the first that does not brings. -/
def translateAll (s : State) (n : CoreId) (ctx : Fin 64) (p : Fin 32) (ag : Agent) (need : Need) : List (Dw × Nat) → TrAll
  | [] => .ok []
  | (va, size) :: r =>
    match translate s n ctx p ag false need false va size with
    | .fault c => .fault c va
    | .miss => .miss va
    | .breaks _ => .breaks
    | .ok pa => match translateAll s n ctx p ag need r with
      | .ok l => .ok ((pa, size) :: l)
      | e => e

/-! ## The shape -/

def shapeRun (r : BitVec 512) : Nat := recU r 64 16

def shapeCount (r : BitVec 512) : Fin 4 → Nat
  | 0 => recU r 80 16 | 1 => recU r 128 16 | 2 => recU r 176 16 | 3 => recU r 224 16

def shapeStride (r : BitVec 512) : Fin 4 → Dw
  | 0 => (r.extractLsb' 96 32).signExtend 64 | 1 => (r.extractLsb' 144 32).signExtend 64
  | 2 => (r.extractLsb' 192 32).signExtend 64 | 3 => (r.extractLsb' 240 32).signExtend 64

def shapeRuns (r : BitVec 512) : Nat := shapeCount r 0 * shapeCount r 1 * shapeCount r 2 * shapeCount r 3

/-- A record the pattern cannot use (R169, R171). -/
def shapeBad (r : BitVec 512) (store : Bool) : Bool :=
  let m := min (shapeRun r) 64
  decide (r.extractLsb' 273 239 ≠ 0) || ([0, 1, 2, 3] : List (Fin 4)).any (fun d => decide (shapeCount r d = 0)) ||
  !([4, 8, 16, 32, 64, 128, 256, 512, 1024] : List Nat).contains (shapeRun r) || decide (r.getLsbD 272 ≠ store) ||
  decide (recU r 0 64 % m ≠ 0) ||
  ([0, 1, 2, 3] : List (Fin 4)).any (fun d => decide (1 < shapeCount r d) && decide ((shapeStride r d).toNat % m ≠ 0))

/-- The address of run i in the order of R169. -/
def runAddr (r : BitVec 512) (i : Nat) : Dw :=
  let n0 := shapeCount r 0
  let n1 := shapeCount r 1
  let n2 := shapeCount r 2
  r.extractLsb' 0 64 + BitVec.ofNat 64 (i % n0) * shapeStride r 0 + BitVec.ofNat 64 (i / n0 % n1) * shapeStride r 1 +
    BitVec.ofNat 64 (i / (n0 * n1) % n2) * shapeStride r 2 + BitVec.ofNat 64 (i / (n0 * n1 * n2)) * shapeStride r 3

/-- The runs of one entry that starts at run `i`, each in parts of at most 64 bytes. -/
def entryRuns (r : BitVec 512) (i : Nat) : List (List (Dw × Nat)) :=
  let run := shapeRun r
  let m := min run 64
  ((List.range (1024 / run)).filter fun j => decide (i + j < shapeRuns r)).map fun j =>
    (List.range (run / m)).map fun k => (runAddr r (i + j) + BitVec.ofNat 64 (m * k), m)

/-- TVAL of a pattern's fault (R362) (DEDUCED, log 19). -/
def patTval (g : Port) (va : Dw) (kind : Nat) : Dw :=
  (va &&& ~~~(63 : Dw)) ||| fld 0 (match g with | some g => g.val | none => 0) ||| fld 2 1 ||| fld 3 kind

/-! ## The queues of a port -/

/-- The cores whose queue a load pattern fills: the owner's own, or the multicast's members. -/
def Pattern.feeds (p : Pattern) (n : CoreId) (g : Port) : List CoreId :=
  match g with
  | some _ => [n]
  | none => (([0, 1, 2, 3] : List (Fin 4)).filter fun j => p.members.getLsbD j.val).map (crewCore (crewOf n))

/-- The context that holds the port's queue on a core it feeds (DEDUCED, log 70). -/
def State.modFed (s : State) (n m : CoreId) (g : Port) (p : Pattern) (f : Ctx → Ctx) : State :=
  match g with
  | some _ => s.modCore n fun c => c.modOwner p.owner f
  | none => s.modCtx m f

def State.fedQueue (s : State) (n m : CoreId) (g : Port) (p : Pattern) : Queue :=
  match g with
  | some _ => ((s.coreAt n).ownerCtx p.owner).queue p.q
  | none => (s.coreAt m).ctx.queue p.q

/-- The port is done: pat clears, the port is free, the operation is performed (R170). -/
def State.endPort (s : State) (n : CoreId) (g : Port) (p : Pattern) : State :=
  let s := (p.feeds n g).foldl (fun s m => s.modFed n m g p fun x => x.setQueue p.q { x.queue p.q with pat := false }) s
  ((s.modCore n fun c => c.setPort g none).finishOp n p.op).count n 29 1

/-- An entry is reserved and lands in every queue the port feeds (R29, R171, R173); after its unit has gone it is discarded (DEDUCED, log 70). -/
def State.feedEntry (s : State) (n : CoreId) (g : Port) (p : Pattern) (v : Line) (poison : Option Dw) : State :=
  if g.isSome && !(s.coreAt n).ownerStands p.owner then s
  else (p.feeds n g).foldl (fun s m => s.modFed n m g p fun x =>
    x.setQueue p.q (((x.queue p.q).reserve s.nextId).landEntry s.nextId v poison))
    ((p.feeds n g).foldl (fun s m => if g.isNone && decide (m ≠ n) then s.count m 30 1 else s)
      ((p.feeds n g).foldl (fun s m => s.logLine m p.q v) { s with nextId := s.nextId + 1 }))

/-- Room for one more entry in every queue the port feeds. -/
def State.portRoom (s : State) (n : CoreId) (g : Port) (p : Pattern) : Bool :=
  (p.feeds n g).all fun m => !(s.fedQueue n m g p).noRoom || (g.isSome && !(s.coreAt n).ownerStands p.owner)

/-- The drain has reserved an entry of the port's queue that has still to land (R232, R240). -/
def State.fillComes (s : State) (n : CoreId) (g : Port) (p : Pattern) : Bool :=
  g.isSome && (s.coreAt n).unit.isNone && (s.coreAt n).ctx.eng.drainT.isSome && decide ((s.coreAt n).ctx.eng.drainQ = p.q)

/-- A store pattern (its queue is bound for stores). -/
def State.portStores (s : State) (n : CoreId) (g : Port) (p : Pattern) : Bool := g.isSome && decide ((s.fedQueue n n g p).dir = 2)

/-- A fault of the port (R56, R171): a store pattern stops and reports it, and ends once the writes of the entries it has taken are performed; a load
pattern's next entry carries it (DEDUCED, log 19). -/
def State.portFault (s : State) (n : CoreId) (g : Port) (p : Pattern) (kind cause : Nat) : State :=
  let f : EFault := { tval := patTval g p.va kind, cause := cause }
  let s := s.clearWalkAns n (portAgent g)
  if s.portStores n g p then
    let s := s.engineFault n p.owner f.tval f.cause
    if p.writes = [] then s.endPort n g p else s.modPort n g fun p => { p with fault := some f }
  else s.modPort n g fun p => { p with fault := some f, reads := [] }

/-- The check of a multicast's targets (R173): every named member's queue is a load queue with pat clear; pat is set. -/
def State.openTargets (s : State) (n : CoreId) (p : Pattern) : Option State :=
  let l := p.feeds n none
  if l.all fun m => (s.coreAt m).unit.isSome && decide (((s.coreAt m).ctx.queue p.q).dir = 1) && !((s.coreAt m).ctx.queue p.q).pat then
    some (l.foldl (fun s m => s.modCtx m fun x => x.setQueue p.q { x.queue p.q with pat := true }) s)
  else none

/-- The record fetch has ended: a generator goes on, a multicast first checks its targets. -/
def State.afterFetch (s : State) (n : CoreId) (g : Port) (p : Pattern) (k : State → State) : State :=
  match g with
  | some _ => k s
  | none => match s.openTargets n p with
    | some s => k s
    | none => ((s.engineFault n p.owner (patTval g p.va 0) 12).modCore n fun c => c.setPort g none).finishOp n p.op

/-- The record fetch, the port's first access (R64, R170, R171, R367). -/
def State.fetchShape (s : State) (n : CoreId) (g : Port) (p : Pattern) : State :=
  let c := s.coreAt n
  if p.stop then s.endPort n g p
  else match translate s n (c.ownerCtxNum p.owner) (c.ownerPart p.owner) (portAgent g) false needRd (decide (p.va.toNat % 64 ≠ 0)) p.va 64 with
    | .miss => s.addMiss n (c.ownerCtxNum p.owner) (portAgent g) p.va
    | .breaks _ => s.freezeCore n .protection
    | .fault q => s.afterFetch n g p fun s => s.portFault n g p 1 q.efCode
    | .ok pa =>
      if s.poisoned pa 64 then s.afterFetch n g p fun s => s.portFault n g p 3 8
      else
        let r := s.recAt pa
        let s := s.clearWalkAns n (portAgent g)
        if shapeBad r (s.portStores n g p) then s.afterFetch n g p fun s => s.portFault n g p 0 11
        else s.afterFetch n g p fun s => s.modPort n g fun p => { p with shape := some r }

/-- Reads of an operation that are not yet made. -/
def unread (l : List Part) : List Nat := (List.range l.length).filter fun i => match l[i]? with | some a => a.got.isNone | none => false

def partsOf (l : List (Nat × Nat)) : List Part := l.map fun a => { pa := a.1, size := a.2, got := none, bad := false }

/-- One of the reads not yet made, which one is open (R65) (DESIGN CHOICE, log 11). -/
def State.readPart (s : State) (acq : List (Nat × Nat)) (l : List Part) : List Part :=
  let i := (unread l).getD (s.choose 12 (unread l).length) 0
  l.mapIdx fun j a => if j = i then { a with got := some (s.loadBytes acq a.pa a.size), bad := s.poisoned a.pa a.size } else a

/-- An entry that is not yet read whole, nor found at fault. -/
def EntryRead.busy (e : EntryRead) : Bool := e.fault.isNone && (match e.parts with | some l => decide (unread l ≠ []) | none => true)

/-- Entry i of those that a load pattern or multicast reads: its runs are translated, then read in any order (R65, R169, R171, R173). -/
def State.readOn (s : State) (n : CoreId) (g : Port) (p : Pattern) (o : MemOp) (r : BitVec 512) (i : Nat) : State :=
  let c := s.coreAt n
  let put (s : State) (e : EntryRead) : State := s.modPort n g fun p => { p with reads := p.reads.mapIdx fun j x => if j = i then e else x }
  match p.reads[i]? with
  | none => s
  | some e => match e.parts with
    | some l => put s { e with parts := some (s.readPart ((c.ownerCtx p.owner).acqOf o.cov (c.ownerAcq p.owner)) l) }
    | none => match translateRuns s n (c.ownerCtxNum p.owner) (c.ownerPart p.owner) (portAgent g) needRd (entryRuns r (p.next + i * (1024 / shapeRun r))) with
      | .miss va => s.addMiss n (c.ownerCtxNum p.owner) (portAgent g) va
      | .breaks => s.freezeCore n .protection
      | .fault q _ => put (s.clearWalkAns n (portAgent g)) { e with fault := some { tval := patTval g p.va 1, cause := q.efCode } }
      | .ok pas => put (s.clearWalkAns n (portAgent g)) { e with parts := some (partsOf pas) }

/-- A load pattern or multicast works on its entries: it begins to read one more, or goes on with one of those begun; the accesses of all of them are
unordered (R65, R169), which comes first is open (DESIGN CHOICE, log 11). -/
def State.readEntry (s : State) (n : CoreId) (g : Port) (p : Pattern) (o : MemOp) (r : BitVec 512) : State :=
  let work := (List.range p.reads.length).filter fun i => match p.reads[i]? with | some e => e.busy | none => false
  let more := decide (p.next + p.reads.length * (1024 / shapeRun r) < shapeRuns r)
  if p.stop then s
  else match work[s.choose 14 (work.length + bit more)]? with
    | some i => s.readOn n g p o r i
    | none => if more then s.modPort n g fun p => { p with reads := p.reads ++ [{ parts := none, fault := none }] } else s

/-- The next entry of a load pattern or multicast lands once its runs are read (R169, R171, R173); a stopped one makes none (R172) (DEDUCED, log 19)
(DEDUCED, log 64). -/
def State.loadEntry (s : State) (n : CoreId) (g : Port) (p : Pattern) : State :=
  if p.stop then s.endPort n g p
  else if !s.portRoom n g p then s
  else match p.fault with
    | some f => (s.feedEntry n g p 0 (some f.tval)).endPort n g p
    | none => match p.shape with
      | none => s
      | some r =>
        if shapeRuns r ≤ p.next then s.endPort n g p
        else match p.reads with
          | [] => s
          | e :: rest => match e.fault, e.parts with
            | some f, _ => (s.feedEntry n g p 0 (some f.tval)).endPort n g p
            | none, none => s
            | none, some l =>
              if unread l ≠ [] then s
              else if l.any fun a => a.bad then s.portFault n g p 3 8
              else
                let v : Line := BitVec.ofNat 8192 (leValue (l.flatMap fun a => a.got.getD []))
                let s := s.feedEntry n g p v none
                let p := { p with next := p.next + 1024 / shapeRun r, reads := rest }
                if shapeRuns r ≤ p.next then s.endPort n g p else s.modPort n g fun _ => p

/-- The bytes of an entry cut into its accesses. -/
def cutEntry (v : Line) : Nat → List (Nat × Nat) → List (Nat × List Byte)
  | _, [] => []
  | o, (pa, n) :: r => (pa, (List.range n).map fun j => v.extractLsb' (8 * (o + j)) 8) :: cutEntry v (o + n) r

/-- A store pattern takes the entry at its queue's head, whose writes are unordered with those of the entries before it (R65, R169, R171, R74); it ends
once its writes are performed. One whose entries do not come stays an unperformed operation of its unit after the unit has left, until a cancel ends it
where its queue holds none and the drain has reserved none (R232, R426; DEDUCED, log 15). -/
def State.storeEntry (s : State) (n : CoreId) (g : Port) (p : Pattern) : State :=
  let c := s.coreAt n
  match p.shape with
  | none => s
  | some r =>
    let done := if p.writes = [] then s.endPort n g p else s
    if p.stop ∨ shapeRuns r ≤ p.next then done
    else match (s.fedQueue n n g p).head with
      | none => if c.ownerCancelled p.owner && !c.ownerStands p.owner && !s.fillComes n g p then done else s
      | some e =>
        if e.poison.isSome then s.portFault n g p 2 8
        else match translateRuns s n (c.ownerCtxNum p.owner) (c.ownerPart p.owner) (portAgent g) needWr (entryRuns r p.next) with
          | .miss va => s.addMiss n (c.ownerCtxNum p.owner) (portAgent g) va
          | .breaks => s.freezeCore n .protection
          | .fault q _ => s.portFault n g p 1 q.efCode
          | .ok pas =>
            if pas.any fun a => s.hitsSlot a.1 a.2 then s.portFault n g p 1 7
            else
              let w := cutEntry e.data 0 pas
              ((s.clearWalkAns n (portAgent g)).modFed n n g p fun x => x.setQueue p.q (x.queue p.q).take).modPort n g fun p =>
                { p with next := p.next + 1024 / shapeRun r, writes := p.writes ++ w }

/-- One step of a port's operation: its fetch, a read of a load pattern's next entry, or a store pattern's next entry (R63, R64, R65). -/
def State.portStep (s : State) (n : CoreId) (g : Port) (p : Pattern) (o : MemOp) : State :=
  match p.shape, p.fault with
  | none, none => s.fetchShape n g p
  | some r, none => if s.portStores n g p then s.storeEntry n g p else s.readEntry n g p o r
  | _, some _ => s

/-- Write k of a store pattern is performed at its home (R71, R91); a live slot it touches is a fault "protection", and the other writes of the entries
taken go on (R56, R74). With the last of them a pattern at fault ends. -/
def State.patternWrite (s : State) (n : CoreId) (g : Fin 4) (k : Nat) : State :=
  match (s.coreAt n).pats.get g with
  | none => s
  | some p => match p.writes[k]? with
    | none => s
    | some (pa, bytes) =>
      let p := { p with writes := p.writes.eraseIdx k }
      let hit := s.hitsSlot pa bytes.length
      let s := (if hit then s else s.homeStore pa bytes).modPort n (some g) fun _ => p
      if hit && p.fault.isNone then s.portFault n (some g) p 1 7
      else if p.fault.isSome && decide (p.writes = []) then s.endPort n (some g) p
      else s

end Sys2Proof.Machine
end

