-- ==== Sys2Proof/Machine/Copy.lean ====
section
/-! DEFINITION. The copy engine (R182 to R187), chains (R190), the spill ring (R334, R335), and polls of slots (R75). -/

namespace Sys2Proof.Machine

open Sys2Proof

/-! ## Access -/

def Core.copy? (c : Core) (id : Nat) : Option Copy := c.copies.find? fun k => decide (k.id = id)

def State.modCopy (s : State) (n : CoreId) (id : Nat) (f : Copy → Copy) : State :=
  s.modCore n fun c => { c with copies := c.copies.map fun k => if k.id = id then f k else k }

def State.dropCopy (s : State) (n : CoreId) (id : Nat) : State :=
  s.modCore n fun c => { c with copies := c.copies.filter fun k => decide (k.id ≠ id) }

def allCores : List CoreId := List.finRange 352

/-- An operation is performed on whichever core issued it (R186). -/
def State.finishAnywhere (s : State) (id : Nat) : State :=
  match allCores.find? fun n => ((s.coreAt n).op? id).isSome with
  | some n => s.finishOp n id
  | none => s

/-- A fault of a copy; the copy suspends in the event that follows (R184). -/
def State.copyFault (s : State) (n : CoreId) (id cause : Nat) : State :=
  (s.clearWalkAns n (.copy id)).modCopy n id fun k => { k with cause := cause, loads := [] }

/-- Chunk i of those at work changes. -/
def State.modLoad (s : State) (n : CoreId) (id i : Nat) (f : ChunkLoad → ChunkLoad) : State :=
  s.modCopy n id fun k => { k with loads := k.loads.mapIdx fun j x => if j = i then f x else x }

/-- A fault of chunk i of those at work; the copy suspends in the event that follows, once the chunks below are written (R184). -/
def State.loadFault (s : State) (n : CoreId) (id i cause : Nat) : State :=
  (s.clearWalkAns n (.copy id)).modLoad n id i fun x => { x with cause := cause, loaded := false, chunk := [] }

/-- A copy's access, for its context (R185, R368). -/
def State.trCopy (s : State) (n : CoreId) (k : Copy) (need : Need) (mis : Bool) (va : Dw) (size : Nat) (f : Nat → State) : State :=
  match translateFor s n k.ctx (.copy k.id) need mis va size with
  | .ok pa => f pa
  | .fault c => s.copyFault n k.id c.efCode
  | .miss => s.addMiss n k.ctx (.copy k.id) va
  | .breaks _ => s.freezeCopies n

/-- The accesses of chunk i of those at work, each within its row of the local window as part of its run (R44), `runs`. -/
def State.trCopyAll (s : State) (n : CoreId) (k : Copy) (i : Nat) (need : Need) (runs l : List (Dw × Nat)) (f : List (Nat × Nat) → State) : State :=
  if runs.any fun a => crossesRow n a.1 a.2 then s.loadFault n k.id i Cause.localHole.efCode
  else match (match s.ownerOf (dieOf n) k.ctx with | some p => translateAll s n k.ctx p (.copy k.id) need l | none => .breaks) with
  | .ok pas => f pas
  | .fault c _ => s.loadFault n k.id i c.efCode
  | .miss va => s.addMiss n k.ctx (.copy k.id) va
  | .breaks => s.freezeCopies n

/-! ## The record (R182, R185) -/

def recDone (r : BitVec 512) : Nat := recU r 384 32
def recSt (r : BitVec 512) : Nat := recU r 450 2

/-- A record that suspends with "command record" (R185). -/
def copyRecBad (code : BitVec 8) (r : BitVec 512) : Bool :=
  decide (r.extractLsb' 464 48 ≠ 0) || decide (recSt r ≠ 0) || decide (recDone r ≠ 0) || decide (recU r 192 4 ≠ 0) || decide (recU r 256 4 ≠ 0) ||
  (match code.toNat with
   | 0x48 => decide (recU r 128 64 ≠ 0) || decide (recU r 352 32 ≠ 0)
   | 0x49 | 0x4A => decide (recU r 320 32 % 4 ≠ 0)
   | _ => true)

/-- Bytes of the contiguous side (R182). -/
def Copy.total (k : Copy) : Nat := if k.code = 0x48 then recU k.record 320 32 else recU k.record 320 32 * recU k.record 352 32

/-- The last byte of the progress fields: wph and zrep as they were, st and cause (R182). -/
def progressByte (r : BitVec 512) (st cause : Nat) : Byte := BitVec.ofNat 8 (recU r 448 2 + st * 4 + cause * 16)

/-- st is written to the record at a place, with cause 0 over whatever stood there and the byte's other fields as they stand: 1 as a copy starts or
goes on, 3 as it completes (R182, R185) (DEDUCED, log 24). -/
def State.putSt (s : State) (pa st : Nat) : State :=
  s.homeStore (pa + 56) [BitVec.ofNat 8 (s.valueAt (pa + 56) 1 % 4 + st * 4)]

/-- A copy that goes on by itself after a pre-emption has still to set st = 1 in its record (R182, R346) (DEDUCED, log 24). -/
def State.toMark (s : State) (k : Copy) : Bool :=
  decide (s.valueAt (k.recPa + 56) 1 / 4 % 4 = 2) && decide (s.valueAt (k.recPa + 56) 1 / 16 = 10)

/-- st = 1 in the record of a copy that goes on; where the record has come to lie under a live slot, a fault "protection" (R74). -/
def State.markRunning (s : State) (n : CoreId) (id pa : Nat) : State := if s.hitsSlot pa 64 then s.copyFault n id 7 else s.putSt pa 1

/-- The record as the engine left it at the suspension. -/
def Copy.suspendedImage (k : Copy) : BitVec 512 :=
  (k.record &&& ~~~(fld 384 (2 ^ 32 - 1) ||| fld 448 255)) ||| fld 384 (k.done % 2 ^ 32) ||| fld 448 (progressByte k.record 2 k.cause).toNat

/-- The command record is fetched and checked (R64, R185, R367) (DEDUCED, log 39). -/
def State.copyFetch (s : State) (n : CoreId) (k : Copy) : State :=
  s.trCopy n k needRw (decide (k.recVa.toNat % 64 ≠ 0)) k.recVa 64 fun pa =>
    if s.poisoned pa 64 then (s.modCopy n k.id fun k => { k with recPa := pa, located := true }).copyFault n k.id 8
    else
      let r := s.recAt pa
      let s := (s.clearWalkAns n (.copy k.id)).modCopy n k.id fun k => { k with record := r, recPa := pa, located := true, st := .check }
      if copyRecBad k.code r then s.copyFault n k.id 9 else s

/-- The place of a copy's record: where its fetch found it, or, where the fetch itself has failed, where its address leads now. -/
def State.recordPlace (s : State) (n : CoreId) (k : Copy) : Option Nat :=
  if k.located then some k.recPa else match translateNowFor s n k.ctx false needNone false k.recVa 64 with | .ok pa => some pa | _ => none

/-- The core and the suspended copy whose record lies at a place (R186) (DEDUCED, log 24). -/
def State.suspendedAt (s : State) (pa : Nat) : Option (CoreId × Copy) :=
  allCores.findSome? fun n => ((s.coreAt n).copies.find? fun k => decide (k.st = .suspended) && decide (s.recordPlace n k = some pa)).map fun k => (n, k)

/-- The fetch of a CPYR meets a poisoned record (R367): the suspended copy stays suspended, at done = 0 with cause 8, and the command becomes one of
the operations performed with it; with no such copy the command itself suspends. Nothing is written, and the fault is reported (DEDUCED, log 24). -/
def State.resumePoisoned (s : State) (n : CoreId) (k : Copy) (pa : Nat) : State :=
  match s.suspendedAt pa with
  | some (m, old) =>
    let s := (s.dropCopy n k.id).modCopy m old.id fun o => { o with done := 0, cause := 8, resumeOf := k.op.toList ++ o.resumeOf }
    s.engineFault n k.owner k.recVa 8
  | none => (s.modCopy n k.id fun k => { k with recPa := pa, located := true }).copyFault n k.id 8

/-- CPYR and CPYRES (R186, R187, R358): the fetch reads the progress back; the suspended copy goes on in this engine, from chunk done / 512, with the
record its first fetch returned (R64), or with this one where its own fetch failed. With st other than 2, or no such copy, nothing happens and the
command is performed (DEDUCED, log 24). -/
def State.copyResume (s : State) (n : CoreId) (k : Copy) : State :=
  s.trCopy n k needRw (decide (k.recVa.toNat % 64 ≠ 0)) k.recVa 64 fun pa =>
    let r := s.recAt pa
    let nothing := (k.op.toList.foldl (fun (s : State) id => s.finishAnywhere id) s).dropCopy n k.id
    if s.poisoned pa 64 then s.resumePoisoned n k pa
    else match s.suspendedAt pa with
    | none => nothing
    | some (m, old) =>
      if recSt r ≠ 2 then nothing
      else
        let fresh := decide (old.record = 0)
        let k' := { old with op := k.op, owner := k.owner, ctx := k.ctx, resumeOf := old.op.toList ++ old.resumeOf, cause := 0,
                             st := if recU (if fresh then r else old.record) 192 64 ≠ 0 ∧ old.cslot = 0 then .resume else .move,
                             record := if fresh then r else old.record, recPa := pa, located := true, loads := [], done := recDone r / 512 * 512, cancel := k.cancel, frozen := k.frozen,
                             undef := old.undef || (!fresh && decide (r ≠ old.suspendedImage)) }
        let s := (s.dropCopy n k.id).dropCopy m old.id
        let s := match k.op with | some id => s.modOp n id fun o => { o with kind := .copy old.id } | none => s
        (s.modCore n fun c => { c with copies := c.copies ++ [k'] }).markRunning n k'.id pa

/-- A copy that reaches step 1 looks at the phase of its wait slot, and is registered there where it has not come (R185, R75). -/
def State.copyWait (s : State) (n : CoreId) (k : Copy) : State :=
  match s.slot? k.wslot with
  | none => s.copyFault n k.id 13
  | some t =>
    if t.poisoned then s.copyFault n k.id 8
    else if t.phase = k.record.getLsbD 448 then
      { s.modCopy n k.id fun k => { k with st := .move, acq := k.acq ++ [(k.wslot, s.nextId)] } with nextId := s.nextId + 1 }
    else if 65535 ≤ t.waiters.length then s.modCopy n k.id fun k => { k with st := .polling }
    else (s.modCopy n k.id fun k => { k with st := .waitSlot }).modSlot k.wslot fun t => { t with waiters := t.waiters ++ [.copy n k.id] }

/-- A copy that waits unregistered reads the phase again, and stays unregistered (R75). -/
def State.copyPoll (s : State) (n : CoreId) (k : Copy) : State :=
  match s.slot? k.wslot with
  | none => s.copyFault n k.id 13
  | some t =>
    if t.poisoned then s.copyFault n k.id 8
    else if t.phase = k.record.getLsbD 448 then
      { s.modCopy n k.id fun k => { k with st := .move, acq := k.acq ++ [(k.wslot, s.nextId)] } with nextId := s.nextId + 1 }
    else s

/-- After the fetch the copy translates its slots (R185, R429), then looks at its wait slot; a record that has come to lie under a live
slot cannot be written (R74). -/
def State.copyCheck (s : State) (n : CoreId) (k : Copy) : State :=
  let w : Dw := k.record.extractLsb' 256 64
  let c : Dw := k.record.extractLsb' 192 64
  let withSlots (wpa cpa : Nat) : State :=
    let k := { k with wslot := wpa, cslot := cpa }
    let s := (s.clearWalkAns n (.copy k.id)).modCopy n k.id fun _ => k
    if s.hitsSlot k.recPa 64 then s.copyFault n k.id 7 else
    let s := s.putSt k.recPa 1
    if w = 0 then s.modCopy n k.id fun k => { k with st := .move } else s.copyWait n k
  let onC (wpa : Nat) : State := if c = 0 then withSlots wpa 0 else s.trCopy n k needWr false c 16 fun cpa => withSlots wpa cpa
  if w = 0 then onC 0 else s.trCopy n k needRd false w 16 onC

/-- A resumed copy whose completion slot was not yet translated translates it, and goes on without waiting on its wait slot (R185, R186, R429)
(DEDUCED, log 24). -/
def State.copyResumed (s : State) (n : CoreId) (k : Copy) : State :=
  s.trCopy n k needWr false (k.record.extractLsb' 192 64) 16 fun cpa => (s.clearWalkAns n (.copy k.id)).modCopy n k.id fun k => { k with cslot := cpa, st := .move }

/-! ## Moving data (R183, R184) -/

/-- Consecutive addresses joined into accesses that stay within one 64-byte block. -/
def groupBlocks : List Dw → List (Dw × Nat)
  | [] => []
  | a :: r => match groupBlocks r with
    | (b, m) :: t => if b = a + 1 ∧ b.toNat % 64 ≠ 0 then (a, m + 1) :: t else (a, 1) :: (b, m) :: t
    | [] => [(a, 1)]

/-- Data put into the writes of a chunk. -/
def fillWrites (data : List Byte) : List ChunkWrite → List ChunkWrite
  | [] => []
  | w :: r => { w with bytes := data.take w.bytes.length } :: fillWrites (data.drop w.bytes.length) r

def Copy.src (k : Copy) : Dw := k.record.extractLsb' 0 64
def Copy.dst (k : Copy) : Dw := k.record.extractLsb' 64 64
def Copy.idx (k : Copy) : Dw := k.record.extractLsb' 128 64
def Copy.rowLen (k : Copy) : Nat := recU k.record 320 32

/-- The address of position j of the contiguous side on the side that the index list scatters. -/
def Copy.rowAddr (k : Copy) (base : Dw) (ix : Nat → Nat) (j : Nat) : Dw :=
  base + BitVec.ofNat 64 (ix (j / k.rowLen) * k.rowLen + j % k.rowLen)

def Copy.srcAt (k : Copy) (ix : Nat → Nat) (j : Nat) : Dw := if k.code = 0x49 then k.rowAddr k.src ix j else k.src + BitVec.ofNat 64 j

def Copy.dstAt (k : Copy) (ix : Nat → Nat) (j : Nat) : Dw := if k.code = 0x4A then k.rowAddr k.dst ix j else k.dst + BitVec.ofNat 64 j

/-- A run of addresses in pieces that stay within one page of 4 KiB. -/
def pagePieces (a : Dw) (n : Nat) : List (Dw × Nat) :=
  (List.range ((a.toNat % 4096 + n + 4095) / 4096)).map fun i =>
    let lo := max a.toNat ((a.toNat / 4096 + i) * 4096)
    (BitVec.ofNat 64 lo, min (a.toNat + n) ((a.toNat / 4096 + i + 1) * 4096) - lo)

/-- The places of a run of source bytes that have one. -/
def State.sourcePlaces (s : State) (n : CoreId) (k : Copy) (a : Dw) (len : Nat) : List (Nat × Nat) :=
  (pagePieces a len).filterMap fun p => (translateNowFor s n k.ctx false needRd false p.1 p.2).place.map fun pa => (pa, p.2)

/-- The places of a copy's source; the rows of a GATH by its list as memory holds it. -/
def State.copySource (s : State) (n : CoreId) (k : Copy) : List (Nat × Nat) :=
  if k.code = 0x49 then
    (List.range (recU k.record 352 32)).flatMap fun i =>
      match translateNowFor s n k.ctx false needRd false (k.idx + BitVec.ofNat 64 (4 * i)) 4 with
      | .ok pa => s.sourcePlaces n k (k.src + BitVec.ofNat 64 (s.valueAt pa 4 * k.rowLen)) k.rowLen
      | _ => []
  else s.sourcePlaces n k k.src k.total

/-- A destination byte that lies in the source, whose value is undefined (R65) (DESIGN CHOICE, log 8). -/
def overlapsSrc (src : List (Nat × Nat)) (pa : Nat) : Bool := src.any fun a => overlaps pa 1 a.1 a.2

/-- The acquires a copy follows: those its operation follows, those its unit began with, and its own of the wait slot (R85, R91). -/
def Core.copyAcq (c : Core) (k : Copy) : List (Nat × Nat) :=
  k.acq ++ (match k.op with
    | some id => match c.op? id with | some o => (c.ownerCtx o.owner).acqOf o.cov (c.ownerAcq o.owner) | none => []
    | none => [])

/-- The copy seen from chunk i of those at work. -/
def Copy.from_ (k : Copy) (i : Nat) : Copy := { k with done := k.done + 512 * i }

/-- The end of the chunk that begins at `done`. -/
def Copy.hi (k : Copy) : Nat := min (k.done + 512) k.total

/-- The positions of the contiguous side that the chunk at `done` holds. -/
def Copy.span (k : Copy) : List Nat := (List.range (k.hi - k.done)).map (k.done + ·)

/-- The rows that the chunk at `done` meets. -/
def Copy.rows (k : Copy) : List Nat :=
  if k.code = 0x48 then []
  else (List.range ((k.hi - 1) / k.rowLen - k.done / k.rowLen + 1)).map (k.done / k.rowLen + ·)

/-- The index of a row of the chunk at `done`, as its list has been read. -/
def Copy.ixOf (k : Copy) (x : ChunkLoad) (i : Nat) : Nat :=
  match x.ixs[i - k.done / k.rowLen]? with | some a => leValue (a.got.getD []) | none => 0

/-- The runs that the chunk at `done` goes on with, each from its first byte to the last one of the chunk: the contiguous side, or the rows on the side
that the index list scatters (R44). -/
def Copy.runs (k : Copy) (scattered : Bool) (base : Dw) (ix : Nat → Nat) : List (Dw × Nat) :=
  if scattered then k.rows.map fun i => (base + BitVec.ofNat 64 (ix i * k.rowLen), min k.rowLen (k.hi - i * k.rowLen))
  else [(base, k.hi)]

/-- The writes of the chunk at `done`: SCAT's first and last are marked where the chunk's edge cuts a block of their row (R183). -/
def Copy.writes (k : Copy) (vas : List (Dw × Nat)) (pas : List (Nat × Nat)) : List ChunkWrite :=
  let cutLo (a : Dw × Nat) : Bool := decide (k.done % k.rowLen ≠ 0) && decide (a.1.toNat % 64 ≠ 0)
  let cutHi (a : Dw × Nat) : Bool := decide (k.hi % k.rowLen ≠ 0) && decide ((a.1.toNat + a.2) % 64 ≠ 0)
  (vas.zip pas).mapIdx fun i a =>
    { pa := a.2.1, bytes := List.replicate a.2.2 0,
      cut := decide (k.code = 0x4A) && ((decide (i = 0) && cutLo a.1) || (decide (i + 1 = vas.length) && cutHi a.1)) }

/-- Every byte of chunk i of those at work is translated, source and destination (R184, R74) (DEDUCED, log 39). -/
def State.copyPlaces (s : State) (n : CoreId) (k : Copy) (i : Nat) (x : ChunkLoad) : State :=
  let q := k.from_ i
  let ix := q.ixOf x
  let dst := groupBlocks (q.span.map (q.dstAt ix))
  s.trCopyAll n k i needRd (q.runs (decide (k.code = 0x49)) k.src ix) (groupBlocks (q.span.map (q.srcAt ix))) fun spas =>
    s.trCopyAll n k i needWr (q.runs (decide (k.code = 0x4A)) k.dst ix) dst fun dpas =>
      if dpas.any fun a => s.hitsSlot a.1 a.2 then s.loadFault n k.id i 7
      else (s.clearWalkAns n (.copy k.id)).modLoad n k.id i fun x => { x with reads := partsOf spas, dest := q.writes dst dpas }

/-- Chunk i of those at work is loaded: its data stand ready, blocks that could not be read as zeros where the record asks for it, or a fault "data"
(R184). A block that two chunks meet counts once for each of them (DESIGN CHOICE, log 75). -/
def State.copyChunk (s : State) (n : CoreId) (k : Copy) (i : Nat) (x : ChunkLoad) : State :=
  let bad := ((x.reads.filter fun a => a.bad).map fun a => a.pa / 64).eraseDups
  if bad ≠ [] ∧ !k.record.getLsbD 449 then s.loadFault n k.id i 8
  else
    let src := if k.undef then [] else s.copySource n k
    let data := x.reads.flatMap fun a => if a.bad then List.replicate a.size 0 else a.got.getD []
    let at_ := x.dest.flatMap fun w => (List.range w.bytes.length).map (w.pa + ·)
    let data := (data.zip at_).mapIdx fun j y =>
      if k.undef || overlapsSrc src y.2 then (Config.freeLine s.free (8192 + (k.from_ i).done + j)).setWidth 8 else y.1
    s.modLoad n k.id i fun x => { x with chunk := fillWrites data x.dest, loaded := true, ixs := [], reads := [], dest := [], zeros := bad.length }

/-- The engine goes on with chunk i of those at work: its index list is read, then every byte translated, then its source, the reads of each in any order
(R65, R184) (DEDUCED, log 39) (DEDUCED, log 64). -/
def State.copyLoad (s : State) (n : CoreId) (k : Copy) (i : Nat) (x : ChunkLoad) : State :=
  let acq := (s.coreAt n).copyAcq k
  let rows := (k.from_ i).rows
  if x.reads ≠ [] then
    if unread x.reads ≠ [] then (let l := s.readPart acq x.reads; s.modLoad n k.id i fun x => { x with reads := l })
    else s.copyChunk n k i x
  else if k.code ≠ 0x48 ∧ k.idx.toNat % 4 ≠ 0 then s.loadFault n k.id i 6
  else if x.ixs = [] ∧ rows ≠ [] then
    s.trCopyAll n k i needRd [] (rows.map fun j => (k.idx + BitVec.ofNat 64 (4 * j), 4)) fun pas =>
      (s.clearWalkAns n (.copy k.id)).modLoad n k.id i fun x => { x with ixs := partsOf pas }
  else if unread x.ixs ≠ [] then (let l := s.readPart acq x.ixs; s.modLoad n k.id i fun x => { x with ixs := l })
  else if x.ixs.any fun a => a.bad then s.loadFault n k.id i 8
  else s.copyPlaces n k i x

/-- A chunk that is not yet loaded, nor found at fault. -/
def ChunkLoad.busy (x : ChunkLoad) : Bool := decide (x.cause = 0) && !x.loaded

/-- A chunk as the engine begins with it. -/
def ChunkLoad.fresh : ChunkLoad :=
  { ixs := [], reads := [], dest := [], loaded := false, chunk := [], begun := false, cause := 0, zeros := 0 }

/-- The engine begins with one more chunk, or goes on with one of those it has begun with; the accesses of all of them are unordered (R65, R183, R184),
which comes first is open (DESIGN CHOICE, log 11). -/
def State.copyMove (s : State) (n : CoreId) (k : Copy) : State :=
  let work := (List.range k.loads.length).filter fun i => match k.loads[i]? with | some x => x.busy | none => false
  let more := decide (k.done + 512 * k.loads.length < k.total)
  match work[s.choose 14 (work.length + bit more)]? with
  | some i => (match k.loads[i]? with | some x => s.copyLoad n k i x | none => s)
  | none => if more then s.modCopy n k.id fun k => { k with loads := k.loads ++ [ChunkLoad.fresh] } else s

/-- The writes that may be performed: those of a loaded chunk below which every chunk is loaded (R184), each with the chunk's number and its own. -/
def Copy.pending (k : Copy) : List (Nat × Nat × ChunkWrite) :=
  ((k.loads.takeWhile fun x => x.loaded).mapIdx fun i x => x.chunk.mapIdx fun j a => (i, j, a)).flatten

/-- Pending write w may be performed now: in a block that the edge of a chunk cuts, the writes keep their order (R183). -/
def Copy.mayWrite (k : Copy) (w : Nat) : Bool :=
  match k.pending[w]? with
  | none => false
  | some (_, _, a) => (k.pending.take w).all fun b => decide (b.2.2.pa / 64 ≠ a.pa / 64) || !(a.cut || b.2.2.cut)

/-- Chunks written whole leave the front: done moves past them and zcnt counts their replaced blocks (R184). -/
def Copy.pop (k : Copy) : Copy :=
  let gone := k.loads.takeWhile fun x => x.loaded && x.chunk.isEmpty
  { k with loads := k.loads.drop gone.length, done := if gone = [] then k.done else min (k.done + 512 * gone.length) k.total
           zcnt := min 255 (k.zcnt + (gone.map fun x => x.zeros).sum) }

/-- Pending write w is performed at its home (R71, R91). Before the first one of a chunk a live slot that it, or a chunk below it not begun, touches is a
fault "protection" (R74, R184); a cancel or an asked suspension lets no further chunk begin (R13, R346). -/
def State.copyWrite (s : State) (n : CoreId) (id w : Nat) : State :=
  match (s.coreAt n).copy? id with
  | none => s
  | some k => match k.pending[w]? with
    | none => s
    | some (i, j, a) =>
      let isBegun := match k.loads[i]? with | some x => x.begun | none => false
      let hit := (List.range (i + 1)).find? fun q => match k.loads[q]? with
        | some x => !x.begun && x.chunk.any fun b => s.hitsSlot b.pa b.bytes.length
        | none => false
      if !k.mayWrite w || ((k.cancel || k.frozen) && !isBegun) then s
      else match (if isBegun then none else hit) with
        | some q => s.loadFault n id q 7
        | none => ((s.homeStore a.pa a.bytes).count n 28 1).modCopy n id fun k =>
            ({ k with loads := k.loads.mapIdx fun q x =>
                { x with begun := x.begun || decide (q ≤ i), chunk := if q = i then x.chunk.eraseIdx j else x.chunk } } : Copy).pop

/-- No write of a chunk that is not done has been performed: the copy stands at a chunk boundary (R13, R184, R346). -/
def Copy.atBoundary (k : Copy) : Bool := k.loads.all fun x => !x.begun

/-- A copy at a chunk boundary that is cancelled (R13): its entry frees and its operations count as performed (DEDUCED, log 27). -/
def State.copyCancel (s : State) (n : CoreId) (k : Copy) : State :=
  let s := s.dropCopy n k.id
  let s := s.dropWaiters fun w => decide (w = .copy n k.id)
  let s := { s with cores := s.cores.map fun c => { c with chains := c.chains.filter fun h => decide (h.cur ≠ some k.id) } }
  (k.op.toList ++ k.resumeOf).foldl (fun s id => s.finishAnywhere id) s

/-- The copy may make a step: its operation's mask is met and its engine is not frozen (R60, R368). -/
def Core.copyReady (c : Core) (k : Copy) : Bool :=
  !c.cpFrozen && !k.spilled && (match k.op with | some id => (match c.op? id with | some o => c.maskReady o | none => true) | none => true)

/-- One step of a copy that does not write (R184, R185). -/
def State.copyStep (s : State) (n : CoreId) (k : Copy) : State :=
  if !(s.coreAt n).copyReady k then s
  else if k.cancel && k.atBoundary then s.copyCancel n k
  else if k.cause ≠ 0 ∨ k.frozen then s
  else match k.st with
    | .fetch => if k.code = 0x4B then s.copyResume n k else s.copyFetch n k
    | .check => s.copyCheck n k
    | .resume => s.copyResumed n k
    | .move => if k.total ≤ k.done then s else if s.toMark k then s.markRunning n k.id k.recPa else s.copyMove n k
    | _ => s

/-- The fault that a copy has to record: its own, or that of the lowest chunk not done (R184). -/
def Copy.fault (k : Copy) : Nat := if k.cause ≠ 0 then k.cause else match k.loads with | x :: _ => x.cause | [] => 0

/-- The copy stands at a chunk boundary with a fault or a pre-emption to record (R184, R346). -/
def Core.mustSuspend (c : Core) (k : Copy) : Bool :=
  !c.cpFrozen && !k.cancel && !k.spilled && decide (k.st ≠ .suspended) && k.atBoundary &&
  (decide (k.fault ≠ 0) || (k.frozen && decide (k.st = .move) && decide (k.done < k.total)))

/-- The copy suspends (R184, R185, R346, R362): done, st = 2 and cause go to a record that its fetch has read; a fault is queued for the C seat. A record
that has come to lie under a live slot is not written, and is a fault "protection" (R74) (DEDUCED, log 24). -/
def State.suspendCopy (s : State) (n : CoreId) (k : Copy) : State :=
  let writes := decide (k.st ≠ .fetch)
  let under := writes && s.hitsSlot k.recPa 64
  let cause := if under then 7 else if k.fault ≠ 0 then k.fault else 10
  let s := if !writes || under then s
    else (s.homeStore (k.recPa + 48) (leBytes (k.done % 2 ^ 32) 4)).homeStore (k.recPa + 56) [progressByte k.record 2 cause]
  let s := s.modCopy n k.id fun k => { k with st := .suspended, cause := cause, loads := [] }
  if cause ≠ 10 then s.engineFault n k.owner k.recVa cause else s

/-- The pre-empted copies of a unit go on by themselves at its restore (R346). -/
def State.resumePreempted (s : State) (n : CoreId) (serial : Nat) : State :=
  s.modCore n fun c => { c with copies := c.copies.map fun k =>
    if k.owner = serial then
      (if k.st = .suspended ∧ k.cause = 10 then { k with st := .move, cause := 0, frozen := false } else { k with frozen := false })
    else k }

def Core.copyDone (c : Core) (k : Copy) : Bool :=
  c.copyReady k && !k.cancel && decide (k.cause = 0) && decide (k.st = .move) && k.loads.isEmpty && decide (k.total ≤ k.done)

/-- A copy whose writes are all performed completes (R185, R186): the record, then the credit, then the operations; a record that has come to lie
under a live slot is a fault "protection" (R74). -/
def State.completeCopy (s : State) (n : CoreId) (k : Copy) : State :=
  if s.hitsSlot k.recPa 64 then s.copyFault n k.id 7 else
  let s := ((s.homeStore (k.recPa + 48) (leBytes (k.done % 2 ^ 32) 4)).putSt k.recPa 3).homeStore (k.recPa + 57) [BitVec.ofNat 8 k.zcnt]
  let cred := recU k.record 416 32
  let s := if recU k.record 192 64 ≠ 0 ∧ cred ≠ 0 then s.credit k.cslot cred else s
  let s := (s.dropCopy n k.id).count n 27 1
  (k.op.toList ++ k.resumeOf).foldl (fun s id => s.finishAnywhere id) s

/-! ## The spill ring (R334, R335) -/

/-- A latched command whose unit has left the core, where no handler of it can retry the write: the engine takes it after the spilled ones (R335); one that
is cancelled ends (R13) (DEDUCED, log 27). -/
def State.latchTake (s : State) (n : CoreId) : State :=
  let c := s.coreAt n
  match c.latch with
  | none => s
  | some k =>
    if k.cancel then (s.copyCancel n k).modCore n fun c => { c with latch := none }
    else if (match c.unit with | some u => decide (u.serial = k.owner) | none => false) || decide (64 ≤ c.engineEntries) then s
    else s.modCore n fun c => { c with latch := none, copies := c.copies ++ [{ k with spilled := false }] }

/-- The engine takes the next spilled command: the ring's cursor moves on and the command holds an entry; a cursor under a live slot is not written, and
is a fault "protection" (R74). -/
def State.spillTake (s : State) (n : CoreId) : State :=
  let c := s.coreAt n
  match c.copies.find? fun k => k.spilled with
  | none => s.latchTake n
  | some k =>
    if 64 ≤ c.engineEntries then s
    else
      let take (s : State) : State := s.modCopy n k.id fun k => { k with spilled := false }
      match translateNowFor s n k.ctx true needRw false ((s.contextOf n k.ctx).spill + BitVec.ofNat 64 (64 * dieCore n)) 64 with
      | .ok hpa => match translateNowFor s n k.ctx true needRw false (cursorVa (s.recAt hpa) 0) 8 with
        | .ok cpa =>
          if s.hitsSlot cpa 8 then take (s.engineFault n k.owner k.recVa 7) else take (s.homeStore cpa (leBytes (s.valueAt cpa 8 + 1) 8))
        | .breaks _ => s.freezeCopies n
        | _ => take s
      | .breaks _ => s.freezeCopies n
      | _ => take s

/-- The latched command is written again, as RFT retries it, and the supervisor handler is entered when the write faults (R335). -/
def State.spillFaultStep (s : State) (n : CoreId) : State :=
  let c := s.coreAt n
  match c.latch with
  | none => s
  | some k =>
    let om : BitVec 2 × BitVec 4 := match k.op with | some id => (match c.op? id with | some o => (o.os, o.pm) | none => (0, 0)) | none => (0, 0)
    match s.spillWrite n k om.1 om.2 with
    | .written s => s.modCore n fun c => { c with latch := none, copies := c.copies ++ [k] }
    | .breaks => s.freezeCore n .protection
    | .faults => (s.landReserved n).takeTrap n .c { cause := .spillFault, tval := k.recVa, tpc := (c.ctx.seat .c).pc, issued := true } 0

/-! ## Chains (R190) -/

/-- A chain walk after its entry is counted: the next entry is taken, the walk ends, or a link is still being made; an entry whose link cannot be read
is reported once as an engine fault, and the read is made again (DEDUCED, log 27). -/
def State.chainLink (s : State) (n : CoreId) (h : Chain) (put : State → (Chain → Option Chain) → State) : State :=
  if s.hitsSlot h.recPa 64 then put (s.engineFault n h.owner h.entry 7) fun _ => none
  else match translateNowFor s n h.ctx false needRd false (h.entry + 64) 8 with
  | .ok pa =>
    let nxt := s.valueAt pa 8
    if nxt ≠ 0 then
      put (s.homeStore h.recPa (leBytes nxt 8)) fun x => some { x with linking := false, stuck := false, entry := BitVec.ofNat 64 nxt }
    else if s.valueAt (h.recPa + 8) 8 = h.entry.toNat then
      put (((s.homeStore h.recPa (leBytes 0 8)).homeStore (h.recPa + 8) (leBytes 0 8)).homeStore (h.recPa + 16)
        [s.byteAt (h.recPa + 16) &&& 0xFE]) fun _ => none
    else s
  | .breaks _ => s.freezeCopies n
  | .fault c => if h.stuck then s else put (s.engineFault n h.owner h.entry c.efCode) fun x => some { x with stuck := true }
  | .miss => s

/-- One step of a chain walk: its entry starts, a performed entry is counted, or the next one is looked for; a cancelled walk ends between two entries
(R13), and one whose record has come to lie under a live slot ends with a fault "protection" (R74) (DEDUCED, log 27). An entry's op of 0x4B resumes as
CPYR does, and one that is no copy suspends with cause "command record" (DESIGN CHOICE, log 80). -/
def State.chainStep (s : State) (n : CoreId) (h : Chain) : State :=
  let c := s.coreAt n
  let put (s : State) (f : Chain → Option Chain) : State :=
    s.modCore n fun c => { c with chains := c.chains.flatMap fun x => if x.recPa = h.recPa then (f x).toList else [x] }
  if c.cpFrozen then s
  else match h.cur with
  | none =>
    if h.cancel then put s fun _ => none
    else if h.linking then s.chainLink n h put
    else if 64 ≤ c.engineEntries ∨ c.copies.any (fun k => k.spilled) then s
    else
      let k : Copy := { newCopy s.nextId h.owner h.ctx (s.byteAt (h.recPa + 17)) h.entry with chained := true }
      let s := { s with nextId := s.nextId + 1 }
      put (s.modCore n fun c => { c with copies := c.copies ++ [k] }) fun x => some { x with cur := some k.id }
  | some id =>
    if allCores.any fun m => ((s.coreAt m).copy? id).isSome then s
    else if s.hitsSlot h.recPa 64 then put (s.engineFault n h.owner h.entry 7) fun _ => none
    else put (s.homeStore (h.recPa + 24) (leBytes ((s.valueAt (h.recPa + 24) 4 + 1) % 2 ^ 32) 4)) fun x => some { x with cur := none, linking := true }

/-! ## Polls (R75) -/

/-- An unregistered AWAIT or copy reads the phase again; an AWAIT whose slot is no longer live traps as its seat looks again (R75). -/
def State.pollSlot (s : State) (w : Waiter) : State :=
  match w with
  | .await n =>
    match (s.coreAt n).ctx.await with
    | some (.await pa ph true none) =>
      if (match s.slot? pa with | some t => decide (t.phase ≠ ph) | none => false) then
        (s.modCtx n fun x => { x with await := some (.await pa ph true (some s.nextId)) }).logWake n .a
      else s
    | _ => s
  | .copy n id =>
    match (s.coreAt n).copy? id with
    | some k => if k.st = .polling then s.copyPoll n k else s
    | none => s
  | _ => s

end Sys2Proof.Machine
end

