-- ==== Sys2Proof/Machine/MemEvents.lean ====
section
/-! DEFINITION. The events of memory (spec/95): operations performed, writes at their homes, queue entries, slots, page walks, copies, chains, the spill
ring, SPAWN's push (R150) and PARK's registration (R18, R19). An event that is not due has no effect (DESIGN CHOICE, log 16). -/

namespace Sys2Proof.Machine

open Sys2Proof

/-! ## Operations -/

/-- The die of a core, or the other one, is cut. -/
def State.cut (s : State) (d : DieId) : Bool := (s.die d).snap.isSome

/-- A place whose home is on the other die than a core's. -/
def far (n : CoreId) (pa : Nat) : Bool := decide (homeDie pa = some (dieOf n).other)

/-- The operation reaches a home on the other die over the bridge. -/
def State.overBridge (n : CoreId) (o : MemOp) : Bool := o.kind.places.any (far n)

/-- Reads of a list that have still to be made over the bridge. -/
def farReads (n : CoreId) (l : List Part) : List Part := l.filter fun a => a.got.isNone && far n a.pa

/-- The reads of a copy that have still to be made over the bridge. -/
def Copy.farReads (n : CoreId) (k : Copy) : List Part := k.loads.flatMap fun x => Sys2Proof.Machine.farReads n (x.ixs ++ x.reads)

/-- The reads of a port that have still to be made over the bridge. -/
def Pattern.farReads (n : CoreId) (p : Pattern) : List Part := p.reads.flatMap fun e => Sys2Proof.Machine.farReads n (e.parts.getD [])

/-- A step of a copy waits for a cut die on the other side of the bridge: it has not reached its data yet, or its record, its slots or its reads lie there
(R386) (DEDUCED, log 67). -/
def State.copyHeld (s : State) (n : CoreId) (k : Copy) : Bool :=
  s.cut (dieOf n).other && (decide (k.st ≠ .move) || far n k.recPa || (decide (k.cslot ≠ 0) && far n k.cslot) || decide (k.farReads n ≠ []))

/-- As `copyHeld`, for a port. -/
def State.portHeld (s : State) (n : CoreId) (o : MemOp) : Bool :=
  s.cut (dieOf n) || (s.cut (dieOf n).other && (match (s.coreAt n).portOf o.id with
    | some (_, p) => p.shape.isNone || decide (p.farReads n ≠ [])
    | none => false))

/-- A message that a cut die already holds. -/
def State.heldMsg (s : State) (d : DieId) (m : Msg) : Bool := match (s.die d).snap with | some p => p.heldMsgs.contains m | none => false

/-- A cut die holds what the bridge brings, and pauses its own generators (R386); of a cut die's own operations over the bridge the home's answer is held,
and what the die itself asks is not asked for it (R387) (DEDUCED, log 67). -/
def State.linkHeld (s : State) (n : CoreId) (o : MemOp) : Bool :=
  let e := (dieOf n).other
  match o.kind with
  | .pattern _ _ | .multicast _ => s.portHeld n o
  | .copy k => match (s.coreAt n).copy? k with | some k => s.copyHeld n k | none => false
  | .aset _ _ _ _ | .afree _ | .chkck _ => State.overBridge n o && (s.cut e || s.cut (dieOf n))
  | _ => State.overBridge n o && (s.heldMsg (dieOf n) (.reply n o.id) || (s.cut e && !o.answered))

/-- An operation may take its next step now. -/
def State.mayStep (s : State) (n : CoreId) (o : MemOp) : Bool := s.opReady n o && !s.linkHeld n o

/-- An operation that the bridge brings to a cut die, which has not held it yet (R386, R387) (DEDUCED, log 67). -/
def State.arrives (s : State) (n : CoreId) (o : MemOp) : Bool :=
  s.opReady n o && State.overBridge n o && !o.answered && s.cut (dieOf n).other && !s.heldMsg (dieOf n).other (.op n o.id)

/-- A CRD reads its counter at the counter's home (R154). -/
def State.answerCrd (s : State) (n : CoreId) (k : CrdAsk) : State :=
  (s.modCore n fun c => { c with crds := c.crds.filter fun e => decide (e.op ≠ k.op) }).fillDw n k.op
    (s.readMember (dieOf n) k.part { level := k.level, a := k.a, b := k.b })

/-- OPERATION_PERFORMED (R58, R60, R154): an operation of the seat is performed, a port or a copy makes its next step, or a CRD is answered. -/
def State.stepOp (s : State) (n : CoreId) (id : Nat) : State :=
  let c := s.coreAt n
  match c.op? id with
  | some o =>
    if s.arrives n o then (s.crosses (dieOf n)).hold (dieOf n).other .bridge (.op n o.id)
    else if !s.mayStep n o then s
    else
      match o.kind with
      | .copy k => match c.copy? k with | some k => s.copyStep n k | none => s
      | .pattern _ _ | .multicast _ => match c.portOf o.id with | some (g, p) => s.portStep n g p o | none => s
      | _ =>
        if !State.overBridge n o then s.performOp n o
        else
          let s := (s.crosses (dieOf n)).crosses (dieOf n).other
          if s.cut (dieOf n) then (if o.answered then s.hold (dieOf n) .bridge (.reply n o.id) else s.performAway n o)
          else match o.reply with
            | some r => s.deliver n o r
            | none => s.performOp n o
  | none => match c.copy? id with
    | some k => if s.copyHeld n k then s else s.copyStep n k
    | none => match c.crds.find? fun k => decide (k.op = id) with | some k => s.answerCrd n k | none => s

/-- OPERATION_PERFORMED (R58, R59, R60, R63, R83). -/
def execOperationPerformed (n : CoreId) (id : Nat) (s : State) : Host.Outcome State Fault Refusal := .next (s.stepOp n id)

/-- Pending write k of a copy, which waits for a cut die over the bridge: a die cut before it holds the write as a message (R386, R387), and that of a copy
whose own die is cut stays on the bridge (DEDUCED, log 67). -/
def State.copyWriteOr (s : State) (n : CoreId) (id k : Nat) : State :=
  let e := (dieOf n).other
  match (s.coreAt n).copy? id with
  | none => s
  | some y => match y.pending[k]? with
    | none => s
    | some (i, _, a) =>
      let begun := match y.loads[i]? with | some x => x.begun | none => false
      if !far n a.pa || !(s.cut e || s.cut (dieOf n)) then s.copyWrite n id k
      else
        let m : Msg := .copyAccess n id a.pa a.bytes
        if s.cut (dieOf n) || s.heldMsg e m || !y.mayWrite k || (!begun && (y.cancel || y.frozen)) then s
        else ((s.crosses (dieOf n)).hold e .bridge m).modCopy n id fun y =>
          { y with loads := y.loads.mapIdx fun q x => { x with begun := x.begun || decide (q ≤ i) } }

/-- As `copyWriteOr`, for write k of a store pattern; those of a paused pattern whose homes are on its own die go on to the entry boundary. -/
def State.patternWriteOr (s : State) (n : CoreId) (g : Fin 4) (k : Nat) : State :=
  let e := (dieOf n).other
  match ((s.coreAt n).pats.get g).bind fun p => p.writes[k]? with
  | none => s
  | some (pa, bytes) =>
    if !far n pa || !(s.cut e || s.cut (dieOf n)) then s.patternWrite n g k
    else
      let m : Msg := .portAccess n g pa bytes
      if s.cut (dieOf n) || s.heldMsg e m then s else (s.crosses (dieOf n)).hold e .bridge m

/-- HOME_WRITE (R71, R91): one part of a store, an atomic, a copy or a store pattern is performed, or a write from outside the package (R90)
(DEDUCED, log 28). -/
def State.writeHome (s : State) (w : WriteSrc) : State :=
  match w with
  | .seat n id blk =>
    match (s.coreAt n).op? id with
    | some o => if s.mayStep n o && !o.done.contains blk then s.performPart n o blk else s
    | none => s
  | .copy n id k => if (s.coreAt n).cpFrozen then s else s.copyWriteOr n id k
  | .pattern n g k => s.patternWriteOr n g k
  | .outside pa bytes =>
    if s.cut ((homeDie pa).getD .bow) && (homeDie pa).isSome then s.hold ((homeDie pa).getD .bow) .host (.write w)
    else if (spaceOf pa).isSome && !s.hitsSlot pa bytes.length then s.homeStore pa bytes else s
  | .outsideAmo pa w64 op v =>
    let m := if w64 then 8 else 4
    if s.cut ((homeDie pa).getD .bow) && (homeDie pa).isSome then s.hold ((homeDie pa).getD .bow) .host (.write w)
    else if (spaceOf pa).isNone || s.hitsSlot pa m || s.poisoned pa m then s
    else s.amoStore pa w64 op v (BitVec.ofNat 64 (s.valueAt pa m))

/-- HOME_WRITE (R71, R72, R83, R91). -/
def execHomeWrite (w : WriteSrc) (s : State) : Host.Outcome State Fault Refusal := .next ((s.writeHome w).fresh)

/-- An ASET or AFREE that its home may answer: the one at which the A seat stands, or one of a unit that has left its core (R152). -/
def Core.asks (c : Core) (o : MemOp) : Bool :=
  (match o.kind with | .aset _ _ _ _ | .afree _ => true | _ => false) && (c.standsAt o.id || !c.ownerStands o.owner)

/-- HOME_ANSWER (R152, R177, R178): the home answers an ASET or AFREE. -/
def State.homeAnswer (s : State) (n : CoreId) : State :=
  match (s.coreAt n).ops.find? fun o => (s.coreAt n).asks o && s.mayStep n o with
  | some o => match o.kind with
    | .aset r slot _ va => s.answerAset n o r slot va
    | .afree slot => s.answerAfree n o slot
    | _ => s
  | none => s

/-- HOME_ANSWER (R70, R152, R177, R178). -/
def execHomeAnswer (n : CoreId) (s : State) : Host.Outcome State Fault Refusal := .next (s.homeAnswer n)

/-- QUEUE_ENTRY_LAND (R29): the entry of an LDV whose blocks are all read lands, poisoned where one was as it was read (R166, R367); or the port of the operation
makes its next entry (R169, R173) (DEDUCED, log 70). -/
def State.landQueue (s : State) (n : CoreId) (q : BitVec 3) (k : Nat) : State :=
  let c := s.coreAt n
  match c.op? k with
  | none => s
  | some o => if !s.mayStep n o then s else match o.kind with
    | .ldv blocks va q' t =>
      if q' ≠ q ∨ !o.homed then s
      else if State.overBridge n o && s.cut (dieOf n) then s.hold (dieOf n) .bridge (.reply n k)
      else
        let bad := (List.range blocks.length).find? fun i => o.bad.contains i
        let poison : Option Dw := bad.map fun i => (va + BitVec.ofNat 64 (64 * i)) &&& ~~~(63 : Dw)
        ((s.logLine n q o.buf).modCore n fun c => c.modOwner o.owner fun x => x.setQueue q ((x.queue q).landEntry t o.buf poison)).finishOp n k
    | .pattern _ _ | .multicast _ => match c.portOf o.id with
      | some (g, p) => if p.q = q ∧ !s.portStores n g p then s.loadEntry n g p else s
      | none => s
    | _ => s

/-- QUEUE_ENTRY_LAND (R29, R47, R56). -/
def execQueueEntryLand (n : CoreId) (q : BitVec 3) (k : Nat) (s : State) : Host.Outcome State Fault Refusal := .next (s.landQueue n q k)

/-! ## Slots -/

/-- GUARDED_DEADLINE (R79). -/
def execGuardedDeadline (slot : Nat) (s : State) : Host.Outcome State Fault Refusal := .next (s.deadline ((homeDie slot).getD .bow) slot)

/-- WAITA_WAKE (R89, R196): the waiting A seat goes on. -/
def execWaitaWake (n : CoreId) (s : State) : Host.Outcome State Fault Refusal :=
  .next (match (s.coreAt n).ctx.await with
    | some (.line _ _ true) => (s.modCtx n fun x => { x with await := none }).logWake n .a
    | _ => s)

/-! ## Page walks -/

/-- PAGE_WALK_START (R54): the oldest waiting miss takes a free walker of the 32. -/
def State.startWalk (s : State) (d : DieId) : State :=
  let l := (s.die d).walks
  if 32 ≤ (l.filter fun w => w.started).length then s
  else
    let before := l.takeWhile fun w => w.started
    match l.drop before.length with
    | w :: r => (s.modDie d fun x => { x with walks := before ++ { w with started := true } :: r }).countDie d 51 1
    | [] => s

/-- PAGE_WALK_START (R54). -/
def execPageWalkStart (d : DieId) (s : State) : Host.Outcome State Fault Refusal := .next (s.startWalk d)

/-- Every access that joined a walk receives what it brings (R54). -/
def State.answerWalk (s : State) (w : Walk) (a : WalkAns) : State :=
  w.waiters.foldl (fun s x => s.modCore x.1 fun c => { c with walkAns := c.walkAns ++ [(x.2, w.page, a)] }) s

/-- A table that the context's partition may not reach freezes the masters whose accesses the walk serves (R368, R400). -/
def State.walkBreaks (s : State) (w : Walk) : State :=
  w.waiters.foldl (fun s x => match x.2 with
    | .copy _ => s.freezeCopies x.1
    | _ => s.freezeCore x.1 .protection) s

/-- PAGE_WALK_COMPLETE (R52 to R55): every waiter receives the translation or the fault, and a translation is cached unless the page was dropped
meanwhile (R360); a table entry that names no location stops the machine (DEDUCED, log 63) (DESIGN CHOICE, log 74). -/
def execPageWalkComplete (d : DieId) (k : Nat) (s : State) : Host.Outcome State Fault Refusal :=
  match (s.die d).walks[k]? with
  | none => .next s
  | some w =>
    if !w.started then .next s
    else
      let s := s.modDie d fun x => { x with walks := x.walks.eraseIdx k }
      let va := w.page.toNat * 4096
      let reach (pa : Nat) : Bool := match s.ownerOf d w.ctx with | some p => s.mayReach p pa | none => false
      match walkTables s.dwAt reach d va 5 ((s.die d).contexts.get w.ctx).ptroot.toNat with
      | .leaf e =>
        let size := pageBytes (pteSz e)
        let t : Tlb := { ctx := w.ctx, va := BitVec.ofNat 64 (va / size * size), size := size, leaf := e }
        .next ((if w.stale then s else s.modDie d fun x => { x with tlb := x.tlb ++ [t] }).answerWalk w (.leaf e))
      | .fault c => .next (s.answerWalk w (.fault c))
      | .breaks _ => .next (s.walkBreaks w)
      | .noLoc pa => .fault (.noLocation pa)

/-! ## Copies -/

/-- COPY_SUSPEND (R184, R346). -/
def execCopySuspend (n : CoreId) (id : Nat) (s : State) : Host.Outcome State Fault Refusal :=
  .next (match (s.coreAt n).copy? id with
    | some k => if (s.coreAt n).mustSuspend k && !(s.cut (dieOf n).other && far n k.recPa) then s.suspendCopy n k else s
    | none => s)

/-- COPY_COMPLETE (R185, R186). -/
def execCopyComplete (n : CoreId) (id : Nat) (s : State) : Host.Outcome State Fault Refusal :=
  .next (match (s.coreAt n).copy? id with
    | some k => if (s.coreAt n).copyDone k && !s.copyHeld n k then s.completeCopy n k else s
    | none => s)

/-- SPILL_COMMAND_TAKE (R187, R334). -/
def execSpillCommandTake (n : CoreId) (s : State) : Host.Outcome State Fault Refusal := .next (s.spillTake n)

/-- SPILL_FAULT (R335): with no handler running. -/
def execSpillFault (n : CoreId) (s : State) : Host.Outcome State Fault Refusal :=
  .next (if (s.coreAt n).handler.isNone && (s.coreAt n).unit.isSome && (s.coreAt n).frozen.isNone then s.spillFaultStep n else s)

/-- CHAIN_ADVANCE (R190): one of the core's chains. -/
def execChainAdvance (n : CoreId) (s : State) : Host.Outcome State Fault Refusal :=
  .next (match (s.coreAt n).chains[s.choose 4 (s.coreAt n).chains.length]? with
    | some h => s.chainStep n h
    | none => s)

/-! ## SPAWN and PARK -/

/-- The unit record that a SPAWN may push (R23, R78, R149, R150, R331): none where it is refused. -/
def State.spawnRecord (s : State) (n : CoreId) (u : UnitInfo) (pa : Nat) : Option UnitRec :=
  let d := dieOf n
  let r := s.recAt pa
  if s.poisoned pa 64 ∨ !unitRecOk r ∨ (s.drainOf d u.ctx).isSome then none
  else match (s.die d).kernel? u.ctx (r.extractLsb' 0 64) with
    | none => none
    | some _ => if (s.part u.part d).share ≤ (s.die d).taskCount u.part then none else some (unitRecOf r)

/-- The first SPAWN of the core whose earlier operations are all performed (R150). -/
def Core.spawnDue (c : Core) : Option (Nat × Dw × UnitInfo × List Nat) :=
  c.spawns.find? fun p => p.2.2.2.all fun id => (c.op? id).isNone

/-- A SPAWN reads its record and pushes the unit, or counts it as a cancelled member of the phase with a fault (R12, R150, R368). -/
def State.spawnPush (s : State) (n : CoreId) : State :=
  let c := s.coreAt n
  match c.spawnDue with
  | none => s
  | some (id, va, u, _) =>
    if s.cut (s.phaseHome (dieOf n) u.phid) then s else
    match translateNow s n u.ctx u.part false needRd (decide (va.toNat % 64 ≠ 0)) va 64 with
    | .breaks _ => s.freezeCore n .protection
    | tr =>
      let s := s.modCore n fun c => { c with spawns := c.spawns.filter fun p => decide (p.1 ≠ id) }
      match tr.place.bind (s.spawnRecord n u) with
      | some r => s.pushUnit (dieOf n) r u.part u.ctx u.prio u.dline u.phid u.jid (u.acq ++ (c.ownerCtx u.serial).acqs.map fun a => a.2)
      | none => s.modDie (s.phaseHome (dieOf n) u.phid) fun x => x.modPhase u.phid fun p =>
          { p with pushed := p.pushed + 1, pushedDone := p.pushedDone + 1, ucan := sat32 (p.ucan + 1), faults := sat32 (p.faults + 1) }

/-- SPAWN_PUSH (R23, R150). -/
def execSpawnPush (n : CoreId) (s : State) : Host.Outcome State Fault Refusal := .next (s.spawnPush n)

/-- A V, A or M seat is inactive or waits at a TWAIT or FWAIT (R18). One that stands at a stroked TWAIT or FWAIT only for its stroke partners, its token or
flag being as it asks, does not count as waiting (DESIGN CHOICE, log 75). -/
def State.seatAtWait (s : State) (n : CoreId) (k : SeatId) : Bool :=
  let c := s.coreAt n
  !(c.ctx.seat k).act ||
  (match s.fetch n k with
   | .word w => match decode k w with
     | .ok (.twait _ t m) => decide ((c.ctx.k.get t.toFin).toNat < m.toNat)
     | .ok (.fwait _ f v) => decide (c.ctx.f.getLsbD f.toNat ≠ (v = 1))
     | _ => false
   | _ => false)

/-- The unit is quiescent (R18). Results still in flight, which the rule does not name, are waited for too, so that the record keeps the values they
land (DESIGN CHOICE, log 75). -/
def State.quiescent (s : State) (n : CoreId) : Bool :=
  let c := s.coreAt n
  match c.unit with
  | none => false
  | some u =>
    (c.ops.all fun o : MemOp => decide (o.owner ≠ u.serial)) && (c.ctx.queues.toList.all fun q => q.ents.isEmpty) && c.ctx.eng.opq.isEmpty &&
    !c.ctx.eng.dbusy && c.ctx.inflight.isEmpty && s.seatAtWait n .a && s.seatAtWait n .v && s.seatAtWait n .m

/-- The continuation record of the unit (R21), with the acquires that the resumed unit still follows (R85). -/
def Ctx.contRec (x : Ctx) (u : UnitInfo) (p : ParkWait) : ContRec :=
  { cpc := p.pc + 12, argb := u.argb, rmask := p.mask, prio := u.prio, ucnt := u.ucnt, uidx := u.uidx, lid := u.lid, phid := u.phid, jid := u.jid,
    ctx := u.ctx, dline := u.dline, osc := x.osiss,
    regs := ((List.range 32).filter fun i => p.mask.getLsbD i).map fun i => x.c.toArray.getD i 0,
    part := u.part, kdesc := u.kdesc, bad := none, acq := u.acq, acqs := x.acqs, scov := x.scov }

/-- The core of a parked or removed unit is free: nothing of the unit stays on it. -/
def State.clearCore (s : State) (n : CoreId) : State :=
  (s.dropWaits n).modCore n fun c => { c with unit := none, handler := none, frozen := none, hold := false, efq := [], ctx := { c.ctx with
    seats := c.ctx.seats.map fun t => { t with act := false, cause := none, loop := none, strk := false, dslots := 0, dtaken := false }
    inflight := [], park := none, await := none, shape := none } }

/-- The slot already holds the awaited phase: the unit does not park and has acquired the phase (R19, R85). -/
def State.goOn (s : State) (n : CoreId) (pa : Nat) : State :=
  let s := { s with nextId := s.nextId + 1 }
  s.modCore n fun c =>
    { c with ctx := { c.ctx with park := none }, unit := c.unit.map fun u => { u with acq := u.acq ++ [(pa, s.nextId - 1)] } }

/-- PARK once the unit is quiescent (R18, R19, R75, R151). -/
def State.parkRegister (s : State) (n : CoreId) : State :=
  let c := s.coreAt n
  match c.ctx.park, c.unit with
  | some p, some u =>
    let trap (q : Cause) (s : State) : State :=
      (s.modCtx n fun x => { x with park := none }).raise n .c q p.slotVa p.pc true
    if !s.running n || s.playing n || decide ((c.ctx.seat .c).dslots ≠ 0) then s
    else if u.cancelPending then s.leaveUnit n true false 0
    else if !s.quiescent n then s
    else match translate s n u.ctx u.part (.seat .c) false needRd (decide (p.slotVa.toNat % 16 ≠ 0)) p.slotVa 16 with
      | .miss => s.addMiss n u.ctx (.seat .c) p.slotVa
      | .breaks _ => s.freezeCore n .protection
      | .fault q => trap q (s.clearWalkAns n (.seat .c))
      | .ok pa =>
        let s := s.clearWalkAns n (.seat .c)
        match s.slot? pa with
        | none => trap .slotState s
        | some t =>
          if t.part ≠ u.part then trap .slotState s
          else if t.poisoned then trap .data s
          else if t.phase = decide (p.phase = 1) then
            (s.logWake n .c).goOn n pa
          else if p.polling then s
          else if 65535 ≤ t.waiters.length then s.modCtx n fun x => { x with park := some { p with polling := true } }
          else
            let r : Parked := { id := s.nextId, die := dieOf n, slot := pa, va := p.slotVa, record := c.ctx.contRec u p }
            let s := { s with parked := s.parked ++ [r], nextId := s.nextId + 1 }
            ((s.modSlot pa fun t => { t with waiters := t.waiters ++ [Waiter.parked r.id] }).endOn n 5).clearCore n
  | _, _ => s

/-- PARK_REGISTER (R18, R19, R151). -/
def execParkRegister (n : CoreId) (s : State) : Host.Outcome State Fault Refusal := .next (s.parkRegister n)

/-! ## Sends held for the peer (R416) -/

/-- The endpoint queue of a session is not frozen (R368). -/
def State.queueFlows (s : State) (d : DieId) (sid : Nat) : Bool :=
  match (s.die d).session? sid with | some x => !(s.die d).frozenQs.contains x.epq.val | none => true

/-- The endpoint queue of a session sends now: neither it is frozen nor its die cut (R368, R386). -/
def State.maySend (s : State) (d : DieId) (sid : Nat) : Bool := (s.die d).snap.isNone && s.queueFlows d sid

/-- MIRROR_ACK (R416, R424): the peer has the sequence; the chunk leaves as the region stood at the flip. -/
def State.mirrorAck (s : State) (d : DieId) (sid : Nat) : State :=
  match (s.die d).sends.find? fun x => decide (x.sid = sid) && x.mirrored && s.maySend d sid with
  | none => s
  | some x =>
    (s.modDie d fun y => { y with sends := y.sends.erase x }).sendChunk d x

/-- MIRROR_ACK (R416). -/
def execMirrorAck (d : DieId) (sid : Nat) (s : State) : Host.Outcome State Fault Refusal := .next (s.mirrorAck d sid)

/-- The acknowledgement of a mirrored sequence arrives at the die that sends the chunk. -/
def State.mirrored (s : State) (d : DieId) (sid : Nat) (q : Word) : State :=
  s.modDie d fun x => { x with sends := x.sends.map fun z => if z.sid = sid ∧ z.seq = q then { z with mirrored := true } else z }

/-- The sequence of a chunk that the other die has sent over the bridge and die d has not received. -/
def State.mirrorDue (s : State) (d : DieId) (sid : Nat) (q : Word) : Bool :=
  decide ((s.die d).start = .running) && !s.heldMsg d (.mirror sid q) && !s.heldMsg d.other (.mirrored sid q) &&
  (s.die d.other).sends.any fun z => decide (z.sid = sid ∧ z.seq = q) && z.asked && !z.mirrored

/-- LASTSENT_MIRROR_WRITE (R416): the peer die stores the sequence in its session entry, open or not, and acknowledges it; a cut peer holds the write, and the
acknowledgement that comes to a cut die is held (R386) (DEDUCED, log 67). -/
def State.mirrorWrite (s : State) (d : DieId) (sid : Nat) (q : Word) : State :=
  if !s.mirrorDue d sid q then s
  else if s.cut d then (s.crosses d.other).hold d .bridge (.mirror sid q)
  else
    let s := ((s.crosses d.other).crosses d).modDie d fun x => x.setLast sid q
    if s.cut d.other then s.hold d.other .bridge (.mirrored sid q) else s.mirrored d.other sid q

/-- LASTSENT_MIRROR_WRITE (R416). -/
def execLastsentMirrorWrite (d : DieId) (sid : Nat) (q : Word) (s : State) : Host.Outcome State Fault Refusal := .next (s.mirrorWrite d sid q)

end Sys2Proof.Machine
end

