-- ==== Sys2Proof/Machine/Front.lean ====
section
/-! DEFINITION. The front end's accesses, completion records and signals (R313, R314), the cursor of a ring (R309), and the release and completion of
phases (R12, R13, R316, R319). -/

namespace Sys2Proof.Machine

open Sys2Proof

/-! ## Accesses -/

/-- A core of the die: the front end's accesses are translated as those of an agent of the die (R50). -/
def feCore : DieId → CoreId
  | .bow => 0
  | .stern => 176

inductive FeTr
  | ok (pa : Nat)
  | fault
  | breaks
deriving DecidableEq, Repr

/-- An access of the front end through a ring's context; it has no local window. -/
def State.feAccess (s : State) (d : DieId) (ctx : Fin 64) (part : Fin 32) (need : Need) (align size : Nat) (va : Dw) : FeTr :=
  if localBase ≤ va.toNat then .fault
  else match translateNow s (feCore d) ctx part false need (decide (va.toNat % align ≠ 0)) va size with
    | .ok pa => .ok pa
    | .breaks _ => .breaks
    | _ => .fault

/-- As `feAccess`, with every failure the same. -/
def State.fePa (s : State) (d : DieId) (ctx : Fin 64) (part : Fin 32) (need : Need) (align size : Nat) (va : Dw) : Option Nat :=
  match s.feAccess d ctx part need align size va with
  | .ok pa => some pa
  | _ => none

def State.ring (s : State) (d : DieId) (r : Fin 64) : Ring := (s.die d).rings.get r

def State.modRing (s : State) (d : DieId) (r : Fin 64) (f : Ring → Ring) : State :=
  s.modDie d fun x => { x with rings := x.rings.set r (f (x.rings.get r)) }

/-- The cause of RSTAT (R321). -/
def State.ringCause (s : State) (d : DieId) (r : Fin 64) (c : Nat) : State := s.modRing d r fun x => { x with cause := BitVec.ofNat 7 c }

/-! ## Completion records and signals (R313, R314) -/

def bitN (b : Bool) : Nat := if b then 1 else 0

/-- The record's 64 bytes (R314). -/
def Crec.bytes (r : Crec) (tag : Dw) (tend : Nat) : List Byte :=
  leBytes (r.status + r.level * 2 ^ 8 + bitN r.dmet * 2 ^ 16 + bitN r.hasdl * 2 ^ 17) 4 ++ leBytes (sat32 r.faults) 4 ++ leBytes (sat32 r.urun) 4 ++
  leBytes (sat32 r.ucan) 4 ++ leBytes r.phid.toNat 8 ++ leBytes r.jid.toNat 4 ++ leBytes r.graph 4 ++ leBytes tag.toNat 8 ++ leBytes r.tstart 8 ++
  leBytes tend 8 ++ leBytes 0 8

/-- No graph (R314). -/
def noGraph : Nat := 0xFFFFFFFF

/-- The record of a command that is no phase (DEDUCED, log 73). -/
def plainCrec (status : Nat) (jid : Word) (graph tstart : Nat) : Crec :=
  { status := status, level := 0, dmet := false, hasdl := false, faults := 0, urun := 0, ucan := 0, phid := 0, jid := jid, graph := graph, tstart := tstart }

/-- A span of bytes that an access of the front end's function breaks protection in (R307, R368). -/
def State.feBreaks (s : State) (d : DieId) (ctx : Fin 64) (part : Fin 32) (va : Dw) : Nat → Nat → Bool
  | 0, _ => false
  | fuel + 1, n =>
    if n = 0 then false
    else
      let k := min n (64 - va.toNat % 64)
      decide (s.feAccess d ctx part needRd 1 k va = .breaks) || s.feBreaks d ctx part (va + BitVec.ofNat 64 k) fuel (n - k)

def State.spanBreaks (s : State) (d : DieId) (ctx : Fin 64) (part : Fin 32) (va : Dw) (n : Nat) : Bool := s.feBreaks d ctx part va (n / 64 + 2) n

/-- Bytes read through a ring's context, 64 at a time; none where a read faults. -/
def State.feRead (s : State) (d : DieId) (ctx : Fin 64) (part : Fin 32) (va : Dw) : Nat → Nat → Option (List Byte)
  | 0, _ => some []
  | fuel + 1, n =>
    if n = 0 then some []
    else
      let k := min n (64 - va.toNat % 64)
      match s.fePa d ctx part needRd 1 k va with
      | none => none
      | some pa =>
        if s.poisoned pa k then none
        else (s.feRead d ctx part (va + BitVec.ofNat 64 k) fuel (n - k)).map fun r => s.bytesAt pa k ++ r

def State.feBytes (s : State) (d : DieId) (ctx : Fin 64) (part : Fin 32) (va : Dw) (n : Nat) : Option (List Byte) := s.feRead d ctx part va (n / 64 + 2) n

/-- The command's record or signal breaks protection: its function is to be frozen, and nothing is written (R307, R368). -/
def State.recBreaks (s : State) (d : DieId) (c : Cmd) : Bool :=
  (decide (c.crec ≠ 0) && decide (s.feAccess d c.ctx c.part needWr 64 64 c.crec = .breaks)) ||
  (match c.sigk with
    | 1 => decide (s.feAccess d c.ctx c.part needAt 8 8 c.sigaddr = .breaks)
    | 2 => decide (s.feAccess d c.ctx c.part needWr 16 16 c.sigaddr = .breaks)
    | _ => false)

/-- Write the record: one whole 64-byte write, or none with RSTAT cause 2. -/
def State.writeCrec (s : State) (d : DieId) (c : Cmd) (r : Crec) : State :=
  if c.crec = 0 then s
  else match s.fePa d c.ctx c.part needWr 64 64 c.crec with
    | some pa => if s.hitsSlot pa 64 then s.ringCause d c.ring 2 else s.homeStore pa (r.bytes c.tag (s.die d).time)
    | none => s.ringCause d c.ring 2

/-- The signal (R313): one whose write or credit faults is dropped with RSTAT cause 4. -/
def State.signal (s : State) (d : DieId) (c : Cmd) : State :=
  match c.sigk with
  | 1 => match s.fePa d c.ctx c.part needAt 8 8 c.sigaddr with
    | some pa =>
      if s.hitsSlot pa 8 || s.poisoned pa 8 then s.ringCause d c.ring 4
      else s.homeStore pa (leBytes ((s.valueAt pa 8 + c.sigval.toNat) % 2 ^ 64) 8)
    | none => s.ringCause d c.ring 4
  | 2 => match s.fePa d c.ctx c.part needWr 16 16 c.sigaddr with
    | some pa => s.credit pa (c.sigval.toNat % 2 ^ 32)
    | none => s.ringCause d c.ring 4
  | 3 => s.outp (.msix d c.fn (c.sigval.toNat % 2048))
  | _ => s

/-- The record, then the signal. -/
def State.complete (s : State) (d : DieId) (c : Cmd) (r : Crec) : State := (s.writeCrec d c r).signal d c

/-! ## The ring's cursor (R309) -/

/-- The front end takes a ring no further. -/
def State.ringFail (s : State) (d : DieId) (r : Fin 64) (cause : Nat) : State :=
  (s.modRing d r fun x => { x with ctl := x.ctl &&& ~~~(1 : Dw), enabled := false, cause := BitVec.ofNat 7 cause, blocked := none, watch := none,
                                   wake := false, carried := false, again := false }).outp (.notice d 4 (BitVec.ofNat 64 r.val))

/-- The ring's function. -/
def ringFn (part : Fin 32) : Fin 33 := ⟨part.val + 1, by omega⟩

/-- The function of a ring is frozen as a master (R307, R368). -/
def State.ringBreaks (s : State) (d : DieId) (part : Fin 32) : State := s.freezeFunction d (ringFn part)

def Ring.ctx (x : Ring) : Fin 64 := (x.ctl.extractLsb' 1 6).toFin
def Ring.wmode (x : Ring) : Bool := x.ctl.getLsbD 7
def Ring.cons (x : Ring) : Nat := (x.ctl.extractLsb' 8 6).toNat
def Ring.part (x : Ring) : Fin 32 := (x.ctl.extractLsb' 14 5).toFin

/-- A header that the front end cannot consume from (R191, R308). -/
def frontBad (h : BitVec 512) (cons : Nat) : Bool := ringBad h || decide (recU h 136 16 < 8) || decide (recU h 216 7 ≤ cons)

/-- The cursor that a ring's registers name. -/
def State.ringCursor (s : State) (d : DieId) (x : Ring) : FeTr :=
  match s.feAccess d x.ctx x.part needRd 64 64 x.base with
  | .ok hpa => if s.poisoned hpa 64 then .fault else match s.feAccess d x.ctx x.part needRd 8 8 (cursorVa (s.recAt hpa) x.cons) with
    | .ok cpa => .ok (s.valueAt cpa 8)
    | r => r
  | r => r

/-- The command at the cursor is carried out: the cursor moves on, and the ring is looked at again (R309). The header was read when the command was
taken; a cursor write that breaks protection waits for the function's thaw (R368). A ring that was enabled again meanwhile goes on at its own consumer's
cursor (R322). -/
def State.ringAdvance (s : State) (d : DieId) (c : Cmd) : State :=
  let x := s.ring d c.ring
  match s.feAccess d c.ctx c.part needWr 8 8 x.cva with
  | .fault => s.ringFail d c.ring 3
  | .breaks => (s.modRing d c.ring fun y => { y with carried := true }).freezeFunction d c.fn
  | .ok cpa =>
    let s := (s.homeStore cpa (leBytes ((x.c + 1) % 2 ^ 64) 8)).modRing d c.ring fun y =>
      { y with c := (y.c + 1) % 2 ^ 64, blocked := none, wake := y.wake || !y.again, carried := false, again := false }
    if !(x.again && x.enabled) then s
    else match s.ringCursor d x with
      | .ok v => s.modRing d c.ring fun y => { y with c := v }
      | .fault => s.ringFail d c.ring 3
      | .breaks => (s.modRing d c.ring fun y => { y with enabled := false, ctl := y.ctl &&& ~~~(1 : Dw), wake := false }).freezeFunction d (ringFn x.part)

/-- The front end runs: the die is started and no cut pauses it (R386). -/
def State.frontRuns (s : State) (d : DieId) : Bool := decide ((s.die d).start = .running) && (s.die d).snap.isNone

/-- The command is the one its ring carries out now. -/
def State.cmdDue (s : State) (d : DieId) (c : Cmd) : Bool :=
  decide ((s.ring d c.ring).blocked = some c) && !(s.ring d c.ring).carried && !(s.die d).frozenFns.contains c.fn.val && s.frontRuns d

/-- A command is done: its ring goes on. -/
def State.cmdDone (s : State) (d : DieId) (c : Cmd) : State := if (s.ring d c.ring).blocked = some c then s.ringAdvance d c else s

/-- A command that is no phase: record, signal, cursor; where one of the first two breaks protection, the function is frozen before it (R307)
(DEDUCED, log 73). -/
def State.answer (s : State) (d : DieId) (c : Cmd) (status : Nat) (jid : Word) (graph : Nat) : State :=
  if s.recBreaks d c then s.freezeFunction d c.fn
  else (s.complete d c (plainCrec status jid graph (s.die d).time)).cmdDone d c

/-- A command of the given type that is due is carried out, unless an access that it makes breaks protection (R307, R312). -/
def State.carry (s : State) (d : DieId) (c : Cmd) (mine breaks : Bool) (t : State) : State :=
  if !s.cmdDue d c || !mine then s else if s.recBreaks d c || breaks then s.freezeFunction d c.fn else t

/-! ## Phases -/

def Die.graph? (x : Die) (g : Nat) : Option Graph := x.graphs.find? fun k => decide (k.num = g)

def Die.job? (x : Die) (p : Fin 32) (j : Word) : Option Job := x.jobs.find? fun k => decide (k.jid = j) && decide (k.part = p)

def Die.modJob (x : Die) (p : Fin 32) (j : Word) (f : Job → Job) : Die :=
  { x with jobs := x.jobs.map fun k => if k.jid = j ∧ k.part = p then f k else k }

/-- What a phase is released from: its command or stream, and how it runs. -/
structure Release where
  graph : Nat
  cmd : Cmd
  prio : BitVec 4
  jid : Word
  dline : Dw
  hasdl : Bool
  level : Nat
  stream : Option Nat
  acq : List (Nat × Nat)
deriving DecidableEq, Repr

/-- Release a phase: its id, its counters, and the launch of every node without predecessors (R12, R314, R319). -/
def State.startPhase (s : State) (d : DieId) (r : Release) : State :=
  match (s.die d).graph? r.graph with
  | none => s
  | some g =>
    let x := s.die d
    let num := x.phaseCount + 1
    let phid : Dw := BitVec.ofNat 64 (d.toNat * 2 ^ 63 + num % 2 ^ 63)
    let p : Phase :=
      { phid := phid, jid := r.jid, graph := r.graph, nodes := g.nodes, prio := r.prio, ctx := r.cmd.ctx, part := r.cmd.part, dline := r.dline,
        hasdl := r.hasdl, level := r.level, stream := r.stream, cmd := r.cmd, tstart := x.time, status := 0, cancelled := false, rejected := false, faults := 0, urun := 0,
        ucan := 0, pushed := 0, pushedDone := 0, alive := 0, cnt := g.nodes.map fun n => n.npred, nst := g.nodes.map fun _ => .waiting, acq := r.acq, nacq := [] }
    let roots := (List.range g.nodes.length).filter fun i => match g.nodes[i]? with | some n => decide (n.npred = 0) | none => false
    let s := s.modDie d fun x => { x with phaseCount := num, phases := x.phases ++ [p] }
    (s.walk d phid (roots.map NodeWork.launch)).sweepPhase d phid

/-- The graph has a running phase (R316). -/
def Die.graphBusy (x : Die) (g : Nat) : Bool := x.phases.any fun p => decide (p.graph = g)

/-! ## Streams' states (R337) -/

/-- The stream of a number, if it still stands. -/
def Die.stream? (x : Die) (key : Nat) : Option Cox := x.cox.find? fun k => decide (k.key = key)

def Die.modCox (x : Die) (e : Nat) (f : Cox → Cox) : Die := { x with cox := x.cox.map fun k => if k.e = e then f k else k }

/-- The state of a stream entry from what is under way for it (DEDUCED, log 47). -/
def State.coxSettle (s : State) (d : DieId) (e : Nat) : State :=
  s.modDie d fun x => x.modCox e fun k =>
    { k with state :=
        if x.queuedPh.any fun q => decide (q.stream = some k.key) then 3
        else if x.phases.any fun p => decide (p.stream = some k.key) then 2
        else if k.susp then 4
        else if k.islot ≠ 0 && !k.iarr then 1 else 0 }

/-- As `coxSettle`, for the stream that a phase names, where it still stands. -/
def State.streamSettle (s : State) (d : DieId) (key : Option Nat) : State :=
  match key.bind fun k => (s.die d).stream? k with
  | some k => s.coxSettle d k.e
  | none => s

/-- The units of a resident graph's nodes. -/
def Die.graphUnits (x : Die) (g : Nat) : Nat := match x.graph? g with | some k => (k.nodes.map fun n => n.units).sum | none => 0

/-- The record of a phase that did not run (R338, R341): level and graph as given. -/
def skipCrec (status level graph : Nat) (jid : Word) (hasdl : Bool) (now : Nat) : Crec :=
  { status := status, level := level, dmet := false, hasdl := hasdl, faults := 0, urun := 0, ucan := 0, phid := 0, jid := jid, graph := graph, tstart := now }

/-- Count a phase of a job as finished (R12). -/
def State.jobDone (s : State) (d : DieId) (p : Fin 32) (j : Word) : State := s.modDie d fun x => x.modJob p j fun k => { k with done := k.done + 1 }

/-- The queued releases of a graph, in their order, until one runs: a cancelled one ends with its record, in which the units of
its nodes, none of them launched, count as cancelled, and its deadline is met where it ends by then (R13, R314, R316); where the record breaks protection
it waits for its function's thaw (R307). -/
def State.releaseQueued (s : State) (d : DieId) (g : Nat) : Nat → State
  | 0 => s
  | fuel + 1 =>
    match (s.die d).queuedPh.find? fun q => decide (q.graph = g) with
    | none => s
    | some q =>
      let cmd := q.cmd
      if q.kill ≠ 0 then
        if s.recBreaks d cmd then s.freezeFunction d cmd.fn
        else
          let now := (s.die d).time
          let r : Crec := { skipCrec q.kill q.level g q.jid q.stream.isSome now with
            dmet := q.stream.isSome && decide (now ≤ q.dline.toNat), ucan := (s.die d).graphUnits g }
          let s := s.modDie d fun x => { x with queuedPh := x.queuedPh.erase q }
          let s := ((s.complete d cmd r).jobDone d cmd.part q.jid).cmdDone d cmd
          (s.streamSettle d q.stream).releaseQueued d g fuel
      else
        let s := s.modDie d fun x => { x with queuedPh := x.queuedPh.erase q }
        let s := s.startPhase d
          { graph := g, cmd := cmd, prio := q.prio, jid := q.jid, dline := q.dline, hasdl := q.stream.isSome, level := q.level, stream := q.stream,
            acq := q.acq }
        (s.cmdDone d cmd).streamSettle d q.stream

/-- The phase has nothing left to run or to launch (R12, R13). -/
def State.phaseDone (s : State) (d : DieId) (p : Phase) : Bool :=
  decide (p.alive = 0) && !((s.die d).waitLaunch.any fun w => decide (w.1 = p.phid)) && (p.graphDone || p.cancelled)

/-- Units of the nodes that were never launched (R13, R319). -/
def Phase.unlaunched (p : Phase) : Nat :=
  ((p.nodes.zip p.nst).map fun x => if x.2 = .waiting ∨ x.2 = .queued then x.1.units else 0).sum

/-- PHASE_COMPLETE (R12, R313, R314, R316): the record, the signal, the stream's entry, and the next queued release of the graph
(DEDUCED, log 36). -/
def State.phaseEnd (s : State) (d : DieId) (phid : Dw) : State :=
  match (s.die d).phase? phid with
  | none => s
  | some p =>
    if !s.phaseDone d p then s
    else if s.recBreaks d p.cmd then s.freezeFunction d p.cmd.fn
    else
      let now := (s.die d).time
      let late := p.hasdl && decide (p.dline.toNat < now)
      let st := if p.status ≠ 0 then p.status else bitN p.cancelled
      let r : Crec :=
        { status := st, level := p.level, dmet := p.hasdl && !late, hasdl := p.hasdl, faults := p.faults,
          urun := p.urun, ucan := p.ucan + p.unlaunched, phid := p.phid, jid := p.jid, graph := p.graph, tstart := p.tstart }
      let s := s.complete d p.cmd r
      let s := s.modDie d fun x => { x with phases := x.phases.filter fun q => decide (q.phid ≠ phid),
                                            badCounters := x.badCounters.filter fun g => decide (g ≠ p.graph),
                                            launches := x.launches.filter fun l => decide (l.phid ≠ phid) }
      let s := s.modDie d.other fun x => { x with launches := x.launches.filter fun l => decide (l.phid ≠ phid) }
      let s := s.jobDone d p.part p.jid
      let s := match p.stream.bind fun k => (s.die d).stream? k with
        | some k =>
          (s.modDie d fun x => x.modCox k.e fun k => { k with miss := if late && decide (r.status ≠ 1) then min 65535 (k.miss + 1) else k.miss }).coxSettle d k.e
        | none => s
      s.releaseQueued d p.graph ((s.die d).queuedPh.length + 1)

/-- PHASE_COMPLETE (R12). -/
def execPhaseComplete (d : DieId) (phid : Dw) (s : State) : Host.Outcome State Fault Refusal := .next (s.phaseEnd d phid)

/-! ## Task entries (R319, R329) -/

/-- The first waiting launch that a free task entry serves. -/
def State.waitReady (s : State) (d : DieId) : Option (Dw × Nat) :=
  (s.die d).waitLaunch.find? fun w => match (s.die d).phase? w.1 with
    | some p => decide ((s.die d).taskCount p.part < (s.part p.part d).share)
    | none => true

/-- TASK_ENTRY_FREE (R319): the launch takes its entry. -/
def State.entryFree (s : State) (d : DieId) : State :=
  match s.waitReady d with
  | none => s
  | some w =>
    let s := s.modDie d fun x => { x with waitLaunch := x.waitLaunch.erase w }
    match (s.die d).phase? w.1 with
    | none => s
    | some p => match p.nodes[w.2]? with
      | some nd => s.setDie d ((s.die d).handUnits p w.2 nd)
      | none => s

/-- TASK_ENTRY_FREE (R319, R328, R329). -/
def execTaskEntryFree (d : DieId) (s : State) : Host.Outcome State Fault Refusal := .next (s.entryFree d)

/-! ## Retirement (R24) -/

/-- Every memory operation of the unit is performed, its copies ended, its spawns pushed (DEDUCED, log 22). -/
def Core.retired (c : Core) (serial : Nat) : Bool :=
  (c.ops.all fun o : MemOp => decide (o.owner ≠ serial)) && (c.copies.all fun k => decide (k.owner ≠ serial)) &&
  (c.spawns.all fun p => decide (p.2.2.1.serial ≠ serial)) && (c.chains.all fun h => decide (h.owner ≠ serial))

/-- UNIT_RETIRE (R12, R24): the k-th unit that has left the core (DEDUCED, log 22). -/
def State.retire (s : State) (n : CoreId) (k : Nat) : State :=
  let c := s.coreAt n
  match c.leaving[k]? with
  | none => s
  | some l =>
    if !c.retired l.unit.serial || s.cut (s.phaseHome (dieOf n) l.unit.phid) then s
    else
      let s := s.modCore n fun c => { c with leaving := c.leaving.eraseIdx k }
      (s.unitDone (dieOf n) l.unit.phid l.unit.lid (!l.cancelled) l.fault l.status).sweepPhase (dieOf n) l.unit.phid

/-- UNIT_RETIRE (R24). -/
def execUnitRetire (n : CoreId) (k : Nat) (s : State) : Host.Outcome State Fault Refusal := .next (s.retire n k)

end Sys2Proof.Machine
end

