-- ==== Sys2Proof/Machine/CoxUnit.lean ====
section
/-! DEFINITION. The Cox unit: admission (R336, R340, R415), shedding and recovery (R341, R342), releases and skips (R338, R339), and the copies of
streams between the dies (R419). -/

namespace Sys2Proof.Machine

open Sys2Proof

/-! ## Cost and admission (R340) -/

/-- The quotient rounded upward. -/
def ceilDiv (a b : Nat) : Nat := (a + b - 1) / b

def coxCost (lcost mhz : Nat) : Nat := ceilDiv (lcost * 1050) mhz + 2000

def Cox.cost (k : Cox) (level : Nat) : Nat := k.lcost.toArray.getD level 0

/-- A term of U in units of 2^-32. -/
def Cox.term (k : Cox) (mhz : Nat) : Nat := ceilDiv (coxCost (k.cost k.level) mhz * 2 ^ 32) k.period

def coxU (mhz : Nat) (l : List Cox) : Nat := (l.map fun k => if k.susp then 0 else k.term mhz).sum

/-- U is at or below a ceiling, given in units of 2^-16. -/
def coxFits (mhz ceiling : Nat) (l : List Cox) : Bool := decide (coxU mhz l ≤ ceiling * 2 ^ 16)

def Cox.slack (k : Cox) : Int := (k.dline : Int) - k.cost k.level

/-- Chosen earlier to be lowered (R341). -/
def Cox.shedBefore (a b : Cox) : Bool :=
  (a.slow && !b.slow) || (decide (a.slow = b.slow) && (decide (a.prio.toNat < b.prio.toNat) || (decide (a.prio = b.prio) &&
    (decide (b.slack < a.slack) || (decide (a.slack = b.slack) && decide (a.e < b.e))))))

/-- The least element by a strict order. -/
def coxFirst : List Cox → Option Cox
  | [] => none
  | a :: r => match coxFirst r with
    | none => some a
    | some b => if b.shedBefore a then some b else some a

def replaceCox (l : List Cox) (k : Cox) : List Cox := l.map fun j => if j.e = k.e then k else j

/-- Lower one stream by one level until U fits or every stream is at level 3; with the number of steps. -/
def coxShed (mhz ceiling : Nat) : Nat → List Cox → List Cox × Nat
  | 0, l => (l, 0)
  | fuel + 1, l =>
    if coxFits mhz ceiling l then (l, 0)
    else match coxFirst (l.filter fun k => !k.susp && decide (k.level < 3)) with
      | none => (l, 0)
      | some k => let r := coxShed mhz ceiling fuel (replaceCox l { k with level := k.level + 1 }); (r.1, r.2 + 1)

/-- Suspend streams at level 3 until U fits. -/
def coxSuspend (mhz ceiling : Nat) : Nat → List Cox → List Cox
  | 0, l => l
  | fuel + 1, l =>
    if coxFits mhz ceiling l then l
    else match coxFirst (l.filter fun k => !k.susp) with
      | none => l
      | some k => coxSuspend mhz ceiling fuel (replaceCox l { k with susp := true })

def State.coxMhz (s : State) (d : DieId) : Nat := stepMHz (s.die d).clkStep

def State.coxOf (s : State) (d : DieId) (p : Fin 32) : List Cox := (s.die d).cox.filter fun k => decide (k.part = p)

/-- The levels and suspensions of a list become those of the die's entries. -/
def State.coxStore (s : State) (d : DieId) (l : List Cox) : State :=
  let s := s.modDie d fun x => { x with cox := x.cox.map fun k => match l.find? fun j => decide (j.e = k.e) with
    | some j => { k with level := j.level, susp := j.susp }
    | none => k }
  l.foldl (fun s k => s.coxSettle d k.e) s

/-- U of a partition is recomputed, and streams are lowered or suspended until it fits (R340, R341). -/
def State.coxRecompute (s : State) (d : DieId) (p : Fin 32) : State :=
  let l := s.coxOf d p
  let c := (s.part p d).ceiling
  let r := coxShed (s.coxMhz d) c (3 * l.length) l
  let s := s.coxStore d (coxSuspend (s.coxMhz d) c l.length r.1)
  s.countDie d 55 r.2

/-- As `coxRecompute`, for every partition of a die. -/
def State.coxRecomputeAll (s : State) (d : DieId) : State := (List.finRange 32).foldl (fun s p => s.coxRecompute d p) s

/-- A new stream at level 0 with what shedding makes of the others; none where it does not fit (R341). -/
def State.coxAdmit (s : State) (d : DieId) (k : Cox) : Option State :=
  let l := s.coxOf d k.part ++ [k]
  let c := (s.part k.part d).ceiling
  let r := coxShed (s.coxMhz d) c (3 * l.length) l
  if !coxFits (s.coxMhz d) c r.1 then none
  else
    let s := s.modDie d fun x => { x with cox := x.cox ++ [k] }
    some ((s.coxStore d r.1).countDie d 55 r.2)

/-! ## STREAM (R336, R415) -/

/-- The stream record of R272. -/
def streamRecOf (b : List Byte) : StreamRec :=
  let v := leValue b
  let f (off w : Nat) : Nat := v / 2 ^ off % 2 ^ w
  { cls := f 32 2, prio := f 36 4, period := f 64 64, offset := f 128 64, dline := f 192 64,
    graphs := (List.range 4).map fun n => f (256 + 128 * n) 16, costs := (List.range 4).map fun n => f (320 + 128 * n) 64 }

/-- The record keeps R273 and the limits of R336. -/
def streamOk (r : StreamRec) : Bool :=
  let c (i : Nat) : Nat := r.costs.getD i 0
  decide (r.cls < 2) && decide (12 ≤ r.prio) && decide (1 ≤ r.period) && decide (r.offset < r.period) && decide (1 ≤ r.dline) && decide (r.dline ≤ r.period) &&
  decide (r.period < 2 ^ 32) && decide (r.dline < 2 ^ 32) && decide (1 ≤ c 3) && decide (c 3 ≤ c 2) && decide (c 2 ≤ c 1) && decide (c 1 ≤ c 0) &&
  decide (c 0 ≤ r.dline)

/-- A reserved field of the record is nonzero (R272), which makes the command bad (R312) (DEDUCED, log 35). -/
def streamResv (b : List Byte) : Bool :=
  let v := leValue b
  decide (v / 2 ^ 34 % 4 ≠ 0) || decide (v / 2 ^ 40 % 2 ^ 24 ≠ 0) || (List.range 4).any fun n => decide (v / 2 ^ (272 + 128 * n) % 2 ^ 48 ≠ 0)

def vec4 (l : List Nat) : Vector Nat 4 := Vector.ofFn fun i => l.getD i.val 0

/-- The smallest multiple of the period at or after a time. -/
def gridStart (now period : Nat) : Nat := ceilDiv now period * period

/-- The lowest free entry number. -/
def Die.freeCox (x : Die) : Option Nat := (List.range 16384).find? fun e => !x.cox.any fun k => decide (k.e = e)

/-- The entry number of a stream taken over, which is never refused: the lowest free one, behind the table's last where it is full (R419) (DEDUCED, log 51). -/
def Die.takeCox (x : Die) : Nat := x.freeCox.getD (16384 + (x.cox.filter fun k => decide (16384 ≤ k.e)).foldl (fun m k => max m (k.e - 16383)) 0)

/-- A stream entry as a record gives it. -/
def streamEntry (r : StreamRec) (e key t0 level islot : Nat) (cmd : Cmd) (jid : Word) (sid : Option Nat) : Cox :=
  { e := e, key := key, slow := decide (r.cls = 1), iarr := false, prio := BitVec.ofNat 4 r.prio, level := level, state := 0, part := cmd.part, ctx := cmd.ctx, miss := 0,
    nrel := t0 + r.offset, ndl := 0, islot := islot, lgraph := vec4 r.graphs, period := r.period, dline := r.dline, lcost := vec4 r.costs, cmd := cmd,
    jid := jid, t0 := t0, offset := r.offset, polling := false, seen := false, susp := false, iacq := 0, itime := 0, rose := false, sid := sid }

/-- The Cox unit registers a waiter on the input slot, or polls a slot whose waiters are full (R75, R338). -/
def State.coxRegister (s : State) (d : DieId) (e pa : Nat) : State :=
  match s.slot? pa with
  | none => s
  | some t =>
    if 65535 ≤ t.waiters.length then s.modDie d fun x => x.modCox e fun k => { k with polling := true, seen := t.phase }
    else s.modSlot pa fun t => { t with waiters := t.waiters ++ [.cox d e] }

/-- The session that w3 binds, if it is open and its place for the class is free (R415); `some none` where w3 binds none. -/
def State.streamSession (s : State) (d : DieId) (w3 : Dw) (slow : Bool) : Option (Option Nat) :=
  if !w3.getLsbD 13 then some none
  else
    let sid := (w3.extractLsb' 0 13).toNat
    match (s.die d).session? sid with
    | some z => if (if slow then z.sstr else z.fstr).isNone then some (some sid) else none
    | none => none

/-- The stream of a session is set; a fast one makes its die send the session's chunks (R415). -/
def Session.bindStream (z : Session) (e : Nat) (slow : Bool) : Session :=
  if slow then { z with sstr := some e } else { z with fstr := some e, prim := true }

/-- What a STREAM command brings: a status, with the state in which the stream stands admitted (DEDUCED, log 35). -/
def State.streamTry (s : State) (d : DieId) (c : Cmd) : Nat × State :=
  let jid : Word := c.w0.setWidth 32
  let open_ := match (s.die d).job? c.part jid with | some j => j.isOpen | none => false
  match (if open_ && decide (c.w1.toNat % 8 = 0) then s.feBytes d c.ctx c.part c.w1 96 else none) with
  | none => (5, s)
  | some bytes =>
    let r := streamRecOf bytes
    let slot : Option Nat := if c.w2 = 0 then some 0 else match s.fePa d c.ctx c.part needRd 16 16 c.w2 with
      | some pa => match s.slot? pa with
        | some t => if t.part = c.part then some pa else none
        | none => none
      | none => none
    if streamResv bytes || !streamOk r then (5, s)
    else match slot, s.streamSession d c.w3 (decide (r.cls = 1)) with
      | some islot, some sid =>
        if !(r.graphs.all fun g => match (s.die d).graph? g with | some k => decide (k.ctx = c.ctx) | none => false) then (6, s)
        else match (s.die d).freeCox with
          | none => (8, s)
          | some e =>
            let k := streamEntry r e s.nextId (gridStart (s.die d).time r.period) 0 islot c jid sid
            match ({ s with nextId := s.nextId + 1 } : State).coxAdmit d k with
            | none => (7, s)
            | some s =>
              let s := match sid with
                | some i => s.modDie d fun x => x.modSession i fun z => z.bindStream e k.slow
                | none => s
              (0, (if islot ≠ 0 then s.coxRegister d e islot else s).coxSettle d e)
      | _, _ => (5, s)

/-- A command that is bad whatever its type (R312) (DEDUCED, log 35). -/
def cmdBad (c : Cmd) : Bool := c.resv || decide (c.len < 112) || decide (4 ≤ c.sigk)

/-- The stream record's read, or that of the input slot, breaks protection. -/
def State.streamBreaks (s : State) (d : DieId) (c : Cmd) : Bool :=
  let open_ := match (s.die d).job? c.part (c.w0.setWidth 32) with | some j => j.isOpen | none => false
  !cmdBad c && open_ && ((decide (c.w1.toNat % 8 = 0) && s.spanBreaks d c.ctx c.part c.w1 96) ||
    (decide (c.w2 ≠ 0) && decide (s.feAccess d c.ctx c.part needRd 16 16 c.w2 = .breaks)))

/-- STREAM (R312, R336, R341, R415); one whose context is being torn down fails with status 2 (R347, R410). -/
def State.streamCmd (s : State) (d : DieId) (c : Cmd) : State :=
  s.carry d c (decide (c.typ = 8)) (s.streamBreaks d c) <|
    let r := if (s.drainOf d c.ctx).isSome then (2, s) else if cmdBad c then (5, s) else s.streamTry d c
    r.2.answer d c r.1 (c.w0.setWidth 32) noGraph

/-- STREAM (R336). -/
def execStream (d : DieId) (c : Cmd) (s : State) : Host.Outcome State Fault Refusal := .next (s.streamCmd d c)

/-! ## Releases (R338, R342) -/

def Cox.graphAt (k : Cox) (level : Nat) : Nat := k.lgraph.toArray.getD level 0

/-- The stream's job is open and its input slot, where it has to be polled, is live (R75, R336) (DEDUCED, log 43). -/
def State.coxActive (s : State) (d : DieId) (k : Cox) : Bool :=
  s.frontRuns d && (match (s.die d).job? k.part k.jid with | some j => j.isOpen | none => false) && (!k.polling || (s.slot? k.islot).isSome)

/-- The input of the next phase has come, and not after the phase's skip deadline (R338). -/
def Cox.inputIn (k : Cox) : Bool := k.iarr && decide (k.itime ≤ k.nrel + k.dline)

/-- A release time has come, with the input that it needs; a suspended stream has its step at each release time (R341, R342). -/
def State.releaseDue (s : State) (d : DieId) (k : Cox) : Bool :=
  s.coxActive d k && decide (k.nrel ≤ (s.die d).time) && (k.susp || decide (k.islot = 0) || k.inputIn)

/-- When the phase is released: on the grid, or at the flip that it waited for (R338). -/
def Cox.releaseTime (k : Cox) : Nat := if k.islot = 0 then k.nrel else max k.nrel k.itime

/-- The level that the release takes: one up, or out of suspension, where U allows; one step a period (R342). -/
def State.raised (s : State) (d : DieId) (k : Cox) : Cox :=
  let up : Cox := if k.susp then { k with susp := false, level := 3, rose := true } else { k with level := k.level - 1, rose := true }
  if !k.rose && (k.susp || decide (0 < k.level)) && coxFits (s.coxMhz d) (s.part k.part d).ceiling (replaceCox (s.coxOf d k.part) up) then up else k

/-- The sequence and the guard deadline that a release of a fast stream writes into its session (R415). -/
def State.sessionRelease (s : State) (d : DieId) (k : Cox) (ndl : Nat) : State :=
  match (if k.slow then none else k.sid.bind fun i => (s.die d).session? i) with
  | none => s
  | some z =>
    let n := (k.nrel - k.t0 - k.offset) / k.period
    let s := s.modDie d fun x => x.modSession z.sid fun y => { y with cseq := BitVec.ofNat 32 (n + 1) }
    if z.gslot = 0 then s else (s.deadline d z.gslot).modSlot z.gslot fun t => { t with dline := BitVec.ofNat 64 ndl }

/-- A phase of the stream is released at the time `rel`, or queued behind its graph (R316, R338, R339). -/
def State.coxStart (s : State) (d : DieId) (k : Cox) (rel : Nat) (acq : List (Nat × Nat)) : State :=
  let ndl := rel + k.dline
  let s := s.sessionRelease d k ndl
  let s := s.modDie d fun x => x.modCox k.e fun j => 
    { j with level := k.level, susp := k.susp, rose := false, ndl := ndl, iarr := false, nrel := j.nrel + j.period }
  let s := (s.modDie d fun x => x.modJob k.part k.jid fun j => { j with total := j.total + 1 }).countDie d 53 1
  let g := k.graphAt k.level
  let s := if (s.die d).graphBusy g then
      s.modDie d fun x => { x with queuedPh := x.queuedPh ++
        [{ graph := g, cmd := k.cmd, prio := k.prio, jid := k.jid, stream := some k.key, dline := BitVec.ofNat 64 ndl, level := k.level, acq := acq, kill := 0 }] }
    else s.startPhase d
      { graph := g, cmd := k.cmd, prio := k.prio, jid := k.jid, dline := BitVec.ofNat 64 ndl, hasdl := true, level := k.level, stream := some k.key, acq := acq }
  s.coxSettle d k.e

/-- COX_RELEASE (R338, R341, R342, R415). -/
def State.coxRelease (s : State) (d : DieId) (e : Nat) : State :=
  match (s.die d).cox.find? fun k => decide (k.e = e) with
  | none => s
  | some k =>
    if !s.releaseDue d k then s
    else
      let k' := s.raised d k
      if k'.susp then
        if s.recBreaks d k.cmd then s.freezeFunction d k.cmd.fn
        else (s.modDie d fun x => x.modCox e fun j => { j with nrel := j.nrel + j.period, rose := false }).complete d k.cmd
          (skipCrec 7 3 (k.graphAt 3) k.jid true (s.die d).time)
      else if k.islot ≠ 0 && !k.inputIn then
        (s.modDie d fun x => x.modCox e fun j => { j with susp := k'.susp, level := k'.level, rose := k'.rose }).coxSettle d e
      else s.coxStart d k' k.releaseTime (if k.islot ≠ 0 then [(k.islot, k.iacq)] else [])

/-- COX_RELEASE (R338, R339, R342). -/
def execCoxRelease (d : DieId) (e : Nat) (s : State) : Host.Outcome State Fault Refusal := .next (s.coxRelease d e)

/-- A queued release of the stream whose deadline has passed; a cancelled one is no skip (R336) (DEDUCED, log 41). -/
def State.lateQueued (s : State) (d : DieId) (key : Nat) : Option QPhase :=
  (s.die d).queuedPh.find? fun q => decide (q.stream = some key) && decide (q.kill = 0) && decide (q.dline.toNat < (s.die d).time)

/-- The next phase's input has not come by its skip deadline (DEDUCED, log 41). -/
def State.skipDue (s : State) (d : DieId) (k : Cox) : Bool :=
  s.coxActive d k && !k.susp && decide (k.islot ≠ 0) && !k.inputIn && decide (k.nrel + k.dline < (s.die d).time)

/-- PHASE_SKIP (R338): the record, miss, and the next place on the grid; a release that waited behind its graph already has its successor's place
(DEDUCED, log 47); where the record breaks protection, the function is frozen before it (R307). -/
def State.phaseSkip (s : State) (d : DieId) (e : Nat) : State :=
  match (s.die d).cox.find? fun k => decide (k.e = e) with
  | none => s
  | some k =>
    let rec_ := skipCrec 1 k.level (k.graphAt k.level) k.jid true (s.die d).time
    let missed (s : State) (step : Nat) : State :=
      (((s.modDie d fun x => x.modCox e fun j => { j with miss := min 65535 (j.miss + 1), nrel := j.nrel + step, rose := j.rose && decide (step = 0) }).complete d k.cmd rec_).countDie d 54 1).coxSettle d e
    let breaks := s.recBreaks d k.cmd
    match (if s.frontRuns d then s.lateQueued d k.key else none) with
    | some q => if breaks then s.freezeFunction d k.cmd.fn else missed ((s.modDie d fun x => { x with queuedPh := x.queuedPh.erase q }).jobDone d k.part k.jid) 0
    | none => if !s.skipDue d k then s else if breaks then s.freezeFunction d k.cmd.fn else missed s k.period

/-- PHASE_SKIP (R338). -/
def execPhaseSkip (d : DieId) (e : Nat) (s : State) : Host.Outcome State Fault Refusal := .next (s.phaseSkip d e)

/-- The Cox unit reads the phase of an input slot with full waiters again (R75). -/
def State.coxPoll (s : State) (d : DieId) (e : Nat) : State :=
  match (s.die d).cox.find? fun k => decide (k.e = e) with
  | none => s
  | some k =>
    if !k.polling then s
    else match s.slot? k.islot with
      | none => s.outp (.notice d 6 (BitVec.ofNat 64 k.islot))
      | some t =>
        if t.phase = k.seen then s
        else
          let s := { s with nextId := s.nextId + 1 }
          (s.modDie d fun x => x.modCox e fun j => { j with iarr := true, iacq := s.nextId - 1, itime := if j.iarr then j.itime else (s.die d).time, seen := t.phase }).coxSettle d e

/-- COX_SLOT_POLL (R75, R338). -/
def execCoxSlotPoll (d : DieId) (e : Nat) (s : State) : Host.Outcome State Fault Refusal := .next (s.coxPoll d e)

/-- SLOT_POLL (R75): an unregistered AWAIT, PARK or copy reads the phase again; a stream's input has COX_SLOT_POLL. -/
def execSlotPoll (w : Waiter) (s : State) : Host.Outcome State Fault Refusal :=
  .next (match w with
    | .park n => s.parkRegister n
    | .cox _ _ => s
    | .copy n id => (match (s.coreAt n).copy? id with
      | some k => if s.copyHeld n k then s else s.pollSlot w
      | none => s)
    | w => s.pollSlot w)

/-! ## Copies for a takeover (R419) -/

/-- The copy of a stream that the peer die keeps: of a fast stream of a session (DEDUCED, log 50). -/
def Cox.peerCopy (k : Cox) : Option PeerStream :=
  match k.sid with
  | some sid => if k.slow then none else some
      { sid := sid, t0 := k.t0, level := k.level, jid := k.jid, ctx := k.ctx, part := k.part, tag := k.cmd.tag, crec := k.cmd.crec, sigaddr := k.cmd.sigaddr,
        sigval := k.cmd.sigval, sigk := k.cmd.sigk,
        srec := { cls := 0, prio := k.prio.toNat, period := k.period, offset := k.offset, dline := k.dline, graphs := k.lgraph.toList, costs := k.lcost.toList } }
  | none => none

/-- The copies of a die's streams that the other die lacks, none while a die is cut (R386) (DEDUCED, log 50). -/
def State.copiesDue (s : State) (d : DieId) : List PeerStream :=
  if (s.die d).peerLost || s.cut d || s.cut d.other then [] else ((s.die d).cox.filterMap Cox.peerCopy).filter fun p => !(s.die d.other).peers.contains p

/-- PEER_STREAM_COPY (R419): the record of a fast stream of die d stands in the other die (DEDUCED, log 50). -/
def State.peerCopy (s : State) (d : DieId) (p : PeerStream) : State :=
  if (s.copiesDue d).contains p then
    (s.modDie d.other fun x => { x with peers := (x.peers.filter fun q => decide (q.sid ≠ p.sid)) ++ [p] }).outp (.announce d p)
  else s

/-- PEER_STREAM_COPY (R419). -/
def execPeerStreamCopy (d : DieId) (p : PeerStream) (s : State) : Host.Outcome State Fault Refusal := .next (s.peerCopy d p)

end Sys2Proof.Machine
end

