-- ==== Sys2Proof/Machine/Commands.lean ====
section
/-! DEFINITION. Host command rings (R308 to R311, R321, R322) and their commands (R312, R315 to R318); STREAM stands with the Cox unit. -/

namespace Sys2Proof.Machine

open Sys2Proof

/-! ## Rings -/

/-- The front end has to look at the ring. -/
def State.ringReady (s : State) (d : DieId) (r : Fin 64) : Bool :=
  let x := s.ring d r
  s.frontRuns d && !(s.die d).frozenFns.contains (ringFn x.part).val &&
  (x.carried || (x.enabled && x.wake && x.watch.isNone && x.blocked.isNone))

/-- The ring whose turn it is (R309): the first that has to be looked at, from the turn on. -/
def State.ringNext (s : State) (d : DieId) : Option (Fin 64) :=
  let t := (s.die d).ringTurn
  ((List.range 64).map fun i => Fin.ofNat 64 (t + i)).find? (s.ringReady d)

/-- The command in a slot of at least 128 bytes (R192, R312). -/
def cmdOf (b : List Byte) (r : Fin 64) (x : Ring) : Cmd :=
  let v := leValue b
  let f (off w : Nat) : Nat := v / 2 ^ off % 2 ^ w
  let p (off w : Nat) : Nat := f (128 + off) w
  { typ := f 96 16, len := f 64 32, resv := decide (p 259 61 ≠ 0) || decide (p 576 320 ≠ 0), tag := BitVec.ofNat 64 (p 0 64), crec := BitVec.ofNat 64 (p 64 64),
    sigaddr := BitVec.ofNat 64 (p 128 64), sigval := BitVec.ofNat 64 (p 192 64), sigk := p 256 3, w0 := BitVec.ofNat 64 (p 320 64),
    w1 := BitVec.ofNat 64 (p 384 64), w2 := BitVec.ofNat 64 (p 448 64), w3 := BitVec.ofNat 64 (p 512 64), ring := r, ctx := x.ctx, part := x.part,
    fn := ringFn x.part }

/-- RING_TAKE (R309): the front end's turn on a ring (DEDUCED, log 42). -/
def State.ringTake (s : State) (d : DieId) (r : Fin 64) : State :=
  if s.ringNext d ≠ some r then s
  else
    let s := s.modDie d fun x => { x with ringTurn := (r.val + 1) % 64 }
    let x := s.ring d r
    match x.carried, x.blocked with
    | true, some c => s.ringAdvance d c
    | _, _ => match s.feAccess d x.ctx x.part needRd 64 64 x.base with
    | .fault => s.ringFail d r 3
    | .breaks => s.ringBreaks d x.part
    | .ok hpa =>
      let h := s.recAt hpa
      if s.poisoned hpa 64 then s.ringFail d r 3
      else if frontBad h x.cons then s.ringFail d r 1
      else
        let sva := ringSlotVa h x.c
        match s.feAccess d x.ctx x.part needRd 8 8 sva with
        | .fault => s.ringFail d r 3
        | .breaks => s.ringBreaks d x.part
        | .ok spa =>
          if s.valueAt spa 8 = (x.c + 1) % 2 ^ 64 then
            if s.spanBreaks d x.ctx x.part sva 128 then s.ringBreaks d x.part
            else match s.feBytes d x.ctx x.part sva 128 with
            | none => s.ringFail d r 3
            | some b => s.modRing d r fun y => { y with blocked := some (cmdOf b r y), cva := cursorVa h y.cons, carried := false }
          else
            let line := if x.c < recU h 0 64 then spa / 64 * 64 else hpa
            s.modRing d r fun y => { y with wake := false, watch := if y.wmode then none else some line }

/-- RING_TAKE (R309, R310, R311). -/
def execRingTake (d : DieId) (r : Fin 64) (s : State) : Host.Outcome State Fault Refusal := .next (s.ringTake d r)

/-- RING_WATCH_WAKE (R310): the watched line has changed. -/
def execRingWatchWake (d : DieId) (r : Fin 64) (s : State) : Host.Outcome State Fault Refusal :=
  .next (let x := s.ring d r; if x.watch.isSome && x.wake then s.modRing d r fun y => { y with watch := none } else s)

/-- RDOOR (R307, R310): the ring wakes at once; a virtual function reaches the rings of its partition. -/
def execRdoor (d : DieId) (x : Door) (s : State) : Host.Outcome State Fault Refusal :=
  .next (s.modRing d x.ring fun y => if y.enabled && (decide (x.fn = 0) || decide (ringFn y.part = x.fn)) then { y with wake := true, watch := none } else y)

def ctlBits (v : Dw) : Dw := v &&& 0x7FFFF

/-- RING_ENABLE (R308, R322): a write of RCTL with en = 1; a command that is still being carried out finishes first (DEDUCED, log 42). -/
def State.ringEnable (s : State) (d : DieId) (r : Fin 64) (v : Dw) : State :=
  let x := s.ring d r
  if x.ctl.getLsbD 0 || !v.getLsbD 0 then s
  else
    let y : Ring := { x with ctl := ctlBits v }
    let refused (s : State) : State := s.modRing d r fun _ => { y with ctl := y.ctl &&& ~~~(1 : Dw), cause := 1 }
    match s.feAccess d y.ctx y.part needRd 64 64 y.base with
    | .fault => refused s
    | .breaks => (refused s).ringBreaks d y.part
    | .ok hpa =>
      let h := s.recAt hpa
      if s.poisoned hpa 64 || frontBad h y.cons then refused s
      else match s.feAccess d y.ctx y.part needRd 8 8 (cursorVa h y.cons) with
        | .fault => refused s
        | .breaks => (refused s).ringBreaks d y.part
        | .ok cpa => s.modRing d r fun _ =>
          if x.blocked.isSome then { y with enabled := true, wake := !y.wmode, watch := none, again := true }
          else { y with enabled := true, wake := !y.wmode, watch := none, carried := false, cva := cursorVa h y.cons, c := s.valueAt cpa 8 }

/-- RING_ENABLE (R308, R322). -/
def execRingEnable (d : DieId) (r : Fin 64) (v : Dw) (s : State) : Host.Outcome State Fault Refusal := .next (s.ringEnable d r v)

/-- RING_DISABLE (R322): a write of RCTL with en = 0; the command being carried out finishes (DEDUCED, log 42). -/
def State.ringDisable (s : State) (d : DieId) (r : Fin 64) (v : Dw) : State :=
  if v.getLsbD 0 then s
  else s.modRing d r fun x =>
    if x.ctl.getLsbD 0 then { x with ctl := x.ctl &&& ~~~(1 : Dw), enabled := false, watch := none, wake := false } else { x with ctl := ctlBits v }

/-- RING_DISABLE (R322). -/
def execRingDisable (d : DieId) (r : Fin 64) (v : Dw) (s : State) : Host.Outcome State Fault Refusal := .next (s.ringDisable d r v)

/-- RSTAT (R321) (DESIGN CHOICE, log 56). -/
def Ring.stat (x : Ring) : Dw := fld 0 (bit (x.enabled || x.blocked.isSome)) ||| fld 1 x.cause.toNat

/-! ## PHASE, CANCEL, JOB -/

/-- PHASE (R12, R312, R316): one whose context is being torn down fails with status 2 (R347, R410); else released at once, or queued behind its graph's
running phase while its ring waits. -/
def State.phaseCmd (s : State) (d : DieId) (c : Cmd) : State :=
  if !s.cmdDue d c || decide (c.typ ≠ 1) || (s.die d).queuedPh.any fun q => decide (q.cmd = c) then s
  else
    let g := c.w0.toNat % 4096
    let prio := c.w0.toNat / 4096 % 16
    let jid : Word := c.w1.setWidth 32
    if (s.drainOf d c.ctx).isSome then s.answer d c 2 jid g
    else if cmdBad c || decide (11 < prio) then s.answer d c 5 jid g
    else if !(match (s.die d).graph? g with | some k => decide (k.ctx = c.ctx) | none => false) then s.answer d c 6 jid g
    else if !(match (s.die d).job? c.part jid with | some j => j.isOpen | none => false) then s.answer d c 5 jid g
    else
      let s := s.modDie d fun x => x.modJob c.part jid fun j => { j with total := j.total + 1 }
      if (s.die d).graphBusy g then
        s.modDie d fun x => { x with queuedPh := x.queuedPh ++
          [{ graph := g, cmd := c, prio := BitVec.ofNat 4 prio, jid := jid, stream := none, dline := 0, level := 0, acq := [], kill := 0 }] }
      else
        (s.startPhase d { graph := g, cmd := c, prio := BitVec.ofNat 4 prio, jid := jid, dline := 0, hasdl := false, level := 0, stream := none, acq := [] }).cmdDone
          d c

/-- PHASE (R312, R316, R319). -/
def execPhase (d : DieId) (c : Cmd) (s : State) : Host.Outcome State Fault Refusal := .next (s.phaseCmd d c)

/-- CANCEL (R13, R14, R312). -/
def State.cancelCmd (s : State) (d : DieId) (c : Cmd) : State :=
  s.carry d c (decide (c.typ = 2)) false <|
    let level := c.w0.toNat % 8
    if cmdBad c || decide (4 < level) then s.answer d c 5 0 noGraph
    else
      let m : Member := { level := level, a := if level = 0 then (c.w1.extractLsb' 0 32).setWidth 64 else c.w1, b := (c.w1.extractLsb' 32 32).setWidth 64 }
      (s.cancelMember d c.part m).answer d c 0 0 noGraph

/-- CANCEL (R13, R312). -/
def execCancel (d : DieId) (c : Cmd) (s : State) : Host.Outcome State Fault Refusal := .next (s.cancelCmd d c)

/-- JOB open (R12, R312): a job that has closed opens again with its counts, or anew where it is complete (DEDUCED, log 43). -/
def State.jobOpenCmd (s : State) (d : DieId) (c : Cmd) : State :=
  s.carry d c (decide (c.typ = 7) && !c.w0.getLsbD 0) false <|
    let jid : Word := c.w1.setWidth 32
    if cmdBad c then s.answer d c 5 jid noGraph
    else match (s.die d).job? c.part jid with
      | none => (s.modDie d fun x => { x with jobs := x.jobs ++ [{ jid := jid, part := c.part, isOpen := true, total := 0, done := 0 }] }).answer d c 0 jid noGraph
      | some j =>
        if j.isOpen then s.answer d c 5 jid noGraph
        else
          (s.modDie d fun x => x.modJob c.part jid fun j =>
            if j.done = j.total then { j with isOpen := true, total := 0, done := 0 } else { j with isOpen := true }).answer d c 0 jid noGraph

/-- JOB_OPEN (R12, R312). -/
def execJobOpen (d : DieId) (c : Cmd) (s : State) : Host.Outcome State Fault Refusal := .next (s.jobOpenCmd d c)

/-- JOB close (R12, R312): the member count is fixed (DEDUCED, log 43). -/
def State.jobCloseCmd (s : State) (d : DieId) (c : Cmd) : State :=
  s.carry d c (decide (c.typ = 7) && c.w0.getLsbD 0) false <|
    let jid : Word := c.w1.setWidth 32
    let open_ := match (s.die d).job? c.part jid with | some j => j.isOpen | none => false
    if cmdBad c || !open_ then s.answer d c 5 jid noGraph
    else (s.modDie d fun x => x.modJob c.part jid fun j => { j with isOpen := false }).answer d c 0 jid noGraph

/-- JOB_CLOSE (R12, R312, R336). -/
def execJobClose (d : DieId) (c : Cmd) (s : State) : Host.Outcome State Fault Refusal := .next (s.jobCloseCmd d c)

/-! ## Graphs (R316 to R318) -/

/-- Bytes of the graph store (R318). -/
def graphStore : Nat := 8 * 2 ^ 20

/-- Nodes that still have a predecessor among those left. -/
def peel (succ : List (List Nat)) (l : List Nat) : List Nat := l.filter fun v => l.any fun u => (succ.getD u []).contains v

def peelN (succ : List (List Nat)) : Nat → List Nat → List Nat
  | 0, l => l
  | n + 1, l => peelN succ n (peel succ l)

/-- The relation has no cycle. -/
def acyclic (succ : List (List Nat)) : Bool := (peelN succ succ.length (List.range succ.length)).isEmpty

/-- The node at an offset of a table: its fields, its reserved bits zero, its successor list inside the table. -/
def nodeOf (b : List Byte) (i : Nat) : Option Node :=
  let v := leValue ((b.drop (16 + 64 * i)).take 64)
  let f (off w : Nat) : Nat := v / 2 ^ off % 2 ^ w
  let n := f 176 16
  let at_ := f 192 32
  if f 153 7 ≠ 0 ∨ f 224 288 ≠ 0 ∨ b.length < at_ + 2 * n then none
  else some { kdesc := BitVec.ofNat 64 (f 0 64), argb := BitVec.ofNat 64 (f 64 64), units := f 128 25, npred := f 160 16,
              succ := (List.range n).map fun j => leValue ((b.drop (at_ + 2 * j)).take 2) }

/-- The table's nodes, if it keeps every check of R318. -/
def graphNodes (x : Die) (ctx : Fin 64) (b : List Byte) : Option (List Node) :=
  let n := leValue (b.take 4)
  let ns := (List.range n).map (nodeOf b)
  if n = 0 ∨ 65536 < n ∨ b.length < 16 + 64 * n ∨ leValue ((b.drop 8).take 8) ≠ 0 ∨ ns.any (fun o => o.isNone) then none
  else
    let nodes := ns.filterMap id
    let succ := nodes.map fun k => k.succ
    let preds (i : Nat) : Nat := (succ.filter fun l => l.contains i).length
    let ok := (nodes.mapIdx fun i k => decide (k.succ.eraseDups = k.succ) && k.succ.all (fun j => decide (j ≠ i) && decide (j < n)) && decide (preds i ≤ k.npred) &&
      (x.kernel? ctx k.kdesc).isSome).all id
    if ok && acyclic succ then some nodes else none

/-- The table's reads break protection. -/
def State.gloadBreaks (s : State) (d : DieId) (c : Cmd) : Bool :=
  let n := c.w2.toNat % 2 ^ 32
  !(cmdBad c || ((s.die d).graph? (c.w0.toNat % 4096)).isSome || decide (c.w1.toNat % 64 ≠ 0) || decide (graphStore < n)) &&
  s.spanBreaks d c.ctx c.part c.w1 n

/-- GLOAD (R312, R316 to R318). -/
def State.gloadCmd (s : State) (d : DieId) (c : Cmd) : State :=
  s.carry d c (decide (c.typ = 3)) (s.gloadBreaks d c) <|
    let g := c.w0.toNat % 4096
    let n := c.w2.toNat % 2 ^ 32
    let used := ((s.die d).graphs.map fun k => k.bytes).sum
    if cmdBad c || ((s.die d).graph? g).isSome || decide (c.w1.toNat % 64 ≠ 0) then s.answer d c 5 0 g
    else if graphStore < n then s.answer d c 8 0 g
    else match (s.feBytes d c.ctx c.part c.w1 n).bind (graphNodes (s.die d) c.ctx) with
      | none => s.answer d c 5 0 g
      | some nodes =>
        if graphStore < used + n then s.answer d c 8 0 g
        else (s.modDie d fun x => { x with graphs := x.graphs ++ [{ num := g, ctx := c.ctx, bytes := n, nodes := nodes }] }).answer d c 0 0 g

/-- GLOAD (R312, R317, R318). -/
def execGload (d : DieId) (c : Cmd) (s : State) : Host.Outcome State Fault Refusal := .next (s.gloadCmd d c)

/-- GFREE (R312). -/
def State.gfreeCmd (s : State) (d : DieId) (c : Cmd) : State :=
  s.carry d c (decide (c.typ = 4)) false <|
    let g := c.w0.toNat % 4096
    let x := s.die d
    let mine := match x.graph? g with | some k => decide (k.ctx = c.ctx) | none => false
    let held := x.graphBusy g || x.queuedPh.any (fun q => decide (q.graph = g)) || x.cox.any fun k => k.lgraph.toList.contains g
    if cmdBad c || !mine || held then s.answer d c 5 0 g
    else (s.modDie d fun x => { x with graphs := x.graphs.filter fun k => decide (k.num ≠ g) }).answer d c 0 0 g

/-- GFREE (R312). -/
def execGfree (d : DieId) (c : Cmd) (s : State) : Host.Outcome State Fault Refusal := .next (s.gfreeCmd d c)

/-! ## Kernels (R315, R331) -/

/-- A section of a descriptor: its place of the base and of the length. -/
def secOf (v i : Nat) : Sec := { base := BitVec.ofNat 64 (v / 2 ^ (64 * i) % 2 ^ 64), words := v / 2 ^ (256 + 24 * i) % 2 ^ 24 }

/-- Every word of a section translates with rd. -/
def State.secReads (s : State) (d : DieId) (ctx : Fin 64) (part : Fin 32) (x : Sec) : Bool :=
  decide (x.base.toNat % 4 = 0) && decide (x.words ≤ 4194304) &&
  (List.range x.words).all fun i => (s.fePa d ctx part needRd 4 4 (x.base + BitVec.ofNat 64 (4 * i))).isSome

/-- The section holds an MMAJ word (R331). -/
def State.secHasMmaj (s : State) (d : DieId) (ctx : Fin 64) (part : Fin 32) (x : Sec) : Bool :=
  (List.range x.words).any fun i => match s.fePa d ctx part needRd 4 4 (x.base + BitVec.ofNat 64 (4 * i)) with
    | some pa => (match decode .m (BitVec.ofNat 32 (s.valueAt pa 4)) with | .ok (.mmaj ..) => true | _ => false)
    | none => false

/-- The kernel that a descriptor gives, if it keeps the check of R315. -/
def State.kernelOf (s : State) (d : DieId) (c : Cmd) : Option Kernel :=
  if c.w1.toNat % 64 ≠ 0 then none
  else match s.feBytes d c.ctx c.part c.w1 128 with
    | none => none
    | some b =>
      let v := leValue b
      let secs : Vector Sec 4 := Vector.ofFn fun i => secOf v i.val
      if v / 2 ^ 368 % 2 ^ 16 ≠ 0 ∨ v / 2 ^ 640 ≠ 0 ∨ !(secs.toList.all (s.secReads d c.ctx c.part)) then none
      else some
        { ctx := c.ctx, addr := c.w1, secs := secs, crew := s.secHasMmaj d c.ctx c.part (secOf v 3)
          ft := Vector.ofFn fun e => if v / 2 ^ (352 + e.val) % 2 = 1 then BitVec.ofNat 16 (v / 2 ^ (384 + 16 * e.val)) else 0 }

/-- The descriptor's reads, or those of a section it names, break protection. -/
def State.kloadBreaks (s : State) (d : DieId) (c : Cmd) : Bool :=
  !(cmdBad c || ((s.die d).kernel? c.ctx c.w1).isSome || decide (c.w1.toNat % 64 ≠ 0)) &&
  (s.spanBreaks d c.ctx c.part c.w1 128 ||
    match s.feBytes d c.ctx c.part c.w1 128 with
    | some b => (List.range 4).any fun i =>
      let x := secOf (leValue b) i
      decide (x.base.toNat % 4 = 0) && decide (x.words ≤ 4194304) && s.spanBreaks d c.ctx c.part x.base (4 * x.words)
    | none => false)

/-- KLOAD (R312, R315, R331). -/
def State.kloadCmd (s : State) (d : DieId) (c : Cmd) : State :=
  s.carry d c (decide (c.typ = 5)) (s.kloadBreaks d c) <|
  if cmdBad c || ((s.die d).kernel? c.ctx c.w1).isSome then s.answer d c 5 0 noGraph
  else if 4096 ≤ ((s.die d).kernels.filter fun k => decide (k.ctx = c.ctx)).length then s.answer d c 8 0 noGraph
  else match s.kernelOf d c with
    | none => s.answer d c 5 0 noGraph
    | some k => (s.modDie d fun x => { x with kernels := x.kernels ++ [k] }).answer d c 0 0 noGraph

/-- KLOAD (R312, R315, R331). -/
def execKload (d : DieId) (c : Cmd) (s : State) : Host.Outcome State Fault Refusal := .next (s.kloadCmd d c)

/-- KFREE (R312, R315). -/
def State.kfreeCmd (s : State) (d : DieId) (c : Cmd) : State :=
  s.carry d c (decide (c.typ = 6)) false <|
    let named := (s.die d).graphs.any fun g => decide (g.ctx = c.ctx) && g.nodes.any fun n => decide (n.kdesc = c.w1)
    if cmdBad c || ((s.die d).kernel? c.ctx c.w1).isNone || named then s.answer d c 5 0 noGraph
    else (s.modDie d fun x => { x with kernels := x.kernels.filter fun k => !(decide (k.ctx = c.ctx) && decide (k.addr = c.w1)) }).answer d c 0 0 noGraph

/-- KFREE (R312, R315). -/
def execKfree (d : DieId) (c : Cmd) (s : State) : Host.Outcome State Fault Refusal := .next (s.kfreeCmd d c)

/-- BAD_COMMAND (R312): a type without a command. -/
def State.badCmd (s : State) (d : DieId) (c : Cmd) : State :=
  s.carry d c (decide (c.typ = 0) || decide (9 ≤ c.typ)) false (s.answer d c 5 0 noGraph)

/-- BAD_COMMAND (R312). -/
def execBadCommand (d : DieId) (c : Cmd) (s : State) : Host.Outcome State Fault Refusal := .next (s.badCmd d c)

end Sys2Proof.Machine
end

