-- ==== Sys2Proof/Machine/Common.lean ====
section
/-! DEFINITION. The common group (R30, R31, R39 to R42, R125 to R128): NOP, MLOOP, tokens, flags, BRK and BNDY, in every seat. -/

namespace Sys2Proof.Machine

open Sys2Proof

def State.modSeatOf (s : State) (k : SeatId) (f : Seat → Seat) : State := s.modCtx s.cur fun x => x.modSeat k f

/-- A loop that the word is no partner of runs on the register: another seat's, but for a partner that has issued its MLOOP at this rendezvous, or the
C seat's own that a handler's frame keeps (R38, R39, R350). -/
def State.loopTaken (s : State) (st : Bool) (k : SeatId) (l : BitVec 3) : Bool :=
  let c := s.coreAt s.cur
  [SeatId.c, .a, .v, .m].any fun j => decide (j ≠ k) && (match (c.ctx.seat j).body with
    | some lp => decide (lp.reg = l) && !(st && lp.group && decide (lp.step = 0) && decide (lp.pos = 0) && decide (c.moved &&& seatBit j ≠ 0))
    | none => false) ||
  (match c.handler with | some h => (match (h.saved.seat .c).body with | some lp => decide (lp.reg = l) | none => false) | none => false)

/-- An urgent stop waits for the epilogues of the core's loops: an MLOOP reached meanwhile waits for the freeze, but in a handler, which the stop waits for
(R42, R365) (DESIGN CHOICE, log 78). -/
def Core.urgent (c : Core) : Bool :=
  c.handler.isNone && match c.unit with
  | some u => (match u.stop with | some q => q.urgent | none => false)
  | none => false

/-- MLOOP (R39, R40): a trip of 0 skips the body; the word at which a forced early epilogue ended is issued again with the iterations still to run
and the rotation base they need (R42). -/
def mloopV (st : Bool) (k : SeatId) (l : BitVec 3) (n : BitVec 6) (stg ms : BitVec 3) (s : State) : Verdict :=
  let x := (s.coreAt s.cur).ctx
  let t := x.seat k
  if ms.toNat < stg.toNat then .trap .undefinedInstruction 0
  else if (s.coreAt s.cur).urgent then .stall s
  else match t.loop with
    | some lp =>
      let lp' := { lp with lepi := false, lmid := false, lsq := false, base := lp.i0, step := 0, pos := 0 }
      .go (s.modSeatOf k fun t => { t with rb := if k = .a ∨ k = .v then lp.b0 + BitVec.ofNat 3 lp.i0 else t.rb }) (.loop lp')
    | none =>
      if s.loopTaken st k l then .trap .loopBusy 0
      else
        let trip := ((s.rdL l).setWidth 32).toNat
        if trip = 0 then .go s (.skip (t.pc + 4 * (BitVec.ofNat 64 (n.toNat + 2))))
        else .go s (.loop { reg := l, len := n.toNat + 1, stage := stg.toNat, ms := ms.toNat, head := t.pc, trip := trip, step := 0, pos := 0, b0 := t.rb,
                            base := 0, group := st, lsq := false, lepi := false, lmid := false, i0 := 0, dith := false })

/-- Posts already made to a token on this clock. -/
def Core.postsTo (c : Core) (t : BitVec 4) : Nat := (c.pend.map fun p => match p with | .post k n => if k = t then n.toNat else 0 | _ => 0).sum

/-- TPOST (R31, R147): the overflow test counts the waits and the posts that earlier seats made on this clock (DESIGN CHOICE, log 75). -/
def tpostV (t : BitVec 4) (n : BitVec 8) (s : State) : Verdict :=
  let c := s.coreAt s.cur
  if n = 0 then .trap .undefinedInstruction 0
  else if 65535 < (c.ctx.k.get t.toFin).toNat + c.postsTo t + n.toNat then .trap .tokenOverflow 0
  else .go (s.pendF (.post t n)) .seq

def twaitV (t : BitVec 4) (n : BitVec 8) (s : State) : Verdict :=
  let v := (s.coreAt s.cur).ctx.k.get t.toFin
  if n = 0 then .trap .undefinedInstruction 0
  else if n.toNat ≤ v.toNat then .go (s.modCtx s.cur fun x => { x with k := x.k.set t.toFin (v - n.setWidth 16) }) .seq
  else .stall (s.why 16)

/-- BRK issues and traps "breakpoint"; with DCFG.brkdbg set it halts the core instead (R127, R374). -/
def brkV (c : BitVec 8) (s : State) : Verdict :=
  if (s.coreAt s.cur).dbg.dcfg.getLsbD 0 then
    .go (s.modCore s.cur fun k => { k with dbg := { k.dbg with pending := some .brk } }) .seq
  else .goTrap s .seq .breakpoint (zx c)

/-- BNDY outside a loop body, stroked or alone: the unit is at a tile boundary, where a pending stop takes effect (R128). In a trap
handler it has no effect (DESIGN CHOICE, log 75). -/
def bndyV (st : Bool) (k : SeatId) (s : State) : Verdict :=
  let c := s.coreAt s.cur
  let at_ := (c.ctx.seat k).body.isNone && c.handler.isNone && (st || decide (c.ctx.actives = [k]))
  match c.unit with
  | some u => if at_ && u.stop.isSome then .go (s.pendF .boundary) .seq else .go s .seq
  | none => .go s .seq

/-! ## The words -/

/-- NOP (R126). -/
def vNop (s : State) : Verdict :=
  .go s .seq

/-- NOP (R126). -/
def execNop (st : Bool) (s : State) : Host.Outcome State Fault Refusal :=
  issue s.turnSeat st (.nop st) (vNop s) s

/-- MLOOP (R39, R40, R42). -/
def vMloop (st : Bool) (k : SeatId) (l : BitVec 3) (n : BitVec 6) (stg ms : BitVec 3) (s : State) : Verdict :=
  mloopV st k l n stg ms s

/-- MLOOP (R39, R40, R42). -/
def execMloop (st : Bool) (l : BitVec 3) (n : BitVec 6) (stg ms : BitVec 3) (s : State) : Host.Outcome State Fault Refusal :=
  issue s.turnSeat st (.mloop st l n stg ms) (vMloop st s.turnSeat l n stg ms s) s

/-- TPOST (R31). -/
def vTpost (t : BitVec 4) (n : BitVec 8) (s : State) : Verdict :=
  tpostV t n s

/-- TPOST (R31). -/
def execTpost (st : Bool) (t : BitVec 4) (n : BitVec 8) (s : State) : Host.Outcome State Fault Refusal :=
  issue s.turnSeat st (.tpost st t n) (vTpost t n s) s

/-- TWAIT (R31). -/
def vTwait (t : BitVec 4) (n : BitVec 8) (s : State) : Verdict :=
  twaitV t n s

/-- TWAIT (R31). -/
def execTwait (st : Bool) (t : BitVec 4) (n : BitVec 8) (s : State) : Host.Outcome State Fault Refusal :=
  issue s.turnSeat st (.twait st t n) (vTwait t n s) s

/-- FSET (R31). -/
def vFset (f : BitVec 3) (v : BitVec 1) (s : State) : Verdict :=
  .go (s.pendF (.flag f (decide (v = 1)))) .seq

/-- FSET (R31). -/
def execFset (st : Bool) (f : BitVec 3) (v : BitVec 1) (s : State) : Host.Outcome State Fault Refusal :=
  issue s.turnSeat st (.fset st f v) (vFset f v s) s

/-- FWAIT (R31). -/
def vFwait (f : BitVec 3) (v : BitVec 1) (s : State) : Verdict :=
  if (s.coreAt s.cur).ctx.f.getLsbD f.toNat = decide (v = 1) then .go s .seq else .stall (s.why 16)

/-- FWAIT (R31). -/
def execFwait (st : Bool) (f : BitVec 3) (v : BitVec 1) (s : State) : Host.Outcome State Fault Refusal :=
  issue s.turnSeat st (.fwait st f v) (vFwait f v s) s

/-- BRK (R127, R374). -/
def vBrk (c : BitVec 8) (s : State) : Verdict :=
  brkV c s

/-- BRK (R127, R374). -/
def execBrk (st : Bool) (c : BitVec 8) (s : State) : Host.Outcome State Fault Refusal :=
  issue s.turnSeat st (.brk st c) (vBrk c s) s

/-- BNDY (R128). -/
def vBndy (st : Bool) (k : SeatId) (s : State) : Verdict :=
  bndyV st k s

/-- BNDY (R128). -/
def execBndy (st : Bool) (s : State) : Host.Outcome State Fault Refusal :=
  issue s.turnSeat st (.bndy st) (vBndy st s.turnSeat s) s

end Sys2Proof.Machine
end

