-- ==== Sys2Proof/Machine/Vec.lean ====
section
/-! DEFINITION. Vector operands and results (R199 to R204), and the element functions of the V seat (R205 to R227). -/

namespace Sys2Proof.Machine

open Sys2Proof

/-! ## Elements (R199) -/

def elems (w : Nat) (x : Line) : List Nat := (List.range (1024 / w)).map fun e => (x.extractLsb' (8 * w * e) (8 * w)).toNat

/-- Bytes of an element of a type (R118). -/
def tyBytes (ty : BitVec 2) : Nat := if ty = tyF16 ∨ ty = tyBf16 then 2 else 4

/-- The float format of a type. -/
def tyFmt (ty : BitVec 2) : Ffmt := if ty = tyF16 then fp16 else if ty = tyBf16 then bf16 else fp32

/-- The esz a queue operand of a type needs (R202). -/
def tyEsz (ty : BitVec 2) : BitVec 2 := if ty = tyF16 ∨ ty = tyBf16 then 2 else 3

def map1 (w : Nat) (f : Nat → Nat) (a : Line) : Line := packElems w ((elems w a).map f)

def map2 (w : Nat) (f : Nat → Nat → Nat) (a b : Line) : Line := packElems w (List.zipWith f (elems w a) (elems w b))

def map3 (w : Nat) (f : Nat → Nat → Nat → Nat) (a b c : Line) : Line :=
  packElems w (List.zipWith (fun g z => g z) (List.zipWith f (elems w a) (elems w b)) (elems w c))

/-- The bytes a predicate turns on: four to a lane (R199, R200). -/
def predBytes (p : Pred) : BitVec 1024 :=
  if p = BitVec.allOnes 256 then BitVec.allOnes 1024
  else BitVec.ofNat 1024 (packNat 16 ((List.range 256).map fun i => if p.getLsbD i then 15 else 0))

/-- The bytes of a value that are on, the rest zero. -/
def maskLine (en : BitVec 1024) (v : Line) : Line := mergeLine en 0 v

/-! ## Operands (R118, R202, R204) -/

/-- A source or destination code with the esz its queue needs. -/
abbrev VOp := BitVec 6 × BitVec 2

def isQueue (c : BitVec 6) : Bool := decide (32 ≤ c.toNat) && decide (c.toNat < 40)

def queueOf (c : BitVec 6) : BitVec 3 := c.setWidth 3

/-- The value of a source operand: a v register, a queue's head entry, or the low bytes of an x register in every element (R118). -/
def State.vsrc (s : State) (tag : Nat) (c : BitVec 6) (w : Nat) : Line :=
  if c.toNat < 32 then s.rdV tag (c.setWidth 5)
  else if isQueue c then (match (s.queueAt (queueOf c)).head with | some e => e.data | none => 0)
  else packElems w (List.replicate (1024 / w) ((s.rdX tag (c.setWidth 4)).toNat % 2 ^ (8 * w)))

/-- The checks on queue operands (R28, R202, R229), a destination that is no store queue and no load queue failing last (DESIGN CHOICE, log 79), the stalls, a
trap of the word's own on the clock on which it would issue, then the poisoned head (R29, R349), then the word itself. -/
def State.withQueuesOr (s : State) (srcs : List VOp) (dst : Option VOp) (own : Option Cause) (k : Verdict) : Verdict :=
  let qs := srcs.filter fun o => isQueue o.1
  let qd := dst.toList.filter fun o => isQueue o.1
  if qs.any fun o => decide ((s.queueAt (queueOf o.1)).dir ≠ 1) then .trap .queueDirection 0
  else if qd.any fun o => decide ((s.queueAt (queueOf o.1)).dir = 1) then .trap .queueDirection 0
  else if (qs ++ qd).any fun o => decide ((s.queueAt (queueOf o.1)).esz ≠ o.2) then .trap .queueWidth 0
  else if qd.any fun o => decide ((s.queueAt (queueOf o.1)).dir ≠ 2) then .trap .queueDirection 0
  else if qs.any fun o => (s.queueAt (queueOf o.1)).head.isNone then .stall (s.why 14)
  else if qd.any fun o => (s.queueAt (queueOf o.1)).noRoom then .stall (s.why 15)
  else match own with
    | some c => .trap c 0
    | none => match qs.findSome? fun o => (s.queueAt (queueOf o.1)).head.bind fun e => e.poison with
      | some tv => .trap .poisonedHead tv
      | none => k

def State.withQueues (s : State) (srcs : List VOp) (dst : Option VOp) (k : Verdict) : Verdict := s.withQueuesOr srcs dst none k

/-- The head entries of the named queues are taken, one from each (R29). -/
def State.takeHeads (s : State) (codes : List (BitVec 6)) : State :=
  ((codes.filter isQueue).map queueOf).eraseDups.foldl (fun s q => s.modCtx s.cur fun x => x.setQueue q (x.queue q).take) s

/-- A vector result: to a v register, merged at its landing, or to the reserved tail of a store queue, whose other bytes are zero (R200, R201). -/
def State.sendV (s : State) (d : BitVec 6) (v : Line) (en : BitVec 1024) (lat : Nat) : State :=
  if isQueue d then
    let q := queueOf d
    let t := s.nextId
    let s := { s with nextId := s.nextId + 1 }
    (s.modCtx s.cur fun x => x.setQueue q ((x.queue q).reserve t)).sendR (mkResult .v (.queue q t) (maskLine en v) lat)
  else s.sendR { mkResult .v (.v ((s.coreAt s.cur).ctx.vPhys (d.setWidth 5))) v lat with en := en }

def State.sendP (s : State) (d : BitVec 6) (p : Pred) (lat : Nat) : State := s.sendR (mkResult .v (.p (d.setWidth 3)) (p.setWidth 8192) lat)

/-- A masked word with sources of one type and a vector destination. -/
def vecV (ty : BitVec 2) (d : BitVec 6) (srcs : List (BitVec 6)) (p : BitVec 3) (lat : Nat) (val : Line) (s : State) : Verdict :=
  s.withQueues (srcs.map fun c => (c, tyEsz ty)) (some (d, tyEsz ty))
    (.go ((s.takeHeads srcs).sendV d val (predBytes (s.rdP 7 p)) lat) .seq)

def vec1V (ty : BitVec 2) (d a : BitVec 6) (p : BitVec 3) (lat : Nat) (f : Nat → Nat) (s : State) : Verdict :=
  vecV ty d [a] p lat (map1 (tyBytes ty) f (s.vsrc 0 a (tyBytes ty))) s

def vec2V (ty : BitVec 2) (d a b : BitVec 6) (p : BitVec 3) (lat : Nat) (f : Nat → Nat → Nat) (s : State) : Verdict :=
  vecV ty d [a, b] p lat (map2 (tyBytes ty) f (s.vsrc 0 a (tyBytes ty)) (s.vsrc 1 b (tyBytes ty))) s

/-- The accumulating words read d at issue (R206). -/
def vecAccV (ty : BitVec 2) (d a b : BitVec 6) (p : BitVec 3) (f : Nat → Nat → Nat → Nat) (s : State) : Verdict :=
  vecV ty d [a, b] p 4 (map3 (tyBytes ty) f (s.vsrc 2 d (tyBytes ty)) (s.vsrc 0 a (tyBytes ty)) (s.vsrc 1 b (tyBytes ty))) s

/-! ## Element functions (R205 to R211) -/

/-- A float operation rounded once to nearest-even, or an operation on 32-bit integers modulo 2^32. -/
def tyOp2 (ty : BitVec 2) (f : Fv → Fv → Fv) (g : Int → Int → Int) (a b : Nat) : Nat :=
  if ty = tyI32 then intBits 32 (g (bitsInt 32 a) (bitsInt 32 b))
  else (tyFmt ty).round .near (f ((tyFmt ty).value a) ((tyFmt ty).value b))

def tyOp1 (ty : BitVec 2) (f : Fv → Fv) (g : Int → Int) (a : Nat) : Nat :=
  if ty = tyI32 then intBits 32 (g (bitsInt 32 a)) else (tyFmt ty).round .near (f ((tyFmt ty).value a))

/-- d ± a × b, exact and rounded once (R206). -/
def tyFma (ty : BitVec 2) (minus : Bool) (d a b : Nat) : Nat :=
  if ty = tyI32 then
    let t := bitsInt 32 a * bitsInt 32 b
    intBits 32 (if minus then bitsInt 32 d - t else bitsInt 32 d + t)
  else
    let f := tyFmt ty
    let t := (f.value a).mul (f.value b)
    f.round .near ((f.value d).add (if minus then t.neg else t))

/-- d + a × b × s of VSCAC (R207). -/
def scacF (sc d a b : Nat) : Nat := fp32.round .near ((fp32.value d).add (((fp32.value a).mul (fp32.value b)).mul (fp32.value sc)))

/-- A compare on one element; signed on i32 (R209). -/
def tyCmp (ty : BitVec 2) (f : Fv → Fv → Bool) (g : Int → Int → Bool) (a b : Nat) : Bool :=
  if ty = tyI32 then g (bitsInt 32 a) (bitsInt 32 b) else f ((tyFmt ty).value a) ((tyFmt ty).value b)

/-- One bit a lane: for 16-bit types both elements of the lane must hold (R209). -/
def cmpPred (ty : BitVec 2) (on : Pred) (r : Nat → Nat → Bool) (a b : Line) : Pred :=
  let w := tyBytes ty
  let el (x : Line) (e : Nat) : Nat := (x.extractLsb' (8 * w * e) (8 * w)).toNat
  predOf fun i => on.getLsbD i &&
    (if w = 4 then r (el a i) (el b i) else r (el a (2 * i)) (el b (2 * i)) && r (el a (2 * i + 1)) (el b (2 * i + 1)))

def cmpV (ty : BitVec 2) (d a b : BitVec 6) (p : BitVec 3) (r : Nat → Nat → Bool) (s : State) : Verdict :=
  s.withQueues [(a, tyEsz ty), (b, tyEsz ty)] none
    (.go ((s.takeHeads [a, b]).sendP d (cmpPred ty (s.rdP 7 p) r (s.vsrc 0 a (tyBytes ty)) (s.vsrc 1 b (tyBytes ty))) 2) .seq)

/-- VSEL is not masked: its predicate selects between the operands (R210). -/
def vselV (d a b : BitVec 6) (p : BitVec 3) (ty : BitVec 2) (s : State) : Verdict :=
  s.withQueues [(a, tyEsz ty), (b, tyEsz ty)] (some (d, tyEsz ty))
    (.go ((s.takeHeads [a, b]).sendV d
      (mergeLine (predBytes (s.rdP 7 p)) (s.vsrc 1 b (tyBytes ty)) (s.vsrc 0 a (tyBytes ty))) (BitVec.allOnes 1024) 2) .seq)

def u32 (v : Nat) : BitVec 32 := BitVec.ofNat 32 v

/-- VSCAC (R207): not masked; its p field names x8 to x15, whose halves scale the two rows. -/
def vscacV (d a b : BitVec 6) (p : BitVec 3) (s : State) : Verdict :=
  let x := s.rdX 3 (8 + p.setWidth 4)
  let sc (e : Nat) : Nat := if e < 128 then (x.extractLsb' 0 32).toNat else (x.extractLsb' 32 32).toNat
  let fs := (List.range 256).map fun e => scacF (sc e)
  let v := packElems 4 (List.zipWith (fun g z => g z)
    (List.zipWith (fun g z => g z) (List.zipWith (fun g z => g z) fs (elems 4 (s.vsrc 2 d 4))) (elems 4 (s.vsrc 0 a 4))) (elems 4 (s.vsrc 1 b 4)))
  s.withQueues [(a, 3), (b, 3)] (some (d, 3)) (.go ((s.takeHeads [a, b]).sendV d v (BitVec.allOnes 1024) 4) .seq)

/-! ## Predicates (R212) -/

def predV (d : BitVec 6) (p : Pred) (s : State) : Verdict := .go (s.sendP d p 1) .seq

def State.pOf (s : State) (tag : Nat) (c : BitVec 6) : Pred := s.rdP tag (c.setWidth 3)

def pcntV (d a : BitVec 6) (s : State) : Verdict := .go (s.sendX (d.setWidth 4) (BitVec.ofNat 64 (popCount (s.pOf 0 a))) 2) .seq

/-! ## Conversion (R213, R214) -/

/-- The float format of a VCVT code, none for the integers. -/
def cvtFmt : Nat → Option Ffmt
  | 0 => some fp32 | 1 => some fp16 | 2 => some bf16 | 4 => some e4m3 | 5 => some e5m2 | _ => none

/-- Convert one element (R214, R95, R96). -/
def cvtElem (src dst : Nat) (mode : Rmode) (x : Nat) : Nat :=
  let wd := 8 * cvtWidth dst
  match cvtFmt src, cvtFmt dst with
  | some f, some g => g.round mode (f.value x)
  | some f, none => intBits wd ((f.value x).toIntSat wd mode)
  | none, some g => g.round mode (Fv.ofInt (bitsInt (8 * cvtWidth src) x))
  | none, none => intBits wd (satInt wd (bitsInt (8 * cvtWidth src) x))

def cvtEsz (f : Nat) : BitVec 2 := if cvtWidth f = 4 then 3 else if cvtWidth f = 2 then 2 else 1

/-- VCVT (R213, R214): b holds the formats, p the mode, ty the part. -/
def vcvtV (d a b : BitVec 6) (p : BitVec 3) (ty : BitVec 2) (s : State) : Verdict :=
  let sf := b.toNat / 8
  let df := b.toNat % 8
  let ws := cvtWidth sf
  let wd := cvtWidth df
  let n := 1024 / max ws wd
  let part := ty.toNat
  let phase := (s.coreAt s.cur).ctx.dph.toNat
  let src := (elems ws (s.vsrc 0 a ws)).drop (if ws < wd then part * n else 0)
  let out := ((src.take n).zip (List.range n)).map fun x => cvtElem sf df (rmodeOf p x.2 phase) x.1
  let off := if wd < ws then part * n * wd else 0
  let v : Line := packElems wd out <<< (8 * off)
  let en : BitVec 1024 := BitVec.ofNat 1024 ((2 ^ (n * wd) - 1) * 2 ^ off)
  s.withQueues [(a, cvtEsz sf)] (some (d, cvtEsz df)) (.go ((s.takeHeads [a]).sendV d v en 4) .seq)

/-! ## Quantisation (R102, R215, R216) -/

/-- The elements of block b of a superblock. -/
def blockOf (l : List Nat) (b : Nat) : List Fv := ((l.drop (8 * b)).take 8).map fp32.value

def Fv.isInf : Fv → Bool
  | .inf _ => true
  | _ => false

/-- A_b (R102, step 1). -/
def blockMax (l : List Fv) : Fv := l.foldl (fun m v => match v with | .fin _ k e => m.max (.fin false k e) | _ => m) Fv.zero

/-- S (R102, step 2). -/
def superScale (l : List Nat) : Fv :=
  (List.range 16).foldl (fun m b => let k := blockOf l b; if k.any Fv.isNan then m else m.max (blockMax k)) Fv.zero

/-- SE20, codes and mask bit of one block (R102, steps 3 to 7). -/
def quantBlock (p : BitVec 3) (phase : Nat) (sup : Fv) (k : List Fv) : Nat × List Nat × Bool :=
  if k.any Fv.isNan then (0xFFFFF, List.replicate 8 0, true)
  else
    let infs := k.any Fv.isInf
    match sup, blockMax k with
    | .fin _ sm se, .fin _ am ae =>
      let (a, d) := ratioOf am ae sm se
      let scale := if sm = 0 then 0 else if a = 0 then 0 else se20Ceil a d
      let code (q : Nat) (v : Fv) : Nat :=
        match v with
        | .nan => 0
        | .inf n => if n then 15 else 7
        | .fin n m e =>
          if sm = 0 ∨ m = 0 then 0
          else match se20Value scale with
            | some (.fin _ bm be) =>
              let (y, z) := ratioOf m e (bm * sm) (be + se)
              let i := q4Index (rmodeOf p q phase) n y z
              (if infs ∧ i = 7 then 6 else i) + (if n then 8 else 0)
            | _ => 0
      (scale, (k.zip (List.range 8)).map fun x => code x.2 x.1, infs)
    | _, _ => (0, List.replicate 8 0, false)

/-- The code record and the scale record of a superblock as naturals (R99). -/
def quantSuper (p : BitVec 3) (phase : Nat) (l : List Nat) : Nat × Nat :=
  let sup := superScale l
  let bs := (List.range 16).map fun b => quantBlock p phase sup (blockOf l b)
  (packNat 16 (bs.flatMap fun b => b.2.1),
   packNat (2 ^ 20) (bs.map fun b => b.1) + fp32.round .near sup * 2 ^ 320 + packNat 2 (bs.map fun b => bit b.2.2) * 2 ^ 352)

/-- The value VQNT writes (R215). -/
def quantLine (p : BitVec 3) (phase : Nat) (a : Line) : Line :=
  let l := elems 4 a
  let q0 := quantSuper p phase (l.take 128)
  let q1 := quantSuper p phase (l.drop 128)
  BitVec.ofNat 8192 (q0.1 + q1.1 * 2 ^ 512 + q0.2 * 2 ^ 1024 + q1.2 * 2 ^ 1408)

def vqntV (d a : BitVec 6) (p : BitVec 3) (s : State) : Verdict :=
  s.withQueues [(a, 3)] (some (d, 0))
    (.go ((s.takeHeads [a]).sendV d (quantLine p (s.coreAt s.cur).ctx.dph.toNat (s.vsrc 0 a 4)) (BitVec.allOnes 1024) 12) .seq)

/-- Element j of a superblock by its records (R100). -/
def dequantElem (codes scales j : Nat) : Fv :=
  let b := j / 8
  q4Dequant (codes / 16 ^ j % 16) (scales / 2 ^ (20 * b) % 2 ^ 20) (decide (scales / 2 ^ (352 + b) % 2 = 1)) (fp32.value (scales / 2 ^ 320 % 2 ^ 32))

/-- The value VDQ writes (R216). -/
def dequantLine (p : BitVec 3) (ty : BitVec 2) (phase : Nat) (a : Line) : Line :=
  let at_ (o n : Nat) : Nat := (a.extractLsb' (8 * o) (8 * n)).toNat
  let one (c k : Nat) : List Nat := (List.range 128).map fun j => (tyFmt ty).round (rmodeOf p (j % 8) phase) (dequantElem c k j)
  packElems (tyBytes ty) (one (at_ 0 64) (at_ 128 48) ++ one (at_ 64 64) (at_ 176 48))

def vdqV (d a : BitVec 6) (p : BitVec 3) (ty : BitVec 2) (s : State) : Verdict :=
  s.withQueues [(a, 0)] (some (d, tyEsz ty))
    (.go ((s.takeHeads [a]).sendV d (dequantLine p ty (s.coreAt s.cur).ctx.dph.toNat (s.vsrc 0 a 4)) (BitVec.allOnes 1024) 6) .seq)

/-! ## Reductions and scans (R111, R217, R218) -/

def pairUp (f : Nat → Nat → Nat) : List Nat → List Nat
  | a :: b :: r => f a b :: pairUp f r
  | l => l

/-- L levels of the pairwise tree. -/
def pairTree (f : Nat → Nat → Nat) : Nat → List Nat → List Nat
  | 0, l => l
  | n + 1, l => pairTree f n (pairUp f l)

/-- The level count of a b field (R217). -/
def levelsOf (b : BitVec 6) (ty : BitVec 2) : Nat := if b.toNat % 16 = 0 then (if tyBytes ty = 2 then 9 else 8) else b.toNat % 16

/-- One addition of a sum: FP32 to nearest-even, or modulo 2^32 (R111). -/
def sumStep (ty : BitVec 2) (a b : Nat) : Nat :=
  if ty = tyI32 then (a + b) % 2 ^ 32 else fp32.round .near ((fp32.value a).add (fp32.value b))

/-- An element widened for a sum, and the sum back in its type (R111). -/
def sumIn (ty : BitVec 2) (x : Nat) : Nat := if ty = tyI32 then x else fp32.round .near ((tyFmt ty).value x)

def sumOut (ty : BitVec 2) (x : Nat) : Nat := if ty = tyI32 then x else (tyFmt ty).round .near (fp32.value x)

/-- The elements with those turned off replaced. -/
def onElems (ty : BitVec 2) (on : Pred) (off : Nat) (a : Line) : List Nat :=
  let w := tyBytes ty
  ((elems w a).zip (List.range (1024 / w))).map fun x => if on.getLsbD (w * x.2 / 4) then x.1 else off

def rsumLine (ty : BitVec 2) (lv : Nat) (on : Pred) (a : Line) : Line :=
  packElems (tyBytes ty) ((pairTree (sumStep ty) lv ((onElems ty on 0 a).map (sumIn ty))).map (sumOut ty))

/-- An off element of a maximum: −∞ or −2^31 (R217). -/
def maxOff (ty : BitVec 2) : Nat := if ty = tyI32 then 2 ^ 31 else (tyFmt ty).round .near (.inf true)

def maxStep (ty : BitVec 2) (a b : Nat) : Nat := tyOp2 ty Fv.max max a b

def rmaxLine (ty : BitVec 2) (lv : Nat) (on : Pred) (a : Line) : Line :=
  packElems (tyBytes ty) (pairTree (maxStep ty) lv (onElems ty on (maxOff ty) a))

/-- A reduction writes every element of d: the groups' results, then +0 (R217). -/
def reduceV (ty : BitVec 2) (d a : BitVec 6) (lat : Nat) (val : Line) (s : State) : Verdict :=
  s.withQueues [(a, tyEsz ty)] (some (d, tyEsz ty)) (.go ((s.takeHeads [a]).sendV d val (BitVec.allOnes 1024) lat) .seq)

/-- y[j] of a group: aligned blocks from the left, largest first, each by the tree, added from the left (R218). -/
def scanAt (ty : BitVec 2) (j : Nat) : Nat → List Nat → Option Nat → Nat
  | 0, l, acc => if (j + 1) % 2 = 1 then (match acc with | some a => sumStep ty a (l.headD 0) | none => l.headD 0) else acc.getD 0
  | k + 1, l, acc =>
    if (j + 1) / 2 ^ (k + 1) % 2 = 1 then
      let b := (pairTree (sumStep ty) (k + 1) (l.take (2 ^ (k + 1)))).headD 0
      scanAt ty j k (l.drop (2 ^ (k + 1))) (some (match acc with | some a => sumStep ty a b | none => b))
    else scanAt ty j k l acc

def scanLine (ty : BitVec 2) (lv : Nat) (on : Pred) (a : Line) : Line :=
  let l := (onElems ty on 0 a).map (sumIn ty)
  let g := 2 ^ lv
  packElems (tyBytes ty) ((List.range l.length).map fun e => sumOut ty (scanAt ty (e % g) lv ((l.drop (e / g * g)).take g) none))

/-! ## Data movement (R219) -/

/-- Bit patterns moved by element numbers. -/
def moveLine (w : Nat) (f : Nat → Nat) : Line := packElems w ((List.range (1024 / w)).map f)

def permV (ty : BitVec 2) (d a b : BitVec 6) (p : BitVec 3) (s : State) : Verdict :=
  let w := tyBytes ty
  let x := s.vsrc 0 a w
  let y := s.vsrc 1 b w
  vecV ty d [a, b] p 4 (moveLine w fun e => elemOf w x (elemOf w y e % (1024 / w))) s

def bcastV (ty : BitVec 2) (d a b : BitVec 6) (p : BitVec 3) (s : State) : Verdict :=
  let w := tyBytes ty
  let x := s.vsrc 0 a w
  let k := (s.rdX 1 (b.setWidth 4)).toNat % (1024 / w)
  vecV ty d [a] p 2 (moveLine w fun _ => elemOf w x k) s

/-- VPACK, VSPLT, VUNPK and VCAT: element e of d as a choice of element of a or b. -/
def weaveV (ty : BitVec 2) (d a b : BitVec 6) (p : BitVec 3) (f : Nat → Nat → Bool × Nat) (s : State) : Verdict :=
  let w := tyBytes ty
  let x := s.vsrc 0 a w
  let y := s.vsrc 1 b w
  let h := 512 / w
  vecV ty d [a, b] p 2 (moveLine w fun e => let c := f h e; elemOf w (if c.1 then y else x) c.2) s

/-! ## Immediates (R123, R124, R220) -/

/-- A VI word in place: every element of v register d. -/
def viV (w lat : Nat) (d : BitVec 6) (f : Nat → Nat) (s : State) : Verdict :=
  .go (s.sendV d (map1 w f (s.vsrc 0 d w)) (BitVec.allOnes 1024) lat) .seq

/-- A BF16 immediate widened exactly, a NaN canonical (R123, R124). -/
def immF32 (imm : BitVec 16) : Nat := fp32.round .near (bf16.value imm.toNat)

def immI32 (md : BitVec 1) (imm : BitVec 16) : Nat := if md = 1 then imm.toNat * 2 ^ 16 else (imm.signExtend 32).toNat

/-! ## Scalars (R221) -/

/-- The shifted product of XMUL (R221). -/
def xmulVal (a b : Dw) (sh : Nat) : Dw := BitVec.ofInt 64 (a.toInt * b.toInt / 2 ^ sh)

def xliV (d a b : BitVec 4) (imm : BitVec 11) (s : State) : Verdict :=
  if b = 0 then .go (s.sendX d (sx imm) 1) .seq
  else .go (s.sendX d ((s.rdX 0 a <<< 11) ||| zx imm) 1) .seq

def xgetV (d b : BitVec 4) (vr : BitVec 5) (s : State) : Verdict :=
  .go (s.sendX d (BitVec.ofNat 64 (elemOf 4 (s.rdV 0 vr) ((s.rdX 1 b).toNat % 256))) 2) .seq

def xputV (a b : BitVec 4) (vr : BitVec 5) (s : State) : Verdict :=
  let k := (s.rdX 1 b).toNat % 256
  .go (s.sendV (vr.setWidth 6) (BitVec.ofNat 8192 ((s.rdX 0 a).toNat % 2 ^ 32) <<< (32 * k)) ((0xF : BitVec 1024) <<< (4 * k)) 2) .seq

/-! ## Motion primitives (R224 to R227) -/

/-- The registers of a group (R203). -/
def State.grp (s : State) (a : BitVec 6) (i : Nat) : Line := s.rdV (10 + i) (a.setWidth 5 + BitVec.ofNat 5 i)

/-- A VSWEEP or VDIST less than 16 schedule cycles after another traps (R224). -/
def State.shapeBusy (s : State) : Option Cause :=
  match (s.coreAt s.cur).ctx.shape with
  | some h => if h.rem = 0 then none else some .shapeUnitBusy
  | none => none

/-- The unit keeps the word, its operand, its register operands and its lanes (R228) (DEDUCED, log 26). -/
def State.startShape (s : State) (w : Word) (dist : Bool) (b : Line) (src : List Line) (on : Pred) : State :=
  s.modCtx s.cur fun x => { x with shape := some (Shape.begun w dist b src on) }

def vsweepV (w : Word) (d a b : BitVec 6) (p : BitVec 3) (s : State) : Verdict :=
  let o := s.vsrc 1 b 4
  let on := s.rdP 7 p
  let hit (e : Nat) : Bool := (List.range 64).any fun k =>
    sweepHit (f32At (s.grp a 0) e) (f32At (s.grp a 1) e) (f32At (s.grp a 2) e) (f32At (s.grp a 3) e) o k
  let src := [s.grp a 0, s.grp a 1, s.grp a 2, s.grp a 3]
  s.withQueuesOr [(b, 3)] none s.shapeBusy
    (.go (((s.startShape w false o src on).takeHeads [b]).sendP d (predOf fun e => on.getLsbD e && hit e) 24) .seq)

/-- One joint: the new position and velocity as FP32 patterns (R226). -/
def jlimLane (prop pos vel lo hi vmx amx : Fv) : Nat × Nat :=
  let pb := (prop.max lo).min hi
  let dp := r32 (pb.sub pos)
  let ds := (dp.max vmx.neg).min vmx
  let v0 := r32 (vel.sub amx)
  let v1 := r32 (vel.add amx)
  let da := (ds.max v0).min v1
  if [prop, pos, vel, lo, hi, vmx, amx, pb, dp, ds, v0, v1, da].any Fv.isNan || hi.lt lo || vmx.lt Fv.zero || amx.lt Fv.zero then
    (fp32.round .near pos, 0)
  else (fp32.round .near (pos.add da), fp32.round .near da)

/-- VJLIM (R226): both results land on one clock. -/
def vjlimV (d a b : BitVec 6) (p : BitVec 3) (s : State) : Verdict :=
  let prop := s.vsrc 0 a 4
  let l := (List.range 256).map fun e =>
    jlimLane (f32At prop e) (f32At (s.grp b 0) e) (f32At (s.grp b 1) e) (f32At (s.grp b 2) e) (f32At (s.grp b 3) e) (f32At (s.grp b 4) e)
      (f32At (s.grp b 5) e)
  let en := predBytes (s.rdP 7 p)
  s.withQueues [(a, 3)] none
    (.go (((s.takeHeads [a]).sendV d (packElems 4 (l.map Prod.fst)) en 8).sendV (d + 1) (packElems 4 (l.map Prod.snd)) en 8) .seq)

def vdistV (w : Word) (d a b : BitVec 6) (p : BitVec 3) (s : State) : Verdict :=
  let o := s.vsrc 1 b 4
  let lane (e : Nat) : Nat := fp32.round .near ((List.range 32).foldl (fun r k =>
    match shapeDist (f32At (s.grp a 0) e) (f32At (s.grp a 1) e) (f32At (s.grp a 2) e) o k with | some t => r.min t | none => r) (.inf false))
  s.withQueuesOr [(b, 3)] (some (d, 3)) s.shapeBusy
    (.go (((s.startShape w true o [s.grp a 0, s.grp a 1, s.grp a 2] (s.rdP 7 p)).takeHeads [b]).sendV d
      (packElems 4 ((List.range 256).map lane)) (predBytes (s.rdP 7 p)) 20) .seq)

end Sys2Proof.Machine
end

