-- ==== Sys2Proof/Machine/Matrix.lean ====
section
/-! DEFINITION. The matrix engine (R230 to R255): its operation queue, the layouts of operands and drains, the groups of a span, joint operations. -/

namespace Sys2Proof.Machine

open Sys2Proof

/-! ## Fields of an operation -/

def EngOp.o (e : EngOp) : BitVec 3 := e.word.extractLsb' 20 3
def EngOp.a (e : EngOp) : BitVec 3 := e.word.extractLsb' 17 3
def EngOp.b (e : EngOp) : BitVec 3 := e.word.extractLsb' 14 3
/-- K = (kk + 1) × 8 k-steps (R239). -/
def EngOp.depth (e : EngOp) : Nat := ((e.word.extractLsb' 0 9).toNat + 1) * 8

/-- The fields of a format-table entry (R107). -/
def entA (e : BitVec 16) : Nat := (e.extractLsb' 0 4).toNat
def entB (e : BitVec 16) : Nat := (e.extractLsb' 4 4).toNat
def entOutf (e : BitVec 16) : Bool := e.getLsbD 8
def entDith (e : BitVec 16) : Nat := (e.extractLsb' 9 2).toNat
def entBsc (e : BitVec 16) : Bool := e.getLsbD 11

def isFp8 (f : Nat) : Bool := decide (f ≤ 1)
def isQ4 (f : Nat) : Bool := decide (f = 3)
def is16 (f : Nat) : Bool := decide (f = 4) || decide (f = 5)

/-- The permitted pairs (R108). -/
def pairOk (a b : Nat) : Bool :=
  (isFp8 a && isFp8 b) || (decide (a = 2) && decide (b = 2)) || (isQ4 a && isFp8 b) || (isFp8 a && isQ4 b) || (is16 a && decide (a = b))

/-- The checks on the entry (R238). -/
def entryOk (e : BitVec 16) (depth : Nat) : Bool :=
  let a := entA e
  let b := entB e
  decide (e.extractLsb' 12 4 = 0) && decide (entDith e < 2) && pairOk a b && !(entOutf e && decide (a = 2)) &&
  (!entBsc e || isQ4 a || isQ4 b) && (!(isQ4 a || isQ4 b) || decide (depth % 128 = 0))

def fmtEsz (f : Nat) : BitVec 2 := if isQ4 f then 0 else if is16 f then 2 else 1

def drainEsz (half : Bool) : BitVec 2 := if half then 2 else 3

/-! ## Issue (R237, R238, R242, R243, R250, R251) -/

/-- The entry an f field selects: by number, or by the count of a loop register mod 16 (R107, R119). -/
def State.fmtSel (s : State) (f : BitVec 5) : BitVec 4 :=
  if f.toNat < 16 then f.setWidth 4
  else
    let l : BitVec 3 := f.setWidth 3
    (((s.coreAt s.cur).ctx.loopView .m l (s.rdL l)).extractLsb' 32 32).setWidth 4

/-- The queue checks (R237). -/
def State.mmaQueues (s : State) (o a b : BitVec 3) (e : BitVec 16) : Option Cause :=
  let qo := s.queueAt o
  let qa := s.queueAt a
  let qb := s.queueAt b
  if qa.dir ≠ 1 ∨ qb.dir ≠ 1 ∨ qo.dir = 0 ∨ o = a ∨ o = b then some .queueDirection
  else if a = b ∧ (entA e ≠ entB e ∨ isQ4 (entA e)) then some .queueDirection
  else if qa.esz ≠ fmtEsz (entA e) ∨ qb.esz ≠ fmtEsz (entB e) then some .queueWidth
  else if qo.esz ≠ drainEsz (entOutf e) then some .queueWidth
  else none

def State.modEng (s : State) (n : CoreId) (f : Engine → Engine) : State := s.modCtx n fun x => { x with eng := f x.eng }

/-- One entry of the operation queue (R230); a format-table entry with the dither rule marks the kernel step (R106). -/
def State.pushEng (s : State) (op : EngOp) (dith : Bool) : State :=
  let s := s.modEng s.cur fun e => { e with opq := e.opq ++ [op], lastBf16 := if op.kind = .mdrn then e.lastBf16 else entOutf op.ent }
  if dith then s.modCtx s.cur fun x => x.modSeat .m fun t => { t with loop := t.loop.map fun lp => { lp with dith := true } } else s

def State.engFull (s : State) : Bool := decide (2 ≤ (s.coreAt s.cur).ctx.eng.opq.length)

/-- MMA and MMAJ at issue: MMA's checks of the entry and the queues, then those that MMAJ adds (R237, R238, R251, R349). A word that fails one traps also
where both entries of the operation queue are held (DESIGN CHOICE, log 75). -/
def mmaV (joint : Bool) (w : Word) (o a b : BitVec 3) (f : BitVec 5) (kk : BitVec 9) (s : State) : Verdict :=
  let e := s.rdFmt 0 (s.fmtSel f)
  let crew := match (s.coreAt s.cur).unit with | some u => u.crew | none => false
  if joint && !crew then .trap .crew 0
  else if !entryOk e ((kk.toNat + 1) * 8) then .trap .format 0
  else match s.mmaQueues o a b e with
    | some c => .trap c 0
    | none =>
      if joint && isQ4 (entB e) then .trap .format 0
      else if joint ∧ a = b then .trap .queueDirection 0
      else if joint && s.playing s.cur then .stall (s.modCore s.cur fun c => { c with dbg := { c.dbg with pending := some .divergence } })
      else if s.engFull then .stall s
      else .go (s.pushEng { kind := if joint then .mmaj else .mma, word := w, ent := e, addr := s.pcOf .m } (decide (entDith e = 1))) .seq

/-- MDRN at issue (R242); the width it drains in is kept in bit 8 of its entry. Its checks come before the stall of a full operation queue
(DESIGN CHOICE, log 75). -/
def mdrnV (w : Word) (o : BitVec 3) (s : State) : Verdict :=
  let half := (s.coreAt s.cur).ctx.eng.lastBf16
  let q := s.queueAt o
  if q.dir = 0 then .trap .queueDirection 0
  else if q.esz ≠ drainEsz half then .trap .queueWidth 0
  else if s.engFull then .stall s
  else .go (s.pushEng { kind := .mdrn, word := w, ent := if half then 0x100 else 0, addr := s.pcOf .m } false) .seq

/-- MZERO at issue (R243): the queue empties; the banks are cleared in MZERO_COMPLETE, which later operations wait for. -/
def mzeroV (s : State) : Verdict :=
  if (s.coreAt s.cur).ctx.eng.opq.any fun o => decide (o.kind = .mmaj) then .trap .jointBusy 0
  else .go (s.modEng s.cur fun e => { e with opq := [], running := false, spanDone := false, dbusy := false, lastBf16 := false, halt := true }) .seq

/-! ## Operands (R234, R235, R252) -/

def byteOf (l : Line) (i : Nat) : Nat := (l.extractLsb' (8 * i) 8).toNat

def halfOf (l : Line) (i : Nat) : Nat := (l.extractLsb' (8 * i) 16).toNat

/-- The value of an operand of 8 or 16 bits by its format (R107). -/
def opValue (f x : Nat) : Fv :=
  match f with
  | 0 => e4m3.value x
  | 1 => e5m2.value x
  | 2 => Fv.ofInt (bitsInt 8 x)
  | 4 => bf16.value x
  | _ => fp16.value x

/-- The element at k-step j of group g, row or column n, of a dense or Q4Q operand. `l`, `l2` are the entries held, `sc` the scale record. -/
def denseElem (f : Nat) (bsc : Bool) (l l2 : Line) (sc : BitVec 384) (g n j : Nat) : Fv :=
  if isQ4 f then
    let k := 8 * (g % 2) + j
    let c := byteOf l (8 * n + k / 2) / (if k % 2 = 0 then 1 else 16) % 16
    let b := g % 16
    if bsc then q4Dequant c (sc.extractLsb' (20 * b) 20).toNat (sc.getLsbD (352 + b)) (.fin false 1 0)
    else .fin (decide (8 ≤ c)) (q4Mag (c % 8)) (-10)
  else if is16 f then opValue f (halfOf (if n < 64 then l else l2) (16 * (n % 64) + 2 * j))
  else opValue f (byteOf l (8 * n + j))

/-- The element of a B quarter (R252). -/
def quarterElem (f : Nat) (l : Line) (g c j : Nat) : Fv :=
  if is16 f then opValue f (halfOf l (512 * (g % 2) + 16 * c + 2 * j)) else opValue f (byteOf l (256 * (g % 4) + 8 * c + j))

/-- Entries an operand takes at group g of a span. -/
def takesAt (f g : Nat) : Nat := if isQ4 f then (if g % 2 = 0 then 1 else 0) else if is16 f then 2 else 1

def takesQuarter (f g : Nat) : Nat := if is16 f then (if g % 2 = 0 then 1 else 0) else if g % 4 = 0 then 1 else 0

/-- The exact sum of a group's products: an exact zero is +0 (R109). -/
def groupSum (f : Nat → Fv × Fv) : Fv :=
  match (List.range 8).foldl (fun t j => let p := f j; t.add (p.1.mul p.2)) Fv.zero with
  | .fin _ 0 _ => Fv.zero
  | v => v

/-- An accumulator after a group (R109); INT8 pairs accumulate exactly in 32 bits. -/
def accStep (int8 : Bool) (acc : Nat) (v : Fv) : Nat :=
  if int8 then intBits 32 (bitsInt 32 acc + v.toIntRound .zero) else fp32.round .near ((fp32.value acc).add v)

/-- The front bank after a group. -/
def groupFront (int8 : Bool) (front : Vector (BitVec 4096) 128) (av bv : Nat → Nat → Fv) : Vector (BitVec 4096) 128 :=
  front.mapIdx fun r row => BitVec.ofNat 4096 (packNat (2 ^ 32) ((List.range 128).map fun c =>
    accStep int8 (row.extractLsb' (32 * c) 32).toNat (groupSum fun j => (av r j, bv j c))))

/-- Scale entry i of a span in the scale store (R235). -/
def storeScale (v : Vector (BitVec 384) 128) (i : Nat) (l : Line) : Vector (BitVec 384) 128 :=
  let old : BitVec 49152 := BitVec.ofNat 49152 (packNat (2 ^ 384) (v.toList.map BitVec.toNat))
  let new := (old &&& ~~~(((BitVec.allOnes 8192).setWidth 49152) <<< (8192 * i))) ||| (l.setWidth 49152 <<< (8192 * i))
  Vector.ofFn fun n => new.extractLsb' (384 * n.val) 384

/-! ## Entries of a queue the engine takes -/

/-- What the first m entries of a queue are to the engine: all landed, or one missing, or one poisoned. -/
inductive Ready
  | ok (l : List Line)
  | hold
  | poison (tv : Dw)
deriving DecidableEq, Repr

def Queue.firsts (q : Queue) : Nat → Ready
  | 0 => .ok []
  | m =>
    let l := q.ents.take m
    if l.length < m ∨ l.any fun e => !e.landed then .hold
    else match l.findSome? fun e => e.poison with
      | some tv => .poison tv
      | none => .ok (l.map fun e => e.data)

def Queue.drop (q : Queue) (m : Nat) : Queue := { q with ents := q.ents.drop m }

/-- The engine goes on: its core's seats are not frozen (R247). -/
def State.engineOn (s : State) (n : CoreId) : Bool :=
  let c := s.coreAt n
  c.unit.isSome && c.frozen.isNone && c.handler.isNone && !c.stopped && c.ctx.firstCause.isNone && !(s.crewAt (crewOf n)).gated

/-- The engine's own trap at the M seat, naming the operation's word (R241). -/
def State.engTrap (s : State) (n : CoreId) (op : EngOp) (c : Cause) (tv : Dw) : State := s.raise n .m c tv op.addr true

/-- The head operation while it runs and its span is not complete. -/
def Engine.active (e : Engine) (k : EngKind) : Option EngOp :=
  match e.opq with
  | o :: _ => if e.running ∧ !e.spanDone ∧ !e.halt ∧ o.kind = k then some o else none
  | [] => none

def EngOp.q4A (o : EngOp) : Bool := isQ4 (entA o.ent)

/-- The scale entries of the span are still to be taken (R239). -/
def Engine.wantsScale (e : Engine) (o : EngOp) : Bool :=
  entBsc o.ent && (isQ4 (entA o.ent) || isQ4 (entB o.ent)) && decide (e.scales < 6) && decide (e.kpos % 128 = 0)

/-- The engine begins its head operation (R230, R239). -/
def Engine.begin (e : Engine) : Engine :=
  { e with running := true, kpos := 0, scales := 0, spanDone := false, gotA := 0, gotB := 0, front := Vector.replicate 128 0 }

/-- After a group: k-steps counted, the span's end seen. -/
def Engine.counted (e : Engine) (o : EngOp) : Engine :=
  { e with kpos := e.kpos + 8, gotA := 0, gotB := 0, spanDone := decide ((e.kpos + 8) % 128 = 0) || decide (o.depth ≤ e.kpos + 8) }

/-- Why the engine may not read its operand from a queue as it is bound now (R28, R29). -/
def Queue.misbound (q : Queue) (f : Nat) : Option Cause :=
  if q.dir ≠ 1 then some .queueDirection else if q.esz ≠ fmtEsz f then some .queueWidth else none

/-- Take a scale entry (R235, R239). -/
def State.scaleStep (s : State) (n : CoreId) (o : EngOp) : State :=
  let q := if o.q4A then o.a else o.b
  let x := (s.coreAt n).ctx
  match (x.queue q).misbound 3 with
  | some c => s.engTrap n o c 0
  | none => match (x.queue q).firsts 1 with
    | .hold => s
    | .poison tv => s.engTrap n o .poisonedHead tv
    | .ok l => (s.modCtx n fun x => x.setQueue q (x.queue q).take).modEng n fun e =>
        { e with scale := storeScale e.scale e.scales (l.headD 0), scales := e.scales + 1 }

/-- The entries held after more are taken, `got` of the group's being held already. -/
def latched (got : Nat) (old old2 : Line) : List Line → Line × Line
  | [] => (old, old2)
  | [a] => if got = 1 then (old, a) else (a, old2)
  | a :: b :: _ => (a, b)

/-- The good entries before the poisoned one among the first m. -/
def Queue.goodFirst (q : Queue) (m : Nat) : List Line := ((q.ents.take m).takeWhile fun e => e.poison.isNone).map fun e => e.data

/-- An operand entry is poisoned: the engine holds the good entries of its group that stand before it, stops, and traps, so that the poisoned entry is at the
head (R241). -/
def State.poisonStop (s : State) (n : CoreId) (o : EngOp) (isA : Bool) (m : Nat) (tv : Dw) : State :=
  let q := if isA then o.a else o.b
  let l := ((s.coreAt n).ctx.queue q).goodFirst m
  let s := (s.modCtx n fun x => x.setQueue q ((x.queue q).drop l.length)).modEng n fun e =>
    if isA then { e with gotA := e.gotA + l.length, latA := (latched e.gotA e.latA e.latA2 l).1, latA2 := (latched e.gotA e.latA e.latA2 l).2 }
    else { e with gotB := e.gotB + l.length, latB := (latched e.gotB e.latB e.latB2 l).1, latB2 := (latched e.gotB e.latB e.latB2 l).2 }
  s.engTrap n o .poisonedHead tv

/-- The cause that a binding of an operand queue gives where entries of it are needed. -/
def needs (m : Nat) (q : Queue) (f : Nat) : Option Cause := if m = 0 then none else q.misbound f

/-- One group of an MMA (R239, R241). -/
def State.groupStep (s : State) (n : CoreId) (o : EngOp) : State :=
  let x := (s.coreAt n).ctx
  let e := x.eng
  let g := e.kpos % 128 / 8
  let fa := entA o.ent
  let fb := entB o.ent
  let ma := takesAt fa g - e.gotA
  let mb := if o.a = o.b then 0 else takesAt fb g - e.gotB
  match (needs ma (x.queue o.a) fa).or (needs mb (x.queue o.b) fb) with
  | some c => s.engTrap n o c 0
  | none => match (x.queue o.a).firsts ma, (x.queue o.b).firsts mb with
    | .hold, _ | _, .hold => s
    | .poison tv, _ => s.poisonStop n o true ma tv
    | _, .poison tv => s.poisonStop n o false mb tv
    | .ok la, .ok lb =>
      let a := latched e.gotA e.latA e.latA2 la
      let b := if o.a = o.b then a else latched e.gotB e.latB e.latB2 lb
      let sc (i : Nat) : BitVec 384 := e.scale.toArray.getD i 0
      let front := groupFront (decide (fa = 2)) e.front
        (fun r j => denseElem fa (entBsc o.ent) a.1 a.2 (sc r) g r j) (fun j c => denseElem fb (entBsc o.ent) b.1 b.2 (sc c) g c j)
      let s := s.modCtx n fun x => (x.setQueue o.a ((x.queue o.a).drop ma))
      let s := s.modCtx n fun x => (x.setQueue o.b ((x.queue o.b).drop mb))
      (s.count n 19 8).modEng n fun e => { e.counted o with front := front, latA := a.1, latA2 := a.2, latB := b.1, latB2 := b.2 }

/-! ## Joint operations (R250 to R255) -/

def members (w : CrewId) : List CoreId := [crewCore w 0, crewCore w 1, crewCore w 2, crewCore w 3]

def State.headOf (s : State) (n : CoreId) : Option EngOp := (s.coreAt n).ctx.eng.opq.head?

/-- A member's MMAJ leaves its queue and its M seat traps (R254). -/
def State.jointTrap (s : State) (n : CoreId) (c : Cause) : State :=
  match s.headOf n with
  | some o => (s.modEng n fun e => { e with opq := e.opq.tail }).engTrap n o c (jointTval (s.coreAt n).ctx.eng.jcnt n)
  | none => s

/-- The member's MMAJ stands at the head and waits. -/
def State.jointWaits (s : State) (n : CoreId) : Bool :=
  let e := (s.coreAt n).ctx.eng
  !e.running && !e.halt && (match e.opq with | o :: _ => decide (o.kind = .mmaj) | [] => false)

/-- The context of a member of a crew launch: on its core, or held in the core's shadow (R254, R363). -/
def State.memberCtx (s : State) (n : CoreId) (lid : Word) : Option Ctx :=
  let c := s.coreAt n
  let live := match c.unit with | some u => if u.crew ∧ u.lid = lid then some c.ctx else none | none => none
  match live, c.held with
  | some x, _ => some x
  | none, some h => if h.unit.crew ∧ h.unit.lid = lid then some h.ctx else none
  | none, none => none

/-- The member can join no joint operation: it is gone, or its M seat is inactive and its queue holds no MMAJ (R254). -/
def State.jointGone (s : State) (lid : Word) (n : CoreId) : Bool :=
  match s.memberCtx n lid with
  | some x => !(x.seat .m).act && !(x.eng.opq.any fun o => decide (o.kind = .mmaj))
  | none => true

/-- The word of the head operation. -/
def Engine.headAddr (e : Engine) : Dw := match e.opq with | o :: _ => o.addr | [] => 0

/-- JOINT_START (R250, R251, R254): the leader, position J mod 4, gives the reference and counts the exchange. -/
def State.jointStart (s : State) (w : CrewId) : State :=
  let l := members w
  if l.any fun n => (s.coreAt n).ctx.eng.jrun then s
  else if l.all fun n => s.jointWaits n && s.engineOn n then
    let key (n : CoreId) : Option (BitVec 14 × BitVec 16) := (s.headOf n).map fun o => (o.word.extractLsb' 0 14, o.ent)
    let leader := crewCore w (Fin.ofNat 4 (s.coreAt (crewCore w 0)).ctx.eng.jcnt.toNat)
    if l.all fun n => decide (key n = key leader) then
      l.foldl (fun s n => s.modEng n fun e => { e.begin with jcnt := e.jcnt + 1, jrun := true, jmoved := false, jdrain := false, jaddr := e.headAddr }) (s.count leader 31 1)
    else l.foldl (fun s n => s.jointTrap n .jointMismatch) s
  else
    let waiting := l.filter fun n => s.jointWaits n && s.engineOn n
    match waiting.findSome? fun n => (s.coreAt n).unit with
    | some u => if l.any (s.jointGone u.lid) then waiting.foldl (fun s n => s.jointTrap n .jointWithoutCrew) s else s
    | none => s

/-- One group of a joint operation in all four engines (R251, R252, R255). -/
def State.jointGroup (s : State) (w : CrewId) : State :=
  let l := members w
  if !(l.all fun n => s.engineOn n && ((s.coreAt n).ctx.eng.active .mmaj).isSome) then s
  else
    let op (n : CoreId) : EngOp := (s.headOf n).getD { kind := .mmaj, word := 0, ent := 0, addr := 0 }
    let eng (n : CoreId) : Engine := (s.coreAt n).ctx.eng
    if l.any fun n => (eng n).wantsScale (op n) then
      let q (n : CoreId) : Ready := ((s.coreAt n).ctx.queue (op n).a).firsts 1
      if let some n := l.find? fun n => (((s.coreAt n).ctx.queue (op n).a).misbound 3).isSome then s.scaleStep n (op n)
      else if l.any fun n => decide (q n = .hold) then s
      else match l.find? fun n => match q n with | .poison _ => true | _ => false with
        | some n => s.scaleStep n (op n)
        | none => l.foldl (fun t n => t.scaleStep n (op n)) s
    else
      let g := (eng (crewCore w 0)).kpos % 128 / 8
      let e := (op (crewCore w 0)).ent
      let ma (n : CoreId) : Nat := takesAt (entA e) g - (eng n).gotA
      let mb (n : CoreId) : Nat := takesQuarter (entB e) g - (eng n).gotB
      let queue (n : CoreId) (q : BitVec 3) : Queue := (s.coreAt n).ctx.queue q
      let ra (n : CoreId) : Ready := (queue n (op n).a).firsts (ma n)
      let rb (n : CoreId) : Ready := (queue n (op n).b).firsts (mb n)
      let bad (n : CoreId) : Option Cause := (needs (ma n) (queue n (op n).a) (entA e)).or (needs (mb n) (queue n (op n).b) (entB e))
      match l.findSome? fun n => (bad n).map fun c => (n, c) with
      | some (n, c) => s.engTrap n (op n) c 0
      | none =>
      if l.any fun n => decide (ra n = .hold) || decide (rb n = .hold) then s
      else match l.findSome? fun n => match ra n, rb n with
          | .poison tv, _ => some (n, true, ma n, tv)
          | _, .poison tv => some (n, false, mb n, tv)
          | _, _ => none with
        | some (n, isA, m, tv) => s.poisonStop n (op n) isA m tv
        | none =>
          let lines (r : Ready) : List Line := match r with | .ok l => l | _ => []
          let a (n : CoreId) : Line × Line := latched (eng n).gotA (eng n).latA (eng n).latA2 (lines (ra n))
          let b (n : CoreId) : Line × Line := latched (eng n).gotB (eng n).latB (eng n).latB2 (lines (rb n))
          let bv (j c : Nat) : Fv := quarterElem (entB e) (b (crewCore w ⟨c / 32 % 4, by omega⟩)).1 g (c % 32) j
          l.foldl (fun t n =>
            let sc (i : Nat) : BitVec 384 := (eng n).scale.toArray.getD i 0
            let front := groupFront (decide (entA e = 2)) (eng n).front
              (fun r j => denseElem (entA e) (entBsc e) (a n).1 (a n).2 (sc r) g r j) bv
            let t := t.modCtx n fun x => x.setQueue (op n).a ((x.queue (op n).a).drop (ma n))
            let t := t.modCtx n fun x => x.setQueue (op n).b ((x.queue (op n).b).drop (mb n))
            (t.count n 19 8).modEng n fun e => { e.counted (op n) with front := front, latA := (a n).1, latA2 := (a n).2, latB := (b n).1, latB2 := (b n).2 }) s

/-- Every member's engine has moved the last span of the joint operation to its back bank (R253). -/
def State.jointDue (s : State) (w : CrewId) : Bool :=
  let moving (n : CoreId) : Bool := (s.coreAt n).ctx.eng.running && (match s.headOf n with | some o => decide (o.kind = .mmaj) | none => false)
  (members w).all fun n => (s.coreAt n).ctx.eng.jrun && !moving n

/-- JOINT_COMPLETE (R253): every member's engine has moved its last span, and k15 is posted in every member; a saved joint operation waits in its
members' contexts (R255). The trap of a post that would raise k15 above 65,535 names the next word of the M seat, as issued (DESIGN CHOICE, log 75). -/
def State.jointComplete (s : State) (w : CrewId) : State :=
  let l := members w
  if !s.jointDue w then s
  else
    l.foldl (fun s n =>
      let s := s.modEng n fun e => { e with jrun := false }
      let x := (s.coreAt n).ctx
      if (s.coreAt n).unit.isNone then s
      else if (x.k.get 15).toNat = 65535 then
        s.raise n .m .tokenOverflow 0 (x.seat .m).pc true
      else s.modCtx n fun x => { x with k := x.k.set 15 (x.k.get 15 + 1) }) s

/-! ## Starts, spans and drains (R239, R240, R242, R243) -/

/-- GROUP_BOUNDARY (R239, R241, R251): the next scale entry or group of the operation that runs. -/
def State.groupBoundary (s : State) (n : CoreId) : State :=
  let e := (s.coreAt n).ctx.eng
  if !s.engineOn n then s
  else match e.active .mma with
    | some o => if e.wantsScale o then s.scaleStep n o else s.groupStep n o
    | none => if (e.active .mmaj).isSome then s.jointGroup (crewOf n) else s

/-- MATRIX_OP_START (R230, R239). -/
def State.matrixStart (s : State) (n : CoreId) : State :=
  let e := (s.coreAt n).ctx.eng
  if !s.engineOn n || e.running || e.halt then s
  else match e.opq with
    | o :: _ => if o.kind = .mma then s.modEng n Engine.begin else s
    | [] => s

/-- SPAN_TO_BACK_BANK (R239): the front bank is free again; the last span ends the operation. -/
def State.spanToBack (s : State) (n : CoreId) : State :=
  let e := (s.coreAt n).ctx.eng
  match e.opq with
  | o :: r =>
    if !s.engineOn n || !e.running || !e.spanDone || e.dbusy || e.halt then s
    else
      let last := decide (o.depth ≤ e.kpos)
      s.modEng n fun e => { e with
        back := e.front, front := if last then e.front else Vector.replicate 128 0, dbusy := true, dpos := 0, drainQ := o.o, drainPc := o.addr, bf16 := entOutf o.ent,
        spanDone := false, scales := 0, running := !last, opq := if last then r else e.opq, jdrain := decide (o.kind = .mmaj)
        jmoved := if o.kind = .mmaj then last else e.jmoved }
  | [] => s

/-- An FP32 value as BF16: bits [15:0] dropped, a NaN canonical (R107). -/
def dropHalf (x : Nat) : Nat := if (fp32.value x).isNan then 0x7FC0 else x / 65536

/-- Entry i of the back bank (R236). -/
def Engine.drainLine (e : Engine) (i : Nat) : Line :=
  let row (r : Nat) : BitVec 4096 := e.back.toArray.getD r 0
  if e.bf16 then
    BitVec.ofNat 8192 (packNat (2 ^ 16) ((List.range 512).map fun k => dropHalf ((row (4 * i + k / 128)).extractLsb' (32 * (k % 128)) 32).toNat))
  else (row (2 * i + 1)) ++ (row (2 * i))

/-- The drain reserves its next entry, one clock before it lands; a queue that no longer takes the drain brings its trap (R28, R29, R240). -/
def State.drainReserve (s : State) (n : CoreId) : State :=
  let e := (s.coreAt n).ctx.eng
  let u := (s.coreAt n).ctx.queue e.drainQ
  let bad (c : Cause) : State := s.raise n .m c 0 e.drainPc true
  if u.dir = 0 then bad .queueDirection
  else if u.esz ≠ drainEsz e.bf16 then bad .queueWidth
  else if u.noRoom then s
  else
    let t := s.nextId
    (({ s with nextId := t + 1 } : State).modCtx n fun x =>
      x.setQueue e.drainQ { u with ents := u.ents ++ [{ ticket := t, landed := false, data := e.drainLine e.dpos, poison := none }] }).modEng n fun e =>
        { e with drainT := some t }

/-- DRAIN_ENTRY_PUSH (R29, R236, R240): the next entry of the back bank is reserved, or the reserved one lands. -/
def State.drainPush (s : State) (n : CoreId) : State :=
  let e := (s.coreAt n).ctx.eng
  match e.drainT with
  | some _ => s.landReserved n
  | none => if !s.engineOn n || !e.dbusy || e.halt then s else s.drainReserve n

/-- MDRN_START (R242) (DEDUCED, log 77). -/
def State.mdrnStart (s : State) (n : CoreId) : State :=
  let e := (s.coreAt n).ctx.eng
  if !s.engineOn n || e.running || e.dbusy || e.halt then s
  else match e.opq with
    | o :: _ => if o.kind = .mdrn then
        s.modEng n fun e => { e with running := true, dbusy := true, dpos := 0, drainQ := o.o, drainPc := o.addr, bf16 := o.ent.getLsbD 8, jdrain := false } else s
    | [] => s

/-- MZERO_COMPLETE (R243). -/
def State.mzeroComplete (s : State) (n : CoreId) : State :=
  s.modEng n fun e => if !e.halt || e.drainT.isSome then e else
    { e with front := Vector.replicate 128 0, back := Vector.replicate 128 0, scale := Vector.replicate 128 0, kpos := 0, dpos := 0, dbusy := false,
             gotA := 0, gotB := 0, bf16 := false, halt := false }

end Sys2Proof.Machine
end

