-- ==== Sys2Proof/Machine/MSeat.lean ====
section
/-! DEFINITION. The M seat (R230 to R256): one definition per word, and the events of the matrix engine. -/

namespace Sys2Proof.Machine

open Sys2Proof

/-- MMA (R230, R237 to R239). -/
def vMma (w : Word) (o a b : BitVec 3) (f : BitVec 5) (kk : BitVec 9) (s : State) : Verdict :=
  mmaV false w o a b f kk s

/-- MMA (R230, R237 to R239). -/
def execMma (st : Bool) (o a b : BitVec 3) (f : BitVec 5) (kk : BitVec 9) (s : State) : Host.Outcome State Fault Refusal :=
  issue .m st (.mma st o a b f kk) (vMma ((encode (.mma st o a b f kk)).getD 0) o a b f kk s) s

/-- MMAJ (R250, R251). -/
def vMmaj (w : Word) (o a b : BitVec 3) (f : BitVec 5) (kk : BitVec 9) (s : State) : Verdict :=
  mmaV true w o a b f kk s

/-- MMAJ (R250, R251). -/
def execMmaj (st : Bool) (o a b : BitVec 3) (f : BitVec 5) (kk : BitVec 9) (s : State) : Host.Outcome State Fault Refusal :=
  issue .m st (.mmaj st o a b f kk) (vMmaj ((encode (.mmaj st o a b f kk)).getD 0) o a b f kk s) s

/-- MDRN (R242). -/
def vMdrn (w : Word) (o : BitVec 3) (s : State) : Verdict :=
  mdrnV w o s

/-- MDRN (R242). -/
def execMdrn (st : Bool) (o : BitVec 3) (s : State) : Host.Outcome State Fault Refusal :=
  issue .m st (.mdrn st o) (vMdrn ((encode (.mdrn st o)).getD 0) o s) s

/-- MZERO (R243). -/
def vMzero (s : State) : Verdict :=
  mzeroV s

/-- MZERO (R243). -/
def execMzero (st : Bool) (s : State) : Host.Outcome State Fault Refusal :=
  issue .m st (.mzero st) (vMzero s) s

/-- FTSET (R107, R244), 1 clk. -/
def vFtset (a e : BitVec 4) (s : State) : Verdict :=
  .go (s.sendR (mkResult .m (.fmt e) ((s.rdM 0 a).setWidth 8192) 1)) .seq

/-- FTSET (R107, R244), 1 clk. -/
def execFtset (st : Bool) (a e : BitVec 4) (s : State) : Host.Outcome State Fault Refusal :=
  issue .m st (.ftset st a e) (vFtset a e s) s

/-- FTGET (R244), 2 clk. -/
def vFtget (d e : BitVec 4) (s : State) : Verdict :=
  .go (s.sendM d (zx (s.rdFmt 0 e)) 2) .seq

/-- FTGET (R244), 2 clk. -/
def execFtget (st : Bool) (d e : BitVec 4) (s : State) : Host.Outcome State Fault Refusal :=
  issue .m st (.ftget st d e) (vFtget d e s) s

/-- MPIDX (R231, R244), 1 clk. -/
def vMpidx (d : BitVec 4) (s : State) : Verdict :=
  .go (s.sendM d (zx (s.coreAt s.cur).ctx.eng.pidx) 1) .seq

/-- MPIDX (R231, R244), 1 clk. -/
def execMpidx (st : Bool) (d : BitVec 4) (s : State) : Host.Outcome State Fault Refusal :=
  issue .m st (.mpidx st d) (vMpidx d s) s

/-- MADD (R245), 1 clk. -/
def vMadd (d a : BitVec 4) (imm : BitVec 15) (s : State) : Verdict :=
  .go (s.sendM d (s.rdM 0 a + sx imm) 1) .seq

/-- MADD (R245), 1 clk. -/
def execMadd (st : Bool) (d a : BitVec 4) (imm : BitVec 15) (s : State) : Host.Outcome State Fault Refusal :=
  issue .m st (.madd st d a imm) (vMadd d a imm s) s

/-- MSUB (R245), 1 clk. -/
def vMsub (d a : BitVec 4) (imm : BitVec 15) (s : State) : Verdict :=
  .go (s.sendM d (s.rdM 0 a - sx imm) 1) .seq

/-- MSUB (R245), 1 clk. -/
def execMsub (st : Bool) (d a : BitVec 4) (imm : BitVec 15) (s : State) : Host.Outcome State Fault Refusal :=
  issue .m st (.msub st d a imm) (vMsub d a imm s) s

/-- MAND (R245), 1 clk. -/
def vMand (d a : BitVec 4) (imm : BitVec 15) (s : State) : Verdict :=
  .go (s.sendM d (s.rdM 0 a &&& sx imm) 1) .seq

/-- MAND (R245), 1 clk. -/
def execMand (st : Bool) (d a : BitVec 4) (imm : BitVec 15) (s : State) : Host.Outcome State Fault Refusal :=
  issue .m st (.mand st d a imm) (vMand d a imm s) s

/-- MOR (R245), 1 clk. -/
def vMor (d a : BitVec 4) (imm : BitVec 15) (s : State) : Verdict :=
  .go (s.sendM d (s.rdM 0 a ||| sx imm) 1) .seq

/-- MOR (R245), 1 clk. -/
def execMor (st : Bool) (d a : BitVec 4) (imm : BitVec 15) (s : State) : Host.Outcome State Fault Refusal :=
  issue .m st (.mor st d a imm) (vMor d a imm s) s

/-- MSHL (R245), 1 clk. -/
def vMshl (d a : BitVec 4) (imm : BitVec 6) (s : State) : Verdict :=
  .go (s.sendM d (s.rdM 0 a <<< imm.toNat) 1) .seq

/-- MSHL (R245), 1 clk. -/
def execMshl (st : Bool) (d a : BitVec 4) (imm : BitVec 6) (s : State) : Host.Outcome State Fault Refusal :=
  issue .m st (.mshl st d a imm) (vMshl d a imm s) s

/-- MSHR (R245), 1 clk. -/
def vMshr (d a : BitVec 4) (imm : BitVec 6) (s : State) : Verdict :=
  .go (s.sendM d (s.rdM 0 a >>> imm.toNat) 1) .seq

/-- MSHR (R245), 1 clk. -/
def execMshr (st : Bool) (d a : BitVec 4) (imm : BitVec 6) (s : State) : Host.Outcome State Fault Refusal :=
  issue .m st (.mshr st d a imm) (vMshr d a imm s) s

/-- MLI (R245), 1 clk. -/
def vMli (d : BitVec 4) (imm : BitVec 15) (s : State) : Verdict :=
  .go (s.sendM d (sx imm) 1) .seq

/-- MLI (R245), 1 clk. -/
def execMli (st : Bool) (d : BitVec 4) (imm : BitVec 15) (s : State) : Host.Outcome State Fault Refusal :=
  issue .m st (.mli st d imm) (vMli d imm s) s

/-- MLUI (R245), 1 clk. -/
def vMlui (d : BitVec 4) (imm : BitVec 15) (s : State) : Verdict :=
  .go (s.sendM d (sx imm <<< 15) 1) .seq

/-- MLUI (R245), 1 clk. -/
def execMlui (st : Bool) (d : BitVec 4) (imm : BitVec 15) (s : State) : Host.Outcome State Fault Refusal :=
  issue .m st (.mlui st d imm) (vMlui d imm s) s

/-- MBZ (R121, R246). -/
def vMbz (a : BitVec 4) (imm : BitVec 15) (s : State) : Verdict :=
  branchV s (s.rdM 0 a == 0) (target (s.pcOf .m) imm)

/-- MBZ (R121, R246). -/
def execMbz (st : Bool) (a : BitVec 4) (imm : BitVec 15) (s : State) : Host.Outcome State Fault Refusal :=
  issue .m st (.mbz st a imm) (vMbz a imm s) s

/-- MBNZ (R121, R246). -/
def vMbnz (a : BitVec 4) (imm : BitVec 15) (s : State) : Verdict :=
  branchV s (s.rdM 0 a != 0) (target (s.pcOf .m) imm)

/-- MBNZ (R121, R246). -/
def execMbnz (st : Bool) (a : BitVec 4) (imm : BitVec 15) (s : State) : Host.Outcome State Fault Refusal :=
  issue .m st (.mbnz st a imm) (vMbnz a imm s) s

/-- MBLT (R121, R246). -/
def vMblt (a b : BitVec 4) (imm : BitVec 15) (s : State) : Verdict :=
  branchV s ((s.rdM 0 a).slt (s.rdM 1 b)) (target (s.pcOf .m) imm)

/-- MBLT (R121, R246). -/
def execMblt (st : Bool) (a b : BitVec 4) (imm : BitVec 15) (s : State) : Host.Outcome State Fault Refusal :=
  issue .m st (.mblt st a b imm) (vMblt a b imm s) s

/-- MJMP (R246). -/
def vMjmp (imm : BitVec 23) (s : State) : Verdict :=
  branchV s true (target (s.pcOf .m) imm)

/-- MJMP (R246). -/
def execMjmp (st : Bool) (imm : BitVec 23) (s : State) : Host.Outcome State Fault Refusal :=
  issue .m st (.mjmp st imm) (vMjmp imm s) s

/-- MJR (R246). -/
def vMjr (a : BitVec 4) (s : State) : Verdict :=
  branchV s true (s.rdM 0 a)

/-- MJR (R246). -/
def execMjr (st : Bool) (a : BitVec 4) (s : State) : Host.Outcome State Fault Refusal :=
  issue .m st (.mjr st a) (vMjr a s) s

/-! ## The engine -/

/-- GROUP_BOUNDARY (R239, R241, R251, R252). -/
def execGroupBoundary (n : CoreId) (s : State) : Host.Outcome State Fault Refusal := .next (s.groupBoundary n)

/-- MATRIX_OP_START (R230, R239). -/
def execMatrixOpStart (n : CoreId) (s : State) : Host.Outcome State Fault Refusal := .next (s.matrixStart n)

/-- SPAN_TO_BACK_BANK (R239). -/
def execSpanToBackBank (n : CoreId) (s : State) : Host.Outcome State Fault Refusal := .next (s.spanToBack n)

/-- DRAIN_ENTRY_PUSH (R236, R240). -/
def execDrainEntryPush (n : CoreId) (s : State) : Host.Outcome State Fault Refusal := .next (s.drainPush n)

/-- MDRN_START (R242). -/
def execMdrnStart (n : CoreId) (s : State) : Host.Outcome State Fault Refusal := .next (s.mdrnStart n)

/-- MZERO_COMPLETE (R243). -/
def execMzeroComplete (n : CoreId) (s : State) : Host.Outcome State Fault Refusal := .next (s.mzeroComplete n)

/-- JOINT_START (R251, R254). -/
def execJointStart (w : CrewId) (s : State) : Host.Outcome State Fault Refusal := .next (s.jointStart w)

/-- JOINT_COMPLETE (R253). -/
def execJointComplete (w : CrewId) (s : State) : Host.Outcome State Fault Refusal := .next (s.jointComplete w)

end Sys2Proof.Machine
end

