-- ==== Sys2Proof/Machine/VSeat.lean ====
section
/-! DEFINITION. The V seat (R198 to R229): one definition per word, over the operand forms and element functions of Vec.lean. -/

namespace Sys2Proof.Machine

open Sys2Proof

/-- VADD (R205), 4 clk. -/
def vVadd (d a b : BitVec 6) (p : BitVec 3) (ty : BitVec 2) (s : State) : Verdict :=
  vec2V ty d a b p 4 (tyOp2 ty Fv.add (· + ·)) s

/-- VADD (R205), 4 clk. -/
def execVadd (st : Bool) (d a b : BitVec 6) (p : BitVec 3) (ty : BitVec 2) (s : State) : Host.Outcome State Fault Refusal :=
  issue .v st (.vadd st d a b p ty) (vVadd d a b p ty s) s

/-- VSUB (R205), 4 clk. -/
def vVsub (d a b : BitVec 6) (p : BitVec 3) (ty : BitVec 2) (s : State) : Verdict :=
  vec2V ty d a b p 4 (tyOp2 ty Fv.sub (· - ·)) s

/-- VSUB (R205), 4 clk. -/
def execVsub (st : Bool) (d a b : BitVec 6) (p : BitVec 3) (ty : BitVec 2) (s : State) : Host.Outcome State Fault Refusal :=
  issue .v st (.vsub st d a b p ty) (vVsub d a b p ty s) s

/-- VMUL (R205), 4 clk. -/
def vVmul (d a b : BitVec 6) (p : BitVec 3) (ty : BitVec 2) (s : State) : Verdict :=
  vec2V ty d a b p 4 (tyOp2 ty Fv.mul (· * ·)) s

/-- VMUL (R205), 4 clk. -/
def execVmul (st : Bool) (d a b : BitVec 6) (p : BitVec 3) (ty : BitVec 2) (s : State) : Host.Outcome State Fault Refusal :=
  issue .v st (.vmul st d a b p ty) (vVmul d a b p ty s) s

/-- VFMA (R206), 4 clk. -/
def vVfma (d a b : BitVec 6) (p : BitVec 3) (ty : BitVec 2) (s : State) : Verdict :=
  vecAccV ty d a b p (tyFma ty false) s

/-- VFMA (R206), 4 clk. -/
def execVfma (st : Bool) (d a b : BitVec 6) (p : BitVec 3) (ty : BitVec 2) (s : State) : Host.Outcome State Fault Refusal :=
  issue .v st (.vfma st d a b p ty) (vVfma d a b p ty s) s

/-- VFMS (R206), 4 clk. -/
def vVfms (d a b : BitVec 6) (p : BitVec 3) (ty : BitVec 2) (s : State) : Verdict :=
  vecAccV ty d a b p (tyFma ty true) s

/-- VFMS (R206), 4 clk. -/
def execVfms (st : Bool) (d a b : BitVec 6) (p : BitVec 3) (ty : BitVec 2) (s : State) : Host.Outcome State Fault Refusal :=
  issue .v st (.vfms st d a b p ty) (vVfms d a b p ty s) s

/-- VSCAC (R207), f32 only, 4 clk. -/
def vVscac (d a b : BitVec 6) (p : BitVec 3) (_ty : BitVec 2) (s : State) : Verdict :=
  vscacV d a b p s

/-- VSCAC (R207), f32 only, 4 clk. -/
def execVscac (st : Bool) (d a b : BitVec 6) (p : BitVec 3) (ty : BitVec 2) (s : State) : Host.Outcome State Fault Refusal :=
  issue .v st (.vscac st d a b p ty) (vVscac d a b p ty s) s

/-- VMAX (R205), 2 clk. -/
def vVmax (d a b : BitVec 6) (p : BitVec 3) (ty : BitVec 2) (s : State) : Verdict :=
  vec2V ty d a b p 2 (tyOp2 ty Fv.max max) s

/-- VMAX (R205), 2 clk. -/
def execVmax (st : Bool) (d a b : BitVec 6) (p : BitVec 3) (ty : BitVec 2) (s : State) : Host.Outcome State Fault Refusal :=
  issue .v st (.vmax st d a b p ty) (vVmax d a b p ty s) s

/-- VMIN (R205), 2 clk. -/
def vVmin (d a b : BitVec 6) (p : BitVec 3) (ty : BitVec 2) (s : State) : Verdict :=
  vec2V ty d a b p 2 (tyOp2 ty Fv.min min) s

/-- VMIN (R205), 2 clk. -/
def execVmin (st : Bool) (d a b : BitVec 6) (p : BitVec 3) (ty : BitVec 2) (s : State) : Host.Outcome State Fault Refusal :=
  issue .v st (.vmin st d a b p ty) (vVmin d a b p ty s) s

/-- VABS (R208): a sign operation on floats, saturating on i32, 2 clk. -/
def vVabs (d a : BitVec 6) (p : BitVec 3) (ty : BitVec 2) (s : State) : Verdict :=
  vec1V ty d a p 2 (tyOp1 ty Fv.abs fun v => satInt 32 (v.natAbs : Int)) s

/-- VABS (R208): a sign operation on floats, saturating on i32, 2 clk. -/
def execVabs (st : Bool) (d a : BitVec 6) (p : BitVec 3) (ty : BitVec 2) (s : State) : Host.Outcome State Fault Refusal :=
  issue .v st (.vabs st d a p ty) (vVabs d a p ty s) s

/-- VNEG (R208), 2 clk. -/
def vVneg (d a : BitVec 6) (p : BitVec 3) (ty : BitVec 2) (s : State) : Verdict :=
  vec1V ty d a p 2 (tyOp1 ty Fv.neg fun v => satInt 32 (-v)) s

/-- VNEG (R208), 2 clk. -/
def execVneg (st : Bool) (d a : BitVec 6) (p : BitVec 3) (ty : BitVec 2) (s : State) : Host.Outcome State Fault Refusal :=
  issue .v st (.vneg st d a p ty) (vVneg d a p ty s) s

/-- VRCP (R208): correctly rounded, 8 clk. -/
def vVrcp (d a : BitVec 6) (p : BitVec 3) (ty : BitVec 2) (s : State) : Verdict :=
  vec1V ty d a p 8 (tyOp1 ty Fv.rcp id) s

/-- VRCP (R208): correctly rounded, 8 clk. -/
def execVrcp (st : Bool) (d a : BitVec 6) (p : BitVec 3) (ty : BitVec 2) (s : State) : Host.Outcome State Fault Refusal :=
  issue .v st (.vrcp st d a p ty) (vVrcp d a p ty s) s

/-- VRSQ (R208): correctly rounded, 8 clk. -/
def vVrsq (d a : BitVec 6) (p : BitVec 3) (ty : BitVec 2) (s : State) : Verdict :=
  vec1V ty d a p 8 (tyOp1 ty Fv.rsq id) s

/-- VRSQ (R208): correctly rounded, 8 clk. -/
def execVrsq (st : Bool) (d a : BitVec 6) (p : BitVec 3) (ty : BitVec 2) (s : State) : Host.Outcome State Fault Refusal :=
  issue .v st (.vrsq st d a p ty) (vVrsq d a p ty s) s

/-- VEXP2 (R208): correctly rounded, 10 clk. -/
def vVexp2 (d a : BitVec 6) (p : BitVec 3) (ty : BitVec 2) (s : State) : Verdict :=
  vec1V ty d a p 10 (tyOp1 ty Fv.exp2 id) s

/-- VEXP2 (R208): correctly rounded, 10 clk. -/
def execVexp2 (st : Bool) (d a : BitVec 6) (p : BitVec 3) (ty : BitVec 2) (s : State) : Host.Outcome State Fault Refusal :=
  issue .v st (.vexp2 st d a p ty) (vVexp2 d a p ty s) s

/-- VLOG2 (R208): correctly rounded, 10 clk. -/
def vVlog2 (d a : BitVec 6) (p : BitVec 3) (ty : BitVec 2) (s : State) : Verdict :=
  vec1V ty d a p 10 (tyOp1 ty Fv.log2 id) s

/-- VLOG2 (R208): correctly rounded, 10 clk. -/
def execVlog2 (st : Bool) (d a : BitVec 6) (p : BitVec 3) (ty : BitVec 2) (s : State) : Host.Outcome State Fault Refusal :=
  issue .v st (.vlog2 st d a p ty) (vVlog2 d a p ty s) s

/-- VCMPEQ (R209), 2 clk. -/
def vVcmpeq (d a b : BitVec 6) (p : BitVec 3) (ty : BitVec 2) (s : State) : Verdict :=
  cmpV ty d a b p (tyCmp ty Fv.eq fun x y => decide (x = y)) s

/-- VCMPEQ (R209), 2 clk. -/
def execVcmpeq (st : Bool) (d a b : BitVec 6) (p : BitVec 3) (ty : BitVec 2) (s : State) : Host.Outcome State Fault Refusal :=
  issue .v st (.vcmpeq st d a b p ty) (vVcmpeq d a b p ty s) s

/-- VCMPNE (R209), 2 clk. -/
def vVcmpne (d a b : BitVec 6) (p : BitVec 3) (ty : BitVec 2) (s : State) : Verdict :=
  cmpV ty d a b p (tyCmp ty (fun x y => !Fv.eq x y) fun x y => decide (x ≠ y)) s

/-- VCMPNE (R209), 2 clk. -/
def execVcmpne (st : Bool) (d a b : BitVec 6) (p : BitVec 3) (ty : BitVec 2) (s : State) : Host.Outcome State Fault Refusal :=
  issue .v st (.vcmpne st d a b p ty) (vVcmpne d a b p ty s) s

/-- VCMPLT (R209), 2 clk. -/
def vVcmplt (d a b : BitVec 6) (p : BitVec 3) (ty : BitVec 2) (s : State) : Verdict :=
  cmpV ty d a b p (tyCmp ty Fv.lt fun x y => decide (x < y)) s

/-- VCMPLT (R209), 2 clk. -/
def execVcmplt (st : Bool) (d a b : BitVec 6) (p : BitVec 3) (ty : BitVec 2) (s : State) : Host.Outcome State Fault Refusal :=
  issue .v st (.vcmplt st d a b p ty) (vVcmplt d a b p ty s) s

/-- VCMPLE (R209), 2 clk. -/
def vVcmple (d a b : BitVec 6) (p : BitVec 3) (ty : BitVec 2) (s : State) : Verdict :=
  cmpV ty d a b p (tyCmp ty Fv.le fun x y => decide (x ≤ y)) s

/-- VCMPLE (R209), 2 clk. -/
def execVcmple (st : Bool) (d a b : BitVec 6) (p : BitVec 3) (ty : BitVec 2) (s : State) : Host.Outcome State Fault Refusal :=
  issue .v st (.vcmple st d a b p ty) (vVcmple d a b p ty s) s

/-- VSEL (R210), 2 clk. -/
def vVsel (d a b : BitVec 6) (p : BitVec 3) (ty : BitVec 2) (s : State) : Verdict :=
  vselV d a b p ty s

/-- VSEL (R210), 2 clk. -/
def execVsel (st : Bool) (d a b : BitVec 6) (p : BitVec 3) (ty : BitVec 2) (s : State) : Host.Outcome State Fault Refusal :=
  issue .v st (.vsel st d a b p ty) (vVsel d a b p ty s) s

/-- VAND (R211), i32 only, 2 clk. -/
def vVand (d a b : BitVec 6) (p : BitVec 3) (ty : BitVec 2) (s : State) : Verdict :=
  vec2V ty d a b p 2 (fun x y => (u32 x &&& u32 y).toNat) s

/-- VAND (R211), i32 only, 2 clk. -/
def execVand (st : Bool) (d a b : BitVec 6) (p : BitVec 3) (ty : BitVec 2) (s : State) : Host.Outcome State Fault Refusal :=
  issue .v st (.vand st d a b p ty) (vVand d a b p ty s) s

/-- VOR (R211), i32 only, 2 clk. -/
def vVor (d a b : BitVec 6) (p : BitVec 3) (ty : BitVec 2) (s : State) : Verdict :=
  vec2V ty d a b p 2 (fun x y => (u32 x ||| u32 y).toNat) s

/-- VOR (R211), i32 only, 2 clk. -/
def execVor (st : Bool) (d a b : BitVec 6) (p : BitVec 3) (ty : BitVec 2) (s : State) : Host.Outcome State Fault Refusal :=
  issue .v st (.vor st d a b p ty) (vVor d a b p ty s) s

/-- VXOR (R211), i32 only, 2 clk. -/
def vVxor (d a b : BitVec 6) (p : BitVec 3) (ty : BitVec 2) (s : State) : Verdict :=
  vec2V ty d a b p 2 (fun x y => (u32 x ^^^ u32 y).toNat) s

/-- VXOR (R211), i32 only, 2 clk. -/
def execVxor (st : Bool) (d a b : BitVec 6) (p : BitVec 3) (ty : BitVec 2) (s : State) : Host.Outcome State Fault Refusal :=
  issue .v st (.vxor st d a b p ty) (vVxor d a b p ty s) s

/-- VSHL (R211), i32 only, 2 clk. -/
def vVshl (d a b : BitVec 6) (p : BitVec 3) (ty : BitVec 2) (s : State) : Verdict :=
  vec2V ty d a b p 2 (fun x y => (u32 x <<< (y % 32)).toNat) s

/-- VSHL (R211), i32 only, 2 clk. -/
def execVshl (st : Bool) (d a b : BitVec 6) (p : BitVec 3) (ty : BitVec 2) (s : State) : Host.Outcome State Fault Refusal :=
  issue .v st (.vshl st d a b p ty) (vVshl d a b p ty s) s

/-- VSHR (R211), i32 only, 2 clk. -/
def vVshr (d a b : BitVec 6) (p : BitVec 3) (ty : BitVec 2) (s : State) : Verdict :=
  vec2V ty d a b p 2 (fun x y => (u32 x >>> (y % 32)).toNat) s

/-- VSHR (R211), i32 only, 2 clk. -/
def execVshr (st : Bool) (d a b : BitVec 6) (p : BitVec 3) (ty : BitVec 2) (s : State) : Host.Outcome State Fault Refusal :=
  issue .v st (.vshr st d a b p ty) (vVshr d a b p ty s) s

/-- VSAR (R211), i32 only, 2 clk. -/
def vVsar (d a b : BitVec 6) (p : BitVec 3) (ty : BitVec 2) (s : State) : Verdict :=
  vec2V ty d a b p 2 (fun x y => ((u32 x).sshiftRight (y % 32)).toNat) s

/-- VSAR (R211), i32 only, 2 clk. -/
def execVsar (st : Bool) (d a b : BitVec 6) (p : BitVec 3) (ty : BitVec 2) (s : State) : Host.Outcome State Fault Refusal :=
  issue .v st (.vsar st d a b p ty) (vVsar d a b p ty s) s

/-- PAND (R212), 1 clk. -/
def vPand (d a b : BitVec 6) (s : State) : Verdict :=
  predV d (s.pOf 0 a &&& s.pOf 1 b) s

/-- PAND (R212), 1 clk. -/
def execPand (st : Bool) (d a b : BitVec 6) (s : State) : Host.Outcome State Fault Refusal :=
  issue .v st (.pand st d a b) (vPand d a b s) s

/-- POR (R212), 1 clk. -/
def vPor (d a b : BitVec 6) (s : State) : Verdict :=
  predV d (s.pOf 0 a ||| s.pOf 1 b) s

/-- POR (R212), 1 clk. -/
def execPor (st : Bool) (d a b : BitVec 6) (s : State) : Host.Outcome State Fault Refusal :=
  issue .v st (.por st d a b) (vPor d a b s) s

/-- PNOT (R212), 1 clk. -/
def vPnot (d a : BitVec 6) (s : State) : Verdict :=
  predV d (~~~ s.pOf 0 a) s

/-- PNOT (R212), 1 clk. -/
def execPnot (st : Bool) (d a : BitVec 6) (s : State) : Host.Outcome State Fault Refusal :=
  issue .v st (.pnot st d a) (vPnot d a s) s

/-- PCNT (R212), 2 clk. -/
def vPcnt (d a : BitVec 6) (s : State) : Verdict :=
  pcntV d a s

/-- PCNT (R212), 2 clk. -/
def execPcnt (st : Bool) (d a : BitVec 6) (s : State) : Host.Outcome State Fault Refusal :=
  issue .v st (.pcnt st d a) (vPcnt d a s) s

/-- VCVT (R213, R214), 4 clk. -/
def vVcvt (d a b : BitVec 6) (p : BitVec 3) (ty : BitVec 2) (s : State) : Verdict :=
  vcvtV d a b p ty s

/-- VCVT (R213, R214), 4 clk. -/
def execVcvt (st : Bool) (d a b : BitVec 6) (p : BitVec 3) (ty : BitVec 2) (s : State) : Host.Outcome State Fault Refusal :=
  issue .v st (.vcvt st d a b p ty) (vVcvt d a b p ty s) s

/-- VQNT (R102, R215), 12 clk. -/
def vVqnt (d a : BitVec 6) (p : BitVec 3) (_ty : BitVec 2) (s : State) : Verdict :=
  vqntV d a p s

/-- VQNT (R102, R215), 12 clk. -/
def execVqnt (st : Bool) (d a : BitVec 6) (p : BitVec 3) (ty : BitVec 2) (s : State) : Host.Outcome State Fault Refusal :=
  issue .v st (.vqnt st d a p ty) (vVqnt d a p ty s) s

/-- VDQ (R100, R216), 6 clk. -/
def vVdq (d a : BitVec 6) (p : BitVec 3) (ty : BitVec 2) (s : State) : Verdict :=
  vdqV d a p ty s

/-- VDQ (R100, R216), 6 clk. -/
def execVdq (st : Bool) (d a : BitVec 6) (p : BitVec 3) (ty : BitVec 2) (s : State) : Host.Outcome State Fault Refusal :=
  issue .v st (.vdq st d a p ty) (vVdq d a p ty s) s

/-- VRSUM (R111, R217), 10 clk. -/
def vVrsum (d a b : BitVec 6) (p : BitVec 3) (ty : BitVec 2) (s : State) : Verdict :=
  reduceV ty d a 10 (rsumLine ty (levelsOf b ty) (s.rdP 7 p) (s.vsrc 0 a (tyBytes ty))) s

/-- VRSUM (R111, R217), 10 clk. -/
def execVrsum (st : Bool) (d a b : BitVec 6) (p : BitVec 3) (ty : BitVec 2) (s : State) : Host.Outcome State Fault Refusal :=
  issue .v st (.vrsum st d a b p ty) (vVrsum d a b p ty s) s

/-- VRMAX (R111, R217), 6 clk. -/
def vVrmax (d a b : BitVec 6) (p : BitVec 3) (ty : BitVec 2) (s : State) : Verdict :=
  reduceV ty d a 6 (rmaxLine ty (levelsOf b ty) (s.rdP 7 p) (s.vsrc 0 a (tyBytes ty))) s

/-- VRMAX (R111, R217), 6 clk. -/
def execVrmax (st : Bool) (d a b : BitVec 6) (p : BitVec 3) (ty : BitVec 2) (s : State) : Host.Outcome State Fault Refusal :=
  issue .v st (.vrmax st d a b p ty) (vVrmax d a b p ty s) s

/-- VPERM (R219), 4 clk. -/
def vVperm (d a b : BitVec 6) (p : BitVec 3) (ty : BitVec 2) (s : State) : Verdict :=
  permV ty d a b p s

/-- VPERM (R219), 4 clk. -/
def execVperm (st : Bool) (d a b : BitVec 6) (p : BitVec 3) (ty : BitVec 2) (s : State) : Host.Outcome State Fault Refusal :=
  issue .v st (.vperm st d a b p ty) (vVperm d a b p ty s) s

/-- VBCAST (R219), 2 clk. -/
def vVbcast (d a b : BitVec 6) (p : BitVec 3) (ty : BitVec 2) (s : State) : Verdict :=
  bcastV ty d a b p s

/-- VBCAST (R219), 2 clk. -/
def execVbcast (st : Bool) (d a b : BitVec 6) (p : BitVec 3) (ty : BitVec 2) (s : State) : Host.Outcome State Fault Refusal :=
  issue .v st (.vbcast st d a b p ty) (vVbcast d a b p ty s) s

/-- VSCAN (R111, R218), 12 clk. -/
def vVscan (d a b : BitVec 6) (p : BitVec 3) (ty : BitVec 2) (s : State) : Verdict :=
  vecV ty d [a] p 12 (scanLine ty (levelsOf b ty) (s.rdP 7 p) (s.vsrc 0 a (tyBytes ty))) s

/-- VSCAN (R111, R218), 12 clk. -/
def execVscan (st : Bool) (d a b : BitVec 6) (p : BitVec 3) (ty : BitVec 2) (s : State) : Host.Outcome State Fault Refusal :=
  issue .v st (.vscan st d a b p ty) (vVscan d a b p ty s) s

/-- VADDI.f32 (R123, R124, R220), 4 clk. -/
def vVaddiF32 (d : BitVec 6) (_md : BitVec 1) (imm : BitVec 16) (s : State) : Verdict :=
  viV 4 4 d (fun x => fp32.round .near ((fp32.value x).add (fp32.value (immF32 imm)))) s

/-- VADDI.f32 (R123, R124, R220), 4 clk. -/
def execVaddiF32 (st : Bool) (d : BitVec 6) (md : BitVec 1) (imm : BitVec 16) (s : State) : Host.Outcome State Fault Refusal :=
  issue .v st (.vaddiF32 st d md imm) (vVaddiF32 d md imm s) s

/-- VMULI.f32 (R123, R124, R220), 4 clk. -/
def vVmuliF32 (d : BitVec 6) (_md : BitVec 1) (imm : BitVec 16) (s : State) : Verdict :=
  viV 4 4 d (fun x => fp32.round .near ((fp32.value x).mul (fp32.value (immF32 imm)))) s

/-- VMULI.f32 (R123, R124, R220), 4 clk. -/
def execVmuliF32 (st : Bool) (d : BitVec 6) (md : BitVec 1) (imm : BitVec 16) (s : State) : Host.Outcome State Fault Refusal :=
  issue .v st (.vmuliF32 st d md imm) (vVmuliF32 d md imm s) s

/-- VMOVI.f32 (R123, R124, R220), 1 clk. -/
def vVmoviF32 (d : BitVec 6) (_md : BitVec 1) (imm : BitVec 16) (s : State) : Verdict :=
  viV 4 1 d (fun _ => fp32.canon (immF32 imm)) s

/-- VMOVI.f32 (R123, R124, R220), 1 clk. -/
def execVmoviF32 (st : Bool) (d : BitVec 6) (md : BitVec 1) (imm : BitVec 16) (s : State) : Host.Outcome State Fault Refusal :=
  issue .v st (.vmoviF32 st d md imm) (vVmoviF32 d md imm s) s

/-- VADDI.f16 (R123, R124, R220), 4 clk. -/
def vVaddiF16 (d : BitVec 6) (_md : BitVec 1) (imm : BitVec 16) (s : State) : Verdict :=
  viV 2 4 d (fun x => fp16.round .near ((fp16.value x).add (fp16.value (imm.toNat)))) s

/-- VADDI.f16 (R123, R124, R220), 4 clk. -/
def execVaddiF16 (st : Bool) (d : BitVec 6) (md : BitVec 1) (imm : BitVec 16) (s : State) : Host.Outcome State Fault Refusal :=
  issue .v st (.vaddiF16 st d md imm) (vVaddiF16 d md imm s) s

/-- VMULI.f16 (R123, R124, R220), 4 clk. -/
def vVmuliF16 (d : BitVec 6) (_md : BitVec 1) (imm : BitVec 16) (s : State) : Verdict :=
  viV 2 4 d (fun x => fp16.round .near ((fp16.value x).mul (fp16.value (imm.toNat)))) s

/-- VMULI.f16 (R123, R124, R220), 4 clk. -/
def execVmuliF16 (st : Bool) (d : BitVec 6) (md : BitVec 1) (imm : BitVec 16) (s : State) : Host.Outcome State Fault Refusal :=
  issue .v st (.vmuliF16 st d md imm) (vVmuliF16 d md imm s) s

/-- VMOVI.f16 (R123, R124, R220), 1 clk. -/
def vVmoviF16 (d : BitVec 6) (_md : BitVec 1) (imm : BitVec 16) (s : State) : Verdict :=
  viV 2 1 d (fun _ => fp16.canon (imm.toNat)) s

/-- VMOVI.f16 (R123, R124, R220), 1 clk. -/
def execVmoviF16 (st : Bool) (d : BitVec 6) (md : BitVec 1) (imm : BitVec 16) (s : State) : Host.Outcome State Fault Refusal :=
  issue .v st (.vmoviF16 st d md imm) (vVmoviF16 d md imm s) s

/-- VADDI.bf16 (R123, R124, R220), 4 clk. -/
def vVaddiBF16 (d : BitVec 6) (_md : BitVec 1) (imm : BitVec 16) (s : State) : Verdict :=
  viV 2 4 d (fun x => bf16.round .near ((bf16.value x).add (bf16.value (imm.toNat)))) s

/-- VADDI.bf16 (R123, R124, R220), 4 clk. -/
def execVaddiBF16 (st : Bool) (d : BitVec 6) (md : BitVec 1) (imm : BitVec 16) (s : State) : Host.Outcome State Fault Refusal :=
  issue .v st (.vaddiBF16 st d md imm) (vVaddiBF16 d md imm s) s

/-- VMULI.bf16 (R123, R124, R220), 4 clk. -/
def vVmuliBF16 (d : BitVec 6) (_md : BitVec 1) (imm : BitVec 16) (s : State) : Verdict :=
  viV 2 4 d (fun x => bf16.round .near ((bf16.value x).mul (bf16.value (imm.toNat)))) s

/-- VMULI.bf16 (R123, R124, R220), 4 clk. -/
def execVmuliBF16 (st : Bool) (d : BitVec 6) (md : BitVec 1) (imm : BitVec 16) (s : State) : Host.Outcome State Fault Refusal :=
  issue .v st (.vmuliBF16 st d md imm) (vVmuliBF16 d md imm s) s

/-- VMOVI.bf16 (R123, R124, R220), 1 clk. -/
def vVmoviBF16 (d : BitVec 6) (_md : BitVec 1) (imm : BitVec 16) (s : State) : Verdict :=
  viV 2 1 d (fun _ => bf16.canon (imm.toNat)) s

/-- VMOVI.bf16 (R123, R124, R220), 1 clk. -/
def execVmoviBF16 (st : Bool) (d : BitVec 6) (md : BitVec 1) (imm : BitVec 16) (s : State) : Host.Outcome State Fault Refusal :=
  issue .v st (.vmoviBF16 st d md imm) (vVmoviBF16 d md imm s) s

/-- VADDI.i32 (R123, R220), 4 clk. -/
def vVaddiI32 (d : BitVec 6) (md : BitVec 1) (imm : BitVec 16) (s : State) : Verdict :=
  viV 4 4 d (fun x => (x + immI32 md imm) % 2 ^ 32) s

/-- VADDI.i32 (R123, R220), 4 clk. -/
def execVaddiI32 (st : Bool) (d : BitVec 6) (md : BitVec 1) (imm : BitVec 16) (s : State) : Host.Outcome State Fault Refusal :=
  issue .v st (.vaddiI32 st d md imm) (vVaddiI32 d md imm s) s

/-- VMOVI.i32 (R123, R220), 1 clk. -/
def vVmoviI32 (d : BitVec 6) (md : BitVec 1) (imm : BitVec 16) (s : State) : Verdict :=
  viV 4 1 d (fun _ => immI32 md imm) s

/-- VMOVI.i32 (R123, R220), 1 clk. -/
def execVmoviI32 (st : Bool) (d : BitVec 6) (md : BitVec 1) (imm : BitVec 16) (s : State) : Host.Outcome State Fault Refusal :=
  issue .v st (.vmoviI32 st d md imm) (vVmoviI32 d md imm s) s

/-- VANDI (R123, R220), 2 clk. -/
def vVandi (d : BitVec 6) (md : BitVec 1) (imm : BitVec 16) (s : State) : Verdict :=
  viV 4 2 d (fun x => (u32 x &&& u32 (if md = 1 then imm.toNat * 2 ^ 16 + 0xFFFF else imm.toNat)).toNat) s

/-- VANDI (R123, R220), 2 clk. -/
def execVandi (st : Bool) (d : BitVec 6) (md : BitVec 1) (imm : BitVec 16) (s : State) : Host.Outcome State Fault Refusal :=
  issue .v st (.vandi st d md imm) (vVandi d md imm s) s

/-- VORI (R123, R220), 2 clk. -/
def vVori (d : BitVec 6) (md : BitVec 1) (imm : BitVec 16) (s : State) : Verdict :=
  viV 4 2 d (fun x => (u32 x ||| u32 (if md = 1 then imm.toNat * 2 ^ 16 else imm.toNat)).toNat) s

/-- VORI (R123, R220), 2 clk. -/
def execVori (st : Bool) (d : BitVec 6) (md : BitVec 1) (imm : BitVec 16) (s : State) : Host.Outcome State Fault Refusal :=
  issue .v st (.vori st d md imm) (vVori d md imm s) s

/-- XADD (R221), 1 clk. -/
def vXadd (d a b : BitVec 4) (imm : BitVec 11) (s : State) : Verdict :=
  .go (s.sendX d (s.rdX 0 a + s.rdX 1 b + sx imm) 1) .seq

/-- XADD (R221), 1 clk. -/
def execXadd (st : Bool) (d a b : BitVec 4) (imm : BitVec 11) (s : State) : Host.Outcome State Fault Refusal :=
  issue .v st (.xadd st d a b imm) (vXadd d a b imm s) s

/-- XSUB (R221), 1 clk. -/
def vXsub (d a b : BitVec 4) (imm : BitVec 11) (s : State) : Verdict :=
  .go (s.sendX d (s.rdX 0 a - s.rdX 1 b + sx imm) 1) .seq

/-- XSUB (R221), 1 clk. -/
def execXsub (st : Bool) (d a b : BitVec 4) (imm : BitVec 11) (s : State) : Host.Outcome State Fault Refusal :=
  issue .v st (.xsub st d a b imm) (vXsub d a b imm s) s

/-- XMUL (R221), 3 clk. -/
def vXmul (d a b : BitVec 4) (imm : BitVec 6) (s : State) : Verdict :=
  .go (s.sendX d (xmulVal (s.rdX 0 a) (s.rdX 1 b) imm.toNat) 3) .seq

/-- XMUL (R221), 3 clk. -/
def execXmul (st : Bool) (d a b : BitVec 4) (imm : BitVec 6) (s : State) : Host.Outcome State Fault Refusal :=
  issue .v st (.xmul st d a b imm) (vXmul d a b imm s) s

/-- XLI (R221), 1 clk. -/
def vXli (d a b : BitVec 4) (imm : BitVec 11) (s : State) : Verdict :=
  xliV d a b imm s

/-- XLI (R221), 1 clk. -/
def execXli (st : Bool) (d a b : BitVec 4) (imm : BitVec 11) (s : State) : Host.Outcome State Fault Refusal :=
  issue .v st (.xli st d a b imm) (vXli d a b imm s) s

/-- XGET (R221), 2 clk. -/
def vXget (d b : BitVec 4) (vr : BitVec 5) (s : State) : Verdict :=
  xgetV d b vr s

/-- XGET (R221), 2 clk. -/
def execXget (st : Bool) (d b : BitVec 4) (vr : BitVec 5) (s : State) : Host.Outcome State Fault Refusal :=
  issue .v st (.xget st d b vr) (vXget d b vr s) s

/-- XPUT (R201, R221), 2 clk. -/
def vXput (a b : BitVec 4) (vr : BitVec 5) (s : State) : Verdict :=
  xputV a b vr s

/-- XPUT (R201, R221), 2 clk. -/
def execXput (st : Bool) (a b : BitVec 4) (vr : BitVec 5) (s : State) : Host.Outcome State Fault Refusal :=
  issue .v st (.xput st a b vr) (vXput a b vr s) s

/-- VBZ (R121, R222). -/
def vVbz (a : BitVec 4) (imm : BitVec 19) (s : State) : Verdict :=
  branchV s (s.rdX 0 a == 0) (target (s.pcOf .v) imm)

/-- VBZ (R121, R222). -/
def execVbz (st : Bool) (a : BitVec 4) (imm : BitVec 19) (s : State) : Host.Outcome State Fault Refusal :=
  issue .v st (.vbz st a imm) (vVbz a imm s) s

/-- VBNZ (R121, R222). -/
def vVbnz (a : BitVec 4) (imm : BitVec 19) (s : State) : Verdict :=
  branchV s (s.rdX 0 a != 0) (target (s.pcOf .v) imm)

/-- VBNZ (R121, R222). -/
def execVbnz (st : Bool) (a : BitVec 4) (imm : BitVec 19) (s : State) : Host.Outcome State Fault Refusal :=
  issue .v st (.vbnz st a imm) (vVbnz a imm s) s

/-- VJMP (R222). -/
def vVjmp (imm : BitVec 23) (s : State) : Verdict :=
  branchV s true (target (s.pcOf .v) imm)

/-- VJMP (R222). -/
def execVjmp (st : Bool) (imm : BitVec 23) (s : State) : Host.Outcome State Fault Refusal :=
  issue .v st (.vjmp st imm) (vVjmp imm s) s

/-- VSWEEP (R224, R225, R228), 24 clk. -/
def vVsweep (w : Word) (d a b : BitVec 6) (p : BitVec 3) (_ty : BitVec 2) (s : State) : Verdict :=
  vsweepV w d a b p s

/-- VSWEEP (R224, R225, R228), 24 clk. -/
def execVsweep (st : Bool) (d a b : BitVec 6) (p : BitVec 3) (ty : BitVec 2) (s : State) : Host.Outcome State Fault Refusal :=
  issue .v st (.vsweep st d a b p ty) (vVsweep ((encode (.vsweep st d a b p ty)).getD 0) d a b p ty s) s

/-- VJLIM (R226), 8 clk. -/
def vVjlim (d a b : BitVec 6) (p : BitVec 3) (_ty : BitVec 2) (s : State) : Verdict :=
  vjlimV d a b p s

/-- VJLIM (R226), 8 clk. -/
def execVjlim (st : Bool) (d a b : BitVec 6) (p : BitVec 3) (ty : BitVec 2) (s : State) : Host.Outcome State Fault Refusal :=
  issue .v st (.vjlim st d a b p ty) (vVjlim d a b p ty s) s

/-- VDIST (R224, R227, R228), 20 clk. -/
def vVdist (w : Word) (d a b : BitVec 6) (p : BitVec 3) (_ty : BitVec 2) (s : State) : Verdict :=
  vdistV w d a b p s

/-- VDIST (R224, R227, R228), 20 clk. -/
def execVdist (st : Bool) (d a b : BitVec 6) (p : BitVec 3) (ty : BitVec 2) (s : State) : Host.Outcome State Fault Refusal :=
  issue .v st (.vdist st d a b p ty) (vVdist ((encode (.vdist st d a b p ty)).getD 0) d a b p ty s) s

/-- VDPH (R106, R223), 1 clk. -/
def vVdph (imm : BitVec 3) (s : State) : Verdict :=
  .go (s.sendR (mkResult .v .dph (imm.setWidth 8192) 1)) .seq

/-- VDPH (R106, R223), 1 clk. -/
def execVdph (st : Bool) (imm : BitVec 3) (s : State) : Host.Outcome State Fault Refusal :=
  issue .v st (.vdph st imm) (vVdph imm s) s

/-- VMOV (R219), 2 clk. -/
def vVmov (d a : BitVec 6) (p : BitVec 3) (ty : BitVec 2) (s : State) : Verdict :=
  vec1V ty d a p 2 id s

/-- VMOV (R219), 2 clk. -/
def execVmov (st : Bool) (d a : BitVec 6) (p : BitVec 3) (ty : BitVec 2) (s : State) : Host.Outcome State Fault Refusal :=
  issue .v st (.vmov st d a p ty) (vVmov d a p ty s) s

/-- VPACK (R219), 2 clk. -/
def vVpack (d a b : BitVec 6) (p : BitVec 3) (ty : BitVec 2) (s : State) : Verdict :=
  weaveV ty d a b p (fun h e => if e < h then (false, 2 * e) else (true, 2 * (e - h))) s

/-- VPACK (R219), 2 clk. -/
def execVpack (st : Bool) (d a b : BitVec 6) (p : BitVec 3) (ty : BitVec 2) (s : State) : Host.Outcome State Fault Refusal :=
  issue .v st (.vpack st d a b p ty) (vVpack d a b p ty s) s

/-- VUNPK (R219), 2 clk. -/
def vVunpk (d a b : BitVec 6) (p : BitVec 3) (ty : BitVec 2) (s : State) : Verdict :=
  weaveV ty d a b p (fun _ e => (decide (e % 2 = 1), e / 2)) s

/-- VUNPK (R219), 2 clk. -/
def execVunpk (st : Bool) (d a b : BitVec 6) (p : BitVec 3) (ty : BitVec 2) (s : State) : Host.Outcome State Fault Refusal :=
  issue .v st (.vunpk st d a b p ty) (vVunpk d a b p ty s) s

/-- VSPLT (R219), 2 clk. -/
def vVsplt (d a b : BitVec 6) (p : BitVec 3) (ty : BitVec 2) (s : State) : Verdict :=
  weaveV ty d a b p (fun h e => if e < h then (false, 2 * e + 1) else (true, 2 * (e - h) + 1)) s

/-- VSPLT (R219), 2 clk. -/
def execVsplt (st : Bool) (d a b : BitVec 6) (p : BitVec 3) (ty : BitVec 2) (s : State) : Host.Outcome State Fault Refusal :=
  issue .v st (.vsplt st d a b p ty) (vVsplt d a b p ty s) s

/-- VCAT (R219), 2 clk. -/
def vVcat (d a b : BitVec 6) (p : BitVec 3) (ty : BitVec 2) (s : State) : Verdict :=
  weaveV ty d a b p (fun h e => if e < h then (false, e) else (true, e - h)) s

/-- VCAT (R219), 2 clk. -/
def execVcat (st : Bool) (d a b : BitVec 6) (p : BitVec 3) (ty : BitVec 2) (s : State) : Host.Outcome State Fault Refusal :=
  issue .v st (.vcat st d a b p ty) (vVcat d a b p ty s) s

end Sys2Proof.Machine
end

