-- ==== Sys2Proof/Machine/Verdict.lean ====
section
/-! DEFINITION. What each instruction word does at issue, for the words of a rendezvous, which issue together (R37). -/

namespace Sys2Proof.Machine

open Sys2Proof

/-- The verdict of a word of seat k by its own rule; an event is no word of a seat. -/
def wordVerdict (k : SeatId) (i : Instr) (s : State) : Verdict :=
  match i with
  | .add _ d a b => vAdd d a b s
  | .sub _ d a b => vSub d a b s
  | .mul _ d a b => vMul d a b s
  | .mulh _ d a b => vMulh d a b s
  | .mulhu _ d a b => vMulhu d a b s
  | .div _ d a b => vDiv d a b s
  | .divu _ d a b => vDivu d a b s
  | .rem _ d a b => vRem d a b s
  | .and _ d a b => vAnd d a b s
  | .or _ d a b => vOr d a b s
  | .xor _ d a b => vXor d a b s
  | .shl _ d a b => vShl d a b s
  | .shr _ d a b => vShr d a b s
  | .sar _ d a b => vSar d a b s
  | .min _ d a b => vMin d a b s
  | .max _ d a b => vMax d a b s
  | .slt _ d a b => vSlt d a b s
  | .sltu _ d a b => vSltu d a b s
  | .addi _ d a imm => vAddi d a imm s
  | .andi _ d a imm => vAndi d a imm s
  | .ori _ d a imm => vOri d a imm s
  | .xori _ d a imm => vXori d a imm s
  | .shli _ d a imm => vShli d a imm s
  | .shri _ d a imm => vShri d a imm s
  | .sari _ d a imm => vSari d a imm s
  | .slti _ d a imm => vSlti d a imm s
  | .lui _ d imm => vLui d imm s
  | .beq _ a b imm => vBeq a b imm s
  | .bne _ a b imm => vBne a b imm s
  | .blt _ a b imm => vBlt a b imm s
  | .bge _ a b imm => vBge a b imm s
  | .bltu _ a b imm => vBltu a b imm s
  | .bgeu _ a b imm => vBgeu a b imm s
  | .jmp _ imm => vJmp imm s
  | .jal _ imm => vJal imm s
  | .jr _ a => vJr a s
  | .lset _ d a imm => vLset d a imm s
  | .spawn _ a => vSpawn a s
  | .park _ a b fn => vPark a b fn s
  | .exit _ => vExit s
  | .cncl _ a b fn => vCncl a b fn s
  | .crd _ d a b fn => vCrd d a b fn s
  | .sysr _ d sys => vSysr d sys s
  | .sysw _ a sys => vSysw a sys s
  | .trap _ sys => vTrap sys s
  | .rft _ => vRft s
  | .time _ d => vTime d s
  | .scope _ e sm => vScope e sm s
  | .aadd _ d a b => vAadd d a b s
  | .asub _ d a b => vAsub d a b s
  | .amul _ d a b => vAmul d a b s
  | .aand _ d a b => vAand d a b s
  | .aor _ d a b => vAor d a b s
  | .ashl _ d a b => vAshl d a b s
  | .ashr _ d a b => vAshr d a b s
  | .aaddi _ d a imm => vAaddi d a imm s
  | .alui _ d imm => vAlui d imm s
  | .abeq _ a b imm => vAbeq a b imm s
  | .abne _ a b imm => vAbne a b imm s
  | .ablt _ a b imm => vAblt a b imm s
  | .abge _ a b imm => vAbge a b imm s
  | .ajmp _ imm => vAjmp imm s
  | .ajr _ a => vAjr a s
  | .ldb _ t b os pm off => vLdb t b os pm off s
  | .ldbs _ t b os pm off => vLdbs t b os pm off s
  | .ldh _ t b os pm off => vLdh t b os pm off s
  | .ldhs _ t b os pm off => vLdhs t b os pm off s
  | .ldw _ t b os pm off => vLdw t b os pm off s
  | .ldws _ t b os pm off => vLdws t b os pm off s
  | .ldd _ t b os pm off => vLdd t b os pm off s
  | .stb _ t b os pm off => vStb t b os pm off s
  | .sth _ t b os pm off => vSth t b os pm off s
  | .stw _ t b os pm off => vStw t b os pm off s
  | .std _ t b os pm off => vStd t b os pm off s
  | .ldv _ t b os pm off => vLdv t b os pm off s
  | .stv _ t b os pm off => vStv t b os pm off s
  | .qbind _ d e r => vQbind d e r s
  | .qpat _ t b os pm c => vQpat t b os pm c s
  | .qstop _ d => vQstop d s
  | .qmc _ t b os pm c => vQmc t b os pm c s
  | .amoadd _ t b os pm c fn => vAmoadd t b os pm c fn s
  | .amomin _ t b os pm c fn => vAmomin t b os pm c fn s
  | .amomax _ t b os pm c fn => vAmomax t b os pm c fn s
  | .amoand _ t b os pm c fn => vAmoand t b os pm c fn s
  | .amoor _ t b os pm c fn => vAmoor t b os pm c fn s
  | .amoxor _ t b os pm c fn => vAmoxor t b os pm c fn s
  | .amoswp _ t b os pm c fn => vAmoswp t b os pm c fn s
  | .amocas _ t b os pm c fn => vAmocas t b os pm c fn s
  | .aset _ t b os pm => vAset t b os pm s
  | .afree _ b os pm off => vAfree b os pm off s
  | .await _ t b os pm off => vAwait t b os pm off s
  | .aread _ t b os pm off => vAread t b os pm off s
  | .acred _ b os pm c => vAcred b os pm c s
  | .cpy _ b os pm off => vCpy b os pm off s
  | .gath _ b os pm off => vGath b os pm off s
  | .scat _ b os pm off => vScat b os pm off s
  | .cpyr _ b os pm off => vCpyr b os pm off s
  | .chlnk _ t b os pm off => vChlnk t b os pm off s
  | .chkck _ b os pm off => vChkck b os pm off s
  | .rgres _ t b os pm => vRgres t b os pm s
  | .rgpub _ t b os pm => vRgpub t b os pm s
  | .rgpop _ t b os pm c => vRgpop t b os pm c s
  | .rgcur _ t b os pm c => vRgcur t b os pm c s
  | .waita _ b os pm off => vWaita b os pm off s
  | .vadd _ d a b p ty => vVadd d a b p ty s
  | .vsub _ d a b p ty => vVsub d a b p ty s
  | .vmul _ d a b p ty => vVmul d a b p ty s
  | .vfma _ d a b p ty => vVfma d a b p ty s
  | .vfms _ d a b p ty => vVfms d a b p ty s
  | .vscac _ d a b p ty => vVscac d a b p ty s
  | .vmax _ d a b p ty => vVmax d a b p ty s
  | .vmin _ d a b p ty => vVmin d a b p ty s
  | .vabs _ d a p ty => vVabs d a p ty s
  | .vneg _ d a p ty => vVneg d a p ty s
  | .vrcp _ d a p ty => vVrcp d a p ty s
  | .vrsq _ d a p ty => vVrsq d a p ty s
  | .vexp2 _ d a p ty => vVexp2 d a p ty s
  | .vlog2 _ d a p ty => vVlog2 d a p ty s
  | .vcmpeq _ d a b p ty => vVcmpeq d a b p ty s
  | .vcmpne _ d a b p ty => vVcmpne d a b p ty s
  | .vcmplt _ d a b p ty => vVcmplt d a b p ty s
  | .vcmple _ d a b p ty => vVcmple d a b p ty s
  | .vsel _ d a b p ty => vVsel d a b p ty s
  | .vand _ d a b p ty => vVand d a b p ty s
  | .vor _ d a b p ty => vVor d a b p ty s
  | .vxor _ d a b p ty => vVxor d a b p ty s
  | .vshl _ d a b p ty => vVshl d a b p ty s
  | .vshr _ d a b p ty => vVshr d a b p ty s
  | .vsar _ d a b p ty => vVsar d a b p ty s
  | .pand _ d a b => vPand d a b s
  | .por _ d a b => vPor d a b s
  | .pnot _ d a => vPnot d a s
  | .pcnt _ d a => vPcnt d a s
  | .vcvt _ d a b p ty => vVcvt d a b p ty s
  | .vqnt _ d a p ty => vVqnt d a p ty s
  | .vdq _ d a p ty => vVdq d a p ty s
  | .vrsum _ d a b p ty => vVrsum d a b p ty s
  | .vrmax _ d a b p ty => vVrmax d a b p ty s
  | .vperm _ d a b p ty => vVperm d a b p ty s
  | .vbcast _ d a b p ty => vVbcast d a b p ty s
  | .vscan _ d a b p ty => vVscan d a b p ty s
  | .vaddiF32 _ d md imm => vVaddiF32 d md imm s
  | .vmuliF32 _ d md imm => vVmuliF32 d md imm s
  | .vmoviF32 _ d md imm => vVmoviF32 d md imm s
  | .vaddiF16 _ d md imm => vVaddiF16 d md imm s
  | .vmuliF16 _ d md imm => vVmuliF16 d md imm s
  | .vmoviF16 _ d md imm => vVmoviF16 d md imm s
  | .vaddiBF16 _ d md imm => vVaddiBF16 d md imm s
  | .vmuliBF16 _ d md imm => vVmuliBF16 d md imm s
  | .vmoviBF16 _ d md imm => vVmoviBF16 d md imm s
  | .vaddiI32 _ d md imm => vVaddiI32 d md imm s
  | .vmoviI32 _ d md imm => vVmoviI32 d md imm s
  | .vandi _ d md imm => vVandi d md imm s
  | .vori _ d md imm => vVori d md imm s
  | .xadd _ d a b imm => vXadd d a b imm s
  | .xsub _ d a b imm => vXsub d a b imm s
  | .xmul _ d a b imm => vXmul d a b imm s
  | .xli _ d a b imm => vXli d a b imm s
  | .xget _ d b vr => vXget d b vr s
  | .xput _ a b vr => vXput a b vr s
  | .vbz _ a imm => vVbz a imm s
  | .vbnz _ a imm => vVbnz a imm s
  | .vjmp _ imm => vVjmp imm s
  | .vsweep st d a b p ty => vVsweep ((encode (.vsweep st d a b p ty)).getD 0) d a b p ty s
  | .vjlim _ d a b p ty => vVjlim d a b p ty s
  | .vdist st d a b p ty => vVdist ((encode (.vdist st d a b p ty)).getD 0) d a b p ty s
  | .vdph _ imm => vVdph imm s
  | .vmov _ d a p ty => vVmov d a p ty s
  | .vpack _ d a b p ty => vVpack d a b p ty s
  | .vunpk _ d a b p ty => vVunpk d a b p ty s
  | .vsplt _ d a b p ty => vVsplt d a b p ty s
  | .vcat _ d a b p ty => vVcat d a b p ty s
  | .mma st o a b f kk => vMma ((encode (.mma st o a b f kk)).getD 0) o a b f kk s
  | .mmaj st o a b f kk => vMmaj ((encode (.mmaj st o a b f kk)).getD 0) o a b f kk s
  | .mdrn st o => vMdrn ((encode (.mdrn st o)).getD 0) o s
  | .mzero _ => vMzero s
  | .ftset _ a e => vFtset a e s
  | .ftget _ d e => vFtget d e s
  | .mpidx _ d => vMpidx d s
  | .madd _ d a imm => vMadd d a imm s
  | .msub _ d a imm => vMsub d a imm s
  | .mand _ d a imm => vMand d a imm s
  | .mor _ d a imm => vMor d a imm s
  | .mshl _ d a imm => vMshl d a imm s
  | .mshr _ d a imm => vMshr d a imm s
  | .mli _ d imm => vMli d imm s
  | .mlui _ d imm => vMlui d imm s
  | .mbz _ a imm => vMbz a imm s
  | .mbnz _ a imm => vMbnz a imm s
  | .mblt _ a b imm => vMblt a b imm s
  | .mjmp _ imm => vMjmp imm s
  | .mjr _ a => vMjr a s
  | .nop _ => vNop s
  | .mloop st l n stg ms => vMloop st k l n stg ms s
  | .tpost _ t n => vTpost t n s
  | .twait _ t n => vTwait t n s
  | .fset _ f v => vFset f v s
  | .fwait _ f v => vFwait f v s
  | .brk _ c => vBrk c s
  | .bndy st => vBndy st k s
  | _ => .stall s

/-- The stroke bit of a word (R113). -/
def stroked (w : Word) : Bool := w.getLsbD 31

end Sys2Proof.Machine
end

