-- ==== Sys2Proof/Machine/SeatEvents.lean ====
section
/-! DEFINITION. The events of the seats: results that land (R32, R33, R389, R390), the end of a hold (R57), seats that run out (R36), and the stroke
rendezvous (R37, R39, R40, R116). -/

namespace Sys2Proof.Machine

open Sys2Proof

/-! ## Heads -/

/-- What a seat does next, whatever holds it: nothing, a squashed word (R40), the word it fetched, or a trap of the fetch. -/
inductive SeatStep
  | pass
  | squash
  | word (i : Instr)
  | past
  | bad (stroked : Bool)
  | trap (c : Cause)
  | miss
  | breaks
deriving DecidableEq, Repr

/-- The word at the head, decoded in the seat's opcode space (R114). -/
def State.headAt (s : State) (n : CoreId) (k : SeatId) : SeatStep :=
  match s.fetch n k with
  | .word w => match decode k w with
    | .ok i => .word i
    | .error _ => .bad (stroked w)
  | .past => .past
  | .target => .trap .branchTarget
  | .fault c => .trap c
  | .miss => .miss
  | .breaks => .breaks

/-- The next word of a seat, squashed or not. -/
def State.nextWord (s : State) (n : CoreId) (k : SeatId) : SeatStep :=
  match ((s.coreAt n).ctx.seat k).body with
  | some lp => if !lp.issues then .squash else s.headAt n k
  | none => s.headAt n k

/-- The head holds a word with S = 1. -/
def State.headStroked (s : State) (n : CoreId) (k : SeatId) : Bool := match s.fetch n k with | .word w => stroked w | _ => false

/-! ## Results (R32, R33) -/

/-- The clock of the current core begins. -/
def State.atStart (s : State) (n : CoreId) : Bool := decide (s.cur = n) && decide (s.turn = .seat .c)

/-- A result that may land now: its clock has come, its data are there, and no other trap of its seat stands before its own. -/
def Ctx.landable (x : Ctx) (r : InFlight) : Bool := decide (r.rem = 0) && r.ready && (r.err.isNone || (x.seat r.seat).cause.isNone)

/-- The list without its first element that meets a test. -/
def dropFirst {α : Type} (p : α → Bool) : List α → List α
  | [] => []
  | a :: r => if p a then r else a :: dropFirst p r

/-- One entry of the log of a play run that is no scalar takes effect at its clock (R390). -/
def State.playEntry (s : State) (n : CoreId) (e : LogHead) : State :=
  let v := s.logData n
  let s := s.logSkip n (if e.kind = 3 then 1040 else 16)
  match e.kind with
  | 3 =>
    let q : BitVec 3 := BitVec.ofNat 3 e.idx
    s.modCtx n fun x =>
      let u := x.queue q
      match u.ents.find? fun e => !e.landed with
      | some t => x.setQueue q (u.landEntry t.ticket v none)
      | none => x.setQueue q ((u.reserve s.nextId).landEntry s.nextId v none)
  | 4 =>
    if e.seat = 0 then s.modCtx n fun x => { x with park := none }
    else if e.seat ≠ 1 then s
    else match (s.coreAt n).ctx.await with
      | some (.answer _) => s.modCtx n fun x => { x with await := none }.advance .a .seq
      | some (.await pa ph b _) => s.modCtx n fun x => { x with await := some (.await pa ph b (some s.nextId)) }
      | some (.line _ _ _) => s.modCtx n fun x => { x with await := none }
      | none => s
  | 5 => s.modCtx n fun x => { x with k := setVec x.k e.idx fun v => v + e.val.setWidth 16 }
  | 6 => s.debugHalt n .replayEnd
  | _ => s

/-- The next entry of a play run is due: it is no scalar and its clock has come; the wake of an AWAIT that finds its slot's phase there stands for the word
itself. -/
def State.playDue (s : State) (n : CoreId) : Option LogHead :=
  if !s.playing n then none
  else
    let e := s.logNext n
    let unread := decide (e.kind = 4 ∧ e.seat = 1) && (s.coreAt n).ctx.await.isNone
    if (e.kind = 3 ∨ e.kind = 4 ∨ e.kind = 5 ∨ e.kind = 6) ∧ e.cyc = (s.coreAt n).dbg.cyc (s.coreAt n).csc ∧ unread = false then some e else none

/-- A clock of a play run ends: the landed entries of a queue that a store pattern has taken in the run are gone (R390) (DESIGN CHOICE, log 29). -/
def State.playDrain (s : State) (n : CoreId) : State :=
  let qs := (s.coreAt n).dbg.playQs
  if !s.playing n then s
  else s.modCtx n fun x => { x with queues := x.queues.mapIdx fun i u =>
      (if qs.getLsbD i && decide (u.dir = 2) then ({ u with ents := u.ents.dropWhile fun (e : QEntry) => e.landed } : Queue) else u) }

/-- A word of this clock of a play run has waited for a value, and the next entry of the log, which is no later one, cannot supply it (R390). -/
def State.diverged (s : State) (n : CoreId) : Bool :=
  let e := s.logNext n
  s.playing n && s.running n && ([14, 16, 17].any fun w => (s.coreAt n).why.contains w) &&
  (!([2, 3, 4, 5, 6].contains e.kind) || decide (e.cyc ≤ (s.coreAt n).dbg.cyc (s.coreAt n).csc))

/-- A trap that arises within this clock is taken at its end (R34), which mark 102 says. -/
def State.atClockEnd (s : State) (n : CoreId) : State := s.modCore n fun c => { c with why := c.why ++ [102] }

/-- One result lands (R32, R33): it is written, or its load brings the trap "data" at the end of this clock (R367); the replay log records a value from
outside the core (R389), a play run takes it from the log or halts (R390). -/
def State.landOne (s : State) (n : CoreId) (r : InFlight) : State :=
  let s := s.modCtx n fun x => { x with inflight := dropFirst (x.landable) x.inflight }
  match r.err with
  | some q => (s.raise n r.seat q.cause q.tval q.tpc q.issued).atClockEnd n
  | none =>
    if !r.ext then s.modCtx n fun x => x.land r
    else if s.playing n then
      let e := s.logNext n
      if e.kind = 2 ∧ e.seat = r.seat.toNat ∧ e.idx = r.dest.kindIdx.2 ∧ e.cyc = (s.coreAt n).dbg.cyc (s.coreAt n).csc then
        (s.logSkip n 16).modCtx n fun x => x.land { r with val := e.val.setWidth 8192 }
      else s.debugHalt n .divergence
    else (s.modCtx n fun x => x.land r).logEntry n 2 r.seat r.dest.kindIdx.2 (r.val.setWidth 64).toNat []

/-- Something lands at the start of the core's clock. -/
def State.landDue (s : State) (n : CoreId) : Bool :=
  s.advancing n && ((s.playDue n).isSome || (s.coreAt n).ctx.inflight.any (s.coreAt n).ctx.landable)

def State.resultLand (s : State) (n : CoreId) : State :=
  if !s.atStart n || !s.advancing n then s
  else match s.playDue n with
    | some e => s.playEntry n e
    | none => match (s.coreAt n).ctx.inflight.find? (s.coreAt n).ctx.landable with
      | some r => s.landOne n r
      | none => s

/-- RESULT_LAND (R32, R33, R145, R165, R201). -/
def execResultLand (n : CoreId) (s : State) : Host.Outcome State Fault Refusal := .next (s.resultLand n)

/-- The core holds for a load or a full replay log no longer (R57, R389). -/
def State.holdOver (s : State) (n : CoreId) : Bool :=
  let c := s.coreAt n
  c.hold && !c.ctx.mustHold && !c.logFull

/-- LOAD_HOLD_END (R57, R145). -/
def execLoadHoldEnd (n : CoreId) (s : State) : Host.Outcome State Fault Refusal :=
  .next (if s.holdOver n then s.modCore n fun c => { c with hold := false } else s)

/-! ## Run-out (R36) -/

/-- Seat k of the core fetches past the last word of its section. -/
def State.ranOut (s : State) (n : CoreId) (k : SeatId) : Bool :=
  s.advancing n && ((s.coreAt n).ctx.seat k).act && ((s.coreAt n).ctx.seat k).cause.isNone && ((s.coreAt n).handler.isNone || decide (k = .c)) &&
  decide (s.nextWord n k = .past)

/-- SEAT_RUN_OUT (R36, R37, R39, R121, R350): the seat becomes inactive; in a loop body it traps "loop body", in a handler "branch target". -/
def State.runOut (s : State) (n : CoreId) (k : SeatId) : State :=
  let pc := ((s.coreAt n).ctx.seat k).pc
  if !s.ranOut n k then s
  else if (s.coreAt n).handler.isSome then (s.raise n k .branchTarget 0 pc false).atClockEnd n
  else match ((s.coreAt n).ctx.seat k).body with
    | some _ => (s.raise n k .loopBody 0 pc false).atClockEnd n
    | none => s.modCtx n fun x => x.modSeat k fun t => { t with act := false, strk := false, dslots := 0, dtaken := false }

/-- SEAT_RUN_OUT (R36, R37, R232). -/
def execSeatRunOut (n : CoreId) (k : SeatId) (s : State) : Host.Outcome State Fault Refusal := .next (s.runOut n k)

/-! ## The rendezvous (R37) -/

/-- The seats of the current core that issue together: those in the body of one stroked loop, those that reissue its MLOOP after a pre-emption (R42),
or every active seat once each has a stroke word at its head (R37, R39) (DEDUCED, log 13) (DEDUCED, log 71). -/
def State.partners (s : State) : List SeatId :=
  let x := (s.coreAt s.cur).ctx
  let inBody := [SeatId.c, .a, .v, .m].filter fun k => (x.seat k).act && (match (x.seat k).body with | some lp => lp.group | none => false)
  let again := [SeatId.c, .a, .v, .m].filter fun k =>
    (x.seat k).act && (match (x.seat k).loop with | some lp => lp.group && lp.lepi && !lp.lmid | none => false)
  if inBody ≠ [] then inBody
  else if again ≠ [] then (if again.all fun k => s.headStroked s.cur k then again else [])
  else
    let l := x.actives
    if 2 ≤ l.length && l.all fun k => (x.seat k).body.isNone && s.headStroked s.cur k then l else []

/-- The rendezvous may take place now. -/
def State.meetDue (s : State) : Bool :=
  let c := s.coreAt s.cur
  s.running s.cur && decide (s.partners ≠ []) && s.partners.all fun k =>
    decide ((c.moved ||| c.skip) &&& seatBit k = 0) && (c.ctx.seat k).cause.isNone

/-- What one partner's word would do; one that traps before its own rule does so on the clock it would issue (R35, R37) (DEDUCED, log 71). -/
def State.partnerV (s : State) (k : SeatId) : Verdict :=
  if (s.coreAt s.cur).seatWaits k then .stall s
  else match s.nextWord s.cur k with
    | .word i =>
      let v := wordVerdict k i s
      match s.precheck k true i true with
      | .trap c => (match v with
        | .stall z => .stall z
        | _ => if decide (k = .c) && v.isUndefined then v else .trap c 0)
      | _ => v
    | .past => .trap .loopBody 0
    | .bad _ => .trap .undefinedInstruction 0
    | .trap c => .trap c ((s.coreAt s.cur).ctx.seat k).pc
    | .miss => .stall (s.addMiss s.cur (s.ctxOn s.cur) (.fetch k) ((s.coreAt s.cur).ctx.seat k).pc)
    | .breaks => .stall (s.freezeCore s.cur .protection)
    | .squash | .pass => .go s .seq

/-- l, n and ms of a partner's MLOOP. -/
def State.mloopKey (s : State) (k : SeatId) : Option (BitVec 3 × BitVec 6 × BitVec 3) :=
  match s.nextWord s.cur k with
  | .word (.mloop _ l n _ ms) => if ((s.coreAt s.cur).ctx.seat k).body.isNone then some (l, n, ms) else none
  | _ => none

/-- The partners' turns of this clock are over. -/
def State.skipSeats (s : State) (l : List SeatId) : State := s.modCore s.cur fun c => { c with skip := l.foldl (fun b k => b ||| seatBit k) c.skip }

def State.waitStroke (s : State) (l : List SeatId) : State :=
  l.foldl (fun s k => s.modCtx s.cur fun x => x.modSeat k fun t => { t with strk := t.body.isNone }) s

/-- The seats whose words cannot issue with the cause of each. -/
def State.trapsOf (s : State) (l : List SeatId) : List (SeatId × Cause × Dw) :=
  let bad := l.filterMap fun k => match s.partnerV k with | .trap c tv => some (k, c, tv) | _ => none
  let keys := l.filterMap fun k => s.mloopKey k
  if bad = [] ∧ keys.any (fun a => keys.any fun b => decide (a ≠ b)) then
    (l.filter fun k => (s.mloopKey k).isSome).map fun k => (k, .loopMismatch, 0)
  else bad

/-- What comes of issuing the partners' words together. -/
inductive Joint
  | issued (s : State)
  | stall
  | trap (k : SeatId) (c : Cause) (tval : Dw)

/-- The partners' words issue one after the other within the clock; one that turns out to stall or trap after the words before it, such as a post that
overflows only with theirs (R31), keeps all from issuing (R37) (DEDUCED, log 13). -/
def State.issueAll (s : State) : List SeatId → Joint
  | [] => .issued s
  | k :: r =>
    match s.nextWord s.cur k with
    | .squash => ((s.squash k).skipSeats [k]).issueAll r
    | _ => match s.partnerV k with
      | .stall _ => .stall
      | .trap c tv => .trap k c tv
      | v =>
        let t := (s.settle k v).skipSeats [k]
        (if ((t.coreAt t.cur).ctx.seat k).cause.isSome then t.atClockEnd t.cur else t).fresh.issueAll r

/-- STROKE_RENDEZVOUS (R37, R40, R116): a stall of one holds all, a trap of one keeps all from issuing, and otherwise all issue on this clock
(DEDUCED, log 13). -/
def State.rendezvous (s : State) : State :=
  let l := s.partners
  match l.findSome? fun k => match s.partnerV k with | .stall s' => some s' | _ => none with
  | some s' => (s'.waitStroke l).skipSeats l
  | none =>
    let traps (bad : List (SeatId × Cause × Dw)) : State :=
      (bad.foldl (fun s b => s.raise s.cur b.1 b.2.1 b.2.2 ((s.coreAt s.cur).ctx.seat b.1).pc false) (s.atClockEnd s.cur)).skipSeats l
    match s.trapsOf l with
    | [] => match s.issueAll l with
      | .issued s' => s'.skipSeats l
      | .stall => (s.waitStroke l).skipSeats l
      | .trap k c tv => traps [(k, c, tv)]
    | bad => traps bad

/-- STROKE_RENDEZVOUS (R37, R116, R291). -/
def execStrokeRendezvous (n : CoreId) (s : State) : Host.Outcome State Fault Refusal :=
  .next (if s.atStart n && s.meetDue then s.rendezvous else s)

end Sys2Proof.Machine
end

