-- ==== Sys2Proof/Machine/DebugEvents.lean ====
section
/-! DEFINITION. The events of the debug window (R373 to R376, R381), of the trace (R377 to R380), of the replay log (R389, R390), and of stopped
clocks and gated crews (R372, R380). -/

namespace Sys2Proof.Machine

open Sys2Proof

/-! ## Halts (R374, R376) -/

/-- A halt may fall on this edge: a unit is on the core, no handler runs, nothing freezes it (DEDUCED, log 30). -/
def State.mayHalt (s : State) (n : CoreId) : Bool :=
  let c := s.coreAt n
  c.unit.isSome && c.handler.isNone && c.frozen.isNone

/-- A stop that is pending takes effect. -/
def State.stopDue (s : State) (n : CoreId) : Option HaltWhy :=
  if s.mayHalt n && s.atEdge n then (s.coreAt n).dbg.pending else none

/-- DEBUG_STOP (R374, R376): the request stands; it halts the core at the next edge, behind a handler at its return, and without a unit at the next
unit's entry. BRK with brkdbg, and the divergence of a play run, halt in the same way (DEDUCED, log 68). -/
def State.debugStop (s : State) (n : CoreId) : State :=
  match s.stopDue n with
  | some why => s.debugHalt n why
  | none =>
    s.modCore n fun c => if c.dbg.halted.isSome then c else
      { c with dbg := { c.dbg with pending := some (c.dbg.pending.getD .request), deferred := c.handler.isSome } }

/-- DEBUG_STOP (R374, R376). -/
def execDebugStop (n : CoreId) (s : State) : Host.Outcome State Fault Refusal := .next (s.debugStop n)

/-- STEP_DONE (R374). -/
def execStepDone (n : CoreId) (s : State) : Host.Outcome State Fault Refusal :=
  .next (if s.stopDue n = some .stepDone then s.debugHalt n .stepDone else s)

/-- STOP_AT (R374). -/
def execStopAt (n : CoreId) (s : State) : Host.Outcome State Fault Refusal :=
  .next (if s.stopDue n = some .stopAt then s.debugHalt n .stopAt else s)

/-! ## Comparators (R374) -/

/-- The word at the head of seat k would issue on this clock: on a stroke word, all partners' words would. -/
def State.wouldIssue (s : State) (k : SeatId) : Bool :=
  let goes (k : SeatId) : Bool := match s.partnerV k with | .stall _ => false | _ => true
  if s.meetDue && s.partners.contains k then s.partners.all goes
  else match ((s.coreAt s.cur).ctx.seat k).body with
    | some lp => !lp.group && goes k
    | none => !(s.headStroked s.cur k && 2 ≤ (s.coreAt s.cur).ctx.actives.length) && goes k

/-- The comparator of seat k matches before this clock (DEDUCED, log 30). -/
def State.matches_ (s : State) (k : SeatId) : Bool :=
  let c := s.coreAt s.cur
  let t := c.ctx.seat k
  let b := c.dbg.bps.get k.toFin
  b.getLsbD 0 && t.act && t.cause.isNone && decide (b.extractLsb' 2 62 = t.pc.extractLsb' 2 62) && !c.dbg.skipBp.contains (k, t.pc) &&
  decide (s.nextWord s.cur k ≠ .squash) && s.wouldIssue k

/-- A comparator halts the core before this clock: that of the first seat that matches (DEDUCED, log 30). -/
def State.bpDue (s : State) : Option SeatId :=
  let c := s.coreAt s.cur
  if s.running s.cur && decide (c.moved ||| c.skip = 0) && c.dbg.bps.toList.any (fun b => b.getLsbD 0) then
    [SeatId.c, .a, .v, .m].find? s.matches_
  else none

/-- BREAKPOINT_MATCH (R374): the word does not issue; the first clock after the resume ignores it. -/
def State.breakpointMatch (s : State) (n : CoreId) (k : SeatId) : State :=
  if s.atStart n && decide (s.bpDue = some k) then s.debugHalt n .comparator else s

/-- BREAKPOINT_MATCH (R374). -/
def execBreakpointMatch (n : CoreId) (k : SeatId) (s : State) : Host.Outcome State Fault Refusal := .next (s.breakpointMatch n k)

/-! ## Resume, step and play (R374, R375, R390) -/

/-- A core without a unit that is halted, or that a stop holds, may be prepared for a play run (R376, R390) (DEDUCED, log 31). -/
def Core.playReady (c : Core) : Bool := c.unit.isNone && c.dbg.play && (c.dbg.halted.isSome || c.dbg.pending.isSome)

def Core.isHalted (c : Core) : Bool := c.dbg.halted.isSome || c.playReady

/-- The unit of a play run (R390): its identity is the start entry's; its context, partition and sections are those of its launch where the die still
has it, and otherwise context 0 and every address (DESIGN CHOICE, log 29). -/
def State.playUnit (s : State) (n : CoreId) (lid uidx : Word) : UnitInfo :=
  let d := s.die (dieOf n)
  let base : UnitInfo :=
    { serial := s.nextId, lid := lid, uidx := uidx, ucnt := 1, phid := 0, jid := 0, prio := 0, dline := 0, ctx := 0, part := 0, kdesc := 0, argb := 0,
      secs := Vector.replicate 4 { base := 0, words := 2 ^ 62 }, crew := false, order := 0, stop := none, acq := [] }
  match d.launches.find? fun l => decide (l.lid = lid) with
  | none => base
  | some l => match d.phase? l.phid with
    | none => base
    | some p =>
      let kd : Dw := match l.node with | some i => (match p.nodes[i]? with | some nd => nd.kdesc | none => 0) | none => 0
      match d.kernel? p.ctx kd with
      | some k => { base with phid := p.phid, jid := p.jid, prio := p.prio, ctx := p.ctx, part := p.part, kdesc := kd, secs := k.secs, crew := k.crew }
      | none => { base with phid := p.phid, jid := p.jid, prio := p.prio, ctx := p.ctx, part := p.part }

/-- A play run starts at the start entry that RLRD names (DESIGN CHOICE, log 29). -/
def State.playStart (s : State) (n : CoreId) : State :=
  let e := s.logNext n
  if e.kind ≠ 1 then s
  else
    let u := s.playUnit n (e.val.setWidth 32) ((e.val >>> 32).setWidth 32)
    let s := { s with nextId := s.nextId + 1 }
    let s := (s.logSkip n 16).modCore n fun c =>
      { c with unit := some u, frozen := none, dbg := { c.dbg with halted := none, pending := none, deferred := false, rlcsc := c.csc, playQs := 0 } }
    s.adoptLoops n

/-- The halt of a core ends; a load whose landing clock comes next and has no data yet holds it at once (R57). -/
def Core.unhalt (c : Core) : Core :=
  { c with frozen := if c.frozen = some .halt then none else c.frozen, hold := c.ctx.mustHold || c.logFull, dbg := { c.dbg with halted := none } }

/-- The core runs on from its halt, for a number of schedule cycles or without end (R375, R376). A core halted by a cut waits for the snapshot's own
resume (R388). -/
def State.runOn (s : State) (n : CoreId) (left : Option Nat) : State :=
  let c := s.coreAt n
  if c.playReady then (s.playStart n).modCore n fun c => { c with dbg := { c.dbg with left := left } }
  else if c.dbg.halted.isNone || decide (c.dbg.halted = some .cut) then s
  else
    (((s.modCore n fun c => { c.unhalt with dbg := { c.dbg with halted := none, left := left } })).adoptLoops n).traceUnitOf n 10 0

/-- DEBUG_RESUME (R375, R376, R390). -/
def execDebugResume (n : CoreId) (s : State) : Host.Outcome State Fault Refusal := .next (s.runOn n none)

/-- DEBUG_STEP (R374, R375): a step of 0 is discarded. -/
def execDebugStep (n : CoreId) (k : Nat) (s : State) : Host.Outcome State Fault Refusal := .next (if k = 0 then s else s.runOn n (some k))

/-- CLEAR_CONFLICT_CELLS (R381). -/
def execClearConflictCells (n : CoreId) (s : State) : Host.Outcome State Fault Refusal :=
  .next (s.modCore n fun c => { c with dbg := { c.dbg with cells := Vector.replicate 320 0, snap := Vector.replicate 320 0 } })

/-- CLEAR_REPLAY_LOG (R389). -/
def execClearReplayLog (n : CoreId) (s : State) : Host.Outcome State Fault Refusal :=
  .next (s.modCore n fun c => { c with dbg := { c.dbg with rlwr := 0, rlrd := 0 } })

/-! ## DFDATA (R375) -/

/-- A doubleword written into the state of a halted core, or of one that prepares a play run: what it names comes into being, the counts of the streams and
of the queues among it (R353, R375, R390) (DEDUCED, log 23). -/
def Ctx.debugSet (x : Ctx) (i : Nat) (v : Dw) : Ctx :=
  if i = 32 then { x with osiss := Vector.ofFn fun j => v.extractLsb' (16 * j.val) 16 }
  else if i = 33 then { x with osprf := Vector.ofFn fun j => v.extractLsb' (16 * j.val) 16 }
  else if i = 36 ∨ i = 37 then (x.setShadowDw none i v).refillDw (4 * (i - 36)) (x.shadowDw none false false 0 i) v
  else x.setShadowDw none i v

/-- What a read of DFDATA returns: the doubleword of the halted core's state at DFIDX, else zero (R373, R375) (DEDUCED, log 68). -/
def Core.dfValue (c : Core) : Dw := if c.isHalted then c.ctx.shadowDw none false false 0 c.dbg.dfidx else 0

/-- DFDATA (R375): acts only on a halted core; a write binds at the resume; DFIDX rises by 1 within its range (R373) (DEDUCED, log 68). -/
def State.dfdataStep (s : State) (n : CoreId) (w : Option Dw) : State :=
  s.modCore n fun c =>
    if !c.isHalted then c
    else
      let x := match w with
        | some v => c.ctx.debugSet c.dbg.dfidx v
        | none => c.ctx
      { c with ctx := x, dbg := { c.dbg with dfidx := min 29439 (c.dbg.dfidx + 1) } }

/-- DFDATA (R373, R375). -/
def execDfdata (n : CoreId) (w : Option Dw) (s : State) : Host.Outcome State Fault Refusal :=
  .next (match w with
    | some _ => s.dfdataStep n w
    | none => (s.dfdataStep n none).outp (.registerRead (dieOf n) { fn := 0, off := 0x4058, size := 8 } (s.coreAt n).dfValue))

/-! ## Trace (R377 to R380) -/

/-- TRACE_ENABLE (R377): TRCTL is written; en going to 1 clears TRLOST and writes an epoch record with cause 1. -/
def State.traceEnable (s : State) (w : CrewId) (v : Dw) : State :=
  let was := (s.crewAt w).enabled
  let s := s.setCrew w { s.crewAt w with trctl := v &&& 0xFFF }
  if v.getLsbD 0 && !was then (s.setCrew w { s.crewAt w with trlost := 0, lost := 0, gateLost := 0, epochs := [] }).traceEpoch w 1 else s

/-- TRACE_ENABLE (R377). -/
def execTraceEnable (w : CrewId) (v : Dw) (s : State) : Host.Outcome State Fault Refusal := .next (s.traceEnable w v)

/-- A sample record is due: a running clock of the sample's period has ended, whatever else falls on its edge (R379). -/
def State.sampleDue (s : State) (n : CoreId) : Bool :=
  let c := s.coreAt n
  c.ended && decide (s.cur = n) && c.why.contains 103

/-- TRACE_SAMPLE (R379). -/
def State.traceSample (s : State) (n : CoreId) : State :=
  if s.sampleDue n then (s.traceRec n 3 (s.coreAt n).ctx.pcs).modCore n fun c => { c with why := c.why.erase 103 } else s

/-- TRACE_SAMPLE (R379). -/
def execTraceSample (n : CoreId) (s : State) : Host.Outcome State Fault Refusal := .next (s.traceSample n)

/-- The records in a run of doublewords that starts at a record. -/
def countRecords : Nat → List Dw → Nat
  | 0, _ => 0
  | _, [] => 0
  | fuel + 1, h :: r => 1 + countRecords fuel ((h :: r).drop (max 1 (h.extractLsb' 6 8).toNat))

/-- The doublewords of the record that a cut after m doublewords splits which stand behind the cut, `at_` being where the first whole record begins. -/
def splitRest (b : List Dw) (m : Nat) : Nat → Nat → Nat
  | 0, at_ => at_ - m
  | fuel + 1, at_ => if m ≤ at_ then at_ - m else splitRest b m fuel (at_ + max 1 ((b.getD at_ 0).extractLsb' 6 8).toNat)

/-- The records of a buffer that are not wholly drained, one that a drained block has split among them (DEDUCED, log 32). -/
def Crew.records (c : Crew) : Nat := (if c.split = 0 then 0 else 1) + countRecords 8192 (c.buf.drop c.split)

/-- In mode 0 the area is full when the next block would pass TRRD (R377) (DEDUCED, log 32). -/
def Crew.areaFull (c : Crew) : Bool :=
  !c.trctl.getLsbD 1 && decide (c.trsize.toNat ≤ (c.trwr.toNat + c.trsize.toNat - c.trrd.toNat) % c.trsize.toNat + 64)

/-- A block may be drained: a whole one, or at a gate or with en = 0 the last one (R377, R379) (DEDUCED, log 32). -/
def Crew.drainable (c : Crew) : Bool := decide (c.buf ≠ []) && !c.areaFull && (decide (8 ≤ c.buf.length) || c.gating || !c.enabled)

/-- A gate that has waited for the buffer to drain takes place (R380). -/
def Crew.gateIfDrained (c : Crew) : Crew := if c.gating && decide (c.buf = []) then { c with gated := true, gating := false, split := 0 } else c

/-- TRACE_DRAIN (R377, R379): a block goes to the trace area; a short one is filled with padding; one whose write faults is lost
(DEDUCED, log 32). -/
def State.traceDrain (s : State) (w : CrewId) : State :=
  let c := s.crewAt w
  if !c.drainable then s
  else if (spaceOf (c.trbase.toNat + c.trwr.toNat)).isNone then
    let n := c.records
    s.setCrew w ({ c with buf := [], split := 0, trlost := sat32 (c.trlost + n) }.lossRecord n 3)
  else
    let b := c.buf.take 8
    let blk := b ++ List.replicate (8 - b.length) (traceHdr 0 0 1 0)
    let s := (areaPieces c.trbase.toNat c.trsize.toNat c.trwr.toNat (blk.flatMap fun (v : Dw) => leBytes v.toNat 8)).foldl
      (fun s p => s.plainStore p.1 p.2) s
    let rest : Crew := { c with buf := c.buf.drop 8, split := splitRest c.buf b.length 8 c.split, trwr := BitVec.ofNat 64 ((c.trwr.toNat + 64) % c.trsize.toNat) }
    (s.setCrew w rest.gateIfDrained).outp (.trace w c.trwr.toNat blk)

/-- TRACE_DRAIN (R377). -/
def execTraceDrain (w : CrewId) (s : State) : Host.Outcome State Fault Refusal := .next (s.traceDrain w)

/-- CREW_POWER_GATE (R380): once the buffer has drained, or forced, which drops what remains. -/
def State.crewGate (s : State) (w : CrewId) (forced : Bool) : State :=
  let c := s.crewAt w
  if c.gated then s
  else if c.buf = [] then s.setCrew w { c with gated := true, gating := false, split := 0 }
  else if forced then s.setCrew w
    { c with gated := true, gating := false, buf := [], split := 0, gateLost := c.gateLost + c.records, trlost := sat32 (c.trlost + c.records) }
  else s.setCrew w { c with gating := true }

/-- CREW_POWER_GATE (R380). -/
def execCrewPowerGate (w : CrewId) (forced : Bool) (s : State) : Host.Outcome State Fault Refusal := .next (s.crewGate w forced)

/-- CREW_POWER_UP (R380): the loss record of a forced gate, at once behind it the epoch record, then those that have waited. A crew whose clocks are stopped too
writes them when it runs again. -/
def State.crewUp (s : State) (w : CrewId) : State :=
  let c := s.crewAt w
  if !c.gated then s
  else
    let s := s.setCrew w { c with gated := false }
    if !c.enabled then s.setCrew w { c with gated := false, epochs := [], gateLost := 0 }
    else if s.crewStill w then s.setCrew w { c with gated := false, epochs := 4 :: c.epochs }
    else if c.gateLost = 0 then (s.setCrew w { c with gated := false, epochs := [] } |>.traceEpoch w 4).lateEpochs w c.epochs
    else (s.setCrew w (s.withEpoch w ({ c with gated := false, epochs := [], gateLost := 0 }.lossRecord c.gateLost 1) 4)).lateEpochs w c.epochs

/-- CREW_POWER_UP (R380). -/
def execCrewPowerUp (w : CrewId) (s : State) : Host.Outcome State Fault Refusal := .next (s.crewUp w)

/-- TRRD (R377). -/
def execTrrd (w : CrewId) (v : Dw) (s : State) : Host.Outcome State Fault Refusal := .next (s.setCrew w { s.crewAt w with trrd := v })

/-- RLRD (R389): the hold of a core whose log was full ends in LOAD_HOLD_END. -/
def execRlrd (n : CoreId) (v : Dw) (s : State) : Host.Outcome State Fault Refusal :=
  .next (s.modCore n fun c => { c with dbg := { c.dbg with rlrd := v } })

/-- CLOCK_STOP (R372): CSC stops rising. -/
def execClockStop (n : CoreId) (s : State) : Host.Outcome State Fault Refusal := .next (s.modCore n fun c => { c with stopped := true })

/-- The clock of a core runs again (R380): the loss record of a forced gate that still waits, the epoch records that have waited, and that of the restart. -/
def State.clockRestart (s : State) (n : CoreId) : State :=
  let w := crewOf n
  if !(s.coreAt n).stopped then s
  else
    let s := s.modCore n fun c => { c with stopped := false }
    let c := s.crewAt w
    if s.crewStill w || !c.enabled then s.traceEpoch w 3
    else
      let k := { c with epochs := [], gateLost := 0 }
      let k := if c.gateLost = 0 then k else k.lossRecord c.gateLost 1
      ((s.setCrew w k).lateEpochs w c.epochs).traceEpoch w 3

/-- CLOCK_RESTART (R372, R380). -/
def execClockRestart (n : CoreId) (s : State) : Host.Outcome State Fault Refusal :=
  .next (s.clockRestart n)

end Sys2Proof.Machine
end

