-- ==== Sys2Proof/Machine/TrapEvents.lean ====
section
/-! DEFINITION. The events of traps (R348 to R352, R362, R368) and of a handler's system registers (R358 to R361). -/

namespace Sys2Proof.Machine

open Sys2Proof

/-! ## Entry -/

/-- The seats of the core may freeze for a trap now: a unit is on it and nothing else freezes it. -/
def State.mayTrap (s : State) (n : CoreId) : Bool :=
  let c := s.coreAt n
  c.unit.isSome && c.frozen.isNone && !c.stopped && !(s.crewAt (crewOf n)).gated

def Cause.translation (c : Cause) : Bool := decide (0x20 ≤ c.code.toNat) && decide (c.code.toNat ≤ 0x26)

/-- A trap is taken, counted and traced (R350, R379, R384). -/
def State.enterTrap (s : State) (n : CoreId) (k : SeatId) (q : SeatCause) (efinfo : Nat) : State :=
  let s := ((if (s.coreAt n).handler.isNone then s.landReserved n else s).takeTrap n k q efinfo).count n 26 1
  let s := if q.cause.translation then s.count n 25 1 else s
  s.traceUnitOf n 7 q.cause.code.toNat

/-- TRAP_ENTRY (R34, R348 to R351): the first cause in seat order. -/
def State.trapEntry (s : State) (n : CoreId) : State :=
  match (s.coreAt n).dueCause with
  | some (k, q) => if s.mayTrap n then s.enterTrap n k q 0 else s
  | none => s

/-- TRAP_ENTRY (R34, R349, R350, R351, R365). -/
def execTrapEntry (n : CoreId) (s : State) : Host.Outcome State Fault Refusal := .next (s.trapEntry n)

/-- An engine fault may be taken: no handler, no seat cause (R362). -/
def State.efDue (s : State) (n : CoreId) : Bool :=
  let c := s.coreAt n
  s.mayTrap n && c.handler.isNone && c.ctx.firstCause.isNone && decide (c.efq ≠ [])

/-- ENGINE_FAULT_TAKE (R362): the oldest queued fault is the cause of the C seat, whose word has not stopped for it. -/
def State.efTake (s : State) (n : CoreId) : State :=
  match (s.coreAt n).efq with
  | f :: r =>
    if !s.efDue n then s
    else
      let q : SeatCause := { cause := .engineFault, tval := f.tval, tpc := ((s.coreAt n).ctx.seat .c).pc, issued := true }
      let t := (s.modCtx n fun x => x.modSeat .c fun t => { t with cause := some q }).enterTrap n .c q f.cause
      t.modCore n fun c => { c with efq := if c.handler.isSome then r else c.efq }
  | [] => s

/-- ENGINE_FAULT_TAKE (R258, R362). -/
def execEngineFaultTake (n : CoreId) (s : State) : Host.Outcome State Fault Refusal := .next (s.efTake n)

/-! ## Frozen masters (R368) -/

/-- MASTER_THAW: the master goes on where it stopped; a trap that found no supervisor handler is over, so that a word that did not issue issues again (R349)
(DEDUCED, log 60). -/
def State.masterThaw (s : State) (m : Master) : State :=
  match m with
  | .core n => s.modCore n fun c =>
      if c.frozen = some .master then
        { c with frozen := none, chosen := none, ctx := match c.chosen with | some k => c.ctx.keepCauses k | none => c.ctx }
      else c
  | .copyEngine n => s.modCore n fun c => { c with cpFrozen := false }
  | .endpointQueue d q => s.modDie d fun x => { x with frozenQs := x.frozenQs.filter fun i => decide (i ≠ q.val) }
  | .hostFunction d fn => s.modDie d fun x => { x with frozenFns := x.frozenFns.filter fun i => decide (i ≠ fn.val) }

/-- MASTER_THAW (R368). -/
def execMasterThaw (m : Master) (s : State) : Host.Outcome State Fault Refusal := .next (s.masterThaw m)

/-- The phases that a copy engine's work belongs to. -/
def Core.copyPhids (c : Core) : List Dw := (c.copies.filterMap fun k => (c.ownerUnit k.owner).map fun u => u.phid).eraseDups

/-- The first status of a phase (R314). -/
def State.phaseStatus (s : State) (d : DieId) (phid : Dw) (st : Nat) : State :=
  s.modDie (s.phaseHome d phid) fun x => x.modPhase phid fun p => { p with status := if p.status = 0 then st else p.status }

/-- MASTER_RESET (R368): a frozen master's work is cancelled with status 3. -/
def State.masterReset (s : State) (m : Master) : State :=
  match m with
  | .core n =>
    if (s.coreAt n).frozen ≠ some .master then s
    else (s.leaveUnit n true true 3).modCore n fun c => { c with frozen := none }
  | .copyEngine n =>
    if !(s.coreAt n).cpFrozen then s
    else
      let phids := (s.coreAt n).copyPhids
      let s := ((s.coreAt n).copies ++ (s.coreAt n).latch.toList).foldl (fun s k => s.copyCancel n k) s
      let s := phids.foldl (fun s p => s.phaseStatus (dieOf n) p 3) s
      s.modCore n fun c => { c with cpFrozen := false, latch := none, chains := [] }
  | .endpointQueue d q =>
    if !(s.die d).frozenQs.contains q.val then s
    else
      let gone := ((s.die d).sessions.filter fun x => x.isOpen && decide (x.epq = q)).map fun x => x.sid
      s.modDie d fun x => { x with frozenQs := x.frozenQs.filter fun i => decide (i ≠ q.val), sends := x.sends.filter fun y => !gone.contains y.sid }
  | .hostFunction d fn =>
    if !(s.die d).frozenFns.contains fn.val then s
    else
      let mine := (s.die d).phases.filter fun p => decide (p.cmd.fn = fn)
      let s := mine.foldl (fun s p => s.cancelPhase d p.phid 3) s
      s.modDie d fun x => { x with frozenFns := x.frozenFns.filter fun i => decide (i ≠ fn.val) }

/-- MASTER_RESET (R368). -/
def execMasterReset (m : Master) (s : State) : Host.Outcome State Fault Refusal := .next (s.masterReset m)

/-! ## Invalidation (R360) -/

/-- The handler's request is done (DEDUCED, log 14). -/
def State.setReq (s : State) (n : CoreId) (r : Option SysReq) : State := s.modHandler n fun h => { h with req := r }

/-- The invalidation that a handler asks for. -/
def State.invalReq (s : State) (n : CoreId) : Option Dw :=
  match (s.coreAt n).handler with
  | some h => match h.req with | some (.inval w) => some w | _ => none
  | none => none

/-- Drop the cached translations of a context that meet a range of pages, and let no walk in progress serve a later miss (R360)
(DEDUCED, log 63). -/
def Die.dropTlb (d : Die) (ctx : Fin 64) (hit : Nat → Nat → Bool) : Die :=
  { d with tlb := d.tlb.filter fun t => !(decide (t.ctx = ctx) && hit t.va.toNat t.size)
           walks := d.walks.map fun w => if w.ctx = ctx ∧ hit (w.page.toNat * 4096) 4096 then { w with stale := true } else w }

/-- INVAL_PAGE (R360): scope 0. -/
def State.invalPage (s : State) (n : CoreId) (w : Dw) : State :=
  if s.invalReq n ≠ some w ∨ w.extractLsb' 0 2 ≠ 0 then s
  else
    let va := (w.extractLsb' 12 45).toNat * 4096
    (s.modDie (dieOf n) fun d => d.dropTlb (s.ctxOn n) fun a size => overlaps a size va 4096).setReq n (some .invalDone)

/-- INVAL_PAGE (R360). -/
def execInvalPage (n : CoreId) (w : Dw) (s : State) : Host.Outcome State Fault Refusal := .next (s.invalPage n w)

/-- INVAL_CONTEXT (R360): scope 1. -/
def State.invalContext (s : State) (n : CoreId) (w : Dw) : State :=
  if s.invalReq n ≠ some w ∨ w.extractLsb' 0 2 ≠ 1 then s
  else (s.modDie (dieOf n) fun d => d.dropTlb (s.ctxOn n) fun _ _ => true).setReq n (some .invalDone)

/-- INVAL_CONTEXT (R360). -/
def execInvalContext (n : CoreId) (w : Dw) (s : State) : Host.Outcome State Fault Refusal := .next (s.invalContext n w)

/-- INVAL_RELOAD (R359, R360): scope 2; the whole die sees the values read again. -/
def execInvalReload (n : CoreId) (w : Dw) (s : State) : Host.Outcome State Fault Refusal :=
  if s.invalReq n ≠ some w ∨ w.extractLsb' 0 2 ≠ 2 then .next s
  else
    let x := s.ctxOn n
    let ctxd := (s.contextOf n x).ctxd
    match contextLost s.dwAt ctxd with
    | some pa => .fault (.noLocation pa)
    | none =>
      .next ((s.modDie (dieOf n) fun d => { (d.dropTlb x fun _ _ => true) with contexts := d.contexts.set x.val (loadContext s.dwAt ctxd) }).setReq n
        (some .invalDone))

/-- What walks have brought to accesses of a die that have not used it is used no more (R54, R360). -/
def State.dropUnused (s : State) (d : DieId) : State :=
  { s with cores := Vector.ofFn fun n => if dieOf n = d then { s.cores.get n with walkAns := [] } else s.cores.get n }

/-- INVAL_COMPLETE (R360): once the walks in progress at the write have ended, the C seat goes on; any access translated from now on uses the new
tables. -/
def execInvalComplete (n : CoreId) (s : State) : Host.Outcome State Fault Refusal :=
  .next (match (s.coreAt n).handler with
    | some h => if h.req = some .invalDone ∧ ((s.die (dieOf n)).walks.all fun w => !(w.stale && decide (w.ctx = s.ctxOn n))) then
        (s.dropUnused (dieOf n)).setReq n none else s
    | none => s)

/-! ## CPYRES, SAVE, SVREQ, FDATA (R358, R361) -/

/-- CPYRES (R186, R358): a command without an operation of its own, once the engine has an entry for it. -/
def State.cpyresTake (s : State) (n : CoreId) (v : Dw) : State :=
  let c := s.coreAt n
  match c.handler, c.unit with
  | some h, some u =>
    if h.req ≠ some (.cpyres v) ∨ 64 ≤ c.engineEntries then s
    else
      let k := newCopy s.nextId u.serial u.ctx 0x4B v
      let s := { s with nextId := s.nextId + 1 }
      (s.modCore n fun c => { c with copies := c.copies ++ [k] }).setReq n none
  | _, _ => s

/-- CPYRES (R358). -/
def execCpyres (n : CoreId) (v : Dw) (s : State) : Host.Outcome State Fault Refusal := .next (s.cpyresTake n v)

/-- SAVE (R358, R363): every area of R353 stands in the shadow from now on. -/
def State.saveTake (s : State) (n : CoreId) (v : Dw) : State :=
  match (s.coreAt n).handler with
  | some h => if h.req = some (.save v) then (s.modHandler n fun h => { h with saveWritten := true, req := none }).traceUnitOf n 6 0 else s
  | none => s

/-- SAVE (R241, R358). -/
def execSave (n : CoreId) (v : Dw) (s : State) : Host.Outcome State Fault Refusal := .next (s.saveTake n v)

/-- An access to the service ring or the reply doublewords, which the supervisor's request makes. -/
def State.svTr (s : State) (n : CoreId) (need : Need) (va : Dw) (size : Nat) : Tr :=
  translateNow s n (s.ctxOn n) (s.partOn n) true need (decide (va.toNat % size ≠ 0)) va size

/-- The core's reply doubleword. -/
def State.replyTr (s : State) (n : CoreId) : Tr :=
  s.svTr n needRw ((s.contextOf n (s.ctxOn n)).svrep + BitVec.ofNat 64 (64 * dieCore n)) 8

/-- The service record of a request (R361): type 2, the payload in the slot's bytes after its seq. -/
def State.svRecord (s : State) (n : CoreId) (h : Handler) (v : Dw) (size : Nat) : List Byte :=
  let payload := [v, BitVec.ofNat 64 n.val, BitVec.ofNat 64 (s.ctxOn n).val, zx h.cause.code, h.tval, h.tpc]
  (leBytes 48 4 ++ leBytes 2 4 ++ payload.flatMap fun w => leBytes w.toNat 8).take (size - 8)

/-- The record is appended to the service ring; a full ring holds the request and traps to the policy core once (R193, R333, R361). An address that does
not translate is a handler fault, which freezes the core (R351). -/
def State.svAppend (s : State) (n : CoreId) (h : Handler) (v : Dw) : State :=
  let bad : State := (s.setReq n none).freezeCore n .handlerFault
  match s.svTr n needRw (s.contextOf n (s.ctxOn n)).svring 64 with
  | .ok hpa =>
    let hd := s.recAt hpa
    let cs := if ringBad hd then [] else (List.range (recU hd 216 7)).map fun j => s.svTr n needRd (cursorVa hd j) 8
    let i := recU hd 0 64
    let slot := s.svTr n needWr (ringSlotVa hd i) 8
    if cs.any Tr.isBreak then s.freezeCore n .protection
    else match (if ringBad hd then none else s.minCursor cs), slot with
    | some m, .ok spa =>
      if ringFull hd m then (match h.req with
        | some (.svfull _ _) => s
        | _ => ((s.setReq n (some (.svfull v m))).countDie (dieOf n) 63 1).outp (.notice (dieOf n) 3 (BitVec.ofNat 64 hpa)))
      else
        let s := s.homeStore hpa (leBytes (i + 1) 8)
        let s := s.homeStore (spa + 8) (s.svRecord n h v (16 * recU hd 136 16))
        (s.homeStore spa (leBytes (i + 1) 8)).setReq n (some .reply)
    | some _, .breaks _ => s.freezeCore n .protection
    | _, _ => bad
  | .breaks _ => s.freezeCore n .protection
  | _ => bad

/-- SVREQ (R361): the reply doubleword is cleared, then the record is appended; a held request tries again. -/
def State.svreqTake (s : State) (n : CoreId) (v : Dw) : State :=
  match (s.coreAt n).handler with
  | none => s
  | some h =>
    match h.req with
    | some (.svreq w) =>
      if w ≠ v then s
      else match s.replyTr n with
        | .ok rep => (s.homeStore rep (leBytes 0 8)).svAppend n h v
        | .breaks _ => s.freezeCore n .protection
        | _ => (s.setReq n none).freezeCore n .handlerFault
    | some (.svfull w _) => if w ≠ v then s else s.svAppend n h v
    | _ => s

/-- SVREQ (R361). -/
def execSvreq (n : CoreId) (v : Dw) (s : State) : Host.Outcome State Fault Refusal := .next (s.svreqTake n v)

/-- SVREQ_REPLY (R361): the reply stands in memory, or the consumer outside the device stores v; the C seat goes on. -/
def State.svreqReply (s : State) (n : CoreId) (v : Dw) : State :=
  match (s.coreAt n).handler with
  | none => s
  | some h =>
    if h.req ≠ some .reply then s
    else match (s.replyTr n).place with
      | none => s
      | some pa =>
        let s := if v ≠ 0 then s.homeStore pa (leBytes v.toNat 8) else s
        let r : Dw := BitVec.ofNat 64 (s.valueAt pa 8)
        if r = 0 then s else (s.setReq n none).modCore n fun c => { c with svreply := r }

/-- SVREQ_REPLY (R361). -/
def execSvreqReply (n : CoreId) (v : Dw) (s : State) : Host.Outcome State Fault Refusal := .next (s.svreqReply n v)

/-- FDATA (R358): the doubleword at FIDX is written, binding at RFT, and FIDX moves on. After a SAVE a write of the bindings fills the queues, which no seat
uses before the return (R352). -/
def State.fdataStep (s : State) (n : CoreId) (w : Option Dw) : State :=
  match (s.coreAt n).handler with
  | none => s
  | some h =>
    if h.req ≠ some (.fdata w) then s
    else
      let i := (s.coreAt n).fidx
      let s := (s.setReq n none).modCore n fun c => { c with fidx := i + 1 }
      match w with
      | none => s
      | some v =>
        if h.fidxMax < i then s
        else
          let s := if h.saveWritten ∧ (i = 36 ∨ i = 37) then s.modCtx n fun x => x.refillDw (4 * (i - 36)) (h.shadowAt x i) v else s
          s.modHandler n fun h => { h with writes := h.writes ++ [(i, v)] }

/-- FDATA (R241, R358). -/
def execFdata (n : CoreId) (w : Option Dw) (s : State) : Host.Outcome State Fault Refusal := .next (s.fdataStep n w)

end Sys2Proof.Machine
end

