-- ==== Sys2Proof/Machine/Sched.lean ====
section
/-! DEFINITION. The unit scheduler: which candidate a free core takes (R330, R331), entry and resumption (R15, R16, R22), stops (R42, R344 to R346),
and slices (R404 to R406). -/

namespace Sys2Proof.Machine

open Sys2Proof

/-! ## Cores and their partitions -/

def State.sharedOf (s : State) (w : CrewId) : Option Shared := s.shared.find? fun h => decide (h.crew = w)

/-- The partition that a crew takes units of: its owner, or the one whose slice runs; a crew that only one partition shares is idle, as a shared crew has 2 to
8 (R399, R404) (DEDUCED, log 48). -/
def State.crewPart (s : State) (w : CrewId) : Option (Fin 32) :=
  match s.sharedOf w with
  | some h => if h.switching || decide (h.members.length < 2) then none else (h.members[h.cur]?).map fun m => m.1
  | none => (List.finRange 32).find? fun p => (s.part p (crewDie w)).crews.getLsbD (w.val % 44)

/-- The unit may run on the crew: of the crew's partition, and on a shared crew a best-effort one of no crew launch (R404). -/
def State.mayStay (s : State) (w : CrewId) (u : UnitInfo) : Bool :=
  decide (s.crewPart w = some u.part) && ((s.sharedOf w).isNone || (decide (u.prio.toNat < 12) && !u.crew))

/-- The core was freed by a pre-emption for a deadline unit (R344). -/
def Core.vacated (c : Core) : Bool :=
  match c.frozen with
  | some (.stopped .preempt _) => c.unit.isNone
  | _ => false

/-- A core that may take a unit: no unit, nothing of an old unit that needs its queues, engine or generators, no command of an exited unit in the spill ring
(R334), no halt, gate or cut (DEDUCED, log 22). -/
def State.coreFree (s : State) (n : CoreId) : Bool :=
  let c := s.coreAt n
  let d := s.die (dieOf n)
  c.unit.isNone && c.handler.isNone && (c.frozen.isNone || c.vacated) && !c.stopped && !(s.crewAt (crewOf n)).gated && c.dbg.halted.isNone &&
  !c.dbg.play && decide (d.start = .running) && d.snap.isNone && c.pats.toList.all (fun p => p.isNone) && c.mcast.isNone && c.latch.isNone &&
  c.ctx.eng.opq.isEmpty && !c.ctx.eng.dbusy && c.ctx.eng.drainT.isNone && !(c.copies.any fun k => k.spilled && !c.ownerStands k.owner)

/-! ## Candidates (R330) -/

/-- The next unit index of a task. -/
def Task.first (t : Task) : Nat :=
  match t.kind with
  | .one r _ => r.uidx.toNat
  | .cont r => r.uidx.toNat
  | .launch _ _ _ _ next skips => (((List.range (skips.length + 1)).map fun i => next + i).find? fun u => !skips.contains u).getD next

/-- The task without its next unit, none once it is used up. -/
def Task.rest (t : Task) : Option Task :=
  match t.kind with
  | .launch k a lid units _ skips =>
    let u := t.first
    let r : Task := { t with kind := .launch k a lid units (u + 1) (skips.filter fun i => decide (u < i)) }
    if r.pending = 0 then none else some r
  | _ => none

/-- The kernel of a task. -/
def Task.kernel (t : Task) : Dw :=
  match t.kind with
  | .one r _ => r.kdesc
  | .cont r => r.kdesc
  | .launch k _ _ _ _ _ => k

/-- A crew launch (R331). -/
def Die.crewTask (d : Die) (t : Task) : Bool :=
  match t.kind with
  | .launch k _ _ _ _ _ => (match d.kernel? t.ctx k with | some x => x.crew | none => false)
  | _ => false

def allPos : List (Fin 4) := [0, 1, 2, 3]

/-- A whole crew stands free, with no shadow occupied but where a pre-emption has vacated the core (DEDUCED, log 44). -/
def State.crewFree (s : State) (w : CrewId) : Bool :=
  allPos.all fun p => let n := crewCore w p; s.coreFree n && ((s.coreAt n).held.isNone || (s.coreAt n).vacated)

/-- The task may be placed on the core: its partition's, and on a shared crew best-effort and no crew launch (R404) (DEDUCED, log 44). -/
def State.fits (s : State) (n : CoreId) (t : Task) : Bool :=
  decide (s.crewPart (crewOf n) = some t.part) &&
  ((s.sharedOf (crewOf n)).isNone || (decide (t.prio.toNat < 12) && !(s.die (dieOf n)).crewTask t)) &&
  (!(s.die (dieOf n)).crewTask t || s.crewFree (crewOf n))

/-- A deadline as an order key: none comes last. -/
def Task.dkey (t : Task) : Nat := if t.dline = 0 then 2 ^ 64 else t.dline.toNat

/-- Earlier in a priority from 12 on: the deadline, the phase id, the unit index. -/
def Task.before (a b : Task) : Bool :=
  decide (a.dkey < b.dkey) || (decide (a.dkey = b.dkey) && (decide (a.phid.toNat < b.phid.toNat) || (decide (a.phid = b.phid) && decide (a.first < b.first))))

/-- The least element by a strict order, the first of equals. -/
def leastBy {α : Type} (lt : α → α → Bool) : List α → Option α
  | [] => none
  | a :: r => match leastBy lt r with
    | none => some a
    | some b => if lt b a then some b else some a

/-- The tasks of the die with their places, those that fit a core. -/
def State.fitting (s : State) (n : CoreId) : List (Nat × Task) := ((s.die (dieOf n)).tasks.mapIdx fun i t => (i, t)).filter fun x => s.fits n x.2

/-- Rule 2: the heads of the best-effort levels that have had ready work and placed no unit for 1 ms. -/
def Die.starved (x : Die) (l : List (Nat × Task)) : List (Nat × Task) :=
  (List.range 12).filterMap fun v => match l.find? fun t => decide (t.2.prio.toNat = v) with
    | some t => if 1000000 ≤ x.time - x.levelSince.toArray.getD (levelKey t.2.part t.2.prio) 0 then some t else none
    | none => none

/-- Rule 3: the first deadline candidate. -/
def firstDeadline (l : List (Nat × Task)) : Option (Nat × Task) :=
  [15, 14, 13, 12].findSome? fun v => leastBy (fun a b => a.2.before b.2) (l.filter fun x => decide (x.2.prio.toNat = v))

/-- Rule 4: the level by deficit round-robin, and whether a round begins. -/
def roundRobin (weights drr : Vector Nat 12) (l : List (Nat × Task)) : Option ((Nat × Task) × Bool) :=
  let level (ok : Nat → Bool) : Option (Nat × Task) :=
    (List.range 12).reverse.findSome? fun v => if ok v then l.find? fun x => decide (x.2.prio.toNat = v) else none
  match level fun v => decide (drr.toArray.getD v 0 < weights.toArray.getD v 0) with
  | some x => some (x, false)
  | none => match level fun _ => true with
    | some x => some (x, true)
    | none => none

/-- The ready deadline tasks of a partition in their order, with their units. -/
def readyOrder : Nat → List Task → List Task
  | 0, _ => []
  | fuel + 1, l => match leastBy (fun a b => decide (b.prio.toNat < a.prio.toNat) || (decide (a.prio = b.prio) && a.before b)) l with
    | none => []
    | some t => t :: readyOrder fuel (l.erase t)

/-- The ready deadline candidates of a partition on a die, in the order of R330. -/
def State.ready (s : State) (d : DieId) (p : Fin 32) : List Task :=
  let l := (s.die d).tasks.filter fun t => decide (t.part = p) && decide (12 ≤ t.prio.toNat)
  readyOrder l.length l

/-- The crews that a launch still asks for. -/
def Task.groups (t : Task) : Nat :=
  match t.kind with
  | .launch _ _ _ units next skips => (((List.range units).filter fun u => decide (next ≤ u) && !skips.contains u).map fun u => u / 4).eraseDups.length
  | _ => 0

/-- A crew has four cores that stand free or vacated or are stopping for a pre-emption. -/
def State.stopping (s : State) (w : CrewId) : Bool :=
  allPos.all fun p =>
    let c := s.coreAt (crewCore w p)
    c.vacated || (match c.unit with
      | some u => (match u.stop with | some q => decide (q.why = .preempt) | none => false)
      | none => c.held.isNone)

/-- The crews that pre-emptions vacate for the ready crew candidates of a partition, one for each group of four units (R344). -/
def State.gathered (s : State) (d : DieId) (p : Fin 32) : List CrewId :=
  let groups := (((s.ready d p).filter (s.die d).crewTask).map Task.groups).sum
  ((s.die d).gathers.filter fun w => decide (s.crewPart w = some p) && s.stopping w).take groups

/-- The core belongs to a crew that is vacated for a crew candidate. -/
def State.gathering (s : State) (n : CoreId) : Bool :=
  match s.crewPart (crewOf n) with
  | some p => (s.gathered (dieOf n) p).contains (crewOf n)
  | none => false

/-- The candidate stands behind a crew candidate in the order of R330. -/
def State.behindCrew (s : State) (d : DieId) (t : Task) : Bool :=
  decide (t.prio.toNat < 12) || (((s.ready d t.part).takeWhile fun u => decide (u ≠ t)).any (s.die d).crewTask)

/-- The task that a free core takes by rules 2 to 4, and whether a round begins (R330); a core that is vacated for a crew candidate goes to no candidate behind
it (R344). -/
def State.candidate (s : State) (n : CoreId) (p : Fin 32) : Option ((Nat × Task) × Bool) :=
  let d := dieOf n
  let l := s.fitting n
  let open_ (t : Task) : Bool := !s.gathering n || (s.die d).crewTask t || !s.behindCrew d t
  match (s.die d).starved l with
  | x :: r => (((x :: r)[s.choose 6 (r.length + 1)]?).getD x, false)
  | [] =>
    let l := l.filter fun x => open_ x.2
    match firstDeadline l with
    | some x => some (x, false)
    | none => roundRobin (s.part p d).weights (s.part p d).drr l

/-- Rule 1: the unit in the core's shadow goes first, but on a core that a pre-emption has vacated while a deadline unit is ready for it or for its crew. -/
def State.heldFirst (s : State) (n : CoreId) : Bool :=
  let c := s.coreAt n
  match c.held with
  | none => false
  | some h => s.mayStay (crewOf n) h.unit && !(c.vacated && ((firstDeadline (s.fitting n)).isSome || s.gathering n))

/-! ## Entry (R15, R16, R22) -/

/-- The entry state of a unit (R16). -/
def entryCtx (u : UnitInfo) (ft : Vector (BitVec 16) 16) (arg : List Dw) : Ctx :=
  let args (i : Nat) : Dw := if 8 ≤ i ∧ i < 16 then arg.getD (i - 8) 0 else 0
  { Ctx.reset with
    seats := Vector.ofFn fun k => { Seat.reset with pc := (u.secs.get k).base, act := decide ((u.secs.get k).words ≠ 0) }
    c := Vector.ofFn fun i => if i.val = 1 then u.argb else if i.val = 2 then BitVec.ofNat 64 u.uidx.toNat
                              else if i.val = 3 then BitVec.ofNat 64 u.ucnt.toNat else args i.val
    a := Vector.ofFn fun i => args i.val
    x := Vector.ofFn fun i => args i.val
    m := Vector.ofFn fun i => args i.val
    fmt := ft }

/-- The named registers of a continuation record, in ascending order (R22). -/
def restoreRegs : List Nat → List Dw → Vector Dw 32 → Vector Dw 32
  | i :: r, v :: t, c => restoreRegs r t (setVec c i fun _ => v)
  | _, _, c => c

/-- The state in which a re-enqueued record resumes, by the fields of its layout (R21, R22), its earlier acquires kept (R85); the error of its slot is pending
(R366). -/
def resumeCtx (x : Ctx) (r : ContRec) : Ctx :=
  let rmask : Word := r.bits.extractLsb' 128 32
  let base : Vector Dw 32 := Vector.ofFn fun i =>
    if i.val = 1 then r.dw 1 else if i.val = 2 then zx (r.bits.extractLsb' 192 32) else if i.val = 3 then zx (r.bits.extractLsb' 164 25) else 0
  let osc : Vector (BitVec 16) 4 := Vector.ofFn fun i => r.bits.extractLsb' (448 + 16 * i.val) 16
  let cause : Option SeatCause := r.bad.map fun va => { cause := .data, tval := va, tpc := r.dw 0, issued := true }
  let x := { x with c := restoreRegs ((List.range 32).filter fun i => rmask.getLsbD i) ((List.range 16).map fun i => r.dw (8 + i)) base
                    osiss := osc, osprf := osc, acqs := r.acqs, scov := r.scov }
  x.modSeat .c fun t => { t with pc := r.dw 0, act := true, cause := cause }

/-- The unit that a task gives next, with its launch's fields. -/
def State.unitInfo (s : State) (d : DieId) (t : Task) (serial : Nat) : UnitInfo :=
  let crew := (s.die d).crewTask t
  let secs := match (s.die d).kernel? t.ctx t.kernel with | some k => k.secs | none => Vector.replicate 4 { base := 0, words := 0 }
  let base : UnitInfo :=
    { serial := serial, lid := t.lid, uidx := BitVec.ofNat 32 t.first, ucnt := 1, phid := t.phid, jid := t.jid, prio := t.prio, dline := t.dline,
      ctx := t.ctx, part := t.part, kdesc := t.kernel, argb := 0, secs := secs, crew := crew, order := serial, stop := none, acq := t.acq }
  match t.kind with
  | .one r _ => { base with ucnt := r.ucnt, argb := r.argb }
  | .cont r => { base with ucnt := r.ucnt, argb := r.argb, acq := r.acq ++ t.acq }
  | .launch _ a _ units _ _ => { base with ucnt := BitVec.ofNat 25 units, argb := a }

/-- The task at a place gives its next unit: the queue, the weights' round and the level's waiting time follow (R329, R330). -/
def State.takeTask (s : State) (d : DieId) (i : Nat) (t : Task) (round : Bool) : State :=
  let keep (j : Nat) (u : Task) : Option Task := if j = i then t.rest else some u
  let s := s.modDie d fun x => { x with tasks := (x.tasks.mapIdx keep).filterMap id }.levelStart t.part t.prio
  if 12 ≤ t.prio.toNat then s
  else s.modPart t.part d fun x =>
    let drr := if round then Vector.replicate 12 0 else x.drr
    { x with drr := setVec drr t.prio.toNat fun v => v + 1 }

/-- The crew-mates' multicasts no longer feed the core. -/
def State.leaveMulticasts (s : State) (n : CoreId) : State :=
  allPos.foldl (fun s p => let m := crewCore (crewOf n) p
    if m = n then s else s.modCore m fun c => { c with mcast := c.mcast.map fun q => { q with members := q.members &&& ~~~((1 : BitVec 4) <<< (crewPos n).val) } }) s

/-- A unit that does not start is counted as cancelled with a fault (R15). -/
def State.notStarted (s : State) (d : DieId) (u : UnitInfo) : State := (s.unitDone d u.phid u.lid false true 0).sweepPhase d u.phid

/-- A unit enters the core with a context (R376, R379, R384, R389). -/
def State.enter (s : State) (n : CoreId) (u : UnitInfo) (x : Ctx) (event : Nat) : State :=
  let s := ((s.leaveMulticasts n).dropWaits n).modCore n fun c =>
    { c with unit := some u, ctx := x, frozen := none, hold := false, efq := [], pend := [] }
  let s := ((s.traceUnit n u event 0).logStart n 0).count n 34 1
  s.countDie (dieOf n) 56 1

/-- Place the next unit of a task on a core: the argument block is read once, and a fault cancels the unit (R15, R367). A unit or record
whose kernel was freed before its dispatch counts as not started (DESIGN CHOICE, log 75). -/
def State.placeOn (s : State) (n : CoreId) (t : Task) : State :=
  let d := dieOf n
  let u := s.unitInfo d t s.nextId
  let s := { s with nextId := s.nextId + 1 }
  match (s.die d).kernel? t.ctx t.kernel with
  | none => s.notStarted d u
  | some k => match translateNow s n u.ctx u.part false needRd (decide (u.argb.toNat % 64 ≠ 0)) u.argb 64 with
    | .breaks _ => (s.notStarted d u).freezeCore n .protection
    | .ok pa =>
      if s.poisoned pa 64 then s.notStarted d u
      else
        let arg := (List.range 8).map fun i => BitVec.ofNat 64 (leValue (s.loadBytes u.acq (pa + 8 * i) 8))
        let x := entryCtx u k.ft arg
        match t.kind with
        | .cont r => s.enter n u (resumeCtx x r) 2
        | _ => s.enter n u x 1
    | _ => s.notStarted d u

/-- Units 4g to 4g + 3 of the crew launch `lid` on the four cores of a crew, each at its index mod 4; the place of a cancelled one stays empty (R250, R331)
(DEDUCED, log 44). -/
def State.placeCrew (s : State) (w : CrewId) (i : Nat) (lid : Word) (g : Nat) : List (Fin 4) → Bool → State
  | [], _ => s
  | p :: r, round =>
    match (s.die (crewDie w)).tasks[i]? with
    | none => s
    | some t =>
      if t.lid = lid ∧ t.first = 4 * g + p.val then ((s.takeTask (crewDie w) i t round).placeOn (crewCore w p) t).placeCrew w i lid g r false
      else s.placeCrew w i lid g r round

/-- UNIT_PLACE (R330, R331). -/
def State.unitPlace (s : State) (n : CoreId) : State :=
  if !s.coreFree n || s.heldFirst n then s
  else match s.crewPart (crewOf n) with
    | none => s
    | some p => match s.candidate n p with
      | none => s
      | some ((i, t), round) =>
        if (s.die (dieOf n)).crewTask t then
          (s.placeCrew (crewOf n) i t.lid (t.first / 4) allPos round).modDie (dieOf n) fun x => { x with gathers := x.gathers.erase (crewOf n) }
        else (s.takeTask (dieOf n) i t round).placeOn n t

/-- UNIT_PLACE (R15, R16, R22, R330, R331). -/
def execUnitPlace (n : CoreId) (s : State) : Host.Outcome State Fault Refusal := .next (s.unitPlace n)

/-! ## Stops (R42, R344 to R346) -/

/-- The forced early epilogue: from the next kernel step on no iteration starts; a loop in which nothing is under way ends at once (R42, R370). -/
def Ctx.squashLoops (x : Ctx) : Ctx :=
  [SeatId.c, .a, .v, .m].foldl (fun x k =>
    match (x.seat k).body with
    | none => x
    | some lp =>
      if lp.lsq then x else
      let i0 := min lp.trip (lp.step + lp.base + (if lp.pos = 0 then 0 else 1))
      let lp' := { lp with lsq := true, i0 := i0 }
      let x := x.modSeat k fun t => { t with loop := some lp' }
      if lp.pos = 0 ∧ (i0 = lp.base ∨ lp'.steps ≤ lp.step) then x.loopDone k lp' else x) x

/-- The forced early epilogue of a core: under a handler the loop of the C seat stands in the frame (R42, R350). -/
def Core.squashLoops (c : Core) : Core :=
  match c.handler with
  | none => { c with ctx := c.ctx.squashLoops }
  | some h =>
    let x := (c.ctx.setSeat .c (h.saved.seat .c)).squashLoops
    { c with ctx := x.setSeat .c (c.ctx.seat .c), handler := some { h with saved := h.saved.setSeat .c (x.seat .c) } }

/-- A seat of the core is in a loop body, the C seat under a handler by the frame. -/
def Core.inBody (c : Core) (k : SeatId) : Bool :=
  match c.handler, k with
  | some h, .c => (h.saved.seat .c).body.isSome
  | _, _ => (c.ctx.seat k).body.isSome

/-- A pending stop becomes urgent; an epilogue that ends at once is the end of its loop (R42, R382). -/
def State.makeUrgent (s : State) (n : CoreId) : State :=
  let t := s.modCore n fun c =>
    { c.squashLoops with unit := c.unit.map fun u => { u with stop := u.stop.map fun q => { q with urgent := true, clks := 0 } } }
  if ([SeatId.c, .a, .v, .m].any fun k => (s.coreAt n).inBody k && !(t.coreAt n).inBody k) && (s.crewAt (crewOf n)).trctl.getLsbD 4 then t.conflictRecord n
  else t

/-- Post a stop for the unit on a core. -/
def State.postStop (s : State) (n : CoreId) (why : StopWhy) (urgent : Bool) : State :=
  let now := (s.die (dieOf n)).time
  let s := s.modCore n fun c => { c with unit := c.unit.map fun u =>
    { u with stop := some (u.stop.getD { why := why, posted := now, urgent := false, clks := 0 }) } }
  if urgent then s.makeUrgent n else s

/-- The crew units that stop together with the unit on a core (R255, R346). -/
def State.stopGroup (s : State) (n : CoreId) : List CoreId :=
  match (s.coreAt n).unit with
  | some u => if !u.crew then [n] else
      (allPos.map fun p => crewCore (crewOf n) p).filter fun m => match (s.coreAt m).unit with
        | some v => v.crew && decide (v.lid = u.lid)
        | none => false
  | none => []

/-- The unit on the core may be pre-empted for a priority, alone (R344). -/
def State.stoppable (s : State) (prio : Nat) (n : CoreId) : Bool :=
  let c := s.coreAt n
  match c.unit with
  | some u => u.stop.isNone && c.handler.isNone && c.frozen.isNone && c.held.isNone && c.dbg.halted.isNone && !c.dbg.play && !c.stopped &&
      !(s.crewAt (crewOf n)).gated && (decide (u.prio.toNat < 12) || decide (u.prio.toNat < prio))
  | none => false

/-- A victim: every unit that would stop with it may be pre-empted. -/
def State.isVictim (s : State) (prio : Nat) (n : CoreId) : Bool := (s.coreAt n).unit.isSome && (s.stopGroup n).all (s.stoppable prio)

/-- The victim chosen first: lowest priority, most recent dispatch, highest core number (R344). -/
def State.victimBefore (s : State) (a b : CoreId) : Bool :=
  match (s.coreAt a).unit, (s.coreAt b).unit with
  | some u, some v => decide (u.prio.toNat < v.prio.toNat) || (decide (u.prio = v.prio) &&
      (decide (v.order < u.order) || (decide (u.order = v.order) && decide (b.val < a.val))))
  | some _, none => true
  | _, _ => false

/-- The cores of the crews a partition owns alone on a die. -/
def State.ownCores (s : State) (d : DieId) (p : Fin 32) : List CoreId :=
  (List.finRange 352).filter fun n => decide (dieOf n = d) && (s.sharedOf (crewOf n)).isNone && decide (s.crewPart (crewOf n) = some p)

/-- The worst-case cost of a task's phase at its level, 0 where no stream gives one. -/
def State.taskCost (s : State) (d : DieId) (t : Task) : Nat :=
  match (s.die d).phase? t.phid with
  | some p => match p.stream.bind fun k => (s.die d).stream? k with
    | some k => k.lcost.toArray.getD p.level 0
    | none => 0
  | none => 0

/-- The pre-emption is urgent (R345). -/
def State.urgentFor (s : State) (d : DieId) (t : Task) : Bool :=
  t.dline ≠ 0 && decide ((t.dline.toNat : Int) - (s.die d).time - s.taskCost d t < (s.part t.part d).tb)

/-- The core is vacated by a pre-emption or is to be. -/
def State.underStop (s : State) (n : CoreId) : Bool :=
  (s.coreAt n).vacated || (match (s.coreAt n).unit with
    | some u => (match u.stop with | some q => decide (q.why = .preempt) | none => false)
    | none => false)

/-- What serves the candidates: the cores under a pre-emption's stop that no crew candidate is to have, and the crews that are vacated for one. -/
structure Serving where
  cores : List CoreId
  crews : List CrewId
deriving DecidableEq, Repr

def State.serving (s : State) (d : DieId) (p : Fin 32) : Serving :=
  let crews := s.gathered d p
  { cores := (s.ownCores d p).filter fun n => s.underStop n && !crews.contains (crewOf n), crews := crews }

/-- The first candidate that the pending stops do not serve: a crew candidate needs a crew for each group, any other a core for each unit (R344). -/
def Die.unserved (x : Die) : Nat → Nat → List Task → Option Task
  | _, _, [] => none
  | cores, crews, t :: r =>
    if x.crewTask t then (if t.groups ≤ crews then x.unserved cores (crews - t.groups) r else some t)
    else if t.pending ≤ cores then x.unserved (cores - t.pending) crews r else some t

/-- The deadline unit that asks for a pre-emption: the first that no stop already serves, while no candidate of rule 2 stands before it and no core of
the partition is free for it (R344). -/
def State.preemptFor (s : State) (d : DieId) (p : Fin 32) : Option Task :=
  let cores := s.ownCores d p
  let mine := (s.die d).tasks.filter fun t => decide (t.part = p)
  let v := s.serving d p
  if (s.die d).starved (mine.map fun t => (0, t)) ≠ [] then none
  else match (s.die d).unserved v.cores.length v.crews.length (s.ready d p) with
    | none => none
    | some t =>
      let free := if (s.die d).crewTask t then cores.any fun n => s.crewFree (crewOf n) && !v.crews.contains (crewOf n)
        else cores.any fun n => s.coreFree n && !s.heldFirst n && (!v.crews.contains (crewOf n) || !s.behindCrew d t)
      if free then none else some t

/-- The crew that a crew candidate has vacated: the one of the victim chosen first whose other cores stand free or run victims. -/
def State.crewVictim (s : State) (d : DieId) (p : Fin 32) (t : Task) : Option CrewId :=
  let whole (n : CoreId) : Bool := allPos.all fun q => let m := crewCore (crewOf n) q
    s.isVictim t.prio.toNat m || (s.coreFree m && ((s.coreAt m).held.isNone || (s.coreAt m).vacated))
  (leastBy s.victimBefore (((s.ownCores d p).filter (s.isVictim t.prio.toNat)).filter fun n => whole n && !(s.gathered d p).contains (crewOf n))).map crewOf

/-- The cores to stop for a task. -/
def State.victims (s : State) (d : DieId) (p : Fin 32) (t : Task) : List CoreId :=
  if (s.die d).crewTask t then
    match s.crewVictim d p t with
    | some w => (allPos.map fun q => crewCore w q).filter fun m => (s.coreAt m).unit.isSome
    | none => []
  else match leastBy s.victimBefore ((s.ownCores d p).filter (s.isVictim t.prio.toNat)) with
    | some n => s.stopGroup n
    | none => []

/-- The core's unit has a pre-emption's boundary stop that is not urgent. -/
def State.softStop (s : State) (n : CoreId) : Bool :=
  match (s.coreAt n).unit with
  | some u => (match u.stop with | some q => decide (q.why = .preempt) && !q.urgent | none => false)
  | none => false

/-- The task asked after the stop of the core was posted, and its request was urgent (R345) (DEDUCED, log 38). -/
def State.urgentAfter (s : State) (d : DieId) (t : Task) (n : CoreId) : Bool :=
  match (s.coreAt n).unit.bind fun u => u.stop with
  | some q => decide (q.posted < t.since) && t.dline ≠ 0 &&
      decide ((t.dline.toNat : Int) - t.since - s.taskCost d t < (s.part t.part d).tb)
  | none => false

/-- The first candidates of a kind, one for each unit or each group, that as many pending stops serve. -/
def Die.servedBy (x : Die) (crew : Bool) (k : Nat) (l : List Task) : List Task :=
  ((l.filter fun t => decide (x.crewTask t = crew)).flatMap fun t => List.replicate (if crew then t.groups else t.pending) t).take k

/-- The cores whose pending boundary stop an urgent request has picked as its victim: the first candidates are served by the pending stops, and more
of them are urgent than stops are (R344, R345) (DEDUCED, log 38). -/
def State.hurried (s : State) (d : DieId) (p : Fin 32) : List CoreId :=
  let v := s.serving d p
  let soft := v.cores.filter s.softStop
  let softCrews := v.crews.filter fun w => (allPos.map (crewCore w)).any s.softStop
  let one := match leastBy s.victimBefore soft with
    | none => []
    | some n =>
      let urgent := ((s.die d).servedBy false v.cores.length (s.ready d p)).filter fun t => s.urgentAfter d t n
      if v.cores.length - soft.length < urgent.length then s.stopGroup n else []
  let crew := match softCrews with
    | [] => []
    | w :: _ =>
      let cores := (allPos.map (crewCore w)).filter s.softStop
      let urgent := ((s.die d).servedBy true v.crews.length (s.ready d p)).filter fun t => cores.any fun n => s.urgentAfter d t n
      if v.crews.length - softCrews.length < urgent.length then cores else []
  one ++ crew

/-- PREEMPT_REQUEST (R344, R345): the stops are posted, and a crew that a crew candidate has vacated is kept for it (DEDUCED, log 38). -/
def State.preempt (s : State) (d : DieId) (p : Fin 32) : State :=
  let s := (s.hurried d p).foldl (fun s n => s.makeUrgent n) s
  match s.preemptFor d p with
  | none => s
  | some t =>
    let gathers := if (s.die d).crewTask t then (s.crewVictim d p t).toList else []
    ((s.victims d p t).foldl (fun s n => s.postStop n .preempt (s.urgentFor d t)) s).modDie d fun x =>
      { x with gathers := (x.gathers.filter fun w => s.stopping w && !gathers.contains w) ++ gathers }

/-- PREEMPT_REQUEST (R330, R344, R345, R347). -/
def execPreemptRequest (d : DieId) (p : Fin 32) (s : State) : Host.Outcome State Fault Refusal := .next (s.preempt d p)

/-- The unit's stop, with its partition's boundary allowance. -/
def State.stopOf (s : State) (n : CoreId) : Option (Stop × Nat) :=
  match (s.coreAt n).unit with
  | some u => u.stop.map fun q => (q, (s.part u.part (dieOf n)).tb)
  | none => none

/-- A boundary stop has stood for Tb (R345, R405). -/
def State.stopLate (s : State) (n : CoreId) : Bool :=
  match s.stopOf n with
  | some (q, tb) => !q.urgent && decide (q.why ≠ .cancel) && (s.coreAt n).frozen.isNone && decide (q.posted + tb ≤ (s.die (dieOf n)).time)
  | none => false

/-- BOUNDARY_STOP_TIMEOUT (R345, R405). -/
def execBoundaryStopTimeout (n : CoreId) (s : State) : Host.Outcome State Fault Refusal := .next (if s.stopLate n then s.makeUrgent n else s)

/-- A cancel has stood for Tb (R13). -/
def State.cancelLate (s : State) (n : CoreId) : Bool :=
  match s.stopOf n with
  | some (q, tb) => decide (q.why = .cancel) && decide (q.posted + tb ≤ (s.die (dieOf n)).time)
  | none => false

/-- CANCEL_TIMEOUT (R13): the unit is removed, nothing is saved. -/
def execCancelTimeout (n : CoreId) (s : State) : Host.Outcome State Fault Refusal := .next (if s.cancelLate n then s.leaveUnit n true false 0 else s)

/-- An urgent stop freezes the seats at the end of this clock: no loop is under way, or 640 clocks have passed (R42, R346). -/
def State.urgentDue (s : State) (n : CoreId) : Bool :=
  let c := s.coreAt n
  match s.stopOf n with
  | some (q, _) => q.urgent && c.handler.isNone && c.frozen.isNone && s.atEdge n && c.ctx.firstCause.isNone &&
      (decide (640 ≤ q.clks) || [SeatId.c, .a, .v, .m].all fun k => (c.ctx.seat k).body.isNone)
  | none => false

/-- Loops that the 640th clock finds in their epilogue (R42). -/
def Ctx.cutLoops (x : Ctx) : Ctx :=
  [SeatId.c, .a, .v, .m].foldl (fun x k => match (x.seat k).body with
    | some lp => x.modSeat k fun t => { t with loop := some { lp with lepi := true, lmid := true } }
    | none => x) x

/-- URGENT_STOP_FREEZE (R42, R346, R370): the seats freeze and the unit's copies are asked to suspend; a cancelled unit leaves. -/
def State.urgentFreeze (s : State) (n : CoreId) : State :=
  match s.urgentDue n, (s.coreAt n).unit with
  | true, some u =>
    match u.stop with
    | none => s
    | some q =>
      if q.why = .cancel then s.leaveUnit n true false 0
      else ((s.withdrawAwait n).modCore n fun c =>
        { c with frozen := some (.stopped q.why false), hold := false, ctx := c.ctx.cutLoops.atFreeze,
                 copies := c.copies.map fun k => if k.owner = u.serial then { k with frozen := true } else k }).count n 35 1
  | _, _ => s

/-- URGENT_STOP_FREEZE (R42, R346, R370). -/
def execUrgentStopFreeze (n : CoreId) (s : State) : Host.Outcome State Fault Refusal := .next (s.urgentFreeze n)

/-! ## Save and restore (R346, R363, R364) -/

/-- The core without its unit, whose context stands elsewhere. -/
def Core.emptied (c : Core) : Core :=
  { c with
    unit := none, hold := false, efq := [], pats := Vector.replicate 4 none, mcast := none
    ctx := { c.ctx with
      seats := c.ctx.seats.map fun t => { t with act := false, cause := none, loop := none, strk := false, dslots := 0, dtaken := false }
      inflight := [], park := none, await := none, shape := none, eng := c.ctx.eng.atExit } }

/-- The held unit that stands on a frozen core. -/
def Core.toHeld (c : Core) (u : UnitInfo) : Held :=
  { unit := { u with stop := none }, ctx := c.ctx, pats := c.pats, mcast := c.mcast, bad := false }

/-- The unit on the core is stopped for a reason. -/
def Core.stoppedFor (c : Core) (why : StopWhy) : Bool :=
  c.unit.isSome && (match c.frozen with | some (.stopped w _) => decide (w = why) | _ => false)

/-- The unit of one core goes to the shadow; a unit cancelled meanwhile leaves (DEDUCED, log 15). -/
def State.saveOne (s : State) (n : CoreId) : State :=
  match (s.coreAt n).unit with
  | none => s
  | some u =>
    if u.cancelPending then s.leaveUnit n true false 0
    else ((s.landReserved n).traceUnit n u 6 0).modCore n fun c => let k : Core := { c with held := some (c.toHeld u), heldq := c.efq }; k.emptied

/-- CONTEXT_SAVE (R346, R363): the unit goes to the shadow and the core is free for the candidate; the units of a crew launch go together (R255)
(DEDUCED, log 15). -/
def State.contextSave (s : State) (n : CoreId) : State :=
  let group := s.stopGroup n
  if group.all fun m => (s.coreAt m).stoppedFor .preempt && (s.coreAt m).held.isNone then group.foldl (fun s m => s.saveOne m) s else s

/-- CONTEXT_SAVE (R346, R363). -/
def execContextSave (n : CoreId) (s : State) : Host.Outcome State Fault Refusal := .next (s.contextSave n)

/-- The cores that hold the units of one crew launch, or the one core (R255). -/
def State.heldGroup (s : State) (n : CoreId) (h : Held) : List CoreId :=
  if !h.unit.crew then [n]
  else (allPos.map fun p => crewCore (crewOf n) p).filter fun m => match (s.coreAt m).held with
    | some k => k.unit.crew && decide (k.unit.lid = h.unit.lid)
    | none => false

/-- The core's held unit may go on: the core takes it by rule 1, and no load whose landing clock has come lacks its data (R57, R330, R364). -/
def State.heldReady (s : State) (n : CoreId) : Bool :=
  match (s.coreAt n).held with
  | some h => s.coreFree n && s.heldFirst n && !h.ctx.mustHold
  | none => false

/-- The held unit may go on, with those that it was saved with. -/
def State.restoreDue (s : State) (n : CoreId) : Bool :=
  match (s.coreAt n).held with
  | some h => (s.heldGroup n h).all s.heldReady
  | none => false

/-- A stopped unit's ring reservations that a full ring held are made again (R333). -/
def Core.reissue (c : Core) (serial : Nat) : Core :=
  { c with ops := c.ops.map fun o => match o.kind with
      | .rgres _ _ => if o.owner = serial then { o with done := [] } else o
      | _ => o }

/-- The unit of one core comes back from the shadow; an uncorrectable error in the shadow cancels it with status 3 (DEDUCED, log 15). -/
def State.restoreOne (s : State) (n : CoreId) : State :=
  match (s.coreAt n).held with
  | none => s
  | some h =>
    if h.bad then
      s.modCore n fun c => { c with held := none, heldq := [], frozen := none,
                                    leaving := c.leaving ++ [{ unit := h.unit, cancelled := true, fault := true, status := 3 }] }
    else
      let s := s.modCore n fun c =>
        let k : Core := { c with unit := some h.unit, ctx := h.ctx, pats := h.pats, mcast := h.mcast, held := none, efq := c.heldq, heldq := [],
                                 frozen := none, hold := false }
        k.reissue h.unit.serial
      (s.resumePreempted n h.unit.serial).traceUnit n h.unit 3 0

/-! ## Slices (R404 to R406) -/

def State.modShared (s : State) (w : CrewId) (f : Shared → Shared) : State := { s with shared := s.shared.map fun h => if h.crew = w then f h else h }

/-- The running slice's account up to now: each ns at a clock step of f MHz adds (1,050 − f) / 1,050 ns (R406). -/
def Shared.settle (h : Shared) (now mhz : Nat) : Shared :=
  if h.switching then { h with mark := now }
  else { h with mark := now, members := h.members.mapIdx fun i m => if i = h.cur then (m.1, m.2.1, m.2.2 + (now - h.mark) * (1050 - mhz)) else m }

/-- The running slices' accounts of a die are settled, at a slice end and before a clock step changes. -/
def State.settleSlices (s : State) (d : DieId) : State :=
  { s with shared := s.shared.map fun h => if crewDie h.crew = d then h.settle (s.die d).time (stepMHz (s.die d).clkStep) else h }

def State.sliceOver (s : State) (w : CrewId) : Bool :=
  match s.sharedOf w with
  | some h => !h.switching && decide (h.ends ≤ (s.die (crewDie w)).time)
  | none => false

/-- SLICE_END (R404, R405): no new unit, and a boundary stop for each running one. -/
def State.sliceEnd (s : State) (w : CrewId) : State :=
  if !s.sliceOver w then s
  else
    let s := (s.settleSlices (crewDie w)).modShared w fun h => { h with switching := true }
    allPos.foldl (fun s p => let n := crewCore w p; if (s.coreAt n).unit.isSome then s.postStop n .slice false else s) s

/-- SLICE_END (R404, R405). -/
def execSliceEnd (w : CrewId) (s : State) : Host.Outcome State Fault Refusal := .next (s.sliceEnd w)

/-- The core has no unit of the outgoing partition that still runs. -/
def Core.sliceIdle (c : Core) : Bool := c.unit.isNone || c.stoppedFor .slice

/-- The place of a core in a partition's swap area (R405). -/
def State.swapBase (s : State) (n : CoreId) (p : Fin 32) : Nat := hbmBase (dieOf n) + (s.part p (dieOf n)).swap.toNat + 0x40000 * dieCore n

/-- A core's image goes to its partition's swap area (R405): 230 KiB at its core's place, which holds one image; of a core with a held unit and a running one the
device keeps the first (DEDUCED, log 46). -/
def State.swapOut (s : State) (n : CoreId) : State :=
  let s := s.landReserved n
  let c := s.coreAt n
  let put (s : State) (h : Held) (q : List EFault) : State :=
    let base := s.swapBase n h.unit.part
    let bytes := (List.range 29440).flatMap fun i => leBytes (h.ctx.shadowDw none false false 0 i).toNat 8
    let s := s.homeStore base bytes
    s.modCore n fun c => { c with images := (c.images.map fun x => if x.part = h.unit.part then { x with wrote := none } else x) ++
      [{ part := h.unit.part, held := h, wrote := some h.ctx, efq := q }] }
  let s := match c.held with
    | some h => (put s h c.heldq).modCore n fun c => { c with held := none, heldq := [] }
    | none => s
  match c.unit with
  | some u =>
    if u.cancelPending then s.leaveUnit n true false 0
    else ((put (s.traceUnit n u 6 0) (c.toHeld u) c.efq).modCore n Core.emptied).modCore n fun c => { c with frozen := none }
  | none => s.modCore n fun c => { c with frozen := if c.vacated then none else c.frozen }

/-- A held context as the doublewords of its image read now: one that differs from what was written is taken over, and what has landed since stays (R353, R363,
R405) (DEDUCED, log 46). -/
def State.readImage (s : State) (base : Nat) (wrote x : Ctx) : Ctx :=
  (List.range 29440).foldl (fun y i =>
    let v : Dw := BitVec.ofNat 64 (s.valueAt (base + 8 * i) 8)
    if v = wrote.shadowDw none false false 0 i then y else y.setShadowDw none i v) x

/-- The image of a partition on a core comes from its swap area to the shadow (R405) (DEDUCED, log 46). -/
def State.swapIn (s : State) (n : CoreId) (p : Fin 32) : State :=
  let base := s.swapBase n p
  s.modCore n fun c =>
    if c.held.isSome then c
    else match c.images.find? fun x => decide (x.part = p) with
      | some x => { c with held := some { x.held with ctx := (x.wrote.map fun w => s.readImage base w x.held.ctx).getD x.held.ctx }, heldq := x.efq, images := c.images.erase x }
      | none => c

/-- CONTEXT_RESTORE (R362, R363, R364): the units of a crew launch come back together (R255); a second image of the partition
on the core then comes to the shadow (R405) (DEDUCED, log 15) (DEDUCED, log 46). -/
def State.contextRestore (s : State) (n : CoreId) : State :=
  match s.restoreDue n, (s.coreAt n).held with
  | true, some h => (s.heldGroup n h).foldl (fun s m => (s.restoreOne m).swapIn m h.unit.part) s
  | _, _ => s

/-- CONTEXT_RESTORE (R330, R346, R362 to R364). -/
def execContextRestore (n : CoreId) (s : State) : Host.Outcome State Fault Refusal := .next (s.contextRestore n)

def State.switchDue (s : State) (w : CrewId) : Bool :=
  match s.sharedOf w with
  | some h => h.switching && allPos.all fun p => (s.coreAt (crewCore w p)).sliceIdle
  | none => false

/-- SLICE_SWITCH (R405, R406): the images change, and the next partition's slice begins with the length its account gives it. -/
def State.sliceSwitch (s : State) (w : CrewId) : State :=
  match s.switchDue w, s.sharedOf w with
  | true, some h =>
    let now := (s.die (crewDie w)).time
    let nxt := if h.members.length = 0 then 0 else (h.cur + 1) % h.members.length
    match h.members[nxt]? with
    | none => s
    | some (p, len, acct) =>
      let s := allPos.foldl (fun s q => (s.swapOut (crewCore w q)).swapIn (crewCore w q) p) s
      s.modShared w fun h =>
        { h with cur := nxt, switching := false, mark := now, ends := now + len + min (acct / 1050) (len / 4),
                 members := h.members.mapIdx fun i m => if i = nxt then (p, len, 0) else m }
  | _, _ => s

/-- SLICE_SWITCH (R405, R406). -/
def execSliceSwitch (w : CrewId) (s : State) : Host.Outcome State Fault Refusal := .next (s.sliceSwitch w)

/-! ## Ring segments (R332, R333) -/

/-- The place of a free piece of a segment pool: the lowest that holds it (DEDUCED, log 45). -/
def poolPlace (used : List (Nat × Nat)) (size len : Nat) : Option Nat :=
  let starts := 0 :: used.map fun u => u.1 + u.2
  let free := starts.filter fun a => decide (a % 64 = 0) && decide (a + len ≤ size) && used.all fun u => !overlaps a len u.1 u.2
  leastBy (fun a b => decide (a < b)) free

/-- A full ring that holds an operation of a core, or its service request: the header, the m of its trap, and the context and partition that reach it (R193,
R361). -/
structure FullRing where
  hdr : Nat
  m : Nat
  ctx : Fin 64
  part : Fin 32
  op : Option MemOp

def State.fullRing (s : State) (n : CoreId) : Option FullRing :=
  let c := s.coreAt n
  let service : Option FullRing := match c.handler with
    | some h => match h.req with
      | some (.svfull _ m) => (s.svTr n needRw (s.contextOf n (s.ctxOn n)).svring 64).place.map fun hdr =>
          { hdr := hdr, m := m, ctx := s.ctxOn n, part := s.partOn n, op := none }
      | _ => none
    | none => none
  match c.ops.findSome? fun o => match o.kind, o.done with
    | .rgres hdr _, m :: _ => if c.savedOwner o then none else some { hdr := hdr, m := m, ctx := c.ownerCtxNum o.owner, part := c.ownerPart o.owner, op := some o }
    | _, _ => none with
  | some f => some f
  | none => service

/-- The old segment goes: the linked one takes its place (R333, step 2). -/
def State.retireSegment (s : State) (k : SegLink) : State :=
  let h := s.recAt k.hdr
  let old := recU h 64 64
  let d := dieOf k.core
  let s := { s with links := s.links.erase k }
  let s := ((s.homeStore (k.hdr + 8) (leBytes (recU h 256 64) 8)).homeStore (k.hdr + 16) (leBytes (recU h 320 8) 1)).homeStore (k.hdr + 32) (leBytes 0 32)
  s.modPart k.part d fun p => { p with segUsed := p.segUsed.filter fun u => decide (u.1 + p.segBase.toNat ≠ old) }

/-- A full ring for which no segment can be linked: the supervisor receives "ring starved" once, on the A seat of the unit that holds (R333, R348)
(DEDUCED, log 45). -/
def State.ringStarved (s : State) (n : CoreId) (o : MemOp) : State :=
  let c := s.coreAt n
  let mine := match c.unit with | some u => decide (u.serial = o.owner) | none => false
  if !mine || c.handler.isSome || c.frozen.isSome || (c.ctx.seat .a).cause.isSome || decide (2 ≤ o.done.length) || !s.atEdge n then s
  else ((s.modOp n o.id fun o => { o with done := o.done ++ [1] }).raise n .a .ringStarved 0 o.pc true)

/-- RING_SEGMENT_LINK (R333): the policy core serves the full-ring trap of a core (DEDUCED, log 45). -/
def State.segmentLink (s : State) (n : CoreId) : State :=
  match s.fullRing n with
  | none => s
  | some f =>
    let hdr := f.hdr
    let h := s.recAt hdr
    let p := f.part
    let d := dieOf n
    let starved := match f.op with | some o => s.ringStarved n o | none => s
    if recU h 256 64 ≠ 0 then
      match s.links.find? fun k => decide (k.hdr = hdr) with
      | some k => if recU h 384 64 ≤ f.m then s.retireSegment k else starved
      | none => starved
    else
      let ls := recU h 128 8 + 1
      let len := 2 ^ ls * (16 * recU h 136 16)
      let pd := s.part p d
      match (if 24 < ls then none else poolPlace pd.segUsed pd.segSize len) with
      | none => starved
      | some off =>
        let at_ := pd.segBase.toNat + off
        let s := s.modPart p d fun x => { x with segUsed := x.segUsed ++ [(off, len)] }
        let link : SegLink := { hdr := hdr, core := n, ctx := f.ctx, part := p }
        let s := { s with links := s.links ++ [link] }.homeStore (hbmBase d + at_) (List.replicate len 0)
        s.homeStore (hdr + 32) (leBytes at_ 8 ++ leBytes ls 8 ++ leBytes (recU h 0 64) 8)

/-- RING_SEGMENT_LINK (R332, R333). -/
def execRingSegmentLink (n : CoreId) (s : State) : Host.Outcome State Fault Refusal := .next (s.segmentLink n)

/-- The smallest cursor of a linked ring, none where one cannot be read. -/
def State.linkCursor (s : State) (k : SegLink) : Option Nat :=
  let h := s.recAt k.hdr
  (List.range (recU h 216 7)).foldl (fun m j => match m with
    | none => none
    | some v => match translateNow s k.core k.ctx k.part false needRd false (cursorVa h j) 8 with
      | .ok pa => some (min v (s.valueAt pa 8))
      | _ => none) (some (2 ^ 64 - 1))

/-- The k-th linked ring has its old segment read to the end. -/
def State.segmentDue (s : State) (k : Nat) : Option SegLink :=
  match s.links[k]? with
  | none => none
  | some l => match s.linkCursor l with
    | some m => if recU (s.recAt l.hdr) 384 64 ≤ m then some l else none
    | none => none

/-- RING_SEGMENT_POLL (R333, step 2). -/
def execRingSegmentPoll (k : Nat) (s : State) : Host.Outcome State Fault Refusal :=
  .next (match s.segmentDue k with | some l => s.retireSegment l | none => s)

end Sys2Proof.Machine
end

