-- ==== Sys2Proof/Machine/Partition.lean ====
section
/-! DEFINITION. Partitions and their reconfiguration (R399 to R410), the mailbox (R407), sessions (R412, R413), and the wheel of a memory channel
(R402). -/

namespace Sys2Proof.Machine

open Sys2Proof

/-! ## The mailbox (R407) -/

/-- MBOXOUT is written: MSI-X vector 0 of function 0 rises (R321) (DEDUCED, log 49) (DESIGN CHOICE, log 56). -/
def State.mboxAnswer (s : State) (d : DieId) (code status index reason : Nat) : State :=
  (s.modDie d fun x => { x with mboxout := BitVec.ofNat 64 (code + status * 2 ^ 6 + index * 2 ^ 8 + reason * 2 ^ 16), mboxst := 2 }).outp (.msix d 0 0)

/-- The policy core of the die still handles an earlier request (DEDUCED, log 49). -/
def State.mboxBusy (s : State) (d : DieId) : Bool :=
  match s.reconf with
  | some r => decide (r.die = d)
  | none => false

/-- A start has released the policy core and hangs after it (R391). -/
def State.policyUp (s : State) (d : DieId) : Bool :=
  (match (s.die d).start with | .starting _ _ => true | _ => false) && (s.die d).hstat.getLsbD 1

/-- The policy core runs and the host reaches the die. -/
def State.policyRuns (s : State) (d : DieId) : Bool := (decide ((s.die d).start = .running) || s.policyUp d) && !(s.die d).linkDown

/-- MBOXIN as the host has written it and the policy core has read it. -/
def State.mboxIn (s : State) (d : DieId) (v : Dw) : State := s.modDie d fun x => { x with mboxin := v, mboxst := x.mboxst &&& 2 }

/-- A request that the host writes to MBOXIN: a policy core that does not run leaves it unread (R321). -/
def State.mboxTake (s : State) (d : DieId) (v : Dw) (mine : Bool) (t : State → State) : State :=
  if !mine || decide ((s.die d).start = .off) || (s.die d).linkDown then s
  else if s.policyRuns d then t (s.mboxIn d v)
  else s.modDie d fun x => { x with mboxin := v, mboxst := x.mboxst ||| 1 }

/-- The place of a list or a record in host memory: bits [63:6] of the request. -/
def hostPa (v : Dw) : Nat := hostBase + v.toNat / 64 * 64

/-! ## One entry of a list (R408, R409) -/

/-- What the entries applied so far leave to be drained (R410). -/
structure ListState where
  s : State
  drain : Reconf
deriving DecidableEq, Repr

def maskBits (n m : Nat) : List Nat := (List.range n).filter fun i => m.testBit i

def allDies : List DieId := [.bow, .stern]

def allParts : List (Fin 32) := List.finRange 32

/-- A resource is owned by another partition of the die. -/
def State.otherOwns (s : State) (d : DieId) (p : Fin 32) (f : PartDie → Nat) (i : Nat) : Bool :=
  allParts.any fun q => decide (q ≠ p) && (f (s.part q d)).testBit i

/-- The partition still owns something on a die. -/
def PartDie.owns (x : PartDie) : Bool :=
  decide (x.crews ≠ 0) || decide (x.granules ≠ 0) || decide (x.contexts ≠ 0) || decide (x.queues ≠ 0) || decide (x.share ≠ 0) ||
  x.bands.toList.any bandHeld

/-- Its crew on the die, by number. -/
def crewAt_ (d : DieId) (i : Nat) : CrewId := ⟨(d.toNat * 44 + i) % 88, Nat.mod_lt _ (by decide)⟩

def State.addShared (s : State) (w : CrewId) (p : Fin 32) (len : Nat) : State :=
  let now := (s.die (crewDie w)).time
  match s.sharedOf w with
  | none => { s with shared := s.shared ++ [{ crew := w, members := [(p, len, 0)], cur := 0, ends := now + len, switching := false, mark := now }] }
  | some h =>
    if h.members.any fun m => decide (m.1 = p) then
      s.modShared w fun h => { h with members := h.members.map fun m => if m.1 = p then (p, len, m.2.2) else m }
    else
      let before := h.members.filter fun m => decide (m.1.val < p.val)
      let after := h.members.filter fun m => decide (p.val < m.1.val)
      s.modShared w fun h =>
        { h with members := before ++ (p, len, 0) :: after, cur := if before.length ≤ h.cur then h.cur + 1 else h.cur }

/-- The crew is shared no longer. -/
def State.dropShared (s : State) (w : CrewId) : State := { s with shared := s.shared.filter fun h => decide (h.crew ≠ w) }

/-- The admission ceiling holds what is admitted (R340). -/
def State.ceilingFits (s : State) (d : DieId) (p : Fin 32) (c : Nat) : Bool := coxFits (s.coxMhz d) c (s.coxOf d p)

/-- The floors of a channel. -/
def State.floorSum (s : State) (d : DieId) (ch : Fin 112) : Nat := (allParts.map fun p => (((s.part p d).bands.get ch).extractLsb' 0 7).toNat).sum

/-- A band inside its fields' ranges (R401). -/
def bandFields (b : Dw) : Bool :=
  decide ((b.extractLsb' 0 7).toNat ≤ 64) && decide ((b.extractLsb' 16 11).toNat ≤ 1024) && !b.getLsbD 7 && decide (b.extractLsb' 27 5 = 0) &&
  decide (b.extractLsb' 48 16 = 0)

/-- The band's own rule (R401). -/
def bandOk (b : Dw) : Bool :=
  !bandHeld b ||
  (decide (16 * (b.extractLsb' 0 7).toNat ≤ (b.extractLsb' 16 11).toNat) && decide (b.extractLsb' 32 16 ≠ 0) && decide (b.extractLsb' 8 8 ≠ 0))

/-- Grant by a mask of a resource of the die. -/
def State.grantMask (s : State) (d : DieId) (p : Fin 32) (n m : Nat) (f : PartDie → Nat) (g : PartDie → Nat → PartDie) : Except Nat State :=
  if (maskBits n m).any (s.otherOwns d p f) then .error 2 else .ok (s.modPart p d fun x => g x (f x ||| m))

def State.revokeMask (s : State) (d : DieId) (p : Fin 32) (n m : Nat) (f : PartDie → Nat) (g : PartDie → Nat → PartDie) : Except Nat State :=
  if (maskBits n m).any (fun i => !(f (s.part p d)).testBit i) then .error 2
  else .ok (s.modPart p d fun x => g x ((maskBits n (f x)).foldl (fun a i => if m.testBit i then a else a + 2 ^ i) 0))

def setCrews (x : PartDie) (m : Nat) : PartDie := { x with crews := BitVec.ofNat 44 m }
def setGranules (x : PartDie) (m : Nat) : PartDie := { x with granules := BitVec.ofNat 64 m }
def setContexts (x : PartDie) (m : Nat) : PartDie := { x with contexts := BitVec.ofNat 64 m }
def setQueues (x : PartDie) (m : Nat) : PartDie := { x with queues := BitVec.ofNat 64 m }

def State.sharedBy (s : State) (w : CrewId) (p : Fin 32) : Bool :=
  match s.sharedOf w with
  | some h => h.members.any fun m => decide (m.1 = p)
  | none => false

/-- Ops 1 and 2: create and destroy. -/
def ListState.exists_ (l : ListState) (create : Bool) (p : Fin 32) : Except Nat ListState :=
  let put (x : Partition) : ListState := { l with s := { l.s with parts := l.s.parts.set p x } }
  let was := (l.s.parts.get p).exist
  if create then
    if was then .error 2 else .ok (put { exist := true, bow := PartDie.reset, stern := PartDie.reset })
  else if !was then .error 2
  else if (allDies.any fun d => (l.s.part p d).owns) || (l.s.shared.any fun h => h.members.any fun m => decide (m.1 = p)) then .error 7
  else .ok (put { exist := false, bow := PartDie.reset, stern := PartDie.reset })

/-- Ops 3 to 5: owned and shared crews. A grant names a crew that no other partition owns, and ends its sharing; a revoke names an owned one (R408, R409). A
crew that changes hands or comes to be shared stops what may not run there any longer (R404, R410). -/
def ListState.crews (l : ListState) (op : Nat) (p : Fin 32) (d : DieId) (a b : Nat) : Except Nat ListState :=
  let s := l.s
  let ws := (maskBits 44 a).map (crewAt_ d)
  let crewsOf (x : PartDie) : Nat := x.crews.toNat
  if op = 3 then
    if 2 ^ 44 ≤ a then .error 1
    else
      let was := ws.filter fun w => (s.sharedOf w).isSome
      (s.grantMask d p 44 a crewsOf setCrews).map fun s =>
        { l with s := was.foldl (fun s w => s.dropShared w) s, drain := { l.drain with crews := l.drain.crews ++ was } }
  else if op = 4 then
    if 2 ^ 44 ≤ a then .error 1
    else (s.revokeMask d p 44 a crewsOf setCrews).map fun s => { l with s := s, drain := { l.drain with crews := l.drain.crews ++ ws } }
  else
    let w := crewAt_ d a
    if 44 ≤ a ∨ b < 100000 ∨ 100000000 < b then .error 1
    else if s.otherOwns d p crewsOf a then .error 2
    else if (match s.sharedOf w with | some h => decide (8 ≤ h.members.length) | none => false) && !s.sharedBy w p then .error 2
    else
      let s := s.modPart p d fun x => setCrews x ((maskBits 44 x.crews.toNat).foldl (fun t i => if i = a then t else t + 2 ^ i) 0)
      .ok { l with s := s.addShared w p b, drain := { l.drain with crews := l.drain.crews ++ [w] } }

/-- Ops 6 to 11: granules, contexts and endpoint queues. A granule that this list has revoked is zeroed before another partition may be granted it, so that such a
grant finds it busy (R410) (DEDUCED, log 48); back to its own partition it goes as it is. -/
def ListState.masks (l : ListState) (op : Nat) (p : Fin 32) (d : DieId) (a : Nat) : Except Nat ListState :=
  let s := l.s
  let put (s : State) : ListState := { l with s := s }
  let gone : List (DieId × Fin 64) := (maskBits 64 a).map fun i => (d, Fin.ofNat 64 i)
  let lost : List (DieId × Fin 64 × Fin 32) := gone.map fun x => (x.1, x.2, p)
  let gr (x : PartDie) : Nat := x.granules.toNat
  let cx (x : PartDie) : Nat := x.contexts.toNat
  let qs (x : PartDie) : Nat := x.queues.toNat
  match op with
  | 6 =>
    if l.drain.granules.any fun x => decide (x.1 = d) && a.testBit x.2.1.val && decide (x.2.2 ≠ p) then .error 7
    else (s.grantMask d p 64 a gr setGranules).map fun s =>
      { l with s := s, drain := { l.drain with granules := l.drain.granules.filter fun x => !(decide (x.1 = d) && a.testBit x.2.1.val) } }
  | 7 => (s.revokeMask d p 64 a gr setGranules).map fun s => { l with s := s, drain := { l.drain with granules := l.drain.granules ++ lost } }
  | 8 => (s.grantMask d p 64 a cx setContexts).map put
  | 9 => (s.revokeMask d p 64 a cx setContexts).map fun s => { l with s := s, drain := { l.drain with contexts := l.drain.contexts ++ lost } }
  | 10 => (s.grantMask d p 64 a qs setQueues).map put
  | _ => (s.revokeMask d p 64 a qs setQueues).map fun s => { l with s := s, drain := { l.drain with queues := l.drain.queues ++ gone } }

/-- 256 KiB for each core of a die (R405). -/
def swapBytes : Nat := 176 * 2 ^ 18

/-- Ops 12 to 18: bands and the other settings (DEDUCED, log 48). -/
def ListState.settings (l : ListState) (op : Nat) (p : Fin 32) (d : DieId) (a b : Dw) : Except Nat ListState :=
  let s := l.s
  let n := a.toNat
  let put (f : PartDie → PartDie) : ListState := { l with s := s.modPart p d f }
  match op with
  | 12 =>
    if h : n < 112 then
      if !bandFields b then .error 1
      else if !bandOk b then .error 4
      else
        let l' := put fun x => { x with bands := x.bands.set n b h }
        if 64 < l'.s.floorSum d ⟨n, h⟩ then .error 3 else .ok l'
    else .error 1
  | 13 =>
    if 65536 < n then .error 1
    else
      let l' := put fun x => { x with share := n }
      if 65536 < (allParts.map fun q => (l'.s.part q d).share).sum then .error 5 else .ok l'
  | 14 =>
    if 65536 < n then .error 1
    else if !s.ceilingFits d p n then .error 6
    else .ok (put fun x => { x with ceiling := n })
  | 15 => if n < 1 ∨ 1000 < n then .error 1 else .ok (put fun x => { x with tb := n * 1000 })
  | 16 =>
    let w : Vector Nat 12 := Vector.ofFn fun v => if v.val < 8 then (a.extractLsb' (8 * v.val) 8).toNat else (b.extractLsb' (8 * (v.val - 8)) 8).toNat
    if 2 ^ 32 ≤ b.toNat ∨ w.toList.any (fun v => decide (v = 0)) then .error 1 else .ok (put fun x => { x with weights := w })
  | 17 =>
    if n % 65536 ≠ 0 ∨ hbmSize < n + swapBytes then .error 1
    else if (List.finRange 352).any fun c => decide (dieOf c = d) && (s.coreAt c).images.any fun x => decide (x.part = p) then .error 7
    else .ok (put fun x => { x with swap := a })
  | _ =>
    if n % 4096 ≠ 0 ∨ b.toNat % 4096 ≠ 0 ∨ 2 ^ 32 < b.toNat ∨ hbmSize < n + b.toNat then .error 1
    else if (s.part p d).segUsed ≠ [] then .error 7
    else .ok (put fun x => { x with segBase := a, segSize := b.toNat })

/-- One entry against the state that the entries before it leave (R408, R409); the error is the reason of R407 (DEDUCED, log 48). -/
def ListState.entry (l : ListState) (e : BitVec 256) : Except Nat ListState :=
  let op := (e.extractLsb' 0 8).toNat
  let p : Fin 32 := (e.extractLsb' 8 5).toFin
  let d : DieId := if e.getLsbD 13 then .stern else .bow
  let a : Dw := e.extractLsb' 64 64
  let b : Dw := e.extractLsb' 128 64
  if e.extractLsb' 14 50 ≠ 0 ∨ e.extractLsb' 192 64 ≠ 0 ∨ op = 0 ∨ 18 < op then .error 1
  else if op ≤ 2 then l.exists_ (op = 1) p
  else if !(l.s.parts.get p).exist then .error 2
  else if op ≤ 5 then l.crews op p d a.toNat b.toNat
  else if op ≤ 11 then l.masks op p d a.toNat
  else l.settings op p d a b

/-- The entries in their order; the first failing one with its reason (DEDUCED, log 48). -/
def ListState.run (l : ListState) (i : Nat) : List (BitVec 256) → Except (Nat × Nat) ListState
  | [] => .ok l
  | e :: r => match l.entry e with
    | .error q => .error (i, q)
    | .ok l' => l'.run (i + 1) r

/-! ## Sessions (R412, R413) -/

/-- A session closes: its streams' phases are cancelled, its streams and its sends end (R13, R413). -/
def State.closeSession (s : State) (d : DieId) (sid : Nat) : State :=
  match (s.die d).session? sid with
  | none => s
  | some z =>
    let mine (e : Nat) : Bool := decide (z.fstr = some e) || decide (z.sstr = some e)
    let ours (o : Option Nat) : Bool := match o.bind fun k => (s.die d).stream? k with | some k => mine k.e | none => false
    let s := ((s.die d).phases.filter fun p => ours p.stream).foldl (fun s p => s.cancelPhase d p.phid 1) s
    let s := s.modDie d.other fun x => { x with peers := x.peers.filter fun k => decide (k.sid ≠ sid) }
    (s.dropCox d fun k => mine k.e).modDie d fun x =>
      { x with queuedPh := x.queuedPh.map fun q => if ours q.stream then { q with kill := 1 } else q
               sessions := x.sessions.filter fun k => decide (k.sid ≠ sid)
               sends := x.sends.filter fun k => decide (k.sid ≠ sid) }

/-- Bits of a session record that carry fields: the software's and the session number (R412, R413). -/
def sessionMask : BitVec 512 :=
  BitVec.ofNat 512 (2 ^ 20 - 4) ||| (((1 <<< 52) - 1 : BitVec 512) <<< 128) ||| (((1 <<< 52) - 1 : BitVec 512) <<< 192) |||
  (((1 <<< 52) - 1 : BitVec 512) <<< 256) ||| (((1 <<< 164) - 1 : BitVec 512) <<< 320) ||| (((1 <<< 13) - 1 : BitVec 512) <<< 484)

/-- The slot in a field of the record; 0 in gslot for none. -/
def slotField (r : BitVec 512) (off : Nat) : Nat := 16 * recU r off 52

/-- A slot that the partition may name: one that a context of it made live. -/
def State.slotOwned (s : State) (p : Fin 32) (pa : Nat) : Bool := match s.slot? pa with | some t => decide (t.part = p) | none => false

/-- SESSION_OPEN (R413): the entry keeps the sequence that the other die has mirrored into it (DEDUCED, log 49). -/
def State.sessionOpen (s : State) (d : DieId) (v : Dw) : State :=
  s.mboxTake d v (decide (v.toNat % 64 = 0x22)) fun s =>
    if s.mboxBusy d then s.mboxAnswer d 0x22 2 0 0
    else
      let r := memReadRec s.mem (hostPa v)
      let sid := recU r 484 13
      let p : Fin 32 := (r.extractLsb' 3 5).toFin
      let ctx : Fin 64 := (r.extractLsb' 8 6).toFin
      let q : Fin 64 := (r.extractLsb' 14 6).toFin
      if r &&& ~~~sessionMask ≠ 0 ∨ ((s.die d).session? sid).isSome ∨ 2 ^ 56 < hostPa v + 64 then s.mboxAnswer d 0x22 1 0 1
      else if !((s.part p d).queues.getLsbD q.val && (s.part p d).contexts.getLsbD ctx.val && s.slotOwned p (slotField r 128) && s.slotOwned p (slotField r 192) &&
          (decide (slotField r 256 = 0) || s.slotOwned p (slotField r 256))) then s.mboxAnswer d 0x22 1 0 2
      else
        let z : Session :=
          { sid := sid, isOpen := true, prim := false, rod := r.getLsbD 2, part := p, ctx := ctx, epq := q, lastsent := (s.die d).lastSent sid, cseq := 0, fstr := none, sstr := none,
            fin := slotField r 128, sin := slotField r 192, gslot := slotField r 256, raddr := r.extractLsb' 320 128, rjob := r.extractLsb' 448 24,
            rpid := r.extractLsb' 472 12, err := false }
        (s.modDie d fun x => { x with sessions := (x.sessions.filter fun k => decide (k.sid ≠ sid)) ++ [z] }).mboxAnswer d 0x22 0 0 0

/-- SESSION_OPEN (R412, R413). -/
def execSessionOpen (d : DieId) (v : Dw) (s : State) : Host.Outcome State Fault Refusal := .next (s.sessionOpen d v)

/-- SESSION_CLOSE (R413). -/
def State.sessionClose (s : State) (d : DieId) (v : Dw) : State :=
  s.mboxTake d v (decide (v.toNat % 64 = 0x23)) fun s =>
    let sid := (v.extractLsb' 6 13).toNat
    if s.mboxBusy d then s.mboxAnswer d 0x23 2 0 0
    else if v.extractLsb' 19 45 ≠ 0 ∨ ((s.die d).session? sid).isNone then s.mboxAnswer d 0x23 1 0 1
    else (s.closeSession d sid).mboxAnswer d 0x23 0 0 0

/-- SESSION_CLOSE (R413). -/
def execSessionClose (d : DieId) (v : Dw) (s : State) : Host.Outcome State Fault Refusal := .next (s.sessionClose d v)

/-- MAILBOX_BAD_CODE (R407). -/
def State.mboxBad (s : State) (d : DieId) (v : Dw) : State :=
  let code := v.toNat % 64
  s.mboxTake d v (!(decide (code = 0x21) || decide (code = 0x22) || decide (code = 0x23))) fun s =>
    if s.mboxBusy d then s.mboxAnswer d code 2 0 0 else s.mboxAnswer d code 1 0xFF 1

/-- MAILBOX_BAD_CODE (R407). -/
def execMailboxBadCode (d : DieId) (v : Dw) (s : State) : Host.Outcome State Fault Refusal := .next (s.mboxBad d v)

/-! ## A list applied (R410) -/

/-- A launch of the phase is partly dispatched (R347). -/
def Die.partly (x : Die) (phid : Dw) : Bool :=
  x.tasks.any fun t => decide (t.phid = phid) && (match t.kind with | .launch _ _ _ _ next _ => decide (next ≠ 0) | _ => false)

/-- The tear-down of a context begins: what waits is cancelled, its streams go, and its phases end with status 2, or with status 1 where a launch is partly
dispatched (R347, R410). -/
def State.tearDown (s : State) (d : DieId) (ctx : Fin 64) : State :=
  let x := s.die d
  let s := (x.phases.filter fun p => decide (p.ctx = ctx)).foldl (fun s p => s.cancelPhase d p.phid (if x.partly p.phid then 1 else 2)) s
  let sids := (x.cox.filter fun k => decide (k.ctx = ctx)).filterMap fun k => if k.slow then none else k.sid
  let s := s.modDie d.other fun x => { x with peers := x.peers.filter fun k => !sids.contains k.sid }
  (s.dropCox d fun k => decide (k.ctx = ctx)).modDie d fun x =>
    { x with queuedPh := x.queuedPh.map fun q => if q.cmd.ctx = ctx then { q with kill := 2 } else q }

/-- The rings that are reached through a context: their reads fault from now on (R309, R322). -/
def State.failRings (s : State) (d : DieId) (ctx : Fin 64) : State :=
  (List.finRange 64).foldl (fun s r => if (s.ring d r).enabled && decide ((s.ring d r).ctx = ctx) then s.ringFail d r 3 else s) s

/-- The tear-down is done: nothing of the context stays. -/
def State.clearContext (s : State) (d : DieId) (ctx : Fin 64) : State :=
  (s.failRings d ctx).modDie d fun x =>
    { x with contexts := x.contexts.set ctx Context.reset
             walks := x.walks.filter fun w => decide (w.ctx ≠ ctx)
             tlb := x.tlb.filter fun t => decide (t.ctx ≠ ctx)
             kernels := x.kernels.filter fun k => decide (k.ctx ≠ ctx)
             graphs := x.graphs.filter fun k => decide (k.ctx ≠ ctx) }

/-- Cells outside a range of addresses. -/
def clearRange (m : List Host.Cell) (a n : Nat) : List Host.Cell := m.filter fun c => !(decide (a ≤ c.1) && decide (c.1 < a + n))

/-- The first byte of a granule. -/
def granuleBase (d : DieId) (g : Fin 64) : Nat := poolBase d + g.val * 2 ^ 20

/-- A place in a granule. -/
def inGranule (d : DieId) (g : Fin 64) (pa : Nat) : Bool := decide (granuleBase d g ≤ pa) && decide (pa < granuleBase d g + 2 ^ 20)

/-- The slots of a granule are live no longer: who waits at one looks at it again, and finds none (R75) (DEDUCED, log 48). -/
def State.dropSlots (s : State) (d : DieId) (g : Fin 64) : State :=
  let again (s : State) (w : Waiter) : State :=
    match w with
    | .await n => s.modCtx n fun x => { x with await := match x.await with | some (.await pa ph _ r) => some (.await pa ph true r) | w => w }
    | .copy n id => s.modCore n fun c => { c with copies := c.copies.map fun k => if k.id = id ∧ k.st = .waitSlot then { k with st := .polling } else k }
    | .cox e k => s.modDie e fun x => x.modCox k fun j => { j with polling := true }
    | _ => s
  let s := ((s.slots.filter fun t => inGranule d g t.pa).flatMap fun t => t.waiters).foldl again s
  { s with slots := s.slots.filter fun t => !inGranule d g t.pa }

/-- A revoked granule is zeroed (R410): its slots go, every byte is 0, and the writes, one to a block, count toward the regions they fall in (R71). -/
def State.zeroGranule (s : State) (d : DieId) (g : Fin 64) : State :=
  let a := granuleBase d g
  let s := (s.dropSlots d g).countDie d 43 16384
  let s := { s with mem := clearRange s.mem a (2 ^ 20), poison := s.poison.filter fun b => !inGranule d g b }.wakeLine a (2 ^ 20)
  s.slots.foldl (fun s t => ((List.range 16384).filter fun i => overlaps (a + 64 * i) 64 t.base (64 * t.len64)).foldl (fun s i => s.countWrite (a + 64 * i) 64 t) s) s

/-- No write that has been asked for before the list is still to come to the granule. -/
def State.granuleQuiet (s : State) (d : DieId) (g : Fin 64) : Bool :=
  (List.finRange 352).all fun n =>
    let c := s.coreAt n
    (c.ops.all fun o => !o.kind.places.any (inGranule d g)) && (c.copies.all fun k => k.loads.all fun x => x.chunk.all fun a => !inGranule d g a.pa) &&
    c.pats.toList.all fun p => match p with | some p => p.writes.all fun w => !inGranule d g w.1 | none => true

/-- Nothing works in the context any more: its phases have ended, and no core copies for it. -/
def State.contextQuiet (s : State) (d : DieId) (x : Fin 64) : Bool :=
  !((s.die d).phases.any fun p => decide (p.ctx = x)) && !((s.die d).queuedPh.any fun q => decide (q.cmd.ctx = x)) &&
  (List.finRange 352).all fun n => decide (dieOf n ≠ d) || ((s.coreAt n).copies.all fun k => decide (k.ctx ≠ x)) && (s.coreAt n).chains.all fun h => decide (h.ctx ≠ x)

/-- A revoked crew takes no new unit of the partition, and its running units drain as at a slice end. -/
def State.drainCrew (s : State) (w : CrewId) : State :=
  allPos.foldl (fun s p =>
    let n := crewCore w p
    match (s.coreAt n).unit with
    | some u => if s.mayStay w u then s else s.postStop n .slice false
    | none => s) s

/-- What takes effect when a list has passed (R410). -/
def State.applyDrain (s : State) (r : Reconf) : State :=
  let s := r.crews.foldl State.drainCrew s
  let s := r.contexts.foldl (fun s x => s.tearDown x.1 x.2.1) s
  r.queues.foldl (fun s x =>
    ((s.die x.1).sessions.filter fun z => z.isOpen && decide (z.epq = x.2)).foldl (fun s z => s.closeSession x.1 z.sid) s) s

/-- Held images of a partition come back to the crews that it owns (R405) (DEDUCED, log 46). -/
def State.swapInOwned (s : State) : State :=
  (List.finRange 352).foldl (fun s n =>
    if (s.coreAt n).images.isEmpty || (s.sharedOf (crewOf n)).isSome then s
    else match s.crewPart (crewOf n) with
      | some p => s.swapIn n p
      | none => s) s

/-- RECONFIGURE (R407 to R410): the list is read once, checked in order, and applied as one change. -/
def State.reconfigure (s : State) (d : DieId) (v : Dw) : State :=
  s.mboxTake d v (decide (v.toNat % 64 = 0x21)) fun s =>
    if s.reconf.isSome then s.mboxAnswer d 0x21 2 0 0
    else
      let pa := hostPa v
      let h := memReadRec s.mem pa
      let n := recU h 0 8
      if n = 0 ∨ 64 < n ∨ h.extractLsb' 8 504 ≠ 0 ∨ 2 ^ 56 < pa + 64 + 32 * n then s.mboxAnswer d 0x21 1 0xFF 1
      else
        let entries := (List.range n).map fun i => BitVec.ofNat 256 (leValue (memReadBytes s.mem (pa + 64 + 32 * i) 32))
        let l : ListState := { s := s, drain := { die := d, crews := [], contexts := [], granules := [], queues := [] } }
        match l.run 0 entries with
        | .error (i, q) => s.mboxAnswer d 0x21 1 i q
        | .ok l => ((({ l.s with reconf := some l.drain }).applyDrain l.drain).swapInOwned).installGranted s

/-- RECONFIGURE (R399, R401, R407 to R410). -/
def execReconfigure (d : DieId) (v : Dw) (s : State) : Host.Outcome State Fault Refusal := .next (s.reconfigure d v).fresh

/-- A unit on the core that may not use the crew any longer still runs. -/
def State.stillRuns (s : State) (n : CoreId) : Bool :=
  match (s.coreAt n).unit with
  | some u => !s.mayStay (crewOf n) u && !(s.coreAt n).stoppedFor .slice
  | none => false

/-- Every drain of the applied list has ended (R410). -/
def State.drained (s : State) : Option Reconf :=
  match s.reconf with
  | none => none
  | some r =>
    if (r.crews.all fun w => allPos.all fun p => !s.stillRuns (crewCore w p)) &&
       (r.contexts.all fun x => s.contextQuiet x.1 x.2.1) && (r.granules.all fun x => s.granuleQuiet x.1 x.2.1)
    then some r else none

/-- RECONFIG_DRAIN_DONE (R410): what was revoked is gone, a revoked granule zeroed, a context that the same list has granted again is installed, and MBOXOUT
reports status 0. -/
def State.drainDone (s : State) : State :=
  match s.drained with
  | none => s
  | some r =>
    let s := r.crews.foldl (fun s w => allPos.foldl (fun s p =>
      let n := crewCore w p
      match (s.coreAt n).unit, (s.coreAt n).held with
      | some u, _ => if s.mayStay w u then s else s.swapOut n
      | none, some h => if s.mayStay w h.unit then s else s.swapOut n
      | none, none => s) s) s
    let s := r.contexts.foldl (fun s x =>
      let s := s.clearContext x.1 x.2.1
      if s.contextOwned x.1 x.2.1 then s.installContext x.1 x.2.1 else s) s
    let s := r.granules.foldl (fun s x => s.zeroGranule x.1 x.2.1) s
    ({ s.swapInOwned with reconf := none }).mboxAnswer r.die 0x21 0 0 0

/-- RECONFIG_DRAIN_DONE (R410). -/
def execReconfigDrainDone (s : State) : Host.Outcome State Fault Refusal := .next s.drainDone.fresh

/-! ## The wheel of a channel (R402) -/

/-- Earned floor credits: floor per turn, capped. -/
def bandFloor (b : Dw) : Nat := (b.extractLsb' 0 7).toNat
def bandWeight (b : Dw) : Nat := (b.extractLsb' 8 8).toNat
def bandCeil (b : Dw) : Nat := (b.extractLsb' 16 11).toNat
def bandBurst (b : Dw) : Nat := (b.extractLsb' 32 16).toNat

/-- Whom a slot serves. -/
inductive Serve
  | floor (p : Fin 32)
  | share (p : Fin 32)
  | system
  | empty
deriving DecidableEq, Repr

/-- A turn of the wheel begins: each partition earns its floor. -/
def Channel.earn (c : Channel) (bands : Vector Dw 32) : Channel :=
  { c with credits := Vector.ofFn fun p => min (16 * bandFloor (bands.get p)) (c.credits.get p + bandFloor (bands.get p)) }

/-- Meters refill at ceil / 1,024 of the channel's rate, 64 bytes a slot, in sixteenths of a byte, up to the burst. -/
def Channel.refill (c : Channel) (bands : Vector Dw 32) : Channel :=
  { c with meters := Vector.ofFn fun p => min (bandBurst (bands.get p) * 16384 : Int) (c.meters.get p + bandCeil (bands.get p)) }

/-- The request served draws its 64 bytes; a floor request spends a credit, a free slot counts in the round of its class. -/
def Channel.draw (c : Channel) : Serve → Channel
  | .floor p => { c with credits := setVec c.credits p.val (· - 1), meters := setVec c.meters p.val (· - 1024) }
  | .share p => { c with meters := setVec c.meters p.val (· - 1024), deficit := setVec c.deficit p.val (· + 1) }
  | .system => { c with deficit := setVec c.deficit 32 (· + 1) }
  | .empty => c

/-- A slot may serve this: a floor credit; a share of the free slots with a meter that allows 64 bytes and a place in the round; the system class at
weight 8. -/
def Channel.allows (c : Channel) (bands : Vector Dw 32) : Serve → Bool
  | .floor p => decide (0 < c.credits.get p)
  | .share p => decide (c.deficit.get ⟨p.val, by omega⟩ < bandWeight (bands.get p)) && decide ((1024 : Int) ≤ c.meters.get p)
  | .system => decide (c.deficit.get 32 < 8)
  | .empty => true

/-- The requests that a free slot may serve. -/
def freeServes : List Serve := allParts.map Serve.share ++ [.system]

/-- What a slot serves, in the rule's order (R402): the owner's request with a credit, then one of the free slot's eligible requests, then nothing. `has` says
for which class a request waits. -/
def Channel.serve (c : Channel) (bands : Vector Dw 32) (owner : Option (Fin 32)) (has : Serve → Bool) (pick : Nat → Nat) : Serve :=
  let free := freeServes.filter fun v => has v && c.allows bands v
  let other := (free[pick free.length]?).getD .empty
  match owner with
  | some p => if has (.floor p) && c.allows bands (.floor p) then .floor p else other
  | none => other

/-- A list in an order that a choice at each place gives. -/
def orderBy {α : Type} (pick : Nat → Nat) : Nat → List α → List α
  | 0, _ => []
  | m + 1, l => match l[pick m % l.length]? with
    | some x => x :: orderBy pick m (l.eraseIdx (pick m % l.length))
    | none => []

/-- The wheel's 64 slots before they are placed: as many of each partition as its floor, the rest nobody's (R401, R402). -/
def floorSlots (floors : List Nat) : List (Option (Fin 32)) :=
  let own := (floors.mapIdx fun p k => List.replicate k (some (Fin.ofNat 32 p))).flatten
  (own ++ List.replicate (64 - own.length) none).take 64

/-- The owner of the slot at the wheel's place: each partition owns as many of the 64 as its floor, at places that the policy core has chosen, which are free
values (R402) (DESIGN CHOICE, log 10). -/
def State.wheelOwner (s : State) (d : DieId) (ch : Fin 112) (bands : Vector Dw 32) : Option (Fin 32) :=
  let floors := bands.toList.map bandFloor
  ((orderBy (Config.slotOwner d.toNat ch.val floors) 64 (floorSlots floors))[((s.die d).channels.get ch).pos]?).join

/-- Whether a request of this class waits at the controller is timing, so the device's own (DESIGN CHOICE, log 10). -/
def State.waits (s : State) : Serve → Bool
  | .floor p | .share p => decide (s.choose (16 + p.val) 2 = 1)
  | .system => decide (s.choose 48 2 = 1)
  | .empty => false

/-- CHANNEL_SLOT (R402): the wheel turns by one slot (DESIGN CHOICE, log 10). -/
def State.channelSlot (s : State) (d : DieId) (ch : Fin 112) : State :=
  let c := (s.die d).channels.get ch
  let bands : Vector Dw 32 := Vector.ofFn fun p => (s.part p d).bands.get ch
  let c := (if c.pos = 0 then c.earn bands else c).refill bands
  let c := if freeServes.any fun v => s.waits v && c.allows bands v then c else { c with deficit := Vector.replicate 33 0 }
  let c := c.draw (c.serve bands (s.wheelOwner d ch bands) s.waits (s.choose 8))
  s.modDie d fun x => { x with channels := x.channels.set ch { c with pos := (c.pos + 1) % 64 } }

/-- CHANNEL_SLOT (R402, R403). -/
def execChannelSlot (d : DieId) (ch : Fin 112) (s : State) : Host.Outcome State Fault Refusal := .next (s.channelSlot d ch)

end Sys2Proof.Machine
end

