-- ==== Sys2Proof/Machine/Package.lean ====
section
/-! DEFINITION. Starts and power (R391 to R398), attestation (R395), storage errors (R366, R367), and what ends the host's port (R306, R388). -/

namespace Sys2Proof.Machine

open Sys2Proof

/-! ## A die ends (R391, R393) -/

/-- A waiter that lives on a die. -/
def waiterOn (s : State) (d : DieId) : Waiter → Bool
  | .await n | .park n | .copy n _ => decide (dieOf n = d)
  | .parked id => s.parked.any fun p => decide (p.id = id) && decide (p.die = d)
  | .cox e _ => decide (e = d)

/-- A held message of a lost die's core as it stands without the core: what the bridge has carried is still performed (R387, R423) (DEDUCED, log 67). -/
def State.carried (s : State) (m : Msg) : List Msg :=
  let put (pa : Nat) (b : List Byte) : Msg := .write (.outside pa b)
  match m with
  | .op n id => match (s.coreAt n).op? id with
    | some o => match o.kind with
      | .store pa b => [put pa b]
      | .stv blocks data => ((List.range blocks.length).filter fun i => !o.done.contains i).map fun i =>
          put (blocks.getD i 0) ((List.range 64).map fun j => data.extractLsb' (8 * (64 * i + j)) 8)
      | .amo pa w fn c t _ => [.amo pa w fn c t]
      | .acred pa k => [.credit pa k]
      | _ => []
    | none => []
  | .copyAccess _ _ pa b | .portAccess _ _ pa b => if b = [] then [] else [put pa b]
  | .reply _ _ | .mirrored _ _ => []
  | m => [m]

/-- A cut die keeps what the lost one has sent it (R387). -/
def State.keepCarried (s : State) (d : DieId) : State :=
  s.modDie d fun x => { x with snap := x.snap.map fun p =>
    { p with heldMsgs := p.heldMsgs.flatMap s.carried, channel := p.channel.flatMap fun m => (s.carried m.2).map fun k => (m.1, k) } }

/-- The records that the die's slow streams are owed: of the phases that run and of the releases that wait (R419). -/
def State.slowRecords (s : State) (d : DieId) : List (Cmd × Crec) :=
  let x := s.die d
  let slow (o : Option Nat) : Bool := match o.bind fun k => x.stream? k with | some k => k.slow | none => false
  ((x.phases.filter fun p => slow p.stream).map fun p => (p.cmd,
    { status := 2, level := p.level, dmet := p.hasdl && decide (x.time ≤ p.dline.toNat), hasdl := p.hasdl, faults := p.faults, urun := p.urun,
      ucan := p.ucan + p.unlaunched, phid := p.phid, jid := p.jid, graph := p.graph, tstart := p.tstart })) ++
  (x.queuedPh.filter fun q => slow q.stream).map fun q => (q.cmd, skipCrec 2 q.level q.graph q.jid true x.time)

/-- Everything that runs on the die ends: every context, ring, graph, stream, slot and shadow of it is empty. What a start or the policy core of the other
die keeps is left, and so are the records owed for its slow streams (R419). -/
def State.dieEnds (s : State) (d : DieId) : State :=
  let old := s.die d
  let owed := s.slowRecords d ++ old.orphans
  let s := s.keepCarried d.other
  let alone := (s.die d.other).start ≠ .running
  let slots := (s.slots.filter fun t => decide (homeDie t.pa ≠ some d)).map fun t => { t with waiters := t.waiters.filter fun w => !waiterOn s d w }
  let s := s.setDie d
    { Die.reset with wfail := old.wfail, fstep := old.fstep, sigbad := old.sigbad, bkind := old.bkind, stepping := old.stepping, temp := old.temp,
                     isolated := old.isolated, linkDown := old.linkDown, orphans := owed }
  { s with
    cores := Vector.ofFn fun n => if dieOf n = d then Core.reset else s.cores.get n
    crews := Vector.ofFn fun w => if crewDie w = d then Crew.reset else s.crews.get w
    slots := slots
    parked := s.parked.filter fun p => decide (p.die ≠ d)
    parts := s.parts.map fun p => { p.setDie d PartDie.reset with exist := p.exist && !alone }
    shared := s.shared.filter fun h => decide (crewDie h.crew ≠ d)
    links := s.links.filter fun k => decide (dieOf k.core ≠ d)
    reconf := s.reconf.bind fun r =>
      if r.die = d then none
      else some { r with crews := r.crews.filter fun w => decide (crewDie w ≠ d)
                         contexts := r.contexts.filter fun x => decide (x.1 ≠ d)
                         granules := r.granules.filter fun x => decide (x.1 ≠ d)
                         queues := r.queues.filter fun x => decide (x.1 ≠ d) } }

/-! ## The loss of a die (R418, R419) -/

/-- The phases of the lost die's slow streams end with status 2, those that run and those that wait behind a graph, also where the die has stopped before its loss
is declared (R419) (DEDUCED, log 52). -/
def State.endSlow (s : State) (d : DieId) : State :=
  let owed := s.slowRecords d ++ (s.die d).orphans
  let slow (o : Option Nat) : Bool := match o.bind fun k => (s.die d).stream? k with | some k => k.slow | none => false
  let s := owed.foldl (fun s r => s.complete d r.1 r.2) s
  s.modDie d fun x => { x with orphans := [], phases := x.phases.filter fun p => !slow p.stream, queuedPh := x.queuedPh.filter fun q => !slow q.stream }

/-- Die d declares its peer lost: it asserts the isolate line, becomes the time source without a step, and its chunks wait for the peer no longer, but for
those that a frozen queue or a cut holds (R416, R418, R424) (DEDUCED, log 52). -/
def State.declareLoss (s : State) (d : DieId) : State :=
  if (s.die d).start ≠ .running ∨ (s.die d).peerLost ∨ s.isolate = some d.other then s
  else
    let sends := (s.die d).sends.filter fun x => s.maySend d x.sid
    let s := s.modDie d fun x => { x with peerLost := true, locked := true, hstat := x.hstat ||| 8,
                                          sends := (x.sends.filter fun y => !sends.contains y).map fun y => { y with mirrored := true } }
    let s := { s with isolate := some d, source := d }
    let s := sends.foldl (fun s x => s.sendChunk d x) s
    s.endSlow d.other

/-! ## Starts (R391 to R394) -/

/-- HBM of the die is cleared, with its ECC (step 4). -/
def State.clearHbm (s : State) (d : DieId) : State :=
  { s with mem := clearRange s.mem (hbmBase d) hbmSize
           poison := s.poison.filter fun b => !(decide (hbmBase d ≤ b) && decide (b < hbmBase d + hbmSize)) }

/-- Step 5 rejects the image (R394). -/
def imageBad (r : StartResult) : Bool := !r.sigOk || !r.bodyOk

/-- The step at which a start fails, 0 for none: a warm start does not run steps 2 to 4; step 5 fails where the image is rejected. -/
def failedStep (warm : Bool) (r : StartResult) : Nat :=
  let k := if warm ∧ 2 ≤ r.failStep ∧ r.failStep ≤ 4 then 0 else r.failStep
  if k ≠ 0 ∧ k < 5 then k else if imageBad r then 5 else k

/-- A start that has failed: BSTAT holds its step; a failed warm start counts. -/
def State.startFails (s : State) (d : DieId) (warm : Bool) (step : Nat) (sigbad : Bool) : State :=
  s.modDie d fun x => { x with start := .failed, fstep := BitVec.ofNat 4 step, sigbad := sigbad, hstat := if step = 7 then 2 else 0,
                               wfail := if warm then (if x.wfail = 3 then 3 else x.wfail + 1) else x.wfail }

/-- The start succeeds: time and every CSC begin at 0, and the die may be the package's time source (R391, R417, R418) (DEDUCED, log 53). -/
def State.startDone (s : State) (d : DieId) (warm : Bool) : State :=
  let alone := (s.die d.other).start ≠ .running
  let s := s.modDie d fun x => { x with start := .running, wfail := 0, fstep := 0, sigbad := false, hstat := if warm then 7 else 3, linkDown := false }
  let s := if s.isolate = some d.other then s else s.modDie d.other fun x => { x with peerLost := false, hstat := x.hstat &&& 7, hbSeen := 0 }
  { s with source := if alone then .bow else s.source }

/-- The steps of a start, with their result (R391): a result of 8 or more says that the start hangs (DESIGN CHOICE, log 34) (DEDUCED, log 53). -/
def State.startRun (s : State) (d : DieId) (warm : Bool) (r : StartResult) : State :=
  let s := s.modDie d fun x => { x with bkind := if warm then 2 else 1, hstat := 0 }
  let k := failedStep warm r
  let s := if !warm ∧ (k = 0 ∨ 4 < k) then s.clearHbm d else s
  let s := if k = 0 ∨ 5 < k then s.modDie d fun x => { x with digest := r.digest } else s
  if 8 ≤ k then s.modDie d fun x => { x with start := .starting warm x.time, hstat := 2 }
  else if k ≠ 0 then s.startFails d warm k (k = 5 && imageBad r)
  else s.startDone d warm

/-- The die is starting. -/
def Die.isStarting (x : Die) : Bool := match x.start with | .starting _ _ => true | _ => false

/-- A start request ends everything on the die, whose loss a running peer declares meanwhile; one that comes while a start runs, or to a die held in reset,
is discarded (R393, R418) (DEDUCED, log 53). -/
def State.startRequest (s : State) (d : DieId) (warm : Bool) (r : StartResult) : State :=
  if (s.die d).isStarting || (s.die d).isolated then s
  else
    let seen := decide ((s.die d).start = .running) || decide ((s.die d.other).hbSeen ≠ 0)
    ((if seen then s.declareLoss d.other else s).dieEnds d).startRun d warm r

/-- POWER_ON (R391): a cold start of a die that has no power. -/
def execPowerOn (d : DieId) (r : StartResult) (s : State) : Host.Outcome State Fault Refusal :=
  .next (if (s.die d).start ≠ .off then s else s.startRequest d false r)

/-- COLD_START (R391 to R394). -/
def execColdStart (d : DieId) (r : StartResult) (s : State) : Host.Outcome State Fault Refusal := .next (s.startRequest d false r)

/-- WARM_START (R391 to R394): it runs cold once two warm starts have failed. -/
def execWarmStart (d : DieId) (r : StartResult) (s : State) : Host.Outcome State Fault Refusal :=
  .next (s.startRequest d (decide ((s.die d).wfail.toNat < 2)) r)

/-- START_TIMEOUT (R392): HSTAT[0] has not been set within 2 s; the step that hangs is the last. -/
def execStartTimeout (d : DieId) (s : State) : Host.Outcome State Fault Refusal :=
  .next (match (s.die d).start with
    | .starting warm _ => s.startFails d warm 7 false
    | _ => s)

/-- POWER_LOSS (R392): all work ends, and with it a failed start's halt. -/
def execPowerLoss (d : DieId) (s : State) : Host.Outcome State Fault Refusal :=
  .next ((s.dieEnds d).modDie d fun x => { x with wfail := 0, fstep := 0, sigbad := false, bkind := 0 })

/-! ## Power and temperature (R396, R397) -/

/-- The step a cap allows: 7 acts as 6 (DEDUCED, log 54). -/
def capStep (v : Dw) : Nat := min 6 (v.extractLsb' 0 3).toNat

/-- The clock step of a die changes on one edge: slices are settled before, an epoch record is written and admission recomputed after (R340, R380, R397,
R406). -/
def State.setStep (s : State) (d : DieId) (step : Nat) : State :=
  if (s.die d).clkStep = step then s
  else
    let s := (s.settleSlices d).modDie d fun x => { x with clkStep := step, acc := 0 }
    let s := (List.finRange 88).foldl (fun s w => if crewDie w = d then s.traceEpoch w 2 else s) s
    s.coxRecomputeAll d

/-- The limit after the present step has been lowered (R397) (DEDUCED, log 54). -/
def Die.lower (x : Die) (n : Nat) : Nat := if n = 0 then x.capLow else min 6 (max x.capLow x.clkStep + n)

/-- The lowest step that temperature and power allow, `capLow`, and since when every sensor is below 95 °C, `coolSince` (0 for not): 105 °C or above lowers
the step by one, 1 ms below 95 °C raises it by one, not while the package's power is above its limit (R397) (DEDUCED, log 54). -/
def Die.thermal (x : Die) (temp : Nat) (above : Bool) : Die :=
  let cool := if temp < 95 then (if x.coolSince = 0 then max 1 x.time else x.coolSince) else 0
  let up := !above && decide (cool ≠ 0) && decide (1000000 ≤ x.time - cool) && decide (0 < x.capLow)
  let low := if up then x.capLow - 1 else x.lower (if 105 ≤ temp then 1 else 0)
  { x with temp := BitVec.ofNat 8 temp, capLow := low, coolSince := if up then max 1 x.time else cool }

def State.applyStep (s : State) (d : DieId) : State := s.setStep d (max (s.die d).capLow (capStep (s.die d).pwrctl))

/-- The package's power has not lowered the die's step in this evaluation yet: the limits are evaluated every 10 µs (R397) (DEDUCED, log 54). -/
def Die.powerDue (x : Die) : Bool := decide (x.pwrAt = 0) || decide (x.pwrAt + 10000 ≤ x.time)

/-- The package's power lowers the die by one step, which returns after 1 ms as one for heat does (R397) (DEDUCED, log 54). -/
def Die.powerLower (x : Die) : Die := { x with capLow := x.lower 1, pwrAt := max 1 x.time, coolSince := if x.coolSince = 0 then 0 else max 1 x.time }

/-- POWER_EVALUATION (R397): the sensors' reading and whether the package average is above 3.2 kW; the latter lowers both dies, by one step for one evaluation of
the package whichever dies are told of it (DEDUCED, log 54). -/
def State.powerEval (s : State) (d : DieId) (temp : BitVec 8) (above : Bool) : State :=
  if (s.die d).start ≠ .running then s
  else
    let tooHot := above && (s.die d).powerDue
    let s := s.modDie d fun x => x.thermal temp.toNat above
    let lower (s : State) (e : DieId) : State := if tooHot && decide ((s.die e).start = .running) then s.modDie e Die.powerLower else s
    ((lower (lower s d) d.other).applyStep d).applyStep d.other

/-- POWER_EVALUATION (R340, R380, R397). -/
def execPowerEvaluation (d : DieId) (temp : BitVec 8) (above : Bool) (s : State) : Host.Outcome State Fault Refusal := .next (s.powerEval d temp above)

/-! ## Attestation (R395) -/

/-- HIDENT (R321). -/
def State.hident (s : State) (d : DieId) : Nat := 0x0960 + d.toNat * 2 ^ 16 + (s.die d).stepping.toNat * 2 ^ 24

/-- BSTAT (R397). -/
def Die.bstat (x : Die) : Nat := x.bkind.toNat + x.wfail.toNat * 2 ^ 2 + x.fstep.toNat * 2 ^ 4 + (bitN x.sigbad) * 2 ^ 8

/-- Bytes 0 to 127 of a report. -/
def State.reportBody (s : State) (d : DieId) (nonce : List Byte) : List Byte :=
  nonce ++ leBytes (s.die d).digest.toNat 64 ++ leBytes (s.hident d) 8 ++ leBytes (s.die d).bstat 8 ++ List.replicate 16 0

/-- The 192 bytes of a report: the device key signs the first 128 (DESIGN CHOICE, log 34). -/
def State.report (s : State) (d : DieId) (nonce : List Byte) : List Byte :=
  s.reportBody d nonce ++ leBytes (Config.ed25519 (Config.deviceKey d.toNat) (s.reportBody d nonce)).toNat 64

/-- ATREQ (R395). -/
def State.attest (s : State) (d : DieId) (buf : Dw) : State :=
  let pa := hostPa buf
  if !s.policyRuns d || decide (2 ^ 56 < pa + 192) then s
  else
    let b := s.report d (memReadBytes s.mem pa 32)
    ((s.homeStore pa (b.take 64)).homeStore (pa + 64) ((b.drop 64).take 64)).homeStore (pa + 128) (b.drop 128)

/-- ATREQ (R395). -/
def execAtreq (d : DieId) (buf : Dw) (s : State) : Host.Outcome State Fault Refusal := .next (s.attest d buf)

/-! ## Storage errors (R366, R367) -/

/-- SCRUB (R366): contents are read and written back; errors that it finds are DATA_ERROR_DETECTED. -/
def execScrub (_d : DieId) (s : State) : Host.Outcome State Fault Refusal := .next s

/-- Count an error of HBM, pool or core storage (R384). -/
def State.countError (s : State) (pa : Nat) (fatal : Bool) : State :=
  match spaceOf pa with
  | some (.hbm d _) => s.countDie d (44 + bitN fatal) 1
  | some (.pool d _) => s.countDie d (46 + bitN fatal) 1
  | some (.pad n _) => s.count n (32 + bitN fatal) 1
  | _ => s

/-- A poisoned slot wakes its waiters: AWAIT and PARK trap "data" when they look, copies suspend with cause 8, parked records resume with TCAUSE 0x27
pending. -/
def State.poisonWaiter (s : State) (pa : Nat) (w : Waiter) : State :=
  match w with
  | .copy n id => match (s.coreAt n).copy? id with
    | some k => if k.st = .waitSlot then s.copyFault n id 8 else s
    | none => s
  | .parked id => match s.parked.find? fun p => decide (p.id = id) with
    | none => s
    | some p =>
      let r : ContRec := { p.record with bad := some p.va }
      let s := { s with parked := s.parked.filter fun q => decide (q.id ≠ id) }
      s.modDie p.die fun x => x.pushTask
        { kind := .cont r, part := r.part, ctx := r.ctx, prio := r.prio, dline := r.dline, phid := r.phid, jid := r.jid, since := x.time,
          acq := [(pa, s.nextId)] }
  | _ => s

/-- The words of a slot, or its region entry, are lost. -/
def State.poisonSlot (s : State) (pa : Nat) : State :=
  match s.slot? pa with
  | none => s
  | some t =>
    let s := s.modSlot pa fun t => { t with poisoned := true, waiters := t.waiters.filter fun w => match w with | .cox _ _ => true | _ => false }
    t.waiters.foldl (fun s w => s.poisonWaiter pa w) s

/-- A dependence counter of a running graph is poisoned: it counts no further, and the nodes that wait for it end as cancelled with a fault each (R347)
(DEDUCED, log 61). -/
def State.poisonCounter (s : State) (d : DieId) (g : Nat) (p : Phase) : State :=
  let waiting := (p.nst.filter fun v => decide (v = NodeSt.waiting)).length
  let stop (q : Phase) : Phase :=
    { q with nst := q.nst.map (fun v => if v = NodeSt.waiting then NodeSt.cancelled else v), ucan := sat32 (q.ucan + q.unlaunched),
             faults := sat32 (q.faults + waiting) }
  s.modDie d fun x => { x with badCounters := x.badCounters ++ [g] }.modPhase p.phid stop

/-- An uncorrectable error, by the storage it is found in (DEDUCED, log 61). -/
def State.fatalError (s : State) (e : ErrLoc) : State :=
  match e with
  | .block pa _ =>
    let b := pa / 64 * 64
    if (spaceOf pa).isNone || s.poison.contains b then s else { s with poison := s.poison ++ [b] }
  | .queueEntry n q pos _ => s.modCtx n fun x =>
      let u := x.queue q
      x.setQueue q { u with ents := setNth u.ents pos fun e => { e with poison := some 20 } }
  | .seatState n k _ =>
    if (s.coreAt n).unit.isNone || ((s.coreAt n).ctx.seat k).cause.isSome || !((s.coreAt n).ctx.seat k).act then s
    else s.raise n k .coreData 0 ((s.coreAt n).ctx.seat k).pc false
  | .slotWords pa _ => s.poisonSlot pa
  | .shadow n _ => s.modCore n fun c => { c with held := c.held.map fun h => { h with bad := true }, handler := c.handler.map fun h => { h with bad := true } }
  | .task d pos _ => match (s.die d).tasks[pos]? with
    | some t => s.cancelPhase d t.phid 3
    | none => s
  | .counter d g _ => match (s.die d).phases.find? fun p => decide (p.graph = g) with
    | some p => (s.poisonCounter d g p).cancelPhase d p.phid 3
    | none => s

def State.dataError (s : State) (e : ErrLoc) : State :=
  let s := match e with
    | .block pa f => s.countError pa f
    | .queueEntry n _ _ f => s.count n (32 + bitN f) 1
    | .seatState n _ f => s.count n (32 + bitN f) 1
    | .shadow n f => s.count n (32 + bitN f) 1
    | _ => s
  match e with
  | .block _ f | .queueEntry _ _ _ f | .seatState _ _ f | .slotWords _ f | .shadow _ f | .task _ _ f | .counter _ _ f => if f then s.fatalError e else s

/-- DATA_ERROR_DETECTED (R347, R363, R366, R367): a correctable error is corrected in place and counted (DEDUCED, log 61). -/
def execDataErrorDetected (e : ErrLoc) (s : State) : Host.Outcome State Fault Refusal := .next (s.dataError e)

/-! ## The host port (R306, R388) -/

/-- FUNCTION_LEVEL_RESET (R306): the rings of the function, all of them for function 0, return to their reset state with the function's notifications
dropped; function 0 takes the mailbox with it (PRESUMED, log 55). -/
def State.functionReset (s : State) (d : DieId) (fn : Fin 33) : State :=
  s.modDie d fun x =>
    let hit (r : Ring) : Bool := decide (fn = 0) || decide (r.part.val + 1 = fn.val)
    let x := { x with rings := x.rings.map fun r => if hit r then Ring.reset else r
                      frozenFns := x.frozenFns.filter fun i => decide (i ≠ fn.val) }
    if fn = 0 then { x with mboxin := 0, mboxout := 0, mboxst := 0 } else x

/-- FUNCTION_LEVEL_RESET (R306) (PRESUMED, log 55). -/
def execFunctionLevelReset (d : DieId) (fn : Fin 33) (s : State) : Host.Outcome State Fault Refusal := .next (s.functionReset d fn)

/-- HOST_LINK_DOWN (R388): no host traffic passes; dumps go to the collector. -/
def execHostLinkDown (d : DieId) (s : State) : Host.Outcome State Fault Refusal := .next (s.modDie d fun x => { x with linkDown := true })

end Sys2Proof.Machine
end

