-- ==== Sys2Proof/Machine/Failover.lean ====
section
/-! DEFINITION. Device time (R417), the bridge's heartbeat, the loss of a die and the takeover of its fast streams (R418, R419, R423, R424), and the
endpoint's inbound traffic (R411, R414). -/

namespace Sys2Proof.Machine

open Sys2Proof

/-! ## Device time (R417) -/

inductive DueWhat
  | guard (pa : Nat)
  | release (e : Nat)
  | skip (e : Nat)
deriving DecidableEq, Repr

/-- What falls due at a moment: at one moment the deadlines of slots come first (R415), then releases, then skips. -/
structure Due where
  time : Nat
  rank : Nat
  what : DueWhat
deriving DecidableEq, Repr

def Due.before (a b : Due) : Bool := decide (a.time < b.time) || (decide (a.time = b.time) && decide (a.rank < b.rank))

/-- The deadlines, releases and skips of a die that are to come; a cut die applies none (R386). -/
def State.dues (s : State) (d : DieId) : List Due :=
  if s.cut d then [] else
  (s.slots.filterMap fun t =>
    if homeDie t.pa = some d ∧ t.kind = 4 ∧ t.dline ≠ BitVec.allOnes 64 then some { time := t.dline.toNat, rank := 0, what := .guard t.pa } else none) ++
  ((s.die d).cox.filterMap fun k =>
    if s.coxActive d k && (k.susp || decide (k.islot = 0) || k.inputIn) then some { time := k.nrel, rank := 1, what := .release k.e } else none) ++
  ((s.die d).cox.filterMap fun k =>
    if s.coxActive d k && !k.susp && decide (k.islot ≠ 0) && !k.inputIn then some { time := k.nrel + k.dline + 1, rank := 2, what := .skip k.e } else none) ++
  (((s.die d).queuedPh.filter fun q => decide (q.kill = 0)).filterMap fun q => (q.stream.bind fun k => (s.die d).stream? k).map fun k =>
    { time := q.dline.toNat + 1, rank := 2, what := .skip k.e })

def State.applyOne (s : State) (d : DieId) (w : DueWhat) : State :=
  match w with
  | .guard pa => s.deadline d pa
  | .release e => s.coxRelease d e
  | .skip e => s.phaseSkip d e

/-- Device time moves on to a moment, past everything that falls due before it, in time order. -/
def State.applyDue (s : State) (d : DieId) (target : Nat) : Nat → State
  | 0 => s.modDie d fun x => { x with time := max x.time target }
  | fuel + 1 =>
    match leastBy Due.before ((s.dues d).filter fun e => decide (e.time ≤ target)) with
    | none => s.modDie d fun x => { x with time := max x.time target }
    | some e => ((s.modDie d fun x => { x with time := max x.time e.time }).applyOne d e.what).applyDue d target fuel

/-- As many happenings as a span of time can hold. -/
def State.dueFuel (s : State) (d : DieId) (ns : Nat) : Nat := (s.slots.length + 2 * (s.die d).cox.length + (s.die d).queuedPh.length + 1) * (ns + 2)

/-- A forward step of device time; what is measured in elapsed time moves with it (DESIGN CHOICE, log 76). -/
def State.stepTime (s : State) (d : DieId) (ns : Nat) : State :=
  let shift (t : Nat) : Nat := if t = 0 then 0 else t + ns
  (s.applyDue d (min ((s.die d).time + ns) timeTop) (s.dueFuel d ns)).modDie d fun x =>
    { x with hbSeen := shift x.hbSeen, hbSent := shift x.hbSent, coolSince := shift x.coolSince, pwrAt := shift x.pwrAt }

/-- DEVICE_TIME_STEP (R417): the policy core steps device time forward. -/
def execDeviceTimeStep (d : DieId) (ns : Dw) (s : State) : Host.Outcome State Fault Refusal :=
  .next (if (s.die d).start = .running then (s.stepTime d ns.toNat).modDie d fun x => { x with locked := true } else s)

/-- PTP_EVENT_MESSAGE (R417): the time source disciplines its clock by frequency; its first lock may step it forward once, and a later offset above 10 µs
notifies the policy core. -/
def State.ptp (s : State) (d : DieId) (ppm offset : Int) : State :=
  if (s.die d).start ≠ .running ∨ s.source ≠ d then s
  else
    let first := !(s.die d).locked
    let s := s.modDie d fun x => { x with ppm := clampPpm ppm, locked := true }
    if first then (if 0 < offset then s.stepTime d offset.toNat else s)
    else if 10000 < offset.natAbs then s.outp (.notice d 7 (BitVec.ofInt 64 offset))
    else s

/-- PTP_EVENT_MESSAGE (R417). -/
def execPtpEventMessage (d : DieId) (ppm offset : Int) (s : State) : Host.Outcome State Fault Refusal := .next (s.ptp d ppm offset)

/-! ## Heartbeats and loss (R418) -/

/-- A heartbeat is due: every 1 µs. -/
def Die.beatDue (x : Die) : Bool := decide (x.start = .running) && (decide (x.hbSent = 0) || decide (x.hbSent + 1000 ≤ x.time))

/-- HEARTBEAT_SEND (R418): the flit goes over the bridge and is delivered to the other die (DEDUCED, log 67). -/
def State.beat (s : State) (d : DieId) : State :=
  if !(s.die d).beatDue then s
  else
    let s := ((s.modDie d fun x => { x with hbSent := max 1 x.time }).countDie d 57 1).outp (.heartbeat d)
    s.modDie d.other fun x => { x with hbIn := true }

/-- HEARTBEAT_SEND (R418). -/
def execHeartbeatSend (d : DieId) (s : State) : Host.Outcome State Fault Refusal := .next (s.beat d)

/-- HEARTBEAT_RECEIVE (R418): the loss timer starts again. -/
def execHeartbeatReceive (d : DieId) (s : State) : Host.Outcome State Fault Refusal :=
  .next (if (s.die d).start = .running then (s.modDie d fun x => { x with hbSeen := max 1 x.time, hbIn := false }).countDie d 58 1 else s)

/-- No heartbeat has come for 20 µs since the last one (DEDUCED, log 52). -/
def Die.lossDue (x : Die) : Bool :=
  decide (x.start = .running) && !x.peerLost && decide (x.hbSeen ≠ 0) && decide (x.hbSeen + 20000 ≤ x.time)

/-- PEER_LOSS_TIMEOUT (R418, R423). -/
def execPeerLossTimeout (d : DieId) (s : State) : Host.Outcome State Fault Refusal := .next (if (s.die d).lossDue then s.declareLoss d else s)

/-- BRIDGE_LINK_DOWN (R418): loss is declared at once. -/
def execBridgeLinkDown (d : DieId) (s : State) : Host.Outcome State Fault Refusal := .next (s.declareLoss d)

/-- The line is asserted against the die, which has not stopped yet. -/
def State.isolateDue (s : State) (d : DieId) : Bool := decide (s.isolate = some d.other) && !(s.die d).isolated

/-- ISOLATE_ASSERTED (R418): the die stops at once and is held in reset. -/
def execIsolateAsserted (d : DieId) (s : State) : Host.Outcome State Fault Refusal :=
  .next (if s.isolateDue d then (s.dieEnds d).modDie d fun x => { x with isolated := true } else s)

/-- ISOLATE_DEASSERTED (R418): the line is released; the die waits for a start. -/
def execIsolateDeasserted (d : DieId) (s : State) : Host.Outcome State Fault Refusal :=
  .next (if s.isolate = some d.other then ({ s with isolate := none }).modDie d fun x => { x with isolated := false } else s)

/-! ## Takeover (R419) -/

/-- The next stream that the survivor takes over: of the lowest session that is open on it (DEDUCED, log 51). -/
def State.takeoverNext (s : State) (d : DieId) : Option PeerStream :=
  if (s.die d).peerLost && s.frontRuns d then
    leastBy (fun (a b : PeerStream) => decide (a.sid < b.sid)) ((s.die d).peers.filter fun p => ((s.die d).session? p.sid).isSome)
  else none

/-- The command that a stream taken over stands for. -/
def peerCmd (p : PeerStream) : Cmd :=
  { typ := 8, len := 112, resv := false, tag := p.tag, crec := p.crec, sigaddr := p.sigaddr, sigval := p.sigval, sigk := p.sigk, w0 := p.jid.setWidth 64,
    w1 := 0, w2 := 0, w3 := BitVec.ofNat 64 (2 ^ 13 + p.sid % 2 ^ 13), ring := 0, ctx := p.ctx, part := p.part, fn := ⟨p.part.val + 1, by omega⟩ }

/-- The present period: it is released at once unless its skip deadline has passed; it acquires the slot's present phase (DEDUCED, log 51). -/
def State.takeoverRelease (s : State) (d : DieId) (e : Nat) : State :=
  match (s.die d).cox.find? fun k => decide (k.e = e) with
  | none => s
  | some k =>
    let now := (s.die d).time
    let first := k.t0 + k.offset
    if now < first then s
    else
      let g := first + (now - first) / k.period * k.period
      let at_ (n : Nat) : State := s.modDie d fun x => x.modCox e fun j => { j with nrel := n }
      if g + k.dline < now then at_ (g + k.period)
      else if k.susp then at_ g
      else
        let s := { at_ g with nextId := s.nextId + 1 }
        s.coxStart d { k with nrel := g } now (if k.islot = 0 then [] else [(k.islot, s.nextId - 1)])

/-- STREAM_TAKEOVER (R341, R419): the stream stands as admitted, never refused; U is recomputed and shed (DEDUCED, log 51). -/
def State.takeover (s : State) (d : DieId) (sid : Nat) : State :=
  match s.takeoverNext d with
  | none => s
  | some p =>
    if p.sid ≠ sid then s
    else match (s.die d).session? sid with
      | some z =>
        let e := (s.die d).takeCox
        let k := streamEntry p.srec e s.nextId p.t0 p.level z.fin (peerCmd p) p.jid (some sid)
        let s := ({ s with nextId := s.nextId + 1 } : State).modDie d fun x => { x with peers := x.peers.filter (fun q => decide (q.sid ≠ sid)), cox := x.cox ++ [k] }
        let s := s.modDie d fun x => x.modSession sid fun z => z.bindStream e false
        let s := if z.fin ≠ 0 then s.coxRegister d e z.fin else s
        let s := s.coxRecompute d p.part
        ((s.takeoverRelease d e).coxSettle d e).outp (.notice d 8 (BitVec.ofNat 64 sid))
      | none => s

/-- STREAM_TAKEOVER (R341, R419). -/
def execStreamTakeover (d : DieId) (sid : Nat) (s : State) : Host.Outcome State Fault Refusal := .next (s.takeover d sid)

/-! ## Inbound traffic (R411, R414) -/

/-- The endpoint receives: the die runs. -/
def State.portRuns (s : State) (d : DieId) : Bool := decide ((s.die d).start = .running)

/-- The slot that a resource index names: 0 the fast input, 1 the slow one. -/
def Session.inSlot (z : Session) (idx : Nat) : Nat := if idx = 0 then z.fin else if idx = 1 then z.sin else 0

/-- INBOUND_WRITE (R91, R411, R414): the write is performed at the home and counts, or is dropped with a notice (DEDUCED, log 28). -/
def State.inbound (s : State) (d : DieId) (sid idx off : Nat) (bytes : List Byte) : State :=
  if !s.portRuns d then s
  else if (s.die d).snap.isSome then s.hold d .network (.inbound sid idx off bytes)
  else
    let drop (s : State) : State := s.outp (.notice d 9 (BitVec.ofNat 64 sid))
    let s := s.countDie d 61 1
    match (s.die d).session? sid with
    | none => drop s
    | some z =>
      if (s.die d).frozenQs.contains z.epq.val then s
      else match (if z.inSlot idx = 0 then none else s.slot? (z.inSlot idx)) with
        | none => drop s
        | some t =>
          let pa := t.base + off
          if 64 * t.len64 < off + bytes.length || s.hitsSlot pa bytes.length then drop s
          else if !s.mayReachAll z.part pa bytes.length then s.freezeQueue d z.epq
          else s.homeStore pa bytes

/-- INBOUND_WRITE (R411, R414). -/
def execInboundWrite (d : DieId) (sid idx off : Nat) (bytes : List Byte) (s : State) : Host.Outcome State Fault Refusal :=
  .next (s.inbound d sid idx off bytes)

/-- UNSUPPORTED_PACKET (R411): dropped and counted; a cut die holds it. -/
def execUnsupportedPacket (d : DieId) (s : State) : Host.Outcome State Fault Refusal :=
  .next (if !s.portRuns d then s
         else if (s.die d).snap.isSome then s.hold d .network .unsupported
         else s.countDie d 61 1)

end Sys2Proof.Machine
end

