-- ==== Sys2Proof/Machine/Snapshot.lean ====
section
/-! DEFINITION. Snapshots (R385 to R388): the cut, its markers, the dump and the resume. -/

namespace Sys2Proof.Machine

open Sys2Proof

/-! ## The cut (R386) -/

def coresOf (d : DieId) : List CoreId := (List.finRange 352).filter fun n => decide (dieOf n = d)

/-- A core freezes, writes its Buoy record and halts with reason 6; a stop that waits for it, and a step it has begun, stand over the cut. -/
def State.cutCore (s : State) (n : CoreId) (id : Word) : State :=
  let s := s.traceRec n 7 [id.setWidth 64]
  let c := s.coreAt n
  if c.dbg.halted.isSome then s
  else if c.frozen.isNone then
    (s.debugHalt n .cut).modCore n fun k => { k with dbg := { k.dbg with pending := c.dbg.pending, deferred := c.dbg.deferred, left := c.dbg.left } }
  else s.modCore n fun c => { c with dbg := { c.dbg with halted := some .cut } }

/-- The links that carry a marker of the snapshot, by its scope. -/
def State.cutLinks (s : State) (d : DieId) (scope : BitVec 2) : List Link :=
  (if (s.die d).linkDown then [] else [Link.host]) ++
  (if scope ≠ 0 ∧ (s.die d.other).start = .running then [Link.bridge] else []) ++
  (if scope = 2 then (List.finRange 9).map Link.scaleUp else [])

/-- A marker leaves on a link: over the bridge to the other die, with the scope of the snapshot (DEDUCED, log 57), or as a write of SNID to MKHOST. -/
def State.sendMarker (s : State) (d : DieId) (id : Word) (scope : BitVec 2) (l : Link) : State :=
  let s := s.outp (.marker d l id)
  match l with
  | .bridge => (s.crosses d).modDie d.other fun x => { x with markerIn := some (id, scope) }
  | .scaleUp _ => s.countDie d 59 (Config.pick s.free 721 + 1)
  | .host =>
    let pa := hostPa (s.die d).mkhost
    if 2 ^ 56 < pa + 64 then s else s.homeStore pa (leBytes id.toNat 8)
  | _ => s

/-- SNSTAT: bits, with the id. -/
def snStat (bits : Nat) (id : Word) : Dw := BitVec.ofNat 64 (bits + id.toNat * 2 ^ 32)

/-- An operation of a core that its own die's homes have still to perform (R386): its mask is met and every place of it lies on the die; one that a full ring
or a watched line holds is not waited for. -/
def State.drains (s : State) (n : CoreId) (o : MemOp) : Bool :=
  s.opReady n o && o.kind.places.all (fun pa => decide (homeDie pa = some (dieOf n))) && (match o.kind with
    | .copy _ | .pattern _ _ | .multicast _ | .waita _ => false
    | .rgres _ _ => decide (o.done = [])
    | .aset _ _ _ _ | .afree _ => (s.coreAt n).asks o
    | _ => true)

/-- A copy or a pattern of a core has still to come to its boundary: a write of it whose home is on the die, or a suspension, is to come (R386). -/
def Core.engineDrains (c : Core) (n : CoreId) : Bool :=
  let near (pa : Nat) : Bool := decide (homeDie pa = some (dieOf n))
  (!c.cpFrozen && c.copies.any fun k => (k.loads.any fun x => x.begun && x.chunk.any fun a => near a.pa) || (c.mustSuspend k && near k.recPa)) ||
  c.pats.toList.any fun p => match p with | some p => p.writes.any fun w => near w.1 | none => false

/-- The drain of a cut die is not over: its homes have operations to perform that they received before the cut (R386) (DEDUCED, log 57). -/
def State.draining (s : State) (d : DieId) : Bool :=
  (coresOf d).any fun n => (s.coreAt n).ops.any (s.drains n) || (s.coreAt n).engineDrains n

/-- The die's markers leave, behind everything it has sent, once its drain is over, or at once where it resumes (R386, step 3). -/
def State.markersOut (s : State) (d : DieId) (now : Bool) : State :=
  match (s.die d).snap with
  | none => s
  | some p =>
    if p.outgoing = [] || (!now && s.draining d) then s
    else p.outgoing.foldl (fun s l => s.sendMarker d p.id p.scope l) (s.modDie d fun x => { x with snap := x.snap.map fun p => { p with outgoing := [] } })

/-- The cut of a die, by its own go or by a marker: every link's marker is still to come, and the die's own markers leave after its drain (R386)
(DEDUCED, log 57). -/
def State.takeCut (s : State) (d : DieId) (id : Word) (scope : BitVec 2) (own : Bool) : State :=
  let links := s.cutLinks d scope
  let s := (coresOf d).foldl (fun s n => s.cutCore n id) s
  let s := (coresOf d).foldl (fun s n => s.modCore n fun c => { c with copies := c.copies.map fun k => { k with frozen := true } }) s
  let s := s.modDie d fun x =>
    { x with snap := some { id := id, scope := scope, own := own, waiting := links, outgoing := links, channel := [], heldMsgs := [], dumped := false }
             snstat := snStat (if links = [] then 3 else 1) id }
  s.markersOut d false

/-- SNAPSHOT_GO (R385, R386): a write of SNCTL with go; SNID 0, scope 3 and a go during a snapshot are discarded. -/
def State.snapshotGo (s : State) (d : DieId) (v : Dw) : State :=
  let x := s.die d
  let scope : BitVec 2 := v.extractLsb' 2 2
  if x.start ≠ .running ∨ v.getLsbD 0 = false ∨ x.snid = 0 ∨ scope = 3 ∨ x.snap.isSome then s
  else (s.modDie d fun x => { x with snctl := v &&& 0x1C }).takeCut d x.snid scope true

/-- SNAPSHOT_GO (R385, R386). -/
def execSnapshotGo (d : DieId) (v : Dw) (s : State) : Host.Outcome State Fault Refusal := .next ((s.snapshotGo d v).fresh)

/-! ## Markers (R385, R387) -/

/-- The accesses over the bridge that the copies and patterns of a core have asked for: writes that may be performed, and reads. -/
def State.engineAsks (s : State) (n : CoreId) : List Msg :=
  let c := s.coreAt n
  let writes (k : Copy) : List Msg := ((List.range k.pending.length).filter fun w => k.mayWrite w).filterMap fun w => match k.pending[w]? with
    | some (i, _, a) => if far n a.pa && (match k.loads[i]? with | some x => x.begun | none => false) then some (.copyAccess n k.id a.pa a.bytes) else none
    | none => none
  (if c.cpFrozen then [] else c.copies.flatMap fun k => writes k ++ (k.farReads n).map fun a => .copyAccess n k.id a.pa []) ++
  ([0, 1, 2, 3] : List (Fin 4)).flatMap fun g => match c.pats.get g with
    | some p => (p.writes.filter fun w => far n w.1).map (fun w => .portAccess n g w.1 w.2) ++ (p.farReads n).map fun a => .portAccess n g a.pa []
    | none => []

/-- What the other die has sent before its marker and this one has not received is of the bridge's channel state (R387): the operations of its seats and the
accesses of its copies and patterns that no home has performed, its mirrored sequences, and the answers of its homes (DEDUCED, log 67). -/
def State.sentBefore (s : State) (d : DieId) : State :=
  let put (s : State) (m : Msg) : State := if s.heldMsg d m then s else s.hold d .bridge m
  let s := (coresOf d.other).foldl (fun s n =>
    (s.engineAsks n).foldl put ((s.coreAt n).ops.foldl (fun s o => if s.arrives n o then s.hold d .bridge (.op n o.id) else s) s)) s
  let s := ((s.die d.other).sends.filter fun z => s.mirrorDue d z.sid z.seq).foldl (fun s z => put s (.mirror z.sid z.seq)) s
  (coresOf d).foldl (fun s n => (s.coreAt n).ops.foldl (fun s o => if State.overBridge n o && o.answered then put s (.reply n o.id) else s) s) s

/-- The home on the other die performs all of an operation that it has received. -/
def State.serve (s : State) (n : CoreId) (id : Nat) : State :=
  match (s.coreAt n).op? id with
  | none => s
  | some o =>
    if !s.mayStep n o || !State.overBridge n o || o.answered then s
    else match o.kind with
      | .store _ _ | .amo _ _ _ _ _ _ => s.writeHome (.seat n id 0)
      | .stv b _ => (List.range b.length).foldl (fun s i => s.writeHome (.seat n id i)) s
      | .ldv b _ _ _ => b.foldl (fun s _ => s.stepOp n id) s
      | .aset _ _ _ _ | .afree _ | .chkck _ | .copy _ | .pattern _ _ | .multicast _ => s
      | _ => s.stepOp n id

/-- An access of a copy or a pattern that a home has received: a write is performed; a read is made by the engine's own next step. -/
def State.serveEngine (s : State) (m : Msg) : State :=
  match m with
  | .copyAccess n id pa bytes => match (s.coreAt n).copy? id with
    | some k => match (List.range k.pending.length).find? fun w => match k.pending[w]? with
        | some (_, _, a) => decide (a.pa = pa) && decide (a.bytes = bytes) && k.mayWrite w
        | none => false with
      | some w => s.copyWrite n id w
      | none => s
    | none => s
  | .portAccess n g pa bytes => match (s.coreAt n).pats.get g with
    | some p => match p.writes.findIdx? fun w => decide (w = (pa, bytes)) with
      | some w => s.patternWrite n g w
      | none => s
    | none => s
  | _ => s

/-- An answer arrives at its core (R387). -/
def State.answerComes (s : State) (n : CoreId) (id : Nat) : State :=
  match (s.coreAt n).op? id with
  | some o => match o.kind with
    | .ldv _ _ q _ => s.landQueue n q id
    | _ => s.stepOp n id
  | none => s

/-- What has arrived ahead of the marker that cuts the die: its homes perform what the other die has sent, and its cores have the answers (R385, R386). -/
def State.drainLink (s : State) (d : DieId) : State :=
  let s := (coresOf d.other).foldl (fun s n =>
    (s.engineAsks n).foldl State.serveEngine ((s.coreAt n).ops.foldl (fun s o => s.serve n o.id) s)) s
  let s := (s.die d.other).sends.foldl (fun s z => s.mirrorWrite d z.sid z.seq) s
  (coresOf d).foldl (fun s n => (s.coreAt n).ops.foldl (fun s o => if State.overBridge n o && o.answered then s.answerComes n o.id else s) s) s

/-- A link's marker has come: its channel state is complete. -/
def State.closeLink (s : State) (d : DieId) (l : Link) (id : Word) : State :=
  match (s.die d).snap with
  | none => s
  | some p =>
    if p.id ≠ id then s.countDie d 49 1
    else
      let s := if l = .bridge && p.waiting.contains .bridge then s.sentBefore d else s
      let w := p.waiting.filter fun k => decide (k ≠ l)
      s.modDie d fun x => { x with snap := x.snap.map fun p => { p with waiting := w }, snstat := if w = [] then x.snstat ||| 2 else x.snstat }

/-- The scope of the snapshot that a marker announces: over the bridge that of the die that has sent it, the package otherwise; of the scale-up domain over
its ports (DEDUCED, log 57). -/
def State.linkScope (s : State) (d : DieId) (l : Link) : BitVec 2 :=
  match l with
  | .bridge => match (s.die d).markerIn with | some m => m.2 | none => 1
  | .scaleUp _ => 2
  | _ => 0

/-- A die is cut by a marker: what the bridge has brought ahead of the bridge's marker is received first, and the link closes with nothing recorded (R385,
R387). -/
def State.cutBy (s : State) (d : DieId) (l : Link) (id : Word) (scope : BitVec 2) : State :=
  if l = .bridge then
    let s := ((s.drainLink d).takeCut d id scope false).modDie d fun x => { x with snap := x.snap.map fun p => { p with waiting := p.waiting.filter fun k => decide (k ≠ .bridge) } }
    s
  else s.takeCut d id scope false

/-- SNAPSHOT_MARKER (R385, R387): the first marker of an id cuts the die; then it closes its link; one of another id is dropped and counted
(DEDUCED, log 57). -/
def State.snapshotMarker (s : State) (d : DieId) (l : Link) (id : Word) : State :=
  let scope := s.linkScope d l
  let s := s.modDie d fun x => if l = .bridge then { x with markerIn := none } else x
  if (s.die d).start ≠ .running ∨ id = 0 ∨ l = .network then s
  else (if (s.die d).snap.isSome then s else s.cutBy d l id scope).closeLink d l id

/-- SNAPSHOT_MARKER (R385 to R387). -/
def execSnapshotMarker (d : DieId) (l : Link) (id : Word) (s : State) : Host.Outcome State Fault Refusal := .next ((s.snapshotMarker d l id).fresh)

/-- SNMK (R387): the host's marker closes the host-to-die channel. -/
def execSnmk (d : DieId) (v : Dw) (s : State) : Host.Outcome State Fault Refusal :=
  .next (if (s.die d).linkDown then s else s.closeLink d .host (v.setWidth 32))

/-! ## The dump and the resume (R388) -/

/-- The dump is due: every marker has arrived, and the die's own have left. -/
def State.dumpDue (s : State) (d : DieId) : Bool :=
  match (s.die d).snap with
  | some p => decide (p.waiting = []) && decide (p.outgoing = []) && !p.dumped
  | none => false

/-- The state of a core in the layout of R353, with the seat whose cause its frame reports. -/
def Ctx.image (x : Ctx) (chosen : Option SeatId) : List Byte :=
  (List.range 29440).flatMap fun i => leBytes (x.shadowDw chosen false false 0 i).toNat 8

/-- A place with the bytes that go there, each with its count. -/
def placeBytes (pa : Nat) (b : List Byte) : List Byte := leBytes pa 8 ++ leBytes b.length 8 ++ b

/-- What an operation of a seat asks of its home: its places, its data, and the operands of an atomic, a credit or a ring operation. -/
def OpKind.asks : OpKind → List Byte
  | .store pa b => placeBytes pa b
  | .stv blocks data => (blocks.mapIdx fun i pa => placeBytes pa ((List.range 64).map fun j => data.extractLsb' (8 * (64 * i + j)) 8)).flatten
  | .amo pa _ fn c t _ => placeBytes pa (leBytes fn.toNat 8 ++ leBytes c.toNat 8 ++ leBytes t.toNat 8)
  | .acred pa k => placeBytes pa (leBytes k 8)
  | .aread pa sel _ => placeBytes pa (leBytes sel 8)
  | .rgpub pa i | .rgpop pa i _ | .rgcur pa i _ | .chlnk pa i => placeBytes pa (leBytes i.toNat 8)
  | k => k.places.flatMap fun pa => placeBytes pa []

/-- What a home sends back: the result, or the data of a vector load. -/
def MemOp.answerBytes (o : MemOp) : List Byte :=
  match o.kind, o.reply with
  | .ldv _ _ _ _, _ => leBytes o.buf.toNat 1024
  | .amo _ _ _ _ _ _, _ => leBytes o.buf.toNat 8
  | _, some r => match r.val with | some v => leBytes v.1.toNat 8 | none => []
  | _, none => []

/-- A held message as the channel state has it: the places and bytes it carries, in a form of the model's own (DESIGN CHOICE, log 33). -/
def State.msgBytes (s : State) : Msg → List Byte
  | .inbound sid idx off b => leBytes sid 8 ++ leBytes idx 8 ++ leBytes off 8 ++ b
  | .unsupported => []
  | .write (.outside pa b) => placeBytes pa b
  | .write (.outsideAmo pa _ op v) => placeBytes pa (leBytes op.toNat 8 ++ leBytes v.toNat 8)
  | .write _ => []
  | .op n id => leBytes n.val 8 ++ leBytes id 8 ++ (match (s.coreAt n).op? id with | some o => o.kind.asks | none => [])
  | .copyAccess n id pa b => leBytes n.val 8 ++ leBytes id 8 ++ placeBytes pa b
  | .portAccess n g pa b => leBytes n.val 8 ++ leBytes g.val 8 ++ placeBytes pa b
  | .reply n id => leBytes n.val 8 ++ leBytes id 8 ++ (match (s.coreAt n).op? id with | some o => o.answerBytes | none => [])
  | .wake _ slot ph at_ => leBytes slot 8 ++ leBytes (bitN ph) 8 ++ leBytes at_ 8
  | .launch t r => leBytes t.pa 8 ++ leBytes (r.getD 0).toNat 64
  | .mirror sid q | .mirrored sid q => leBytes sid 8 ++ leBytes q.toNat 8
  | .amo pa _ fn c t => placeBytes pa (leBytes fn.toNat 8 ++ leBytes c.toNat 8 ++ leBytes t.toNat 8)
  | .credit slot k => placeBytes slot (leBytes k 8)
  | .token core k n t => leBytes t.pa 8 ++ leBytes core.val 8 ++ leBytes k.toNat 8 ++ leBytes n 8

/-- A copy as a dump holds it: its record, the chunks it has ended, and the writes of its chunks at work. -/
def Copy.dumpBytes (k : Copy) : List Byte :=
  leBytes k.record.toNat 64 ++ leBytes k.recPa 8 ++ leBytes k.done 8 ++ k.loads.flatMap fun x => x.chunk.flatMap fun a => placeBytes a.pa a.bytes

/-- What is kept of a frozen core beside its seats: the engine faults that wait for it. A frozen copy engine keeps its copies, where they stand (R368). -/
def Core.keptBytes (c : Core) : List Byte :=
  (if c.frozen = some .master then (c.efq ++ c.heldq).flatMap fun f => leBytes f.cause 8 ++ leBytes f.tval.toNat 8 else []) ++
  (if c.cpFrozen then (c.copies ++ c.latch.toList).flatMap Copy.dumpBytes else [])

/-- A session's entry in the layout of R412. -/
def Session.bits (z : Session) : BitVec 512 :=
  fld 0 (bitN z.isOpen) ||| fld 1 (bitN z.prim) ||| fld 2 (bitN z.rod) ||| fld 3 z.part.val ||| fld 8 z.ctx.val ||| fld 14 z.epq.val |||
  fld 32 z.lastsent.toNat ||| fld 64 z.cseq.toNat ||| fld 96 (z.fstr.getD 0) ||| fld 110 (bitN z.fstr.isSome) ||| fld 111 (bitN z.sstr.isSome) |||
  fld 112 (z.sstr.getD 0) ||| fld 128 (z.fin / 16) ||| fld 192 (z.sin / 16) ||| fld 256 (z.gslot / 16) ||| fld 320 z.raddr.toNat |||
  fld 448 z.rjob.toNat ||| fld 472 z.rpid.toNat

/-- A send that a queue holds, or that a cut die has queued (R386). -/
def Send.dumpBytes (m : Send) : List Byte := chunkBytes m.sid m.seq m.time m.bytes

/-- A ring of a frozen function: base, control and consumer's cursor, in a form of the model's own. -/
def Ring.dumpBytes (r : Ring) : List Byte := leBytes r.base.toNat 8 ++ leBytes r.ctl.toNat 8 ++ leBytes r.c 8 ++ leBytes r.cva.toNat 8

/-- What a dump holds (R388): every core's state and each occupied shadow, with the engine and the queues in them; the Cox entries, the slots and the region
entries; the state kept for frozen masters: cores, copy engines, endpoint queues with their sessions and sends, host functions with their rings; the sends
queued since the cut; the channel state (DESIGN CHOICE, log 33). -/
def State.dumpParts (s : State) (d : DieId) : List (List Byte) :=
  let x := s.die d
  (coresOf d).flatMap (fun n =>
    let c := s.coreAt n
    [c.ctx.image c.chosen, (match c.handler with | some h => h.saved.image (some h.tseat) | none => []),
     (match c.held with | some h => h.ctx.image none | none => []), c.keptBytes]) ++
  x.cox.map (fun k => leBytes k.bits.toNat 96) ++
  (s.slots.filter fun t => decide (homeDie t.pa = some d)).map (fun t => leBytes t.image.toNat 16 ++ leBytes t.entry.toNat 32) ++
  ((x.sessions.filter fun z => x.frozenQs.contains z.epq.val).map fun z => leBytes z.bits.toNat 64) ++
  ((x.sends.filter fun m => !m.asked || !s.queueFlows d m.sid).map Send.dumpBytes) ++
  (((List.finRange 64).filter fun r => x.frozenFns.contains (s.ring d r).part.val.succ).map fun r => (s.ring d r).dumpBytes) ++
  (match x.snap with | some p => p.channel.map fun m => s.msgBytes m.2 | none => [])

/-- The parts in an order that a choice at each place gives, each behind free bytes (DESIGN CHOICE, log 33). -/
def scatter (pick : Nat → Nat) (fill : Nat → List Byte) : Nat → List (List Byte) → List Byte
  | 0, _ => []
  | m + 1, l =>
    match l[pick m % l.length]? with
    | some p => fill m ++ p ++ scatter pick fill m (l.eraseIdx (pick m % l.length))
    | none => []

/-- The bytes of a dump: it holds its parts (R388); their order and what stands between them are not stated, so they are free values, a die having less than
2^40 bytes to dump (DESIGN CHOICE, log 33). -/
def State.dumpBytes (s : State) (d : DieId) : List Byte :=
  let parts := s.dumpParts d
  scatter (fun m => Config.pick s.free (1000 + 2 * m))
    (fun m => (List.range (Config.pick s.free (1001 + 2 * m) % 2 ^ 16)).map fun j => (Config.freeLine s.free (2 ^ 20 + 2 ^ 16 * m + j)).setWidth 8) parts.length parts

/-- The collector of COLLECT is there. -/
def State.collector (s : State) (d : DieId) : Bool :=
  (s.die d).collect.getLsbD 13 && ((s.die d).session? ((s.die d).collect.extractLsb' 0 13).toNat).isSome

/-- SNAPSHOT_DUMP (R388): to DMPBASE over the host link, else to the collector, as a send operation of its session (R411); too large for DMPSIZE, or with no
path, it fails (DESIGN CHOICE, log 33). -/
def State.snapshotDump (s : State) (d : DieId) : State :=
  if !s.dumpDue d then s
  else
    let b := s.dumpBytes d
    let id := match (s.die d).snap with | some p => p.id | none => 0
    let pa := hostBase + (s.die d).dmpbase.toNat
    let mark (bits : Dw) (s : State) : State :=
      s.modDie d fun x => { x with snap := x.snap.map fun p => { p with dumped := true }, snstat := x.snstat ||| bits }
    if (s.die d).dmpsize.toNat < b.length then mark 8 s
    else if !(s.die d).linkDown && decide (pa + b.length ≤ 2 ^ 56) then
      mark 4 ((s.plainStore pa b).outp (.dump d id true))
    else if s.collector d then mark 20 ((s.outp (.dump d id false)).sendOp d ((s.die d).collect.extractLsb' 0 13).toNat b)
    else mark 8 s

/-- SNAPSHOT_DUMP (R388). -/
def execSnapshotDump (d : DieId) (s : State) : Host.Outcome State Fault Refusal := .next ((s.snapshotDump d).fresh)

/-- A cut core runs on; the copies that the cut has suspended go on, but for those of a unit that stands held. -/
def State.resumeCore (s : State) (n : CoreId) : State :=
  let c := s.coreAt n
  let owners := (match c.unit, c.frozen with
    | some _, some (.stopped _ _) => []
    | some u, _ => [u.serial]
    | none, _ => []) ++ c.leaving.map fun l => l.unit.serial
  let s := if c.dbg.halted = some .cut then
      (s.modCore n Core.unhalt).traceUnitOf n 10 0
    else s
  owners.foldl (fun s o => s.resumePreempted n o) s

/-- A held message is performed (DEDUCED, log 67). -/
def State.performMsg (s : State) (d : DieId) (m : Msg) : State :=
  match m with
  | .inbound sid idx off bytes => s.inbound d sid idx off bytes
  | .unsupported => s.countDie d 61 1
  | .write w => s.writeHome w
  | .op n id => s.serve n id
  | .copyAccess _ _ _ _ | .portAccess _ _ _ _ => s.serveEngine m
  | .reply n id => s.answerComes n id
  | .wake w slot ph at_ => s.wakeWaiter slot ph at_ w
  | .launch t r => s.launchNow d.other t r
  | .mirror sid q => s.mirrorWrite d sid q
  | .mirrored sid q => s.mirrored d sid q
  | .amo pa w fn c t => s.amoStore pa w fn c t
  | .credit slot k => s.credit slot k
  | .token core k n t => s.tokenPost d.other t core k n

/-- SNAPSHOT_RESUME (R386, R388): the markers that have not left leave, and the other die takes the one before it (R385); what fell due while the die was cut
is applied in time order, the cores resume on one edge, and what was held is performed in its order of arrival. -/
def State.snapshotResume (s : State) (d : DieId) : State :=
  match (s.die d).snap with
  | none => s
  | some p =>
    let now := (s.die d).time
    let s := s.markersOut d true
    let s := match (s.die d.other).markerIn with | some m => s.snapshotMarker d.other .bridge m.1 | none => s
    let s := s.modDie d fun x => { x with snap := none, sends := x.sends.map fun m => { m with asked := true } }
    let s := s.applyDue d now (s.dueFuel d now)
    let s := (coresOf d).foldl State.resumeCore s
    p.heldMsgs.foldl (fun s m => s.performMsg d m) s

/-- SNAPSHOT_RESUME (R386, R388). -/
def execSnapshotResume (d : DieId) (s : State) : Host.Outcome State Fault Refusal := .next ((s.snapshotResume d).fresh)

/-- SNCTL asks for a resume after the dump. -/
def State.autoResume (s : State) (d : DieId) : Bool :=
  (s.die d).snctl.getLsbD 4 && (match (s.die d).snap with | some p => p.dumped | none => false)

end Sys2Proof.Machine
end

