-- ==== Sys2Proof/Machine/RegWrite.lean ====
section
/-! DEFINITION. Accesses to the registers of BAR0 (R307, R321, R373, R398): the value that a read returns, and the writes that only store; a write with
an effect of its own has its own step. -/

namespace Sys2Proof.Machine

open Sys2Proof

/-- A package core by its number on a die. -/
def dieCoreId (d : DieId) (i : Nat) : CoreId := ⟨(d.toNat * 176 + i) % 352, Nat.mod_lt _ (by decide)⟩

/-- The core that DSEL selects, none from 176 on (R373). -/
def State.selCore (s : State) (d : DieId) : Option CoreId := if (s.die d).dsel < 176 then some (dieCoreId d (s.die d).dsel) else none

def State.modDbg (s : State) (d : DieId) (f : Dbg → Dbg) : State :=
  match s.selCore d with
  | some n => s.modCore n fun c => { c with dbg := f c.dbg }
  | none => s

/-- Per-core debug registers (R373, R383, R389); a reserved bit is written as zero (DEDUCED, log 58) (DEDUCED, log 68). -/
def State.writeDebug (s : State) (d : DieId) (off : Nat) (v : Dw) : State :=
  if off = 0x4018 then s.modDbg d fun x => { x with dcfg := v.setWidth 3 }
  else if off = 0x4028 then s.modDbg d fun x => { x with stopAt := v }
  else if 0x4030 ≤ off ∧ off < 0x4050 then s.modDbg d fun x => { x with bps := setVec x.bps ((off - 0x4030) / 8) fun _ => v &&& ~~~(2 : Dw) }
  else if off = 0x4050 then s.modDbg d fun x => if v.toNat ≤ 29439 then { x with dfidx := v.toNat } else x
  else if off = 0x4060 then s.modDbg d fun x => if v.toNat < 320 then { x with dcidx := v.toNat } else x
  else if 0x4100 ≤ off ∧ off < 0x4180 then
    let i := (off - 0x4100) / 16
    if off % 16 = 0 then s.modDbg d fun x => { x with ecsel := setVec x.ecsel i fun _ => v.setWidth 16 }
    else s.modDbg d fun x => { x with ecval := setVec x.ecval i fun _ => v.setWidth 48 }
  else if off = 0x4C00 then s.modDbg d fun x => { x with rlbase := v }
  else if off = 0x4C08 then s.modDbg d fun x => { x with rlsize := v }
  else s

/-- Per-crew trace registers (R373, R377). -/
def State.writeTrace (s : State) (d : DieId) (off : Nat) (v : Dw) : State :=
  match s.selCore d with
  | none => s
  | some n =>
    let w := crewOf n
    if off = 0x4408 then s.setCrew w { s.crewAt w with trbase := v }
    else if off = 0x4410 then s.setCrew w { s.crewAt w with trsize := v }
    else s

/-- The registers of the die (R321, R373, R383, R398). -/
def State.writeDie (s : State) (d : DieId) (off : Nat) (v : Dw) : State :=
  if 0x0100 ≤ off ∧ off < 0x1100 ∧ off % 64 = 0 then
    s.modRing d (Fin.ofNat 64 ((off - 0x0100) / 64)) fun x => if x.ctl.getLsbD 0 then x else { x with base := v }
  else if off = 0x3010 then s.modDie d fun x => { x with pwrctl := v &&& 7 }
  else if off = 0x4000 then s.modDie d fun x => { x with dsel := v.toNat % 256 }
  else if 0x4200 ≤ off ∧ off < 0x4400 then
    let j := (off - 0x4200) / 16
    if off % 16 = 0 then s.modDie d fun x => { x with ecsel := setVec x.ecsel j fun _ => v.setWidth 16 }
    else s.modDie d fun x => { x with ecval := setVec x.ecval j fun _ => v.setWidth 48 }
  else if off = 0x4800 then (if v.extractLsb' 2 2 = 3 then s else s.modDie d fun x => { x with snctl := v &&& 0x1C })
  else if off = 0x4808 then s.modDie d fun x => { x with snid := v.setWidth 32 }
  else if off = 0x4818 then s.modDie d fun x => { x with dmpbase := v }
  else if off = 0x4820 then s.modDie d fun x => { x with dmpsize := v }
  else if off = 0x4828 then s.modDie d fun x => { x with collect := v &&& 0x3FFF }
  else if off = 0x4830 then s.modDie d fun x => { x with mkhost := v &&& ~~~(63 : Dw) }
  else if off = 0x4408 ∨ off = 0x4410 then s.writeTrace d off v
  else s.writeDebug d off v

/-! ## Reads (R307, R321, R373) -/

/-- The core of DSEL's registers (R373, R381, R383, R389). -/
def Core.debugValue (c : Core) (off : Nat) : Dw :=
  let g := c.dbg
  if off = 0x4010 then
    fld 0 (bit g.halted.isSome) ||| fld 1 (bit g.pending.isSome) ||| fld 2 (bit g.deferred) ||| fld 3 (bit c.unit.isSome) |||
    fld 4 (match g.halted with | some w => w.code | none => 0)
  else if off = 0x4018 then g.dcfg.setWidth 64
  else if off = 0x4020 then c.csc
  else if off = 0x4028 then g.stopAt
  else if 0x4030 ≤ off ∧ off < 0x4050 then g.bps.toList.getD ((off - 0x4030) / 8) 0
  else if off = 0x4050 then BitVec.ofNat 64 g.dfidx
  else if off = 0x4058 then c.dfValue
  else if off = 0x4060 then BitVec.ofNat 64 g.dcidx
  else if off = 0x4068 then (g.cells.toList.getD g.dcidx 0).setWidth 64
  else if 0x4100 ≤ off ∧ off < 0x4180 then
    let i := (off - 0x4100) / 16
    if off % 16 = 0 then (g.ecsel.toList.getD i 0).setWidth 64 else (g.ecval.toList.getD i 0).setWidth 64
  else if off = 0x4C00 then g.rlbase
  else if off = 0x4C08 then g.rlsize
  else if off = 0x4C10 then g.rlwr
  else if off = 0x4C18 then g.rlrd
  else 0

/-- The trace registers of a crew (R373, R377). -/
def Crew.traceValue (c : Crew) (off : Nat) : Dw :=
  if off = 0x4400 then c.trctl
  else if off = 0x4408 then c.trbase
  else if off = 0x4410 then c.trsize
  else if off = 0x4418 then c.trwr
  else if off = 0x4420 then c.trrd
  else if off = 0x4428 then BitVec.ofNat 64 c.trlost
  else 0

/-- The registers of a ring (R321, R322). -/
def Ring.value (x : Ring) (off : Nat) : Dw :=
  if off = 0 then x.base else if off = 8 then x.ctl else if off = 24 then x.stat else 0

/-- The ring whose registers an offset falls in (R321). -/
def ringAt (off : Nat) : Option (Fin 64) := if 0x0100 ≤ off ∧ off < 0x1100 then some (Fin.ofNat 64 ((off - 0x0100) / 64)) else none

/-- The registers of the die, as function 0 reads them (R321, R373, R383, R398). -/
def State.dieValue (s : State) (d : DieId) (off : Nat) : Dw :=
  let x := s.die d
  match ringAt off with
  | some r => (s.ring d r).value ((off - 0x0100) % 64)
  | none =>
    if off = 0x0000 then BitVec.ofNat 64 (s.hident d)
    else if off = 0x0008 then x.hstat.setWidth 64
    else if off = 0x0010 then BitVec.ofNat 64 x.time
    else if off = 0x2000 then x.mboxin
    else if off = 0x2008 then x.mboxout
    else if off = 0x2010 then x.mboxst.setWidth 64
    else if off = 0x3000 then BitVec.ofNat 64 x.bstat
    else if off = 0x3010 then x.pwrctl
    else if off = 0x3018 then fld 0 x.clkStep ||| fld 8 x.temp.toNat
    else if off = 0x4000 then BitVec.ofNat 64 x.dsel
    else if 0x4200 ≤ off ∧ off < 0x4400 then
      let j := (off - 0x4200) / 16
      if off % 16 = 0 then (x.ecsel.toList.getD j 0).setWidth 64 else (x.ecval.toList.getD j 0).setWidth 64
    else if off = 0x4800 then x.snctl
    else if off = 0x4808 then x.snid.setWidth 64
    else if off = 0x4810 then x.snstat
    else if off = 0x4818 then x.dmpbase
    else if off = 0x4820 then x.dmpsize
    else if off = 0x4828 then x.collect
    else if off = 0x4830 then x.mkhost
    else match s.selCore d with
      | none => 0
      | some n => if 0x4400 ≤ off ∧ off < 0x4430 then (s.crewAt (crewOf n)).traceValue off else (s.coreAt n).debugValue off

/-- The policy core or function 0 makes the access (R373). -/
def barWhole (a : Bar) : Bool := a.policy || decide (a.fn = 0)

/-- What an access reaches: the policy core the debug registers (R373), function 0 all of them, a virtual function DTIME and the registers of its partition's
rings (R307). -/
def State.reaches (s : State) (d : DieId) (a : Bar) : Bool :=
  if a.policy then decide (0x4000 ≤ a.off) && decide (a.off < 0x5000)
  else decide (a.fn = 0) || decide (a.off = 0x0010) || (match ringAt a.off with | some r => decide (ringFn (s.ring d r).part = a.fn) | none => false)

/-- An aligned access of 64 bits to a register that it reaches; another reads zero and writes nothing (R307, R321). -/
def State.barOk (s : State) (d : DieId) (a : Bar) : Bool := decide (a.size = 8) && decide (a.off % 8 = 0) && s.reaches d a

/-- What a read returns (R307, R321). -/
def State.registerValue (s : State) (d : DieId) (a : Bar) : Dw := if s.barOk d a then s.dieValue d a.off else 0

/-- The effects of a read: MBOXOUT has been read, and DFIDX moves on (R321, R373). -/
def State.readEffect (s : State) (d : DieId) (off : Nat) : State :=
  if off = 0x2008 then s.modDie d fun x => { x with mboxst := x.mboxst &&& 1 }
  else if off = 0x4058 then match s.selCore d with | some n => s.dfdataStep n none | none => s
  else s

/-- A read of a register (R307, R321, R373) (DESIGN CHOICE, log 56). -/
def State.registerRead (s : State) (d : DieId) (a : Bar) : State :=
  let s' := if s.barOk d a && barWhole a then s.readEffect d a.off else s
  s'.outp (.registerRead d a (s.registerValue d a))

/-- A write that only stores: a virtual function writes its rings' RBASE alone, its RCTL being read-only (R307) (DESIGN CHOICE, log 56). -/
def State.registerStore (s : State) (d : DieId) (a : Bar) (v : Dw) : State :=
  if s.barOk d a then s.writeDie d a.off v else s

/-- REGISTER_WRITE: an access of a function's window, which a host link that is down does not carry, or of the policy core, with the value written, none for a
read (R307, R321, R373, R388) (DESIGN CHOICE, log 56). -/
def execRegisterWrite (d : DieId) (a : Bar) (w : Option Dw) (s : State) : Host.Outcome State Fault Refusal :=
  .next (if (s.die d).start = .off ∨ ((s.die d).linkDown ∧ a.policy = false) then s
    else match w with
      | some v => s.registerStore d a v
      | none => s.registerRead d a)

end Sys2Proof.Machine
end

