-- ==== Sys2Proof/Machine/Dispatch.lean ====
section
/-! DEFINITION. One arm per step of the part, each a direct call of its meaning. -/

namespace Sys2Proof.Machine

open Sys2Proof

/-- What one step of the table does in a state (DESIGN CHOICE, log 16). -/
def exec (i : Instr) (s : State) : Host.Outcome State Fault Refusal :=
  match i with
  | .add st d a b => Sys2Proof.Machine.execAdd st d a b s
  | .sub st d a b => Sys2Proof.Machine.execSub st d a b s
  | .mul st d a b => Sys2Proof.Machine.execMul st d a b s
  | .mulh st d a b => Sys2Proof.Machine.execMulh st d a b s
  | .mulhu st d a b => Sys2Proof.Machine.execMulhu st d a b s
  | .div st d a b => Sys2Proof.Machine.execDiv st d a b s
  | .divu st d a b => Sys2Proof.Machine.execDivu st d a b s
  | .rem st d a b => Sys2Proof.Machine.execRem st d a b s
  | .and st d a b => Sys2Proof.Machine.execAnd st d a b s
  | .or st d a b => Sys2Proof.Machine.execOr st d a b s
  | .xor st d a b => Sys2Proof.Machine.execXor st d a b s
  | .shl st d a b => Sys2Proof.Machine.execShl st d a b s
  | .shr st d a b => Sys2Proof.Machine.execShr st d a b s
  | .sar st d a b => Sys2Proof.Machine.execSar st d a b s
  | .min st d a b => Sys2Proof.Machine.execMin st d a b s
  | .max st d a b => Sys2Proof.Machine.execMax st d a b s
  | .slt st d a b => Sys2Proof.Machine.execSlt st d a b s
  | .sltu st d a b => Sys2Proof.Machine.execSltu st d a b s
  | .addi st d a imm => Sys2Proof.Machine.execAddi st d a imm s
  | .andi st d a imm => Sys2Proof.Machine.execAndi st d a imm s
  | .ori st d a imm => Sys2Proof.Machine.execOri st d a imm s
  | .xori st d a imm => Sys2Proof.Machine.execXori st d a imm s
  | .shli st d a imm => Sys2Proof.Machine.execShli st d a imm s
  | .shri st d a imm => Sys2Proof.Machine.execShri st d a imm s
  | .sari st d a imm => Sys2Proof.Machine.execSari st d a imm s
  | .slti st d a imm => Sys2Proof.Machine.execSlti st d a imm s
  | .lui st d imm => Sys2Proof.Machine.execLui st d imm s
  | .beq st a b imm => Sys2Proof.Machine.execBeq st a b imm s
  | .bne st a b imm => Sys2Proof.Machine.execBne st a b imm s
  | .blt st a b imm => Sys2Proof.Machine.execBlt st a b imm s
  | .bge st a b imm => Sys2Proof.Machine.execBge st a b imm s
  | .bltu st a b imm => Sys2Proof.Machine.execBltu st a b imm s
  | .bgeu st a b imm => Sys2Proof.Machine.execBgeu st a b imm s
  | .jmp st imm => Sys2Proof.Machine.execJmp st imm s
  | .jal st imm => Sys2Proof.Machine.execJal st imm s
  | .jr st a => Sys2Proof.Machine.execJr st a s
  | .lset st d a imm => Sys2Proof.Machine.execLset st d a imm s
  | .spawn st a => Sys2Proof.Machine.execSpawn st a s
  | .park st a b fn => Sys2Proof.Machine.execPark st a b fn s
  | .exit st => Sys2Proof.Machine.execExit st s
  | .cncl st a b fn => Sys2Proof.Machine.execCncl st a b fn s
  | .crd st d a b fn => Sys2Proof.Machine.execCrd st d a b fn s
  | .sysr st d sys => Sys2Proof.Machine.execSysr st d sys s
  | .sysw st a sys => Sys2Proof.Machine.execSysw st a sys s
  | .trap st sys => Sys2Proof.Machine.execTrap st sys s
  | .rft st => Sys2Proof.Machine.execRft st s
  | .time st d => Sys2Proof.Machine.execTime st d s
  | .scope st e sm => Sys2Proof.Machine.execScope st e sm s
  | .aadd st d a b => Sys2Proof.Machine.execAadd st d a b s
  | .asub st d a b => Sys2Proof.Machine.execAsub st d a b s
  | .amul st d a b => Sys2Proof.Machine.execAmul st d a b s
  | .aand st d a b => Sys2Proof.Machine.execAand st d a b s
  | .aor st d a b => Sys2Proof.Machine.execAor st d a b s
  | .ashl st d a b => Sys2Proof.Machine.execAshl st d a b s
  | .ashr st d a b => Sys2Proof.Machine.execAshr st d a b s
  | .aaddi st d a imm => Sys2Proof.Machine.execAaddi st d a imm s
  | .alui st d imm => Sys2Proof.Machine.execAlui st d imm s
  | .abeq st a b imm => Sys2Proof.Machine.execAbeq st a b imm s
  | .abne st a b imm => Sys2Proof.Machine.execAbne st a b imm s
  | .ablt st a b imm => Sys2Proof.Machine.execAblt st a b imm s
  | .abge st a b imm => Sys2Proof.Machine.execAbge st a b imm s
  | .ajmp st imm => Sys2Proof.Machine.execAjmp st imm s
  | .ajr st a => Sys2Proof.Machine.execAjr st a s
  | .ldb st t b os pm off => Sys2Proof.Machine.execLdb st t b os pm off s
  | .ldbs st t b os pm off => Sys2Proof.Machine.execLdbs st t b os pm off s
  | .ldh st t b os pm off => Sys2Proof.Machine.execLdh st t b os pm off s
  | .ldhs st t b os pm off => Sys2Proof.Machine.execLdhs st t b os pm off s
  | .ldw st t b os pm off => Sys2Proof.Machine.execLdw st t b os pm off s
  | .ldws st t b os pm off => Sys2Proof.Machine.execLdws st t b os pm off s
  | .ldd st t b os pm off => Sys2Proof.Machine.execLdd st t b os pm off s
  | .stb st t b os pm off => Sys2Proof.Machine.execStb st t b os pm off s
  | .sth st t b os pm off => Sys2Proof.Machine.execSth st t b os pm off s
  | .stw st t b os pm off => Sys2Proof.Machine.execStw st t b os pm off s
  | .std st t b os pm off => Sys2Proof.Machine.execStd st t b os pm off s
  | .ldv st t b os pm off => Sys2Proof.Machine.execLdv st t b os pm off s
  | .stv st t b os pm off => Sys2Proof.Machine.execStv st t b os pm off s
  | .qbind st d e r => Sys2Proof.Machine.execQbind st d e r s
  | .qpat st t b os pm c => Sys2Proof.Machine.execQpat st t b os pm c s
  | .qstop st d => Sys2Proof.Machine.execQstop st d s
  | .qmc st t b os pm c => Sys2Proof.Machine.execQmc st t b os pm c s
  | .amoadd st t b os pm c fn => Sys2Proof.Machine.execAmoadd st t b os pm c fn s
  | .amomin st t b os pm c fn => Sys2Proof.Machine.execAmomin st t b os pm c fn s
  | .amomax st t b os pm c fn => Sys2Proof.Machine.execAmomax st t b os pm c fn s
  | .amoand st t b os pm c fn => Sys2Proof.Machine.execAmoand st t b os pm c fn s
  | .amoor st t b os pm c fn => Sys2Proof.Machine.execAmoor st t b os pm c fn s
  | .amoxor st t b os pm c fn => Sys2Proof.Machine.execAmoxor st t b os pm c fn s
  | .amoswp st t b os pm c fn => Sys2Proof.Machine.execAmoswp st t b os pm c fn s
  | .amocas st t b os pm c fn => Sys2Proof.Machine.execAmocas st t b os pm c fn s
  | .aset st t b os pm => Sys2Proof.Machine.execAset st t b os pm s
  | .afree st b os pm off => Sys2Proof.Machine.execAfree st b os pm off s
  | .await st t b os pm off => Sys2Proof.Machine.execAwait st t b os pm off s
  | .aread st t b os pm off => Sys2Proof.Machine.execAread st t b os pm off s
  | .acred st b os pm c => Sys2Proof.Machine.execAcred st b os pm c s
  | .cpy st b os pm off => Sys2Proof.Machine.execCpy st b os pm off s
  | .gath st b os pm off => Sys2Proof.Machine.execGath st b os pm off s
  | .scat st b os pm off => Sys2Proof.Machine.execScat st b os pm off s
  | .cpyr st b os pm off => Sys2Proof.Machine.execCpyr st b os pm off s
  | .chlnk st t b os pm off => Sys2Proof.Machine.execChlnk st t b os pm off s
  | .chkck st b os pm off => Sys2Proof.Machine.execChkck st b os pm off s
  | .rgres st t b os pm => Sys2Proof.Machine.execRgres st t b os pm s
  | .rgpub st t b os pm => Sys2Proof.Machine.execRgpub st t b os pm s
  | .rgpop st t b os pm c => Sys2Proof.Machine.execRgpop st t b os pm c s
  | .rgcur st t b os pm c => Sys2Proof.Machine.execRgcur st t b os pm c s
  | .waita st b os pm off => Sys2Proof.Machine.execWaita st b os pm off s
  | .vadd st d a b p ty => Sys2Proof.Machine.execVadd st d a b p ty s
  | .vsub st d a b p ty => Sys2Proof.Machine.execVsub st d a b p ty s
  | .vmul st d a b p ty => Sys2Proof.Machine.execVmul st d a b p ty s
  | .vfma st d a b p ty => Sys2Proof.Machine.execVfma st d a b p ty s
  | .vfms st d a b p ty => Sys2Proof.Machine.execVfms st d a b p ty s
  | .vscac st d a b p ty => Sys2Proof.Machine.execVscac st d a b p ty s
  | .vmax st d a b p ty => Sys2Proof.Machine.execVmax st d a b p ty s
  | .vmin st d a b p ty => Sys2Proof.Machine.execVmin st d a b p ty s
  | .vabs st d a p ty => Sys2Proof.Machine.execVabs st d a p ty s
  | .vneg st d a p ty => Sys2Proof.Machine.execVneg st d a p ty s
  | .vrcp st d a p ty => Sys2Proof.Machine.execVrcp st d a p ty s
  | .vrsq st d a p ty => Sys2Proof.Machine.execVrsq st d a p ty s
  | .vexp2 st d a p ty => Sys2Proof.Machine.execVexp2 st d a p ty s
  | .vlog2 st d a p ty => Sys2Proof.Machine.execVlog2 st d a p ty s
  | .vcmpeq st d a b p ty => Sys2Proof.Machine.execVcmpeq st d a b p ty s
  | .vcmpne st d a b p ty => Sys2Proof.Machine.execVcmpne st d a b p ty s
  | .vcmplt st d a b p ty => Sys2Proof.Machine.execVcmplt st d a b p ty s
  | .vcmple st d a b p ty => Sys2Proof.Machine.execVcmple st d a b p ty s
  | .vsel st d a b p ty => Sys2Proof.Machine.execVsel st d a b p ty s
  | .vand st d a b p ty => Sys2Proof.Machine.execVand st d a b p ty s
  | .vor st d a b p ty => Sys2Proof.Machine.execVor st d a b p ty s
  | .vxor st d a b p ty => Sys2Proof.Machine.execVxor st d a b p ty s
  | .vshl st d a b p ty => Sys2Proof.Machine.execVshl st d a b p ty s
  | .vshr st d a b p ty => Sys2Proof.Machine.execVshr st d a b p ty s
  | .vsar st d a b p ty => Sys2Proof.Machine.execVsar st d a b p ty s
  | .pand st d a b => Sys2Proof.Machine.execPand st d a b s
  | .por st d a b => Sys2Proof.Machine.execPor st d a b s
  | .pnot st d a => Sys2Proof.Machine.execPnot st d a s
  | .pcnt st d a => Sys2Proof.Machine.execPcnt st d a s
  | .vcvt st d a b p ty => Sys2Proof.Machine.execVcvt st d a b p ty s
  | .vqnt st d a p ty => Sys2Proof.Machine.execVqnt st d a p ty s
  | .vdq st d a p ty => Sys2Proof.Machine.execVdq st d a p ty s
  | .vrsum st d a b p ty => Sys2Proof.Machine.execVrsum st d a b p ty s
  | .vrmax st d a b p ty => Sys2Proof.Machine.execVrmax st d a b p ty s
  | .vperm st d a b p ty => Sys2Proof.Machine.execVperm st d a b p ty s
  | .vbcast st d a b p ty => Sys2Proof.Machine.execVbcast st d a b p ty s
  | .vscan st d a b p ty => Sys2Proof.Machine.execVscan st d a b p ty s
  | .vaddiF32 st d md imm => Sys2Proof.Machine.execVaddiF32 st d md imm s
  | .vmuliF32 st d md imm => Sys2Proof.Machine.execVmuliF32 st d md imm s
  | .vmoviF32 st d md imm => Sys2Proof.Machine.execVmoviF32 st d md imm s
  | .vaddiF16 st d md imm => Sys2Proof.Machine.execVaddiF16 st d md imm s
  | .vmuliF16 st d md imm => Sys2Proof.Machine.execVmuliF16 st d md imm s
  | .vmoviF16 st d md imm => Sys2Proof.Machine.execVmoviF16 st d md imm s
  | .vaddiBF16 st d md imm => Sys2Proof.Machine.execVaddiBF16 st d md imm s
  | .vmuliBF16 st d md imm => Sys2Proof.Machine.execVmuliBF16 st d md imm s
  | .vmoviBF16 st d md imm => Sys2Proof.Machine.execVmoviBF16 st d md imm s
  | .vaddiI32 st d md imm => Sys2Proof.Machine.execVaddiI32 st d md imm s
  | .vmoviI32 st d md imm => Sys2Proof.Machine.execVmoviI32 st d md imm s
  | .vandi st d md imm => Sys2Proof.Machine.execVandi st d md imm s
  | .vori st d md imm => Sys2Proof.Machine.execVori st d md imm s
  | .xadd st d a b imm => Sys2Proof.Machine.execXadd st d a b imm s
  | .xsub st d a b imm => Sys2Proof.Machine.execXsub st d a b imm s
  | .xmul st d a b imm => Sys2Proof.Machine.execXmul st d a b imm s
  | .xli st d a b imm => Sys2Proof.Machine.execXli st d a b imm s
  | .xget st d b vr => Sys2Proof.Machine.execXget st d b vr s
  | .xput st a b vr => Sys2Proof.Machine.execXput st a b vr s
  | .vbz st a imm => Sys2Proof.Machine.execVbz st a imm s
  | .vbnz st a imm => Sys2Proof.Machine.execVbnz st a imm s
  | .vjmp st imm => Sys2Proof.Machine.execVjmp st imm s
  | .vsweep st d a b p ty => Sys2Proof.Machine.execVsweep st d a b p ty s
  | .vjlim st d a b p ty => Sys2Proof.Machine.execVjlim st d a b p ty s
  | .vdist st d a b p ty => Sys2Proof.Machine.execVdist st d a b p ty s
  | .vdph st imm => Sys2Proof.Machine.execVdph st imm s
  | .vmov st d a p ty => Sys2Proof.Machine.execVmov st d a p ty s
  | .vpack st d a b p ty => Sys2Proof.Machine.execVpack st d a b p ty s
  | .vunpk st d a b p ty => Sys2Proof.Machine.execVunpk st d a b p ty s
  | .vsplt st d a b p ty => Sys2Proof.Machine.execVsplt st d a b p ty s
  | .vcat st d a b p ty => Sys2Proof.Machine.execVcat st d a b p ty s
  | .mma st o a b f kk => Sys2Proof.Machine.execMma st o a b f kk s
  | .mmaj st o a b f kk => Sys2Proof.Machine.execMmaj st o a b f kk s
  | .mdrn st o => Sys2Proof.Machine.execMdrn st o s
  | .mzero st => Sys2Proof.Machine.execMzero st s
  | .ftset st a e => Sys2Proof.Machine.execFtset st a e s
  | .ftget st d e => Sys2Proof.Machine.execFtget st d e s
  | .mpidx st d => Sys2Proof.Machine.execMpidx st d s
  | .madd st d a imm => Sys2Proof.Machine.execMadd st d a imm s
  | .msub st d a imm => Sys2Proof.Machine.execMsub st d a imm s
  | .mand st d a imm => Sys2Proof.Machine.execMand st d a imm s
  | .mor st d a imm => Sys2Proof.Machine.execMor st d a imm s
  | .mshl st d a imm => Sys2Proof.Machine.execMshl st d a imm s
  | .mshr st d a imm => Sys2Proof.Machine.execMshr st d a imm s
  | .mli st d imm => Sys2Proof.Machine.execMli st d imm s
  | .mlui st d imm => Sys2Proof.Machine.execMlui st d imm s
  | .mbz st a imm => Sys2Proof.Machine.execMbz st a imm s
  | .mbnz st a imm => Sys2Proof.Machine.execMbnz st a imm s
  | .mblt st a b imm => Sys2Proof.Machine.execMblt st a b imm s
  | .mjmp st imm => Sys2Proof.Machine.execMjmp st imm s
  | .mjr st a => Sys2Proof.Machine.execMjr st a s
  | .nop st => Sys2Proof.Machine.execNop st s
  | .mloop st l n stg ms => Sys2Proof.Machine.execMloop st l n stg ms s
  | .tpost st k n => Sys2Proof.Machine.execTpost st k n s
  | .twait st k n => Sys2Proof.Machine.execTwait st k n s
  | .fset st f v => Sys2Proof.Machine.execFset st f v s
  | .fwait st f v => Sys2Proof.Machine.execFwait st f v s
  | .brk st c => Sys2Proof.Machine.execBrk st c s
  | .bndy st => Sys2Proof.Machine.execBndy st s
  | .resultLand n => Sys2Proof.Machine.execResultLand n s
  | .loadHoldEnd n => Sys2Proof.Machine.execLoadHoldEnd n s
  | .queueEntryLand n q k => Sys2Proof.Machine.execQueueEntryLand n q k s
  | .strokeRendezvous n => Sys2Proof.Machine.execStrokeRendezvous n s
  | .seatRunOut n k => Sys2Proof.Machine.execSeatRunOut n k s
  | .operationPerformed n id => Sys2Proof.Machine.execOperationPerformed n id s
  | .homeWrite w => Sys2Proof.Machine.execHomeWrite w s
  | .mirrorAck d sid => Sys2Proof.Machine.execMirrorAck d sid s
  | .guardedDeadline slot => Sys2Proof.Machine.execGuardedDeadline slot s
  | .slotPoll w => Sys2Proof.Machine.execSlotPoll w s
  | .coxSlotPoll d e => Sys2Proof.Machine.execCoxSlotPoll d e s
  | .waitaWake n => Sys2Proof.Machine.execWaitaWake n s
  | .pageWalkStart d => Sys2Proof.Machine.execPageWalkStart d s
  | .pageWalkComplete d k => Sys2Proof.Machine.execPageWalkComplete d k s
  | .copySuspend n id => Sys2Proof.Machine.execCopySuspend n id s
  | .copyComplete n id => Sys2Proof.Machine.execCopyComplete n id s
  | .spillCommandTake n => Sys2Proof.Machine.execSpillCommandTake n s
  | .spillFault n => Sys2Proof.Machine.execSpillFault n s
  | .chainAdvance n => Sys2Proof.Machine.execChainAdvance n s
  | .spawnPush n => Sys2Proof.Machine.execSpawnPush n s
  | .parkRegister n => Sys2Proof.Machine.execParkRegister n s
  | .unitPlace n => Sys2Proof.Machine.execUnitPlace n s
  | .unitRetire n k => Sys2Proof.Machine.execUnitRetire n k s
  | .phaseComplete d phid => Sys2Proof.Machine.execPhaseComplete d phid s
  | .taskEntryFree d => Sys2Proof.Machine.execTaskEntryFree d s
  | .cancelTimeout n => Sys2Proof.Machine.execCancelTimeout n s
  | .trapEntry n => Sys2Proof.Machine.execTrapEntry n s
  | .masterThaw m => Sys2Proof.Machine.execMasterThaw m s
  | .masterReset m => Sys2Proof.Machine.execMasterReset m s
  | .engineFaultTake n => Sys2Proof.Machine.execEngineFaultTake n s
  | .matrixOpStart n => Sys2Proof.Machine.execMatrixOpStart n s
  | .spanToBackBank n => Sys2Proof.Machine.execSpanToBackBank n s
  | .drainEntryPush n => Sys2Proof.Machine.execDrainEntryPush n s
  | .mdrnStart n => Sys2Proof.Machine.execMdrnStart n s
  | .mzeroComplete n => Sys2Proof.Machine.execMzeroComplete n s
  | .jointStart w => Sys2Proof.Machine.execJointStart w s
  | .jointComplete w => Sys2Proof.Machine.execJointComplete w s
  | .preemptRequest d part => Sys2Proof.Machine.execPreemptRequest d part s
  | .boundaryStopTimeout n => Sys2Proof.Machine.execBoundaryStopTimeout n s
  | .urgentStopFreeze n => Sys2Proof.Machine.execUrgentStopFreeze n s
  | .contextSave n => Sys2Proof.Machine.execContextSave n s
  | .contextRestore n => Sys2Proof.Machine.execContextRestore n s
  | .sliceEnd w => Sys2Proof.Machine.execSliceEnd w s
  | .sliceSwitch w => Sys2Proof.Machine.execSliceSwitch w s
  | .ringSegmentLink n => Sys2Proof.Machine.execRingSegmentLink n s
  | .ringSegmentPoll k => Sys2Proof.Machine.execRingSegmentPoll k s
  | .coxRelease d e => Sys2Proof.Machine.execCoxRelease d e s
  | .phaseSkip d e => Sys2Proof.Machine.execPhaseSkip d e s
  | .powerEvaluation d temp above => Sys2Proof.Machine.execPowerEvaluation d temp above s
  | .powerOn d r => Sys2Proof.Machine.execPowerOn d r s
  | .coldStart d r => Sys2Proof.Machine.execColdStart d r s
  | .warmStart d r => Sys2Proof.Machine.execWarmStart d r s
  | .startTimeout d => Sys2Proof.Machine.execStartTimeout d s
  | .atreq d buf => Sys2Proof.Machine.execAtreq d buf s
  | .scrub d => Sys2Proof.Machine.execScrub d s
  | .dataErrorDetected e => Sys2Proof.Machine.execDataErrorDetected e s
  | .ringTake d r => Sys2Proof.Machine.execRingTake d r s
  | .ringWatchWake d r => Sys2Proof.Machine.execRingWatchWake d r s
  | .rdoor d x => Sys2Proof.Machine.execRdoor d x s
  | .ringEnable d r v => Sys2Proof.Machine.execRingEnable d r v s
  | .ringDisable d r v => Sys2Proof.Machine.execRingDisable d r v s
  | .phase d cmd => Sys2Proof.Machine.execPhase d cmd s
  | .cancel d cmd => Sys2Proof.Machine.execCancel d cmd s
  | .gload d cmd => Sys2Proof.Machine.execGload d cmd s
  | .gfree d cmd => Sys2Proof.Machine.execGfree d cmd s
  | .kload d cmd => Sys2Proof.Machine.execKload d cmd s
  | .kfree d cmd => Sys2Proof.Machine.execKfree d cmd s
  | .jobOpen d cmd => Sys2Proof.Machine.execJobOpen d cmd s
  | .jobClose d cmd => Sys2Proof.Machine.execJobClose d cmd s
  | .stream d cmd => Sys2Proof.Machine.execStream d cmd s
  | .badCommand d cmd => Sys2Proof.Machine.execBadCommand d cmd s
  | .reconfigure d v => Sys2Proof.Machine.execReconfigure d v s
  | .reconfigDrainDone => Sys2Proof.Machine.execReconfigDrainDone s
  | .sessionOpen d v => Sys2Proof.Machine.execSessionOpen d v s
  | .sessionClose d v => Sys2Proof.Machine.execSessionClose d v s
  | .mailboxBadCode d v => Sys2Proof.Machine.execMailboxBadCode d v s
  | .channelSlot d ch => Sys2Proof.Machine.execChannelSlot d ch s
  | .inboundWrite d sid idx off bytes => Sys2Proof.Machine.execInboundWrite d sid idx off bytes s
  | .ptpEventMessage d ppm offset => Sys2Proof.Machine.execPtpEventMessage d ppm offset s
  | .deviceTimeStep d ns => Sys2Proof.Machine.execDeviceTimeStep d ns s
  | .heartbeatSend d => Sys2Proof.Machine.execHeartbeatSend d s
  | .heartbeatReceive d => Sys2Proof.Machine.execHeartbeatReceive d s
  | .peerLossTimeout d => Sys2Proof.Machine.execPeerLossTimeout d s
  | .bridgeLinkDown d => Sys2Proof.Machine.execBridgeLinkDown d s
  | .isolateAsserted d => Sys2Proof.Machine.execIsolateAsserted d s
  | .streamTakeover d sid => Sys2Proof.Machine.execStreamTakeover d sid s
  | .invalPage n w => Sys2Proof.Machine.execInvalPage n w s
  | .invalContext n w => Sys2Proof.Machine.execInvalContext n w s
  | .invalReload n w => Sys2Proof.Machine.execInvalReload n w s
  | .invalComplete n => Sys2Proof.Machine.execInvalComplete n s
  | .cpyres n v => Sys2Proof.Machine.execCpyres n v s
  | .save n v => Sys2Proof.Machine.execSave n v s
  | .svreq n v => Sys2Proof.Machine.execSvreq n v s
  | .svreqReply n v => Sys2Proof.Machine.execSvreqReply n v s
  | .fdata n w => Sys2Proof.Machine.execFdata n w s
  | .debugStop n => Sys2Proof.Machine.execDebugStop n s
  | .debugResume n => Sys2Proof.Machine.execDebugResume n s
  | .debugStep n k => Sys2Proof.Machine.execDebugStep n k s
  | .clearConflictCells n => Sys2Proof.Machine.execClearConflictCells n s
  | .clearReplayLog n => Sys2Proof.Machine.execClearReplayLog n s
  | .stepDone n => Sys2Proof.Machine.execStepDone n s
  | .stopAt n => Sys2Proof.Machine.execStopAt n s
  | .breakpointMatch n k => Sys2Proof.Machine.execBreakpointMatch n k s
  | .dfdata n w => Sys2Proof.Machine.execDfdata n w s
  | .traceEnable w v => Sys2Proof.Machine.execTraceEnable w v s
  | .traceSample n => Sys2Proof.Machine.execTraceSample n s
  | .traceDrain w => Sys2Proof.Machine.execTraceDrain w s
  | .crewPowerGate w forced => Sys2Proof.Machine.execCrewPowerGate w forced s
  | .crewPowerUp w => Sys2Proof.Machine.execCrewPowerUp w s
  | .snapshotGo d v => Sys2Proof.Machine.execSnapshotGo d v s
  | .snapshotMarker d link id => Sys2Proof.Machine.execSnapshotMarker d link id s
  | .snmk d v => Sys2Proof.Machine.execSnmk d v s
  | .snapshotDump d => Sys2Proof.Machine.execSnapshotDump d s
  | .snapshotResume d => Sys2Proof.Machine.execSnapshotResume d s
  | .registerWrite d a w => Sys2Proof.Machine.execRegisterWrite d a w s
  | .homeAnswer n => Sys2Proof.Machine.execHomeAnswer n s
  | .groupBoundary n => Sys2Proof.Machine.execGroupBoundary n s
  | .lastsentMirrorWrite d sid q => Sys2Proof.Machine.execLastsentMirrorWrite d sid q s
  | .peerStreamCopy d p => Sys2Proof.Machine.execPeerStreamCopy d p s
  | .unsupportedPacket d => Sys2Proof.Machine.execUnsupportedPacket d s
  | .rlrd n v => Sys2Proof.Machine.execRlrd n v s
  | .trrd w v => Sys2Proof.Machine.execTrrd w v s
  | .clockStop n => Sys2Proof.Machine.execClockStop n s
  | .clockRestart n => Sys2Proof.Machine.execClockRestart n s
  | .powerLoss d => Sys2Proof.Machine.execPowerLoss d s
  | .functionLevelReset d fn => Sys2Proof.Machine.execFunctionLevelReset d fn s
  | .hostLinkDown d => Sys2Proof.Machine.execHostLinkDown d s
  | .isolateDeasserted d => Sys2Proof.Machine.execIsolateDeasserted d s

end Sys2Proof.Machine
end

