-- ==== Sys2Proof/Machine/Next.lean ====
section
/-! DEFINITION. Which step comes next: the events that are due at a fixed moment, the events the device may take in any order (DESIGN CHOICE, log 11), and the placing
of one instruction at a seat. -/

namespace Sys2Proof.Machine

open Sys2Proof

/-! ## The device's own events -/

/-- The rows of the table that the device takes by itself; words come from the seats, and the remaining rows from outside. -/
inductive Ev
  | resultLand (n : CoreId)
  | loadHoldEnd (n : CoreId)
  | queueEntryLand (n : CoreId) (q : BitVec 3) (k : Nat)
  | strokeRendezvous (n : CoreId)
  | seatRunOut (n : CoreId) (k : SeatId)
  | operationPerformed (n : CoreId) (id : Nat)
  | homeWrite (w : WriteSrc)
  | homeAnswer (n : CoreId)
  | mirrorAck (d : DieId) (sid : Nat)
  | lastsentMirrorWrite (d : DieId) (sid : Nat) (q : Word)
  | guardedDeadline (slot : Nat)
  | slotPoll (w : Waiter)
  | coxSlotPoll (d : DieId) (e : Nat)
  | waitaWake (n : CoreId)
  | pageWalkStart (d : DieId)
  | pageWalkComplete (d : DieId) (k : Nat)
  | copySuspend (n : CoreId) (id : Nat)
  | copyComplete (n : CoreId) (id : Nat)
  | spillCommandTake (n : CoreId)
  | spillFault (n : CoreId)
  | chainAdvance (n : CoreId)
  | spawnPush (n : CoreId)
  | parkRegister (n : CoreId)
  | unitPlace (n : CoreId)
  | unitRetire (n : CoreId) (k : Nat)
  | phaseComplete (d : DieId) (phid : Dw)
  | taskEntryFree (d : DieId)
  | cancelTimeout (n : CoreId)
  | trapEntry (n : CoreId)
  | engineFaultTake (n : CoreId)
  | matrixOpStart (n : CoreId)
  | groupBoundary (n : CoreId)
  | spanToBackBank (n : CoreId)
  | drainEntryPush (n : CoreId)
  | mdrnStart (n : CoreId)
  | mzeroComplete (n : CoreId)
  | jointStart (w : CrewId)
  | jointComplete (w : CrewId)
  | preemptRequest (d : DieId) (part : Fin 32)
  | boundaryStopTimeout (n : CoreId)
  | urgentStopFreeze (n : CoreId)
  | contextSave (n : CoreId)
  | contextRestore (n : CoreId)
  | sliceEnd (w : CrewId)
  | sliceSwitch (w : CrewId)
  | ringSegmentLink (n : CoreId)
  | ringSegmentPoll (k : Nat)
  | coxRelease (d : DieId) (e : Nat)
  | phaseSkip (d : DieId) (e : Nat)
  | peerStreamCopy (d : DieId) (p : PeerStream)
  | startTimeout (d : DieId)
  | ringTake (d : DieId) (r : Fin 64)
  | ringWatchWake (d : DieId) (r : Fin 64)
  | phase (d : DieId) (cmd : Cmd)
  | cancel (d : DieId) (cmd : Cmd)
  | gload (d : DieId) (cmd : Cmd)
  | gfree (d : DieId) (cmd : Cmd)
  | kload (d : DieId) (cmd : Cmd)
  | kfree (d : DieId) (cmd : Cmd)
  | jobOpen (d : DieId) (cmd : Cmd)
  | jobClose (d : DieId) (cmd : Cmd)
  | stream (d : DieId) (cmd : Cmd)
  | badCommand (d : DieId) (cmd : Cmd)
  | reconfigDrainDone
  | channelSlot (d : DieId) (ch : Fin 112)
  | deviceTimeStep (d : DieId) (ns : Dw)
  | heartbeatSend (d : DieId)
  | heartbeatReceive (d : DieId)
  | peerLossTimeout (d : DieId)
  | isolateAsserted (d : DieId)
  | streamTakeover (d : DieId) (sid : Nat)
  | invalPage (n : CoreId) (w : Dw)
  | invalContext (n : CoreId) (w : Dw)
  | invalReload (n : CoreId) (w : Dw)
  | invalComplete (n : CoreId)
  | cpyres (n : CoreId) (v : Dw)
  | save (n : CoreId) (v : Dw)
  | svreq (n : CoreId) (v : Dw)
  | svreqReply (n : CoreId) (v : Dw)
  | fdata (n : CoreId) (w : Option Dw)
  | debugStop (n : CoreId)
  | stepDone (n : CoreId)
  | stopAt (n : CoreId)
  | breakpointMatch (n : CoreId) (k : SeatId)
  | traceSample (n : CoreId)
  | traceDrain (w : CrewId)
  | snapshotMarker (d : DieId) (link : Link) (id : Word)
  | snapshotDump (d : DieId)
  | snapshotResume (d : DieId)
deriving DecidableEq, Repr

/-- What the step does: the meaning that its row has. -/
def Ev.run (e : Ev) (s : State) : Host.Outcome State Fault Refusal :=
  match e with
  | .resultLand n => Sys2Proof.Machine.execResultLand n s
  | .loadHoldEnd n => Sys2Proof.Machine.execLoadHoldEnd n s
  | .queueEntryLand n q k => Sys2Proof.Machine.execQueueEntryLand n q k s
  | .strokeRendezvous n => Sys2Proof.Machine.execStrokeRendezvous n s
  | .seatRunOut n k => Sys2Proof.Machine.execSeatRunOut n k s
  | .operationPerformed n id => Sys2Proof.Machine.execOperationPerformed n id s
  | .homeWrite w => Sys2Proof.Machine.execHomeWrite w s
  | .homeAnswer n => Sys2Proof.Machine.execHomeAnswer n s
  | .mirrorAck d sid => Sys2Proof.Machine.execMirrorAck d sid s
  | .lastsentMirrorWrite d sid q => Sys2Proof.Machine.execLastsentMirrorWrite d sid q s
  | .guardedDeadline slot => Sys2Proof.Machine.execGuardedDeadline slot s
  | .slotPoll w => Sys2Proof.Machine.execSlotPoll w s
  | .coxSlotPoll d e => Sys2Proof.Machine.execCoxSlotPoll d e s
  | .waitaWake n => Sys2Proof.Machine.execWaitaWake n s
  | .pageWalkStart d => Sys2Proof.Machine.execPageWalkStart d s
  | .pageWalkComplete d k => Sys2Proof.Machine.execPageWalkComplete d k s
  | .copySuspend n id => Sys2Proof.Machine.execCopySuspend n id s
  | .copyComplete n id => Sys2Proof.Machine.execCopyComplete n id s
  | .spillCommandTake n => Sys2Proof.Machine.execSpillCommandTake n s
  | .spillFault n => Sys2Proof.Machine.execSpillFault n s
  | .chainAdvance n => Sys2Proof.Machine.execChainAdvance n s
  | .spawnPush n => Sys2Proof.Machine.execSpawnPush n s
  | .parkRegister n => Sys2Proof.Machine.execParkRegister n s
  | .unitPlace n => Sys2Proof.Machine.execUnitPlace n s
  | .unitRetire n k => Sys2Proof.Machine.execUnitRetire n k s
  | .phaseComplete d phid => Sys2Proof.Machine.execPhaseComplete d phid s
  | .taskEntryFree d => Sys2Proof.Machine.execTaskEntryFree d s
  | .cancelTimeout n => Sys2Proof.Machine.execCancelTimeout n s
  | .trapEntry n => Sys2Proof.Machine.execTrapEntry n s
  | .engineFaultTake n => Sys2Proof.Machine.execEngineFaultTake n s
  | .matrixOpStart n => Sys2Proof.Machine.execMatrixOpStart n s
  | .groupBoundary n => Sys2Proof.Machine.execGroupBoundary n s
  | .spanToBackBank n => Sys2Proof.Machine.execSpanToBackBank n s
  | .drainEntryPush n => Sys2Proof.Machine.execDrainEntryPush n s
  | .mdrnStart n => Sys2Proof.Machine.execMdrnStart n s
  | .mzeroComplete n => Sys2Proof.Machine.execMzeroComplete n s
  | .jointStart w => Sys2Proof.Machine.execJointStart w s
  | .jointComplete w => Sys2Proof.Machine.execJointComplete w s
  | .preemptRequest d part => Sys2Proof.Machine.execPreemptRequest d part s
  | .boundaryStopTimeout n => Sys2Proof.Machine.execBoundaryStopTimeout n s
  | .urgentStopFreeze n => Sys2Proof.Machine.execUrgentStopFreeze n s
  | .contextSave n => Sys2Proof.Machine.execContextSave n s
  | .contextRestore n => Sys2Proof.Machine.execContextRestore n s
  | .sliceEnd w => Sys2Proof.Machine.execSliceEnd w s
  | .sliceSwitch w => Sys2Proof.Machine.execSliceSwitch w s
  | .ringSegmentLink n => Sys2Proof.Machine.execRingSegmentLink n s
  | .ringSegmentPoll k => Sys2Proof.Machine.execRingSegmentPoll k s
  | .coxRelease d e => Sys2Proof.Machine.execCoxRelease d e s
  | .phaseSkip d e => Sys2Proof.Machine.execPhaseSkip d e s
  | .peerStreamCopy d p => Sys2Proof.Machine.execPeerStreamCopy d p s
  | .startTimeout d => Sys2Proof.Machine.execStartTimeout d s
  | .ringTake d r => Sys2Proof.Machine.execRingTake d r s
  | .ringWatchWake d r => Sys2Proof.Machine.execRingWatchWake d r s
  | .phase d cmd => Sys2Proof.Machine.execPhase d cmd s
  | .cancel d cmd => Sys2Proof.Machine.execCancel d cmd s
  | .gload d cmd => Sys2Proof.Machine.execGload d cmd s
  | .gfree d cmd => Sys2Proof.Machine.execGfree d cmd s
  | .kload d cmd => Sys2Proof.Machine.execKload d cmd s
  | .kfree d cmd => Sys2Proof.Machine.execKfree d cmd s
  | .jobOpen d cmd => Sys2Proof.Machine.execJobOpen d cmd s
  | .jobClose d cmd => Sys2Proof.Machine.execJobClose d cmd s
  | .stream d cmd => Sys2Proof.Machine.execStream d cmd s
  | .badCommand d cmd => Sys2Proof.Machine.execBadCommand d cmd s
  | .reconfigDrainDone => Sys2Proof.Machine.execReconfigDrainDone s
  | .channelSlot d ch => Sys2Proof.Machine.execChannelSlot d ch s
  | .deviceTimeStep d ns => Sys2Proof.Machine.execDeviceTimeStep d ns s
  | .heartbeatSend d => Sys2Proof.Machine.execHeartbeatSend d s
  | .heartbeatReceive d => Sys2Proof.Machine.execHeartbeatReceive d s
  | .peerLossTimeout d => Sys2Proof.Machine.execPeerLossTimeout d s
  | .isolateAsserted d => Sys2Proof.Machine.execIsolateAsserted d s
  | .streamTakeover d sid => Sys2Proof.Machine.execStreamTakeover d sid s
  | .invalPage n w => Sys2Proof.Machine.execInvalPage n w s
  | .invalContext n w => Sys2Proof.Machine.execInvalContext n w s
  | .invalReload n w => Sys2Proof.Machine.execInvalReload n w s
  | .invalComplete n => Sys2Proof.Machine.execInvalComplete n s
  | .cpyres n v => Sys2Proof.Machine.execCpyres n v s
  | .save n v => Sys2Proof.Machine.execSave n v s
  | .svreq n v => Sys2Proof.Machine.execSvreq n v s
  | .svreqReply n v => Sys2Proof.Machine.execSvreqReply n v s
  | .fdata n w => Sys2Proof.Machine.execFdata n w s
  | .debugStop n => Sys2Proof.Machine.execDebugStop n s
  | .stepDone n => Sys2Proof.Machine.execStepDone n s
  | .stopAt n => Sys2Proof.Machine.execStopAt n s
  | .breakpointMatch n k => Sys2Proof.Machine.execBreakpointMatch n k s
  | .traceSample n => Sys2Proof.Machine.execTraceSample n s
  | .traceDrain w => Sys2Proof.Machine.execTraceDrain w s
  | .snapshotMarker d link id => Sys2Proof.Machine.execSnapshotMarker d link id s
  | .snapshotDump d => Sys2Proof.Machine.execSnapshotDump d s
  | .snapshotResume d => Sys2Proof.Machine.execSnapshotResume d s

/-! ## The clock of a core -/

/-- A stop that a handler has deferred takes effect at the EXIT that ends the unit (R376). -/
def State.haltAtEnd (s : State) (n : CoreId) : State :=
  s.modCore n fun c => match c.dbg.deferred, c.dbg.pending with
    | true, some w => { c with frozen := some .halt, dbg := { c.dbg with halted := some w, pending := none, deferred := false, left := none } }
    | _, _ => c

/-- The close of a clock: results and posts (R31, R32), then the seats freeze at a boundary stop (R128) or halt at an EXIT (R152).
An EXIT wins over a trap that another seat raises on its clock (DESIGN CHOICE, log 75). -/
def State.closeClock (s : State) (n : CoreId) : State :=
  let p := (s.coreAt n).pend
  let s := if s.diverged n then s.debugHalt n .divergence else s
  let s := ((s.flushLog n).tickClock n).playDrain n
  let s := if p.contains .boundary && (s.coreAt n).ctx.firstCause.isNone then
      match (s.coreAt n).unit with
      | some u => match u.stop with
        | some q => if q.why = .cancel then s.leaveUnit n true false 0
                    else (s.modCore n fun c => { c with frozen := some (.stopped q.why true), hold := false }).count n 36 1
        | none => s
      | none => s
    else s
  if p.contains .lost then s.leaveUnit n true true 3
  else match p.findSome? fun q => match q with | .leave a b => some (a, b) | _ => none with
  | some (a, b) => if s.playing n then s.debugHalt n .replayEnd else (s.leaveUnit n a b 0).haltAtEnd n
  | none => s

/-- A seat that has no word left, outside a loop (R36). -/
def State.runOutDue (s : State) : Option SeatId :=
  [SeatId.c, .a, .v, .m].find? fun k => s.ranOut s.cur k && (((s.coreAt s.cur).ctx.seat k).body).isNone

/-- A seat's trap may be taken: one that a landing, a rendezvous or a run-out of this clock brings waits for the clock's end (R34, R367). -/
def State.trapDue (s : State) (n : CoreId) (atEnd : Bool) : Bool :=
  s.mayTrap n && (s.coreAt n).dueCause.isSome && (atEnd || !(s.coreAt n).why.contains 102)

/-- A spilled command that the ring could not take brings its trap (R335). -/
def State.spillDue (s : State) (n : CoreId) : Bool :=
  let c := s.coreAt n
  c.latch.isSome && c.handler.isNone && c.unit.isSome && c.frozen.isNone

/-- What a die does at once: one against which the isolate line is asserted stops (R418), and a follower that its source has left behind steps its time (R417). -/
def State.dieDue (s : State) : Option Ev :=
  if s.isolateDue .bow then some (.isolateAsserted .bow)
  else if s.isolateDue .stern then some (.isolateAsserted .stern)
  else if s.lags .bow then some (.deviceTimeStep .bow (BitVec.ofNat 64 (s.stern.time - s.bow.time)))
  else if s.lags .stern then some (.deviceTimeStep .stern (BitVec.ofNat 64 (s.bow.time - s.stern.time)))
  else none

/-- The event due at the start of the current core's clock, in order: what a die does at once, a halt, a trap, an engine fault, the freeze of an urgent stop
that has come since the core's last clock (R365, R370), the end of a hold, landings, a comparator, seats that have run out, a rendezvous (DESIGN CHOICE, log
16). -/
def State.dueStart (s : State) : Option Ev :=
  let n := s.cur
  if s.dieDue.isSome then s.dieDue
  else if (s.stopDue n).isSome then some (.debugStop n)
  else if s.trapDue n false then some (.trapEntry n)
  else if s.efDue n then some (.engineFaultTake n)
  else if s.urgentDue n then some (if s.spillDue n then .spillFault n else .urgentStopFreeze n)
  else if s.advancing n || (s.coreAt n).hold then
    if s.holdOver n then some (.loadHoldEnd n)
    else if s.landDue n then some (.resultLand n)
    else match s.bpDue with
      | some k => some (.breakpointMatch n k)
      | none => match s.runOutDue with
        | some k => some (.seatRunOut n k)
        | none => if s.meetDue then some (.strokeRendezvous n) else none
  else none

/-- The event due at the close of the current core's clock, in order: what a die does at once, the completion of a joint operation (R253), halts, a trap, a
spill fault and an engine fault before an urgent stop's freeze (R335, R365), the sample record. -/
def State.dueFinish (s : State) : Option Ev :=
  let n := s.cur
  if s.dieDue.isSome then s.dieDue else
  if s.jointDue (crewOf n) then some (.jointComplete (crewOf n)) else
  match s.stopDue n with
  | some .stopAt => some (.stopAt n)
  | some .stepDone => some (.stepDone n)
  | some _ => some (.debugStop n)
  | none =>
    if s.trapDue n true then some (.trapEntry n)
    else if s.spillDue n then some (.spillFault n)
    else if s.efDue n then some (.engineFaultTake n)
    else if s.urgentDue n then some (.urgentStopFreeze n)
    else if s.sampleDue n then some (.traceSample n)
    else none

/-! ## What the device may take next -/

def evIf (b : Bool) (e : Ev) : List Ev := if b then [e] else []

/-- The steps open to one operation of a core (R58 to R63). -/
def State.opEvents (s : State) (n : CoreId) (o : MemOp) : List Ev :=
  if s.arrives n o then [.operationPerformed n o.id]
  else if !s.mayStep n o then []
  else
    let whole : List Ev := [.operationPerformed n o.id]
    let parts (m : Nat) : List Ev := ((List.range m).filter fun i => !o.done.contains i).map fun i => .homeWrite (.seat n o.id i)
    match o.kind with
    | .store _ _ | .amo _ _ _ _ _ _ => if o.homed then whole else parts 1
    | .stv b _ => if o.homed then whole else parts b.length
    | .ldv _ _ q _ => if o.homed then [.queueEntryLand n q o.id] else whole
    | .aset _ _ _ _ | .afree _ => evIf ((s.coreAt n).asks o) (.homeAnswer n)
    | .pattern _ _ | .multicast _ => match (s.coreAt n).portOf o.id with
      | some (g, p) =>
        if p.shape.isNone && p.fault.isNone then whole
        else if s.portStores n g p then
          whole ++ (match g with | some i => (List.range p.writes.length).map fun k => .homeWrite (.pattern n i k) | none => [])
        else whole ++ [.queueEntryLand n p.q o.id]
      | none => []
    | _ => whole

/-- The steps open to one copy (R184 to R187). -/
def State.copyEvents (s : State) (n : CoreId) (k : Copy) : List Ev :=
  let c := s.coreAt n
  evIf (c.copyReady k && !s.copyHeld n k && k.op.isNone && (k.cancel || decide (k.st = .fetch ∨ k.st = .check ∨ k.st = .resume ∨ k.st = .move))) (.operationPerformed n k.id) ++
    (if c.cpFrozen then [] else (List.range k.pending.length).map fun i => .homeWrite (.copy n k.id i)) ++
    evIf (c.mustSuspend k && !(s.cut (dieOf n).other && far n k.recPa)) (.copySuspend n k.id) ++ evIf (c.copyDone k && !s.copyHeld n k) (.copyComplete n k.id) ++
    evIf (decide (k.st = .polling) && !s.copyHeld n k) (.slotPoll (.copy n k.id))

/-- A handler's access that acts after its word (R358, R360, R361). -/
def State.handlerEvents (s : State) (n : CoreId) : List Ev :=
  match (s.coreAt n).handler with
  | none => []
  | some h => match h.req with
    | some (.inval w) => if w.extractLsb' 0 2 = 0 then [.invalPage n w] else if w.extractLsb' 0 2 = 1 then [.invalContext n w] else [.invalReload n w]
    | some .invalDone => [.invalComplete n]
    | some (.cpyres v) => [.cpyres n v]
    | some (.save v) => [.save n v]
    | some (.svreq v) | some (.svfull v _) => [.svreq n v]
    | some .reply => [.svreqReply n 0]
    | some (.fdata w) => [.fdata n w]
    | none => []

/-- The engine's next steps (R230, R239 to R243, R250 to R255). -/
def State.engineEvents (s : State) (n : CoreId) : List Ev :=
  let e := (s.coreAt n).ctx.eng
  let w := crewOf n
  if !s.engineOn n then evIf e.halt (.mzeroComplete n) ++ evIf e.drainT.isSome (.drainEntryPush n)
  else
    evIf e.halt (.mzeroComplete n) ++
    (match e.opq with
     | [] => []
     | o :: _ =>
       if o.kind = .mmaj && !e.running then [.jointStart w]
       else if e.running then (if o.kind = .mdrn then [] else if e.spanDone then [.spanToBackBank n] else [.groupBoundary n])
       else if o.kind = .mma then [.matrixOpStart n] else [.mdrnStart n]) ++
    evIf (e.dbusy || e.drainT.isSome) (.drainEntryPush n)

/-- The scheduler's steps for a core (R13, R24, R330, R344 to R346). -/
def State.schedEvents (s : State) (n : CoreId) : List Ev :=
  let c := s.coreAt n
  if s.cut (dieOf n) then []
  else
    ((List.range c.leaving.length).filter fun k => match c.leaving[k]? with | some l => c.retired l.unit.serial && !s.cut (s.phaseHome (dieOf n) l.unit.phid) | none => false).map (fun k => .unitRetire n k) ++
    evIf (s.coreFree n && !s.heldFirst n && (match s.crewPart (crewOf n) with | some p => (s.candidate n p).isSome | none => false)) (.unitPlace n) ++
    evIf (s.cancelLate n) (.cancelTimeout n) ++ evIf (s.stopLate n) (.boundaryStopTimeout n) ++
    evIf (c.stoppedFor .preempt && c.held.isNone) (.contextSave n) ++ evIf (s.restoreDue n) (.contextRestore n)

/-- Everything the current core's agents may do. -/
def State.coreEvents (s : State) (n : CoreId) : List Ev :=
  let c := s.coreAt n
  c.ops.flatMap (s.opEvents n) ++ (c.crds.map fun k => .operationPerformed n k.op) ++ c.copies.flatMap (s.copyEvents n) ++
  (match c.ctx.await with
   | some (.await _ _ true none) => [.slotPoll (.await n)]
   | some (.line _ _ true) => [.waitaWake n]
   | _ => []) ++
  (match c.ctx.park with | some p => [if p.polling then .slotPoll (.park n) else .parkRegister n] | none => []) ++
  evIf ((c.copies.any (fun k => k.spilled) || c.latch.isSome) && !s.cut (dieOf n)) (.spillCommandTake n) ++ evIf (decide (c.chains ≠ []) && !s.cut (dieOf n)) (.chainAdvance n) ++
  evIf (c.spawnDue.isSome && !s.cut (dieOf n)) (.spawnPush n) ++ evIf (s.fullRing n).isSome (.ringSegmentLink n) ++
  s.handlerEvents n ++ s.engineEvents n ++ s.schedEvents n

/-- The command that a ring carries out (R312). -/
def cmdEvent (d : DieId) (c : Cmd) : Ev :=
  match c.typ with
  | 1 => .phase d c
  | 2 => .cancel d c
  | 3 => .gload d c
  | 4 => .gfree d c
  | 5 => .kload d c
  | 6 => .kfree d c
  | 7 => if c.w0.getLsbD 0 then .jobClose d c else .jobOpen d c
  | 8 => .stream d c
  | _ => .badCommand d c

/-- The front end's steps (R309 to R312). -/
def State.ringEvents (s : State) (d : DieId) : List Ev :=
  (match s.ringNext d with | some r => [.ringTake d r] | none => []) ++
  (List.finRange 64).flatMap fun r =>
    let x := s.ring d r
    evIf (x.watch.isSome && x.wake) (.ringWatchWake d r) ++ (match x.blocked with | some c => evIf (s.cmdDue d c) (cmdEvent d c) | none => [])

/-- The dispatcher's and the Cox unit's steps (R12, R319, R338, R344, R404). -/
def State.workEvents (s : State) (d : DieId) : List Ev :=
  let x := s.die d
  if !s.frontRuns d then []
  else
    ((x.phases.filter (s.phaseDone d)).map fun p => .phaseComplete d p.phid) ++ evIf (s.waitReady d).isSome (.taskEntryFree d) ++
    (allParts.filter fun p => decide (s.hurried d p ≠ []) || (match s.preemptFor d p with | some t => decide (s.victims d p t ≠ []) | none => false)).map (fun p => .preemptRequest d p) ++
    (s.shared.filter fun h => decide (crewDie h.crew = d)).flatMap (fun h => evIf (s.sliceOver h.crew) (.sliceEnd h.crew) ++ evIf (s.switchDue h.crew) (.sliceSwitch h.crew)) ++
    x.cox.flatMap (fun k =>
      evIf (s.releaseDue d k) (.coxRelease d k.e) ++ evIf (s.skipDue d k || (s.lateQueued d k.key).isSome) (.phaseSkip d k.e) ++ evIf k.polling (.coxSlotPoll d k.e)) ++
    (s.copiesDue d).map (fun p => .peerStreamCopy d p) ++ s.ringEvents d

/-- The endpoint's and the bridge's steps (R386, R416 to R419). -/
def State.bridgeEvents (s : State) (d : DieId) : List Ev :=
  let x := s.die d
  (match x.sends.find? fun z => !z.mirrored && s.mirrorDue d.other z.sid z.seq with
   | some z => [.lastsentMirrorWrite d.other z.sid z.seq]
   | none => []) ++
  (if s.cut d then [] else (x.sends.filter fun z => z.mirrored).map fun z => .mirrorAck d z.sid) ++
  evIf x.beatDue (.heartbeatSend d) ++ evIf x.hbIn (.heartbeatReceive d) ++ evIf x.lossDue (.peerLossTimeout d)  ++
  (match s.takeoverNext d with | some p => [.streamTakeover d p.sid] | none => []) ++
  (match x.markerIn with | some i => [.snapshotMarker d .bridge i.1] | none => []) ++
  evIf (s.dumpDue d) (.snapshotDump d) ++ evIf (s.autoResume d) (.snapshotResume d)

/-- Everything a die may do beside its cores. -/
def State.dieEvents (s : State) (d : DieId) : List Ev :=
  let x := s.die d
  (match x.start with | .starting _ _ => [.startTimeout d] | _ => []) ++
  evIf (x.walks.any (fun w => !w.started) && decide ((x.walks.filter fun w => w.started).length < 32)) (.pageWalkStart d) ++
  (((List.range x.walks.length).filter fun k => match x.walks[k]? with | some w => w.started | none => false).map fun k => .pageWalkComplete d k) ++
  ((s.slots.filter fun t => decide (homeDie t.pa = some d) && decide (t.kind = 4) && decide (t.dline ≠ BitVec.allOnes 64) && decide (t.dline.toNat ≤ x.time) &&
      !s.cut d).map fun t => .guardedDeadline t.pa) ++
  ((List.range s.links.length).filter fun k => match s.segmentDue k with | some l => decide (dieOf l.core = d) | none => false).map (fun k => .ringSegmentPoll k) ++
  (((List.finRange 88).filter fun w => decide (crewDie w = d) && (s.crewAt w).drainable).map fun w => .traceDrain w) ++
  evIf (decide (x.start = .running)) (.channelSlot d (Fin.ofNat 112 (s.choose 9 112))) ++
  s.workEvents d ++ s.bridgeEvents d

/-- The events the device may take next (DESIGN CHOICE, log 11): those of the core whose clock closes, and those of both dies
(DESIGN CHOICE, log 16). -/
def State.enabled (s : State) : List Ev :=
  s.coreEvents s.cur ++ s.dieEvents .bow ++ s.dieEvents .stern ++ evIf s.drained.isSome .reconfigDrainDone

/-- The device's choice at the close of a clock: none ends the clock (DESIGN CHOICE, log 11). -/
def State.pickEvent (s : State) : Option Ev := s.enabled[s.choose 0 (s.enabled.length + 1)]?

/-- The next core's clock begins; a cut die whose drain is over sends its markers (R386); where the clock moves a die's time on, what falls due up to then
comes in time order, each at its moment: deadlines of slots, releases and skips (R79, R338). -/
def State.nextClock (s : State) : State :=
  let n := s.cur
  let d := dieOf n
  let t := s.nextCore
  if dieCore n = 175 then
    let t := t.markersOut d false
    let was := (s.die d).time
    let now := (t.die d).time
    (t.modDie d fun x => { x with time := was }).applyDue d now (t.dueFuel d (now - was))
  else t

/-! ## The seats -/

/-- The head of seat k of the current core in its turn. -/
def State.seatStep (s : State) (k : SeatId) : SeatStep :=
  if !s.canIssue k then .pass
  else match ((s.coreAt s.cur).ctx.seat k).body with
    | some lp => if !lp.issues then .squash else s.headAt s.cur k
    | none => s.headAt s.cur k

/-- A seat's turn that runs no decoded word: it passes, squashes, joins a walk, or records the trap of its fetch (R40, R54, R115, R116, R315)
(DEDUCED, log 71). -/
def State.passSeat (s : State) (k : SeatId) (r : SeatStep) : State :=
  match r with
  | .squash => (s.squash k).passTurn
  | .bad st =>
    let t := (s.coreAt s.cur).ctx.seat k
    let alone := (s.coreAt s.cur).handler.isSome || decide ((s.coreAt s.cur).ctx.actives = [k])
    if st && t.body.isNone && !alone then (s.modCtx s.cur fun x => x.modSeat k fun t => { t with strk := true }).passTurn
    else (s.settle k (.trap .undefinedInstruction 0)).passTurn
  | .trap c => ((s.settle k (.trap c ((s.coreAt s.cur).ctx.seat k).pc)).clearWalkAns s.cur (.fetch k)).passTurn
  | .miss => (s.addMiss s.cur (s.ctxOn s.cur) (.fetch k) ((s.coreAt s.cur).ctx.seat k).pc).passTurn
  | .breaks => (s.freezeCore s.cur .protection).passTurn
  | _ => s.passTurn

/-- One word as the next instruction of the current core: a unit whose section holds it in the core's scratchpad, the seat that the word decodes in
alone active, its turn come (DESIGN CHOICE, log 2). -/
def State.placeWord (s : State) (w : Word) : State :=
  let k := (tableSeat w).getD .c
  let base : Dw := BitVec.ofNat 64 localBase
  let sec : Sec := { base := base, words := 16 }
  let u : UnitInfo :=
    { serial := s.nextId, lid := 1, uidx := 0, ucnt := 1, phid := 0, jid := 0, prio := 0, dline := 0, ctx := 0, part := 0, kdesc := 0, argb := 0,
      secs := Vector.replicate 4 sec, crew := false, order := 0, stop := none, acq := [] }
  let s := s.modCore s.cur fun c =>
    { c with unit := some u, handler := none, frozen := none, hold := false, stopped := false, moved := 0, skip := 0,
             ctx := { c.ctx with
               seats := (Vector.replicate 4 { Seat.reset with pc := base + 64 }).set k.toFin { Seat.reset with pc := base, act := true },
               inflight := [], park := none, await := none } }
  let cw := s.crewAt (crewOf s.cur)
  let s := s.setCrew (crewOf s.cur) { cw with gated := false }
  { s with mem := memWriteBytes s.mem (padBase s.cur) (bytesOfWord w), turn := .seat k, inputs := [], nextId := s.nextId + 1 }

end Sys2Proof.Machine
end

