-- ==== Sys2Proof/Machine/Step.lean ====
section
/-! DEFINITION. One step of the package, and the placing of one instruction where the next step fetches it. -/

namespace Sys2Proof.Machine

open Sys2Proof

/-- What the seat whose turn it is does: the event that is due before the clock's first word, the word it has fetched, or a turn without one
(DESIGN CHOICE, log 1). -/
def State.seatTurn (s : State) (k : SeatId) : Host.Outcome State Fault Refusal :=
  match (if k = .c then s.dueStart else none) with
  | some e => e.run s
  | none =>
    match s.seatStep k with
    | .word i => exec i s
    | .past => exec (.seatRunOut s.cur k) s
    | r => .next (s.passSeat k r)

/-- The close of a clock: what is due, then what the device takes, then the next core's clock (DESIGN CHOICE, log 1). -/
def State.finishTurn (s : State) : Host.Outcome State Fault Refusal :=
  if !(s.coreAt s.cur).ended then .next (s.closeClock s.cur)
  else match s.dueFinish with
    | some e => e.run s.fresh
    | none =>
      match s.pickEvent with
      | some e => e.run s.fresh
      | none => .next s.nextClock

/-- One step: before a clock's first word an event from outside if one waits; else what the seat whose turn it is does; at the close of the clock what
is due or what the device takes (log 1, log 11). -/
def step (s : State) : Host.Outcome State Fault Refusal :=
  match s.turn, s.inputs with
  | .seat .c, i :: r => exec i { s with inputs := r }
  | .seat k, _ => s.seatTurn k
  | .finish, _ => s.finishTurn

/-- The state in which the next step fetches and runs the instruction whose table bits are w (DESIGN CHOICE, log 2). -/
def State.withFetchWord (s : State) (nbits w : Nat) : State := s.placeWord (BitVec.ofNat 32 (if nbits = 32 then w else w % 2 ^ nbits))

end Sys2Proof.Machine
end

