-- ==== Sys2Proof/Safety.lean ====
section
/-! DEFINITION. What counts as a safe run: one that stops with neither a fault nor a refusal; and the invariant the statements use. -/

namespace Sys2Proof

open Machine

/-- k steps answer a state. -/
def runsTo : Nat → State → State → Prop
  | 0, s, t => s = t
  | k + 1, s, t => ∃ u, step s = .next u ∧ runsTo k u t

/-- A run of k steps that neither faults nor is refused. -/
def safeFor (k : Nat) (s : State) : Prop := ∃ t, runsTo k s t

/-- The memory keeps its canonical form. -/
def MemInv (s : State) : Prop := Memory.wf s.mem = true

/-- The seat in whose map a word stands: `some none` for the common group, `none` for an event (R114, R125, R133 to R136). -/
def Instr.seat : Instr → Option (Option SeatId)
  | .add _ _ _ _ | .sub _ _ _ _ | .mul _ _ _ _ | .mulh _ _ _ _ | .mulhu _ _ _ _ | .div _ _ _ _ | .divu _ _ _ _ | .rem _ _ _ _ | .and _ _ _ _
  | .or _ _ _ _ | .xor _ _ _ _ | .shl _ _ _ _ | .shr _ _ _ _ | .sar _ _ _ _ | .min _ _ _ _ | .max _ _ _ _ | .slt _ _ _ _ | .sltu _ _ _ _
  | .addi _ _ _ _ | .andi _ _ _ _ | .ori _ _ _ _ | .xori _ _ _ _ | .shli _ _ _ _ | .shri _ _ _ _ | .sari _ _ _ _ | .slti _ _ _ _ | .lui _ _ _
  | .beq _ _ _ _ | .bne _ _ _ _ | .blt _ _ _ _ | .bge _ _ _ _ | .bltu _ _ _ _ | .bgeu _ _ _ _ | .jmp _ _ | .jal _ _ | .jr _ _ | .lset _ _ _ _
  | .spawn _ _ | .park _ _ _ _ | .exit _ | .cncl _ _ _ _ | .crd _ _ _ _ _ | .sysr _ _ _ | .sysw _ _ _ | .trap _ _ | .rft _ | .time _ _
  | .scope _ _ _ => some (some .c)
  | .aadd _ _ _ _ | .asub _ _ _ _ | .amul _ _ _ _ | .aand _ _ _ _ | .aor _ _ _ _ | .ashl _ _ _ _ | .ashr _ _ _ _ | .aaddi _ _ _ _ | .alui _ _ _
  | .abeq _ _ _ _ | .abne _ _ _ _ | .ablt _ _ _ _ | .abge _ _ _ _ | .ajmp _ _ | .ajr _ _ | .ldb _ _ _ _ _ _ | .ldbs _ _ _ _ _ _ | .ldh _ _ _ _ _ _
  | .ldhs _ _ _ _ _ _ | .ldw _ _ _ _ _ _ | .ldws _ _ _ _ _ _ | .ldd _ _ _ _ _ _ | .stb _ _ _ _ _ _ | .sth _ _ _ _ _ _ | .stw _ _ _ _ _ _
  | .std _ _ _ _ _ _ | .ldv _ _ _ _ _ _ | .stv _ _ _ _ _ _ | .qbind _ _ _ _ | .qpat _ _ _ _ _ _ | .qstop _ _ | .qmc _ _ _ _ _ _
  | .amoadd _ _ _ _ _ _ _ | .amomin _ _ _ _ _ _ _ | .amomax _ _ _ _ _ _ _ | .amoand _ _ _ _ _ _ _ | .amoor _ _ _ _ _ _ _ | .amoxor _ _ _ _ _ _ _
  | .amoswp _ _ _ _ _ _ _ | .amocas _ _ _ _ _ _ _ | .aset _ _ _ _ _ | .afree _ _ _ _ _ | .await _ _ _ _ _ _ | .aread _ _ _ _ _ _
  | .acred _ _ _ _ _ | .cpy _ _ _ _ _ | .gath _ _ _ _ _ | .scat _ _ _ _ _ | .cpyr _ _ _ _ _ | .chlnk _ _ _ _ _ _ | .chkck _ _ _ _ _
  | .rgres _ _ _ _ _ | .rgpub _ _ _ _ _ | .rgpop _ _ _ _ _ _ | .rgcur _ _ _ _ _ _ | .waita _ _ _ _ _ => some (some .a)
  | .vadd _ _ _ _ _ _ | .vsub _ _ _ _ _ _ | .vmul _ _ _ _ _ _ | .vfma _ _ _ _ _ _ | .vfms _ _ _ _ _ _ | .vscac _ _ _ _ _ _ | .vmax _ _ _ _ _ _
  | .vmin _ _ _ _ _ _ | .vabs _ _ _ _ _ | .vneg _ _ _ _ _ | .vrcp _ _ _ _ _ | .vrsq _ _ _ _ _ | .vexp2 _ _ _ _ _ | .vlog2 _ _ _ _ _
  | .vcmpeq _ _ _ _ _ _ | .vcmpne _ _ _ _ _ _ | .vcmplt _ _ _ _ _ _ | .vcmple _ _ _ _ _ _ | .vsel _ _ _ _ _ _ | .vand _ _ _ _ _ _
  | .vor _ _ _ _ _ _ | .vxor _ _ _ _ _ _ | .vshl _ _ _ _ _ _ | .vshr _ _ _ _ _ _ | .vsar _ _ _ _ _ _ | .pand _ _ _ _ | .por _ _ _ _ | .pnot _ _ _
  | .pcnt _ _ _ | .vcvt _ _ _ _ _ _ | .vqnt _ _ _ _ _ | .vdq _ _ _ _ _ | .vrsum _ _ _ _ _ _ | .vrmax _ _ _ _ _ _ | .vperm _ _ _ _ _ _
  | .vbcast _ _ _ _ _ _ | .vscan _ _ _ _ _ _ | .vaddiF32 _ _ _ _ | .vmuliF32 _ _ _ _ | .vmoviF32 _ _ _ _ | .vaddiF16 _ _ _ _ | .vmuliF16 _ _ _ _
  | .vmoviF16 _ _ _ _ | .vaddiBF16 _ _ _ _ | .vmuliBF16 _ _ _ _ | .vmoviBF16 _ _ _ _ | .vaddiI32 _ _ _ _ | .vmoviI32 _ _ _ _ | .vandi _ _ _ _
  | .vori _ _ _ _ | .xadd _ _ _ _ _ | .xsub _ _ _ _ _ | .xmul _ _ _ _ _ | .xli _ _ _ _ _ | .xget _ _ _ _ | .xput _ _ _ _ | .vbz _ _ _
  | .vbnz _ _ _ | .vjmp _ _ | .vsweep _ _ _ _ _ _ | .vjlim _ _ _ _ _ _ | .vdist _ _ _ _ _ _ | .vdph _ _ | .vmov _ _ _ _ _ | .vpack _ _ _ _ _ _
  | .vunpk _ _ _ _ _ _ | .vsplt _ _ _ _ _ _ | .vcat _ _ _ _ _ _ => some (some .v)
  | .mma _ _ _ _ _ _ | .mmaj _ _ _ _ _ _ | .mdrn _ _ | .mzero _ | .ftset _ _ _ | .ftget _ _ _ | .mpidx _ _ | .madd _ _ _ _ | .msub _ _ _ _
  | .mand _ _ _ _ | .mor _ _ _ _ | .mshl _ _ _ _ | .mshr _ _ _ _ | .mli _ _ _ | .mlui _ _ _ | .mbz _ _ _ | .mbnz _ _ _ | .mblt _ _ _ _ | .mjmp _ _
  | .mjr _ _ => some (some .m)
  | .nop _ | .mloop _ _ _ _ _ | .tpost _ _ _ | .twait _ _ _ | .fset _ _ _ | .fwait _ _ _ | .brk _ _ | .bndy _ => some none
  | _ => none

/-- A seat fetches the word: its own map, or the common group (R114). -/
def Instr.inSeat (i : Instr) (k : SeatId) : Prop := i.seat = some (some k) ∨ i.seat = some none

/-! ## What the statements say of a step: what it may change, and that it changes nothing else -/

/-- Seat k tries the word now, and no check that every word meets (R35, R37, R39, R115, R350) turns it away or makes it wait. -/
def Issues (s : State) (k : SeatId) (st : Bool) (i : Instr) : Prop := s.canIssue k = true ∧ s.precheck k st i false = .ok

/-- The context of the current core. -/
def here (s : State) : Ctx := (s.coreAt s.cur).ctx

/-- The turn that follows within a clock. -/
def nextTurn : Turn → Turn
  | .seat .c => .seat .a
  | .seat .a => .seat .v
  | .seat .v => .seat .m
  | .seat .m => .finish
  | .finish => .finish

/-- The register files, queues, tokens, flags, streams, engine and system registers of a context, and the results in flight to them. The loop
registers and the dither phase, which the end of a loop writes, and the seats stand apart. -/
structure RegsKept (old new : Ctx) : Prop where
  c : new.c = old.c
  a : new.a = old.a
  x : new.x = old.x
  m : new.m = old.m
  v : new.v = old.v
  p : new.p = old.p
  fmt : new.fmt = old.fmt
  k : new.k = old.k
  f : new.f = old.f
  osiss : new.osiss = old.osiss
  osprf : new.osprf = old.osprf
  queues : new.queues = old.queues
  eng : new.eng = old.eng
  shape : new.shape = old.shape
  uhand : new.uhand = old.uhand
  uhandGov : new.uhandGov = old.uhandGov
  inflight : new.inflight = old.inflight
  park : new.park = old.park
  await : new.await = old.await
  scov : new.scov = old.scov
  acqs : new.acqs = old.acqs

/-- A core but for its context, its event counters, and the notes of which seats have moved in this clock and why others have not. -/
def CoreKept (a b : Core) : Prop :=
  { b with ctx := a.ctx, moved := a.moved, why := a.why, dbg := { b.dbg with ecsel := a.dbg.ecsel, ecval := a.dbg.ecval } } = a

/-- A die but for its event counters. -/
def DieKept (a b : Die) : Prop := { b with ecsel := a.ecsel, ecval := a.ecval } = a

/-- Every byte of memory, the slots, the dies, the partitions and the rest of the package outside the cores; the crews' trace buffers stand apart. -/
structure PackageKept (s t : State) : Prop where
  mem : ∀ a, memRead t.mem a = memRead s.mem a
  bow : DieKept s.bow t.bow
  stern : DieKept s.stern t.stern
  poison : t.poison = s.poison
  slots : t.slots = s.slots
  parked : t.parked = s.parked
  parts : t.parts = s.parts
  shared : t.shared = s.shared
  links : t.links = s.links
  reconf : t.reconf = s.reconf
  isolate : t.isolate = s.isolate
  source : t.source = s.source
  cur : t.cur = s.cur
  inputs : t.inputs = s.inputs
  nextId : t.nextId = s.nextId

/-- t is u with seat k moved past its word: nothing else changes. `goes` says where the seat itself goes. A seat in no loop leaves the loop registers,
the dither phase, the trace buffers and what has left the package as they are; one in a loop writes the count of its loop register where the loop
ends, and no loop register otherwise (R38, R40). -/
structure Past (k : SeatId) (goes : SeatId → Seat → Seat → Prop) (u t : State) : Prop where
  cores : ∀ m, m ≠ u.cur → t.coreAt m = u.coreAt m
  core : CoreKept (u.coreAt u.cur) (t.coreAt u.cur)
  regs : RegsKept (here u) (t.coreAt u.cur).ctx
  seats : ∀ j, j ≠ k → (t.coreAt u.cur).ctx.seat j = (here u).seat j
  seat : goes k ((here u).seat k) ((t.coreAt u.cur).ctx.seat k)
  inLoop : ∀ lp, ((here u).seat k).loop = some lp →
    (t.coreAt u.cur).ctx.l = if ((t.coreAt u.cur).ctx.seat k).loop = none then
      (here u).l.set lp.reg.toFin ((BitVec.ofNat 32 lp.trip) ++ (((here u).l.get lp.reg.toFin).extractLsb' 0 32)) else (here u).l
  loops : ((here u).seat k).loop = none →
    (t.coreAt u.cur).ctx.l = (here u).l ∧ (t.coreAt u.cur).ctx.dph = (here u).dph ∧ t.crews = u.crews ∧ t.outs = u.outs
  moved : (t.coreAt u.cur).moved = (u.coreAt u.cur).moved ||| seatBit k
  package : PackageKept u t
  turn : t.turn = nextTurn u.turn

/-- A seat in the body of a loop, with no pre-emption stop pending on it, goes to the next word of the body; after the last word, in A and V, the
rotation base rises by one modulo 8, and the next kernel step begins, T + ms of them in all, less the iterations done before a resumption; after the last
step the seat goes on behind the body (R40 to R42). -/
def InBody (k : SeatId) (lp : Loop) (a b : Seat) : Prop :=
  if lp.pos + 1 < lp.len then b = { a with strk := false, pc := a.pc + 4, loop := some { lp with pos := lp.pos + 1 } }
  else if lp.step + 1 < lp.trip + lp.ms - lp.base then
    b = { a with strk := false, rb := if k = .a ∨ k = .v then a.rb + 1 else a.rb, pc := lp.head + 4,
                 loop := some { lp with step := lp.step + 1, pos := 0, dith := false } }
  else
    b = { a with strk := false, rb := if k = .a ∨ k = .v then a.rb + 1 else a.rb, pc := lp.head + 4 + 4 * BitVec.ofNat 64 lp.len, loop := none }

/-- The seat goes to the next word: in a loop, of its body; outside one, after its second delay slot, to the target of the branch taken (R35). -/
def ToNext (k : SeatId) (a b : Seat) : Prop :=
  match a.loop with
  | some lp => lp.lsq = false → lp.lepi = false → InBody k lp a b
  | none =>
    if a.dslots = 0 then b = { a with strk := false, pc := a.pc + 4 }
    else if a.dslots = 1 ∧ a.dtaken = true then b = { a with strk := false, pc := a.dtgt, dslots := 0, dtaken := false, dtgt := 0 }
    else b = { a with strk := false, pc := a.pc + 4, dslots := a.dslots - 1 }

/-- After a branch or a jump the seat issues two delay slots; a branch taken remembers its target (R35). -/
def ToBranch (taken : Bool) (target : Dw) (_ : SeatId) (a b : Seat) : Prop :=
  b = { a with strk := false, pc := a.pc + 4, dslots := 2, dtaken := taken, dtgt := if taken then target else 0 }

/-- The seat stays where it stands. -/
def Stays (_ : SeatId) (a b : Seat) : Prop := b = { a with strk := false }

/-- The seat enters a loop at the word behind its MLOOP (R39). -/
def Enters (lp : Loop) (_ : SeatId) (a b : Seat) : Prop := b = { a with strk := false, pc := a.pc + 4, loop := some lp }

/-- The seat goes to a word behind a loop body that it skips (R40). -/
def Skips (target : Dw) (_ : SeatId) (a b : Seat) : Prop := b = { a with strk := false, pc := target }

/-- t is u with the turn passed on: the seat has stalled. -/
structure Waits (u t : State) : Prop where
  cores : ∀ m, m ≠ u.cur → t.coreAt m = u.coreAt m
  core : CoreKept (u.coreAt u.cur) (t.coreAt u.cur)
  moved : (t.coreAt u.cur).moved = (u.coreAt u.cur).moved
  ctx : (t.coreAt u.cur).ctx = here u
  package : PackageKept u t
  crews : t.crews = u.crews
  outs : t.outs = u.outs
  turn : t.turn = nextTurn u.turn

/-- Seat k has met a cause at its word, which has not issued: the cause stands in the seat with the word's address, and nothing else changes (R34,
R349). TVAL is stated where the spec states it for the cause. -/
structure Trapped (k : SeatId) (q : Cause) (tval : Dw) (s t : State) : Prop where
  cores : ∀ m, m ≠ s.cur → t.coreAt m = s.coreAt m
  core : CoreKept (s.coreAt s.cur) (t.coreAt s.cur)
  moved : (t.coreAt s.cur).moved = (s.coreAt s.cur).moved
  regs : RegsKept (here s) (t.coreAt s.cur).ctx
  l : (t.coreAt s.cur).ctx.l = (here s).l
  dph : (t.coreAt s.cur).ctx.dph = (here s).dph
  seats : ∀ j, j ≠ k → (t.coreAt s.cur).ctx.seat j = (here s).seat j
  seat : ∃ tv, (t.coreAt s.cur).ctx.seat k =
    { (here s).seat k with cause := some { cause := q, tval := tv, tpc := ((here s).seat k).pc, issued := false } } ∧
    (q.tvalStated = true → tv = tval)
  package : PackageKept s t
  crews : t.crews = s.crews
  outs : t.outs = s.outs
  turn : t.turn = nextTurn s.turn

end Sys2Proof
end

