-- ==== Sys2Proof/Certificates/Slice0/Obligations.lean ====
section
/-! DEFINITION. The statements for the provers. Each word of a seat is stated where it issues (`Issues`: its turn has come and the checks that every word
meets let it pass); its result is stated as what is on its way (`State.sendC` and its like add one result in flight, which RESULT_LAND writes), and its
frame by `Past`: the seat goes on, and every register, flag, special register, byte of memory and other core stands as in the state that the effect
gives. `Trapped` and `Waits` say the same of a word that is turned away or stalls. Values are written as the spec's expressions. -/

/-! ## Encoding -/

open Sys2Proof Machine

/-- R113, R114, R133 to R136: for every instruction word with every operand at every value its encoding admits, decoding its encoding gives it back, in
its own seat's map, and in all four for the common group. -/
def Obligations.DecodeEncode : Prop :=
  ∀ (i : Instr) (k : SeatId) (w : Word), i.inSeat k → i.wf = true → encode i = some w → decode k w = .ok i

/-- R113 to R115: whatever word decodes in a seat is the encoding of the instruction it decodes to, which is well formed and stands in that seat's map or
in the common group; so no word has a second reading, and a word with a reserved field set has none. -/
def Obligations.EncodeDecode : Prop :=
  ∀ (k : SeatId) (w : Word) (i : Instr), decode k w = .ok i → encode i = some w ∧ i.wf = true ∧ i.inSeat k

/-- R142, R145, R147, R151, R152, R158, R161, R166, R167, R170, R177, R180, R187, R207, R220, R221, R242, R246: the worked encodings of the spec decode to
the instructions they stand for. -/
def Obligations.DecodeWords : Prop :=
  decode .c 0x008C8500 = .ok (.add false 3 4 5) ∧ decode .c 0x101891A3 = .ok (.lui false 6 37283) ∧
  decode .c 0x0C18D678 = .ok (.addi false 6 6 0x1678) ∧ decode .c 0x148C1FFA = .ok (.bne false 3 0 0x1FFA) ∧
  decode .c 0x1D012A01 = .ok (.park false 9 10 1) ∧ decode .c 0x1D800000 = .ok (.exit false) ∧
  decode .a 0x04108040 = .ok (.aaddi false 4 4 64) ∧ decode .a 0x1588C001 = .ok (.ldv false 2 6 0 0 1) ∧
  decode .a 0x18000005 = .ok (.qbind false 0 1 1) ∧ decode .a 0x18855884 = .ok (.qpat false 1 10 3 1 1) ∧
  decode .a 0x201D2000 = .ok (.aset false 7 9 0 0) ∧ decode .a 0x24017000 = .ok (.cpy false 11 2 0 0) ∧
  decode .v 0x0321012C = .ok (.vscac false 16 32 9 3 0) ∧ decode .v 0x1D063F00 = .ok (.vmoviF32 false 3 0 0x3F00) ∧
  decode .v 0x28AFFFF8 = .ok (.vbnz false 5 0x7FFF8) ∧ decode .m 0x80C0640F = .ok (.mma true 4 0 1 18 15) ∧
  decode .m 0x01D00000 = .ok (.mdrn false 5) ∧ decode .m 0x0B90001F = .ok (.mlui false 2 31) ∧
  decode .m 0x0D11FFFD = .ok (.mblt false 2 3 0x7FFD) ∧ decode .v 0xFC81C900 = .ok (.mloop true 0 7 1 1) ∧
  decode .c 0xFC81C100 = .ok (.mloop true 0 7 0 1)

/-! ## The machine -/

namespace Sys2Proof.Spec

open Machine

/-- The S bit of a word, bit 31 of its encoding (R113). -/
def stroke (i : Instr) : Bool := match encode i with | some w => w.getLsbD 31 | none => false

/-- A handler of the supervisor runs on the current core. -/
def inSup (s : State) : Prop := ∃ h, (s.coreAt s.cur).handler = some h ∧ h.sup = true

/-- A register number that SYSR may not read: it names no register (R155, R358). -/
def noSysr (s : State) (r : Nat) : Prop := (16 < r ∧ r < 256) ∨ 1023 < r ∨ (266 < r ∧ inSup s)

/-- A register number and value that SYSW may not write: no register, a read-only one, or a reserved value of INVAL (R155, R156, R358). -/
def noSysw (s : State) (r : Nat) (v : Dw) : Prop :=
  (r < 256 ∧ r ≠ 12) ∨ 1023 < r ∨
  (inSup s ∧ (r = 256 ∨ r = 257 ∨ r = 260 ∨ r = 261 ∨ 266 ≤ r ∨
    (r = 262 ∧ (v.extractLsb' 0 2 = 3 ∨ v.extractLsb' 2 10 ≠ 0 ∨ v.extractLsb' 57 7 ≠ 0))))

/-- A word with defined fields that is undefined where it stands: SYSR and SYSW of no register that it may use, SPAWN and PARK in a handler (R115, R155,
R156, R350, R358). -/
def undefinedHere (s : State) : Instr → Prop
  | .sysr _ _ r => noSysr s r.toNat
  | .sysw _ a r => noSysw s r.toNat (s.rdC 0 a)
  | .spawn _ _ | .park _ _ _ _ => (s.coreAt s.cur).handler.isSome = true
  | _ => False

/-- The turn of seat k of the current core, with nothing due before its word. -/
def turnOf (s : State) (k : SeatId) : Prop := s.turn = .seat k ∧ (k = .c → s.inputs = [] ∧ s.dueStart = none)

/-- What one result changes as it lands in a context x: its register and nothing else (R26, R32, R33, R201). -/
def landed (x y : Ctx) (r : InFlight) : Prop :=
  match r.dest with
  | .none => y = x
  | .c i => y = { x with c := if i = 0 then x.c else x.c.set i.toFin (r.val.extractLsb' 0 64) }
  | .a i => y = { x with a := if i = 0 then x.a else x.a.set i.toFin (r.val.extractLsb' 0 64) }
  | .x i => y = { x with x := x.x.set i.toFin (r.val.extractLsb' 0 64) }
  | .m i => y = { x with m := x.m.set i.toFin (r.val.extractLsb' 0 64) }
  | .v i => ∃ v, y = { x with v := x.v.set i.toFin v } ∧ ∀ j, j < 1024 →
      v.extractLsb' (8 * j) 8 = if r.en.getLsbD j then r.val.extractLsb' (8 * j) 8 else (x.v.get i.toFin).extractLsb' (8 * j) 8
  | .p i => ∃ v, y = { x with p := if i = 0 then x.p else x.p.set i.toFin v } ∧ ∀ j, j < 256 →
      v.getLsbD j = if r.en.getLsbD j then r.val.getLsbD j else (x.p.get i.toFin).getLsbD j
  | .l i => y = { x with l := x.l.set i.toFin (r.val.extractLsb' 0 64) }
  | .sys i => y = if i = 12 then { x with uhand := (r.val.extractLsb' 2 62) ++ (0 : BitVec 2) } else x
  | .fmt i => y = { x with fmt := x.fmt.set i.toFin (r.val.extractLsb' 0 16) }
  | .dph => y = { x with dph := r.val.extractLsb' 0 3 }
  | .queue q t => y = { x with queues := x.queues.set q.toFin { x.queues.get q.toFin with
      ents := (x.queues.get q.toFin).ents.map fun e => if e.ticket = t then { e with landed := true, data := r.val, poison := r.poison } else e } }

/-- The last effect of a clock that a test picks. -/
def lastOf {α : Type} (l : List Pending) (f : Pending → Option α) : Option α := l.reverse.findSome? f

/-- The direction and element size that a pending QBIND gives a queue. -/
def boundTo (q : BitVec 3) : Pending → Option (BitVec 2 × BitVec 2)
  | .bind r d e => if r = q then some (d, e) else none
  | _ => none

/-- The cores but one, every byte of memory, the slots and the partitions stand. -/
structure OneCore (n : CoreId) (s t : State) : Prop where
  cores : ∀ m, m ≠ n → t.coreAt m = s.coreAt m
  mem : ∀ a, memRead t.mem a = memRead s.mem a
  slots : t.slots = s.slots
  parts : t.parts = s.parts

end Sys2Proof.Spec

open Spec

/-- R11, R36, R114: at the turn of a seat that may issue, in a kernel step that its iteration lies in, the four bytes at its pc's physical address, taken
as a little-endian word, are decoded in the seat's map, and the step is the instruction. A byte of no live slot is memory's; a live slot's layout stands in
its sixteen bytes (R67). In the shadow row of the local window, whose places the model numbers from 2^80 on (log 60), the word is that of the shadow.
The order of the turns is the model's choice (log 1). -/
def Obligations.StepRunsDecoded : Prop :=
  (∀ (s : State) (k : SeatId) (w : Word) (i : Instr), turnOf s k → s.canIssue k = true →
    (∀ lp, ((here s).seat k).body = some lp → lp.issues = true) → s.fetch s.cur k = .word w → decode k w = .ok i → step s = exec i s) ∧
  (∀ (s : State) (n : CoreId) (k : SeatId) (pa : Nat),
    let pc := ((s.coreAt n).ctx.seat k).pc
    let sec := s.section_ n k
    pc.toNat % 4 = 0 → sec.base.toNat ≤ pc.toNat → pc.toNat < sec.base.toNat + 4 * sec.words →
    translate s n (s.ctxOn n) (s.partOn n) (.fetch k) (match (s.coreAt n).handler with | some h => h.sup | none => false) needRd false pc 4 = .ok pa →
    pa < 2 ^ 80 → ∃ w : Word, s.fetch n k = .word w ∧ w.toNat = (s.byteAt pa).toNat + 2 ^ 8 * (s.byteAt (pa + 1)).toNat +
      2 ^ 16 * (s.byteAt (pa + 2)).toNat + 2 ^ 24 * (s.byteAt (pa + 3)).toNat) ∧
  (∀ (s : State) (pa : Nat), (∀ t ∈ s.slots, pa < t.pa ∨ t.pa + 16 ≤ pa) → s.byteAt pa = memRead s.mem pa) ∧
  (∀ (s : State) (n : CoreId) (h : Handler) (pa : Nat), (s.coreAt n).handler = some h → 2 ^ 80 ≤ pa →
    s.instrAt n pa = (h.shadowAt (s.coreAt n).ctx (pa % 2 ^ 18 / 8)).extractLsb' (8 * (pa % 8)) 32)

/-- R35, R37, R39, R115, R116, R350: the checks every word meets at its turn. A stroked word with partners outside a loop body waits for them, an undefined one
and one in a delay slot as well (log 71); a word that does not wait and has an undefined field value, or is undefined where it stands, is undefined before
anything else; a transfer or a stroked word without partners in a delay slot, a transfer in a loop body, a stroked word in a handler or in the only active
seat trap. -/
def Obligations.WordChecks : Prop :=
  ∀ (s : State) (k : SeatId) (i : Instr), i.inSeat k → s.canIssue k = true →
    let t := (here s).seat k
    let alone : Prop := (s.coreAt s.cur).handler.isSome = true ∨ (here s).actives = [k]
    let waits : Prop := stroke i = true ∧ t.body = none ∧ ¬alone
    let defined : Prop := i.wf = true ∧ ¬undefinedHere s i
    (¬defined → ¬waits → ∃ u, exec i s = .next u ∧ Trapped k .undefinedInstruction 0 s u) ∧
    (waits → exec i s = .next (s.modCtx s.cur fun x => x.modSeat k fun z => { z with strk := true }).passTurn) ∧
    (defined → ¬waits → t.dslots ≠ 0 → (stroke i = true ∨ isTransfer i = true) → ∃ u, exec i s = .next u ∧ Trapped k .delaySlotWord 0 s u) ∧
    (defined → t.dslots = 0 → t.body.isSome = true → isTransfer i = true → ∃ u, exec i s = .next u ∧ Trapped k .loopBody 0 s u) ∧
    (defined → t.dslots = 0 → t.body = none → stroke i = true → alone → ∃ u, exec i s = .next u ∧ Trapped k .strokeWithoutCrew 0 s u)

/-- R26, R32, R41: in every register file, c0 and a0 read as zero and p0 as all ones; a register that no result is on its way to reads as it stands; the
names v24 to v31 and a24 to a31 turn with their seat's rotation base, and those below them do not. -/
def Obligations.RegisterReads : Prop :=
  ∀ (s : State) (tag : Nat),
    s.rdC tag 0 = 0 ∧ s.rdA tag 0 = 0 ∧ s.rdP tag 0 = BitVec.allOnes 256 ∧
    (∀ i, i ≠ 0 → (here s).inWindow (.c i) = false → s.rdC tag i = (here s).c.get i.toFin) ∧
    (∀ i : BitVec 5, i ≠ 0 → i.toNat < 24 → (here s).inWindow (.a i) = false → s.rdA tag i = (here s).a.get i.toFin) ∧
    (∀ i j : BitVec 5, 24 ≤ i.toNat → (j.toNat : Int) = 24 + ((i.toNat : Int) - 24 - ((here s).seat .a).rb.toNat) % 8 →
      (here s).inWindow (.a j) = false → s.rdA tag i = (here s).a.get j.toFin) ∧
    (∀ i j : BitVec 5, 24 ≤ i.toNat → (j.toNat : Int) = 24 + ((i.toNat : Int) - 24 - ((here s).seat .v).rb.toNat) % 8 →
      (here s).inWindow (.v j) = false → s.rdV tag i = (here s).v.get j.toFin) ∧
    (∀ i, (here s).inWindow (.x i) = false → s.rdX tag i = (here s).x.get i.toFin) ∧
    (∀ i, (here s).inWindow (.m i) = false → s.rdM tag i = (here s).m.get i.toFin) ∧
    (∀ i, i ≠ 0 → (here s).inWindow (.p i) = false → s.rdP tag i = (here s).p.get i.toFin) ∧
    (∀ i : BitVec 5, i.toNat < 24 → (here s).inWindow (.v i) = false → s.rdV tag i = (here s).v.get i.toFin)

/-- The registers hold the values that the spec states for reset: R27 (bindings), R30 and R31 (tokens, flags), R38 (loop registers), R155 (SCYC, OSBIND,
OSISS, OSPRF, UHAND, no handler), R231 (progress index), R372 (the schedule cycle), on every core; no unit is on it. That the tokens and flags of a core
that no unit has entered yet are 0 is the model's choice (log 5): R30 and R31 give them for a unit's entry. -/
def Obligations.ResetRegisters : Prop :=
  ∀ n : CoreId,
    let c := State.reset.coreAt n
    c.unit = none ∧ c.handler = none ∧ c.csc = 0 ∧ c.ctx.uhand = 0 ∧ c.ctx.eng.pidx = 0 ∧ c.ctx.f = 0 ∧
    (∀ i : Fin 8, c.ctx.l.get i = 0) ∧ (∀ i : Fin 16, c.ctx.k.get i = 0) ∧
    (∀ i : Fin 4, c.ctx.osiss.get i = 0 ∧ c.ctx.osprf.get i = 0 ∧ (c.ctx.seat .a).osb.get i = 28) ∧
    (∀ q : BitVec 3, (c.ctx.queue q).binding = 0)

/-- The memory keeps its canonical form over every step: addresses strictly rise and no byte is listed at the value an unlisted one reads as.
The form, and that an unlisted byte reads as 0, are the model's choice (log 4). -/
def Obligations.StepKeepsMemory : Prop := ∀ s t : State, MemInv s → step s = .next t → MemInv t

/-- The memory of reset has its canonical form, and lists nothing.
The form, and that an unlisted byte reads as 0, are the model's choice (log 4). -/
def Obligations.ResetMemory : Prop := MemInv State.reset ∧ State.reset.mem = []

/-- R26, R32, R33, R201, R389: at the start of a clock the first result whose clock has come lands: it leaves the list of results in flight and writes its
register, merged under its enables; a result to c0, a0 or p0 is discarded. Nothing else changes, but that a recording replay log takes an entry for a value
from outside the core.
R34, R57, R367: a result that brings a trap leaves the list as well; its seat keeps the cause with the address of its word, to be taken at the end of the
clock (mark 102 of the model says so), and its register stands.
That a landing is a step of its own is the model's choice (log 1). -/
def Obligations.ResultLands : Prop :=
  ∀ (s : State) (n : CoreId) (r : InFlight), s.atStart n = true → s.advancing n = true → s.playing n = false →
    let c := s.coreAt n
    c.ctx.inflight.find? c.ctx.landable = some r →
    (r.err = none → ∃ t, exec (.resultLand n) s = .next t ∧ OneCore n s t ∧ { t.coreAt n with ctx := c.ctx, dbg := c.dbg } = c ∧
      landed { c.ctx with inflight := c.ctx.inflight.erase r } (t.coreAt n).ctx r ∧
      (t.coreAt n).dbg = if r.ext = true ∧ c.dbg.rec_ = true then { c.dbg with rlq := c.dbg.rlq ++
        [leBytes (2 + 2 ^ 4 * r.seat.toNat + 2 ^ 6 * r.dest.kindIdx.2 + 2 ^ 16 * ((c.csc - c.dbg.rlcsc).toNat % 2 ^ 48)) 8 ++
          leBytes (r.val.extractLsb' 0 64).toNat 8] } else c.dbg) ∧
    (∀ q, r.err = some q → ∃ t tv, exec (.resultLand n) s = .next t ∧ OneCore n s t ∧ (q.cause.tvalStated = true → tv = q.tval) ∧
      t.coreAt n = { c with why := c.why ++ [102], ctx := ({ c.ctx with inflight := c.ctx.inflight.erase r }).modSeat r.seat fun z =>
        { z with cause := some { q with tval := tv } } })

/-- R31 to R33, R57, R160, R167, R372: at the end of a running clock the posts to each token add up; the last FSET of a flag, the last SCOPE of a stream, in
every seat, and the last QBIND of a queue win; the schedule cycle rises by one, and every result in flight comes one cycle nearer. No other part of the
context changes, but the shape unit's, and outside a play run no queue's entries.
That a clock's end is a step of its own is the model's choice (log 1). -/
def Obligations.ClockEnds : Prop :=
  ∀ s : State, s.turn = .finish → (s.coreAt s.cur).ended = false → s.running s.cur = true → (s.coreAt s.cur).why = [] →
    (s.coreAt s.cur).dbg.rlq = [] → (∀ p ∈ (s.coreAt s.cur).pend, p ≠ .boundary ∧ p ≠ .lost ∧ ∀ a b, p ≠ .leave a b) →
    let x := here s
    let pend := (s.coreAt s.cur).pend
    ∃ t, step s = .next t ∧ t.cur = s.cur ∧ (t.coreAt s.cur).csc = (s.coreAt s.cur).csc + 1 ∧ (t.coreAt s.cur).ended = true ∧
      (t.coreAt s.cur).pend = [] ∧ (t.coreAt s.cur).moved = 0 ∧
      (∀ k : BitVec 4, (here t).k.get k.toFin = x.k.get k.toFin + BitVec.ofNat 16 ((s.coreAt s.cur).postsTo k)) ∧
      (∀ f : BitVec 3, (here t).f.getLsbD f.toNat =
        (lastOf pend fun p => match p with | .flag g v => if g = f then some v else none | _ => none).getD (x.f.getLsbD f.toNat)) ∧
      (∀ (k : SeatId) (os : BitVec 2), ((here t).seat k).osb.get os.toFin =
        (lastOf pend fun p => match p with | .scope o e => if o = os then some e else none | _ => none).getD ((x.seat k).osb.get os.toFin)) ∧
      (∀ q : BitVec 3, ((here t).queue q).dir = ((lastOf pend (boundTo q)).getD ((x.queue q).dir, (x.queue q).esz)).1 ∧
        ((here t).queue q).esz = ((lastOf pend (boundTo q)).getD ((x.queue q).dir, (x.queue q).esz)).2 ∧ ((here t).queue q).pat = (x.queue q).pat ∧
        (s.playing s.cur = false → ((here t).queue q).ents = (x.queue q).ents)) ∧
      (∀ k : SeatId, { (here t).seat k with osb := (x.seat k).osb } = x.seat k) ∧
      (here t).inflight = x.inflight.map (fun r => { r with rem := r.rem - 1 }) ∧
      { here t with k := x.k, f := x.f, seats := x.seats, queues := x.queues, inflight := x.inflight, shape := x.shape } = x ∧ OneCore s.cur s t

/-! ## The C seat -/

namespace Sys2Proof.Spec

open Machine

/-- An integer modulo 2^64. -/
def wrap (v : Int) : Dw := BitVec.ofInt 64 v

/-- What a scalar word of C computes, as a table of the spec's expressions (R142 to R145, R159): its stroke bit, destination, value, latency. -/
def cScalar (s : State) : Instr → Option (Bool × BitVec 5 × Dw × Nat)
  | .add st d a b => some (st, d, wrap ((s.rdC 0 a).toNat + (s.rdC 1 b).toNat), 1)
  | .sub st d a b => some (st, d, wrap ((s.rdC 0 a).toNat - (s.rdC 1 b).toNat), 1)
  | .mul st d a b => some (st, d, wrap ((s.rdC 0 a).toNat * (s.rdC 1 b).toNat), 3)
  | .mulh st d a b => some (st, d, wrap ((s.rdC 0 a).toInt * (s.rdC 1 b).toInt / 2 ^ 64), 3)
  | .mulhu st d a b => some (st, d, wrap ((s.rdC 0 a).toNat * (s.rdC 1 b).toNat / 2 ^ 64), 3)
  | .div st d a b => some (st, d, if s.rdC 1 b = 0 then wrap (-1) else wrap ((s.rdC 0 a).toInt.tdiv (s.rdC 1 b).toInt), 18)
  | .divu st d a b => some (st, d, if s.rdC 1 b = 0 then wrap (2 ^ 64 - 1) else wrap ((s.rdC 0 a).toNat / (s.rdC 1 b).toNat), 18)
  | .rem st d a b =>
    some (st, d, if s.rdC 1 b = 0 then s.rdC 0 a
      else wrap ((s.rdC 0 a).toInt - (s.rdC 1 b).toInt * (s.rdC 0 a).toInt.tdiv (s.rdC 1 b).toInt), 18)
  | .and st d a b => some (st, d, s.rdC 0 a &&& s.rdC 1 b, 1)
  | .or st d a b => some (st, d, s.rdC 0 a ||| s.rdC 1 b, 1)
  | .xor st d a b => some (st, d, s.rdC 0 a ^^^ s.rdC 1 b, 1)
  | .shl st d a b => some (st, d, wrap ((s.rdC 0 a).toNat * 2 ^ ((s.rdC 1 b).toNat % 64)), 1)
  | .shr st d a b => some (st, d, wrap ((s.rdC 0 a).toNat / 2 ^ ((s.rdC 1 b).toNat % 64)), 1)
  | .sar st d a b => some (st, d, wrap ((s.rdC 0 a).toInt / 2 ^ ((s.rdC 1 b).toNat % 64)), 1)
  | .min st d a b => some (st, d, wrap (min (s.rdC 0 a).toInt (s.rdC 1 b).toInt), 1)
  | .max st d a b => some (st, d, wrap (max (s.rdC 0 a).toInt (s.rdC 1 b).toInt), 1)
  | .slt st d a b => some (st, d, if (s.rdC 0 a).toInt < (s.rdC 1 b).toInt then 1 else 0, 1)
  | .sltu st d a b => some (st, d, if (s.rdC 0 a).toNat < (s.rdC 1 b).toNat then 1 else 0, 1)
  | .addi st d a imm => some (st, d, wrap ((s.rdC 0 a).toInt + imm.toInt), 1)
  | .andi st d a imm => some (st, d, s.rdC 0 a &&& BitVec.ofNat 64 imm.toNat, 1)
  | .ori st d a imm => some (st, d, s.rdC 0 a ||| BitVec.ofNat 64 imm.toNat, 1)
  | .xori st d a imm => some (st, d, s.rdC 0 a ^^^ BitVec.ofNat 64 imm.toNat, 1)
  | .shli st d a imm => some (st, d, wrap ((s.rdC 0 a).toNat * 2 ^ imm.toNat), 1)
  | .shri st d a imm => some (st, d, wrap ((s.rdC 0 a).toNat / 2 ^ imm.toNat), 1)
  | .sari st d a imm => some (st, d, wrap ((s.rdC 0 a).toInt / 2 ^ imm.toNat), 1)
  | .slti st d a imm => some (st, d, if (s.rdC 0 a).toInt < imm.toInt then 1 else 0, 1)
  | .lui st d imm => some (st, d, wrap (imm.toInt * 2 ^ 13), 1)
  | _ => none

/-- The condition and the target of a branch or jump word of C (R121, R146, R147). -/
def cBranch (s : State) : Instr → Option (Bool × Bool × Dw)
  | .beq st a b imm => some (st, decide (s.rdC 0 a = s.rdC 1 b), wrap ((s.pcOf .c).toNat + 4 * imm.toInt))
  | .bne st a b imm => some (st, decide (s.rdC 0 a ≠ s.rdC 1 b), wrap ((s.pcOf .c).toNat + 4 * imm.toInt))
  | .blt st a b imm => some (st, decide ((s.rdC 0 a).toInt < (s.rdC 1 b).toInt), wrap ((s.pcOf .c).toNat + 4 * imm.toInt))
  | .bge st a b imm => some (st, decide ((s.rdC 1 b).toInt ≤ (s.rdC 0 a).toInt), wrap ((s.pcOf .c).toNat + 4 * imm.toInt))
  | .bltu st a b imm => some (st, decide ((s.rdC 0 a).toNat < (s.rdC 1 b).toNat), wrap ((s.pcOf .c).toNat + 4 * imm.toInt))
  | .bgeu st a b imm => some (st, decide ((s.rdC 1 b).toNat ≤ (s.rdC 0 a).toNat), wrap ((s.pcOf .c).toNat + 4 * imm.toInt))
  | .jmp st imm => some (st, true, wrap ((s.pcOf .c).toNat + 4 * imm.toInt))
  | .jr st a => some (st, true, s.rdC 0 a)
  | _ => none

end Sys2Proof.Spec

open Sys2Proof Machine Spec

/-- R142 to R145: every scalar word of C reads its operands on the issue clock, and its result, reduced modulo 2^64, is on the way to register d for
the latency of the table. The seat goes on, and every register file, flag, special register and byte of memory stands as it was. A register form whose fn
is not 0 has no decoding, and the spec's ADD word is the ADD it stands for. -/
def Obligations.CScalarResult : Prop :=
  (∀ (s : State) (i : Instr) (st : Bool) (d : BitVec 5) (v : Dw) (lat : Nat),
    cScalar s i = some (st, d, v, lat) → Issues s .c st i → ∃ t, exec i s = .next t ∧ Past .c ToNext (s.sendC d v lat) t) ∧
  (∀ (w : Word) (i : Instr), 1 ≤ (w.extractLsb' 23 8).toNat → (w.extractLsb' 23 8).toNat ≤ 18 → w.extractLsb' 0 8 ≠ 0 → decode .c w ≠ .ok i) ∧
  decode .c 0x008C8500 = .ok (.add false 3 4 5)

/-- R143: division never traps and never holds the core. Dividing by zero gives −1 in DIV, 2^64 − 1 in DIVU, and the dividend in REM; the most negative
number divided by −1 gives −2^63 in DIV, remainder 0. Every other quotient is truncated toward zero, and a nonzero remainder has the dividend's sign. -/
def Obligations.CDivCorners : Prop :=
  ∀ (s : State) (st : Bool) (d a b : BitVec 5),
    (Issues s .c st (.div st d a b) → ∃ v t, exec (.div st d a b) s = .next t ∧ Past .c ToNext (s.sendC d v 18) t ∧
      (s.rdC 1 b = 0 → v.toInt = -1) ∧ (s.rdC 0 a = BitVec.intMin 64 → (s.rdC 1 b).toInt = -1 → v.toInt = -(2 ^ 63)) ∧
      (s.rdC 1 b ≠ 0 → ¬ (s.rdC 0 a = BitVec.intMin 64 ∧ (s.rdC 1 b).toInt = -1) →
        v.toInt = (s.rdC 0 a).toInt.tdiv (s.rdC 1 b).toInt)) ∧
    (Issues s .c st (.divu st d a b) → ∃ v t, exec (.divu st d a b) s = .next t ∧ Past .c ToNext (s.sendC d v 18) t ∧
      (s.rdC 1 b = 0 → v.toNat = 2 ^ 64 - 1) ∧ (s.rdC 1 b ≠ 0 → v.toNat = (s.rdC 0 a).toNat / (s.rdC 1 b).toNat)) ∧
    (Issues s .c st (.rem st d a b) → ∃ v t, exec (.rem st d a b) s = .next t ∧ Past .c ToNext (s.sendC d v 18) t ∧
      (s.rdC 1 b = 0 → v = s.rdC 0 a) ∧ (s.rdC 0 a = BitVec.intMin 64 → (s.rdC 1 b).toInt = -1 → v = 0) ∧
      (s.rdC 1 b ≠ 0 → v.toInt = (s.rdC 0 a).toInt - (s.rdC 1 b).toInt * (s.rdC 0 a).toInt.tdiv (s.rdC 1 b).toInt) ∧
      (v ≠ 0 → s.rdC 1 b ≠ 0 → (v.toInt < 0 ↔ (s.rdC 0 a).toInt < 0)))

/-- R35, R121, R146, R147: a branch or jump word of C compares on the issue clock and remembers its target, A + 4 × sext(imm) or the value of
register a, for the end of its two delay slots; where the condition does not hold it remembers nothing. Nothing else changes.
R147: JAL branches as JMP does, and c31 receives the address of the word after its delay slots. -/
def Obligations.CBranchGoes : Prop :=
  (∀ (s : State) (i : Instr) (st taken : Bool) (target : Dw),
      cBranch s i = some (st, taken, target) → Issues s .c st i → ∃ t, exec i s = .next t ∧ Past .c (ToBranch taken target) s t) ∧
  (∀ (s : State) (st : Bool) (imm : BitVec 23), Issues s .c st (.jal st imm) →
      ∃ t, exec (.jal st imm) s = .next t ∧
        Past .c (ToBranch true (wrap ((s.pcOf .c).toNat + 4 * imm.toInt))) (s.sendC 31 (wrap ((s.pcOf .c).toNat + 12)) 1) t)

/-- R38, R148: LSET computes v = a + sext(imm13). A value outside 0 to 4,294,967,295 traps "loop trip"; a register that a running loop uses, the C seat's
own that a handler's frame keeps among them, traps "loop busy"; otherwise trip ← v and count ← 0 are on the way to the loop register for one clock. The
spec's LSET word is the LSET it stands for. -/
def Obligations.LsetWrites : Prop :=
  ∀ (s : State) (st : Bool) (d a : BitVec 5) (imm : BitVec 13), Issues s .c st (.lset st d a imm) →
    let v : Dw := wrap ((s.rdC 0 a).toInt + imm.toInt)
    let l : BitVec 3 := d.setWidth 3
    (v.toInt < 0 ∨ 4294967295 < v.toInt → ∃ t, exec (.lset st d a imm) s = .next t ∧ Trapped .c .loopTrip 0 s t) ∧
    (0 ≤ v.toInt → v.toInt ≤ 4294967295 → (s.coreAt s.cur).loopOn l = true →
      ∃ t, exec (.lset st d a imm) s = .next t ∧ Trapped .c .loopBusy 0 s t) ∧
    (0 ≤ v.toInt → v.toInt ≤ 4294967295 → (s.coreAt s.cur).loopOn l = false →
      ∃ t, exec (.lset st d a imm) s = .next t ∧ Past .c ToNext (s.sendR (mkResult .c (.l l) (v.setWidth 8192) 1)) t) ∧
    decode .c 0x1C010000 = .ok (.lset false 0 8 0)

/-- R18, R20, R24, R150 to R152, R331, R350: in a unit, SPAWN leaves the read of its record for the moment after the operations issued before it,
without stalling; PARK takes a mask of at most sixteen registers without c0, in no crew unit, and waits behind its two delay slots, the address kept
being its own; EXIT leaves the unit on the edge after its issue clock, cancelled where a cancellation is pending. In a handler SPAWN and PARK are
undefined, EXIT is a handler fault in user mode and leaves the unit cancelled in the supervisor handler. -/
def Obligations.UnitWords : Prop :=
  (∀ (s : State) (st : Bool) (a : BitVec 5) (u : UnitInfo), Issues s .c st (.spawn st a) → (s.coreAt s.cur).handler = none →
    (s.coreAt s.cur).unit = some u → ∃ t, exec (.spawn st a) s = .next t ∧
      Past .c ToNext ({ s with nextId := s.nextId + 1 }.modCore s.cur fun c =>
        { c with spawns := c.spawns ++ [(s.nextId, s.rdC 0 a, u, (s.coreAt s.cur).opIds)] }) t) ∧
  (∀ (s : State) (st : Bool) (a b : BitVec 5) (fn : BitVec 1) (u : UnitInfo), Issues s .c st (.park st a b fn) →
    (s.coreAt s.cur).handler = none → (s.coreAt s.cur).unit = some u →
    let mask : Word := (s.rdC 1 b).extractLsb' 0 32
    let bad : Prop := 16 < ((List.range 32).filter fun i => mask.getLsbD i).length ∨ mask.getLsbD 0 = true
    (bad → ∃ t, exec (.park st a b fn) s = .next t ∧ Trapped .c .parkMask 0 s t) ∧
    (¬bad → u.crew = true → ∃ t, exec (.park st a b fn) s = .next t ∧ Trapped .c .crew 0 s t) ∧
    (¬bad → u.crew = false → ∃ t, exec (.park st a b fn) s = .next t ∧
      Past .c (ToBranch false 0) (s.modCtx s.cur fun x =>
        { x with park := some { pc := s.pcOf .c, slotVa := s.rdC 0 a, phase := fn, mask := mask, polling := false } }) t)) ∧
  (∀ (s : State) (st : Bool), Issues s .c st (.exit st) →
    ((s.coreAt s.cur).handler = none → ∃ t, exec (.exit st) s = .next t ∧
      Past .c ToNext (s.pendF (.leave (match (s.coreAt s.cur).unit.bind fun u => u.stop with | some p => decide (p.why = .cancel) | none => false) false)) t) ∧
    (∀ h, (s.coreAt s.cur).handler = some h → h.sup = true → ∃ t, exec (.exit st) s = .next t ∧ Past .c Stays (s.pendF (.leave true true)) t) ∧
    (∀ h, (s.coreAt s.cur).handler = some h → h.sup = false → ∃ t, exec (.exit st) s = .next t ∧ Trapped .c .handlerFault 0 s t)) ∧
  (∀ (s : State) (st : Bool) (a b : BitVec 5) (fn : BitVec 1) (h : Handler), (s.coreAt s.cur).handler = some h →
    (Issues s .c st (.spawn st a) → ∃ t, exec (.spawn st a) s = .next t ∧ Trapped .c .undefinedInstruction 0 s t) ∧
    (Issues s .c st (.park st a b fn) → ∃ t, exec (.park st a b fn) s = .next t ∧ Trapped .c .undefinedInstruction 0 s t))

namespace Sys2Proof.Spec

open Machine

/-- The result of CRD for a member with so many finished of so many, or of a number that is not fixed yet (R154). -/
def crdValue (finished total : Nat) (fixed : Bool) : Dw :=
  BitVec.ofNat 64 (finished % 2 ^ 32 + (if fixed then total % 2 ^ 31 else 0x7FFFFFFF) * 2 ^ 32)

/-- The question of core n whose answer a result in flight awaits, and no operation or copy of the core has its number. -/
def asked (s : State) (n : CoreId) (k : CrdAsk) : Prop :=
  (s.coreAt n).op? k.op = none ∧ (s.coreAt n).copy? k.op = none ∧ ((s.coreAt n).crds.find? fun e => decide (e.op = k.op)) = some k

/-- The home answers v: it fills the result that waits for it, and the question is gone. -/
def answers (s : State) (n : CoreId) (k : CrdAsk) (v : Dw) : Prop :=
  ∃ t, exec (.operationPerformed n k.op) s = .next t ∧ OneCore n s t ∧ (∀ e ∈ (t.coreAt n).crds, e.op ≠ k.op) ∧
    (t.coreAt n).ctx.inflight = (s.coreAt n).ctx.inflight.map fun r =>
      if r.op = k.op ∧ r.ready = false then { r with val := v.setWidth 8192, ready := true, err := none } else r

end Sys2Proof.Spec

/-- R13, R153: CNCL issues, has its effect on the member its operands name, and goes on. At level 3 the named phase of the partition is cancelled, its status is
1 unless it had one, and each of its units that runs on the die has a cancel to take at its boundary; a phase id of no phase of the partition changes
nothing.
R145, R154: CRD issues, leaves its question for the counter's home, with its result 64 clocks away, and goes on; the home answers the launch's, the phase's
or the job's count, and absent where the partition has no such member.
R157, R159, R160: TIME sends the device time of its die as it stands on the issue clock; SCOPE rebinds the stream at the end of the clock; TRAP goes on,
and leaves the cause "software" with its code in TVAL and its own address. Each completes wherever it issues.
The level numbers beside the table's are the model's reading (log 21). -/
def Obligations.SystemWords : Prop :=
  ((∀ (s : State) (st : Bool) (a b : BitVec 5) (fn : BitVec 3), Issues s .c st (.cncl st a b fn) → ∃ t, exec (.cncl st a b fn) s = .next t ∧
      Past .c ToNext (s.cancelMember (dieOf s.cur) (s.partOn s.cur) { level := fn.toNat, a := s.rdC 0 a, b := s.rdC 1 b }) t) ∧
    (∀ (s : State) (st : Bool) (a b : BitVec 5), Issues s .c st (.cncl st a b 3) →
      let d := dieOf s.cur
      let id := s.rdC 0 a
      (∀ p, (s.die d).phase? id = some p → p.part = s.partOn s.cur → ∃ t q, exec (.cncl st a b 3) s = .next t ∧ (t.die d).phase? id = some q ∧
        q.cancelled = true ∧ q.status = (if p.status = 0 then 1 else p.status) ∧ ∀ n u, dieOf n = d → (s.coreAt n).unit = some u → u.phid = id →
          ∃ v x, (t.coreAt n).unit = some v ∧ v.stop = some x ∧ x.why = .cancel) ∧
      ((∀ p ∈ (s.die d).phases, p.rejected = false) → (∀ p, (s.die d).phase? id = some p → p.part ≠ s.partOn s.cur) →
        ∃ t, exec (.cncl st a b 3) s = .next t ∧ Past .c ToNext s t))) ∧
  ((∀ (s : State) (st : Bool) (d a b : BitVec 5) (fn : BitVec 3), Issues s .c st (.crd st d a b fn) → s.playing s.cur = false →
      ∃ t, exec (.crd st d a b fn) s = .next t ∧ Past .c ToNext
        ((({ s with nextId := s.nextId + 1 } : State).modCore s.cur fun c => { c with crds := c.crds ++
            [{ op := s.nextId, level := fn.toNat, a := s.rdC 0 a, b := s.rdC 1 b, part := s.partOn s.cur }] }).sendR
          { mkResult .c (.c d) 0 64 with ext := true, ready := false, op := s.nextId }) t) ∧
    (∀ (s : State) (st : Bool) (d a b : BitVec 5) (fn : BitVec 3), Issues s .c st (.crd st d a b fn) → s.playing s.cur = true →
      ∃ t, exec (.crd st d a b fn) s = .next t ∧ Past .c ToNext (s.sendExt d 0 64) t) ∧
    (∀ (s : State) (n : CoreId) (k : CrdAsk) (l : Launch) (p : Phase), asked s n k → k.level = 1 →
      ((s.die (dieOf n)).launches.find? fun l => decide (l.lid = k.a.setWidth 32)) = some l → (s.die (dieOf n)).phase? l.phid = some p → p.part = k.part →
      answers s n k (crdValue l.done l.total true)) ∧
    (∀ (s : State) (n : CoreId) (k : CrdAsk) (p : Phase), asked s n k → k.level = 3 → (s.die (dieOf n)).phase? k.a = some p → p.part = k.part →
      answers s n k (crdValue ((if ∀ x ∈ p.nst, x = .complete ∨ x = .cancelled then 1 else 0) + p.pushedDone) (1 + p.pushed) (decide (p.alive = 0)))) ∧
    (∀ (s : State) (n : CoreId) (k : CrdAsk) (j : Job), asked s n k → k.level = 4 →
      ((s.die (dieOf n)).jobs.find? fun j => decide (j.jid = k.a.setWidth 32) && decide (j.part = k.part)) = some j →
      answers s n k (crdValue j.done j.total (!j.isOpen))) ∧
    (∀ (s : State) (n : CoreId) (k : CrdAsk), asked s n k →
      (k.level = 1 ∧ ((s.die (dieOf n)).launches.find? fun l => decide (l.lid = k.a.setWidth 32)) = none ∨
        k.level = 3 ∧ (∀ p, (s.die (dieOf n)).phase? k.a = some p → p.part ≠ k.part) ∨
        k.level = 4 ∧ (∀ j ∈ (s.die (dieOf n)).jobs, j.jid = k.a.setWidth 32 → j.part ≠ k.part)) → answers s n k (BitVec.ofNat 64 (2 ^ 63)))) ∧
  (∀ (s : State) (st : Bool) (d : BitVec 5), Issues s .c st (.time st d) → ∃ t, exec (.time st d) s = .next t ∧
    Past .c ToNext (s.sendExt d (BitVec.ofNat 64 (s.die (dieOf s.cur)).time) 4) t) ∧
  (∀ (s : State) (st : Bool) (e : BitVec 5) (sm : BitVec 2), Issues s .c st (.scope st e sm) → ∃ t, exec (.scope st e sm) s = .next t ∧
    Past .c ToNext (s.pendF (.scope sm e)) t) ∧
  (∀ (s : State) (st : Bool) (sys : BitVec 13), Issues s .c st (.trap st sys) → ∃ t u, exec (.trap st sys) s = .next t ∧ Past .c ToNext s u ∧
    t = u.modCtx s.cur fun x => x.modSeat .c fun z =>
      { z with cause := some { cause := .software, tval := BitVec.ofNat 64 sys.toNat, tpc := s.pcOf .c, issued := true } })

namespace Sys2Proof.Spec

open Machine

/-- The value of a register a program may read in every mode (R155), in a unit u on the core. Registers 13 to 16 are those of the trap being handled. -/
def sysUser (s : State) (u : UnitInfo) : Nat → Option Dw
  | 0 => some (BitVec.ofNat 64 s.cur.val)
  | 1 => some (BitVec.ofNat 64 (u.ctx.val + 2 ^ 8 * u.part.val))
  | 2 => some (match (s.coreAt s.cur).handler with | none => 0 | some h => if h.sup then 3 else 2)
  | 3 => some u.phid
  | 4 => some (u.jid.setWidth 64)
  | 5 => some (u.lid.setWidth 64)
  | 6 => some (u.prio.setWidth 64)
  | 7 => some u.dline
  | 8 => some (s.coreAt s.cur).csc
  | 9 => some (let e (i : Fin 4) : Nat := (((here s).seat .a).osb.get i).toNat
      BitVec.ofNat 64 (e 0 + 2 ^ 5 * e 1 + 2 ^ 10 * e 2 + 2 ^ 15 * e 3))
  | 10 => some (let n (i : Fin 4) : Nat := ((here s).osiss.get i).toNat
      BitVec.ofNat 64 (n 0 + 2 ^ 16 * n 1 + 2 ^ 32 * n 2 + 2 ^ 48 * n 3))
  | 11 => some (let n (i : Fin 4) : Nat := ((here s).osprf.get i).toNat
      BitVec.ofNat 64 (n 0 + 2 ^ 16 * n 1 + 2 ^ 32 * n 2 + 2 ^ 48 * n 3))
  | 12 => some (here s).uhand
  | 13 => some (match (s.coreAt s.cur).handler with | none => 0 | some h => h.cause.code.setWidth 64)
  | 14 => some (match (s.coreAt s.cur).handler with | none => 0 | some h => h.tpc)
  | 15 => some (match (s.coreAt s.cur).handler with | none => 0 | some h => h.tval)
  | 16 => some (match (s.coreAt s.cur).handler with | none => 0 | some h => BitVec.ofNat 64 h.tseat.toNat)
  | _ => none

/-- The supervisor registers whose value is one field (R358); FDATA, whose value is the shadow's, apart. -/
def sysSup (s : State) (u : UnitInfo) (h : Handler) : Nat → Option Dw
  | 256 => some (s.contextOf s.cur u.ctx).ctxd
  | 257 => some (BitVec.ofNat 64 (h.orig.code.toNat + 2 ^ 8 * h.dcode.toNat + 2 ^ 16 * (if h.esc then 1 else 0)))
  | 258 => some (BitVec.ofNat 64 (s.coreAt s.cur).fidx)
  | 260 => some (BitVec.ofNat 64 h.efinfo)
  | 261 => some (BitVec.ofNat 64 (s.coreAt s.cur).efq.length)
  | 262 | 263 | 264 | 265 => some 0
  | 266 => some (s.coreAt s.cur).svreply
  | _ => none

end Sys2Proof.Spec

/-- R155, R156, R358: SYSR sends the register's value to d, to land after two clocks; a supervisor register in user mode traps "privilege"; every other
number is undefined. FDATA in the supervisor handler sends the doubleword of the shadow that FIDX names and leaves the request that raises FIDX; beyond the
last index the value is free (log 60).
R155, R156, R358: SYSW to UHAND is on the way for one clock; in the supervisor handler FIDX takes an index over the frame, or over every area once
SAVE was written, and discards a larger one; FDATA, INVAL, CPYRES, SAVE and SVREQ leave their request with the handler, which C waits for, but an
INVAL with a reserved value is undefined and an SVREQ whose ring cannot take a record is a handler fault; every write to a read-only
register or to no register is undefined, and to a supervisor register in user mode "privilege".
That these writes act in events of their own is the model's reading (log 14). -/
def Obligations.SystemRegisters : Prop :=
  (∀ (s : State) (st : Bool) (d : BitVec 5) (sys : BitVec 13) (u : UnitInfo), Issues s .c st (.sysr st d sys) → (s.coreAt s.cur).unit = some u →
      (∀ v, sysUser s u sys.toNat = some v → ∃ t, exec (.sysr st d sys) s = .next t ∧ Past .c ToNext (s.sendExt d v 2) t) ∧
      (∀ h v, (s.coreAt s.cur).handler = some h → h.sup = true → sysSup s u h sys.toNat = some v →
        ∃ t, exec (.sysr st d sys) s = .next t ∧ Past .c ToNext (s.sendExt d v 2) t) ∧
      (∀ h, (s.coreAt s.cur).handler = some h → h.sup = true → sys = 259 → ∃ v t, exec (.sysr st d sys) s = .next t ∧
        Past .c ToNext ((s.modCore s.cur fun c => { c with handler := c.handler.map fun h => { h with req := some (.fdata none) } }).sendExt d v 2) t ∧
        ((s.coreAt s.cur).fidx ≤ (if h.saveWritten then 29439 else 4095) → v = h.shadowAt (here s) (s.coreAt s.cur).fidx)) ∧
      (256 ≤ sys.toNat → sys.toNat ≤ 1023 → ¬inSup s → ∃ t, exec (.sysr st d sys) s = .next t ∧ Trapped .c .privilege 0 s t) ∧
      (266 < sys.toNat → sys.toNat ≤ 1023 → inSup s → ∃ t, exec (.sysr st d sys) s = .next t ∧ Trapped .c .undefinedInstruction 0 s t) ∧
      (16 < sys.toNat → (sys.toNat < 256 ∨ 1023 < sys.toNat) → ∃ t, exec (.sysr st d sys) s = .next t ∧ Trapped .c .undefinedInstruction 0 s t)) ∧
  (∀ (s : State) (st : Bool) (a : BitVec 5) (sys : BitVec 13), Issues s .c st (.sysw st a sys) →
      let goes (u : State) : Prop := ∃ t, exec (.sysw st a sys) s = .next t ∧ Past .c ToNext u t
      let asks (r : SysReq) : Prop := goes (s.modCore s.cur fun c => { c with handler := c.handler.map fun h => { h with req := some r } })
      (sys = 12 → goes (s.sendR (mkResult .c (.sys 12) ((s.rdC 0 a).setWidth 8192) 1))) ∧
      (256 ≤ sys.toNat → sys.toNat ≤ 1023 → ¬inSup s → ∃ t, exec (.sysw st a sys) s = .next t ∧ Trapped .c .privilege 0 s t) ∧
      (∀ h, (s.coreAt s.cur).handler = some h → h.sup = true →
        let v := (s.rdC 0 a).toNat
        let lim := if h.saveWritten then 29439 else 4095
        (sys = 258 → v ≤ lim → goes (s.modCore s.cur fun c => { c with fidx := v })) ∧
        (sys = 258 → lim < v → goes s) ∧
        (sys = 259 → asks (.fdata (some (s.rdC 0 a)))) ∧
        (sys = 262 → (s.rdC 0 a).extractLsb' 0 2 ≠ 3 → (s.rdC 0 a).extractLsb' 2 10 = 0 → (s.rdC 0 a).extractLsb' 57 7 = 0 → asks (.inval (s.rdC 0 a))) ∧
        (sys = 262 → (s.rdC 0 a).extractLsb' 0 2 = 3 ∨ (s.rdC 0 a).extractLsb' 2 10 ≠ 0 ∨ (s.rdC 0 a).extractLsb' 57 7 ≠ 0 →
          ∃ t, exec (.sysw st a sys) s = .next t ∧ Trapped .c .undefinedInstruction 0 s t) ∧
        (sys = 263 → asks (.cpyres (s.rdC 0 a))) ∧
        (sys = 264 → v = 1 → asks (.save 1)) ∧
        (sys = 264 → v ≠ 1 → goes s) ∧
        (sys = 265 → s.svcRingOk s.cur = true → asks (.svreq (s.rdC 0 a))) ∧
        (sys = 265 → s.svcRingOk s.cur = false → ∃ t, exec (.sysw st a sys) s = .next t ∧ Trapped .c .handlerFault 0 s t) ∧
        (sys.toNat = 256 ∨ sys.toNat = 257 ∨ sys.toNat = 260 ∨ sys.toNat = 261 ∨ 266 ≤ sys.toNat ∧ sys.toNat ≤ 1023 →
          ∃ t, exec (.sysw st a sys) s = .next t ∧ Trapped .c .undefinedInstruction 0 s t)) ∧
      (sys.toNat < 256 ∧ sys ≠ 12 ∨ 1023 < sys.toNat → ∃ t, exec (.sysw st a sys) s = .next t ∧ Trapped .c .undefinedInstruction 0 s t))

/-! ## The A seat -/

namespace Sys2Proof.Spec

open Machine

/-- What a scalar word of A computes (R161, R165). -/
def aScalar (s : State) : Instr → Option (Bool × BitVec 5 × Dw × Nat)
  | .aadd st d a b => some (st, d, wrap ((s.rdA 0 a).toNat + (s.rdA 1 b).toNat), 1)
  | .asub st d a b => some (st, d, wrap ((s.rdA 0 a).toNat - (s.rdA 1 b).toNat), 1)
  | .amul st d a b => some (st, d, wrap ((s.rdA 0 a).toNat * (s.rdA 1 b).toNat), 3)
  | .aand st d a b => some (st, d, s.rdA 0 a &&& s.rdA 1 b, 1)
  | .aor st d a b => some (st, d, s.rdA 0 a ||| s.rdA 1 b, 1)
  | .ashl st d a b => some (st, d, wrap ((s.rdA 0 a).toNat * 2 ^ ((s.rdA 1 b).toNat % 64)), 1)
  | .ashr st d a b => some (st, d, wrap ((s.rdA 0 a).toNat / 2 ^ ((s.rdA 1 b).toNat % 64)), 1)
  | .aaddi st d a imm => some (st, d, wrap ((s.rdA 0 a).toInt + imm.toInt), 1)
  | .alui st d imm => some (st, d, wrap (imm.toInt * 2 ^ 13), 1)
  | _ => none

/-- The condition and the target of a branch or jump word of A (R121, R162). -/
def aBranch (s : State) : Instr → Option (Bool × Bool × Dw)
  | .abeq st a b imm => some (st, decide (s.rdA 0 a = s.rdA 1 b), wrap ((s.pcOf .a).toNat + 4 * imm.toInt))
  | .abne st a b imm => some (st, decide (s.rdA 0 a ≠ s.rdA 1 b), wrap ((s.pcOf .a).toNat + 4 * imm.toInt))
  | .ablt st a b imm => some (st, decide ((s.rdA 0 a).toInt < (s.rdA 1 b).toInt), wrap ((s.pcOf .a).toNat + 4 * imm.toInt))
  | .abge st a b imm => some (st, decide ((s.rdA 1 b).toInt ≤ (s.rdA 0 a).toInt), wrap ((s.pcOf .a).toNat + 4 * imm.toInt))
  | .ajmp st imm => some (st, true, wrap ((s.pcOf .a).toNat + 4 * imm.toInt))
  | .ajr st a => some (st, true, s.rdA 0 a)
  | _ => none

/-- ea = a[b] + sext(off7) × unit, modulo 2^64 (R163). -/
def ea (s : State) (b : BitVec 5) (off : BitVec 7) (unit : Nat) : Dw := wrap ((s.rdA 1 b).toInt + off.toInt * unit)

/-- One access of an A word: the permissions it needs, its alignment, its size and its address. -/
structure Access where
  need : Need
  align : Nat
  size : Nat
  va : Dw

/-- The access of every A word that makes exactly one (R134, R163, R174, R178, R179, R185, R188 to R196), with its stroke bit and its stream. -/
def access (s : State) : Instr → Option (Bool × BitVec 2 × Access)
  | .ldb st _ b os _ off | .ldbs st _ b os _ off => some (st, os, ⟨needRd, 1, 1, ea s b off 1⟩)
  | .ldh st _ b os _ off | .ldhs st _ b os _ off => some (st, os, ⟨needRd, 2, 2, ea s b off 2⟩)
  | .ldw st _ b os _ off | .ldws st _ b os _ off => some (st, os, ⟨needRd, 4, 4, ea s b off 4⟩)
  | .ldd st _ b os _ off => some (st, os, ⟨needRd, 8, 8, ea s b off 8⟩)
  | .stb st _ b os _ off => some (st, os, ⟨needWr, 1, 1, ea s b off 1⟩)
  | .sth st _ b os _ off => some (st, os, ⟨needWr, 2, 2, ea s b off 2⟩)
  | .stw st _ b os _ off => some (st, os, ⟨needWr, 4, 4, ea s b off 4⟩)
  | .std st _ b os _ off => some (st, os, ⟨needWr, 8, 8, ea s b off 8⟩)
  | .amoadd st _ b os _ _ fn | .amomin st _ b os _ _ fn | .amomax st _ b os _ _ fn | .amoand st _ b os _ _ fn | .amoor st _ b os _ _ fn
  | .amoxor st _ b os _ _ fn | .amoswp st _ b os _ _ fn | .amocas st _ b os _ _ fn =>
    some (st, os, if fn = 1 then ⟨needAt, 8, 8, s.rdA 1 b⟩ else ⟨needAt, 4, 4, s.rdA 1 b⟩)
  | .afree st b os _ off => some (st, os, ⟨needRw, 16, 16, ea s b off 16⟩)
  | .acred st b os _ _ => some (st, os, ⟨needWr, 16, 16, s.rdA 1 b⟩)
  | .cpy st b os _ off | .gath st b os _ off | .scat st b os _ off | .cpyr st b os _ off => some (st, os, ⟨needRw, 64, 64, ea s b off 64⟩)
  | .chlnk st _ b os _ off | .chkck st b os _ off => some (st, os, ⟨needRw, 64, 64, ea s b off 64⟩)
  | .rgres st _ b os _ => some (st, os, ⟨needRw, 64, 64, s.rdA 1 b⟩)
  | .rgpub st _ b os _ | .rgpop st _ b os _ _ | .rgcur st _ b os _ _ => some (st, os, ⟨needRd, 64, 64, s.rdA 1 b⟩)
  | .waita st b os _ off => some (st, os, ⟨needRd, 64, 64, ea s b off 64⟩)
  | _ => none

/-- What the current core's A seat finds for an access (R50 to R56). -/
def found (s : State) (x : Access) : Tr :=
  translate s s.cur (s.ctxOn s.cur) (s.partOn s.cur) (.seat .a) false x.need (decide (x.va.toNat % x.align ≠ 0)) x.va x.size

/-- The words that return a value to t: predecessors, t, latency, and the operation at physical address pa with destination d. -/
def loadWord (s : State) (pa : Nat) : Instr → Option (BitVec 4 × BitVec 5 × Nat × (BitVec 5 → OpKind))
  | .ldb _ t _ _ pm _ => some (pm, t, 8, fun d => .load pa 1 false d)
  | .ldbs _ t _ _ pm _ => some (pm, t, 8, fun d => .load pa 1 true d)
  | .ldh _ t _ _ pm _ => some (pm, t, 8, fun d => .load pa 2 false d)
  | .ldhs _ t _ _ pm _ => some (pm, t, 8, fun d => .load pa 2 true d)
  | .ldw _ t _ _ pm _ => some (pm, t, 8, fun d => .load pa 4 false d)
  | .ldws _ t _ _ pm _ => some (pm, t, 8, fun d => .load pa 4 true d)
  | .ldd _ t _ _ pm _ => some (pm, t, 8, fun d => .load pa 8 false d)
  | .amoadd _ t _ _ pm c fn => some (pm, t, 24, fun d => .amo pa (decide (fn = 1)) 0 (s.rdA 2 c) (s.rdA 0 t) d)
  | .amomin _ t _ _ pm c fn => some (pm, t, 24, fun d => .amo pa (decide (fn = 1)) 1 (s.rdA 2 c) (s.rdA 0 t) d)
  | .amomax _ t _ _ pm c fn => some (pm, t, 24, fun d => .amo pa (decide (fn = 1)) 2 (s.rdA 2 c) (s.rdA 0 t) d)
  | .amoand _ t _ _ pm c fn => some (pm, t, 24, fun d => .amo pa (decide (fn = 1)) 3 (s.rdA 2 c) (s.rdA 0 t) d)
  | .amoor _ t _ _ pm c fn => some (pm, t, 24, fun d => .amo pa (decide (fn = 1)) 4 (s.rdA 2 c) (s.rdA 0 t) d)
  | .amoxor _ t _ _ pm c fn => some (pm, t, 24, fun d => .amo pa (decide (fn = 1)) 5 (s.rdA 2 c) (s.rdA 0 t) d)
  | .amoswp _ t _ _ pm c fn => some (pm, t, 24, fun d => .amo pa (decide (fn = 1)) 6 (s.rdA 2 c) (s.rdA 0 t) d)
  | .amocas _ t _ _ pm c fn => some (pm, t, 24, fun d => .amo pa (decide (fn = 1)) 7 (s.rdA 2 c) (s.rdA 0 t) d)
  | .rgres _ t _ _ pm => some (pm, t, 24, fun d => .rgres pa d)
  | .rgpop _ t _ _ pm c => some (pm, t, 32, fun d => .rgpop pa (s.rdA 2 c) d)
  | .rgcur _ t _ _ pm c => some (pm, t, 8, fun d => .rgcur pa (s.rdA 2 c) d)
  | _ => none

/-- The words that return no value and leave one operation at physical address pa: predecessors and operation. A store's value is t's low bytes. -/
def storeWord (s : State) (pa : Nat) : Instr → Option (BitVec 4 × OpKind)
  | .stb _ t _ _ pm _ => some (pm, .store pa (leBytes (s.rdA 0 t).toNat 1))
  | .sth _ t _ _ pm _ => some (pm, .store pa (leBytes (s.rdA 0 t).toNat 2))
  | .stw _ t _ _ pm _ => some (pm, .store pa (leBytes (s.rdA 0 t).toNat 4))
  | .std _ t _ _ pm _ => some (pm, .store pa (leBytes (s.rdA 0 t).toNat 8))
  | .acred _ _ _ pm c => some (pm, .acred pa ((s.rdA 2 c).toNat % 2 ^ 32))
  | .chlnk _ t _ _ pm _ => some (pm, .chlnk pa (s.rdA 0 t))
  | .chkck _ _ _ pm _ => some (pm, .chkck pa)
  | .rgpub _ t _ _ pm => some (pm, .rgpub pa (s.rdA 0 t))
  | _ => none

/-- The bytes that a word would write meet a live slot, so that it is refused (R74, R174, R189, R193): a store's or an atomic's, the write index of a
ring, the links of a chain record. -/
def meetsSlot (s : State) (pa : Nat) (x : Access) : Instr → Bool
  | .stb _ _ _ _ _ _ | .sth _ _ _ _ _ _ | .stw _ _ _ _ _ _ | .std _ _ _ _ _ _ | .amoadd _ _ _ _ _ _ _ | .amomin _ _ _ _ _ _ _
  | .amomax _ _ _ _ _ _ _ | .amoand _ _ _ _ _ _ _ | .amoor _ _ _ _ _ _ _ | .amoxor _ _ _ _ _ _ _ | .amoswp _ _ _ _ _ _ _
  | .amocas _ _ _ _ _ _ _ => s.hitsSlot pa x.size
  | .rgres _ _ _ _ _ => s.hitsSlot pa 8
  | .chlnk _ _ _ _ _ _ => s.hitsSlot pa 16
  | _ => false

/-- The address that an operation keeps for an engine fault of its own (R190). -/
def keptVa (x : Access) : Instr → Dw
  | .chkck _ _ _ _ _ => x.va
  | _ => 0

/-- The copy words and the codes of their commands (R185, R187). -/
def copyWord : Instr → Option (BitVec 4 × BitVec 8)
  | .cpy _ _ _ pm _ => some (pm, 0x48)
  | .gath _ _ _ pm _ => some (pm, 0x49)
  | .scat _ _ _ pm _ => some (pm, 0x4A)
  | .cpyr _ _ _ pm _ => some (pm, 0x4B)
  | _ => none

/-- A word that starts its wait at its address is not the word a wait already stands at. -/
def noWait (s : State) : Prop := (here s).await = none

end Sys2Proof.Spec

/-- R161, R165: every scalar word of A computes as the C word of its name, and its result is on the way to the register d names at issue. A register
form whose fn is not 0 has no decoding, and the spec's AADDI word is the AADDI it stands for. -/
def Obligations.AScalarResult : Prop :=
  (∀ (s : State) (i : Instr) (st : Bool) (d : BitVec 5) (v : Dw) (lat : Nat),
    aScalar s i = some (st, d, v, lat) → Issues s .a st i → ∃ t, exec i s = .next t ∧ Past .a ToNext (s.sendA d v lat) t) ∧
  (∀ (w : Word) (i : Instr), 1 ≤ (w.extractLsb' 23 8).toNat → (w.extractLsb' 23 8).toNat ≤ 7 → w.extractLsb' 0 8 ≠ 0 → decode .a w ≠ .ok i) ∧
  decode .a 0x04108040 = .ok (.aaddi false 4 4 64)

/-- R50, R52, R55, R56, R163, R368: a word that makes one access and whose translation fails does not issue: a translation, protection or alignment
fault is a precise trap with the address in TVAL, a miss joins the page's walk and the seat waits, and an address outside the partition freezes the
core. -/
def Obligations.AccessFaults : Prop :=
  ∀ (s : State) (i : Instr) (st : Bool) (os : BitVec 2) (x : Access), access s i = some (st, os, x) → Issues s .a st i →
    (∀ q, found s x = .fault q → ∃ t, exec i s = .next t ∧ Trapped .a q x.va s t) ∧
    (found s x = .miss → ∃ t, exec i s = .next t ∧ Waits (s.addMiss s.cur (s.ctxOn s.cur) (.seat .a) x.va) t) ∧
    (∀ pa, found s x = .breaks pa → ∃ t, exec i s = .next t ∧ Waits (s.freezeCore s.cur .protection) t)

/-- R57, R58, R61, R74, R163 to R165, R174, R192 to R194: a word that returns a value and whose access is found at pa joins its stream, and the value is
on the way to t from its issue clock. A live slot refuses an atomic and a ring's reservation; the sixty-fifth operation of a stream waits before issue. -/
def Obligations.LoadsIssue : Prop :=
  ∀ (s : State) (i : Instr) (st : Bool) (os : BitVec 2) (x : Access) (pa : Nat) (pm : BitVec 4) (t : BitVec 5) (lat : Nat) (kind : BitVec 5 → OpKind),
    access s i = some (st, os, x) → loadWord s pa i = some (pm, t, lat, kind) → Issues s .a st i → found s x = .ok pa →
    (meetsSlot s pa x i = true → ∃ w, exec i s = .next w ∧ Trapped .a .liveSlot x.va s w) ∧
    (meetsSlot s pa x i = false → s.streamFull os = true → ∃ w, exec i s = .next w ∧ Waits (s.why 13) w) ∧
    (meetsSlot s pa x i = false → s.streamFull os = false →
      ∃ w, exec i s = .next w ∧ Past .a ToNext (s.issueLoad os pm kind t lat false x.va) w)

/-- R58, R61, R74, R164, R181, R189, R193: a word that returns no value and whose access is found at pa leaves its operation in its stream: a store with the
bytes of t, a credit, a link or a check of a chain, a publication. A live slot refuses a store and a link. No byte of memory changes until the operation is
performed. -/
def Obligations.StoresIssue : Prop :=
  ∀ (s : State) (i : Instr) (st : Bool) (os : BitVec 2) (x : Access) (pa : Nat) (pm : BitVec 4) (kind : OpKind),
    access s i = some (st, os, x) → storeWord s pa i = some (pm, kind) → Issues s .a st i → found s x = .ok pa →
    (meetsSlot s pa x i = true → ∃ w, exec i s = .next w ∧ Trapped .a .liveSlot x.va s w) ∧
    (meetsSlot s pa x i = false → s.streamFull os = true → ∃ w, exec i s = .next w ∧ Waits (s.why 13) w) ∧
    (meetsSlot s pa x i = false → s.streamFull os = false →
      ∃ w, exec i s = .next w ∧ Past .a ToNext (s.issueOp os pm kind false (keptVa x i)) w)

/-- R58 to R60, R85: issuing an operation adds it to the core's pipeline, at the scope its stream is bound to now, following the acquires that its
predecessor streams cover; the stream's issued counter rises by one modulo 65,536, the performed counters stand, and nothing else of the context changes
but the acquires the stream covers: to those it had come the operation's and, if it acquires itself, its own. -/
def Obligations.OperationIssued : Prop :=
  ∀ (s : State) (os : BitVec 2) (pm : BitVec 4) (kind : OpKind) (acq : Bool) (va : Dw), s.playing s.cur = false →
    let u := s.issueOp os pm kind acq va
    (∃ o, (u.coreAt s.cur).ops = (s.coreAt s.cur).ops ++ [o] ∧ o.id = s.nextId ∧ o.os = os ∧ o.pm = pm ∧ o.kind = kind ∧ o.owner = s.serial ∧
      o.scope = ((here s).seat .a).osb.get os.toFin ∧ o.done = [] ∧ o.bad = [] ∧ o.homed = false ∧ o.va = va ∧ o.pc = s.pcOf .a ∧
      (∀ a, a ∈ o.cov ↔ ∃ i : Fin 4, pm.getLsbD i.val = true ∧ a ∈ (here s).scov.get i) ∧
      (∀ a, a ∈ (here u).scov.get os.toFin ↔ a ∈ (here s).scov.get os.toFin ∨ a ∈ o.cov ∨ acq = true ∧ a = s.nextId)) ∧
    u.nextId = s.nextId + 1 ∧
    (here u).osiss.get os.toFin = (here s).osiss.get os.toFin + 1 ∧
    (∀ j : Fin 4, j ≠ os.toFin → (here u).osiss.get j = (here s).osiss.get j ∧ (here u).scov.get j = (here s).scov.get j) ∧
    { here u with osiss := (here s).osiss, scov := (here s).scov } = here s ∧
    { u.coreAt s.cur with ctx := (s.coreAt s.cur).ctx, ops := (s.coreAt s.cur).ops } = s.coreAt s.cur ∧
    (∀ m, m ≠ s.cur → u.coreAt m = s.coreAt m) ∧ u.mem = s.mem ∧ u.slots = s.slots

namespace Sys2Proof.Spec

open Machine

/-- The sixteen 64-byte blocks of a vector access at va, all found (R50, R166). -/
def foundBlocks (s : State) (need : Need) (va : Dw) (blocks : List Nat) : Prop :=
  crossesRow s.cur va 1024 = false ∧ blocks.length = 16 ∧
  ∀ k : Fin 16, found s ⟨need, 64, 64, va + BitVec.ofNat 64 (64 * k.val)⟩ = .ok (blocks.toArray.getD k.val 0)

/-- The queue a 5-bit field names. -/
def queueNo (t : BitVec 5) : BitVec 3 := t.setWidth 3

end Sys2Proof.Spec

/-- R29, R61, R74, R163, R166, R349: LDV reserves the tail entry of its load queue at issue, STV takes the landed head entry of its store queue; a queue of
the wrong direction or with a pattern bound, a live slot under a block, and a poisoned head that the word would take refuse it; a full or empty queue and a
full stream make it wait.
R27, R28, R167, R170, R172, R173: QBIND on an empty queue without a pattern binds it at the end of the clock; QPAT starts the pattern on its
generator and sets pat, unless the generator runs, the queue has a pattern or is unbound; QMC starts on the core's free multicast port; QSTOP tells the
pattern that holds the queue to stop, and where no pattern holds it does nothing. -/
def Obligations.LineAndQueueWords : Prop :=
  ((∀ (s : State) (st : Bool) (t b : BitVec 5) (os : BitVec 2) (pm : BitVec 4) (off : BitVec 7), Issues s .a st (.ldv st t b os pm off) →
      let u := s.queueAt (queueNo t)
      let va := ea s b off 1024
      (u.dir ≠ 1 → ∃ w, exec (.ldv st t b os pm off) s = .next w ∧ Trapped .a .queueDirection 0 s w) ∧
      (u.dir = 1 → u.pat = true → ∃ w, exec (.ldv st t b os pm off) s = .next w ∧ Trapped .a .queueBusy 0 s w) ∧
      (∀ blocks, u.dir = 1 → u.pat = false → foundBlocks s needRd va blocks →
        (4 ≤ u.ents.length → ∃ w, exec (.ldv st t b os pm off) s = .next w ∧ Waits (s.why 15) w) ∧
        (u.ents.length < 4 → s.streamFull os = true → ∃ w, exec (.ldv st t b os pm off) s = .next w ∧ Waits (s.why 13) w) ∧
        (u.ents.length < 4 → s.streamFull os = false → ∃ w, exec (.ldv st t b os pm off) s = .next w ∧
          Past .a ToNext ((s.issueOp os pm (.ldv blocks va (queueNo t) s.nextId) false).modCtx s.cur fun x =>
            x.setQueue (queueNo t) ((x.queue (queueNo t)).reserve s.nextId)) w))) ∧
    (∀ (s : State) (st : Bool) (t b : BitVec 5) (os : BitVec 2) (pm : BitVec 4) (off : BitVec 7), Issues s .a st (.stv st t b os pm off) →
      let u := s.queueAt (queueNo t)
      let va := ea s b off 1024
      (u.dir ≠ 2 → ∃ w, exec (.stv st t b os pm off) s = .next w ∧ Trapped .a .queueDirection 0 s w) ∧
      (u.dir = 2 → u.pat = true → ∃ w, exec (.stv st t b os pm off) s = .next w ∧ Trapped .a .queueBusy 0 s w) ∧
      (∀ blocks, u.dir = 2 → u.pat = false → foundBlocks s needWr va blocks →
        ((∃ pa ∈ blocks, s.hitsSlot pa 64 = true) → ∃ w, exec (.stv st t b os pm off) s = .next w ∧ Trapped .a .liveSlot va s w) ∧
        ((∀ pa ∈ blocks, s.hitsSlot pa 64 = false) →
          (u.head = none → ∃ w, exec (.stv st t b os pm off) s = .next w ∧ Waits (s.why 14) w) ∧
          (∀ e, u.head = some e → s.streamFull os = true → ∃ w, exec (.stv st t b os pm off) s = .next w ∧ Waits (s.why 13) w) ∧
          (∀ e tv, u.head = some e → e.poison = some tv → s.streamFull os = false →
            ∃ w, exec (.stv st t b os pm off) s = .next w ∧ Trapped .a .poisonedHead tv s w) ∧
          (∀ e, u.head = some e → e.poison = none → s.streamFull os = false → ∃ w, exec (.stv st t b os pm off) s = .next w ∧
            Past .a ToNext ((s.issueOp os pm (.stv blocks e.data) false).modCtx s.cur fun x =>
              x.setQueue (queueNo t) (x.queue (queueNo t)).take) w))))) ∧
  ((∀ (s : State) (st : Bool) (d : BitVec 5) (e r : BitVec 2), Issues s .a st (.qbind st d e r) →
      let u := s.queueAt (queueNo d)
      ((u.ents ≠ [] ∨ u.pat = true) → ∃ w, exec (.qbind st d e r) s = .next w ∧ Trapped .a .queueBusy 0 s w) ∧
      (u.ents = [] → u.pat = false → ∃ w, exec (.qbind st d e r) s = .next w ∧ Past .a ToNext (s.pendF (.bind (queueNo d) r e)) w)) ∧
    (∀ (s : State) (st : Bool) (t b : BitVec 5) (os : BitVec 2) (pm : BitVec 4) (c : BitVec 5) (g : Fin 4), Issues s .a st (.qpat st t b os pm c) →
      c.toNat = g.val →
      let u := s.queueAt (queueNo t)
      ((((s.coreAt s.cur).pats.get g).isSome = true) → ∃ w, exec (.qpat st t b os pm c) s = .next w ∧ Trapped .a .patternBusy 0 s w) ∧
      ((s.coreAt s.cur).pats.get g = none → u.pat = true → ∃ w, exec (.qpat st t b os pm c) s = .next w ∧ Trapped .a .queueBusy 0 s w) ∧
      ((s.coreAt s.cur).pats.get g = none → u.pat = false → u.dir = 0 →
        ∃ w, exec (.qpat st t b os pm c) s = .next w ∧ Trapped .a .queueDirection 0 s w) ∧
      ((s.coreAt s.cur).pats.get g = none → u.pat = false → u.dir ≠ 0 → s.playing s.cur = false → s.streamFull os = false →
        ∃ w, exec (.qpat st t b os pm c) s = .next w ∧
          Past .a ToNext (((s.issueOp os pm (.pattern g s.nextId) false).modCore s.cur fun k =>
            { k with pats := k.pats.set g (some (mkPattern s (queueNo t) (s.rdA 1 b) 0)) }).modCtx s.cur fun x =>
              x.setQueue (queueNo t) { x.queue (queueNo t) with pat := true }) w)) ∧
    (∀ (s : State) (st : Bool) (d : BitVec 5), Issues s .a st (.qstop st d) →
      ((s.queueAt (queueNo d)).pat = false → ∃ w, exec (.qstop st d) s = .next w ∧ Past .a ToNext s w) ∧
      (∀ (g : Fin 4) (p : Pattern), (s.queueAt (queueNo d)).pat = true → (s.coreAt s.cur).pats.get g = some p → p.q = queueNo d →
        ∃ w u, exec (.qstop st d) s = .next w ∧ Past .a ToNext u w ∧ (u.coreAt s.cur).pats.get g = some { p with stop := true })) ∧
    (∀ (s : State) (st : Bool) (t b : BitVec 5) (os : BitVec 2) (pm c : BitVec 4), Issues s .a st (.qmc st t b os pm c) →
      ((s.coreAt s.cur).mcast.isSome = true → ∃ w, exec (.qmc st t b os pm c) s = .next w ∧ Trapped .a .patternBusy 0 s w) ∧
      ((s.coreAt s.cur).mcast = none → s.playing s.cur = false → s.streamFull os = false → ∃ w, exec (.qmc st t b os pm c) s = .next w ∧
        Past .a ToNext ((s.issueOp os pm (.multicast s.nextId) false).modCore s.cur fun k =>
          { k with mcast := some (mkPattern s (queueNo t) (s.rdA 1 b) c) }) w)))

/-- R60, R70, R85, R89, R177 to R180, R196, R429: ASET and AFREE issue their operation and stand at the head of their seat until the home answers; WAITA
arms its watch once its predecessors are performed; AREAD sends the view that bits [3:0] of ea select, and with one from 5 to 15 traps "alignment" with ea
in TVAL (log 37); AWAIT waits for its predecessors, then registers as a waiter while the phase of its slot is bit 0 of a[t], or polls where the slot has
65,535; it issues once it is released, acquiring the phase as of the home's read, and traps "slot state" where no slot is live before that, "data" on a
poisoned slot. The replay log takes the wake of one that finds its phase there.
R61, R185, R187, R334: CPY, GATH, SCAT and CPYR join their stream and the core's copy engine while it has one of its 64 entries and nothing is spilled;
otherwise the command goes to the spill ring, or to the core's latch where the ring cannot take it, and the core freezes where the ring breaks the
partition; a full latch makes the word wait. -/
def Obligations.SlotAndCopyWords : Prop :=
  ((∀ (s : State) (st : Bool) (t b : BitVec 5) (os : BitVec 2) (pm : BitVec 4) (spa rpa : Nat), Issues s .a st (.aset st t b os pm) →
      found s ⟨needRw, 1, 16, s.rdA 1 b⟩ = .ok spa → found s ⟨needRd, 64, 64, s.rdA 0 t⟩ = .ok rpa → s.streamFull os = false →
      ∃ w, exec (.aset st t b os pm) s = .next w ∧
        Past .a Stays ((s.issueOp os pm (.aset rpa spa 0 (s.rdA 0 t)) false (s.rdA 1 b)).modCtx s.cur fun x => { x with await := some (.answer s.nextId) }) w) ∧
    (∀ (s : State) (st : Bool) (b : BitVec 5) (os : BitVec 2) (pm : BitVec 4) (off : BitVec 7) (pa : Nat), Issues s .a st (.afree st b os pm off) →
      found s ⟨needRw, 16, 16, ea s b off 16⟩ = .ok pa → s.streamFull os = false → ∃ w, exec (.afree st b os pm off) s = .next w ∧
        Past .a Stays ((s.issueOp os pm (.afree pa) false (ea s b off 16)).modCtx s.cur fun x => { x with await := some (.answer s.nextId) }) w) ∧
    (∀ (s : State) (st : Bool) (b : BitVec 5) (os : BitVec 2) (pm : BitVec 4) (off : BitVec 7) (pa : Nat), Issues s .a st (.waita st b os pm off) →
      found s ⟨needRd, 64, 64, ea s b off 64⟩ = .ok pa →
      (s.maskDone pm = false → ∃ w, exec (.waita st b os pm off) s = .next w ∧ Waits (s.why 17) w) ∧
      (s.maskDone pm = true → s.streamFull os = false → ∃ w, exec (.waita st b os pm off) s = .next w ∧
        Past .a ToNext ((s.issueOp os pm (.waita pa) false).modCtx s.cur fun x => { x with await := some (.line s.nextId pa false) }) w)) ∧
    (∀ (s : State) (st : Bool) (t b : BitVec 5) (os : BitVec 2) (pm : BitVec 4) (off : BitVec 7) (pa : Nat), Issues s .a st (.aread st t b os pm off) →
      let e := ea s b off 16
      let sel := e.toNat % 16
      (sel ≤ 4 → found s ⟨needRd, 16, 16, e - BitVec.ofNat 64 sel⟩ = .ok pa → s.streamFull os = false →
        ∃ w, exec (.aread st t b os pm off) s = .next w ∧ Past .a ToNext (s.issueLoad os pm (fun d => .aread pa sel d) t 8 true e) w) ∧
      (5 ≤ sel → (∀ q, found s ⟨needRd, 16, 1, e⟩ = .fault q → ∃ w, exec (.aread st t b os pm off) s = .next w ∧ Trapped .a q e s w))) ∧
    (∀ (s : State) (st : Bool) (t b : BitVec 5) (os : BitVec 2) (pm : BitVec 4) (off : BitVec 7) (pa : Nat), Issues s .a st (.await st t b os pm off) →
      s.playing s.cur = false →
      let va := ea s b off 16
      let want := (s.rdA 0 t).getLsbD 0
      let waits (u : State) (polling : Bool) (at_ : Option Nat) : Prop := ∃ w, exec (.await st t b os pm off) s = .next w ∧
        Waits ((u.why 17).modCtx s.cur fun x => { x with await := some (.await pa want polling at_) }) w
      ((here s).await = none → found s ⟨needRd, 16, 16, va⟩ = .ok pa →
        (s.maskDone pm = false → ∃ w, exec (.await st t b os pm off) s = .next w ∧ Waits (s.why 17) w) ∧
        (s.maskDone pm = true → s.slot? pa = none → ∃ w, exec (.await st t b os pm off) s = .next w ∧ Trapped .a .slotState va s w) ∧
        (∀ z, s.maskDone pm = true → s.slot? pa = some z →
          (z.poisoned = true → ∃ w, exec (.await st t b os pm off) s = .next w ∧ Trapped .a .data va s w) ∧
          (z.poisoned = false → z.phase ≠ want → waits (s.logWake s.cur .a) false (some s.nextId)) ∧
          (z.poisoned = false → z.phase = want → 65535 ≤ z.waiters.length → waits s true none) ∧
          (z.poisoned = false → z.phase = want → z.waiters.length < 65535 →
            waits (s.modSlot pa fun u => { u with waiters := u.waiters ++ [.await s.cur] }) false none))) ∧
      (∀ ph polling at_, (here s).await = some (.await pa ph polling at_) → (∃ z, s.slot? pa = some z ∧ z.poisoned = true) →
        ∃ w, exec (.await st t b os pm off) s = .next w ∧ Trapped .a .data va s w) ∧
      (∀ ph polling, (here s).await = some (.await pa ph polling none) → s.slot? pa = none →
        ∃ w, exec (.await st t b os pm off) s = .next w ∧ Trapped .a .slotState va s w) ∧
      (∀ ph polling at_, (here s).await = some (.await pa ph polling (some at_)) → (∀ z, s.slot? pa = some z → z.poisoned = false) →
        s.streamFull os = false → ∃ w, exec (.await st t b os pm off) s = .next w ∧
          Past .a ToNext ((s.issueDone os pm (some (pa, at_))).modCtx s.cur fun x => { x with await := none }) w))) ∧
  (∀ (s : State) (i : Instr) (st : Bool) (os : BitVec 2) (x : Access) (pa : Nat) (pm : BitVec 4) (code : BitVec 8),
      access s i = some (st, os, x) → copyWord i = some (pm, code) → Issues s .a st i → found s x = .ok pa → s.playing s.cur = false →
      let c := s.coreAt s.cur
      let full : Prop := 64 ≤ (c.copies.filter fun k => !k.spilled).length ∨ ∃ k ∈ c.copies, k.spilled = true
      let u := s.issueOp os pm (.copy s.nextId) false
      (c.latch.isSome = true → ∃ w, exec i s = .next w ∧ Waits s w) ∧
      (c.latch = none → s.streamFull os = true → ∃ w, exec i s = .next w ∧ Waits (s.why 13) w) ∧
      (c.latch = none → s.streamFull os = false → ¬full → ∃ w, exec i s = .next w ∧
        Past .a ToNext (u.modCore s.cur fun c => { c with copies := c.copies ++ [mkCopy s code x.va (some s.nextId) false] }) w) ∧
      (∀ z, c.latch = none → s.streamFull os = false → full → u.spillWrite s.cur (mkCopy s code x.va (some s.nextId) true) os pm = .written z →
        ∃ w, exec i s = .next w ∧
          Past .a ToNext (z.modCore z.cur fun c => { c with copies := c.copies ++ [mkCopy s code x.va (some s.nextId) true] }) w) ∧
      (c.latch = none → s.streamFull os = false → full → u.spillWrite s.cur (mkCopy s code x.va (some s.nextId) true) os pm = .faults →
        ∃ w, exec i s = .next w ∧
          Past .a ToNext (u.modCore s.cur fun c => { c with latch := some (mkCopy s code x.va (some s.nextId) true) }) w) ∧
      (c.latch = none → s.streamFull os = false → full → u.spillWrite s.cur (mkCopy s code x.va (some s.nextId) true) os pm = .breaks →
        ∃ w, exec i s = .next w ∧
          Past .a ToNext ((u.modCore s.cur fun c => { c with latch := some (mkCopy s code x.va (some s.nextId) true) }).freezeCore s.cur .protection) w))

/-! ## The V seat -/

namespace Sys2Proof.Spec

open Machine

/-- Every queue operand can be taken and the queue destination has room (R28, R29, R202). -/
def queuesReady (s : State) (srcs dst : List VOp) : Prop :=
  (∀ o ∈ srcs, isQueue o.1 = true → (s.queueAt (queueOf o.1)).dir = 1 ∧ (s.queueAt (queueOf o.1)).esz = o.2 ∧
    ∃ e, (s.queueAt (queueOf o.1)).head = some e ∧ e.poison = none) ∧
  (∀ o ∈ dst, isQueue o.1 = true → (s.queueAt (queueOf o.1)).dir = 2 ∧ (s.queueAt (queueOf o.1)).esz = o.2 ∧
    (s.queueAt (queueOf o.1)).ents.length < 4)

/-- A word of V that writes elements: its stroke bit, its sources and its destination with the esz a queue needs there, the bytes it writes, its
latency, the width of an element, and element e of the result. -/
structure VWord where
  st : Bool
  srcs : List VOp
  d : BitVec 6
  desz : BitVec 2
  en : BitVec 1024
  lat : Nat
  w : Nat
  el : Nat → Nat

/-- The signed value of a 32-bit element. -/
def s32 (x : Nat) : Int := (BitVec.ofNat 32 x).toInt

/-- A 32-bit pattern from an integer, modulo 2^32. -/
def b32 (v : Int) : Nat := (BitVec.ofInt 32 v).toNat

/-- An integer clamped to 32 signed bits (R96, R208). -/
def clamp32 (v : Int) : Int := max (-2147483648) (min v 2147483647)

/-- One operation on two elements: exact and rounded once to nearest-even on floats, on i32 as an integer (R205). -/
def op2 (ty : BitVec 2) (f : Fv → Fv → Fv) (g : Int → Int → Int) (x y : Nat) : Nat :=
  if ty = tyI32 then b32 (g (s32 x) (s32 y)) else (tyFmt ty).round .near (f ((tyFmt ty).value x) ((tyFmt ty).value y))

/-- One operation on one element (R208). -/
def op1 (ty : BitVec 2) (f : Fv → Fv) (g : Int → Int) (x : Nat) : Nat :=
  if ty = tyI32 then b32 (g (s32 x)) else (tyFmt ty).round .near (f ((tyFmt ty).value x))

/-- The masked words with two sources of their type. -/
def two (s : State) (st : Bool) (d a b : BitVec 6) (p : BitVec 3) (ty : BitVec 2) (lat : Nat) (f : Nat → Nat → Nat) : VWord :=
  { st := st, srcs := [(a, tyEsz ty), (b, tyEsz ty)], d := d, desz := tyEsz ty, en := predBytes (s.rdP 7 p), lat := lat, w := tyBytes ty,
    el := fun e => f (elemOf (tyBytes ty) (s.vsrc 0 a (tyBytes ty)) e) (elemOf (tyBytes ty) (s.vsrc 1 b (tyBytes ty)) e) }

/-- The masked words with one source of their type. -/
def one (s : State) (st : Bool) (d a : BitVec 6) (p : BitVec 3) (ty : BitVec 2) (lat : Nat) (f : Nat → Nat) : VWord :=
  { st := st, srcs := [(a, tyEsz ty)], d := d, desz := tyEsz ty, en := predBytes (s.rdP 7 p), lat := lat, w := tyBytes ty,
    el := fun e => f (elemOf (tyBytes ty) (s.vsrc 0 a (tyBytes ty)) e) }

/-- d[e] + a[e] × b[e], or d[e] − a[e] × b[e], exact and rounded once (R206). -/
def accumulated (s : State) (d a b : BitVec 6) (ty : BitVec 2) (minus : Bool) (e : Nat) : Nat :=
  let x := elemOf (tyBytes ty) (s.vsrc 0 a (tyBytes ty)) e
  let y := elemOf (tyBytes ty) (s.vsrc 1 b (tyBytes ty)) e
  let z := elemOf (tyBytes ty) (s.vsrc 2 d (tyBytes ty)) e
  let t := ((tyFmt ty).value x).mul ((tyFmt ty).value y)
  if ty = tyI32 then b32 (if minus then s32 z - s32 x * s32 y else s32 z + s32 x * s32 y)
  else (tyFmt ty).round .near (((tyFmt ty).value z).add (if minus then t.neg else t))

/-- The elementwise words (R205, R206, R208, R211). -/
def vElement (s : State) : Instr → Option VWord
  | .vadd st d a b p ty => some (two s st d a b p ty 4 (op2 ty Fv.add fun x y => x + y))
  | .vsub st d a b p ty => some (two s st d a b p ty 4 (op2 ty Fv.sub fun x y => x - y))
  | .vmul st d a b p ty => some (two s st d a b p ty 4 (op2 ty Fv.mul fun x y => x * y))
  | .vmax st d a b p ty => some (two s st d a b p ty 2 (op2 ty Fv.max fun x y => max x y))
  | .vmin st d a b p ty => some (two s st d a b p ty 2 (op2 ty Fv.min fun x y => min x y))
  | .vfma st d a b p ty => some { two s st d a b p ty 4 (fun _ _ => 0) with el := accumulated s d a b ty false }
  | .vfms st d a b p ty => some { two s st d a b p ty 4 (fun _ _ => 0) with el := accumulated s d a b ty true }
  | .vabs st d a p ty => some (one s st d a p ty 2 (op1 ty Fv.abs fun x => clamp32 x.natAbs))
  | .vneg st d a p ty => some (one s st d a p ty 2 (op1 ty Fv.neg fun x => clamp32 (-x)))
  | .vrcp st d a p ty => some (one s st d a p ty 8 (op1 ty Fv.rcp id))
  | .vrsq st d a p ty => some (one s st d a p ty 8 (op1 ty Fv.rsq id))
  | .vexp2 st d a p ty => some (one s st d a p ty 10 (op1 ty Fv.exp2 id))
  | .vlog2 st d a p ty => some (one s st d a p ty 10 (op1 ty Fv.log2 id))
  | .vand st d a b p ty => some (two s st d a b p ty 2 fun x y => x &&& y)
  | .vor st d a b p ty => some (two s st d a b p ty 2 fun x y => x ||| y)
  | .vxor st d a b p ty => some (two s st d a b p ty 2 fun x y => x ^^^ y)
  | .vshl st d a b p ty => some (two s st d a b p ty 2 fun x y => b32 (x * 2 ^ (y % 32)))
  | .vshr st d a b p ty => some (two s st d a b p ty 2 fun x y => b32 (x / 2 ^ (y % 32)))
  | .vsar st d a b p ty => some (two s st d a b p ty 2 fun x y => b32 (s32 x / 2 ^ (y % 32)))
  | _ => none

/-- The data-movement words (R210, R219): the element of a or b that element e receives, n elements to a line. -/
def vMove (s : State) : Instr → Option VWord
  | .vmov st d a p ty => some (one s st d a p ty 2 id)
  | .vsel st d a b p ty =>
    some { two s st d a b p ty 2 (fun _ _ => 0) with
      en := BitVec.allOnes 1024
      el := fun e => if (s.rdP 7 p).getLsbD (tyBytes ty * e / 4) then elemOf (tyBytes ty) (s.vsrc 0 a (tyBytes ty)) e
        else elemOf (tyBytes ty) (s.vsrc 1 b (tyBytes ty)) e }
  | .vperm st d a b p ty =>
    some { two s st d a b p ty 4 (fun _ _ => 0) with
      el := fun e => elemOf (tyBytes ty) (s.vsrc 0 a (tyBytes ty)) (elemOf (tyBytes ty) (s.vsrc 1 b (tyBytes ty)) e % (1024 / tyBytes ty)) }
  | .vbcast st d a b p ty =>
    some { one s st d a p ty 2 id with
      el := fun _ => elemOf (tyBytes ty) (s.vsrc 0 a (tyBytes ty)) ((s.rdX 1 (b.setWidth 4)).toNat % (1024 / tyBytes ty)) }
  | .vpack st d a b p ty =>
    some { two s st d a b p ty 2 (fun _ _ => 0) with
      el := fun e => if e < 512 / tyBytes ty then elemOf (tyBytes ty) (s.vsrc 0 a (tyBytes ty)) (2 * e)
        else elemOf (tyBytes ty) (s.vsrc 1 b (tyBytes ty)) (2 * (e - 512 / tyBytes ty)) }
  | .vsplt st d a b p ty =>
    some { two s st d a b p ty 2 (fun _ _ => 0) with
      el := fun e => if e < 512 / tyBytes ty then elemOf (tyBytes ty) (s.vsrc 0 a (tyBytes ty)) (2 * e + 1)
        else elemOf (tyBytes ty) (s.vsrc 1 b (tyBytes ty)) (2 * (e - 512 / tyBytes ty) + 1) }
  | .vunpk st d a b p ty =>
    some { two s st d a b p ty 2 (fun _ _ => 0) with
      el := fun e => if e % 2 = 0 then elemOf (tyBytes ty) (s.vsrc 0 a (tyBytes ty)) (e / 2)
        else elemOf (tyBytes ty) (s.vsrc 1 b (tyBytes ty)) (e / 2) }
  | .vcat st d a b p ty =>
    some { two s st d a b p ty 2 (fun _ _ => 0) with
      el := fun e => if e < 512 / tyBytes ty then elemOf (tyBytes ty) (s.vsrc 0 a (tyBytes ty)) e
        else elemOf (tyBytes ty) (s.vsrc 1 b (tyBytes ty)) (e - 512 / tyBytes ty) }
  | _ => none

/-- Element k of the first level of a reduction: what an on element contributes, or the neutral value (R111, R217). -/
def leaf (s : State) (ty : BitVec 2) (a : BitVec 6) (p : BitVec 3) (off : Nat) (widen : Nat → Nat) (k : Nat) : Nat :=
  widen (if (s.rdP 7 p).getLsbD (tyBytes ty * k / 4) then elemOf (tyBytes ty) (s.vsrc 0 a (tyBytes ty)) k else off)

/-- The pairwise tree of R111 over 2^L leaves, the first of them g × 2^L. -/
def tree (f : Nat → Nat → Nat) (x : Nat → Nat) : Nat → Nat → Nat
  | 0, g => x g
  | l + 1, g => f (tree f x l (2 * g)) (tree f x l (2 * g + 1))

/-- The level count of a reduction or scan (R217). -/
def levels (b : BitVec 6) (ty : BitVec 2) : Nat := if b.toNat % 16 = 0 then (if tyBytes ty = 2 then 9 else 8) else b.toNat % 16

/-- The reductions (R111, R217): group g's result in element g, +0 in every other. -/
def vReduce (s : State) : Instr → Option VWord
  | .vrsum st d a b p ty =>
    some { one s st d a p ty 10 id with
      en := BitVec.allOnes 1024
      el := fun g => if g < 1024 / tyBytes ty / 2 ^ levels b ty then sumOut ty (tree (sumStep ty) (leaf s ty a p 0 (sumIn ty)) (levels b ty) g) else 0 }
  | .vrmax st d a b p ty =>
    some { one s st d a p ty 6 id with
      en := BitVec.allOnes 1024
      el := fun g => if g < 1024 / tyBytes ty / 2 ^ levels b ty then
        tree (op2 ty Fv.max fun x y => max x y) (leaf s ty a p (if ty = tyI32 then 2147483648 else (tyFmt ty).round .near (.inf true)) id) (levels b ty) g
        else 0 }
  | _ => none

end Sys2Proof.Spec

/-- R199 to R202, R205, R206, R208, R211: an elementwise word of V whose queues are ready takes each queue operand's head entry once and sends the line
whose elements are the table's, each computed from the operands' elements of its own number, to d under the mask. -/
def Obligations.VElementResult : Prop :=
  ∀ (s : State) (i : Instr) (x : VWord), vElement s i = some x → Issues s .v x.st i → queuesReady s x.srcs [(x.d, x.desz)] →
    ∃ v t, (∀ e, e < 1024 / x.w → elemOf x.w v e = x.el e % 2 ^ (8 * x.w)) ∧ exec i s = .next t ∧
      Past .v ToNext ((s.takeHeads (x.srcs.map Prod.fst)).sendV x.d v x.en x.lat) t

/-- R199 to R202, R210, R219: a data-movement word of V copies bit patterns: every element of d under its mask is the element of a or b that the table
names. -/
def Obligations.VMoveResult : Prop :=
  ∀ (s : State) (i : Instr) (x : VWord), vMove s i = some x → Issues s .v x.st i → queuesReady s x.srcs [(x.d, x.desz)] →
    ∃ v t, (∀ e, e < 1024 / x.w → elemOf x.w v e = x.el e % 2 ^ (8 * x.w)) ∧ exec i s = .next t ∧
      Past .v ToNext ((s.takeHeads (x.srcs.map Prod.fst)).sendV x.d v x.en x.lat) t

/-- R111, R199 to R202, R217: VRSUM and VRMAX combine each group in the fixed pairwise tree and write its result to the element of the group's number,
and +0 everywhere else.
R28, R29, R202, R349: a word of V with queue operands is turned away, in this order, by a source that is no load queue or a destination that is a load
queue ("queue direction"), by a queue of another element size ("queue width"), by a destination that is unbound ("queue direction": the model's choice,
log 79), waits for a head that has not landed and for room in the
destination, and traps on a poisoned head with its source in TVAL. -/
def Obligations.VReduceResult : Prop :=
  (∀ (s : State) (i : Instr) (x : VWord), vReduce s i = some x → Issues s .v x.st i → queuesReady s x.srcs [(x.d, x.desz)] →
      ∃ v t, (∀ e, e < 1024 / x.w → elemOf x.w v e = x.el e % 2 ^ (8 * x.w)) ∧ exec i s = .next t ∧
        Past .v ToNext ((s.takeHeads (x.srcs.map Prod.fst)).sendV x.d v x.en x.lat) t) ∧
  (∀ (s : State) (i : Instr) (x : VWord), (vElement s i = some x ∨ vMove s i = some x ∨ vReduce s i = some x) → Issues s .v x.st i →
      let qs := x.srcs.filter fun o => isQueue o.1
      let dirBad : Prop := (∃ o ∈ qs, (s.queueAt (queueOf o.1)).dir ≠ 1) ∨ (isQueue x.d = true ∧ (s.queueAt (queueOf x.d)).dir = 1)
      let noStore : Prop := isQueue x.d = true ∧ (s.queueAt (queueOf x.d)).dir ≠ 2
      let eszBad : Prop := (∃ o ∈ qs, (s.queueAt (queueOf o.1)).esz ≠ o.2) ∨ (isQueue x.d = true ∧ (s.queueAt (queueOf x.d)).esz ≠ x.desz)
      let empty : Prop := ∃ o ∈ qs, (s.queueAt (queueOf o.1)).head = none
      let full : Prop := isQueue x.d = true ∧ 4 ≤ (s.queueAt (queueOf x.d)).ents.length
      (dirBad → ∃ t, exec i s = .next t ∧ Trapped .v .queueDirection 0 s t) ∧
      (¬dirBad → eszBad → ∃ t, exec i s = .next t ∧ Trapped .v .queueWidth 0 s t) ∧
      (¬dirBad → ¬eszBad → noStore → ∃ t, exec i s = .next t ∧ Trapped .v .queueDirection 0 s t) ∧
      (¬dirBad → ¬eszBad → ¬noStore → empty → ∃ t, exec i s = .next t ∧ Waits (s.why 14) t) ∧
      (¬dirBad → ¬eszBad → ¬noStore → ¬empty → full → ∃ t, exec i s = .next t ∧ Waits (s.why 15) t) ∧
      (¬dirBad → ¬eszBad → ¬noStore → ¬empty → ¬full → ∀ tv, (qs.findSome? fun o => (s.queueAt (queueOf o.1)).head.bind fun e => e.poison) = some tv →
        ∃ t, exec i s = .next t ∧ Trapped .v .poisonedHead tv s t))

namespace Sys2Proof.Spec

open Machine

/-- The relation of a compare word on two elements (R209). -/
def related (ty : BitVec 2) (f : Fv → Fv → Bool) (g : Int → Int → Bool) (x y : Nat) : Bool :=
  if ty = tyI32 then g (s32 x) (s32 y) else f ((tyFmt ty).value x) ((tyFmt ty).value y)

/-- A compare word: stroke bit, destination, sources, mask, type and relation (R209). -/
def vCompare : Instr → Option (Bool × BitVec 6 × BitVec 6 × BitVec 6 × BitVec 3 × BitVec 2 × (Nat → Nat → Bool))
  | .vcmpeq st d a b p ty => some (st, d, a, b, p, ty, related ty Fv.eq fun x y => decide (x = y))
  | .vcmpne st d a b p ty => some (st, d, a, b, p, ty, related ty (fun x y => !Fv.eq x y) fun x y => decide (x ≠ y))
  | .vcmplt st d a b p ty => some (st, d, a, b, p, ty, related ty Fv.lt fun x y => decide (x < y))
  | .vcmple st d a b p ty => some (st, d, a, b, p, ty, related ty Fv.le fun x y => decide (x ≤ y))
  | _ => none

/-- The words on whole predicates: stroke bit and result, bit i for lane i (R212). -/
def vPred (s : State) : Instr → Option (Bool × BitVec 6 × (Nat → Bool))
  | .pand st d a b => some (st, d, fun i => (s.pOf 0 a).getLsbD i && (s.pOf 1 b).getLsbD i)
  | .por st d a b => some (st, d, fun i => (s.pOf 0 a).getLsbD i || (s.pOf 1 b).getLsbD i)
  | .pnot st d a => some (st, d, fun i => !(s.pOf 0 a).getLsbD i)
  | _ => none

/-- The immediate forms (R123, R220): stroke bit, v register, latency, element width, and what an element becomes. -/
def vImmediate : Instr → Option (Bool × BitVec 6 × Nat × Nat × (Nat → Nat))
  | .vaddiF32 st d _ imm => some (st, d, 4, 4, fun x => fp32.round .near ((fp32.value x).add (fp32.value (immF32 imm))))
  | .vmuliF32 st d _ imm => some (st, d, 4, 4, fun x => fp32.round .near ((fp32.value x).mul (fp32.value (immF32 imm))))
  | .vmoviF32 st d _ imm => some (st, d, 1, 4, fun _ => fp32.canon (immF32 imm))
  | .vaddiF16 st d _ imm => some (st, d, 4, 2, fun x => fp16.round .near ((fp16.value x).add (fp16.value imm.toNat)))
  | .vmuliF16 st d _ imm => some (st, d, 4, 2, fun x => fp16.round .near ((fp16.value x).mul (fp16.value imm.toNat)))
  | .vmoviF16 st d _ imm => some (st, d, 1, 2, fun _ => fp16.canon imm.toNat)
  | .vaddiBF16 st d _ imm => some (st, d, 4, 2, fun x => bf16.round .near ((bf16.value x).add (bf16.value imm.toNat)))
  | .vmuliBF16 st d _ imm => some (st, d, 4, 2, fun x => bf16.round .near ((bf16.value x).mul (bf16.value imm.toNat)))
  | .vmoviBF16 st d _ imm => some (st, d, 1, 2, fun _ => bf16.canon imm.toNat)
  | .vaddiI32 st d md imm => some (st, d, 4, 4, fun x => b32 (x + if md = 1 then (imm.toNat * 2 ^ 16 : Int) else imm.toInt))
  | .vmoviI32 st d md imm => some (st, d, 1, 4, fun _ => b32 (if md = 1 then (imm.toNat * 2 ^ 16 : Int) else imm.toInt))
  | .vandi st d md imm => some (st, d, 2, 4, fun x => x &&& (if md = 1 then imm.toNat * 2 ^ 16 + 65535 else imm.toNat))
  | .vori st d md imm => some (st, d, 2, 4, fun x => x ||| (if md = 1 then imm.toNat * 2 ^ 16 else imm.toNat))
  | _ => none

/-- The words that write one x register: stroke bit, destination, value, latency (R212, R221). -/
def xScalar (s : State) : Instr → Option (Bool × BitVec 4 × Dw × Nat)
  | .xadd st d a b imm => some (st, d, wrap ((s.rdX 0 a).toInt + (s.rdX 1 b).toInt + imm.toInt), 1)
  | .xsub st d a b imm => some (st, d, wrap ((s.rdX 0 a).toInt - (s.rdX 1 b).toInt + imm.toInt), 1)
  | .xmul st d a b imm => some (st, d, wrap ((s.rdX 0 a).toInt * (s.rdX 1 b).toInt / 2 ^ imm.toNat), 3)
  | .xli st d a b imm =>
    some (st, d, if b = 0 then wrap imm.toInt else wrap ((s.rdX 0 a).toNat * 2 ^ 11) ||| BitVec.ofNat 64 imm.toNat, 1)
  | .xget st d b vr => some (st, d, BitVec.ofNat 64 (elemOf 4 (s.rdV 0 vr) ((s.rdX 1 b).toNat % 256)), 2)
  | .pcnt st d a => some (st, d.setWidth 4, BitVec.ofNat 64 ((List.range 256).filter fun i => (s.pOf 0 a).getLsbD i).length, 2)
  | _ => none

/-- The condition and the target of a branch or jump word of V (R121, R222). -/
def vBranch (s : State) : Instr → Option (Bool × Bool × Dw)
  | .vbz st a imm => some (st, decide (s.rdX 0 a = 0), wrap ((s.pcOf .v).toNat + 4 * imm.toInt))
  | .vbnz st a imm => some (st, decide (s.rdX 0 a ≠ 0), wrap ((s.pcOf .v).toNat + 4 * imm.toInt))
  | .vjmp st imm => some (st, true, wrap ((s.pcOf .v).toNat + 4 * imm.toInt))
  | _ => none

end Sys2Proof.Spec

/-- R199, R200, R209: a compare word whose queues are ready sends one bit a lane to predicate d, to land after two clocks: on 32-bit types the relation
on element i, on 16-bit types both relations of the lane, and 0 where the mask turns the lane off.
R212: PAND, POR and PNOT send each lane's bit to predicate d, to land after one clock. -/
def Obligations.VCompareResult : Prop :=
  (∀ (s : State) (i : Instr) (st : Bool) (d a b : BitVec 6) (p : BitVec 3) (ty : BitVec 2) (r : Nat → Nat → Bool),
      vCompare i = some (st, d, a, b, p, ty, r) → Issues s .v st i → queuesReady s [(a, tyEsz ty), (b, tyEsz ty)] [] →
      let x := s.vsrc 0 a (tyBytes ty)
      let y := s.vsrc 1 b (tyBytes ty)
      ∃ (v : Pred) (t : State), (∀ l, l < 256 → v.getLsbD l = ((s.rdP 7 p).getLsbD l &&
          if tyBytes ty = 4 then r (elemOf 4 x l) (elemOf 4 y l)
          else r (elemOf 2 x (2 * l)) (elemOf 2 y (2 * l)) && r (elemOf 2 x (2 * l + 1)) (elemOf 2 y (2 * l + 1)))) ∧
        exec i s = .next t ∧ Past .v ToNext ((s.takeHeads [a, b]).sendP d v 2) t) ∧
  (∀ (s : State) (i : Instr) (st : Bool) (d : BitVec 6) (r : Nat → Bool), vPred s i = some (st, d, r) → Issues s .v st i →
      ∃ (v : Pred) (t : State), (∀ l, l < 256 → v.getLsbD l = r l) ∧ exec i s = .next t ∧ Past .v ToNext (s.sendP d v 1) t)

/-- R123, R124, R220: an immediate form of V rewrites every element of v register d in place: the sum or product with the immediate rounded once, the
immediate itself, or the bits combined. -/
def Obligations.VImmediateResult : Prop :=
  ∀ (s : State) (i : Instr) (st : Bool) (d : BitVec 6) (lat w : Nat) (f : Nat → Nat),
    vImmediate i = some (st, d, lat, w, f) → Issues s .v st i →
    ∃ v t, (∀ e, e < 1024 / w → elemOf w v e = f (elemOf w (s.vsrc 0 d w) e) % 2 ^ (8 * w)) ∧ exec i s = .next t ∧
      Past .v ToNext (s.sendV d v (BitVec.allOnes 1024) lat) t

/-- R96, R212, R221: XADD, XSUB, XMUL, XLI, XGET and PCNT send their value to an x register. -/
def Obligations.XScalarResult : Prop :=
  ∀ (s : State) (i : Instr) (st : Bool) (d : BitVec 4) (v : Dw) (lat : Nat),
    xScalar s i = some (st, d, v, lat) → Issues s .v st i → ∃ t, exec i s = .next t ∧ Past .v ToNext (s.sendX d v lat) t

namespace Sys2Proof.Spec

open Machine

/-- The float formats of VCVT's codes; 3 and 6 are the integers (R213). -/
def floatFormat : Nat → Option Ffmt
  | 0 => some fp32 | 1 => some fp16 | 2 => some bf16 | 4 => some e4m3 | 5 => some e5m2 | _ => none

/-- An integer clamped to n signed bits, as its pattern (R96). -/
def clampBits (n : Nat) (v : Int) : Nat := (BitVec.ofInt n (max (-(2 ^ (n - 1))) (min v (2 ^ (n - 1) - 1)))).toNat

/-- One element converted from a source to a destination format (R95, R96, R214). -/
def converted (sf df : Nat) (mode : Rmode) (x : Nat) : Nat :=
  match floatFormat sf, floatFormat df with
  | some f, some g => g.round mode (f.value x)
  | some f, none => (match f.value x with
    | .nan => 0
    | .inf neg => if neg then 2 ^ (8 * cvtWidth df - 1) else 2 ^ (8 * cvtWidth df - 1) - 1
    | v => clampBits (8 * cvtWidth df) (v.toIntRound mode))
  | none, some g => g.round mode (Fv.ofInt (BitVec.ofNat (8 * cvtWidth sf) x).toInt)
  | none, none => clampBits (8 * cvtWidth df) (BitVec.ofNat (8 * cvtWidth sf) x).toInt

/-- The fields of superblock i of a quantised line: the code of element j, the SE20 and the mask bit of block b, the super-scale (R99, R215). -/
def codeAt (v : Line) (i j : Nat) : Nat := (v.extractLsb' (512 * i + 4 * j) 4).toNat
def bscaleAt (v : Line) (i b : Nat) : Nat := (v.extractLsb' (1024 + 384 * i + 20 * b) 20).toNat
def nfAt (v : Line) (i b : Nat) : Bool := v.getLsbD (1024 + 384 * i + 352 + b)
def superAt (v : Line) (i : Nat) : Nat := (v.extractLsb' (1024 + 384 * i + 320) 32).toNat

/-- The value of element j of superblock i, exact (R98, R100). -/
def dequantised (v : Line) (i j : Nat) : Fv :=
  let c := codeAt v i j
  let e := bscaleAt v i (j / 8)
  if e / 2 ^ 14 = 63 then .nan
  else if nfAt v i (j / 8) = true ∧ c % 8 = 7 then .inf (decide (8 ≤ c))
  else ((Fv.fin (decide (8 ≤ c)) (q4Mag (c % 8)) (-10)).mul (.fin false (2 ^ 14 + e % 2 ^ 14) ((e / 2 ^ 14 : Nat) - 77))).mul (fp32.value (superAt v i))

/-- What R102 says of superblock i of v, quantised from the elements of a. -/
def quantised (a v : Line) (i : Nat) : Prop :=
  let x (j : Nat) : Fv := fp32.value (elemOf 4 a (128 * i + j))
  ∀ b, b < 16 →
    let nan : Prop := ∃ q, q < 8 ∧ x (8 * b + q) = .nan
    let inf : Prop := ∃ q n, q < 8 ∧ x (8 * b + q) = .inf n
    (nan → bscaleAt v i b = 0xFFFFF ∧ nfAt v i b = true ∧ ∀ q, q < 8 → codeAt v i (8 * b + q) = 0) ∧
    (¬nan → bscaleAt v i b ≤ 0xFBFFF ∧ (nfAt v i b = true ↔ inf) ∧ (superAt v i = 0 → bscaleAt v i b = 0) ∧ ∀ q, q < 8 →
      (∀ n, x (8 * b + q) = .inf n → codeAt v i (8 * b + q) = if n then 15 else 7) ∧
      (∀ n m e, x (8 * b + q) = .fin n m e →
        (m = 0 ∨ superAt v i = 0 → codeAt v i (8 * b + q) = 0) ∧
        (m ≠ 0 → superAt v i ≠ 0 → (8 ≤ codeAt v i (8 * b + q) ↔ n = true)) ∧ (inf → codeAt v i (8 * b + q) % 8 ≠ 7)))

/-- The aligned blocks, largest first, into which the first n elements of a group split, as start and level (R218). -/
def blocksFrom (n : Nat) : Nat → Nat → List (Nat × Nat)
  | 0, start => if n % 2 = 1 then [(start, 0)] else []
  | k + 1, start => if n / 2 ^ (k + 1) % 2 = 1 then (start, k + 1) :: blocksFrom n k (start + 2 ^ (k + 1)) else blocksFrom n k start

/-- The inclusive prefix sum at position j of group g, of 2^L elements: the blocks' tree sums added from the left (R218). -/
def prefixSum (ty : BitVec 2) (x : Nat → Nat) (L g j : Nat) : Nat :=
  let sum (b : Nat × Nat) : Nat := tree (sumStep ty) x b.2 ((g * 2 ^ L + b.1) / 2 ^ b.2)
  match blocksFrom (j + 1) L 0 with
  | [] => 0
  | b :: r => r.foldl (fun acc c => sumStep ty acc (sum c)) (sum b)

end Sys2Proof.Spec

/-- R103, R104, R207, R213 to R216, R218: VSCAC adds a × b × s in one rounding, s the super-scale of the element's row; VCVT converts n elements between
its two formats, part by part, each at the position of its own number for dithering, and writes no other byte; VDQ expands the superblocks' codes and
scales; VSCAN writes the inclusive prefix sums of each group under its mask. Each completes wherever it issues with its queues ready.
R99, R102, R215: so does VQNT, which writes the codes, block scales, mask bits and super-scale of its two superblocks, and zero above them: a block with
a NaN is marked whole, an infinity has code 0x7 or 0xF, a zero and every finite element of a superblock of zeros code 0, and other codes have the sign of
their element; which of the eight magnitudes a code names, and the block scale's own value, this statement leaves to the model's function. -/
def Obligations.VConvertWords : Prop :=
  (∀ (s : State) (st : Bool) (d a b : BitVec 6) (p : BitVec 3) (ty : BitVec 2), Issues s .v st (.vscac st d a b p ty) →
    queuesReady s [(a, 3), (b, 3)] [(d, 3)] →
    let x := s.rdX 3 (8 + p.setWidth 4)
    ∃ v t, (∀ e, e < 256 → elemOf 4 v e = fp32.round .near ((fp32.value (elemOf 4 (s.vsrc 2 d 4) e)).add
        (((fp32.value (elemOf 4 (s.vsrc 0 a 4) e)).mul (fp32.value (elemOf 4 (s.vsrc 1 b 4) e))).mul
          (fp32.value (if e < 128 then x.toNat % 2 ^ 32 else x.toNat / 2 ^ 32)))) % 2 ^ 32) ∧
      exec (.vscac st d a b p ty) s = .next t ∧ Past .v ToNext ((s.takeHeads [a, b]).sendV d v (BitVec.allOnes 1024) 4) t) ∧
  (∀ (s : State) (st : Bool) (d a b : BitVec 6) (p : BitVec 3) (ty : BitVec 2), Issues s .v st (.vcvt st d a b p ty) →
    let sf := b.toNat / 8
    let df := b.toNat % 8
    let ws := cvtWidth sf
    let wd := cvtWidth df
    let n := 1024 / max ws wd
    let o := if wd < ws then ty.toNat * n else 0
    queuesReady s [(a, cvtEsz sf)] [(d, cvtEsz df)] →
    ∃ (v : Line) (en : BitVec 1024) (t : State),
      (∀ e, e < n → elemOf wd v (o + e) = converted sf df (rmodeOf p e (here s).dph.toNat)
        (elemOf ws (s.vsrc 0 a ws) (e + if ws < wd then ty.toNat * n else 0)) % 2 ^ (8 * wd)) ∧
      (∀ j, j < 1024 → en.getLsbD j = decide (o * wd ≤ j ∧ j < (o + n) * wd)) ∧
      exec (.vcvt st d a b p ty) s = .next t ∧ Past .v ToNext ((s.takeHeads [a]).sendV d v en 4) t) ∧
  (∀ (s : State) (st : Bool) (d a : BitVec 6) (p : BitVec 3) (ty : BitVec 2), Issues s .v st (.vdq st d a p ty) →
    queuesReady s [(a, 0)] [(d, tyEsz ty)] →
    ∃ v t, (∀ j, j < 1024 / tyBytes ty → elemOf (tyBytes ty) v j = if j < 256 then
          (tyFmt ty).round (rmodeOf p (j % 8) (here s).dph.toNat) (dequantised (s.vsrc 0 a 4) (j / 128) (j % 128)) % 2 ^ (8 * tyBytes ty)
        else 0) ∧
      exec (.vdq st d a p ty) s = .next t ∧ Past .v ToNext ((s.takeHeads [a]).sendV d v (BitVec.allOnes 1024) 6) t) ∧
  (∀ (s : State) (st : Bool) (d a : BitVec 6) (p : BitVec 3) (ty : BitVec 2), Issues s .v st (.vqnt st d a p ty) →
    queuesReady s [(a, 3)] [(d, 0)] → ∃ v t, quantised (s.vsrc 0 a 4) v 0 ∧ quantised (s.vsrc 0 a 4) v 1 ∧
      (v.extractLsb' (1024 + 368) 16 = 0 ∧ v.extractLsb' (1408 + 368) 16 = 0 ∧ v.extractLsb' 1792 6400 = 0) ∧
      v = quantLine p (here s).dph.toNat (s.vsrc 0 a 4) ∧ exec (.vqnt st d a p ty) s = .next t ∧
      Past .v ToNext ((s.takeHeads [a]).sendV d v (BitVec.allOnes 1024) 12) t) ∧
  (∀ (s : State) (st : Bool) (d a b : BitVec 6) (p : BitVec 3) (ty : BitVec 2), Issues s .v st (.vscan st d a b p ty) →
    queuesReady s [(a, tyEsz ty)] [(d, tyEsz ty)] → ∃ v t,
      (∀ e, e < 1024 / tyBytes ty → elemOf (tyBytes ty) v e = sumOut ty (prefixSum ty (leaf s ty a p 0 (sumIn ty)) (levels b ty)
        (e / 2 ^ levels b ty) (e % 2 ^ levels b ty)) % 2 ^ (8 * tyBytes ty)) ∧
      exec (.vscan st d a b p ty) s = .next t ∧ Past .v ToNext ((s.takeHeads [a]).sendV d v (predBytes (s.rdP 7 p)) 12) t)

/-- R35, R106, R121, R221, R222: a branch or jump word of V remembers its target for the end of its delay slots; XPUT writes bits [31:0] of x register a
to 32-bit element k of the v register and no other byte; VDPH sends the dither phase.
R203, R224 to R228: VSWEEP and VDIST start the shape unit, which keeps the word, its operands and its lanes, and trap "shape unit busy" for sixteen
schedule cycles; VSWEEP's lane is 1 where some obstacle touches the lane's sphere, VDIST's the least distance to a shape; VJLIM writes the limited
position and velocity of every joint to d and d + 1. -/
def Obligations.VOtherWords : Prop :=
  ((∀ (s : State) (i : Instr) (st taken : Bool) (target : Dw),
      vBranch s i = some (st, taken, target) → Issues s .v st i → ∃ t, exec i s = .next t ∧ Past .v (ToBranch taken target) s t) ∧
    (∀ (s : State) (st : Bool) (a b : BitVec 4) (vr : BitVec 5), Issues s .v st (.xput st a b vr) →
      let k := (s.rdX 1 b).toNat % 256
      ∃ v en t, elemOf 4 v k = (s.rdX 0 a).toNat % 2 ^ 32 ∧ (∀ j, j < 1024 → en.getLsbD j = decide (j / 4 = k)) ∧
        exec (.xput st a b vr) s = .next t ∧ Past .v ToNext (s.sendV (vr.setWidth 6) v en 2) t) ∧
    (∀ (s : State) (st : Bool) (imm : BitVec 3), Issues s .v st (.vdph st imm) → ∃ t, exec (.vdph st imm) s = .next t ∧
      Past .v ToNext (s.sendR (mkResult .v .dph (imm.setWidth 8192) 1)) t)) ∧
  ((∀ (s : State) (st : Bool) (d a b : BitVec 6) (p : BitVec 3) (ty : BitVec 2), Issues s .v st (.vsweep st d a b p ty) → queuesReady s [(b, 3)] [] →
      (∀ h, (here s).shape = some h → h.rem ≠ 0 → ∃ t, exec (.vsweep st d a b p ty) s = .next t ∧ Trapped .v .shapeUnitBusy 0 s t) ∧
      ((∀ h, (here s).shape = some h → h.rem = 0) → ∃ (w : Word) (v : Pred) (t : State), encode (.vsweep st d a b p ty) = some w ∧
        (∀ e, e < 256 → v.getLsbD e = ((s.rdP 7 p).getLsbD e && (List.range 64).any fun k =>
          sweepHit (f32At (s.grp a 0) e) (f32At (s.grp a 1) e) (f32At (s.grp a 2) e) (f32At (s.grp a 3) e) (s.vsrc 1 b 4) k)) ∧
        exec (.vsweep st d a b p ty) s = .next t ∧ Past .v ToNext (((s.startShape w false (s.vsrc 1 b 4) ((List.range 4).map (s.grp a)) (s.rdP 7 p)).takeHeads [b]).sendP d v 24) t)) ∧
    (∀ (s : State) (st : Bool) (d a b : BitVec 6) (p : BitVec 3) (ty : BitVec 2), Issues s .v st (.vdist st d a b p ty) →
      queuesReady s [(b, 3)] [(d, 3)] →
      (∀ h, (here s).shape = some h → h.rem ≠ 0 → ∃ t, exec (.vdist st d a b p ty) s = .next t ∧ Trapped .v .shapeUnitBusy 0 s t) ∧
      ((∀ h, (here s).shape = some h → h.rem = 0) → ∃ (w : Word) (v : Line) (t : State), encode (.vdist st d a b p ty) = some w ∧
        (∀ e, e < 256 → elemOf 4 v e = fp32.round .near ((List.range 32).foldl (fun r k =>
          match shapeDist (f32At (s.grp a 0) e) (f32At (s.grp a 1) e) (f32At (s.grp a 2) e) (s.vsrc 1 b 4) k with
          | some z => r.min z
          | none => r) (.inf false)) % 2 ^ 32) ∧
        exec (.vdist st d a b p ty) s = .next t ∧
        Past .v ToNext (((s.startShape w true (s.vsrc 1 b 4) ((List.range 3).map (s.grp a)) (s.rdP 7 p)).takeHeads [b]).sendV d v (predBytes (s.rdP 7 p)) 20) t)) ∧
    (∀ (s : State) (st : Bool) (d a b : BitVec 6) (p : BitVec 3) (ty : BitVec 2), Issues s .v st (.vjlim st d a b p ty) → queuesReady s [(a, 3)] [] →
      let r (e : Nat) : Nat × Nat := jlimLane (f32At (s.vsrc 0 a 4) e) (f32At (s.grp b 0) e) (f32At (s.grp b 1) e) (f32At (s.grp b 2) e)
        (f32At (s.grp b 3) e) (f32At (s.grp b 4) e) (f32At (s.grp b 5) e)
      ∃ x y t, (∀ e, e < 256 → elemOf 4 x e = (r e).1 % 2 ^ 32 ∧ elemOf 4 y e = (r e).2 % 2 ^ 32) ∧ exec (.vjlim st d a b p ty) s = .next t ∧
        Past .v ToNext (((s.takeHeads [a]).sendV d x (predBytes (s.rdP 7 p)) 8).sendV (d + 1) y (predBytes (s.rdP 7 p)) 8) t))

/-! ## The M seat -/

namespace Sys2Proof.Spec

open Machine

/-- The words that write one m register: stroke bit, destination, value, latency (R244, R245). -/
def mScalar (s : State) : Instr → Option (Bool × BitVec 4 × Dw × Nat)
  | .madd st d a imm => some (st, d, wrap ((s.rdM 0 a).toInt + imm.toInt), 1)
  | .msub st d a imm => some (st, d, wrap ((s.rdM 0 a).toInt - imm.toInt), 1)
  | .mand st d a imm => some (st, d, s.rdM 0 a &&& wrap imm.toInt, 1)
  | .mor st d a imm => some (st, d, s.rdM 0 a ||| wrap imm.toInt, 1)
  | .mshl st d a imm => some (st, d, wrap ((s.rdM 0 a).toNat * 2 ^ imm.toNat), 1)
  | .mshr st d a imm => some (st, d, wrap ((s.rdM 0 a).toNat / 2 ^ imm.toNat), 1)
  | .mli st d imm => some (st, d, wrap imm.toInt, 1)
  | .mlui st d imm => some (st, d, wrap (imm.toInt * 2 ^ 15), 1)
  | .ftget st d e => some (st, d, BitVec.ofNat 64 (s.rdFmt 0 e).toNat, 2)
  | .mpidx st d => some (st, d, BitVec.ofNat 64 (here s).eng.pidx.toNat, 1)
  | _ => none

/-- The condition and the target of a branch or jump word of M (R121, R246). -/
def mBranch (s : State) : Instr → Option (Bool × Bool × Dw)
  | .mbz st a imm => some (st, decide (s.rdM 0 a = 0), wrap ((s.pcOf .m).toNat + 4 * imm.toInt))
  | .mbnz st a imm => some (st, decide (s.rdM 0 a ≠ 0), wrap ((s.pcOf .m).toNat + 4 * imm.toInt))
  | .mblt st a b imm => some (st, decide ((s.rdM 0 a).toInt < (s.rdM 1 b).toInt), wrap ((s.pcOf .m).toNat + 4 * imm.toInt))
  | .mjmp st imm => some (st, true, wrap ((s.pcOf .m).toNat + 4 * imm.toInt))
  | .mjr st a => some (st, true, s.rdM 0 a)
  | _ => none

/-- MMA and MMAJ: joint, stroke bit, queues, format field, depth field (R238, R251). -/
def mmaWord : Instr → Option (Bool × Bool × BitVec 3 × BitVec 3 × BitVec 3 × BitVec 5 × BitVec 9)
  | .mma st o a b f kk => some (false, st, o, a, b, f, kk)
  | .mmaj st o a b f kk => some (true, st, o, a, b, f, kk)
  | _ => none

/-- The entry an f field names: one of the sixteen, or the one at the count of loop register f mod 8, mod 16, as the M seat reads it (R107, R119). -/
def formatOf (s : State) (f : BitVec 5) : BitVec 16 :=
  if f.toNat < 16 then s.rdFmt 0 (f.setWidth 4)
  else s.rdFmt 0 (BitVec.ofNat 4 (((here s).loopView .m (f.setWidth 3) ((here s).l.get (f.setWidth 3 : BitVec 3).toFin)).toNat / 2 ^ 32))

/-- The unit runs in a crew launch (R250). -/
def inCrew (s : State) : Prop := ∃ u, (s.coreAt s.cur).unit = some u ∧ u.crew = true

end Sys2Proof.Spec

/-- R245, R244, R231: every scalar word of M, FTGET and MPIDX send their value to register d. -/
def Obligations.MScalarResult : Prop :=
  ∀ (s : State) (i : Instr) (st : Bool) (d : BitVec 4) (v : Dw) (lat : Nat),
    mScalar s i = some (st, d, v, lat) → Issues s .m st i → ∃ t, exec i s = .next t ∧ Past .m ToNext (s.sendM d v lat) t

/-- R35, R121, R162: a branch or jump word of A compares on the issue clock and remembers its target for the end of its two delay slots.
R35, R121, R246: a branch or jump word of M remembers its target for the end of its delay slots. R107, R244: FTSET sends bits [15:0] of m register a
to its format-table entry. -/
def Obligations.SeatBranches : Prop :=
  (∀ (s : State) (i : Instr) (st taken : Bool) (target : Dw),
      aBranch s i = some (st, taken, target) → Issues s .a st i → ∃ t, exec i s = .next t ∧ Past .a (ToBranch taken target) s t) ∧
  ((∀ (s : State) (i : Instr) (st taken : Bool) (target : Dw),
      mBranch s i = some (st, taken, target) → Issues s .m st i → ∃ t, exec i s = .next t ∧ Past .m (ToBranch taken target) s t) ∧
    (∀ (s : State) (st : Bool) (a e : BitVec 4), Issues s .m st (.ftset st a e) → ∃ t, exec (.ftset st a e) s = .next t ∧
      Past .m ToNext (s.sendR (mkResult .m (.fmt e) ((s.rdM 0 a).setWidth 8192) 1)) t))

/-- R230, R237, R238, R242, R243, R250, R251, R349: MMA and MMAJ resolve their format entry at issue, are turned away outside a crew (MMAJ), by a bad entry or
depth, by the directions and then the widths of their queues, then (MMAJ) by a Q4Q operand B and by one queue for both operands; they wait while both
entries of the operation queue are held, which these checks come before (log 75), and otherwise take one; MDRN takes one for its queue at the width of the
last operation issued; MZERO empties the queue and halts the engine, unless it holds a joint operation. -/
def Obligations.MatrixWords : Prop :=
  (∀ (s : State) (i : Instr) (joint st : Bool) (o a b : BitVec 3) (f : BitVec 5) (kk : BitVec 9),
    mmaWord i = some (joint, st, o, a, b, f, kk) → Issues s .m st i → s.playing s.cur = false →
    let e := formatOf s f
    let bad : Prop := entryOk e ((kk.toNat + 1) * 8) = false
    let dirBad : Prop := (s.queueAt a).dir ≠ 1 ∨ (s.queueAt b).dir ≠ 1 ∨ (s.queueAt o).dir = 0 ∨ o = a ∨ o = b ∨
      (a = b ∧ (entA e ≠ entB e ∨ isQ4 (entA e) = true))
    let eszBad : Prop := (s.queueAt a).esz ≠ fmtEsz (entA e) ∨ (s.queueAt b).esz ≠ fmtEsz (entB e) ∨ (s.queueAt o).esz ≠ (if entOutf e then 2 else 3)
    let q4 : Prop := joint = true ∧ isQ4 (entB e) = true
    let same : Prop := joint = true ∧ a = b
    (joint = true → ¬inCrew s → ∃ t, exec i s = .next t ∧ Trapped .m .crew 0 s t) ∧
    ((joint = true → inCrew s) → bad → ∃ t, exec i s = .next t ∧ Trapped .m .format 0 s t) ∧
    ((joint = true → inCrew s) → ¬bad →
      (dirBad → ∃ t, exec i s = .next t ∧ Trapped .m .queueDirection 0 s t) ∧
      (¬dirBad →
        (eszBad → ∃ t, exec i s = .next t ∧ Trapped .m .queueWidth 0 s t) ∧
        (¬eszBad → q4 → ∃ t, exec i s = .next t ∧ Trapped .m .format 0 s t) ∧
        (¬eszBad → ¬q4 → same → ∃ t, exec i s = .next t ∧ Trapped .m .queueDirection 0 s t) ∧
        (¬eszBad → ¬q4 → ¬same →
          (2 ≤ (here s).eng.opq.length → ∃ t, exec i s = .next t ∧ Waits s t) ∧
          ((here s).eng.opq.length < 2 → ∃ (w : Word) (u t : State), encode i = some w ∧ exec i s = .next t ∧ Past .m ToNext u t ∧
            (∀ j, (here u).seat j = if j = .m ∧ entDith e = 1 then
              { (here s).seat .m with loop := ((here s).seat .m).loop.map fun lp => { lp with dith := true } } else (here s).seat j) ∧
            (here u).eng = { (here s).eng with
              opq := (here s).eng.opq ++ [{ kind := if joint then .mmaj else .mma, word := w, ent := e, addr := s.pcOf .m }]
              lastBf16 := entOutf e } ∧
            (∀ m, m ≠ s.cur → u.coreAt m = s.coreAt m) ∧ PackageKept s u ∧
            { here u with eng := (here s).eng, seats := (here s).seats } = here s)))))  ∧
  (∀ (s : State) (st : Bool) (o : BitVec 3), Issues s .m st (.mdrn st o) →
    let half := (here s).eng.lastBf16
    ((s.queueAt o).dir = 0 → ∃ t, exec (.mdrn st o) s = .next t ∧ Trapped .m .queueDirection 0 s t) ∧
    ((s.queueAt o).dir ≠ 0 → (s.queueAt o).esz ≠ (if half then 2 else 3) → ∃ t, exec (.mdrn st o) s = .next t ∧ Trapped .m .queueWidth 0 s t) ∧
    ((s.queueAt o).dir ≠ 0 → (s.queueAt o).esz = (if half then 2 else 3) → 2 ≤ (here s).eng.opq.length →
      ∃ t, exec (.mdrn st o) s = .next t ∧ Waits s t) ∧
    ((s.queueAt o).dir ≠ 0 → (s.queueAt o).esz = (if half then 2 else 3) → (here s).eng.opq.length < 2 →
      ∃ (w : Word) (t : State), encode (.mdrn st o) = some w ∧ exec (.mdrn st o) s = .next t ∧
        Past .m ToNext (s.modCtx s.cur fun x => { x with eng := { x.eng with
          opq := x.eng.opq ++ [{ kind := .mdrn, word := w, ent := if half then 0x100 else 0, addr := s.pcOf .m }] } }) t)) ∧
  (∀ (s : State) (st : Bool), Issues s .m st (.mzero st) →
    ((∃ o ∈ (here s).eng.opq, o.kind = .mmaj) → ∃ t, exec (.mzero st) s = .next t ∧ Trapped .m .jointBusy 0 s t) ∧
    ((∀ o ∈ (here s).eng.opq, o.kind ≠ .mmaj) → ∃ t, exec (.mzero st) s = .next t ∧
      Past .m ToNext (s.modCtx s.cur fun x => { x with eng := { x.eng with
        opq := [], running := false, spanDone := false, dbusy := false, lastBf16 := false, halt := true } }) t))

/-! ## The common group -/

/-- R31, R125 to R128, R374: in every seat, NOP goes on and changes nothing else; TPOST adds to its token at the end of the clock, and traps "token
overflow" where the token and the clock's posts to it would pass 65,535 (that the test counts the posts already made on this clock is the model's choice,
log 75); TWAIT issues and takes n from a token that holds it, and otherwise waits; FSET
sets its flag at the end of the clock; FWAIT goes on where the flag has the value and otherwise waits; BRK goes on with the cause "breakpoint" and its
code, or asks for a debug halt; BNDY outside a loop body, its seat alone active, stops the unit at the boundary where a stop is pending. -/
def Obligations.CommonWords : Prop :=
  ∀ (s : State) (k : SeatId) (st : Bool),
    (Issues s k st (.nop st) → ∃ t, exec (.nop st) s = .next t ∧ Past k ToNext s t) ∧
    (∀ (n : BitVec 8) (x : BitVec 4), Issues s k st (.tpost st x n) → n ≠ 0 →
      let sum := ((here s).k.get x.toFin).toNat + (s.coreAt s.cur).postsTo x + n.toNat
      (65535 < sum → ∃ t, exec (.tpost st x n) s = .next t ∧ Trapped k .tokenOverflow 0 s t) ∧
      (sum ≤ 65535 → ∃ t, exec (.tpost st x n) s = .next t ∧ Past k ToNext (s.pendF (.post x n)) t)) ∧
    (∀ (n : BitVec 8) (x : BitVec 4), Issues s k st (.twait st x n) → n ≠ 0 →
      let v := ((here s).k.get x.toFin).toNat
      (n.toNat ≤ v → ∃ t, exec (.twait st x n) s = .next t ∧
        Past k ToNext (s.modCtx s.cur fun y => { y with k := y.k.set x.toFin (BitVec.ofNat 16 (v - n.toNat)) }) t) ∧
      (v < n.toNat → ∃ t, exec (.twait st x n) s = .next t ∧ Waits (s.why 16) t)) ∧
    (∀ (f : BitVec 3) (v : BitVec 1), Issues s k st (.fset st f v) → ∃ t, exec (.fset st f v) s = .next t ∧
      Past k ToNext (s.pendF (.flag f (decide (v = 1)))) t) ∧
    (∀ (f : BitVec 3) (v : BitVec 1), Issues s k st (.fwait st f v) →
      ((here s).f.getLsbD f.toNat = decide (v = 1) → ∃ t, exec (.fwait st f v) s = .next t ∧ Past k ToNext s t) ∧
      ((here s).f.getLsbD f.toNat ≠ decide (v = 1) → ∃ t, exec (.fwait st f v) s = .next t ∧ Waits (s.why 16) t)) ∧
    (∀ (c : BitVec 8), Issues s k st (.brk st c) →
      ((s.coreAt s.cur).dbg.dcfg.getLsbD 0 = true → ∃ t, exec (.brk st c) s = .next t ∧
        Past k ToNext (s.modCore s.cur fun x => { x with dbg := { x.dbg with pending := some .brk } }) t) ∧
      ((s.coreAt s.cur).dbg.dcfg.getLsbD 0 = false → ∃ t u, exec (.brk st c) s = .next t ∧ Past k ToNext s u ∧
        t = u.modCtx s.cur fun x => x.modSeat k fun z =>
          { z with cause := some { cause := .breakpoint, tval := BitVec.ofNat 64 c.toNat, tpc := s.pcOf k, issued := true } })) ∧
    (∀ u, Issues s k st (.bndy st) → (s.coreAt s.cur).unit = some u → (s.coreAt s.cur).handler = none → ((here s).seat k).loop = none →
      (here s).actives = [k] →
      (u.stop = none → ∃ t, exec (.bndy st) s = .next t ∧ Past k ToNext s t) ∧
      (u.stop.isSome = true → ∃ t, exec (.bndy st) s = .next t ∧ Past k ToNext (s.pendF .boundary) t)) ∧
    (∀ lp, Issues s k st (.bndy st) → ((here s).seat k).body = some lp → ∃ t, exec (.bndy st) s = .next t ∧ Past k ToNext s t)

/-- R38 to R42: MLOOP reads the trip of its register; a trip of 0 goes on behind the body; a register on which another seat runs a loop, or the C seat's own
that a handler's frame keeps, traps "loop busy"; outside a handler an urgent stop of the unit holds it until the freeze (the model's choice, log 78);
otherwise the seat enters the body at kernel step 0 with T, its stage, the highest stage and its rotation base.
R42: at the MLOOP at which a forced early epilogue has ended, the seat enters the body with the iterations from i0 on still to run and the rotation base (b0
+ i0) mod 8 in A and V. R35, R37, R39: a stroked MLOOP waits at its seat's head while other seats are active, in a delay slot as well (log 71), traps
"stroke without crew" where its seat is the only active one or a handler runs, and "loop body" in a body; at its rendezvous it enters the loop that the
partners run in lock-step.
R40: in a kernel step that lies outside the iterations of the seat, its word is squashed: the seat moves past it as past an issued word, and does nothing
else. -/
def Obligations.LoopWords : Prop :=
  (∀ (s : State) (k : SeatId) (l : BitVec 3) (n : BitVec 6) (stg ms : BitVec 3), Issues s k false (.mloop false l n stg ms) → stg.toNat ≤ ms.toNat →
      (s.coreAt s.cur).urgent = false → ((here s).seat k).loop = none →
      let trip := ((here s).l.get l.toFin).toNat % 2 ^ 32
      let busy : Prop := (∃ j lp, j ≠ k ∧ ((here s).seat j).body = some lp ∧ lp.reg = l) ∨
        ∃ h lp, (s.coreAt s.cur).handler = some h ∧ (h.saved.seat .c).body = some lp ∧ lp.reg = l
      (busy → ∃ t, exec (.mloop false l n stg ms) s = .next t ∧ Trapped k .loopBusy 0 s t) ∧
      (¬busy → trip = 0 → ∃ t, exec (.mloop false l n stg ms) s = .next t ∧
        Past k (Skips (wrap (((here s).seat k).pc.toNat + 4 * (n.toNat + 2)))) s t) ∧
      (¬busy → trip ≠ 0 → ∃ (lp : Loop) (t : State), exec (.mloop false l n stg ms) s = .next t ∧ Past k (Enters lp) s t ∧
        lp.reg = l ∧ lp.len = n.toNat + 1 ∧ lp.stage = stg.toNat ∧ lp.ms = ms.toNat ∧ lp.head = ((here s).seat k).pc ∧ lp.trip = trip ∧ lp.step = 0 ∧
        lp.pos = 0 ∧ lp.b0 = ((here s).seat k).rb ∧ lp.base = 0 ∧ lp.lsq = false ∧ lp.lepi = false)) ∧
  (∀ (s : State) (k : SeatId) (l : BitVec 3) (n : BitVec 6) (stg ms : BitVec 3), Issues s k false (.mloop false l n stg ms) → stg.toNat ≤ ms.toNat →
      (s.coreAt s.cur).urgent = true → ∃ t, exec (.mloop false l n stg ms) s = .next t ∧ Waits s t) ∧
  (∀ (s : State) (k : SeatId) (l : BitVec 3) (n : BitVec 6) (stg ms : BitVec 3) (lp : Loop), Issues s k false (.mloop false l n stg ms) →
      stg.toNat ≤ ms.toNat → (s.coreAt s.cur).urgent = false → ((here s).seat k).loop = some lp →
      ∃ t, exec (.mloop false l n stg ms) s = .next t ∧
        Past k (Enters { lp with lepi := false, lmid := false, lsq := false, base := lp.i0, step := 0, pos := 0 })
          (s.modCtx s.cur fun x => x.modSeat k fun z => { z with rb := if k = .a ∨ k = .v then BitVec.ofNat 3 (lp.b0.toNat + lp.i0) else z.rb }) t) ∧
  (∀ (s : State) (k : SeatId) (l : BitVec 3) (n : BitVec 6) (stg ms : BitVec 3), s.canIssue k = true → stg.toNat ≤ ms.toNat →
      let bad : Option Cause :=
        if ((here s).seat k).dslots ≠ 0 then some .delaySlotWord else if ((here s).seat k).body.isSome = true then some .loopBody
        else some .strokeWithoutCrew
      (((here s).seat k).body = none → (s.coreAt s.cur).handler = none → (here s).actives ≠ [k] →
        ∃ t, exec (.mloop true l n stg ms) s = .next t ∧
          t = (s.modCtx s.cur fun x => x.modSeat k fun z => { z with strk := true }).passTurn) ∧
      (((here s).seat k).body.isSome = true ∨ (s.coreAt s.cur).handler.isSome = true ∨ (here s).actives = [k] →
        ∃ t q, bad = some q ∧ exec (.mloop true l n stg ms) s = .next t ∧ Trapped k q 0 s t)) ∧
  (∀ (s : State) (k : SeatId) (l : BitVec 3) (n : BitVec 6) (stg ms : BitVec 3), s.nextWord s.cur k = .word (.mloop true l n stg ms) →
      stg.toNat ≤ ms.toNat → (s.coreAt s.cur).seatWaits k = false → ((here s).seat k).dslots = 0 → ((here s).seat k).loop = none →
      (s.coreAt s.cur).urgent = false → (s.coreAt s.cur).handler = none → (∀ j lp, j ≠ k → ((here s).seat j).body = some lp → lp.reg ≠ l) →
      let trip := ((here s).l.get l.toFin).toNat % 2 ^ 32
      trip ≠ 0 → ∃ lp, Past k (Enters lp) s (s.settle k (s.partnerV k)).passTurn ∧
        lp.reg = l ∧ lp.len = n.toNat + 1 ∧ lp.stage = stg.toNat ∧ lp.ms = ms.toNat ∧ lp.head = ((here s).seat k).pc ∧ lp.trip = trip ∧ lp.step = 0 ∧
        lp.pos = 0 ∧ lp.b0 = ((here s).seat k).rb ∧ lp.base = 0 ∧ lp.group = true) ∧
  (∀ (s : State) (k : SeatId) (lp : Loop), s.turn = .seat k → (k = .c → s.inputs = [] ∧ s.dueStart = none) → s.canIssue k = true →
      ((here s).seat k).body = some lp → lp.issues = false →
      ∃ t, step s = .next t ∧ (∀ m, m ≠ s.cur → t.coreAt m = s.coreAt m) ∧ RegsKept (here s) (t.coreAt s.cur).ctx ∧
        ToNext k ((here s).seat k) ((t.coreAt s.cur).ctx.seat k) ∧ (∀ j, j ≠ k → (t.coreAt s.cur).ctx.seat j = (here s).seat j) ∧ PackageKept s t)

/-! ## Events of the seats and of traps -/

namespace Sys2Proof.Spec

open Machine

/-- The supervisor handler's code of a core's context (R359); 0 for none. -/
def supEntry (s : State) (n : CoreId) : Dw := (s.contextOf n (s.coreAt n).ctxNum).shbase

/-- A trap to the supervisor: one that the spec always sends there, or any trap where the unit has set no user handler (R348, R350). -/
def toSupervisor (s : State) (n : CoreId) (q : Cause) : Prop := q.toSup = true ∨ (s.coreAt n).ctx.uhandGov = 0

end Sys2Proof.Spec

/-- R36, R39, R57, R121, R350: a held core whose loads have answered runs again; an active seat that fetches past its last word becomes inactive, traps
"loop body" inside a loop body, and "branch target" in a handler. -/
def Obligations.SeatEvents : Prop :=
  (∀ (s : State) (n : CoreId), (s.coreAt n).hold = true → (s.coreAt n).ctx.mustHold = false → (s.coreAt n).logFull = false →
    ∃ t, exec (.loadHoldEnd n) s = .next t ∧ OneCore n s t ∧ t.coreAt n = { s.coreAt n with hold := false }) ∧
  (∀ (s : State) (n : CoreId) (k : SeatId), s.ranOut n k = true → (s.coreAt n).handler = none → ((s.coreAt n).ctx.seat k).body = none →
    ∃ t, exec (.seatRunOut n k) s = .next t ∧ OneCore n s t ∧ ((t.coreAt n).ctx.seat k).act = false ∧
      (∀ j, j ≠ k → (t.coreAt n).ctx.seat j = (s.coreAt n).ctx.seat j) ∧ RegsKept (s.coreAt n).ctx (t.coreAt n).ctx ∧
      (t.coreAt n).ctx.l = (s.coreAt n).ctx.l) ∧
  (∀ (s : State) (n : CoreId) (k : SeatId), s.ranOut n k = true → ((s.coreAt n).handler.isSome = true ∨ ((s.coreAt n).ctx.seat k).body.isSome = true) →
    ∃ t q, exec (.seatRunOut n k) s = .next t ∧ OneCore n s t ∧ ((t.coreAt n).ctx.seat k).cause = some q ∧
      q.cause = (if (s.coreAt n).handler.isSome then .branchTarget else .loopBody) ∧ q.tpc = ((s.coreAt n).ctx.seat k).pc ∧ q.issued = false ∧
      RegsKept (s.coreAt n).ctx (t.coreAt n).ctx)

/-- R37, R40: where every partner's word can issue and none of them ends the rendezvous for the others, all of them issue on this clock, in seat order,
and no partner tries another word in it; where one word stalls, by itself or by what the words before it did in this clock, none issues: pcs, causes,
loops and registers stand, and memory; where none stalls and one or more trap, none issues either: each trapping seat keeps its word's cause, the others
what they had, and the registers stand. The seat order of the partners' words is the model's reading (log 13). -/
def Obligations.Rendezvous : Prop :=
  ∀ (s : State) (n : CoreId), s.atStart n = true → s.meetDue = true →
    ((∀ k ∈ s.partners, ∀ z, s.partnerV k ≠ .stall z) → s.trapsOf s.partners = [] →
      (∀ u, s.issueAll s.partners = .issued u → exec (.strokeRendezvous n) s = .next (u.skipSeats s.partners)) ∧
      (s.issueAll s.partners = .stall → ∃ t, exec (.strokeRendezvous n) s = .next t ∧ OneCore n s t ∧ RegsKept (s.coreAt n).ctx (t.coreAt n).ctx ∧
        (∀ k, ((t.coreAt n).ctx.seat k).pc = ((s.coreAt n).ctx.seat k).pc ∧ ((t.coreAt n).ctx.seat k).cause = ((s.coreAt n).ctx.seat k).cause)) ∧
      (∀ k q tv, s.issueAll s.partners = .trap k q tv → ∃ t z, exec (.strokeRendezvous n) s = .next t ∧ OneCore n s t ∧
        RegsKept (s.coreAt n).ctx (t.coreAt n).ctx ∧ (∀ j, ((t.coreAt n).ctx.seat j).pc = ((s.coreAt n).ctx.seat j).pc) ∧
        (∀ j, j ≠ k → ((t.coreAt n).ctx.seat j).cause = ((s.coreAt n).ctx.seat j).cause) ∧
        ((t.coreAt n).ctx.seat k).cause = some z ∧ z.cause = q ∧ z.issued = false)) ∧
    ((∃ k ∈ s.partners, ∃ z, s.partnerV k = .stall z) →
      ∃ t, exec (.strokeRendezvous n) s = .next t ∧ (∀ m, m ≠ n → t.coreAt m = s.coreAt m) ∧ (∀ a, memRead t.mem a = memRead s.mem a) ∧
        { (t.coreAt n).ctx with seats := (s.coreAt n).ctx.seats, await := (s.coreAt n).ctx.await } = (s.coreAt n).ctx ∧
        ∀ k, { (t.coreAt n).ctx.seat k with strk := ((s.coreAt n).ctx.seat k).strk } = (s.coreAt n).ctx.seat k) ∧
    ((∀ k ∈ s.partners, ∀ z, s.partnerV k ≠ .stall z) → s.trapsOf s.partners ≠ [] →
      ∃ t, exec (.strokeRendezvous n) s = .next t ∧ OneCore n s t ∧ RegsKept (s.coreAt n).ctx (t.coreAt n).ctx ∧
        (∀ k, ((t.coreAt n).ctx.seat k).pc = ((s.coreAt n).ctx.seat k).pc ∧ ((t.coreAt n).ctx.seat k).loop = ((s.coreAt n).ctx.seat k).loop) ∧
        (∀ b ∈ s.trapsOf s.partners, ∃ tv, (b.2.1.tvalStated = true → tv = b.2.2) ∧ ((t.coreAt n).ctx.seat b.1).cause =
          some { cause := b.2.1, tval := tv, tpc := ((s.coreAt n).ctx.seat b.1).pc, issued := false }) ∧
        (∀ k, (∀ b ∈ s.trapsOf s.partners, b.1 ≠ k) → ((t.coreAt n).ctx.seat k).cause = ((s.coreAt n).ctx.seat k).cause))

/-- R34, R348 to R351: taking a trap. Outside a handler the first seat cause in the order C, A, V, M freezes the core: an entry that the matrix drain has
reserved lands (R247), the frame keeps the context, TCAUSE, TPC, TVAL and TSEAT are the cause's, and the handler starts on the C seat, at UHAND or, for the
supervisor, at shbase, with c1 to c31 as they stand and nothing in flight, FIDX and SVREPLY as they were; an AWAIT of the core is withdrawn from its slot.
R351, R368: a trap raised in the user handler goes to the supervisor handler, what the user handler did being discarded: TRAP declines the original cause
with its code, every other trap arrives as "handler fault", with TPC, TVAL and TSEAT still the original trap's (log 60). A trap in the supervisor handler,
or one that needs it where shbase is 0 (R359), freezes the core as a master: outside a handler no handler runs, the context stands at F with its causes,
and the policy core is notified. -/
def Obligations.TrapEntry : Prop :=
  (∀ (s : State) (n : CoreId) (k : SeatId) (q : SeatCause), s.mayTrap n = true → (s.coreAt n).handler = none → (s.coreAt n).ctx.firstCause = some (k, q) →
      (toSupervisor s n q.cause → supEntry s n ≠ 0) →
      ∃ t h, exec (.trapEntry n) s = .next t ∧ (t.coreAt n).handler = some h ∧
        (h.sup = true ↔ toSupervisor s n q.cause) ∧ h.cause = q.cause ∧ h.tpc = q.tpc ∧ h.tval = q.tval ∧ h.tseat = k ∧ h.orig = q.cause ∧
        h.saved = (s.coreAt n).ctx.drainLands.atFreeze ∧ h.saveWritten = false ∧ (t.coreAt n).fidx = (s.coreAt n).fidx ∧
        (t.coreAt n).svreply = (s.coreAt n).svreply ∧
        ((t.coreAt n).ctx.seat .c).pc = (if h.sup then supEntry s n else (s.coreAt n).ctx.uhandGov) ∧ ((t.coreAt n).ctx.seat .c).act = true ∧
        ((t.coreAt n).ctx.seat .c).dslots = 0 ∧ ((t.coreAt n).ctx.seat .c).loop = none ∧ ((t.coreAt n).ctx.seat .c).cause = none ∧
        (t.coreAt n).ctx.inflight = [] ∧ (t.coreAt n).ctx.c = (s.coreAt n).ctx.c ∧ (t.coreAt n).unit = (s.coreAt n).unit ∧ OneCore n (s.withdrawAwait n) t) ∧
  (∀ (s : State) (n : CoreId) (k : SeatId) (q : SeatCause), s.mayTrap n = true → (s.coreAt n).handler = none → (s.coreAt n).ctx.firstCause = some (k, q) →
      toSupervisor s n q.cause → supEntry s n = 0 →
      ∃ t, exec (.trapEntry n) s = .next t ∧ OneCore n (s.withdrawAwait n) t ∧ (t.coreAt n).frozen = some .master ∧ (t.coreAt n).handler = none ∧
        (t.coreAt n).ctx = (s.coreAt n).ctx.drainLands.atFreeze ∧ (t.coreAt n).chosen = some k ∧ (t.coreAt n).unit = (s.coreAt n).unit ∧
        .frozen (dieOf n) (.core n) q.cause.code.toNat ∈ t.outs) ∧
  (∀ (s : State) (n : CoreId) (q : SeatCause) (h : Handler), s.mayTrap n = true → (s.coreAt n).handler = some h →
      ((s.coreAt n).ctx.seat .c).cause = some q →
      (h.sup = false → supEntry s n ≠ 0 → ∃ t g, exec (.trapEntry n) s = .next t ∧ OneCore n (s.withdrawAwait n) t ∧ (t.coreAt n).handler = some g ∧ g.sup = true ∧
        g.esc = true ∧ g.orig = h.orig ∧ g.saved = h.saved ∧ g.cause = (if q.cause = .software then h.orig else .handlerFault) ∧
        g.dcode = (if q.cause = .software then q.tval.setWidth 8 else 0) ∧ g.tpc = h.tpc ∧ g.tval = h.tval ∧ g.tseat = h.tseat ∧
        ((t.coreAt n).ctx.seat .c).pc = supEntry s n ∧ (t.coreAt n).ctx.c = h.saved.c ∧ (t.coreAt n).ctx.f = h.saved.f ∧
        (t.coreAt n).ctx.uhand = h.saved.uhand ∧ (∀ k, ((t.coreAt n).ctx.seat k).osb = (h.saved.seat k).osb) ∧ (t.coreAt n).ctx.inflight = []) ∧
      (h.sup = true ∨ supEntry s n = 0 → ∃ t, exec (.trapEntry n) s = .next t ∧ OneCore n (s.withdrawAwait n) t ∧ (t.coreAt n).frozen = some .master))

/-- R57, R158, R352: RFT outside a handler traps "return"; in a handler it waits until the handler's results have landed and each dumped load that would land
next has its value; then the handler ends, c1 to c31, the flags, the C seat and the dumped results in flight are the frame's, and no seat issues before the
next clock.
R363: where an uncorrectable error has reached the shadow, RFT leaves the unit to be cancelled at the end of its clock. -/
def Obligations.ReturnFromTrap : Prop :=
  ∀ (s : State) (st : Bool), Issues s .c st (.rft st) →
    ((s.coreAt s.cur).handler = none → ∃ t, exec (.rft st) s = .next t ∧ Trapped .c .return_ 0 s t) ∧
    (∀ h, (s.coreAt s.cur).handler = some h → (here s).inflight ≠ [] ∨ h.saved.awaitsDump = true → ∃ t, exec (.rft st) s = .next t ∧ Waits s t) ∧
    (∀ h, (s.coreAt s.cur).handler = some h → (here s).inflight = [] → h.saved.awaitsDump = false → h.bad = true →
      ∃ t, exec (.rft st) s = .next t ∧ Past .c Stays (s.pendF .lost) t) ∧
    (∀ h, (s.coreAt s.cur).handler = some h → (here s).inflight = [] → h.saved.awaitsDump = false → h.bad = false → h.writes = [] →
      ∃ t, exec (.rft st) s = .next t ∧ (t.coreAt s.cur).handler = none ∧ (t.coreAt s.cur).ctx.c = h.saved.c ∧
        (t.coreAt s.cur).ctx.f = h.saved.f ∧ (t.coreAt s.cur).ctx.inflight = h.saved.inflight ∧
        ((t.coreAt s.cur).ctx.seat .c).pc = (h.saved.seat .c).pc ∧
        ((∀ lp, (h.saved.seat .c).loop = some lp → lp.len ≠ 0) → ((t.coreAt s.cur).ctx.seat .c).loop = (h.saved.seat .c).loop) ∧
        ((t.coreAt s.cur).ctx.seat .c).dslots = (h.saved.seat .c).dslots ∧ (t.coreAt s.cur).ctx.osiss = (here s).osiss ∧
        (t.coreAt s.cur).ctx.osprf = (here s).osprf ∧ (t.coreAt s.cur).ctx.a = (here s).a ∧ (t.coreAt s.cur).ctx.v = (here s).v ∧
        (t.coreAt s.cur).ctx.m = (here s).m ∧ (t.coreAt s.cur).skip = 0xF ∧ OneCore s.cur s t)

/-- R362, R368: with no handler running and no seat cause, the oldest engine fault is taken as the C seat's trap, its record in TVAL and its cause in
EFINFO. A thawed master goes on as it stood, a core that a trap without a supervisor handler froze without that trap's cause (log 60); the reset of a frozen
master cancels its work: a core loses its unit, which leaves cancelled with status 3,
a copy engine its copies, whose operations count as performed, an endpoint queue the sends of its sessions, a host function the phases it submitted. -/
def Obligations.EngineFaultsAndMasters : Prop :=
  (∀ (s : State) (n : CoreId) (f : EFault) (r : List EFault), (s.coreAt n).efq = f :: r → s.efDue n = true →
    (toSupervisor s n .engineFault → supEntry s n ≠ 0) →
    ∃ t h, exec (.engineFaultTake n) s = .next t ∧ OneCore n (s.withdrawAwait n) t ∧ (t.coreAt n).handler = some h ∧ h.cause = .engineFault ∧ h.tseat = .c ∧
      h.tval = f.tval ∧ h.efinfo = f.cause ∧ h.tpc = ((s.coreAt n).ctx.seat .c).pc ∧ (t.coreAt n).efq = r) ∧
  (∀ (s : State) (n : CoreId), (s.coreAt n).frozen = some .master →
    ((s.coreAt n).chosen = none → ∃ t, exec (.masterThaw (.core n)) s = .next t ∧ OneCore n s t ∧ t.coreAt n = { s.coreAt n with frozen := none }) ∧
    (∀ k, (s.coreAt n).chosen = some k → ∃ t, exec (.masterThaw (.core n)) s = .next t ∧ OneCore n s t ∧ (t.coreAt n).frozen = none ∧
      { t.coreAt n with frozen := some .master, chosen := some k, ctx := (s.coreAt n).ctx } = s.coreAt n ∧
      { (t.coreAt n).ctx with seats := (s.coreAt n).ctx.seats } = (s.coreAt n).ctx ∧
      ∀ j, (t.coreAt n).ctx.seat j = { (s.coreAt n).ctx.seat j with
        cause := ((s.coreAt n).ctx.seat j).cause.filter fun q => decide (j ≠ k) && q.issued }) ∧
    (∀ u, (s.coreAt n).unit = some u → ∃ t l, exec (.masterReset (.core n)) s = .next t ∧ (t.coreAt n).unit = none ∧ (t.coreAt n).frozen = none ∧
      l ∈ (t.coreAt n).leaving ∧ l.unit = u ∧ l.cancelled = true ∧ l.fault = true ∧ l.status = 3 ∧
      (∀ k ∈ (t.coreAt n).copies, k.owner = u.serial → k.cancel = true) ∧
      ((s.coreAt n).dbg.rec_ = false → t.mem = s.mem))) ∧
  (∀ (s : State) (n : CoreId), (s.coreAt n).cpFrozen = true →
    (∃ t, exec (.masterThaw (.copyEngine n)) s = .next t ∧ OneCore n s t ∧ t.coreAt n = { s.coreAt n with cpFrozen := false }) ∧
    (∃ t, exec (.masterReset (.copyEngine n)) s = .next t ∧ (t.coreAt n).cpFrozen = false ∧ (t.coreAt n).latch = none ∧ (t.coreAt n).chains = [] ∧
      (t.coreAt n).copies = [] ∧ t.mem = s.mem ∧
      (∀ k, k ∈ (s.coreAt n).copies ∨ (s.coreAt n).latch = some k → ∀ id, k.op = some id ∨ id ∈ k.resumeOf →
        (∀ m m', ((s.coreAt m).op? id).isSome = true → ((s.coreAt m').op? id).isSome = true → m = m') → ∀ m, (t.coreAt m).op? id = none) ∧
      (∀ k ∈ (s.coreAt n).copies, ∀ u, (s.coreAt n).ownerUnit k.owner = some u → ∀ p, (s.die (s.phaseHome (dieOf n) u.phid)).phase? u.phid = some p →
        ∃ q, (t.die (s.phaseHome (dieOf n) u.phid)).phase? u.phid = some q ∧ q.status = if p.status = 0 then 3 else p.status))) ∧
  (∀ (s : State) (d : DieId) (q : Fin 64), q.val ∈ (s.die d).frozenQs →
    (∃ t, exec (.masterThaw (.endpointQueue d q)) s = .next t ∧ q.val ∉ (t.die d).frozenQs ∧ (t.die d).sends = (s.die d).sends ∧ t.mem = s.mem) ∧
    (∃ t, exec (.masterReset (.endpointQueue d q)) s = .next t ∧ q.val ∉ (t.die d).frozenQs ∧ t.mem = s.mem ∧
      ∀ x ∈ (t.die d).sends, ∀ z ∈ (s.die d).sessions, z.isOpen = true → z.epq = q → x.sid ≠ z.sid)) ∧
  (∀ (s : State) (d : DieId) (fn : Fin 33), fn.val ∈ (s.die d).frozenFns →
    (∃ t, exec (.masterThaw (.hostFunction d fn)) s = .next t ∧ fn.val ∉ (t.die d).frozenFns ∧ (t.die d).phases = (s.die d).phases ∧ t.mem = s.mem) ∧
    (∃ t, exec (.masterReset (.hostFunction d fn)) s = .next t ∧ fn.val ∉ (t.die d).frozenFns ∧
      ∀ id p, (s.die d).phase? id = some p → p.cmd.fn = fn → ∃ q, (t.die d).phase? id = some q ∧ q.cancelled = true ∧
        q.status = (if p.status = 0 then 3 else p.status) ∧ ∀ n u, dieOf n = d → (s.coreAt n).unit = some u → u.phid = id →
          ∃ v x, (t.coreAt n).unit = some v ∧ v.stop = some x ∧ x.why = .cancel))

namespace Sys2Proof.Spec

open Machine

/-- The size bytes from an address on as a little-endian number (R6). -/
def bytesValue (m : List Host.Cell) (pa : Nat) : Nat → Nat
  | 0 => 0
  | n + 1 => (memRead m pa).toNat + 256 * bytesValue m (pa + 1) n

/-- Two ranges of bytes share none. -/
def apart (a n b m : Nat) : Prop := a + n ≤ b ∨ b + m ≤ a

/-- The service ring of core n takes a record: its header stands at hpa and is good, m is its smallest cursor. -/
def serviceRing (s : State) (n : CoreId) (hpa m : Nat) : Prop :=
  s.svTr n needRw (s.contextOf n (s.ctxOn n)).svring 64 = .ok hpa ∧ ringBad (s.recAt hpa) = false ∧
  let cs := (List.range (recU (s.recAt hpa) 216 7)).map fun j => s.svTr n needRd (cursorVa (s.recAt hpa) j) 8
  (∀ a ∈ cs, a.isBreak = false) ∧ s.minCursor cs = some m

/-- The handler of core n asks for r. -/
def asksFor (s : State) (n : CoreId) (r : SysReq) : Prop := ∃ h, (s.coreAt n).handler = some h ∧ h.req = some r

/-- No cached translation of a context that meets the given pages is left, and every other is. -/
def dropped (s t : State) (n : CoreId) (hit : Tlb → Bool) : Prop :=
  ∀ e, e ∈ (t.die (dieOf n)).tlb ↔ e ∈ (s.die (dieOf n)).tlb ∧ ¬(e.ctx = s.ctxOn n ∧ hit e = true)

end Sys2Proof.Spec

/-- R359, R360: INVAL of scope 0 drops the cached translations of the context that meet the page, scope 1 all of them, scope 2 also reads the context's
descriptor again; the C seat then goes on with INVAL_COMPLETE.
INVAL_COMPLETE waits for the walks in progress that the write found, and what walks had brought to accesses of the die that have not used it is gone.
R186, R358, R361: the requests of the supervisor handler. CPYRES enters its record in the copy engine once an entry is free; SAVE makes every area
readable through the shadow; FDATA keeps a write within its limit for RFT and moves FIDX on; SVREQ clears the reply doubleword, writes its record and
publishes it, and a full service ring holds it with one ring-full notice; the reply, once nonzero, is SVREPLY and lets the C seat go on.
That these writes act in events of their own is the model's reading (log 14). -/
def Obligations.HandlerRequests : Prop :=
  (∀ (s : State) (n : CoreId) (w : Dw), asksFor s n (.inval w) →
      (w.extractLsb' 0 2 = 0 → ∃ t, exec (.invalPage n w) s = .next t ∧ asksFor t n .invalDone ∧
        dropped s t n (fun e => decide (e.va.toNat < (w.extractLsb' 12 45).toNat * 4096 + 4096 ∧ (w.extractLsb' 12 45).toNat * 4096 < e.va.toNat + e.size)) ∧
        t.mem = s.mem) ∧
      (w.extractLsb' 0 2 = 1 → ∃ t, exec (.invalContext n w) s = .next t ∧ asksFor t n .invalDone ∧ dropped s t n (fun _ => true) ∧ t.mem = s.mem) ∧
      (w.extractLsb' 0 2 = 2 → contextLost s.dwAt (s.contextOf n (s.ctxOn n)).ctxd = none → ∃ t, exec (.invalReload n w) s = .next t ∧
        asksFor t n .invalDone ∧ dropped s t n (fun _ => true) ∧ t.mem = s.mem ∧
        (t.die (dieOf n)).contexts.get (s.ctxOn n) = loadContext s.dwAt (s.contextOf n (s.ctxOn n)).ctxd) ∧
      (∀ u, asksFor u n .invalDone → (∀ w ∈ (u.die (dieOf n)).walks, w.stale = true → w.ctx ≠ u.ctxOn n) →
        ∃ t h, exec (.invalComplete n) u = .next t ∧ t.mem = u.mem ∧ t.slots = u.slots ∧ t.bow = u.bow ∧ t.stern = u.stern ∧
          (t.coreAt n).handler = some h ∧ h.req = none ∧ (t.coreAt n).ctx = (u.coreAt n).ctx ∧
          (∀ m, m ≠ n → { t.coreAt m with walkAns := (u.coreAt m).walkAns } = u.coreAt m) ∧ ∀ m, dieOf m = dieOf n → (t.coreAt m).walkAns = []) ∧
      (∀ u, asksFor u n .invalDone → ∀ w ∈ (u.die (dieOf n)).walks, w.stale = true → w.ctx = u.ctxOn n → exec (.invalComplete n) u = .next u)) ∧
  ((∀ (s : State) (n : CoreId) (v : Dw) (u : UnitInfo), asksFor s n (.cpyres v) → (s.coreAt n).unit = some u → (s.coreAt n).engineEntries < 64 →
      ∃ t h k, exec (.cpyres n v) s = .next t ∧ OneCore n s t ∧ (t.coreAt n).handler = some h ∧ h.req = none ∧
        (t.coreAt n).copies = (s.coreAt n).copies ++ [k] ∧ k.recVa = v ∧ k.code = 0x4B ∧ k.op = none ∧ k.owner = u.serial) ∧
    (∀ (s : State) (n : CoreId) (v : Dw), asksFor s n (.save v) → ∃ t h, exec (.save n v) s = .next t ∧ OneCore n s t ∧ (t.coreAt n).handler = some h ∧
      h.saveWritten = true ∧ h.req = none) ∧
    (∀ (s : State) (n : CoreId) (w : Option Dw) (h : Handler), (s.coreAt n).handler = some h → h.req = some (.fdata w) →
      let i := (s.coreAt n).fidx
      let lim := if h.saveWritten then 29439 else 4095
      ∃ t g, exec (.fdata n w) s = .next t ∧ OneCore n s t ∧ (t.coreAt n).handler = some g ∧ g.req = none ∧ (t.coreAt n).fidx = i + 1 ∧ g.saved = h.saved ∧
        (∀ v, w = some v → i ≤ lim → g.writes = h.writes ++ [(i, v)]) ∧ (w = none ∨ lim < i → g.writes = h.writes)) ∧
    (∀ (s : State) (n : CoreId) (v : Dw) (rep hpa spa m : Nat), asksFor s n (.svreq v) → s.replyTr n = .ok rep →
      let u := s.homeStore rep (leBytes 0 8)
      serviceRing u n hpa m → u.svTr n needWr (ringSlotVa (u.recAt hpa) (recU (u.recAt hpa) 0 64)) 8 = .ok spa →
      (ringFull (u.recAt hpa) m = true → ∃ t, exec (.svreq n v) s = .next t ∧ asksFor t n (.svfull v m) ∧ t.mem = u.mem ∧
        t.outs = u.outs ++ [.notice (dieOf n) 3 (BitVec.ofNat 64 hpa)]) ∧
      (ringFull (u.recAt hpa) m = false → ∃ t, exec (.svreq n v) s = .next t ∧ asksFor t n .reply ∧
        let size := 16 * recU (u.recAt hpa) 136 16
        let seq := (recU (u.recAt hpa) 0 64 + 1) % 2 ^ 64
        (MemInv s → s.hitsSlot rep 8 = false → s.hitsSlot hpa 8 = false → s.hitsSlot spa size = false → apart rep 8 hpa 8 → apart rep 8 spa size →
          apart hpa 8 spa size → 32 ≤ size →
          bytesValue t.mem rep 8 = 0 ∧ bytesValue t.mem hpa 8 = seq ∧ bytesValue t.mem spa 8 = seq ∧ bytesValue t.mem (spa + 12) 4 = 2 ∧
          bytesValue t.mem (spa + 16) 8 = v.toNat ∧ bytesValue t.mem (spa + 24) 8 = n.val))) ∧
    (∀ (s : State) (n : CoreId) (v : Dw) (m hpa k spa : Nat), asksFor s n (.svfull v m) → serviceRing s n hpa k → ringFull (s.recAt hpa) k = true →
      s.svTr n needWr (ringSlotVa (s.recAt hpa) (recU (s.recAt hpa) 0 64)) 8 = .ok spa → exec (.svreq n v) s = .next s) ∧
    (∀ (s : State) (n : CoreId) (h : Handler) (pa : Nat), (s.coreAt n).handler = some h → h.req = some .reply → s.replyTr n = .ok pa →
      s.valueAt pa 8 ≠ 0 → ∃ t g, exec (.svreqReply n 0) s = .next t ∧ OneCore n s t ∧ (t.coreAt n).handler = some g ∧ g.req = none ∧
        (t.coreAt n).svreply.toNat = s.valueAt pa 8) ∧
    (∀ (s : State) (n : CoreId) (h : Handler) (pa : Nat), (s.coreAt n).handler = some h → h.req = some .reply → s.replyTr n = .ok pa →
      s.valueAt pa 8 = 0 → exec (.svreqReply n 0) s = .next s))

/-! ## Operations performed, slots, walks and copies -/

namespace Sys2Proof.Spec

open Machine

/-- The value of a load of size bytes (R164). -/
def loadInt (m : List Host.Cell) (pa size : Nat) (sext : Bool) : Int :=
  let u := bytesValue m pa size
  if sext = true ∧ 2 ^ (8 * size - 1) ≤ u then (u : Int) - 2 ^ (8 * size) else u

/-- Memory holds the bytes from an address on, and every other byte as before. -/
def wrote (s t : State) (pa : Nat) (bytes : List Byte) : Prop :=
  ∀ a, memRead t.mem a = if pa ≤ a ∧ a < pa + bytes.length then bytes.getD (a - pa) 0 else memRead s.mem a

/-- No live slot stands in the bytes or has them in its region. -/
def noSlotAt (s : State) (pa n : Nat) : Prop :=
  ∀ x ∈ s.slots, overlaps pa n x.pa 16 = false ∧ overlaps pa n x.base (64 * x.len64) = false

/-- The operation id of core n belongs to the unit on it and may take its next step. -/
def mayPerform (s : State) (n : CoreId) (id : Nat) (o : MemOp) : Prop :=
  (s.coreAt n).op? id = some o ∧ s.mayStep n o = true ∧ ∃ u, (s.coreAt n).unit = some u ∧ u.serial = o.owner

/-- Where the operation's home is on the other die, its answer comes over the bridge now: the core's die is not cut, and no answer of a cut home stands on
the bridge (R386, R387). -/
def mayReturn (s : State) (n : CoreId) (o : MemOp) : Prop := State.overBridge n o = true → (s.die (dieOf n)).snap = none ∧ o.reply = none

/-- The new value of an atomic on w bits, none where AMOCAS finds another value (R174). -/
def amoSpec (w : Nat) (fn : BitVec 3) (old c t : BitVec w) : Option (BitVec w) :=
  match fn with
  | 0 => some (BitVec.ofNat w (old.toNat + c.toNat))
  | 1 => some (if old.toInt ≤ c.toInt then old else c)
  | 2 => some (if old.toInt ≤ c.toInt then c else old)
  | 3 => some (BitVec.ofNat w (old.toNat &&& c.toNat))
  | 4 => some (BitVec.ofNat w (old.toNat ||| c.toNat))
  | 5 => some (BitVec.ofNat w (old.toNat ^^^ c.toNat))
  | 6 => some c
  | 7 => if old = t then some c else none

/-- The bytes that an atomic of the given bytes leaves at its place, none where it writes nothing (R174). -/
def amoBytes (m : List Host.Cell) (pa size : Nat) (fn : BitVec 3) (c t : Dw) : Option (List Byte) :=
  (amoSpec (8 * size) fn (BitVec.ofNat (8 * size) (bytesValue m pa size)) (BitVec.ofNat (8 * size) c.toNat) (BitVec.ofNat (8 * size) t.toNat)).map
    fun v => leBytes v.toNat size

/-- How many of the n bytes from a on lie in the m bytes from b on. -/
def inRegion (a n b m : Nat) : Nat := min (a + n) (b + m) - max a b

/-- The bytes of a write that a slot counts: those in its region, of a guarded one those in the new half, and none while it is closed (R71, R79, R80). -/
def countedOf (x : Slot) (pa n : Nat) : Nat :=
  if x.kind = 4 then (if x.closed then 0 else inRegion pa n (x.base + (if x.phase then 0 else 32 * x.len64)) (32 * x.len64))
  else inRegion pa n x.base (64 * x.len64)

/-- The state once the flits of an operation that reaches the other die are counted (R384). -/
def flits (s : State) (n : CoreId) (o : MemOp) : State :=
  if State.overBridge n o = true then (s.crosses (dieOf n)).crosses (dieOf n).other else s

/-- The operation has left the core's list, and its stream's performed counter has risen by one. -/
def counted (s t : State) (n : CoreId) (id : Nat) (o : MemOp) : Prop :=
  (t.coreAt n).op? id = none ∧ (t.coreAt n).ctx.osprf = (s.coreAt n).ctx.osprf.set o.os.toFin ((s.coreAt n).ctx.osprf.get o.os.toFin + 1)

/-- What an operation brings stands at its result in flight. -/
def brings (s t : State) (n : CoreId) (id : Nat) (v : Line) (err : Option SeatCause) : Prop :=
  (t.coreAt n).ctx.inflight = (s.coreAt n).ctx.inflight.map fun r =>
    if r.op = id ∧ r.ready = false then { r with val := v, ready := true, err := err } else r

/-- The A seat of the running unit u stands at its ASET or AFREE o, the one of the core that its home has still to answer. -/
def asksHome (s : State) (n : CoreId) (u : UnitInfo) (o : MemOp) : Prop :=
  (s.coreAt n).ctx.await = some (.answer o.id) ∧ (s.coreAt n).unit = some u ∧ u.serial = o.owner ∧ mayPerform s n o.id o ∧
  ∀ e ∈ (s.coreAt n).ops, (∃ a b c d, e.kind = .aset a b c d) ∨ (∃ a, e.kind = .afree a) → e.id = o.id

/-- The answered word is done: the A seat goes on behind it. -/
def goesOn (s t : State) (n : CoreId) (o : MemOp) : Prop :=
  (t.coreAt n).ctx.await = none ∧ counted s t n o.id o ∧ (((s.coreAt n).ctx.seat .a).loop = none → ((s.coreAt n).ctx.seat .a).dslots = 0 →
    ((t.coreAt n).ctx.seat .a).pc = ((s.coreAt n).ctx.seat .a).pc + 4)

end Sys2Proof.Spec

/-- R6, R58, R59, R71, R72, R164, R165, R166, R174: a store writes exactly its bytes at its home, a STV each of its 64-byte blocks, and then counts as
performed; an atomic writes what its table gives there, and its old value, sign-extended, comes to its result in flight; a load, where no live slot is met,
brings the sign- or zero-extended bytes of its address to its result in flight and changes no memory, or a "data" error where a block is poisoned; an LDV
whose blocks are all read, none of them poisoned as it was read, lands its queue entry. Each performed operation leaves the list and counts in its stream.
A store into the region of one live slot counts its bytes there; the one that reaches the total flips the phase, clears the count, sets ovr where it goes
beyond, and, where the slot has no action, releases every AWAIT that waits there. -/
def Obligations.OperationsPerformed : Prop :=
  (∀ (s : State) (n : CoreId) (id : Nat) (o : MemOp) (pa : Nat) (bytes : List Byte), mayPerform s n id o → o.kind = .store pa bytes → 0 ∉ o.done →
    s.hitsSlot pa bytes.length = false → MemInv s → ∃ t, exec (.homeWrite (.seat n id 0)) s = .next t ∧ wrote s t pa bytes) ∧
  (∀ (s : State) (n : CoreId) (id blk : Nat) (o : MemOp) (blocks : List Nat) (data : Line) (pa : Nat), mayPerform s n id o → o.kind = .stv blocks data →
    blocks[blk]? = some pa → blk ∉ o.done → s.hitsSlot pa 64 = false → MemInv s →
    ∃ t, exec (.homeWrite (.seat n id blk)) s = .next t ∧ wrote s t pa ((List.range 64).map fun j => data.extractLsb' (512 * blk + 8 * j) 8)) ∧
  (∀ (s : State) (n : CoreId) (id : Nat) (o : MemOp) (pa : Nat) (w64 : Bool) (fn : BitVec 3) (c u : Dw) (d : BitVec 5), mayPerform s n id o →
    o.kind = .amo pa w64 fn c u d → 0 ∉ o.done →
    let size := if w64 then 8 else 4
    s.hitsSlot pa size = false → s.poisoned pa size = false → MemInv s → ∃ t, exec (.homeWrite (.seat n id 0)) s = .next t ∧
      (t.coreAt n).op? id = some { o with done := [0], homed := true, buf := (BitVec.ofInt 64 (loadInt s.mem pa size true)).setWidth 8192 } ∧
      (∀ b, amoBytes s.mem pa size fn c u = some b → wrote s t pa b) ∧ (amoBytes s.mem pa size fn c u = none → t.mem = s.mem ∧ t.slots = s.slots)) ∧
  (∀ (s : State) (n : CoreId) (id : Nat) (o : MemOp) (pa : Nat) (bytes : List Byte) (b r : List Slot) (x : Slot), mayPerform s n id o →
    o.kind = .store pa bytes → 0 ∉ o.done → s.hitsSlot pa bytes.length = false → MemInv s → s.slots = b ++ x :: r →
    (∀ y ∈ b ++ r, y.pa ≠ x.pa ∧ overlaps pa bytes.length y.base (64 * y.len64) = false) → overlaps pa bytes.length x.base (64 * x.len64) = true →
    (x.kind = 4 → x.dline = BitVec.allOnes 64 ∨ (s.die ((homeDie x.pa).getD .bow)).time < x.dline.toNat) →
    let k := countedOf x pa bytes.length
    (k = 0 ∨ x.arrived.toNat + k < x.expect.toNat → ∃ t y, exec (.homeWrite (.seat n id 0)) s = .next t ∧ wrote s t pa bytes ∧ t.slot? x.pa = some y ∧
      y.arrived.toNat = x.arrived.toNat + k ∧ y = { x with arrived := y.arrived, wlog := y.wlog }) ∧
    (0 < k → x.expect.toNat ≤ x.arrived.toNat + k → ∃ t y, exec (.homeWrite (.seat n id 0)) s = .next t ∧ wrote s t pa bytes ∧ t.slot? x.pa = some y ∧
      y.phase = (!x.phase) ∧ y.arrived = 0 ∧ (y.ovr = true ↔ x.ovr = true ∨ x.expect.toNat < x.arrived.toNat + k) ∧
      (x.kind = 0 → ∀ m q, Waiter.await m ∈ x.waiters → (s.coreAt m).ctx.await = some (.await x.pa q true none) → (s.die (dieOf m)).snap = none →
        ∃ at_, (t.coreAt m).ctx.await = some (.await x.pa q true (some at_))))) ∧
  (∀ (s : State) (n : CoreId) (id : Nat) (o : MemOp), mayPerform s n id o → mayReturn s n o →
    ((∃ pa bytes, o.kind = .store pa bytes) ∨ ∃ blocks data, o.kind = .stv blocks data) → o.homed = true →
    ∃ t, exec (.operationPerformed n id) s = .next t ∧ OneCore n (flits s n o) t ∧ counted s t n id o) ∧
  (∀ (s : State) (n : CoreId) (id : Nat) (o : MemOp) (pa : Nat) (w64 : Bool) (fn : BitVec 3) (c u : Dw) (d : BitVec 5), mayPerform s n id o →
    mayReturn s n o → o.kind = .amo pa w64 fn c u d → o.homed = true → o.bad = [] →
    ∃ t, exec (.operationPerformed n id) s = .next t ∧ OneCore n (flits s n o) t ∧ counted s t n id o ∧ brings s t n id o.buf none) ∧
  (∀ (s : State) (n : CoreId) (id : Nat) (o : MemOp) (pa size : Nat) (sext : Bool) (d : BitVec 5), mayPerform s n id o → mayReturn s n o →
    o.kind = .load pa size sext d →
    (s.poisoned pa size = false → noSlotAt s pa size →
      ∃ t, exec (.operationPerformed n id) s = .next t ∧ OneCore n (flits s n o) t ∧ counted s t n id o ∧
        brings s t n id ((BitVec.ofInt 64 (loadInt s.mem pa size sext)).setWidth 8192) none) ∧
    (s.poisoned pa size = true → ∃ t v, exec (.operationPerformed n id) s = .next t ∧ OneCore n (flits s n o) t ∧ counted s t n id o ∧
      brings s t n id v (some { cause := .data, tval := o.va, tpc := o.pc, issued := true }))) ∧
  (∀ (s : State) (n : CoreId) (id : Nat) (o : MemOp) (blocks : List Nat) (va : Dw) (q : BitVec 3) (tk : Nat), mayPerform s n id o → mayReturn s n o →
    o.kind = .ldv blocks va q tk → o.homed = true → o.bad = [] →
    ∃ t, exec (.queueEntryLand n q id) s = .next t ∧ OneCore n s t ∧ counted s t n id o ∧
      (t.coreAt n).ctx.queue q = { (s.coreAt n).ctx.queue q with ents := ((s.coreAt n).ctx.queue q).ents.map fun e =>
        if e.ticket = tk then { e with landed := true, data := o.buf, poison := none } else e })

/-- R19, R72, R75, R79, R177, R178, R196: the home's answers and wakes. ASET makes its slot live with the record's fields; AFREE of a live slot without
waiters retires it, with waiters it traps "slot busy", and one of no live slot traps "slot state"; at its deadline a guarded slot closes and counts the
miss; polls that see a new phase, and woken watches, let their waiters go on.
R52 to R54, R92, R360, R368, R400, R416: a walker takes the oldest waiting miss; a walk that ends hands its leaf or its fault to every waiter and caches
the leaf's page unless the page was dropped meanwhile, and one whose table the partition may not reach freezes the waiting masters; a send whose sequence
the peer holds leaves as its region stood at the flip, and the peer stores the sequence in the session's entry.
That a table entry which names no location stops the machine is the model's choice (log 74). -/
def Obligations.SlotEvents : Prop :=
  ((∀ (s : State) (n : CoreId) (u : UnitInfo) (o : MemOp) (rec_ slot rb pa : Nat) (va : Dw), asksHome s n u o → o.kind = .aset rec_ slot rb va →
      s.poisoned rec_ 64 = false →
      let r := s.recAt rec_
      translate s n u.ctx u.part (.seat .a) false needRd false (r.extractLsb' 128 64) 1 = .ok pa →
      (∀ q, s.asetCheck n u.ctx (.seat .a) slot pa (r.extractLsb' 128 64) r = some q → ∃ t c, exec (.homeAnswer n) s = .next t ∧ t.slots = s.slots ∧
        t.mem = s.mem ∧ ((t.coreAt n).ctx.seat .a).cause = some c ∧ c.cause = q ∧ (q.tvalStated = true → c.tval = o.va)) ∧
      (s.asetCheck n u.ctx (.seat .a) slot pa (r.extractLsb' 128 64) r = none →
      ∃ t e, exec (.homeAnswer n) s = .next t ∧ t.slots = s.slots ++ [e] ∧ e.pa = slot ∧ e.expect = r.extractLsb' 0 32 ∧ e.kind = r.extractLsb' 32 3 ∧
        e.arg = r.extractLsb' 64 32 ∧ e.base = pa ∧ e.len64 = (r.extractLsb' 192 25).toNat ∧ e.arrived = 0 ∧ e.phase = false ∧ e.waiters = [] ∧
        e.closed = false ∧ e.ovr = false ∧ e.late = 0 ∧ (e.kind ≠ 4 → e.dline = BitVec.allOnes 64) ∧
        (e.kind = 4 → r.extractLsb' 256 64 ≠ 0 → e.dline = r.extractLsb' 256 64) ∧ goesOn s t n o)) ∧
    (∀ (s : State) (n : CoreId) (u : UnitInfo) (o : MemOp) (slot : Nat), asksHome s n u o → o.kind = .afree slot →
      (∀ x, s.slot? slot = some x → x.waiters = [] → ∃ t, exec (.homeAnswer n) s = .next t ∧ t.slots = s.slots.filter (fun u => decide (u.pa ≠ slot)) ∧
        goesOn s t n o ∧ (MemInv s → wrote s t slot (leBytes 0 16))) ∧
      (∀ x, s.slot? slot = some x → x.waiters ≠ [] → ∃ t q, exec (.homeAnswer n) s = .next t ∧ t.slots = s.slots ∧
        ((t.coreAt n).ctx.seat .a).cause = some q ∧ q.cause = .slotBusy ∧ q.tval = o.va) ∧
      (s.slot? slot = none → ∃ t q, exec (.homeAnswer n) s = .next t ∧ t.slots = s.slots ∧
        ((t.coreAt n).ctx.seat .a).cause = some q ∧ q.cause = .slotState ∧ q.tval = o.va)) ∧
    (∀ (s : State) (pa : Nat) (x : Slot), s.slot? pa = some x → x.kind = 4 → x.dline ≠ BitVec.allOnes 64 →
      x.dline.toNat ≤ (s.die ((homeDie pa).getD .bow)).time → (s.die ((homeDie pa).getD .bow)).snap = none →
      let p := (x.arg.extractLsb' 13 18).toNat * 4096
      let k := if p = 0 then 1 else ((s.die ((homeDie pa).getD .bow)).time - x.dline.toNat) / p + 1
      ∃ t y, exec (.guardedDeadline pa) s = .next t ∧ t.slot? pa = some y ∧ t.mem = s.mem ∧ y.arrived = 0 ∧ y.closed = true ∧ y.late = x.late + BitVec.ofNat 32 k ∧
        y.phase = x.phase ∧ y.waiters = x.waiters ∧ y.expect = x.expect ∧ y.dline = (if p = 0 then BitVec.allOnes 64 else x.dline + BitVec.ofNat 64 (k * p))) ∧
    (∀ (s : State) (n : CoreId) (pa : Nat) (ph : Bool) (x : Slot), (s.coreAt n).ctx.await = some (.await pa ph true none) → s.slot? pa = some x → x.phase ≠ ph →
      ∃ t at_, exec (.slotPoll (.await n)) s = .next t ∧ (t.coreAt n).ctx.await = some (.await pa ph true (some at_)) ∧ t.slots = s.slots) ∧
    (∀ (s : State) (d : DieId) (e : Nat) (k : Cox) (x : Slot), ((s.die d).cox.find? fun k => decide (k.e = e)) = some k → k.polling = true →
      s.slot? k.islot = some x → x.phase ≠ k.seen → ∃ t j, exec (.coxSlotPoll d e) s = .next t ∧
        ((t.die d).cox.find? fun k => decide (k.e = e)) = some j ∧ j.iarr = true ∧ j.seen = x.phase ∧ t.mem = s.mem ∧ t.slots = s.slots) ∧
    (∀ (s : State) (n : CoreId) (op pa : Nat), (s.coreAt n).ctx.await = some (.line op pa true) →
      ∃ t, exec (.waitaWake n) s = .next t ∧ (t.coreAt n).ctx.await = none ∧ t.slots = s.slots)) ∧
  ((∀ (s : State) (d : DieId) (b r : List Walk) (w : Walk), (s.die d).walks = b ++ w :: r → (∀ x ∈ b, x.started = true) → w.started = false →
      ((s.die d).walks.filter fun x => x.started).length < 32 →
      ∃ t, exec (.pageWalkStart d) s = .next t ∧ (t.die d).walks = b ++ { w with started := true } :: r ∧ t.mem = s.mem ∧ t.cores = s.cores) ∧
    (∀ (s : State) (d : DieId) (k : Nat) (w : Walk), (s.die d).walks[k]? = some w → w.started = true →
      let reach := fun pa => match s.ownerOf d w.ctx with | some p => s.mayReach p pa | none => false
      let ends := walkTables s.dwAt reach d (w.page.toNat * 4096) 5 ((s.die d).contexts.get w.ctx).ptroot.toNat
      (∀ e, ends = .leaf e → w.stale = false → ∃ t x, exec (.pageWalkComplete d k) s = .next t ∧
        (t.die d).walks = (s.die d).walks.eraseIdx k ∧ (t.die d).tlb = (s.die d).tlb ++ [x] ∧ x.ctx = w.ctx ∧ x.leaf = e ∧ x.size = pageBytes (pteSz e) ∧
        t.mem = s.mem ∧ ∀ a ∈ w.waiters, (a.2, w.page, .leaf e) ∈ (t.coreAt a.1).walkAns) ∧
      (∀ e, ends = .leaf e → w.stale = true → ∃ t, exec (.pageWalkComplete d k) s = .next t ∧
        (t.die d).walks = (s.die d).walks.eraseIdx k ∧ (t.die d).tlb = (s.die d).tlb ∧
        t.mem = s.mem ∧ ∀ a ∈ w.waiters, (a.2, w.page, .leaf e) ∈ (t.coreAt a.1).walkAns) ∧
      (∀ c, ends = .fault c → ∃ t, exec (.pageWalkComplete d k) s = .next t ∧
        (t.die d).walks = (s.die d).walks.eraseIdx k ∧ (t.die d).tlb = (s.die d).tlb ∧ t.mem = s.mem ∧
        ∀ a ∈ w.waiters, (a.2, w.page, .fault c) ∈ (t.coreAt a.1).walkAns) ∧
      (∀ pa, ends = .breaks pa → ∃ t, exec (.pageWalkComplete d k) s = .next t ∧
        (t.die d).walks = (s.die d).walks.eraseIdx k ∧ (t.die d).tlb = (s.die d).tlb ∧ t.mem = s.mem ∧
        ∀ a ∈ w.waiters, match a.2 with | .copy _ => (t.coreAt a.1).cpFrozen = true | _ => (t.coreAt a.1).frozen = some .master) ∧
      (∀ pa, ends = .noLoc pa → exec (.pageWalkComplete d k) s = .fault (.noLocation pa))) ∧
    (∀ (s : State) (d : DieId) (sid : Nat) (x : Send) (z : Session), ((s.die d).sends.find? fun x => decide (x.sid = sid) && x.mirrored) = some x →
      s.maySend d sid = true → (s.die d).session? sid = some z →
      ∃ t, exec (.mirrorAck d sid) s = .next t ∧ (t.die d).sends = (s.die d).sends.erase x ∧ t.mem = s.mem ∧
        t.outs = s.outs ++ [.chunk d sid z.raddr z.rjob z.rpid z.rod (leBytes (sid % 8192 + x.seq.toNat * 2 ^ 32) 8 ++ leBytes x.time 8 ++ x.bytes)]) ∧
    (∀ (s : State) (d : DieId) (sid : Nat) (q : Word), (s.die d).start = .running → (s.die d).snap = none → (s.die d.other).snap = none →
      (∃ x ∈ (s.die d.other).sends, x.sid = sid ∧ x.seq = q ∧ x.asked = true ∧ x.mirrored = false) →
      ∃ t, exec (.lastsentMirrorWrite d sid q) s = .next t ∧ (t.die d).lastSent sid = q ∧
        (∀ z, (s.die d).session? sid = some z → (t.die d).session? sid = some { z with lastsent := q }) ∧
        (∀ x ∈ (t.die d.other).sends, x.sid = sid → x.seq = q → x.mirrored = true) ∧ t.mem = s.mem))

/-- R13, R74, R184 to R187, R190, R332, R333, R335: a copy that must suspend records done, st 2 and its cause, and queues the fault, with its record's
address and the cause, for the C seat of its unit, unless a pre-emption suspends it; a record under a live slot is not written and gives cause 7. Each write
of a loaded chunk puts its bytes at their place; a copy whose writes are performed records done, st 3 and the count of zeroed blocks, its entry is free and
its operation performed; the engine takes a spilled command, and a latched one whose unit has left, and drops a cancelled one; a latched command is written
again, and brings "spill fault" to the supervisor handler where the write faults; an idle chain starts its next entry, counts an entry that has ended,
follows its link, and ends at the tail, or between entries where it is cancelled; a full ring gets a zeroed segment of twice its slots, and the old segment
returns to the pool once its last cursor has left it.
What a suspended copy writes, the latched command of a unit that has left, the end of a cancelled chain, and where a segment comes from are the model's
reading (log 24, 27, 45). -/
def Obligations.CopyAndRingEvents : Prop :=
  (∀ (s : State) (n : CoreId) (k : Copy), (s.coreAt n).copy? k.id = some k → (s.coreAt n).mustSuspend k = true → (s.die (dieOf n).other).snap = none →
    MemInv s →
    let under : Prop := k.st ≠ .fetch ∧ s.hitsSlot k.recPa 64 = true
    ∃ t j cause, exec (.copySuspend n k.id) s = .next t ∧ (t.coreAt n).copy? k.id = some j ∧ j.st = .suspended ∧ j.cause = cause ∧ j.done = k.done ∧
      (under → cause = 7) ∧ (¬under → cause = if k.fault = 0 then 10 else k.fault) ∧
      (∀ u, (s.coreAt n).unit = some u → u.serial = k.owner →
        (t.coreAt n).efq = (s.coreAt n).efq ++ (if cause = 10 then [] else [{ tval := k.recVa, cause := cause }])) ∧
      (k.st = .fetch ∨ under → t.mem = s.mem) ∧
      (k.st ≠ .fetch → ¬under → bytesValue t.mem (k.recPa + 48) 4 = k.done % 2 ^ 32 ∧
        (memRead t.mem (k.recPa + 56)).toNat = ((k.record.extractLsb' 448 2).toNat + 2 * 4 + cause * 16) % 256 ∧
        ∀ a, (a < k.recPa + 48 ∨ k.recPa + 52 ≤ a) → a ≠ k.recPa + 56 → memRead t.mem a = memRead s.mem a)) ∧
  (∀ (s : State) (n : CoreId) (k : Copy), (s.coreAt n).copy? k.id = some k → (s.coreAt n).copyDone k = true → (s.die (dieOf n).other).snap = none →
    s.hitsSlot k.recPa 64 = false → MemInv s →
    ∃ t, exec (.copyComplete n k.id) s = .next t ∧ (t.coreAt n).copy? k.id = none ∧
      (∀ id o, k.op = some id → k.resumeOf = [] → (s.coreAt n).op? id = some o → (∀ m, m ≠ n → (s.coreAt m).op? id = none) → (t.coreAt n).op? id = none) ∧
      bytesValue t.mem (k.recPa + 48) 4 = k.done % 2 ^ 32 ∧
      (memRead t.mem (k.recPa + 56)).toNat = (memRead s.mem (k.recPa + 56)).toNat % 4 + 3 * 4 ∧ (memRead t.mem (k.recPa + 57)).toNat = k.zcnt % 256 ∧
      ∀ a, (a < k.recPa + 48 ∨ k.recPa + 52 ≤ a) → a ≠ k.recPa + 56 → a ≠ k.recPa + 57 → memRead t.mem a = memRead s.mem a) ∧
  (∀ (s : State) (n : CoreId) (k : Copy) (w i j : Nat) (a : ChunkWrite), (s.coreAt n).copy? k.id = some k → (s.coreAt n).cpFrozen = false →
    k.pending[w]? = some (i, j, a) → k.mayWrite w = true → k.cancel = false → k.frozen = false → (s.die (dieOf n)).snap = none →
    (s.die (dieOf n).other).snap = none → (∀ x ∈ k.loads, ∀ b ∈ x.chunk, s.hitsSlot b.pa b.bytes.length = false) → MemInv s →
    ∃ t y, exec (.homeWrite (.copy n k.id w)) s = .next t ∧ wrote s t a.pa a.bytes ∧ (t.coreAt n).copy? k.id = some y ∧ k.done ≤ y.done) ∧
  (∀ (s : State) (n : CoreId) (k : Copy) (hpa cpa : Nat), ((s.coreAt n).copies.find? fun k => k.spilled) = some k → (s.coreAt n).engineEntries < 64 →
    translateNowFor s n k.ctx true needRw false ((s.contextOf n k.ctx).spill + BitVec.ofNat 64 (64 * dieCore n)) 64 = .ok hpa →
    translateNowFor s n k.ctx true needRw false (cursorVa (s.recAt hpa) 0) 8 = .ok cpa → s.hitsSlot cpa 8 = false → MemInv s →
    ∃ t, exec (.spillCommandTake n) s = .next t ∧ (∀ j ∈ (t.coreAt n).copies, j.id = k.id → j.spilled = false) ∧
      wrote s t cpa (leBytes (s.valueAt cpa 8 + 1) 8)) ∧
  (∀ (s : State) (n : CoreId) (k : Copy), (∀ j ∈ (s.coreAt n).copies, j.spilled = false) → (s.coreAt n).latch = some k →
    (k.cancel = false → (∀ u, (s.coreAt n).unit = some u → u.serial ≠ k.owner) → (s.coreAt n).engineEntries < 64 →
      ∃ t, exec (.spillCommandTake n) s = .next t ∧ OneCore n s t ∧
        t.coreAt n = { s.coreAt n with latch := none, copies := (s.coreAt n).copies ++ [{ k with spilled := false }] }) ∧
    (k.cancel = true → ∃ t, exec (.spillCommandTake n) s = .next t ∧ (t.coreAt n).latch = none ∧ t.mem = s.mem)) ∧
  (∀ (s : State) (n : CoreId) (k : Copy) (u : UnitInfo), (s.coreAt n).handler = none → (s.coreAt n).unit = some u → (s.coreAt n).frozen = none →
    (s.coreAt n).latch = some k →
    (∀ os pm, ∃ x, s.spillWrite n k os pm = .written x) → ∃ t, exec (.spillFault n) s = .next t ∧ (t.coreAt n).latch = none ∧ k ∈ (t.coreAt n).copies) ∧
  (∀ (s : State) (n : CoreId) (k : Copy) (u : UnitInfo), (s.coreAt n).handler = none → (s.coreAt n).unit = some u → (s.coreAt n).frozen = none →
    (s.coreAt n).latch = some k →
    (∀ os pm, s.spillWrite n k os pm = .faults) → supEntry s n ≠ 0 → ∃ t h, exec (.spillFault n) s = .next t ∧ OneCore n (s.withdrawAwait n) t ∧
      (t.coreAt n).handler = some h ∧ h.cause = .spillFault ∧ h.tval = k.recVa ∧ h.sup = true ∧ ((t.coreAt n).ctx.seat .c).pc = supEntry s n ∧
      (t.coreAt n).latch = some k) ∧
  (∀ (s : State) (n : CoreId) (h : Chain), (s.coreAt n).chains = [h] → h.cur = none → h.cancel = true → (s.coreAt n).cpFrozen = false →
    ∃ t, exec (.chainAdvance n) s = .next t ∧ OneCore n s t ∧ (t.coreAt n).chains = []) ∧
  (∀ (s : State) (n : CoreId) (h : Chain) (id : Nat), (s.coreAt n).chains = [h] → h.cur = some id → (∀ m, (s.coreAt m).copy? id = none) →
    (s.coreAt n).cpFrozen = false → noSlotAt s h.recPa 64 → MemInv s → ∃ t, exec (.chainAdvance n) s = .next t ∧
      wrote s t (h.recPa + 24) (leBytes ((bytesValue s.mem (h.recPa + 24) 4 + 1) % 2 ^ 32) 4) ∧ (t.coreAt n).chains = [{ h with cur := none, linking := true }]) ∧
  (∀ (s : State) (n : CoreId) (h : Chain), (s.coreAt n).chains = [h] → h.cur = none → h.cancel = false → h.linking = false →
    (s.coreAt n).cpFrozen = false → (s.coreAt n).engineEntries < 64 → (∀ k ∈ (s.coreAt n).copies, k.spilled = false) → ∃ t k, exec (.chainAdvance n) s = .next t ∧ OneCore n s t ∧
      (t.coreAt n).copies = (s.coreAt n).copies ++ [k] ∧ k.recVa = h.entry ∧ k.code = s.byteAt (h.recPa + 17) ∧ k.chained = true ∧ k.st = .fetch ∧
      (t.coreAt n).chains = [{ h with cur := some k.id }]) ∧
  (∀ (s : State) (n : CoreId) (h : Chain) (pa : Nat), (s.coreAt n).chains = [h] → h.cur = none → h.cancel = false → h.linking = true →
    (s.coreAt n).cpFrozen = false → noSlotAt s h.recPa 64 → translateNowFor s n h.ctx false needRd false (h.entry + 64) 8 = .ok pa → MemInv s →
    (s.valueAt pa 8 ≠ 0 → ∃ t, exec (.chainAdvance n) s = .next t ∧ wrote s t h.recPa (leBytes (s.valueAt pa 8) 8) ∧
      (t.coreAt n).chains = [{ h with linking := false, stuck := false, entry := BitVec.ofNat 64 (s.valueAt pa 8) }]) ∧
    (s.valueAt pa 8 = 0 → s.valueAt (h.recPa + 8) 8 = h.entry.toNat → ∃ t, exec (.chainAdvance n) s = .next t ∧ (t.coreAt n).chains = [] ∧
      wrote s t h.recPa (leBytes 0 8 ++ leBytes 0 8 ++ [memRead s.mem (h.recPa + 16) &&& 0xFE]))) ∧
  (∀ (s : State) (n : CoreId) (f : FullRing) (off : Nat), s.fullRing n = some f → s.hitsSlot f.hdr 64 = false → MemInv s →
    let h := s.recAt f.hdr
    let ls := (h.extractLsb' 128 8).toNat + 1
    let len := 2 ^ ls * (16 * (h.extractLsb' 136 16).toNat)
    let pool := s.part f.part (dieOf n)
    h.extractLsb' 256 64 = 0 → ls ≤ 24 → poolPlace pool.segUsed pool.segSize len = some off →
    ∃ t l, exec (.ringSegmentLink n) s = .next t ∧ t.links = s.links ++ [l] ∧ l.hdr = f.hdr ∧
      (t.part f.part (dieOf n)).segUsed = pool.segUsed ++ [(off, len)] ∧
      bytesValue t.mem (f.hdr + 32) 8 = (pool.segBase.toNat + off) % 2 ^ 64 ∧ bytesValue t.mem (f.hdr + 40) 8 = ls ∧
      bytesValue t.mem (f.hdr + 48) 8 = (h.extractLsb' 0 64).toNat ∧
      (s.hitsSlot (hbmBase (dieOf n) + (pool.segBase.toNat + off)) len = false → ∀ a, hbmBase (dieOf n) + (pool.segBase.toNat + off) ≤ a →
        a < hbmBase (dieOf n) + (pool.segBase.toNat + off) + len → (a < f.hdr + 32 ∨ f.hdr + 56 ≤ a) → memRead t.mem a = 0)) ∧
  (∀ (s : State) (k : Nat) (l : SegLink), s.segmentDue k = some l → s.hitsSlot l.hdr 64 = false → MemInv s →
    let h := s.recAt l.hdr
    ∃ t, exec (.ringSegmentPoll k) s = .next t ∧ t.links = s.links.erase l ∧ bytesValue t.mem (l.hdr + 8) 8 = (h.extractLsb' 256 64).toNat ∧
      (memRead t.mem (l.hdr + 16)).toNat = (h.extractLsb' 320 8).toNat ∧ bytesValue t.mem (l.hdr + 32) 8 = 0 ∧
      ∀ u ∈ (t.part l.part (dieOf l.core)).segUsed, u.1 + (s.part l.part (dieOf l.core)).segBase.toNat ≠ (h.extractLsb' 64 64).toNat)

/-! ## Units, phases and stops -/

namespace Sys2Proof.Spec

open Machine

/-- The unit on core n has left it, and stands among those whose operations are still to be performed. -/
def left (t : State) (n : CoreId) (u : UnitInfo) (cancelled : Bool) : Prop :=
  (t.coreAt n).unit = none ∧ ∃ l ∈ (t.coreAt n).leaving, l.unit = u ∧ l.cancelled = cancelled ∧ l.fault = false ∧ l.status = 0

/-- The part of the entry state that every unit enters with, whether it starts or resumes (R16, R22): the format table of its kernel, the argument doublewords,
and everything else zero, empty, unbound or all-true as R16 lists it, each stream bound to sc28. -/
def entryRest (x : Ctx) (kn : Kernel) (arg : Nat → Dw) : Prop :=
  x.fmt = kn.ft ∧ (∀ i : Fin 32, x.a.get i = if 8 ≤ i.val ∧ i.val < 16 then arg (i.val - 8) else 0) ∧
  (∀ i : Fin 16, x.x.get i = (if 8 ≤ i.val then arg (i.val - 8) else 0) ∧ x.m.get i = if 8 ≤ i.val then arg (i.val - 8) else 0) ∧
  (∀ i, x.v.get i = 0) ∧ (∀ i : Fin 8, x.p.get i = if i = 0 then BitVec.allOnes 256 else 0) ∧ (∀ i, x.l.get i = 0) ∧ (∀ i, x.k.get i = 0) ∧ x.f = 0 ∧
  (∀ i, (x.queues.get i).dir = 0 ∧ (x.queues.get i).ents = [] ∧ (x.queues.get i).pat = false) ∧
  (∀ i, x.eng.front.get i = 0 ∧ x.eng.back.get i = 0) ∧ x.eng.opq = [] ∧ x.eng.running = false ∧ x.eng.kpos = 0 ∧ x.eng.dpos = 0 ∧ x.eng.dbusy = false ∧
  x.inflight = [] ∧ x.uhand = 0 ∧ x.park = none ∧ x.await = none ∧ (∀ i : Fin 4, (x.seat .a).osb.get i = 28) ∧
  ∀ q : SeatId, (x.seat q).dslots = 0 ∧ (x.seat q).dtaken = false ∧ (x.seat q).loop = none ∧ (x.seat q).rb = 0

/-- A seat stands at the entry of its section, active where the section has words (R16). -/
def atEntry (x : Ctx) (kn : Kernel) (q : SeatId) : Prop :=
  (x.seat q).pc = (kn.secs.get q.toFin).base ∧ (x.seat q).act = decide ((kn.secs.get q.toFin).words ≠ 0)

/-- The state in which the next unit of a task, taken from its queue, is placed. -/
def taken (s : State) (d : DieId) (i : Nat) (k : Task) (round : Bool) : State :=
  { s.takeTask d i k round with nextId := (s.takeTask d i k round).nextId + 1 }

end Sys2Proof.Spec

/-- R12, R15, R16, R19, R21, R22, R23, R24, R78, R150, R151, R319, R330: SPAWN's record becomes a launch of one unit at the tail of its queue, and one that may not
be pushed counts as a cancelled member with a fault; a quiescent PARK leaves its core as a parked record with the word behind its delay slots and the named
registers, or goes on where the slot has the phase; a placed unit stands in the entry state, a parked one in that state with its C seat where it parked, the
registers its record names, and its streams' counts; a unit whose operations are performed counts in its phase and launch; a waiting node takes a free task entry.
R12, R13, R313, R314, R316: a phase with nothing left to run ends: it leaves the die's list, its job counts it, and its record, one write of 64 bytes
where the command names a place that may be written, holds its status, its counts, its id, its tag and the device times.
Where its record or signal breaks protection its function is frozen and nothing is written (R307, R368).
What the record of a cancelled phase holds is the model's reading (log 36). -/
def Obligations.UnitEvents : Prop :=
  ((∀ (s : State) (n : CoreId) (id : Nat) (va : Dw) (u : UnitInfo) (deps : List Nat) (pa : Nat) (r : UnitRec), (s.coreAt n).spawnDue = some (id, va, u, deps) →
      (s.die (dieOf n)).snap = none → (s.die (dieOf n).other).snap = none →
      translateNow s n u.ctx u.part false needRd (decide (va.toNat % 64 ≠ 0)) va 64 = .ok pa → s.spawnRecord n u pa = some r →
      ∃ t x l, exec (.spawnPush n) s = .next t ∧ (t.die (dieOf n)).tasks = (s.die (dieOf n)).tasks ++ [x] ∧ x.kind = .one r (s.die (dieOf n)).lidNext ∧
        x.part = u.part ∧ x.ctx = u.ctx ∧ x.prio = u.prio ∧ x.dline = u.dline ∧ x.phid = u.phid ∧ x.jid = u.jid ∧
        (t.die (dieOf n)).launches = (s.die (dieOf n)).launches ++ [l] ∧ l.lid = (s.die (dieOf n)).lidNext ∧ l.total = 1 ∧ l.done = 0 ∧ l.phid = u.phid ∧
        (t.die (dieOf n)).lidNext = (if (s.die (dieOf n)).lidNext = 0xFFFFFFFF then 1 else (s.die (dieOf n)).lidNext + 1) ∧ t.mem = s.mem) ∧
    (∀ (s : State) (n : CoreId) (id : Nat) (va : Dw) (u : UnitInfo) (deps : List Nat) (p : Phase), (s.coreAt n).spawnDue = some (id, va, u, deps) →
      (s.die (dieOf n)).snap = none → (s.die (dieOf n)).phase? u.phid = some p →
      (∀ pa, translateNow s n u.ctx u.part false needRd (decide (va.toNat % 64 ≠ 0)) va 64 = .ok pa → s.spawnRecord n u pa = none) →
      (∀ pa, translateNow s n u.ctx u.part false needRd (decide (va.toNat % 64 ≠ 0)) va 64 ≠ .breaks pa) →
      ∃ t q, exec (.spawnPush n) s = .next t ∧ (t.die (dieOf n)).tasks = (s.die (dieOf n)).tasks ∧ (t.die (dieOf n)).phase? u.phid = some q ∧
        q.ucan = min (p.ucan + 1) (2 ^ 32 - 1) ∧ q.faults = min (p.faults + 1) (2 ^ 32 - 1) ∧ q.pushed = p.pushed + 1 ∧ q.pushedDone = p.pushedDone + 1 ∧
        q.alive = p.alive ∧ t.mem = s.mem) ∧
    (∀ (s : State) (n : CoreId) (p : ParkWait) (u : UnitInfo) (pa : Nat) (x : Slot), (s.coreAt n).ctx.park = some p → (s.coreAt n).unit = some u →
      s.running n = true → s.playing n = false → ((s.coreAt n).ctx.seat .c).dslots = 0 → u.cancelPending = false → s.quiescent n = true →
      translate s n u.ctx u.part (.seat .c) false needRd (decide (p.slotVa.toNat % 16 ≠ 0)) p.slotVa 16 = .ok pa → s.slot? pa = some x → x.part = u.part →
      x.poisoned = false →
      (x.phase ≠ decide (p.phase = 1) → p.polling = false → x.waiters.length < 65535 → ∃ t r y, exec (.parkRegister n) s = .next t ∧
        (t.coreAt n).unit = none ∧ t.parked = s.parked ++ [r] ∧ r.slot = pa ∧ r.record.cpc = p.pc + 12 ∧ r.record.argb = u.argb ∧ r.record.rmask = p.mask ∧
        r.record.lid = u.lid ∧ r.record.uidx = u.uidx ∧ r.record.phid = u.phid ∧ r.record.osc = (s.coreAt n).ctx.osiss ∧
        r.record.regs = ((List.range 32).filter fun i => p.mask.getLsbD i).map (fun i => (s.coreAt n).ctx.c.toArray.getD i 0) ∧
        t.slot? pa = some y ∧ y.waiters = x.waiters ++ [.parked r.id]) ∧
      (x.phase = decide (p.phase = 1) → ∃ t v, exec (.parkRegister n) s = .next t ∧ (t.coreAt n).unit = some v ∧ v.serial = u.serial ∧
        (t.coreAt n).ctx.park = none ∧ (t.coreAt n).ctx.c = (s.coreAt n).ctx.c ∧ t.parked = s.parked ∧ t.slots = s.slots)) ∧
    (∀ (s : State) (n : CoreId) (p : Fin 32) (i pa : Nat) (k : Task) (round : Bool) (kn : Kernel), s.coreFree n = true → s.heldFirst n = false →
      s.crewPart (crewOf n) = some p → s.candidate n p = some ((i, k), round) → (s.die (dieOf n)).crewTask k = false →
      ((taken s (dieOf n) i k round).die (dieOf n)).kernel? k.ctx k.kernel = some kn →
      let s' := taken s (dieOf n) i k round
      let v := (s.takeTask (dieOf n) i k round).unitInfo (dieOf n) k (s.takeTask (dieOf n) i k round).nextId
      translateNow s' n v.ctx v.part false needRd (decide (v.argb.toNat % 64 ≠ 0)) v.argb 64 = .ok pa → s'.poisoned pa 64 = false →
      let arg (j : Nat) : Dw := BitVec.ofNat 64 (leValue (s'.loadBytes v.acq (pa + 8 * j) 8))
      ∃ t u, exec (.unitPlace n) s = .next t ∧ (t.coreAt n).unit = some u ∧ u.lid = k.lid ∧ u.phid = k.phid ∧ u.prio = k.prio ∧ u.ctx = k.ctx ∧
        u.part = k.part ∧ u.uidx.toNat = k.first % 2 ^ 32 ∧ entryRest (t.coreAt n).ctx kn arg ∧ (∀ q, q ≠ .c → atEntry (t.coreAt n).ctx kn q) ∧
        ((∀ r, k.kind ≠ .cont r) → atEntry (t.coreAt n).ctx kn .c ∧ (∀ q, ((t.coreAt n).ctx.seat q).cause = none) ∧
          (∀ i : Fin 32, (t.coreAt n).ctx.c.get i = if i.val = 1 then u.argb else if i.val = 2 then u.uidx.setWidth 64 else if i.val = 3 then u.ucnt.setWidth 64
            else if 8 ≤ i.val ∧ i.val < 16 then arg (i.val - 8) else 0) ∧
          ∀ i, (t.coreAt n).ctx.osiss.get i = 0 ∧ (t.coreAt n).ctx.osprf.get i = 0) ∧
        (∀ r, k.kind = .cont r → ((t.coreAt n).ctx.seat .c).pc = r.cpc ∧ ((t.coreAt n).ctx.seat .c).act = true ∧
          (r.bad = none → ∀ q, ((t.coreAt n).ctx.seat q).cause = none) ∧
          (∀ i : Fin 32, r.rmask.getLsbD i.val = false → (t.coreAt n).ctx.c.get i = if i.val = 1 then r.argb else if i.val = 2 then r.uidx.setWidth 64
            else if i.val = 3 then r.ucnt.setWidth 64 else 0) ∧
          (∀ i : Fin 32, r.rmask.getLsbD i.val = true → i ≠ 0 → let j := ((List.range i.val).filter fun b => r.rmask.getLsbD b).length
            j < 16 → (t.coreAt n).ctx.c.get i = r.regs.getD j 0) ∧
          ∀ i, (t.coreAt n).ctx.osiss.get i = r.osc.get i ∧ (t.coreAt n).ctx.osprf.get i = r.osc.get i)) ∧
    (∀ (s : State) (n : CoreId) (k : Nat) (l : Leaving) (p : Phase) (la : Launch), (s.coreAt n).leaving[k]? = some l → (s.coreAt n).retired l.unit.serial = true →
      (s.die (dieOf n)).snap = none → (s.die (dieOf n)).phase? l.unit.phid = some p → p.cancelled = false → p.rejected = false →
      ((s.die (dieOf n)).launches.find? fun x => decide (x.lid = l.unit.lid)) = some la → la.done + 1 ≠ la.total →
      ∃ t q, exec (.unitRetire n k) s = .next t ∧ (t.coreAt n).leaving = (s.coreAt n).leaving.eraseIdx k ∧ (t.die (dieOf n)).phase? l.unit.phid = some q ∧
        q.urun = (if l.cancelled then p.urun else min (p.urun + 1) (2 ^ 32 - 1)) ∧ q.ucan = (if l.cancelled then min (p.ucan + 1) (2 ^ 32 - 1) else p.ucan) ∧
        q.faults = (if l.fault then min (p.faults + 1) (2 ^ 32 - 1) else p.faults) ∧ q.alive = p.alive - 1 ∧
        q.status = (if p.status = 0 then l.status else p.status) ∧
        ((t.die (dieOf n)).launches.find? fun x => decide (x.lid = l.unit.lid)) = some { la with done := la.done + 1 } ∧ t.mem = s.mem) ∧
    (∀ (s : State) (d : DieId) (w : Dw × Nat) (p : Phase) (nd : Node), s.waitReady d = some w → (s.die d).phase? w.1 = some p → p.nodes[w.2]? = some nd →
      ∃ t x, exec (.taskEntryFree d) s = .next t ∧ (t.die d).waitLaunch = (s.die d).waitLaunch.erase w ∧ (t.die d).tasks = (s.die d).tasks ++ [x] ∧
        x.kind = .launch nd.kdesc nd.argb (s.die d).lidNext nd.units 0 [] ∧ x.phid = w.1 ∧ x.part = p.part ∧ x.ctx = p.ctx ∧ x.prio = p.prio ∧
        x.dline = p.dline ∧ t.mem = s.mem)) ∧
  (∀ (s : State) (d : DieId) (phid : Dw) (p : Phase), (s.die d).phase? phid = some p → s.phaseDone d p = true → (∀ q ∈ (s.die d).queuedPh, q.graph ≠ p.graph) →
      (s.recBreaks d p.cmd = true → ∃ t, exec (.phaseComplete d phid) s = .next t ∧ p.cmd.fn.val ∈ (t.die d).frozenFns ∧ t.mem = s.mem ∧
        (t.die d).phases = (s.die d).phases) ∧
      (s.recBreaks d p.cmd = false → ∃ t, exec (.phaseComplete d phid) s = .next t ∧ (t.die d).phase? phid = none ∧
        (∀ j, (s.die d).job? p.part p.jid = some j → ∃ k, (t.die d).job? p.part p.jid = some k ∧ k.done = j.done + 1 ∧ k.total = j.total) ∧
        (∀ pa, p.cmd.crec ≠ 0 → s.fePa d p.cmd.ctx p.cmd.part needWr 64 64 p.cmd.crec = some pa → s.hitsSlot pa 64 = false → p.cmd.sigk = 0 → MemInv s →
          let st := if p.status ≠ 0 then p.status else if p.cancelled then 1 else 0
          let met := p.hasdl = true ∧ (s.die d).time ≤ p.dline.toNat
          bytesValue t.mem pa 4 = (st + p.level * 2 ^ 8 + (if met then 2 ^ 16 else 0) + (if p.hasdl then 2 ^ 17 else 0)) % 2 ^ 32 ∧
          bytesValue t.mem (pa + 4) 4 = min p.faults (2 ^ 32 - 1) ∧ bytesValue t.mem (pa + 8) 4 = min p.urun (2 ^ 32 - 1) ∧
          bytesValue t.mem (pa + 12) 4 = min (p.ucan + p.unlaunched) (2 ^ 32 - 1) ∧
          bytesValue t.mem (pa + 16) 8 = p.phid.toNat ∧ bytesValue t.mem (pa + 24) 4 = p.jid.toNat ∧ bytesValue t.mem (pa + 32) 8 = p.cmd.tag.toNat ∧
          bytesValue t.mem (pa + 40) 8 = p.tstart % 2 ^ 64 ∧ bytesValue t.mem (pa + 48) 8 = (s.die d).time % 2 ^ 64 ∧
          ∀ a, a < pa ∨ pa + 64 ≤ a → memRead t.mem a = memRead s.mem a)))

/-- R13, R42, R344 to R346, R363, R364: each victim of a pre-emption has a stop; a stop past its time becomes urgent; an urgent stop freezes the seats; the
frozen unit's context goes to the shadow as it stands, a reserved drain entry landed (R247), and comes back as it stood, or leaves with status 3 where the
shadow is lost, the four units of a crew launch together (R255); a cancelled unit that has stood for Tb leaves.
R404 to R406: at its end a slice gives every running unit of the crew a stop and takes no new one; once none runs, the next partition's slice begins with
its length and its lost time, a quarter of its length at most, and its account starts again at 0. -/
def Obligations.StopAndSliceEvents : Prop :=
  ((∀ (s : State) (d : DieId) (p : Fin 32) (k : Task), s.preemptFor d p = some k → s.hurried d p = [] → ∃ t, exec (.preemptRequest d p) s = .next t ∧
      (∀ m ∈ s.victims d p k, ∀ u, (t.coreAt m).unit = some u → u.stop.isSome = true) ∧ t.mem = s.mem) ∧
    (∀ (s : State) (n : CoreId) (u : UnitInfo) (q : Stop), s.stopLate n = true → (s.coreAt n).unit = some u → u.stop = some q →
      ∃ t, exec (.boundaryStopTimeout n) s = .next t ∧ OneCore n s t ∧ (t.coreAt n).unit = some { u with stop := some { q with urgent := true, clks := 0 } }) ∧
    (∀ (s : State) (n : CoreId) (u : UnitInfo) (q : Stop), s.urgentDue n = true → (s.coreAt n).unit = some u → u.stop = some q → q.why ≠ .cancel →
      ∃ t, exec (.urgentStopFreeze n) s = .next t ∧ OneCore n (s.withdrawAwait n) t ∧ (t.coreAt n).unit = some u ∧ (t.coreAt n).frozen = some (.stopped q.why false) ∧
        (t.coreAt n).ctx.c = (s.coreAt n).ctx.c ∧ (t.coreAt n).ctx.a = (s.coreAt n).ctx.a ∧ (t.coreAt n).ctx.v = (s.coreAt n).ctx.v ∧
        ∀ k ∈ (t.coreAt n).copies, k.owner = u.serial → k.frozen = true) ∧
    (∀ (s : State) (n : CoreId), (∀ m ∈ s.stopGroup n, (s.coreAt m).stoppedFor .preempt = true ∧ (s.coreAt m).held = none ∧
        ∀ u, (s.coreAt m).unit = some u → u.cancelPending = false) →
      ∃ t, exec (.contextSave n) s = .next t ∧ t.mem = s.mem ∧ t.slots = s.slots ∧ (∀ m, m ∉ s.stopGroup n → t.coreAt m = s.coreAt m) ∧
        ∀ m ∈ s.stopGroup n, ∀ u, (s.coreAt m).unit = some u → ∃ h, (t.coreAt m).unit = none ∧ (t.coreAt m).held = some h ∧
          h.unit = { u with stop := none } ∧ h.ctx = (s.coreAt m).ctx.drainLands ∧ h.pats = (s.coreAt m).pats ∧ h.mcast = (s.coreAt m).mcast ∧ h.bad = false ∧
          (t.coreAt m).heldq = (s.coreAt m).efq) ∧
    (∀ (s : State) (n : CoreId) (h : Held), s.restoreDue n = true → (s.coreAt n).held = some h →
      (∀ m ∈ s.heldGroup n h, ∀ x ∈ (s.coreAt m).images, x.part ≠ h.unit.part) → ∃ t, exec (.contextRestore n) s = .next t ∧ t.mem = s.mem ∧ t.slots = s.slots ∧ (∀ m, m ∉ s.heldGroup n h → t.coreAt m = s.coreAt m) ∧
        n ∈ s.heldGroup n h ∧ ∀ m ∈ s.heldGroup n h, ∀ g, (s.coreAt m).held = some g → (t.coreAt m).held = none ∧ (t.coreAt m).frozen = none ∧
          (g.bad = false → (t.coreAt m).unit = some g.unit ∧ (t.coreAt m).ctx = g.ctx ∧ (t.coreAt m).pats = g.pats ∧ (t.coreAt m).mcast = g.mcast ∧
            (t.coreAt m).efq = (s.coreAt m).heldq) ∧
          (g.bad = true → ∃ l, (t.coreAt m).leaving = (s.coreAt m).leaving ++ [l] ∧ l.unit = g.unit ∧ l.cancelled = true ∧ l.fault = true ∧
            l.status = 3)) ∧
    (∀ (s : State) (n : CoreId) (u : UnitInfo), s.cancelLate n = true → (s.coreAt n).unit = some u → ∃ t, exec (.cancelTimeout n) s = .next t ∧ left t n u true)) ∧
  ((∀ (s : State) (w : CrewId) (h : Shared), s.sliceOver w = true → s.sharedOf w = some h → ∃ t g, exec (.sliceEnd w) s = .next t ∧ t.sharedOf w = some g ∧
      g.switching = true ∧ g.cur = h.cur ∧ t.mem = s.mem ∧
      ∀ p : Fin 4, ∀ u, (t.coreAt (crewCore w p)).unit = some u → u.stop.isSome = true) ∧
    (∀ (s : State) (w : CrewId) (h : Shared) (p : Fin 32) (len acct : Nat), s.switchDue w = true → s.sharedOf w = some h → h.members ≠ [] →
      h.members[(h.cur + 1) % h.members.length]? = some (p, len, acct) →
      ∃ t g, exec (.sliceSwitch w) s = .next t ∧ t.sharedOf w = some g ∧ g.cur = (h.cur + 1) % h.members.length ∧ g.switching = false ∧
        g.ends = (s.die (crewDie w)).time + len + min (acct / 1050) (len / 4) ∧ g.members[g.cur]? = some (p, len, 0)))

/-! ## The matrix engine, streams and the host's commands -/

namespace Sys2Proof.Spec

open Machine

/-- The element at k-step j of group g, row or column n, of an operand in a format (R100, R101, R107, R234, R235): l and l2 are the entries held, sc the scale
record of the row or column. -/
def operandElem (f : Nat) (bsc : Bool) (l l2 : Line) (sc : BitVec 384) (g n j : Nat) : Fv :=
  let byte (i : Nat) : BitVec 8 := l.extractLsb' (8 * i) 8
  let half : BitVec 16 := (if n < 64 then l else l2).extractLsb' (128 * (n % 64) + 16 * j) 16
  let code : BitVec 4 := (byte (8 * n + (8 * (g % 2) + j) / 2)).extractLsb' (4 * (j % 2)) 4
  match f with
  | 0 => e4m3.value (byte (8 * n + j)).toNat
  | 1 => e5m2.value (byte (8 * n + j)).toNat
  | 2 => Fv.ofInt (byte (8 * n + j)).toInt
  | 3 => if bsc then q4Dequant code.toNat (sc.extractLsb' (20 * (g % 16)) 20).toNat (sc.getLsbD (352 + g % 16)) (.fin false 1 0)
    else .fin (code.getLsbD 3) (q4Mag (code.toNat % 8)) (-10)
  | 4 => bf16.value half.toNat
  | _ => fp16.value half.toNat

/-- The exact sum of a group's eight products, an exact zero being +0 (R109). -/
def exactSum (p : Nat → Fv) : Fv :=
  match (List.range 8).foldl (fun t j => t.add (p j)) Fv.zero with
  | .fin _ 0 _ => Fv.zero
  | v => v

/-- The entries that serve a group: those it takes, or the one that the group before it took (R234, R235). -/
def groupEntries (f g : Nat) (l : List Line) (held : Line) : Line × Line :=
  if f = 3 ∧ g % 2 = 1 then (held, 0) else (l.getD 0 0, l.getD 1 0)

end Sys2Proof.Spec

/-- R109, R230, R231, R239, R240, R242, R243, R251, R253, R255: the engine's own steps. A head MMA begins with a front bank of +0 and progress 0; a group
takes its operand entries, adds to each accumulator of the front bank the exact sum of its eight products with one rounding, INT8 pairs as exact integers,
and counts 8 k-steps; the span's end moves the front bank to the back bank, the last one ending the operation; a drain reserves the next entry of the back
bank in its queue, and the reserved entry lands; MDRN drains it again; MZERO clears banks, scales and progress; four joint operations start together and,
once all have moved their last span, post 1 on k15 of each member. -/
def Obligations.MatrixEvents : Prop :=
  (∀ (s : State) (n : CoreId) (o : EngOp) (r : List EngOp), s.engineOn n = true → (s.coreAt n).ctx.eng.running = false → (s.coreAt n).ctx.eng.halt = false →
    (s.coreAt n).ctx.eng.opq = o :: r → o.kind = .mma → ∃ t, exec (.matrixOpStart n) s = .next t ∧ OneCore n s t ∧
      (t.coreAt n).ctx.eng = { (s.coreAt n).ctx.eng with
        running := true, kpos := 0, scales := 0, spanDone := false, gotA := 0, gotB := 0, front := Vector.replicate 128 0 }) ∧
  (∀ (s : State) (n : CoreId) (o : EngOp) (la lb : List Line), s.engineOn n = true → (s.coreAt n).ctx.eng.active .mma = some o →
    (s.coreAt n).ctx.eng.wantsScale o = false →
    let e := (s.coreAt n).ctx.eng
    let g := e.kpos % 128 / 8
    let ma := takesAt (entA o.ent) g - e.gotA
    let mb := if o.a = o.b then 0 else takesAt (entB o.ent) g - e.gotB
    needs ma ((s.coreAt n).ctx.queue o.a) (entA o.ent) = none → needs mb ((s.coreAt n).ctx.queue o.b) (entB o.ent) = none →
    ((s.coreAt n).ctx.queue o.a).firsts ma = .ok la → ((s.coreAt n).ctx.queue o.b).firsts mb = .ok lb → ∃ t, exec (.groupBoundary n) s = .next t ∧ OneCore n s t ∧
      (t.coreAt n).ctx.eng.kpos = e.kpos + 8 ∧ (t.coreAt n).ctx.eng.gotA = 0 ∧ (t.coreAt n).ctx.eng.gotB = 0 ∧
      (t.coreAt n).ctx.eng.spanDone = (decide ((e.kpos + 8) % 128 = 0) || decide (((o.word.extractLsb' 0 9).toNat + 1) * 8 ≤ e.kpos + 8)) ∧
      (∀ q, ((t.coreAt n).ctx.queue q).ents = ((s.coreAt n).ctx.queue q).ents.drop (if q = o.a then ma else if q = o.b then mb else 0)) ∧
      (t.coreAt n).ctx.eng.back = e.back ∧
      (e.gotA = 0 → e.gotB = 0 → entA o.ent ≤ 5 → entB o.ent ≤ 5 →
        let a := groupEntries (entA o.ent) g la e.latA
        let b := if o.a = o.b then a else groupEntries (entB o.ent) g lb e.latB
        ∀ r c : Fin 128,
          let old := (e.front.get r).extractLsb' (32 * c.val) 32
          let new := ((t.coreAt n).ctx.eng.front.get r).extractLsb' (32 * c.val) 32
          let left (j : Nat) : Fv := operandElem (entA o.ent) (entBsc o.ent) a.1 a.2 (e.scale.get r) g r.val j
          let right (j : Nat) : Fv := operandElem (entB o.ent) (entBsc o.ent) b.1 b.2 (e.scale.get c) g c.val j
          let z : Int := old.toInt + ((List.range 8).map fun j => (a.1.extractLsb' (8 * (8 * r.val + j)) 8).toInt * (b.1.extractLsb' (8 * (8 * c.val + j)) 8).toInt).sum
          (entA o.ent ≠ 2 → new = BitVec.ofNat 32 (fp32.round .near ((fp32.value old.toNat).add (exactSum fun j => (left j).mul (right j))))) ∧
          (entA o.ent = 2 → entB o.ent = 2 → -2 ^ 31 ≤ z → z < 2 ^ 31 → new.toInt = z)) ∧
      (t.coreAt n).ctx.eng.opq = e.opq ∧ (t.coreAt n).ctx.c = (s.coreAt n).ctx.c ∧ (t.coreAt n).ctx.v = (s.coreAt n).ctx.v) ∧
  (∀ (s : State) (n : CoreId) (o : EngOp) (r : List EngOp), s.engineOn n = true → (s.coreAt n).ctx.eng.running = true →
    (s.coreAt n).ctx.eng.spanDone = true → (s.coreAt n).ctx.eng.dbusy = false → (s.coreAt n).ctx.eng.halt = false → (s.coreAt n).ctx.eng.opq = o :: r →
    let e := (s.coreAt n).ctx.eng
    let last := ((o.word.extractLsb' 0 9).toNat + 1) * 8 ≤ e.kpos
    ∃ t f, exec (.spanToBackBank n) s = .next t ∧ OneCore n s t ∧ (t.coreAt n).ctx.eng = f ∧ f.back = e.front ∧ f.dbusy = true ∧ f.dpos = 0 ∧
      f.drainQ = o.word.extractLsb' 20 3 ∧ f.drainPc = o.addr ∧ f.bf16 = o.ent.getLsbD 8 ∧ (last → f.opq = r ∧ f.running = false) ∧
      (¬last → f.opq = o :: r ∧ f.running = true ∧ f.front = Vector.replicate 128 0)) ∧
  (∀ (s : State) (n : CoreId), s.engineOn n = true → (s.coreAt n).ctx.eng.dbusy = true → (s.coreAt n).ctx.eng.halt = false →
    (s.coreAt n).ctx.eng.drainT = none →
    let e := (s.coreAt n).ctx.eng
    let u := (s.coreAt n).ctx.queue e.drainQ
    u.dir ≠ 0 → u.esz = drainEsz e.bf16 → u.ents.length < 4 → ∃ t x, exec (.drainEntryPush n) s = .next t ∧ OneCore n s t ∧
      (t.coreAt n).ctx.queue e.drainQ = { u with ents := u.ents ++ [x] } ∧ x.landed = false ∧ x.poison = none ∧
      (t.coreAt n).ctx.eng = { e with drainT := some x.ticket } ∧
      (e.bf16 = false → ∀ i : Fin 64, e.dpos = i.val → x.data.extractLsb' 0 4096 = e.back.get ⟨2 * i.val, by omega⟩ ∧
        x.data.extractLsb' 4096 4096 = e.back.get ⟨2 * i.val + 1, by omega⟩) ∧
      (e.bf16 = true → ∀ i : Fin 32, e.dpos = i.val → ∀ (r : Fin 4) (k : Fin 128), x.data.extractLsb' (16 * (128 * r.val + k.val)) 16 =
        BitVec.ofNat 16 (dropHalf ((e.back.get ⟨4 * i.val + r.val, by omega⟩).extractLsb' (32 * k.val) 32).toNat))) ∧
  (∀ (s : State) (n : CoreId) (tk : Nat), (s.coreAt n).ctx.eng.drainT = some tk →
    let e := (s.coreAt n).ctx.eng
    let last := (if e.bf16 then 32 else 64) ≤ e.dpos + 1
    ∃ t f, exec (.drainEntryPush n) s = .next t ∧ OneCore n s t ∧ (t.coreAt n).ctx.eng = f ∧ f.drainT = none ∧ f.back = e.back ∧
      (∀ q, ((t.coreAt n).ctx.queue q).ents = ((s.coreAt n).ctx.queue q).ents.map fun i => if i.ticket = tk then { i with landed := true } else i) ∧
      (e.dbusy = false → f = { e with drainT := none }) ∧
      (e.dbusy = true → f.dpos = e.dpos + 1 ∧ (f.dbusy = false ↔ last) ∧ (¬last → f.running = e.running ∧ f.opq = e.opq) ∧
        ∀ o r, e.opq = o :: r → o.kind = .mdrn → e.running = true → last → f.running = false ∧ f.opq = r)) ∧
  (∀ (s : State) (n : CoreId) (o : EngOp) (r : List EngOp), s.engineOn n = true → (s.coreAt n).ctx.eng.running = false →
    (s.coreAt n).ctx.eng.dbusy = false → (s.coreAt n).ctx.eng.halt = false → (s.coreAt n).ctx.eng.opq = o :: r → o.kind = .mdrn →
    ∃ t, exec (.mdrnStart n) s = .next t ∧ OneCore n s t ∧ (t.coreAt n).ctx.eng = { (s.coreAt n).ctx.eng with
      running := true, dbusy := true, dpos := 0, drainQ := o.word.extractLsb' 20 3, drainPc := o.addr, bf16 := o.ent.getLsbD 8, jdrain := false }) ∧
  (∀ (s : State) (n : CoreId), (s.coreAt n).ctx.eng.halt = true → (s.coreAt n).ctx.eng.drainT = none → ∃ t f, exec (.mzeroComplete n) s = .next t ∧ OneCore n s t ∧ (t.coreAt n).ctx.eng = f ∧
    f.front = Vector.replicate 128 0 ∧ f.back = Vector.replicate 128 0 ∧ f.scale = Vector.replicate 128 0 ∧ f.kpos = 0 ∧ f.dpos = 0 ∧ f.dbusy = false ∧
    f.gotA = 0 ∧ f.gotB = 0 ∧ f.bf16 = false ∧ f.halt = false ∧ f.opq = (s.coreAt n).ctx.eng.opq ∧ (t.coreAt n).ctx.queues = (s.coreAt n).ctx.queues) ∧
  (∀ (s : State) (w : CrewId), (∀ n ∈ members w, (s.coreAt n).ctx.eng.jrun = false ∧ s.jointWaits n = true ∧ s.engineOn n = true) →
    (∀ n ∈ members w, (s.headOf n).map (fun o => (o.word.extractLsb' 0 14, o.ent)) =
      (s.headOf (crewCore w 0)).map (fun o => (o.word.extractLsb' 0 14, o.ent))) →
    ∃ t, exec (.jointStart w) s = .next t ∧ t.mem = s.mem ∧ ∀ n ∈ members w, (t.coreAt n).ctx.eng.running = true ∧ (t.coreAt n).ctx.eng.jrun = true ∧
      (t.coreAt n).ctx.eng.kpos = 0 ∧ (t.coreAt n).ctx.eng.front = Vector.replicate 128 0 ∧
      (t.coreAt n).ctx.eng.jcnt = (s.coreAt n).ctx.eng.jcnt + 1) ∧
  (∀ (s : State) (w : CrewId), (∀ n ∈ members w, (s.coreAt n).ctx.eng.jrun = true ∧ (s.coreAt n).ctx.eng.running = false) →
    ∃ t, exec (.jointComplete w) s = .next t ∧ t.mem = s.mem ∧ (∀ n ∈ members w, (t.coreAt n).ctx.eng.jrun = false) ∧
      ∀ n ∈ members w, (s.coreAt n).unit.isSome = true →
      (((s.coreAt n).ctx.k.get 15).toNat < 65535 → (t.coreAt n).ctx.k.get 15 = (s.coreAt n).ctx.k.get 15 + 1) ∧
      (((s.coreAt n).ctx.k.get 15).toNat = 65535 → (t.coreAt n).ctx.k.get 15 = (s.coreAt n).ctx.k.get 15 ∧
        ∃ q, ((t.coreAt n).ctx.seat .m).cause = some q ∧ q.cause = .tokenOverflow))

namespace Sys2Proof.Spec

open Machine

/-- The stream entry e of die d. -/
def coxAt (s : State) (d : DieId) (e : Nat) : Option Cox := (s.die d).cox.find? fun k => decide (k.e = e)

/-- The command's ring has gone on: its consumer's index has risen by one, and the front end looks at it again. -/
def ringOn (s t : State) (d : DieId) (c : Cmd) : Prop :=
  (t.ring d c.ring).blocked = none ∧ (t.ring d c.ring).c = ((s.ring d c.ring).c + 1) % 2 ^ 64 ∧ (t.ring d c.ring).wake = true

/-- The cursor of the command's ring can be written (R309). -/
def ringGoes (s : State) (d : DieId) (c : Cmd) (cpa : Nat) : Prop :=
  s.feAccess d c.ctx c.part needWr 8 8 (s.ring d c.ring).cva = .ok cpa ∧ s.hitsSlot cpa 8 = false

/-- A command of the type is the one its ring carries out, and no field of it is bad (R312). -/
def due (s : State) (d : DieId) (c : Cmd) (typ : Nat) : Prop :=
  s.cmdDue d c = true ∧ c.typ = typ ∧ c.resv = false ∧ 112 ≤ c.len ∧ c.sigk < 4

/-- As `due`, and neither the command's record nor its signal breaks protection (R307). -/
def carries (s : State) (d : DieId) (c : Cmd) (typ : Nat) : Prop := due s d c typ ∧ s.recBreaks d c = false

def jobOf (s : State) (d : DieId) (c : Cmd) (j : Word) : Option Job := (s.die d).job? c.part j

end Sys2Proof.Spec

/-- R338, R339, R415, R419: a release moves its stream one period on and gives its deadline; a phase whose input has not come by its skip deadline is
skipped: the miss is counted, the stream moves one period on; the copy of a fast stream of a session stands in the peer die; a survivor takes it over.
R307 to R311, R321, R322: a ring that its write enables begins at its consumer's cursor, where a command that
it still carries out finishes first, and one with a bad header stays off with cause 1; one written
off stops; a doorbell of function 0 or of the ring's own function wakes it; a watched line that has changed ends the watch; the front end's turn takes the
command whose sequence is the cursor plus one, and finding none arms the watch unless wmode is 1.
The skip after its deadline, RCTL on an enabled ring and the takeover's order are the model's reading (log 41, 42, 51). -/
def Obligations.StreamAndRingEvents : Prop :=
  ((∀ (s : State) (d : DieId) (e : Nat) (k : Cox), coxAt s d e = some k → s.releaseDue d k = true → k.susp = false →
      ∃ t j, exec (.coxRelease d e) s = .next t ∧ coxAt t d e = some j ∧ j.nrel = k.nrel + k.period ∧ j.iarr = false ∧
        j.ndl = (if k.islot = 0 then k.nrel else max k.nrel k.itime) + k.dline) ∧
    (∀ (s : State) (d : DieId) (e : Nat) (k : Cox), coxAt s d e = some k → s.lateQueued d k.key = none → s.skipDue d k = true →
      (s.recBreaks d k.cmd = false → ∃ t j, exec (.phaseSkip d e) s = .next t ∧ coxAt t d e = some j ∧ j.miss = min 65535 (k.miss + 1) ∧
        j.nrel = k.nrel + k.period) ∧
      (s.recBreaks d k.cmd = true → ∃ t, exec (.phaseSkip d e) s = .next t ∧ k.cmd.fn.val ∈ (t.die d).frozenFns ∧ t.mem = s.mem ∧
        (t.die d).cox = (s.die d).cox)) ∧
    (∀ (s : State) (d : DieId) (p : PeerStream), p ∈ s.copiesDue d → ∃ t, exec (.peerStreamCopy d p) s = .next t ∧ p ∈ (t.die d.other).peers ∧
      (∀ q ∈ (t.die d.other).peers, q.sid = p.sid → q = p) ∧ t.mem = s.mem ∧ t.cores = s.cores) ∧
    (∀ (s : State) (d : DieId) (sid : Nat) (p : PeerStream) (z : Session), s.takeoverNext d = some p → p.sid = sid → (s.die d).session? sid = some z →
      ∃ t, exec (.streamTakeover d sid) s = .next t ∧ (∀ q ∈ (t.die d).peers, q.sid ≠ sid) ∧
        ∃ k ∈ (t.die d).cox, (∀ j ∈ (s.die d).cox, j.e ≠ k.e) ∧ k.sid = some sid ∧ k.t0 = p.t0 ∧ k.period = p.srec.period ∧ k.dline = p.srec.dline)) ∧
  ((∀ (s : State) (d : DieId) (r : Fin 64) (v : Dw) (hpa cpa : Nat) (c : Cmd), (s.ring d r).ctl.getLsbD 0 = false → v.getLsbD 0 = true →
      (s.ring d r).blocked = some c →
      let y : Ring := { s.ring d r with ctl := v &&& 0x7FFFF }
      s.feAccess d y.ctx y.part needRd 64 64 y.base = .ok hpa → s.poisoned hpa 64 = false → frontBad (s.recAt hpa) y.cons = false →
      s.feAccess d y.ctx y.part needRd 8 8 (cursorVa (s.recAt hpa) y.cons) = .ok cpa → ∃ t, exec (.ringEnable d r v) s = .next t ∧
        (t.ring d r).enabled = true ∧ (t.ring d r).blocked = some c ∧ (t.ring d r).c = (s.ring d r).c ∧ (t.ring d r).cva = (s.ring d r).cva ∧
        (t.ring d r).again = true ∧ t.mem = s.mem ∧ ∀ q, q ≠ r → t.ring d q = s.ring d q) ∧
    (∀ (s : State) (d : DieId) (r : Fin 64) (v : Dw) (hpa cpa : Nat), (s.ring d r).ctl.getLsbD 0 = false → v.getLsbD 0 = true →
      (s.ring d r).blocked = none →
      let y : Ring := { s.ring d r with ctl := v &&& 0x7FFFF }
      s.feAccess d y.ctx y.part needRd 64 64 y.base = .ok hpa → s.poisoned hpa 64 = false → frontBad (s.recAt hpa) y.cons = false →
      s.feAccess d y.ctx y.part needRd 8 8 (cursorVa (s.recAt hpa) y.cons) = .ok cpa → ∃ t, exec (.ringEnable d r v) s = .next t ∧
        (t.ring d r).enabled = true ∧ (t.ring d r).ctl = v &&& 0x7FFFF ∧ (t.ring d r).c = s.valueAt cpa 8 ∧ (t.ring d r).blocked = none ∧
        (t.ring d r).cva = cursorVa (s.recAt hpa) y.cons ∧ (t.ring d r).wake = !v.getLsbD 7 ∧ t.mem = s.mem ∧ ∀ q, q ≠ r → t.ring d q = s.ring d q) ∧
    (∀ (s : State) (d : DieId) (r : Fin 64) (v : Dw) (hpa : Nat), (s.ring d r).ctl.getLsbD 0 = false → v.getLsbD 0 = true →
      let y : Ring := { s.ring d r with ctl := v &&& 0x7FFFF }
      s.feAccess d y.ctx y.part needRd 64 64 y.base = .ok hpa → frontBad (s.recAt hpa) y.cons = true → ∃ t, exec (.ringEnable d r v) s = .next t ∧
        (t.ring d r).enabled = (s.ring d r).enabled ∧ (t.ring d r).ctl.getLsbD 0 = false ∧ (t.ring d r).cause = 1 ∧ t.mem = s.mem) ∧
    (∀ (s : State) (d : DieId) (r : Fin 64) (v : Dw), v.getLsbD 0 = false → (s.ring d r).ctl.getLsbD 0 = true → ∃ t, exec (.ringDisable d r v) s = .next t ∧
      (t.ring d r).enabled = false ∧ (t.ring d r).ctl.getLsbD 0 = false ∧ (t.ring d r).blocked = (s.ring d r).blocked ∧ t.mem = s.mem ∧
      ∀ q, q ≠ r → t.ring d q = s.ring d q) ∧
    (∀ (s : State) (d : DieId) (r : Fin 64) (v : Dw), v.getLsbD 0 = false → (s.ring d r).ctl.getLsbD 0 = false → ∃ t, exec (.ringDisable d r v) s = .next t ∧
      t.ring d r = { s.ring d r with ctl := v &&& 0x7FFFF } ∧ t.mem = s.mem ∧ ∀ q, q ≠ r → t.ring d q = s.ring d q) ∧
    (∀ (s : State) (d : DieId) (x : Door), (s.ring d x.ring).enabled = true → ∃ t, exec (.rdoor d x) s = .next t ∧
      t.ring d x.ring = (if x.fn = 0 ∨ ringFn (s.ring d x.ring).part = x.fn then { s.ring d x.ring with wake := true, watch := none } else s.ring d x.ring) ∧
      t.mem = s.mem ∧ ∀ q, q ≠ x.ring → t.ring d q = s.ring d q) ∧
    (∀ (s : State) (d : DieId) (r : Fin 64), (s.ring d r).watch.isSome = true → (s.ring d r).wake = true → ∃ t, exec (.ringWatchWake d r) s = .next t ∧
      t.ring d r = { s.ring d r with watch := none } ∧ t.mem = s.mem ∧ ∀ q, q ≠ r → t.ring d q = s.ring d q) ∧
    (∀ (s : State) (d : DieId) (r : Fin 64) (hpa spa : Nat) (b : List Byte), s.ringNext d = some r →
      let s' := s.modDie d fun x => { x with ringTurn := (r.val + 1) % 64 }
      let x := s.ring d r
      x.carried = false → s'.feAccess d x.ctx x.part needRd 64 64 x.base = .ok hpa → s'.poisoned hpa 64 = false →
      frontBad (s'.recAt hpa) x.cons = false →
      let sva := ringSlotVa (s'.recAt hpa) x.c
      s'.feAccess d x.ctx x.part needRd 8 8 sva = .ok spa → s'.valueAt spa 8 = (x.c + 1) % 2 ^ 64 → s'.spanBreaks d x.ctx x.part sva 128 = false →
      s'.feBytes d x.ctx x.part sva 128 = some b → ∃ t, exec (.ringTake d r) s = .next t ∧
        (t.ring d r).blocked = some (cmdOf b r x) ∧ (t.ring d r).c = x.c ∧ (t.ring d r).cva = cursorVa (s'.recAt hpa) x.cons ∧
        (t.die d).ringTurn = (r.val + 1) % 64 ∧ t.mem = s.mem) ∧
    (∀ (s : State) (d : DieId) (r : Fin 64) (hpa spa : Nat), s.ringNext d = some r →
      let s' := s.modDie d fun x => { x with ringTurn := (r.val + 1) % 64 }
      let x := s.ring d r
      x.carried = false → s'.feAccess d x.ctx x.part needRd 64 64 x.base = .ok hpa → s'.poisoned hpa 64 = false →
      frontBad (s'.recAt hpa) x.cons = false →
      s'.feAccess d x.ctx x.part needRd 8 8 (ringSlotVa (s'.recAt hpa) x.c) = .ok spa → s'.valueAt spa 8 ≠ (x.c + 1) % 2 ^ 64 →
      ∃ t, exec (.ringTake d r) s = .next t ∧ (t.ring d r).blocked = x.blocked ∧ (t.ring d r).c = x.c ∧ (t.ring d r).wake = false ∧
        ((t.ring d r).watch = none ↔ x.ctl.getLsbD 7 = true) ∧ t.mem = s.mem))

/-- R12, R13, R312, R315 to R318, R336: a command that is not bad has its effect: PHASE releases a phase of its graph, with the next phase id, or queues
behind the running one; CANCEL of a phase cancels it; JOB opens and closes its job; GLOAD, GFREE, KLOAD and KFREE make and remove graphs and kernels;
STREAM admits a stream; a type without a command is answered, and its ring goes on.
What opening and closing a job leave is the model's reading (log 43). -/
def Obligations.HostCommands : Prop :=
  (∀ (s : State) (d : DieId) (c : Cmd) (g : Graph) (j : Job), due s d c 1 → s.drainOf d c.ctx = none → (∀ q ∈ (s.die d).queuedPh, q.cmd ≠ c) →
    let num := c.w0.toNat % 4096
    let prio := c.w0.toNat / 4096 % 16
    prio ≤ 11 → (s.die d).graph? num = some g → g.ctx = c.ctx → jobOf s d c (c.w1.setWidth 32) = some j → j.isOpen = true →
    ((s.die d).graphBusy num = false → ∃ t p, exec (.phase d c) s = .next t ∧ p ∈ (t.die d).phases ∧
      p.phid = BitVec.ofNat 64 (d.toNat * 2 ^ 63 + ((s.die d).phaseCount + 1) % 2 ^ 63) ∧ p.graph = num ∧ p.jid = c.w1.setWidth 32 ∧
      p.prio = BitVec.ofNat 4 prio ∧ p.tstart = (s.die d).time ∧ (t.die d).phaseCount = (s.die d).phaseCount + 1) ∧
    ((s.die d).graphBusy num = true → ∃ t q, exec (.phase d c) s = .next t ∧ (t.die d).queuedPh = (s.die d).queuedPh ++ [q] ∧ q.graph = num ∧ q.cmd = c ∧
      (t.ring d c.ring) = s.ring d c.ring)) ∧
  (∀ (s : State) (d : DieId) (c : Cmd) (p : Phase), carries s d c 2 → c.w0.toNat % 8 = 3 → (s.die d).phase? c.w1 = some p → p.part = c.part →
    ∃ t q, exec (.cancel d c) s = .next t ∧ (t.die d).phase? c.w1 = some q ∧ q.cancelled = true ∧ (p.status = 0 → q.status = 1)) ∧
  (∀ (s : State) (d : DieId) (c : Cmd), carries s d c 7 → c.w0.getLsbD 0 = false → jobOf s d c (c.w1.setWidth 32) = none →
    ∃ t, exec (.jobOpen d c) s = .next t ∧
      jobOf t d c (c.w1.setWidth 32) = some { jid := c.w1.setWidth 32, part := c.part, isOpen := true, total := 0, done := 0 }) ∧
  (∀ (s : State) (d : DieId) (c : Cmd) (j : Job), carries s d c 7 → c.w0.getLsbD 0 = false → jobOf s d c (c.w1.setWidth 32) = some j → j.isOpen = false →
    ∃ t, exec (.jobOpen d c) s = .next t ∧ jobOf t d c (c.w1.setWidth 32) =
      some (if j.done = j.total then { j with isOpen := true, total := 0, done := 0 } else { j with isOpen := true })) ∧
  (∀ (s : State) (d : DieId) (c : Cmd) (j : Job), carries s d c 7 → c.w0.getLsbD 0 = true → jobOf s d c (c.w1.setWidth 32) = some j → j.isOpen = true →
    ∃ t, exec (.jobClose d c) s = .next t ∧ jobOf t d c (c.w1.setWidth 32) = some { j with isOpen := false }) ∧
  (∀ (s : State) (d : DieId) (c : Cmd) (nodes : List Node), carries s d c 3 →
    let num := c.w0.toNat % 4096
    let n := c.w2.toNat % 2 ^ 32
    (s.die d).graph? num = none → c.w1.toNat % 64 = 0 → ((s.die d).graphs.map fun k => k.bytes).sum + n ≤ 8 * 2 ^ 20 →
    ((s.feBytes d c.ctx c.part c.w1 n).bind fun b => graphNodes (s.die d) c.ctx b) = some nodes → s.gloadBreaks d c = false → ∃ t, exec (.gload d c) s = .next t ∧
      (t.die d).graph? num = some { num := num, ctx := c.ctx, bytes := n, nodes := nodes }) ∧
  (∀ (s : State) (d : DieId) (c : Cmd) (g : Graph), carries s d c 4 →
    let num := c.w0.toNat % 4096
    (s.die d).graph? num = some g → g.ctx = c.ctx → (s.die d).graphBusy num = false → (∀ q ∈ (s.die d).queuedPh, q.graph ≠ num) →
    (∀ k ∈ (s.die d).cox, num ∉ k.lgraph.toList) → ∃ t, exec (.gfree d c) s = .next t ∧ (t.die d).graph? num = none) ∧
  (∀ (s : State) (d : DieId) (c : Cmd) (k : Kernel), carries s d c 5 → (s.die d).kernel? c.ctx c.w1 = none →
    ((s.die d).kernels.filter fun k => decide (k.ctx = c.ctx)).length < 4096 → s.kernelOf d c = some k → s.kloadBreaks d c = false →
    ∃ t, exec (.kload d c) s = .next t ∧
      (t.die d).kernel? c.ctx c.w1 = some k) ∧
  (∀ (s : State) (d : DieId) (c : Cmd) (k : Kernel), carries s d c 6 → (s.die d).kernel? c.ctx c.w1 = some k →
    (∀ g ∈ (s.die d).graphs, g.ctx = c.ctx → ∀ n ∈ g.nodes, n.kdesc ≠ c.w1) → ∃ t, exec (.kfree d c) s = .next t ∧
      (t.die d).kernel? c.ctx c.w1 = none) ∧
  (∀ (s u : State) (d : DieId) (c : Cmd), carries s d c 8 → s.drainOf d c.ctx = none → s.streamBreaks d c = false → s.streamTry d c = (0, u) → ∃ t, exec (.stream d c) s = .next t ∧
    ∃ k ∈ (t.die d).cox, k.cmd = c ∧ k.jid = c.w0.setWidth 32 ∧ k.part = c.part ∧ k.ctx = c.ctx ∧
      k.nrel = k.t0 + k.offset ∧ k.t0 % k.period = 0 ∧ (s.die d).time ≤ k.t0) ∧
  (∀ (s : State) (d : DieId) (c : Cmd) (cpa : Nat), s.cmdDue d c = true → (c.typ = 0 ∨ 8 < c.typ) → c.crec = 0 → c.sigk = 0 → ringGoes s d c cpa → (s.ring d c.ring).again = false →
    MemInv s →
    ∃ t, exec (.badCommand d c) s = .next t ∧ ringOn s t d c ∧ bytesValue t.mem cpa 8 = ((s.ring d c.ring).c + 1) % 2 ^ 64 ∧
      ∀ a, a < cpa ∨ cpa + 8 ≤ a → memRead t.mem a = memRead s.mem a)

/-! ## Partitions, sessions, starts, and the loss of a die -/

/-- R402, R407, R409, R410, R413: a list is applied whole, its drains then pending, or not at all, the first failing entry and its reason in MBOXOUT; once
its drains have ended status 0 is reported; a session opens with its record's fields, and the sequence that the other die has mirrored into its entry, and
closes; another mailbox code is answered with reason 1; the wheel of a channel turns by one of its 64 slots.
The reasons where two could apply, and when mailbox requests are answered, are the model's reading (log 48, 49). -/
def Obligations.PartitionEvents : Prop :=
  (∀ (s : State) (d : DieId) (v : Dw), s.policyRuns d = true → v.toNat % 64 = 0x21 → s.reconf = none →
    let u := s.modDie d fun x => { x with mboxin := v, mboxst := x.mboxst &&& 2 }
    let pa := hostBase + v.toNat / 64 * 64
    let h := memReadRec s.mem pa
    let n := (h.extractLsb' 0 8).toNat
    1 ≤ n → n ≤ 64 → h.extractLsb' 8 504 = 0 → pa + 64 + 32 * n ≤ 2 ^ 56 →
    let es := (List.range n).map fun i => BitVec.ofNat 256 (leValue (memReadBytes s.mem (pa + 64 + 32 * i) 32))
    let l : ListState := { s := u, drain := { die := d, crews := [], contexts := [], granules := [], queues := [] } }
    (∀ i q, l.run 0 es = .error (i, q) → ∃ t, exec (.reconfigure d v) s = .next t ∧ t.parts = s.parts ∧ t.shared = s.shared ∧ t.cores = s.cores ∧
      t.mem = s.mem ∧ t.reconf = none ∧ (t.die d).mboxout = BitVec.ofNat 64 (0x21 + 1 * 2 ^ 6 + i * 2 ^ 8 + q * 2 ^ 16)) ∧
    (∀ m, l.run 0 es = .ok m → ∃ t, exec (.reconfigure d v) s = .next t ∧ t.reconf = some m.drain ∧ t.parts = m.s.parts)) ∧
  (∀ (s : State) (r : Reconf), s.drained = some r → ∃ t, exec .reconfigDrainDone s = .next t ∧ t.reconf = none ∧
    (t.die r.die).mboxout = BitVec.ofNat 64 0x21) ∧
  (∀ (s : State) (d : DieId) (v : Dw), s.policyRuns d = true → v.toNat % 64 = 0x22 → s.mboxBusy d = false →
    let pa := hostBase + v.toNat / 64 * 64
    let r := memReadRec s.mem pa
    let sid := (r.extractLsb' 484 13).toNat
    let p : Fin 32 := (r.extractLsb' 3 5).toFin
    pa + 64 ≤ 2 ^ 56 → r &&& ~~~sessionMask = 0 → (s.die d).session? sid = none → (s.part p d).queues.getLsbD (r.extractLsb' 14 6).toNat = true →
    (s.part p d).contexts.getLsbD (r.extractLsb' 8 6).toNat = true → s.slotOwned p (slotField r 128) = true → s.slotOwned p (slotField r 192) = true →
    (r.extractLsb' 256 52 = 0 ∨ s.slotOwned p (slotField r 256) = true) → ∃ t z, exec (.sessionOpen d v) s = .next t ∧ (t.die d).session? sid = some z ∧ z.part = p ∧
      z.ctx = (r.extractLsb' 8 6).toFin ∧ z.epq = (r.extractLsb' 14 6).toFin ∧ z.fin = 16 * (r.extractLsb' 128 52).toNat ∧
      z.sin = 16 * (r.extractLsb' 192 52).toNat ∧ z.gslot = 16 * (r.extractLsb' 256 52).toNat ∧ z.lastsent = (s.die d).lastSent sid ∧
      z.fstr = none ∧ z.sstr = none ∧ (t.die d).mboxout = BitVec.ofNat 64 0x22) ∧
  (∀ (s : State) (d : DieId) (v : Dw) (z : Session), s.policyRuns d = true → v.toNat % 64 = 0x23 → s.mboxBusy d = false → v.extractLsb' 19 45 = 0 →
    (s.die d).session? (v.extractLsb' 6 13).toNat = some z → ∃ t, exec (.sessionClose d v) s = .next t ∧
      (t.die d).session? (v.extractLsb' 6 13).toNat = none ∧ (∀ k ∈ (t.die d).cox, z.fstr ≠ some k.e ∧ z.sstr ≠ some k.e) ∧
      (t.die d).mboxout = BitVec.ofNat 64 0x23) ∧
  (∀ (s : State) (d : DieId) (v : Dw), s.policyRuns d = true → v.toNat % 64 ≠ 0x21 → v.toNat % 64 ≠ 0x22 → v.toNat % 64 ≠ 0x23 → s.mboxBusy d = false →
    ∃ t, exec (.mailboxBadCode d v) s = .next t ∧ (t.die d).mboxout = BitVec.ofNat 64 (v.toNat % 64 + 2 ^ 6 + 0xFF * 2 ^ 8 + 2 ^ 16) ∧
      t.parts = s.parts ∧ t.mem = s.mem ∧ t.cores = s.cores) ∧
  (∀ (s : State) (d : DieId) (ch : Fin 112), ∃ t, exec (.channelSlot d ch) s = .next t ∧
    ((t.die d).channels.get ch).pos = (((s.die d).channels.get ch).pos + 1) % 64 ∧
    (∀ k, k ≠ ch → (t.die d).channels.get k = (s.die d).channels.get k) ∧ t.parts = s.parts ∧ t.mem = s.mem ∧ t.cores = s.cores)

namespace Sys2Proof.Spec

open Machine

/-- The die has started: its ready bits stand, device time is 0, and nothing runs on any of its cores (R391, R393). -/
def started (t : State) (d : DieId) (hstat : BitVec 4) : Prop :=
  (t.die d).start = .running ∧ (t.die d).hstat = hstat ∧ (t.die d).time = 0 ∧ (t.die d).wfail = 0 ∧ (t.die d).phases = [] ∧ (t.die d).graphs = [] ∧
  (t.die d).cox = [] ∧ (t.die d).tasks = [] ∧ (∀ x, (t.die d).contexts.get x = Context.reset) ∧ (∀ r, t.ring d r = Ring.reset) ∧
  (∀ n, dieOf n = d → t.coreAt n = Core.reset) ∧ ∀ x ∈ t.slots, homeDie x.pa ≠ some d

/-- No phase and no queued release of a slow stream stands on the die, nor one that it has left, whose record its peer would write as it declares the die's
loss (R419). -/
def noSlow (s : State) (d : DieId) : Prop :=
  (s.die d).orphans = [] ∧ ∀ k ∈ (s.die d).cox, k.slow = true → (∀ p ∈ (s.die d).phases, p.stream ≠ some k.key) ∧ ∀ q ∈ (s.die d).queuedPh, q.stream ≠ some k.key

/-- The die's HBM holds zeros, and every other byte is kept. -/
def hbmCleared (s t : State) (d : DieId) : Prop :=
  ∀ a, memRead t.mem a = if hbmBase d ≤ a ∧ a < hbmBase d + hbmSize then 0 else memRead s.mem a

end Sys2Proof.Spec

/-- R391 to R394: a start whose steps all succeed leaves the die running with every table empty; a cold one clears HBM, a warm one keeps it; a start that
fails at a step halts the die with that step in BSTAT, and a failed warm start counts; an image that step 5 rejects sets BSTAT's bit; a start that hangs
fails at its end; power loss ends all work.
A start's outcome as an argument and what it resets of the partitions are the model's choice (log 34, 53). -/
def Obligations.StartEvents : Prop :=
  (∀ (s : State) (d : DieId) (g : BitVec 512), (s.die d).start = .off → (s.die d).isolated = false →
    ∃ t, exec (.powerOn d ⟨0, true, true, g⟩) s = .next t ∧ started t d 3 ∧ (t.die d).digest = g ∧ (noSlow s d → hbmCleared s t d)) ∧
  (∀ (s : State) (d : DieId) (g : BitVec 512), (s.die d).isStarting = false → (s.die d).isolated = false →
    (∃ t, exec (.coldStart d ⟨0, true, true, g⟩) s = .next t ∧ started t d 3 ∧ (t.die d).digest = g ∧ (noSlow s d → hbmCleared s t d)) ∧
    (∀ r : StartResult, 1 ≤ r.failStep → r.failStep ≤ 4 → ∃ t, exec (.coldStart d r) s = .next t ∧ (t.die d).start = .failed ∧
      (t.die d).fstep = BitVec.ofNat 4 r.failStep ∧ (t.die d).wfail = (s.die d).wfail ∧ (t.die d).hstat = 0 ∧ (noSlow s d → t.mem = s.mem)) ∧
    (∀ r : StartResult, 8 ≤ r.failStep → r.sigOk = true → r.bodyOk = true → ∃ t, exec (.coldStart d r) s = .next t ∧ (t.die d).isStarting = true ∧
      (t.die d).hstat = 2 ∧ ∀ n, dieOf n = d → t.coreAt n = Core.reset) ∧
    ((s.die d).wfail.toNat < 2 → ∃ t, exec (.warmStart d ⟨0, true, true, g⟩) s = .next t ∧ started t d 7 ∧ (t.die d).digest = g ∧
      (noSlow s d → t.mem = s.mem)) ∧
    ((s.die d).wfail.toNat < 2 → ∀ r : StartResult, (r.failStep = 0 ∨ 5 ≤ r.failStep) → (r.sigOk = false ∨ r.bodyOk = false) →
      ∃ t, exec (.warmStart d r) s = .next t ∧ (t.die d).start = .failed ∧ (t.die d).fstep = 5 ∧ (t.die d).sigbad = true ∧
        (t.die d).wfail = (s.die d).wfail + 1) ∧
    (2 ≤ (s.die d).wfail.toNat → ∃ t, exec (.warmStart d ⟨0, true, true, g⟩) s = .next t ∧ started t d 3 ∧ (noSlow s d → hbmCleared s t d))) ∧
  (∀ (s : State) (d : DieId) (warm : Bool) (since : Nat), (s.die d).start = .starting warm since → ∃ t, exec (.startTimeout d) s = .next t ∧
    (t.die d).start = .failed ∧ (t.die d).fstep = 7 ∧ t.mem = s.mem ∧ t.cores = s.cores) ∧
  (∀ (s : State) (d : DieId), ∃ t, exec (.powerLoss d) s = .next t ∧ (t.die d).start = .off ∧ (t.die d).wfail = 0 ∧
    (∀ n, dieOf n = d → t.coreAt n = Core.reset) ∧ ∀ n, dieOf n ≠ d → t.coreAt n = s.coreAt n)

/-- R306, R366, R367, R395, R397: a sensor at 105 °C or above lowers the clock step by one, within the cap, and the package's power lowers both dies', once
in 10 µs; a report holds the nonce, the image's digest, HIDENT and BSTAT at their places, signed with the die's key; a scrub changes nothing that software
sees; an uncorrectable block is poisoned, a correctable error is not; a function's reset puts its rings in their reset state; a link that is down is
remembered.
The thermal counter, which evaluations of the package's power are one, and the trap of an error in a seat are the model's reading (log 54, 61), and the key
and the signature function are free (log 34); what a function-level reset resets is presumed (log 55). -/
def Obligations.PowerAndStorageEvents : Prop :=
  (∀ (s : State) (d : DieId) (temp : BitVec 8), (s.die d).start = .running → 105 ≤ temp.toNat → ∃ t, exec (.powerEvaluation d temp false) s = .next t ∧
    (t.die d).clkStep = max (min 6 (max (s.die d).capLow (s.die d).clkStep + 1)) (min 6 ((s.die d).pwrctl.extractLsb' 0 3).toNat) ∧ (t.die d).temp = temp ∧ t.mem = s.mem) ∧
  (∀ (s : State) (d : DieId) (temp : BitVec 8), (∀ e, (s.die e).start = .running) → temp.toNat < 105 →
    ((s.die d).pwrAt = 0 ∨ (s.die d).pwrAt + 10000 ≤ (s.die d).time) → ∃ t, exec (.powerEvaluation d temp true) s = .next t ∧ t.mem = s.mem ∧ ∀ e,
      (t.die e).clkStep = max (min 6 (max (s.die e).capLow (s.die e).clkStep + 1)) (min 6 ((s.die e).pwrctl.extractLsb' 0 3).toNat)) ∧
  (∀ (s : State) (d : DieId) (buf : Dw), s.policyRuns d = true → MemInv s →
    let pa := hostBase + buf.toNat / 64 * 64
    pa + 192 ≤ 2 ^ 56 → s.hitsSlot pa 192 = false → ∃ t, exec (.atreq d buf) s = .next t ∧ (∀ i, i < 32 → memRead t.mem (pa + i) = memRead s.mem (pa + i)) ∧
      bytesValue t.mem (pa + 96) 8 = 0x0960 + d.toNat * 2 ^ 16 + (s.die d).stepping.toNat * 2 ^ 24 ∧
      bytesValue t.mem (pa + 104) 8 = (s.die d).bkind.toNat + (s.die d).wfail.toNat * 2 ^ 2 + (s.die d).fstep.toNat * 2 ^ 4 +
        (if (s.die d).sigbad then 2 ^ 8 else 0) ∧
      (∀ i, 112 ≤ i → i < 128 → memRead t.mem (pa + i) = 0) ∧ bytesValue t.mem (pa + 32) 64 = (s.die d).digest.toNat ∧
      bytesValue t.mem (pa + 128) 64 = (Config.ed25519 (Config.deviceKey d.toNat) (memReadBytes t.mem pa 128)).toNat ∧ ∀ a, a < pa ∨ pa + 192 ≤ a → memRead t.mem a = memRead s.mem a) ∧
  (∀ (s : State) (d : DieId), exec (.scrub d) s = .next s) ∧
  (∀ (s : State) (pa : Nat), ((spaceOf pa).isSome = true → pa / 64 * 64 ∉ s.poison → ∃ t, exec (.dataErrorDetected (.block pa true)) s = .next t ∧
      t.poison = s.poison ++ [pa / 64 * 64] ∧ t.mem = s.mem) ∧
    ∃ t, exec (.dataErrorDetected (.block pa false)) s = .next t ∧ t.poison = s.poison ∧ t.mem = s.mem) ∧
  (∀ (s : State) (n : CoreId) (k : SeatId) (u : UnitInfo), (s.coreAt n).unit = some u → ((s.coreAt n).ctx.seat k).cause = none → ((s.coreAt n).ctx.seat k).act = true →
    ∃ t q, exec (.dataErrorDetected (.seatState n k true)) s = .next t ∧ OneCore n s t ∧ ((t.coreAt n).ctx.seat k).cause = some q ∧ q.cause = .coreData) ∧
  (∀ (s : State) (d : DieId) (fn : Fin 33), ∃ t, exec (.functionLevelReset d fn) s = .next t ∧ t.mem = s.mem ∧ t.cores = s.cores ∧ ∀ r,
    t.ring d r = if fn = 0 ∨ (s.ring d r).part.val + 1 = fn.val then Ring.reset else s.ring d r) ∧
  (∀ (s : State) (d : DieId), ∃ t, exec (.hostLinkDown d) s = .next t ∧ (t.die d).linkDown = true ∧ t.mem = s.mem ∧ t.cores = s.cores)

/-- R411, R414, R416 to R418: the servo corrects the source's clock within 200 ppm; a forward step that passes nothing moves device time by its length; a
heartbeat reaches the other die and starts its loss timer again; a die that declares its peer lost asserts the isolate line and is the time source; the die
the line names stops before any core's next clock and is held in reset until it is released; an inbound write of a session is performed in its slot's
region, exactly its bytes; an unsupported packet is dropped.
When the loss timer starts, and that a step past the last value of device time ends at it, are the model's reading (log 52, 76). -/
def Obligations.FailoverEvents : Prop :=
  (∀ (s : State) (d : DieId) (ppm off : Int), (s.die d).start = .running → s.source = d → (s.die d).locked = true → -10000 ≤ off → off ≤ 10000 →
    ∃ t, exec (.ptpEventMessage d ppm off) s = .next t ∧ (t.die d).time = (s.die d).time ∧ -200 ≤ (t.die d).ppm ∧ (t.die d).ppm ≤ 200 ∧
      (-200 ≤ ppm → ppm ≤ 200 → (t.die d).ppm = ppm) ∧ t.mem = s.mem ∧ t.cores = s.cores) ∧
  (∀ (s : State) (d : DieId) (ns : Dw), (s.die d).start = .running → (∀ e ∈ s.dues d, min ((s.die d).time + ns.toNat) (2 ^ 64 - 1) < e.time) →
    ∃ t, exec (.deviceTimeStep d ns) s = .next t ∧ (t.die d).time = max (s.die d).time (min ((s.die d).time + ns.toNat) (2 ^ 64 - 1)) ∧
      t.mem = s.mem ∧ t.cores = s.cores ∧ t.slots = s.slots) ∧
  (∀ (s : State) (d : DieId), (s.die d).beatDue = true → ∃ t, exec (.heartbeatSend d) s = .next t ∧ (t.die d).hbSent = max 1 (s.die d).time ∧
    (t.die d.other).hbIn = true ∧ t.mem = s.mem ∧ t.cores = s.cores) ∧
  (∀ (s : State) (d : DieId), (s.die d).start = .running → ∃ t, exec (.heartbeatReceive d) s = .next t ∧ (t.die d).hbSeen = max 1 (s.die d).time ∧
    t.mem = s.mem ∧ t.cores = s.cores) ∧
  (∀ (s : State) (d : DieId), (s.die d).lossDue = true → s.isolate ≠ some d.other → ∃ t, exec (.peerLossTimeout d) s = .next t ∧
    (t.die d).peerLost = true ∧ (t.die d).hstat.getLsbD 3 = true ∧ t.isolate = some d ∧ t.source = d) ∧
  (∀ (s : State) (d : DieId), (s.die d).start = .running → (s.die d).peerLost = false → s.isolate ≠ some d.other → ∃ t,
    exec (.bridgeLinkDown d) s = .next t ∧ (t.die d).peerLost = true ∧ (t.die d).hstat.getLsbD 3 = true ∧ t.isolate = some d ∧ t.source = d) ∧
  (∀ (s : State) (d : DieId), s.isolate = some d.other →
    ((s.die d).isolated = false → s.dueStart = some (.isolateAsserted d) ∧ ∃ t, exec (.isolateAsserted d) s = .next t ∧ (t.die d).isolated = true ∧ (t.die d).start = .off ∧
      (∀ n, dieOf n = d → t.coreAt n = Core.reset) ∧ ∀ n, dieOf n ≠ d → t.coreAt n = s.coreAt n) ∧
    ∃ t, exec (.isolateDeasserted d) s = .next t ∧ t.isolate = none ∧ (t.die d).isolated = false ∧ t.mem = s.mem ∧ t.cores = s.cores) ∧
  (∀ (s : State) (d : DieId) (sid idx off : Nat) (bytes : List Byte) (z : Session) (x : Slot), s.portRuns d = true → (s.die d).snap = none →
    (s.die d).session? sid = some z → z.epq.val ∉ (s.die d).frozenQs → z.inSlot idx ≠ 0 → s.slot? (z.inSlot idx) = some x →
    off + bytes.length ≤ 64 * x.len64 → s.hitsSlot (x.base + off) bytes.length = false → s.mayReachAll z.part (x.base + off) bytes.length = true → MemInv s →
    ∃ t, exec (.inboundWrite d sid idx off bytes) s = .next t ∧ wrote s t (x.base + off) bytes) ∧
  (∀ (s : State) (d : DieId), s.portRuns d = true → (s.die d).snap = none → ∃ t, exec (.unsupportedPacket d) s = .next t ∧ t.mem = s.mem ∧
    t.slots = s.slots ∧ t.cores = s.cores ∧ DieKept (s.die d) (t.die d))

/-! ## Debug, trace and snapshots -/

namespace Sys2Proof.Spec

open Machine

/-- Core n halts with a reason: its seats are frozen, and its context stands, but that a wait for a slot starts again and a WAITA ends (R373, R374); no
comparator matches the words at which its seats stand on the first clock after the resume. -/
def halts (s t : State) (n : CoreId) (why : HaltWhy) : Prop :=
  (t.coreAt n).frozen = some .halt ∧ (t.coreAt n).dbg.halted = some why ∧ (t.coreAt n).dbg.pending = none ∧ (t.coreAt n).ctx = (s.coreAt n).ctx.atFreeze ∧
  (t.coreAt n).unit = (s.coreAt n).unit ∧ (∀ m, m ≠ n → t.coreAt m = s.coreAt m) ∧
  ∀ q p, (q, p) ∈ (t.coreAt n).dbg.skipBp ↔ ((s.coreAt n).ctx.seat q).act = true ∧ p = ((s.coreAt n).ctx.seat q).pc

/-- Core n runs on from its halt (R376), with the state in which it has stood; a loop that DFDATA has written, whose length is still 0, comes from its MLOOP word. -/
def runsOn (s t : State) (n : CoreId) (left : Option Nat) : Prop :=
  (t.coreAt n).dbg.halted = none ∧ (t.coreAt n).dbg.left = left ∧ (t.coreAt n).frozen = (if (s.coreAt n).frozen = some .halt then none else (s.coreAt n).frozen) ∧
  ((∀ k lp, ((s.coreAt n).ctx.seat k).loop = some lp → lp.len ≠ 0) → (t.coreAt n).ctx = (s.coreAt n).ctx) ∧ (t.coreAt n).unit = (s.coreAt n).unit ∧
  ((t.coreAt n).hold = true ↔ (s.coreAt n).ctx.mustHold = true ∨ (s.coreAt n).dbg.rlq ≠ []) ∧ OneCore n s t

/-- Only the debug registers of core n differ. -/
def debugOnly (n : CoreId) (s t : State) : Prop := OneCore n s t ∧ { t.coreAt n with dbg := (s.coreAt n).dbg } = s.coreAt n ∧ t.crews = s.crews

end Sys2Proof.Spec

/-- R373 to R376, R381, R389: a debug request halts at the next edge that may halt the core, and otherwise stands; the end of a step, a stop address and a
comparator halt it; a halted core runs on, or for a number of schedule cycles; a read of DFDATA returns the doubleword at its index and moves it on, a write
sets it, and nothing happens on a core that is not halted; the conflict cells and the replay log are cleared, and RLRD is the reader's place.
That a comparator ignores a handler and, after any halt, the words at which the seats stand (log 30), that DFIDX stays at 29,439 (log 68), and that an AWAIT
starts again and a WAITA ends at a halt (log 72) are the model's reading. -/
def Obligations.HaltEvents : Prop :=
  (∀ (s : State) (n : CoreId),
    (∀ why, s.stopDue n = some why → ∃ t, exec (.debugStop n) s = .next t ∧ halts s t n why) ∧
    (s.stopDue n = none → (s.coreAt n).dbg.halted = none → ∃ t, exec (.debugStop n) s = .next t ∧ debugOnly n s t ∧
      (t.coreAt n).dbg.pending = some ((s.coreAt n).dbg.pending.getD .request)) ∧
    (s.stopDue n = some .stepDone → ∃ t, exec (.stepDone n) s = .next t ∧ halts s t n .stepDone) ∧
    (s.stopDue n = some .stopAt → ∃ t, exec (.stopAt n) s = .next t ∧ halts s t n .stopAt) ∧
    (∀ k, s.atStart n = true → s.bpDue = some k → ∃ t, exec (.breakpointMatch n k) s = .next t ∧ halts s t n .comparator)) ∧
  (∀ (s : State) (n : CoreId) (w : HaltWhy), (s.coreAt n).dbg.halted = some w → w ≠ .cut → (s.coreAt n).playReady = false →
    (∃ t, exec (.debugResume n) s = .next t ∧ runsOn s t n none) ∧
    ∀ k, k ≠ 0 → ∃ t, exec (.debugStep n k) s = .next t ∧ runsOn s t n (some k)) ∧
  (∀ (s : State) (n : CoreId), (s.coreAt n).isHalted = true → ∃ t, exec (.dfdata n none) s = .next t ∧ debugOnly n s t ∧
    (t.coreAt n).dbg = { (s.coreAt n).dbg with dfidx := min 29439 ((s.coreAt n).dbg.dfidx + 1) } ∧
      t.outs = s.outs ++ [.registerRead (dieOf n) ⟨0, 0x4058, 8, false⟩ ((s.coreAt n).ctx.shadowDw none false false 0 (s.coreAt n).dbg.dfidx)]) ∧
  (∀ (s : State) (n : CoreId) (v : Dw),
    let c := s.coreAt n
    let x := c.ctx
    (c.isHalted = true → ∃ t y, exec (.dfdata n (some v)) s = .next t ∧ OneCore n s t ∧ t.crews = s.crews ∧
      t.coreAt n = { c with ctx := y, dbg := { c.dbg with dfidx := min 29439 (c.dbg.dfidx + 1) } } ∧
      (∀ r : Fin 32, r ≠ 0 → (c.dbg.dfidx = 48 + r.val → y = { x with c := x.c.set r.val v r.isLt }) ∧
        (c.dbg.dfidx = 80 + r.val → y = { x with a := x.a.set r.val v r.isLt })) ∧
      (∀ r : Fin 16, (c.dbg.dfidx = 112 + r.val → y = { x with x := x.x.set r.val v r.isLt }) ∧
        (c.dbg.dfidx = 128 + r.val → y = { x with m := x.m.set r.val v r.isLt })) ∧
      (∀ r : Fin 8, c.dbg.dfidx = 180 + r.val → y = { x with l := x.l.set r.val v r.isLt })) ∧
    (c.isHalted = false → exec (.dfdata n (some v)) s = .next s)) ∧
  (∀ (s : State) (n : CoreId),
    (∃ t, exec (.clearConflictCells n) s = .next t ∧ debugOnly n s t ∧
      (t.coreAt n).dbg = { (s.coreAt n).dbg with cells := Vector.replicate 320 0, snap := Vector.replicate 320 0 }) ∧
    (∃ t, exec (.clearReplayLog n) s = .next t ∧ debugOnly n s t ∧ (t.coreAt n).dbg = { (s.coreAt n).dbg with rlwr := 0, rlrd := 0 }) ∧
    ∀ v, ∃ t, exec (.rlrd n v) s = .next t ∧ debugOnly n s t ∧ (t.coreAt n).dbg = { (s.coreAt n).dbg with rlrd := v })

/-- R372, R377 to R380: enabling a crew's trace clears TRLOST and writes an epoch record of 7 doublewords with cause 1 and device time, which a gated crew
keeps for its power-up; a sample record holds the pcs of the active seats; a block of 64 bytes goes to the trace area and TRWR moves on, wrapping; TRRD is
the reader's place; a crew is gated once its buffer is empty, or forced, and comes up again with a loss record of what the gate has dropped and an epoch
record; a stopped clock restarts.
When a trace area is full is the model's reading (log 32). -/
def Obligations.TraceEvents : Prop :=
  (∀ (s : State) (w : CrewId) (v : Dw), v.getLsbD 0 = true → (s.crewAt w).trctl.getLsbD 0 = false → (s.crewAt w).gated = false →
    (s.crewAt w).buf = [] → (∃ p, (s.coreAt (crewCore w p)).stopped = false) → ∃ t hdr c0 c1 c2 c3,
    exec (.traceEnable w v) s = .next t ∧ (t.crewAt w).trctl = v &&& 0xFFF ∧ (t.crewAt w).trlost = 0 ∧
    (t.crewAt w).buf = [hdr, BitVec.ofNat 64 (s.die (crewDie w)).time, BitVec.ofNat 64 (1 + stepMHz (s.die (crewDie w)).clkStep * 2 ^ 16), c0, c1, c2, c3] ∧
    (hdr.extractLsb' 0 4).toNat = 1 ∧ (hdr.extractLsb' 6 8).toNat = 7 ∧ c0 = (s.coreAt (crewCore w 0)).csc ∧ c1 = (s.coreAt (crewCore w 1)).csc ∧
    c2 = (s.coreAt (crewCore w 2)).csc ∧ c3 = (s.coreAt (crewCore w 3)).csc ∧ t.mem = s.mem ∧ t.cores = s.cores) ∧
  (∀ (s : State) (w : CrewId) (v : Dw), v.getLsbD 0 = true → (s.crewAt w).trctl.getLsbD 0 = false → (s.crewAt w).gated = true →
    ∃ t, exec (.traceEnable w v) s = .next t ∧
      t.crewAt w = { s.crewAt w with trctl := v &&& 0xFFF, trlost := 0, lost := 0, gateLost := 0, epochs := [1] } ∧ t.mem = s.mem ∧ t.cores = s.cores) ∧
  (∀ (s : State) (n : CoreId), s.sampleDue n = true → (s.crewAt (crewOf n)).trctl.getLsbD 0 = true → (s.crewAt (crewOf n)).trctl.getLsbD 2 = true →
    (s.crewAt (crewOf n)).lost = 0 →
    (s.crewAt (crewOf n)).buf.length + 5 ≤ 8192 → ((s.coreAt n).csc - (s.crewAt (crewOf n)).last.get (crewPos n)).toNat < 2 ^ 50 →
    ∃ t hdr, exec (.traceSample n) s = .next t ∧ OneCore n s t ∧ (t.coreAt n).ctx = (s.coreAt n).ctx ∧
      (t.crewAt (crewOf n)).buf = (s.crewAt (crewOf n)).buf ++ hdr :: [SeatId.c, .a, .v, .m].map (fun k =>
        if ((s.coreAt n).ctx.seat k).act then ((s.coreAt n).ctx.seat k).pc else 0) ∧
      (hdr.extractLsb' 0 4).toNat = 3 ∧ (hdr.extractLsb' 4 2).toNat = (crewPos n).val ∧ (hdr.extractLsb' 6 8).toNat = 5 ∧
      (hdr.extractLsb' 14 50) = ((s.coreAt n).csc - (s.crewAt (crewOf n)).last.get (crewPos n)).extractLsb' 0 50) ∧
  (∀ (s : State) (w : CrewId), (s.crewAt w).drainable = true →
    let c := s.crewAt w
    let pa := c.trbase.toNat + c.trwr.toNat
    (spaceOf pa).isSome = true → ∃ t, exec (.traceDrain w) s = .next t ∧ (t.crewAt w).buf = c.buf.drop 8 ∧
      (t.crewAt w).trwr.toNat = (c.trwr.toNat + 64) % c.trsize.toNat % 2 ^ 64 ∧ t.slots = s.slots ∧
      (8 ≤ c.buf.length → t.outs = s.outs ++ [.trace w c.trwr.toNat (c.buf.take 8)]) ∧
      (8 ≤ c.buf.length → c.trwr.toNat + 64 ≤ c.trsize.toNat → s.hitsSlot pa 64 = false → MemInv s →
        wrote s t pa ((c.buf.take 8).flatMap fun v => leBytes v.toNat 8))) ∧
  (∀ (s : State) (w : CrewId),
    (∀ v, ∃ t, exec (.trrd w v) s = .next t ∧ t.crewAt w = { s.crewAt w with trrd := v } ∧ t.mem = s.mem ∧ t.cores = s.cores) ∧
    (∀ forced, (s.crewAt w).gated = false → ((s.crewAt w).buf = [] ∨ forced = true) → ∃ t, exec (.crewPowerGate w forced) s = .next t ∧
      (t.crewAt w).gated = true ∧ (t.crewAt w).buf = [] ∧ (t.crewAt w).gateLost = (s.crewAt w).gateLost + (if (s.crewAt w).buf = [] then 0 else (s.crewAt w).records) ∧ t.mem = s.mem ∧ t.cores = s.cores) ∧
    ((s.crewAt w).gated = false → (s.crewAt w).buf ≠ [] → ∃ t, exec (.crewPowerGate w false) s = .next t ∧ t.crewAt w = { s.crewAt w with gating := true } ∧
      t.mem = s.mem ∧ t.cores = s.cores) ∧
    ((s.crewAt w).gated = true → ∃ t, exec (.crewPowerUp w) s = .next t ∧ (t.crewAt w).gated = false ∧ t.mem = s.mem ∧ t.cores = s.cores ∧
      ((s.crewAt w).trctl.getLsbD 0 = true → (s.crewAt w).buf = [] → (s.crewAt w).lost = 0 → (s.crewAt w).epochs = [] →
        (∃ p, (s.coreAt (crewCore w p)).stopped = false) → ∃ loss hdr rest, (t.crewAt w).buf = loss ++ hdr :: BitVec.ofNat 64 (s.die (crewDie w)).time ::
          BitVec.ofNat 64 (4 + stepMHz (s.die (crewDie w)).clkStep * 2 ^ 16) :: rest ∧ rest.length = 4 ∧ (hdr.extractLsb' 0 4).toNat = 1 ∧
          loss = if (s.crewAt w).gateLost = 0 then [] else [BitVec.ofNat 64 (2 + 2 ^ 7), BitVec.ofNat 64 (min (s.crewAt w).gateLost (2 ^ 32 - 1) + 2 ^ 32)]))) ∧
  (∀ (s : State) (n : CoreId),
    (∃ t, exec (.clockStop n) s = .next t ∧ OneCore n s t ∧ t.coreAt n = { s.coreAt n with stopped := true }) ∧
    ((s.coreAt n).stopped = true → ∃ t, exec (.clockRestart n) s = .next t ∧ OneCore n s t ∧ t.coreAt n = { s.coreAt n with stopped := false }))

/-- R321, R385 to R388, R398: a go cuts the die, its id standing in SNSTAT, and halts every core that ran; the first marker of a link does the same, later
ones of its id close their links, as SNMK does the host's; a dump holds the state of every core, the slots and the channel state, and one that fits, over
the host's link, is done; a resume ends the cut and lets its cores run; a write of PWRCTL keeps its cap; one of scope 3 to SNCTL is discarded; the policy
core reaches the debug registers with the host's link down too; an access of a register that is not an aligned one of 64 bits writes nothing and reads zero;
every function reads device time; a read of MBOXOUT clears MBOXST[1].
That a read of a register is an event whose answer goes to the outputs is the model's choice (log 56); the scope of a cut that a marker has made is its
reading (log 57), and the order of a dump's parts is free (log 33). -/
def Obligations.SnapshotEvents : Prop :=
  (∀ (s : State) (d : DieId) (v : Dw), (s.die d).start = .running → v.getLsbD 0 = true → (s.die d).snid ≠ 0 → (v.extractLsb' 2 2).toNat < 3 →
    (s.die d).snap = none → ∃ t p, exec (.snapshotGo d v) s = .next t ∧ (t.die d).snap = some p ∧ p.id = (s.die d).snid ∧ p.scope = v.extractLsb' 2 2 ∧
      p.dumped = false ∧ (t.die d).snstat.extractLsb' 32 32 = (s.die d).snid ∧ (t.die d).snstat.getLsbD 0 = true ∧
      ∀ n, dieOf n = d → (s.coreAt n).dbg.halted = none → (t.coreAt n).dbg.halted = some .cut) ∧
  (∀ (s : State) (d : DieId) (l : Link) (id : Word), (s.die d).start = .running → id ≠ 0 → l ≠ .network →
    ((s.die d).snap = none → ∃ t p, exec (.snapshotMarker d l id) s = .next t ∧ (t.die d).snap = some p ∧ p.id = id ∧ l ∉ p.waiting) ∧
    ∀ p, (s.die d).snap = some p → p.id = id → ∃ t q, exec (.snapshotMarker d l id) s = .next t ∧ (t.die d).snap = some q ∧ q.id = id ∧
      q.waiting = p.waiting.filter (fun k => decide (k ≠ l)) ∧ t.mem = s.mem ∧ t.cores = s.cores) ∧
  (∀ (s : State) (d : DieId) (v : Dw) (p : Snapshot), (s.die d).linkDown = false → (s.die d).snap = some p → p.id = v.setWidth 32 →
    ∃ t q, exec (.snmk d v) s = .next t ∧ (t.die d).snap = some q ∧ q.waiting = p.waiting.filter (fun k => decide (k ≠ .host)) ∧ t.mem = s.mem ∧
      t.cores = s.cores) ∧
  (∀ (s : State) (d : DieId) (p : Snapshot), (s.die d).snap = some p → p.waiting = [] → p.outgoing = [] → p.dumped = false → (s.die d).linkDown = false →
    let b := s.dumpBytes d
    let pa := hostBase + (s.die d).dmpbase.toNat
    (∀ part ∈ s.dumpParts d, part <:+: b) ∧
    (b.length ≤ (s.die d).dmpsize.toNat → pa + b.length ≤ 2 ^ 56 →
      ∃ t q, exec (.snapshotDump d) s = .next t ∧ (t.die d).snap = some q ∧ q.dumped = true ∧ (t.die d).snstat.getLsbD 2 = true ∧ t.slots = s.slots ∧
        t.outs = s.outs ++ [.dump d p.id true] ∧ (MemInv s → s.hitsSlot pa b.length = false → wrote s t pa b)) ∧
    ((s.die d).dmpsize.toNat < b.length → ∃ t q, exec (.snapshotDump d) s = .next t ∧ (t.die d).snap = some q ∧ q.dumped = true ∧
      (t.die d).snstat.getLsbD 3 = true ∧ t.mem = s.mem ∧ t.cores = s.cores)) ∧
  (∀ (s : State) (d : DieId) (p : Snapshot), (s.die d).snap = some p → p.heldMsgs = [] → p.outgoing = [] → (s.die d.other).markerIn = none →
    (∀ e ∈ (s.modDie d fun x => { x with snap := none }).dues d, (s.die d).time < e.time) → ∃ t, exec (.snapshotResume d) s = .next t ∧
      (t.die d).snap = none ∧ (t.die d).time = (s.die d).time ∧ t.mem = s.mem ∧
      ∀ n, dieOf n = d → (s.coreAt n).dbg.halted = some .cut → (t.coreAt n).dbg.halted = none ∧ (t.coreAt n).ctx = (s.coreAt n).ctx) ∧
  (∀ (s : State) (d : DieId), (s.die d).start ≠ .off → (s.die d).linkDown = false →
    (∀ v, ∃ t, exec (.registerWrite d ⟨0, 0x3010, 8, false⟩ (some v)) s = .next t ∧ (t.die d).pwrctl = v &&& 7 ∧ t.mem = s.mem ∧ t.cores = s.cores) ∧
    (∀ v : Dw, v.extractLsb' 2 2 = 3 → exec (.registerWrite d ⟨0, 0x4800, 8, false⟩ (some v)) s = .next s) ∧
    (∀ (a : Bar) (v : Dw), (a.size ≠ 8 ∨ a.off % 8 ≠ 0) → exec (.registerWrite d a (some v)) s = .next s ∧
      exec (.registerWrite d a none) s = .next { s with outs := s.outs ++ [.registerRead d a 0] }) ∧
    (∀ fn, exec (.registerWrite d ⟨fn, 0x0010, 8, false⟩ none) s =
      .next { s with outs := s.outs ++ [.registerRead d ⟨fn, 0x0010, 8, false⟩ (BitVec.ofNat 64 (s.die d).time)] }) ∧
    ∃ t, exec (.registerWrite d ⟨0, 0x2008, 8, false⟩ none) s = .next t ∧ t.outs = s.outs ++ [.registerRead d ⟨0, 0x2008, 8, false⟩ (s.die d).mboxout] ∧
      (t.die d).mboxst.getLsbD 1 = false ∧ t.mem = s.mem ∧ t.cores = s.cores) ∧
  (∀ (s : State) (d : DieId) (v : Dw), (s.die d).start ≠ .off → ∃ t, exec (.registerWrite d ⟨0, 0x4808, 8, true⟩ (some v)) s = .next t ∧
    (t.die d).snid = v.setWidth 32 ∧ t.mem = s.mem ∧ t.cores = s.cores)
end

