-- ==== Sys2Proof/Laws/Arith.lean ====
section
/-! SUPPORT. The scalar operations as expressions over integers. -/

namespace Sys2Proof

open Machine

theorem add_eq_ofInt (a b : Dw) : a + b = BitVec.ofInt 64 ((a.toNat : Int) + b.toNat) := by
  apply BitVec.eq_of_toNat_eq; simp [BitVec.toNat_ofInt]; omega

theorem sub_eq_ofInt (a b : Dw) : a - b = BitVec.ofInt 64 ((a.toNat : Int) - b.toNat) := by
  apply BitVec.eq_of_toNat_eq; simp [BitVec.toNat_ofInt, BitVec.toNat_sub]; omega

theorem mul_eq_ofInt (a b : Dw) : a * b = BitVec.ofInt 64 ((a.toNat : Int) * b.toNat) := by
  apply BitVec.eq_of_toNat_eq; simp only [BitVec.toNat_ofInt, BitVec.toNat_mul]; norm_cast

theorem mulHigh_eq_ofInt (a b : Dw) : mulHigh a b = BitVec.ofInt 64 (a.toInt * b.toInt / 2 ^ 64) := by
  have ha := BitVec.le_toInt a; have hb := BitVec.le_toInt b
  have ha' := BitVec.toInt_lt (x := a); have hb' := BitVec.toInt_lt (x := b)
  simp only [Nat.add_one_sub_one] at *
  norm_num at ha hb ha' hb'
  have e : a.signExtend 128 * b.signExtend 128 = BitVec.ofInt 128 (a.toInt * b.toInt) := by
    rw [BitVec.ofInt_mul]; congr 1
  unfold mulHigh
  rw [e]
  apply BitVec.eq_of_toNat_eq
  simp only [BitVec.extractLsb'_toNat, BitVec.toNat_ofInt, Nat.shiftRight_eq_div_pow]
  norm_num
  generalize a.toInt * b.toInt = x
  omega

theorem mulHighU_eq_ofInt (a b : Dw) : mulHighU a b = BitVec.ofInt 64 ((a.toNat : Int) * b.toNat / 2 ^ 64) := by
  have ha := a.isLt; have hb := b.isLt
  have hp : a.toNat * b.toNat < 2 ^ 128 := by
    calc a.toNat * b.toNat < 2 ^ 64 * 2 ^ 64 := Nat.mul_lt_mul'' ha hb
      _ = 2 ^ 128 := by norm_num
  unfold mulHighU
  apply BitVec.eq_of_toNat_eq
  simp only [BitVec.extractLsb'_toNat, BitVec.toNat_ofInt, Nat.shiftRight_eq_div_pow, BitVec.toNat_mul, BitVec.toNat_setWidth]
  rw [Nat.mod_eq_of_lt (show a.toNat < 2 ^ 128 by omega), Nat.mod_eq_of_lt (show b.toNat < 2 ^ 128 by omega), Nat.mod_eq_of_lt hp]
  norm_cast

theorem divU_eq (a b : Dw) : divU a b = if b = 0 then BitVec.ofInt 64 (2 ^ 64 - 1) else BitVec.ofInt 64 ((a.toNat : Int) / b.toNat) := by
  unfold divU; split
  · rfl
  · rw [← Int.natCast_div, BitVec.ofInt_natCast]

theorem divS_eq (a b : Dw) : divS a b = if b = 0 then BitVec.ofInt 64 (-1) else BitVec.ofInt 64 (a.toInt.tdiv b.toInt) := by
  unfold divS; split
  · rfl
  · rfl

theorem remS_eq (a b : Dw) : remS a b = if b = 0 then a else BitVec.ofInt 64 (a.toInt - b.toInt * a.toInt.tdiv b.toInt) := by
  unfold remS; rw [Int.tmod_def]

theorem shl_eq_ofInt (a : Dw) (k : Nat) : a <<< k = BitVec.ofInt 64 ((a.toNat : Int) * 2 ^ k) := by
  apply BitVec.eq_of_toNat_eq
  simp only [BitVec.toNat_ofInt, BitVec.toNat_shiftLeft, Nat.shiftLeft_eq]; norm_cast

theorem shr_eq_ofInt (a : Dw) (k : Nat) : a >>> k = BitVec.ofInt 64 ((a.toNat : Int) / 2 ^ k) := by
  apply BitVec.eq_of_toNat_eq
  have := a.isLt
  have h2 : a.toNat / 2 ^ k < 2 ^ 64 := lt_of_le_of_lt (Nat.div_le_self ..) this
  simp only [BitVec.toNat_ofInt, BitVec.toNat_ushiftRight, Nat.shiftRight_eq_div_pow]
  norm_cast
  rw [Nat.mod_eq_of_lt h2]

theorem sar_eq_ofInt (a : Dw) (k : Nat) : a.sshiftRight k = BitVec.ofInt 64 (a.toInt / 2 ^ k) := by
  apply BitVec.eq_of_toInt_eq
  rw [BitVec.toInt_sshiftRight, BitVec.toInt_ofInt, Int.shiftRight_eq_div_pow]
  have h1 := BitVec.le_toInt a; have h2 := BitVec.toInt_lt (x := a)
  have hk : (1 : Int) ≤ 2 ^ k := by exact_mod_cast Nat.one_le_two_pow
  norm_num at h1 h2
  have l : (-9223372036854775808 : Int) ≤ a.toInt / 2 ^ k := by rw [Int.le_ediv_iff_mul_le (by positivity)]; nlinarith
  have u : a.toInt / 2 ^ k < (9223372036854775808 : Int) := by rw [Int.ediv_lt_iff_lt_mul (by positivity)]; nlinarith
  rw [Int.bmod_eq_of_le] <;> norm_num <;> assumption

theorem min_eq_ofInt (a b : Dw) : (if a.slt b then a else b) = BitVec.ofInt 64 (min a.toInt b.toInt) := by
  simp only [BitVec.slt_iff_toInt_lt]
  split
  · rw [min_eq_left (by omega), BitVec.ofInt_toInt]
  · rw [min_eq_right (by omega), BitVec.ofInt_toInt]

theorem max_eq_ofInt (a b : Dw) : (if a.slt b then b else a) = BitVec.ofInt 64 (max a.toInt b.toInt) := by
  simp only [BitVec.slt_iff_toInt_lt]
  split
  · rw [max_eq_right (by omega), BitVec.ofInt_toInt]
  · rw [max_eq_left (by omega), BitVec.ofInt_toInt]

theorem sx_toInt {w : Nat} (v : BitVec w) (h : w ≤ 64) : (sx v).toInt = v.toInt := BitVec.toInt_signExtend_of_le h

theorem add_sx_eq (a : Dw) {w : Nat} (v : BitVec w) (h : w ≤ 64) : a + sx v = BitVec.ofInt 64 (a.toInt + v.toInt) := by
  rw [← sx_toInt v h, BitVec.ofInt_add, BitVec.ofInt_toInt, BitVec.ofInt_toInt]

theorem zx_eq {w : Nat} (v : BitVec w) : zx v = BitVec.ofNat 64 v.toNat := by
  apply BitVec.eq_of_toNat_eq; simp [zx]

theorem luiVal_eq (imm : BitVec 18) : luiVal imm = BitVec.ofInt 64 (imm.toInt * 2 ^ 13) := by
  unfold luiVal
  have h : (sx imm : Dw) = BitVec.ofInt 64 imm.toInt := by rw [← sx_toInt imm (by omega), BitVec.ofInt_toInt]
  rw [h, BitVec.ofInt_mul, BitVec.shiftLeft_eq_mul_twoPow]; rfl

theorem target_eq (a : Dw) {w : Nat} (v : BitVec w) (h : w ≤ 64) : target a v = BitVec.ofInt 64 ((a.toNat : Int) + 4 * v.toInt) := by
  unfold target
  rw [BitVec.ofInt_add, BitVec.ofInt_mul, BitVec.ofInt_natCast, BitVec.ofNat_toNat, BitVec.setWidth_eq, ← sx_toInt v h, BitVec.ofInt_toInt]; rfl

end Sys2Proof
end

