-- ==== Sys2Proof/Laws/State.lean ====
section
/-! SUPPORT. One lemma per field of State and update of it: the fields an update leaves, and what its own field reads as. -/

namespace Sys2Proof.Machine

open Sys2Proof

/-! ### setCore -/

@[simp] theorem State.setCore_crews (s : State) (n : CoreId) (c : Core) : (s.setCore n c).crews = s.crews := rfl
@[simp] theorem State.setCore_bow (s : State) (n : CoreId) (c : Core) : (s.setCore n c).bow = s.bow := rfl
@[simp] theorem State.setCore_stern (s : State) (n : CoreId) (c : Core) : (s.setCore n c).stern = s.stern := rfl
@[simp] theorem State.setCore_mem (s : State) (n : CoreId) (c : Core) : (s.setCore n c).mem = s.mem := rfl
@[simp] theorem State.setCore_poison (s : State) (n : CoreId) (c : Core) : (s.setCore n c).poison = s.poison := rfl
@[simp] theorem State.setCore_slots (s : State) (n : CoreId) (c : Core) : (s.setCore n c).slots = s.slots := rfl
@[simp] theorem State.setCore_parked (s : State) (n : CoreId) (c : Core) : (s.setCore n c).parked = s.parked := rfl
@[simp] theorem State.setCore_parts (s : State) (n : CoreId) (c : Core) : (s.setCore n c).parts = s.parts := rfl
@[simp] theorem State.setCore_shared (s : State) (n : CoreId) (c : Core) : (s.setCore n c).shared = s.shared := rfl
@[simp] theorem State.setCore_links (s : State) (n : CoreId) (c : Core) : (s.setCore n c).links = s.links := rfl
@[simp] theorem State.setCore_reconf (s : State) (n : CoreId) (c : Core) : (s.setCore n c).reconf = s.reconf := rfl
@[simp] theorem State.setCore_isolate (s : State) (n : CoreId) (c : Core) : (s.setCore n c).isolate = s.isolate := rfl
@[simp] theorem State.setCore_source (s : State) (n : CoreId) (c : Core) : (s.setCore n c).source = s.source := rfl
@[simp] theorem State.setCore_outs (s : State) (n : CoreId) (c : Core) : (s.setCore n c).outs = s.outs := rfl
@[simp] theorem State.setCore_cur (s : State) (n : CoreId) (c : Core) : (s.setCore n c).cur = s.cur := rfl
@[simp] theorem State.setCore_turn (s : State) (n : CoreId) (c : Core) : (s.setCore n c).turn = s.turn := rfl
@[simp] theorem State.setCore_inputs (s : State) (n : CoreId) (c : Core) : (s.setCore n c).inputs = s.inputs := rfl
@[simp] theorem State.setCore_free (s : State) (n : CoreId) (c : Core) : (s.setCore n c).free = s.free := rfl
@[simp] theorem State.setCore_nextId (s : State) (n : CoreId) (c : Core) : (s.setCore n c).nextId = s.nextId := rfl

/-! ### modCore -/

@[simp] theorem State.modCore_crews (s : State) (n : CoreId) (f : Core → Core) : (s.modCore n f).crews = s.crews := rfl
@[simp] theorem State.modCore_bow (s : State) (n : CoreId) (f : Core → Core) : (s.modCore n f).bow = s.bow := rfl
@[simp] theorem State.modCore_stern (s : State) (n : CoreId) (f : Core → Core) : (s.modCore n f).stern = s.stern := rfl
@[simp] theorem State.modCore_mem (s : State) (n : CoreId) (f : Core → Core) : (s.modCore n f).mem = s.mem := rfl
@[simp] theorem State.modCore_poison (s : State) (n : CoreId) (f : Core → Core) : (s.modCore n f).poison = s.poison := rfl
@[simp] theorem State.modCore_slots (s : State) (n : CoreId) (f : Core → Core) : (s.modCore n f).slots = s.slots := rfl
@[simp] theorem State.modCore_parked (s : State) (n : CoreId) (f : Core → Core) : (s.modCore n f).parked = s.parked := rfl
@[simp] theorem State.modCore_parts (s : State) (n : CoreId) (f : Core → Core) : (s.modCore n f).parts = s.parts := rfl
@[simp] theorem State.modCore_shared (s : State) (n : CoreId) (f : Core → Core) : (s.modCore n f).shared = s.shared := rfl
@[simp] theorem State.modCore_links (s : State) (n : CoreId) (f : Core → Core) : (s.modCore n f).links = s.links := rfl
@[simp] theorem State.modCore_reconf (s : State) (n : CoreId) (f : Core → Core) : (s.modCore n f).reconf = s.reconf := rfl
@[simp] theorem State.modCore_isolate (s : State) (n : CoreId) (f : Core → Core) : (s.modCore n f).isolate = s.isolate := rfl
@[simp] theorem State.modCore_source (s : State) (n : CoreId) (f : Core → Core) : (s.modCore n f).source = s.source := rfl
@[simp] theorem State.modCore_outs (s : State) (n : CoreId) (f : Core → Core) : (s.modCore n f).outs = s.outs := rfl
@[simp] theorem State.modCore_cur (s : State) (n : CoreId) (f : Core → Core) : (s.modCore n f).cur = s.cur := rfl
@[simp] theorem State.modCore_turn (s : State) (n : CoreId) (f : Core → Core) : (s.modCore n f).turn = s.turn := rfl
@[simp] theorem State.modCore_inputs (s : State) (n : CoreId) (f : Core → Core) : (s.modCore n f).inputs = s.inputs := rfl
@[simp] theorem State.modCore_free (s : State) (n : CoreId) (f : Core → Core) : (s.modCore n f).free = s.free := rfl
@[simp] theorem State.modCore_nextId (s : State) (n : CoreId) (f : Core → Core) : (s.modCore n f).nextId = s.nextId := rfl

/-! ### modCtx -/

@[simp] theorem State.modCtx_crews (s : State) (n : CoreId) (f : Ctx → Ctx) : (s.modCtx n f).crews = s.crews := rfl
@[simp] theorem State.modCtx_bow (s : State) (n : CoreId) (f : Ctx → Ctx) : (s.modCtx n f).bow = s.bow := rfl
@[simp] theorem State.modCtx_stern (s : State) (n : CoreId) (f : Ctx → Ctx) : (s.modCtx n f).stern = s.stern := rfl
@[simp] theorem State.modCtx_mem (s : State) (n : CoreId) (f : Ctx → Ctx) : (s.modCtx n f).mem = s.mem := rfl
@[simp] theorem State.modCtx_poison (s : State) (n : CoreId) (f : Ctx → Ctx) : (s.modCtx n f).poison = s.poison := rfl
@[simp] theorem State.modCtx_slots (s : State) (n : CoreId) (f : Ctx → Ctx) : (s.modCtx n f).slots = s.slots := rfl
@[simp] theorem State.modCtx_parked (s : State) (n : CoreId) (f : Ctx → Ctx) : (s.modCtx n f).parked = s.parked := rfl
@[simp] theorem State.modCtx_parts (s : State) (n : CoreId) (f : Ctx → Ctx) : (s.modCtx n f).parts = s.parts := rfl
@[simp] theorem State.modCtx_shared (s : State) (n : CoreId) (f : Ctx → Ctx) : (s.modCtx n f).shared = s.shared := rfl
@[simp] theorem State.modCtx_links (s : State) (n : CoreId) (f : Ctx → Ctx) : (s.modCtx n f).links = s.links := rfl
@[simp] theorem State.modCtx_reconf (s : State) (n : CoreId) (f : Ctx → Ctx) : (s.modCtx n f).reconf = s.reconf := rfl
@[simp] theorem State.modCtx_isolate (s : State) (n : CoreId) (f : Ctx → Ctx) : (s.modCtx n f).isolate = s.isolate := rfl
@[simp] theorem State.modCtx_source (s : State) (n : CoreId) (f : Ctx → Ctx) : (s.modCtx n f).source = s.source := rfl
@[simp] theorem State.modCtx_outs (s : State) (n : CoreId) (f : Ctx → Ctx) : (s.modCtx n f).outs = s.outs := rfl
@[simp] theorem State.modCtx_cur (s : State) (n : CoreId) (f : Ctx → Ctx) : (s.modCtx n f).cur = s.cur := rfl
@[simp] theorem State.modCtx_turn (s : State) (n : CoreId) (f : Ctx → Ctx) : (s.modCtx n f).turn = s.turn := rfl
@[simp] theorem State.modCtx_inputs (s : State) (n : CoreId) (f : Ctx → Ctx) : (s.modCtx n f).inputs = s.inputs := rfl
@[simp] theorem State.modCtx_free (s : State) (n : CoreId) (f : Ctx → Ctx) : (s.modCtx n f).free = s.free := rfl
@[simp] theorem State.modCtx_nextId (s : State) (n : CoreId) (f : Ctx → Ctx) : (s.modCtx n f).nextId = s.nextId := rfl

/-! ### setCrew -/

@[simp] theorem State.setCrew_cores (s : State) (w : CrewId) (c : Crew) : (s.setCrew w c).cores = s.cores := rfl
@[simp] theorem State.setCrew_bow (s : State) (w : CrewId) (c : Crew) : (s.setCrew w c).bow = s.bow := rfl
@[simp] theorem State.setCrew_stern (s : State) (w : CrewId) (c : Crew) : (s.setCrew w c).stern = s.stern := rfl
@[simp] theorem State.setCrew_mem (s : State) (w : CrewId) (c : Crew) : (s.setCrew w c).mem = s.mem := rfl
@[simp] theorem State.setCrew_poison (s : State) (w : CrewId) (c : Crew) : (s.setCrew w c).poison = s.poison := rfl
@[simp] theorem State.setCrew_slots (s : State) (w : CrewId) (c : Crew) : (s.setCrew w c).slots = s.slots := rfl
@[simp] theorem State.setCrew_parked (s : State) (w : CrewId) (c : Crew) : (s.setCrew w c).parked = s.parked := rfl
@[simp] theorem State.setCrew_parts (s : State) (w : CrewId) (c : Crew) : (s.setCrew w c).parts = s.parts := rfl
@[simp] theorem State.setCrew_shared (s : State) (w : CrewId) (c : Crew) : (s.setCrew w c).shared = s.shared := rfl
@[simp] theorem State.setCrew_links (s : State) (w : CrewId) (c : Crew) : (s.setCrew w c).links = s.links := rfl
@[simp] theorem State.setCrew_reconf (s : State) (w : CrewId) (c : Crew) : (s.setCrew w c).reconf = s.reconf := rfl
@[simp] theorem State.setCrew_isolate (s : State) (w : CrewId) (c : Crew) : (s.setCrew w c).isolate = s.isolate := rfl
@[simp] theorem State.setCrew_source (s : State) (w : CrewId) (c : Crew) : (s.setCrew w c).source = s.source := rfl
@[simp] theorem State.setCrew_outs (s : State) (w : CrewId) (c : Crew) : (s.setCrew w c).outs = s.outs := rfl
@[simp] theorem State.setCrew_cur (s : State) (w : CrewId) (c : Crew) : (s.setCrew w c).cur = s.cur := rfl
@[simp] theorem State.setCrew_turn (s : State) (w : CrewId) (c : Crew) : (s.setCrew w c).turn = s.turn := rfl
@[simp] theorem State.setCrew_inputs (s : State) (w : CrewId) (c : Crew) : (s.setCrew w c).inputs = s.inputs := rfl
@[simp] theorem State.setCrew_free (s : State) (w : CrewId) (c : Crew) : (s.setCrew w c).free = s.free := rfl
@[simp] theorem State.setCrew_nextId (s : State) (w : CrewId) (c : Crew) : (s.setCrew w c).nextId = s.nextId := rfl

/-! ### setDie -/

@[simp] theorem State.setDie_cores (s : State) (d : DieId) (x : Die) : (s.setDie d x).cores = s.cores := by cases d <;> rfl
@[simp] theorem State.setDie_crews (s : State) (d : DieId) (x : Die) : (s.setDie d x).crews = s.crews := by cases d <;> rfl
@[simp] theorem State.setDie_mem (s : State) (d : DieId) (x : Die) : (s.setDie d x).mem = s.mem := by cases d <;> rfl
@[simp] theorem State.setDie_poison (s : State) (d : DieId) (x : Die) : (s.setDie d x).poison = s.poison := by cases d <;> rfl
@[simp] theorem State.setDie_slots (s : State) (d : DieId) (x : Die) : (s.setDie d x).slots = s.slots := by cases d <;> rfl
@[simp] theorem State.setDie_parked (s : State) (d : DieId) (x : Die) : (s.setDie d x).parked = s.parked := by cases d <;> rfl
@[simp] theorem State.setDie_parts (s : State) (d : DieId) (x : Die) : (s.setDie d x).parts = s.parts := by cases d <;> rfl
@[simp] theorem State.setDie_shared (s : State) (d : DieId) (x : Die) : (s.setDie d x).shared = s.shared := by cases d <;> rfl
@[simp] theorem State.setDie_links (s : State) (d : DieId) (x : Die) : (s.setDie d x).links = s.links := by cases d <;> rfl
@[simp] theorem State.setDie_reconf (s : State) (d : DieId) (x : Die) : (s.setDie d x).reconf = s.reconf := by cases d <;> rfl
@[simp] theorem State.setDie_isolate (s : State) (d : DieId) (x : Die) : (s.setDie d x).isolate = s.isolate := by cases d <;> rfl
@[simp] theorem State.setDie_source (s : State) (d : DieId) (x : Die) : (s.setDie d x).source = s.source := by cases d <;> rfl
@[simp] theorem State.setDie_outs (s : State) (d : DieId) (x : Die) : (s.setDie d x).outs = s.outs := by cases d <;> rfl
@[simp] theorem State.setDie_cur (s : State) (d : DieId) (x : Die) : (s.setDie d x).cur = s.cur := by cases d <;> rfl
@[simp] theorem State.setDie_turn (s : State) (d : DieId) (x : Die) : (s.setDie d x).turn = s.turn := by cases d <;> rfl
@[simp] theorem State.setDie_inputs (s : State) (d : DieId) (x : Die) : (s.setDie d x).inputs = s.inputs := by cases d <;> rfl
@[simp] theorem State.setDie_free (s : State) (d : DieId) (x : Die) : (s.setDie d x).free = s.free := by cases d <;> rfl
@[simp] theorem State.setDie_nextId (s : State) (d : DieId) (x : Die) : (s.setDie d x).nextId = s.nextId := by cases d <;> rfl

/-! ### modDie -/

@[simp] theorem State.modDie_cores (s : State) (d : DieId) (f : Die → Die) : (s.modDie d f).cores = s.cores := by cases d <;> rfl
@[simp] theorem State.modDie_crews (s : State) (d : DieId) (f : Die → Die) : (s.modDie d f).crews = s.crews := by cases d <;> rfl
@[simp] theorem State.modDie_mem (s : State) (d : DieId) (f : Die → Die) : (s.modDie d f).mem = s.mem := by cases d <;> rfl
@[simp] theorem State.modDie_poison (s : State) (d : DieId) (f : Die → Die) : (s.modDie d f).poison = s.poison := by cases d <;> rfl
@[simp] theorem State.modDie_slots (s : State) (d : DieId) (f : Die → Die) : (s.modDie d f).slots = s.slots := by cases d <;> rfl
@[simp] theorem State.modDie_parked (s : State) (d : DieId) (f : Die → Die) : (s.modDie d f).parked = s.parked := by cases d <;> rfl
@[simp] theorem State.modDie_parts (s : State) (d : DieId) (f : Die → Die) : (s.modDie d f).parts = s.parts := by cases d <;> rfl
@[simp] theorem State.modDie_shared (s : State) (d : DieId) (f : Die → Die) : (s.modDie d f).shared = s.shared := by cases d <;> rfl
@[simp] theorem State.modDie_links (s : State) (d : DieId) (f : Die → Die) : (s.modDie d f).links = s.links := by cases d <;> rfl
@[simp] theorem State.modDie_reconf (s : State) (d : DieId) (f : Die → Die) : (s.modDie d f).reconf = s.reconf := by cases d <;> rfl
@[simp] theorem State.modDie_isolate (s : State) (d : DieId) (f : Die → Die) : (s.modDie d f).isolate = s.isolate := by cases d <;> rfl
@[simp] theorem State.modDie_source (s : State) (d : DieId) (f : Die → Die) : (s.modDie d f).source = s.source := by cases d <;> rfl
@[simp] theorem State.modDie_outs (s : State) (d : DieId) (f : Die → Die) : (s.modDie d f).outs = s.outs := by cases d <;> rfl
@[simp] theorem State.modDie_cur (s : State) (d : DieId) (f : Die → Die) : (s.modDie d f).cur = s.cur := by cases d <;> rfl
@[simp] theorem State.modDie_turn (s : State) (d : DieId) (f : Die → Die) : (s.modDie d f).turn = s.turn := by cases d <;> rfl
@[simp] theorem State.modDie_inputs (s : State) (d : DieId) (f : Die → Die) : (s.modDie d f).inputs = s.inputs := by cases d <;> rfl
@[simp] theorem State.modDie_free (s : State) (d : DieId) (f : Die → Die) : (s.modDie d f).free = s.free := by cases d <;> rfl
@[simp] theorem State.modDie_nextId (s : State) (d : DieId) (f : Die → Die) : (s.modDie d f).nextId = s.nextId := by cases d <;> rfl

/-! ### modPart -/

@[simp] theorem State.modPart_cores (s : State) (p : Fin 32) (d : DieId) (f : PartDie → PartDie) : (s.modPart p d f).cores = s.cores := rfl
@[simp] theorem State.modPart_crews (s : State) (p : Fin 32) (d : DieId) (f : PartDie → PartDie) : (s.modPart p d f).crews = s.crews := rfl
@[simp] theorem State.modPart_bow (s : State) (p : Fin 32) (d : DieId) (f : PartDie → PartDie) : (s.modPart p d f).bow = s.bow := rfl
@[simp] theorem State.modPart_stern (s : State) (p : Fin 32) (d : DieId) (f : PartDie → PartDie) : (s.modPart p d f).stern = s.stern := rfl
@[simp] theorem State.modPart_mem (s : State) (p : Fin 32) (d : DieId) (f : PartDie → PartDie) : (s.modPart p d f).mem = s.mem := rfl
@[simp] theorem State.modPart_poison (s : State) (p : Fin 32) (d : DieId) (f : PartDie → PartDie) : (s.modPart p d f).poison = s.poison := rfl
@[simp] theorem State.modPart_slots (s : State) (p : Fin 32) (d : DieId) (f : PartDie → PartDie) : (s.modPart p d f).slots = s.slots := rfl
@[simp] theorem State.modPart_parked (s : State) (p : Fin 32) (d : DieId) (f : PartDie → PartDie) : (s.modPart p d f).parked = s.parked := rfl
@[simp] theorem State.modPart_shared (s : State) (p : Fin 32) (d : DieId) (f : PartDie → PartDie) : (s.modPart p d f).shared = s.shared := rfl
@[simp] theorem State.modPart_links (s : State) (p : Fin 32) (d : DieId) (f : PartDie → PartDie) : (s.modPart p d f).links = s.links := rfl
@[simp] theorem State.modPart_reconf (s : State) (p : Fin 32) (d : DieId) (f : PartDie → PartDie) : (s.modPart p d f).reconf = s.reconf := rfl
@[simp] theorem State.modPart_isolate (s : State) (p : Fin 32) (d : DieId) (f : PartDie → PartDie) : (s.modPart p d f).isolate = s.isolate := rfl
@[simp] theorem State.modPart_source (s : State) (p : Fin 32) (d : DieId) (f : PartDie → PartDie) : (s.modPart p d f).source = s.source := rfl
@[simp] theorem State.modPart_outs (s : State) (p : Fin 32) (d : DieId) (f : PartDie → PartDie) : (s.modPart p d f).outs = s.outs := rfl
@[simp] theorem State.modPart_cur (s : State) (p : Fin 32) (d : DieId) (f : PartDie → PartDie) : (s.modPart p d f).cur = s.cur := rfl
@[simp] theorem State.modPart_turn (s : State) (p : Fin 32) (d : DieId) (f : PartDie → PartDie) : (s.modPart p d f).turn = s.turn := rfl
@[simp] theorem State.modPart_inputs (s : State) (p : Fin 32) (d : DieId) (f : PartDie → PartDie) : (s.modPart p d f).inputs = s.inputs := rfl
@[simp] theorem State.modPart_free (s : State) (p : Fin 32) (d : DieId) (f : PartDie → PartDie) : (s.modPart p d f).free = s.free := rfl
@[simp] theorem State.modPart_nextId (s : State) (p : Fin 32) (d : DieId) (f : PartDie → PartDie) : (s.modPart p d f).nextId = s.nextId := rfl

/-! ### outp -/

@[simp] theorem State.outp_cores (s : State) (o : Out) : (s.outp o).cores = s.cores := rfl
@[simp] theorem State.outp_crews (s : State) (o : Out) : (s.outp o).crews = s.crews := rfl
@[simp] theorem State.outp_bow (s : State) (o : Out) : (s.outp o).bow = s.bow := rfl
@[simp] theorem State.outp_stern (s : State) (o : Out) : (s.outp o).stern = s.stern := rfl
@[simp] theorem State.outp_mem (s : State) (o : Out) : (s.outp o).mem = s.mem := rfl
@[simp] theorem State.outp_poison (s : State) (o : Out) : (s.outp o).poison = s.poison := rfl
@[simp] theorem State.outp_slots (s : State) (o : Out) : (s.outp o).slots = s.slots := rfl
@[simp] theorem State.outp_parked (s : State) (o : Out) : (s.outp o).parked = s.parked := rfl
@[simp] theorem State.outp_parts (s : State) (o : Out) : (s.outp o).parts = s.parts := rfl
@[simp] theorem State.outp_shared (s : State) (o : Out) : (s.outp o).shared = s.shared := rfl
@[simp] theorem State.outp_links (s : State) (o : Out) : (s.outp o).links = s.links := rfl
@[simp] theorem State.outp_reconf (s : State) (o : Out) : (s.outp o).reconf = s.reconf := rfl
@[simp] theorem State.outp_isolate (s : State) (o : Out) : (s.outp o).isolate = s.isolate := rfl
@[simp] theorem State.outp_source (s : State) (o : Out) : (s.outp o).source = s.source := rfl
@[simp] theorem State.outp_cur (s : State) (o : Out) : (s.outp o).cur = s.cur := rfl
@[simp] theorem State.outp_turn (s : State) (o : Out) : (s.outp o).turn = s.turn := rfl
@[simp] theorem State.outp_inputs (s : State) (o : Out) : (s.outp o).inputs = s.inputs := rfl
@[simp] theorem State.outp_free (s : State) (o : Out) : (s.outp o).free = s.free := rfl
@[simp] theorem State.outp_nextId (s : State) (o : Out) : (s.outp o).nextId = s.nextId := rfl

/-! ### fresh -/

@[simp] theorem State.fresh_cores (s : State) : s.fresh.cores = s.cores := rfl
@[simp] theorem State.fresh_crews (s : State) : s.fresh.crews = s.crews := rfl
@[simp] theorem State.fresh_bow (s : State) : s.fresh.bow = s.bow := rfl
@[simp] theorem State.fresh_stern (s : State) : s.fresh.stern = s.stern := rfl
@[simp] theorem State.fresh_mem (s : State) : s.fresh.mem = s.mem := rfl
@[simp] theorem State.fresh_poison (s : State) : s.fresh.poison = s.poison := rfl
@[simp] theorem State.fresh_slots (s : State) : s.fresh.slots = s.slots := rfl
@[simp] theorem State.fresh_parked (s : State) : s.fresh.parked = s.parked := rfl
@[simp] theorem State.fresh_parts (s : State) : s.fresh.parts = s.parts := rfl
@[simp] theorem State.fresh_shared (s : State) : s.fresh.shared = s.shared := rfl
@[simp] theorem State.fresh_links (s : State) : s.fresh.links = s.links := rfl
@[simp] theorem State.fresh_reconf (s : State) : s.fresh.reconf = s.reconf := rfl
@[simp] theorem State.fresh_isolate (s : State) : s.fresh.isolate = s.isolate := rfl
@[simp] theorem State.fresh_source (s : State) : s.fresh.source = s.source := rfl
@[simp] theorem State.fresh_outs (s : State) : s.fresh.outs = s.outs := rfl
@[simp] theorem State.fresh_cur (s : State) : s.fresh.cur = s.cur := rfl
@[simp] theorem State.fresh_turn (s : State) : s.fresh.turn = s.turn := rfl
@[simp] theorem State.fresh_inputs (s : State) : s.fresh.inputs = s.inputs := rfl
@[simp] theorem State.fresh_nextId (s : State) : s.fresh.nextId = s.nextId := rfl

/-! ### passTurn -/

@[simp] theorem State.passTurn_cores (s : State) : s.passTurn.cores = s.cores := rfl
@[simp] theorem State.passTurn_crews (s : State) : s.passTurn.crews = s.crews := rfl
@[simp] theorem State.passTurn_bow (s : State) : s.passTurn.bow = s.bow := rfl
@[simp] theorem State.passTurn_stern (s : State) : s.passTurn.stern = s.stern := rfl
@[simp] theorem State.passTurn_mem (s : State) : s.passTurn.mem = s.mem := rfl
@[simp] theorem State.passTurn_poison (s : State) : s.passTurn.poison = s.poison := rfl
@[simp] theorem State.passTurn_slots (s : State) : s.passTurn.slots = s.slots := rfl
@[simp] theorem State.passTurn_parked (s : State) : s.passTurn.parked = s.parked := rfl
@[simp] theorem State.passTurn_parts (s : State) : s.passTurn.parts = s.parts := rfl
@[simp] theorem State.passTurn_shared (s : State) : s.passTurn.shared = s.shared := rfl
@[simp] theorem State.passTurn_links (s : State) : s.passTurn.links = s.links := rfl
@[simp] theorem State.passTurn_reconf (s : State) : s.passTurn.reconf = s.reconf := rfl
@[simp] theorem State.passTurn_isolate (s : State) : s.passTurn.isolate = s.isolate := rfl
@[simp] theorem State.passTurn_source (s : State) : s.passTurn.source = s.source := rfl
@[simp] theorem State.passTurn_outs (s : State) : s.passTurn.outs = s.outs := rfl
@[simp] theorem State.passTurn_cur (s : State) : s.passTurn.cur = s.cur := rfl
@[simp] theorem State.passTurn_inputs (s : State) : s.passTurn.inputs = s.inputs := rfl
@[simp] theorem State.passTurn_nextId (s : State) : s.passTurn.nextId = s.nextId := rfl

/-! ### sendR -/

@[simp] theorem State.sendR_crews (s : State) (r : InFlight) : (s.sendR r).crews = s.crews := rfl
@[simp] theorem State.sendR_bow (s : State) (r : InFlight) : (s.sendR r).bow = s.bow := rfl
@[simp] theorem State.sendR_stern (s : State) (r : InFlight) : (s.sendR r).stern = s.stern := rfl
@[simp] theorem State.sendR_mem (s : State) (r : InFlight) : (s.sendR r).mem = s.mem := rfl
@[simp] theorem State.sendR_poison (s : State) (r : InFlight) : (s.sendR r).poison = s.poison := rfl
@[simp] theorem State.sendR_slots (s : State) (r : InFlight) : (s.sendR r).slots = s.slots := rfl
@[simp] theorem State.sendR_parked (s : State) (r : InFlight) : (s.sendR r).parked = s.parked := rfl
@[simp] theorem State.sendR_parts (s : State) (r : InFlight) : (s.sendR r).parts = s.parts := rfl
@[simp] theorem State.sendR_shared (s : State) (r : InFlight) : (s.sendR r).shared = s.shared := rfl
@[simp] theorem State.sendR_links (s : State) (r : InFlight) : (s.sendR r).links = s.links := rfl
@[simp] theorem State.sendR_reconf (s : State) (r : InFlight) : (s.sendR r).reconf = s.reconf := rfl
@[simp] theorem State.sendR_isolate (s : State) (r : InFlight) : (s.sendR r).isolate = s.isolate := rfl
@[simp] theorem State.sendR_source (s : State) (r : InFlight) : (s.sendR r).source = s.source := rfl
@[simp] theorem State.sendR_outs (s : State) (r : InFlight) : (s.sendR r).outs = s.outs := rfl
@[simp] theorem State.sendR_cur (s : State) (r : InFlight) : (s.sendR r).cur = s.cur := rfl
@[simp] theorem State.sendR_turn (s : State) (r : InFlight) : (s.sendR r).turn = s.turn := rfl
@[simp] theorem State.sendR_inputs (s : State) (r : InFlight) : (s.sendR r).inputs = s.inputs := rfl
@[simp] theorem State.sendR_free (s : State) (r : InFlight) : (s.sendR r).free = s.free := rfl
@[simp] theorem State.sendR_nextId (s : State) (r : InFlight) : (s.sendR r).nextId = s.nextId := rfl

/-! ### Cores -/

@[simp] theorem State.coreAt_setCore (s : State) (n : CoreId) (c : Core) : (s.setCore n c).coreAt n = c :=
  Vector.getElem_set_self ..

@[simp] theorem State.coreAt_setCore_ne (s : State) (n m : CoreId) (c : Core) (h : m ≠ n) : (s.setCore n c).coreAt m = s.coreAt m :=
  Vector.getElem_set_ne n.isLt m.isLt fun e => h (Fin.ext e.symm)

@[simp] theorem State.coreAt_modCore (s : State) (n : CoreId) (f : Core → Core) : (s.modCore n f).coreAt n = f (s.coreAt n) := by
  simp [State.modCore]

@[simp] theorem State.coreAt_modCore_ne (s : State) (n m : CoreId) (f : Core → Core) (h : m ≠ n) : (s.modCore n f).coreAt m = s.coreAt m := by
  simp [State.modCore, h]

@[simp] theorem State.coreAt_modCtx (s : State) (n : CoreId) (f : Ctx → Ctx) :
    (s.modCtx n f).coreAt n = { s.coreAt n with ctx := f (s.coreAt n).ctx } := by simp [State.modCtx]

@[simp] theorem State.coreAt_modCtx_ne (s : State) (n m : CoreId) (f : Ctx → Ctx) (h : m ≠ n) : (s.modCtx n f).coreAt m = s.coreAt m := by
  simp [State.modCtx, h]

@[simp] theorem State.coreAt_setCrew (s : State) (w : CrewId) (c : Crew) (n : CoreId) : (s.setCrew w c).coreAt n = s.coreAt n := rfl

@[simp] theorem State.coreAt_setDie (s : State) (d : DieId) (x : Die) (n : CoreId) : (s.setDie d x).coreAt n = s.coreAt n := by cases d <;> rfl

@[simp] theorem State.coreAt_modDie (s : State) (d : DieId) (f : Die → Die) (n : CoreId) : (s.modDie d f).coreAt n = s.coreAt n := by
  simp [State.modDie]

@[simp] theorem State.coreAt_modPart (s : State) (p : Fin 32) (d : DieId) (f : PartDie → PartDie) (n : CoreId) :
    (s.modPart p d f).coreAt n = s.coreAt n := rfl

@[simp] theorem State.coreAt_outp (s : State) (o : Out) (n : CoreId) : (s.outp o).coreAt n = s.coreAt n := rfl

@[simp] theorem State.coreAt_fresh (s : State) (n : CoreId) : s.fresh.coreAt n = s.coreAt n := rfl

@[simp] theorem State.coreAt_passTurn (s : State) (n : CoreId) : s.passTurn.coreAt n = s.coreAt n := rfl

/-! ### Dies -/

@[simp] theorem State.die_setDie (s : State) (d : DieId) (x : Die) : (s.setDie d x).die d = x := by cases d <;> rfl

@[simp] theorem State.die_setDie_ne (s : State) (d e : DieId) (x : Die) (h : e ≠ d) : (s.setDie d x).die e = s.die e := by
  cases d <;> cases e <;> first | rfl | exact absurd rfl h

@[simp] theorem State.die_modDie (s : State) (d : DieId) (f : Die → Die) : (s.modDie d f).die d = f (s.die d) := by simp [State.modDie]

@[simp] theorem State.die_modDie_ne (s : State) (d e : DieId) (f : Die → Die) (h : e ≠ d) : (s.modDie d f).die e = s.die e := by
  simp [State.modDie, h]

@[simp] theorem State.die_setCore (s : State) (n : CoreId) (c : Core) (d : DieId) : (s.setCore n c).die d = s.die d := by cases d <;> rfl

@[simp] theorem State.die_modCore (s : State) (n : CoreId) (f : Core → Core) (d : DieId) : (s.modCore n f).die d = s.die d := by cases d <;> rfl

@[simp] theorem State.die_modCtx (s : State) (n : CoreId) (f : Ctx → Ctx) (d : DieId) : (s.modCtx n f).die d = s.die d := by cases d <;> rfl

@[simp] theorem State.die_setCrew (s : State) (w : CrewId) (c : Crew) (d : DieId) : (s.setCrew w c).die d = s.die d := by cases d <;> rfl

@[simp] theorem State.die_modPart (s : State) (p : Fin 32) (e : DieId) (f : PartDie → PartDie) (d : DieId) :
    (s.modPart p e f).die d = s.die d := by cases d <;> rfl

@[simp] theorem State.die_outp (s : State) (o : Out) (d : DieId) : (s.outp o).die d = s.die d := by cases d <;> rfl

@[simp] theorem State.die_fresh (s : State) (d : DieId) : s.fresh.die d = s.die d := by cases d <;> rfl

@[simp] theorem State.die_passTurn (s : State) (d : DieId) : s.passTurn.die d = s.die d := by cases d <;> rfl

/-! ### Seats -/

@[simp] theorem Ctx.seat_setSeat (x : Ctx) (k : SeatId) (t : Seat) : (x.setSeat k t).seat k = t :=
  Vector.getElem_set_self ..

@[simp] theorem Ctx.seat_setSeat_ne (x : Ctx) (k j : SeatId) (t : Seat) (h : j ≠ k) : (x.setSeat k t).seat j = x.seat j :=
  Vector.getElem_set_ne k.toFin.isLt j.toFin.isLt (by cases k <;> cases j <;> first | exact absurd rfl h | decide)

@[simp] theorem Ctx.seat_modSeat (x : Ctx) (k : SeatId) (f : Seat → Seat) : (x.modSeat k f).seat k = f (x.seat k) := by simp [Ctx.modSeat]

@[simp] theorem Ctx.seat_modSeat_ne (x : Ctx) (k j : SeatId) (f : Seat → Seat) (h : j ≠ k) : (x.modSeat k f).seat j = x.seat j := by
  simp [Ctx.modSeat, h]

/-! ### Contexts -/

@[simp] theorem Ctx.sendR_seats (x : Ctx) (r : InFlight) : (x.sendR r).seats = x.seats := rfl
@[simp] theorem Ctx.setQueue_seats (x : Ctx) (q : BitVec 3) (u : Queue) : (x.setQueue q u).seats = x.seats := rfl
@[simp] theorem Ctx.setSeat_c (x : Ctx) (k : SeatId) (t : Seat) : (x.setSeat k t).c = x.c := rfl
@[simp] theorem Ctx.modSeat_c (x : Ctx) (k : SeatId) (f : Seat → Seat) : (x.modSeat k f).c = x.c := rfl
@[simp] theorem Ctx.sendR_c (x : Ctx) (r : InFlight) : (x.sendR r).c = x.c := rfl
@[simp] theorem Ctx.setQueue_c (x : Ctx) (q : BitVec 3) (u : Queue) : (x.setQueue q u).c = x.c := rfl
@[simp] theorem Ctx.setSeat_a (x : Ctx) (k : SeatId) (t : Seat) : (x.setSeat k t).a = x.a := rfl
@[simp] theorem Ctx.modSeat_a (x : Ctx) (k : SeatId) (f : Seat → Seat) : (x.modSeat k f).a = x.a := rfl
@[simp] theorem Ctx.sendR_a (x : Ctx) (r : InFlight) : (x.sendR r).a = x.a := rfl
@[simp] theorem Ctx.setQueue_a (x : Ctx) (q : BitVec 3) (u : Queue) : (x.setQueue q u).a = x.a := rfl
@[simp] theorem Ctx.setSeat_x (x : Ctx) (k : SeatId) (t : Seat) : (x.setSeat k t).x = x.x := rfl
@[simp] theorem Ctx.modSeat_x (x : Ctx) (k : SeatId) (f : Seat → Seat) : (x.modSeat k f).x = x.x := rfl
@[simp] theorem Ctx.sendR_x (x : Ctx) (r : InFlight) : (x.sendR r).x = x.x := rfl
@[simp] theorem Ctx.setQueue_x (x : Ctx) (q : BitVec 3) (u : Queue) : (x.setQueue q u).x = x.x := rfl
@[simp] theorem Ctx.setSeat_m (x : Ctx) (k : SeatId) (t : Seat) : (x.setSeat k t).m = x.m := rfl
@[simp] theorem Ctx.modSeat_m (x : Ctx) (k : SeatId) (f : Seat → Seat) : (x.modSeat k f).m = x.m := rfl
@[simp] theorem Ctx.sendR_m (x : Ctx) (r : InFlight) : (x.sendR r).m = x.m := rfl
@[simp] theorem Ctx.setQueue_m (x : Ctx) (q : BitVec 3) (u : Queue) : (x.setQueue q u).m = x.m := rfl
@[simp] theorem Ctx.setSeat_v (x : Ctx) (k : SeatId) (t : Seat) : (x.setSeat k t).v = x.v := rfl
@[simp] theorem Ctx.modSeat_v (x : Ctx) (k : SeatId) (f : Seat → Seat) : (x.modSeat k f).v = x.v := rfl
@[simp] theorem Ctx.sendR_v (x : Ctx) (r : InFlight) : (x.sendR r).v = x.v := rfl
@[simp] theorem Ctx.setQueue_v (x : Ctx) (q : BitVec 3) (u : Queue) : (x.setQueue q u).v = x.v := rfl
@[simp] theorem Ctx.setSeat_p (x : Ctx) (k : SeatId) (t : Seat) : (x.setSeat k t).p = x.p := rfl
@[simp] theorem Ctx.modSeat_p (x : Ctx) (k : SeatId) (f : Seat → Seat) : (x.modSeat k f).p = x.p := rfl
@[simp] theorem Ctx.sendR_p (x : Ctx) (r : InFlight) : (x.sendR r).p = x.p := rfl
@[simp] theorem Ctx.setQueue_p (x : Ctx) (q : BitVec 3) (u : Queue) : (x.setQueue q u).p = x.p := rfl
@[simp] theorem Ctx.setSeat_fmt (x : Ctx) (k : SeatId) (t : Seat) : (x.setSeat k t).fmt = x.fmt := rfl
@[simp] theorem Ctx.modSeat_fmt (x : Ctx) (k : SeatId) (f : Seat → Seat) : (x.modSeat k f).fmt = x.fmt := rfl
@[simp] theorem Ctx.sendR_fmt (x : Ctx) (r : InFlight) : (x.sendR r).fmt = x.fmt := rfl
@[simp] theorem Ctx.setQueue_fmt (x : Ctx) (q : BitVec 3) (u : Queue) : (x.setQueue q u).fmt = x.fmt := rfl
@[simp] theorem Ctx.setSeat_l (x : Ctx) (k : SeatId) (t : Seat) : (x.setSeat k t).l = x.l := rfl
@[simp] theorem Ctx.modSeat_l (x : Ctx) (k : SeatId) (f : Seat → Seat) : (x.modSeat k f).l = x.l := rfl
@[simp] theorem Ctx.sendR_l (x : Ctx) (r : InFlight) : (x.sendR r).l = x.l := rfl
@[simp] theorem Ctx.setQueue_l (x : Ctx) (q : BitVec 3) (u : Queue) : (x.setQueue q u).l = x.l := rfl
@[simp] theorem Ctx.setSeat_k (x : Ctx) (k : SeatId) (t : Seat) : (x.setSeat k t).k = x.k := rfl
@[simp] theorem Ctx.modSeat_k (x : Ctx) (k : SeatId) (f : Seat → Seat) : (x.modSeat k f).k = x.k := rfl
@[simp] theorem Ctx.sendR_k (x : Ctx) (r : InFlight) : (x.sendR r).k = x.k := rfl
@[simp] theorem Ctx.setQueue_k (x : Ctx) (q : BitVec 3) (u : Queue) : (x.setQueue q u).k = x.k := rfl
@[simp] theorem Ctx.setSeat_f (x : Ctx) (k : SeatId) (t : Seat) : (x.setSeat k t).f = x.f := rfl
@[simp] theorem Ctx.modSeat_f (x : Ctx) (k : SeatId) (f : Seat → Seat) : (x.modSeat k f).f = x.f := rfl
@[simp] theorem Ctx.sendR_f (x : Ctx) (r : InFlight) : (x.sendR r).f = x.f := rfl
@[simp] theorem Ctx.setQueue_f (x : Ctx) (q : BitVec 3) (u : Queue) : (x.setQueue q u).f = x.f := rfl
@[simp] theorem Ctx.setSeat_osiss (x : Ctx) (k : SeatId) (t : Seat) : (x.setSeat k t).osiss = x.osiss := rfl
@[simp] theorem Ctx.modSeat_osiss (x : Ctx) (k : SeatId) (f : Seat → Seat) : (x.modSeat k f).osiss = x.osiss := rfl
@[simp] theorem Ctx.sendR_osiss (x : Ctx) (r : InFlight) : (x.sendR r).osiss = x.osiss := rfl
@[simp] theorem Ctx.setQueue_osiss (x : Ctx) (q : BitVec 3) (u : Queue) : (x.setQueue q u).osiss = x.osiss := rfl
@[simp] theorem Ctx.setSeat_osprf (x : Ctx) (k : SeatId) (t : Seat) : (x.setSeat k t).osprf = x.osprf := rfl
@[simp] theorem Ctx.modSeat_osprf (x : Ctx) (k : SeatId) (f : Seat → Seat) : (x.modSeat k f).osprf = x.osprf := rfl
@[simp] theorem Ctx.sendR_osprf (x : Ctx) (r : InFlight) : (x.sendR r).osprf = x.osprf := rfl
@[simp] theorem Ctx.setQueue_osprf (x : Ctx) (q : BitVec 3) (u : Queue) : (x.setQueue q u).osprf = x.osprf := rfl
@[simp] theorem Ctx.setSeat_queues (x : Ctx) (k : SeatId) (t : Seat) : (x.setSeat k t).queues = x.queues := rfl
@[simp] theorem Ctx.modSeat_queues (x : Ctx) (k : SeatId) (f : Seat → Seat) : (x.modSeat k f).queues = x.queues := rfl
@[simp] theorem Ctx.sendR_queues (x : Ctx) (r : InFlight) : (x.sendR r).queues = x.queues := rfl
@[simp] theorem Ctx.setSeat_eng (x : Ctx) (k : SeatId) (t : Seat) : (x.setSeat k t).eng = x.eng := rfl
@[simp] theorem Ctx.modSeat_eng (x : Ctx) (k : SeatId) (f : Seat → Seat) : (x.modSeat k f).eng = x.eng := rfl
@[simp] theorem Ctx.sendR_eng (x : Ctx) (r : InFlight) : (x.sendR r).eng = x.eng := rfl
@[simp] theorem Ctx.setQueue_eng (x : Ctx) (q : BitVec 3) (u : Queue) : (x.setQueue q u).eng = x.eng := rfl
@[simp] theorem Ctx.setSeat_shape (x : Ctx) (k : SeatId) (t : Seat) : (x.setSeat k t).shape = x.shape := rfl
@[simp] theorem Ctx.modSeat_shape (x : Ctx) (k : SeatId) (f : Seat → Seat) : (x.modSeat k f).shape = x.shape := rfl
@[simp] theorem Ctx.sendR_shape (x : Ctx) (r : InFlight) : (x.sendR r).shape = x.shape := rfl
@[simp] theorem Ctx.setQueue_shape (x : Ctx) (q : BitVec 3) (u : Queue) : (x.setQueue q u).shape = x.shape := rfl
@[simp] theorem Ctx.setSeat_dph (x : Ctx) (k : SeatId) (t : Seat) : (x.setSeat k t).dph = x.dph := rfl
@[simp] theorem Ctx.modSeat_dph (x : Ctx) (k : SeatId) (f : Seat → Seat) : (x.modSeat k f).dph = x.dph := rfl
@[simp] theorem Ctx.sendR_dph (x : Ctx) (r : InFlight) : (x.sendR r).dph = x.dph := rfl
@[simp] theorem Ctx.setQueue_dph (x : Ctx) (q : BitVec 3) (u : Queue) : (x.setQueue q u).dph = x.dph := rfl
@[simp] theorem Ctx.setSeat_uhand (x : Ctx) (k : SeatId) (t : Seat) : (x.setSeat k t).uhand = x.uhand := rfl
@[simp] theorem Ctx.modSeat_uhand (x : Ctx) (k : SeatId) (f : Seat → Seat) : (x.modSeat k f).uhand = x.uhand := rfl
@[simp] theorem Ctx.sendR_uhand (x : Ctx) (r : InFlight) : (x.sendR r).uhand = x.uhand := rfl
@[simp] theorem Ctx.setQueue_uhand (x : Ctx) (q : BitVec 3) (u : Queue) : (x.setQueue q u).uhand = x.uhand := rfl
@[simp] theorem Ctx.setSeat_uhandGov (x : Ctx) (k : SeatId) (t : Seat) : (x.setSeat k t).uhandGov = x.uhandGov := rfl
@[simp] theorem Ctx.modSeat_uhandGov (x : Ctx) (k : SeatId) (f : Seat → Seat) : (x.modSeat k f).uhandGov = x.uhandGov := rfl
@[simp] theorem Ctx.sendR_uhandGov (x : Ctx) (r : InFlight) : (x.sendR r).uhandGov = x.uhandGov := rfl
@[simp] theorem Ctx.setQueue_uhandGov (x : Ctx) (q : BitVec 3) (u : Queue) : (x.setQueue q u).uhandGov = x.uhandGov := rfl
@[simp] theorem Ctx.setSeat_inflight (x : Ctx) (k : SeatId) (t : Seat) : (x.setSeat k t).inflight = x.inflight := rfl
@[simp] theorem Ctx.modSeat_inflight (x : Ctx) (k : SeatId) (f : Seat → Seat) : (x.modSeat k f).inflight = x.inflight := rfl
@[simp] theorem Ctx.setQueue_inflight (x : Ctx) (q : BitVec 3) (u : Queue) : (x.setQueue q u).inflight = x.inflight := rfl
@[simp] theorem Ctx.setSeat_park (x : Ctx) (k : SeatId) (t : Seat) : (x.setSeat k t).park = x.park := rfl
@[simp] theorem Ctx.modSeat_park (x : Ctx) (k : SeatId) (f : Seat → Seat) : (x.modSeat k f).park = x.park := rfl
@[simp] theorem Ctx.sendR_park (x : Ctx) (r : InFlight) : (x.sendR r).park = x.park := rfl
@[simp] theorem Ctx.setQueue_park (x : Ctx) (q : BitVec 3) (u : Queue) : (x.setQueue q u).park = x.park := rfl
@[simp] theorem Ctx.setSeat_await (x : Ctx) (k : SeatId) (t : Seat) : (x.setSeat k t).await = x.await := rfl
@[simp] theorem Ctx.modSeat_await (x : Ctx) (k : SeatId) (f : Seat → Seat) : (x.modSeat k f).await = x.await := rfl
@[simp] theorem Ctx.sendR_await (x : Ctx) (r : InFlight) : (x.sendR r).await = x.await := rfl
@[simp] theorem Ctx.setQueue_await (x : Ctx) (q : BitVec 3) (u : Queue) : (x.setQueue q u).await = x.await := rfl
@[simp] theorem Ctx.setSeat_scov (x : Ctx) (k : SeatId) (t : Seat) : (x.setSeat k t).scov = x.scov := rfl
@[simp] theorem Ctx.modSeat_scov (x : Ctx) (k : SeatId) (f : Seat → Seat) : (x.modSeat k f).scov = x.scov := rfl
@[simp] theorem Ctx.sendR_scov (x : Ctx) (r : InFlight) : (x.sendR r).scov = x.scov := rfl
@[simp] theorem Ctx.setQueue_scov (x : Ctx) (q : BitVec 3) (u : Queue) : (x.setQueue q u).scov = x.scov := rfl
@[simp] theorem Ctx.setSeat_acqs (x : Ctx) (k : SeatId) (t : Seat) : (x.setSeat k t).acqs = x.acqs := rfl
@[simp] theorem Ctx.modSeat_acqs (x : Ctx) (k : SeatId) (f : Seat → Seat) : (x.modSeat k f).acqs = x.acqs := rfl
@[simp] theorem Ctx.sendR_acqs (x : Ctx) (r : InFlight) : (x.sendR r).acqs = x.acqs := rfl
@[simp] theorem Ctx.setQueue_acqs (x : Ctx) (q : BitVec 3) (u : Queue) : (x.setQueue q u).acqs = x.acqs := rfl
@[simp] theorem Ctx.sendR_inflight (x : Ctx) (r : InFlight) : (x.sendR r).inflight = x.inflight ++ [r] := rfl

end Sys2Proof.Machine
end

