-- ==== Sys2Proof/Laws/Issue.lean ====
section
/-! SUPPORT. What issue does: a word that issues leaves the state of its own rule with its seat moved past it; a stall and a trap leave all else. -/

namespace Sys2Proof

open Machine

theorem CoreKept.refl (a : Core) : CoreKept a a := rfl

theorem CoreKept.trans {a b c : Core} (h : CoreKept a b) (g : CoreKept b c) : CoreKept a c := by
  unfold CoreKept at *; rw [← h, ← g]

theorem DieKept.refl (a : Die) : DieKept a a := rfl

theorem DieKept.trans {a b c : Die} (h : DieKept a b) (g : DieKept b c) : DieKept a c := by
  unfold DieKept at *; rw [← h, ← g]

theorem RegsKept.refl (x : Ctx) : RegsKept x x := by constructor <;> rfl

theorem RegsKept.trans {x y z : Ctx} (h : RegsKept x y) (g : RegsKept y z) : RegsKept x z := by
  constructor <;> first
    | exact g.c.trans h.c | exact g.a.trans h.a | exact g.x.trans h.x | exact g.m.trans h.m | exact g.v.trans h.v | exact g.p.trans h.p
    | exact g.fmt.trans h.fmt | exact g.k.trans h.k | exact g.f.trans h.f | exact g.osiss.trans h.osiss | exact g.osprf.trans h.osprf
    | exact g.queues.trans h.queues | exact g.eng.trans h.eng | exact g.shape.trans h.shape | exact g.uhand.trans h.uhand
    | exact g.uhandGov.trans h.uhandGov | exact g.inflight.trans h.inflight | exact g.park.trans h.park | exact g.await.trans h.await
    | exact g.scov.trans h.scov | exact g.acqs.trans h.acqs

theorem PackageKept.refl (s : State) : PackageKept s s := by constructor <;> intros <;> rfl

theorem PackageKept.trans {s t u : State} (h : PackageKept s t) (g : PackageKept t u) : PackageKept s u where
  mem a := (g.mem a).trans (h.mem a)
  bow := DieKept.trans h.bow g.bow
  stern := DieKept.trans h.stern g.stern
  poison := g.poison.trans h.poison
  slots := g.slots.trans h.slots
  parked := g.parked.trans h.parked
  parts := g.parts.trans h.parts
  shared := g.shared.trans h.shared
  links := g.links.trans h.links
  reconf := g.reconf.trans h.reconf
  isolate := g.isolate.trans h.isolate
  source := g.source.trans h.source
  cur := g.cur.trans h.cur
  inputs := g.inputs.trans h.inputs
  nextId := g.nextId.trans h.nextId

theorem PackageKept.modCore (s : State) (n : CoreId) (f : Core → Core) : PackageKept s (s.modCore n f) := by constructor <;> intros <;> rfl

theorem PackageKept.setCrew (s : State) (w : CrewId) (c : Crew) : PackageKept s (s.setCrew w c) := by constructor <;> intros <;> rfl

theorem DieKept.counters (d : Die) (x : Vector (BitVec 16) 32) (y : Vector (BitVec 48) 32) : DieKept d { d with ecsel := x, ecval := y } := rfl

theorem PackageKept.modDie (s : State) (d : DieId) (f : Die → Die) (h : DieKept (s.die d) (f (s.die d))) : PackageKept s (s.modDie d f) := by
  cases d with
  | bow => exact { PackageKept.refl s with bow := h }
  | stern => exact { PackageKept.refl s with stern := h }

theorem PackageKept.passTurn (s : State) : PackageKept s s.passTurn := by constructor <;> intros <;> rfl

/-! ## Trace records touch the crews alone -/

/-- The cores stand, and the package but for the crews. -/
structure OnlyCrews (s t : State) : Prop where
  cores : t.cores = s.cores
  outs : t.outs = s.outs
  turn : t.turn = s.turn
  package : PackageKept s t

theorem OnlyCrews.refl (s : State) : OnlyCrews s s := ⟨rfl, rfl, rfl, .refl s⟩

theorem OnlyCrews.trans {s t u : State} (h : OnlyCrews s t) (g : OnlyCrews t u) : OnlyCrews s u :=
  ⟨g.cores.trans h.cores, g.outs.trans h.outs, g.turn.trans h.turn, h.package.trans g.package⟩

theorem OnlyCrews.setCrew (s : State) (w : CrewId) (c : Crew) : OnlyCrews s (s.setCrew w c) := ⟨rfl, rfl, rfl, .setCrew s w c⟩

theorem traceEpoch_only (s : State) (w : CrewId) (e : Nat) : OnlyCrews s (s.traceEpoch w e) := by
  unfold State.traceEpoch
  dsimp only
  split
  · exact .refl s
  · split
    · exact .setCrew ..
    · split <;> exact .setCrew ..

theorem traceRec_only (s : State) (n : CoreId) (kind : Nat) (data : List Dw) : OnlyCrews s (s.traceRec n kind data) := by
  unfold State.traceRec
  extract_lets w c u c' delta
  have h : OnlyCrews s u := by
    simp only [u]
    split
    · exact traceEpoch_only ..
    · exact .refl s
  clear_value c' delta
  clear_value u
  split
  · exact .refl s
  · exact h.trans (by split <;> exact .setCrew ..)

theorem OnlyCrews.coreAt {s t : State} (h : OnlyCrews s t) (n : CoreId) : t.coreAt n = s.coreAt n := by unfold State.coreAt; rw [h.cores]

/-! ## Counting -/

/-- Counting changes event counters and trace buffers alone. -/
structure Counted (n : CoreId) (s t : State) : Prop where
  cores : ∀ m, m ≠ n → t.coreAt m = s.coreAt m
  core : CoreKept (s.coreAt n) (t.coreAt n)
  same : (t.coreAt n).ctx = (s.coreAt n).ctx ∧ (t.coreAt n).moved = (s.coreAt n).moved
  outs : t.outs = s.outs
  turn : t.turn = s.turn
  package : PackageKept s t

theorem count_counted (s : State) (n : CoreId) (code inc : Nat) : Counted n s (s.count n code inc) := by
  have key : ∀ (u : State) (x : Die → Vector (BitVec 16) 32) (y : Die → Vector (BitVec 48) 32), Counted n s u →
      Counted n s (u.modDie (dieOf n) fun d => { d with ecsel := x d, ecval := y d }) := by
    intro u x y h
    refine ⟨fun m hm => by simpa using h.cores m hm, by simpa using h.core, by simpa using h.same, by simpa using h.outs, by simpa using h.turn, ?_⟩
    exact h.package.trans (.modDie _ _ _ (.counters ..))
  unfold State.count
  refine key _ _ _ ?_
  have h1 : Counted n s (s.modCore n fun c => c.bump code inc) :=
    ⟨fun m hm => by simp [hm], by simp [CoreKept, Core.bump], by simp [Core.bump], by simp, by simp, .modCore ..⟩
  split
  · have h2 := traceRec_only (s.modCore n fun c => c.bump code inc) n 6
    unfold State.counterRecord
    refine ⟨fun m hm => ?_, ?_, ?_, ?_, ?_, h1.package.trans (h2 _).package⟩
    · rw [(h2 _).coreAt]; exact h1.cores m hm
    · rw [(h2 _).coreAt]; exact h1.core
    · rw [(h2 _).coreAt]; exact h1.same
    · rw [(h2 _).outs]; exact h1.outs
    · rw [(h2 _).turn]; exact h1.turn
  · exact h1

/-! ## Sequencing -/

/-- What moving seat k past a word does to a context. -/
structure Advanced (k : SeatId) (goes : SeatId → Seat → Seat → Prop) (x y : Ctx) : Prop where
  regs : RegsKept x y
  seats : ∀ j, j ≠ k → y.seat j = x.seat j
  seat : goes k (x.seat k) (y.seat k)
  inLoop : ∀ lp, (x.seat k).loop = some lp → y.l = if (y.seat k).loop = none then
    x.l.set lp.reg.toFin ((BitVec.ofNat 32 lp.trip) ++ ((x.l.get lp.reg.toFin).extractLsb' 0 32)) else x.l
  loops : (x.seat k).loop = none → y.l = x.l ∧ y.dph = x.dph

theorem RegsKept.modSeat (x : Ctx) (k : SeatId) (f : Seat → Seat) : RegsKept x (x.modSeat k f) := by constructor <;> rfl

theorem RegsKept.setL (x : Ctx) (v : Vector Dw 8) : RegsKept x { x with l := v } := by constructor <;> rfl

theorem RegsKept.setDph (x : Ctx) (v : BitVec 3) : RegsKept x { x with dph := v } := by constructor <;> rfl

theorem loopDone_regs (x : Ctx) (k : SeatId) (lp : Loop) : RegsKept x (x.loopDone k lp) := by
  unfold Ctx.loopDone
  split
  · exact .modSeat ..
  · exact (RegsKept.modSeat ..).trans (.setL ..)

theorem loopDone_seats (x : Ctx) (k j : SeatId) (lp : Loop) (h : j ≠ k) : (x.loopDone k lp).seat j = x.seat j := by
  unfold Ctx.loopDone
  split
  · simp [h]
  · extract_lets y
    have hy : y.seat j = x.seat j := Ctx.seat_modSeat_ne _ _ _ _ h
    exact hy

theorem loopNext_regs (x : Ctx) (k : SeatId) (lp : Loop) : RegsKept x (x.loopNext k lp) := by
  unfold Ctx.loopNext
  split
  · exact .modSeat ..
  · extract_lets lp' y z
    have hy : RegsKept x y := by
      simp only [y]
      split
      · exact .setDph ..
      · exact .refl x
    have hz : RegsKept x z := hy.trans (.modSeat ..)
    split
    · exact hz.trans (loopDone_regs ..)
    · exact hz

theorem loopNext_seats (x : Ctx) (k j : SeatId) (lp : Loop) (h : j ≠ k) : (x.loopNext k lp).seat j = x.seat j := by
  unfold Ctx.loopNext
  split
  · simp [h]
  · extract_lets lp' y z
    have hy : y.seat j = x.seat j := by
      simp only [y]
      split <;> rfl
    have hz : z.seat j = x.seat j := (Ctx.seat_modSeat_ne _ _ _ _ h).trans hy
    split
    · exact (loopDone_seats _ _ _ _ h).trans hz
    · exact hz

/-- A move within a loop body, or out of it. -/
theorem loopNext_seat (x : Ctx) (k : SeatId) (lp : Loop) (h1 : lp.lsq = false) (h : (x.seat k).strk = false) :
    InBody k lp (x.seat k) ((x.loopNext k lp).seat k) := by
  unfold Ctx.loopNext InBody
  split
  · rw [Ctx.seat_modSeat]; rw [h]
  · extract_lets lp' y z
    have hy : y.seat k = x.seat k := by simp only [y]; split <;> rfl
    have hz : z.seat k = { x.seat k with rb := if k = .a ∨ k = .v then (x.seat k).rb + 1 else (x.seat k).rb, pc := lp.head + 4, loop := some lp' } := by
      simp only [z]; rw [Ctx.seat_modSeat, hy]
    have hs : lp'.steps = lp.trip + lp.ms - lp.base := by simp [Loop.steps, Loop.limit, lp', h1]
    have hp : lp'.step = lp.step + 1 := rfl
    have hn : (lp'.lsq = true ∧ lp'.i0 < lp'.trip) ↔ False := by simp [lp', h1]
    rw [hs, hp]
    by_cases hle : lp.trip + lp.ms - lp.base ≤ lp.step + 1
    · rw [if_pos hle, if_neg (by omega)]
      unfold Ctx.loopDone
      rw [if_neg hn.mp]
      extract_lets w
      have hw : w.seat k = { z.seat k with loop := none, pc := lp'.head + 4 + 4 * BitVec.ofNat 64 lp'.len } := Ctx.seat_modSeat ..
      refine Eq.trans (b := w.seat k) rfl ?_
      rw [hw, hz]; dsimp only; rw [h]
    · rw [if_neg hle, if_pos (by omega), hz]; dsimp only; rw [h]

theorem loopDone_count (x : Ctx) (k : SeatId) (lp : Loop) : (x.loopDone k lp).l = if ((x.loopDone k lp).seat k).loop = none then
    x.l.set lp.reg.toFin ((BitVec.ofNat 32 lp.trip) ++ ((x.l.get lp.reg.toFin).extractLsb' 0 32)) else x.l := by
  unfold Ctx.loopDone
  split
  · rw [Ctx.seat_modSeat]; rfl
  · extract_lets w
    have hw : w.seat k = { x.seat k with loop := none, pc := lp.head + 4 + 4 * BitVec.ofNat 64 lp.len } := Ctx.seat_modSeat ..
    rw [if_pos]
    · rfl
    · refine Eq.trans (b := (w.seat k).loop) rfl ?_
      rw [hw]

theorem nextTurn_passTurn (u : State) : u.passTurn.turn = nextTurn u.turn := rfl

theorem loopNext_count (x : Ctx) (k : SeatId) (lp : Loop) : (x.loopNext k lp).l = if ((x.loopNext k lp).seat k).loop = none then
    x.l.set lp.reg.toFin ((BitVec.ofNat 32 lp.trip) ++ ((x.l.get lp.reg.toFin).extractLsb' 0 32)) else x.l := by
  unfold Ctx.loopNext
  split
  · rw [Ctx.seat_modSeat]; rfl
  · extract_lets lp' y z
    have hy : y.l = x.l := by simp only [y]; split <;> rfl
    have hzl : z.l = x.l := hy
    have hz : (z.seat k).loop = some lp' := by simp only [z]; rw [Ctx.seat_modSeat]
    split
    · rw [loopDone_count, hzl]
    · rw [hz, hzl]; rfl

/-- A word that issues in order. -/
theorem advance_seq (x : Ctx) (k : SeatId) : Advanced k ToNext x (x.advance k .seq) := by
  unfold Ctx.advance
  extract_lets y
  have hy : RegsKept x y := .modSeat ..
  have hs : y.seat k = { x.seat k with strk := false } := Ctx.seat_modSeat ..
  have hj : ∀ j, j ≠ k → y.seat j = x.seat j := fun j h => Ctx.seat_modSeat_ne _ _ _ _ h
  have hl : (y.seat k).loop = (x.seat k).loop := by rw [hs]
  dsimp only
  split
  · rename_i lp h
    have hx : (x.seat k).loop = some lp := hl.symm.trans h
    refine ⟨?_, ?_, ?_, ?_, fun hn => absurd hx (by simp [hn])⟩
    · split
      · exact hy.trans (.modSeat ..)
      · exact hy.trans (loopNext_regs ..)
    · intro j hj'
      split
      · exact (Ctx.seat_modSeat_ne _ _ _ _ hj').trans (hj j hj')
      · exact (loopNext_seats _ _ _ _ hj').trans (hj j hj')
    · unfold ToNext
      rw [hx]
      intro h1 h2
      rw [if_neg (by simp [h2])]
      have := loopNext_seat y k lp h1 (by rw [hs])
      rw [hs] at this
      exact this
    · intro lp0 h0
      obtain rfl : lp0 = lp := by rw [hx] at h0; exact (Option.some.inj h0).symm
      split
      · rw [Ctx.seat_modSeat]
        have : (Seat.next (y.seat k)).loop = some lp0 := by
          unfold Seat.next
          split
          · exact h
          · split <;> exact h
        rw [this]; rfl
      · exact loopNext_count y k lp0
  · rename_i h
    have hx : (x.seat k).loop = none := hl.symm.trans h
    refine ⟨hy.trans (.modSeat ..), fun j h => (Ctx.seat_modSeat_ne _ _ _ _ h).trans (hj j h), ?_, fun lp hn => absurd hx (by simp [hn]),
      fun hn => ⟨rfl, rfl⟩⟩
    rw [Ctx.seat_modSeat, hs]
    unfold ToNext Seat.next
    rw [hx]
    simp only
    split
    · rfl
    · split <;> rfl

/-- A branch or a jump. -/
theorem advance_branch (x : Ctx) (k : SeatId) (taken : Bool) (a : Dw) : Advanced k (ToBranch taken a) x (x.advance k (.branch taken a)) := by
  unfold Ctx.advance
  extract_lets y
  have hy : RegsKept x y := .modSeat ..
  refine ⟨hy.trans (.modSeat ..), fun j h => ?_, ?_, fun lp h => ?_, fun hn => ⟨rfl, rfl⟩⟩
  · simp [y, h]
  · simp [y, ToBranch]
  · simp [y, h]

/-- A word after which the seat stays. -/
theorem advance_stay (x : Ctx) (k : SeatId) : Advanced k Stays x (x.advance k .stay) := by
  unfold Ctx.advance
  extract_lets y
  have hy : RegsKept x y := .modSeat ..
  refine ⟨hy, fun j h => ?_, ?_, fun lp h => ?_, fun hn => ⟨rfl, rfl⟩⟩
  · simp [y, h]
  · simp [y, Stays]
  · simp [y, h]

/-- An MLOOP that enters its loop. -/
theorem advance_loop (x : Ctx) (k : SeatId) (lp : Loop) : Advanced k (Enters lp) x (x.advance k (.loop lp)) := by
  unfold Ctx.advance
  extract_lets y
  have hy : RegsKept x y := .modSeat ..
  refine ⟨hy.trans (.modSeat ..), fun j h => ?_, ?_, fun lp h => ?_, fun hn => ⟨rfl, rfl⟩⟩
  · simp [y, h]
  · simp [y, Enters]
  · simp [y]

/-- An MLOOP whose trip is 0. -/
theorem advance_skip (x : Ctx) (k : SeatId) (pc : Dw) : Advanced k (Skips pc) x (x.advance k (.skip pc)) := by
  unfold Ctx.advance
  extract_lets y
  have hy : RegsKept x y := .modSeat ..
  refine ⟨hy.trans (.modSeat ..), fun j h => ?_, ?_, fun lp h => ?_, fun hn => ⟨rfl, rfl⟩⟩
  · simp [y, h]
  · simp [y, Skips]
  · simp [y, h]

/-- Moving past a word, the seat noted as moved and the turn passed on. -/
theorem pass_past (u : State) (k : SeatId) (f : Flow) (goes : SeatId → Seat → Seat → Prop) (h : Advanced k goes (here u) ((here u).advance k f)) :
    Past k goes u ((u.pass k f).modCore u.cur fun c => { c with moved := c.moved ||| (seatBit k) }).passTurn := by
  unfold State.pass
  extract_lets x s1 y s2
  have hx : x = here u := rfl
  have h1 : s1 = u.modCtx u.cur fun x => x.advance k f := rfl
  have hy : y = (here u).advance k f := by simp [y, h1, here]
  have c2 : Counted u.cur s1 s2 := by
    simp only [s2]
    split
    · exact count_counted ..
    · exact ⟨fun _ _ => rfl, rfl, ⟨rfl, rfl⟩, rfl, rfl, .refl _⟩
  have k2 : ((here u).seat k).loop = none → s2 = s1 := by
    intro hn
    have : y.dph = x.dph := by rw [hy, hx]; exact (h.loops hn).2
    simp [s2, this]
  generalize hs2 : s2 = s2' at c2 k2 ⊢
  clear hs2 s2
  have hcur : s2'.cur = u.cur := c2.package.cur
  have hctx : (s2'.coreAt u.cur).ctx = (here u).advance k f := by rw [c2.same.1, h1]; simp [here]
  have hmv : (s2'.coreAt u.cur).moved = (u.coreAt u.cur).moved := by rw [c2.same.2, h1]; simp
  have hck : CoreKept (u.coreAt u.cur) (s2'.coreAt u.cur) := by
    refine CoreKept.trans ?_ c2.core
    rw [h1]; simp [CoreKept]
  have hpk : PackageKept u s2' := PackageKept.trans (h1 ▸ .modCore ..) c2.package
  have houts : s2'.outs = u.outs := by rw [c2.outs, h1]; rfl
  have hturn : s2'.turn = u.turn := by rw [c2.turn, h1]; rfl
  have hne : ∀ m, m ≠ u.cur → s2'.coreAt m = u.coreAt m := fun m hm => by rw [c2.cores m hm, h1]; simp [hm]
  have key : ∀ g : Core → Core, (∀ c, CoreKept c (g c) ∧ (g c).ctx = c.ctx ∧ (g c).moved = c.moved) →
      Past k goes u ((s2'.modCore s2'.cur g).modCore u.cur fun c => { c with moved := c.moved ||| (seatBit k) }).passTurn := by
    intro g hg
    rw [hcur]
    have hc : (((s2'.modCore u.cur g).modCore u.cur fun c => { c with moved := c.moved ||| (seatBit k) }).passTurn).coreAt u.cur =
        { g (s2'.coreAt u.cur) with moved := (g (s2'.coreAt u.cur)).moved ||| (seatBit k) } := by simp
    refine ⟨fun m hm => ?_, ?_, ?_, ?_, ?_, ?_, ?_, ?_, ?_, ?_⟩
    · simp [hm, hne m hm]
    · rw [hc]; exact CoreKept.trans hck ((hg _).1.trans rfl)
    · rw [hc]; simp only [(hg _).2.1, hctx]; exact h.regs
    · rw [hc]; simp only [(hg _).2.1, hctx]; exact h.seats
    · rw [hc]; simp only [(hg _).2.1, hctx]; exact h.seat
    · rw [hc]; simp only [(hg _).2.1, hctx]; exact h.inLoop
    · intro hn
      rw [hc]; simp only [(hg _).2.1, hctx]
      refine ⟨(h.loops hn).1, (h.loops hn).2, ?_, by simpa using houts⟩
      simp [k2 hn, h1]
    · rw [hc]; simp only [(hg _).2.2, hmv]
    · exact hpk.trans ((PackageKept.modCore ..).trans ((PackageKept.modCore ..).trans (.passTurn _)))
    · rw [nextTurn_passTurn]; simp only [State.modCore_turn, hturn]
  have idg : s2'.modCore s2'.cur id = s2' := by
    unfold State.modCore State.setCore
    have : s2'.cores.set s2'.cur (id (s2'.coreAt s2'.cur)) = s2'.cores := Vector.set_getElem_self ..
    rw [this]
  split
  · unfold State.why; exact key _ fun c => ⟨rfl, rfl, rfl⟩
  · have := key id fun c => ⟨rfl, rfl, rfl⟩
    rwa [idg] at this

/-! ## Issue -/

/-- A word whose rule answers a state u: it issues, and its seat moves past it. -/
theorem issue_go {s u : State} {k : SeatId} {st : Bool} {i : Instr} {f : Flow} {goes : SeatId → Seat → Seat → Prop} (h : Issues s k st i)
    (ha : Advanced k goes (here u) ((here u).advance k f)) : ∃ t, issue k st i (.go u f) s = .next t ∧ Past k goes u t := by
  refine ⟨_, ?_, pass_past u k f goes ha⟩
  unfold issue
  rw [if_pos h.1, h.2]
  rfl

theorem issue_seq {s u : State} {k : SeatId} {st : Bool} {i : Instr} (h : Issues s k st i) :
    ∃ t, issue k st i (.go u .seq) s = .next t ∧ Past k ToNext u t := issue_go h (advance_seq ..)

theorem issue_branch {s u : State} {k : SeatId} {st : Bool} {i : Instr} {b : Bool} {a : Dw} (h : Issues s k st i) :
    ∃ t, issue k st i (.go u (.branch b a)) s = .next t ∧ Past k (ToBranch b a) u t := issue_go h (advance_branch ..)

theorem issue_stay {s u : State} {k : SeatId} {st : Bool} {i : Instr} (h : Issues s k st i) :
    ∃ t, issue k st i (.go u .stay) s = .next t ∧ Past k Stays u t := issue_go h (advance_stay ..)

theorem issue_loop {s u : State} {k : SeatId} {st : Bool} {i : Instr} {lp : Loop} (h : Issues s k st i) :
    ∃ t, issue k st i (.go u (.loop lp)) s = .next t ∧ Past k (Enters lp) u t := issue_go h (advance_loop ..)

theorem issue_skip {s u : State} {k : SeatId} {st : Bool} {i : Instr} {pc : Dw} (h : Issues s k st i) :
    ∃ t, issue k st i (.go u (.skip pc)) s = .next t ∧ Past k (Skips pc) u t := issue_go h (advance_skip ..)

/-- A word whose rule stalls in a state u. -/
theorem issue_stall {s u : State} {k : SeatId} {st : Bool} {i : Instr} (h : Issues s k st i) :
    ∃ t, issue k st i (.stall u) s = .next t ∧ Waits u t := by
  refine ⟨u.passTurn, ?_, ⟨fun _ _ => rfl, rfl, rfl, rfl, .passTurn u, rfl, rfl, nextTurn_passTurn u⟩⟩
  unfold issue
  rw [if_pos h.1, h.2]
  rfl

/-- The state in which seat k holds a cause at its word. -/
theorem raise_trapped (s : State) (k : SeatId) (q : Cause) (tval : Dw) :
    Trapped k q tval s (s.raise s.cur k q tval ((here s).seat k).pc false).passTurn := by
  refine ⟨fun m hm => ?_, ?_, ?_, ?_, ?_, ?_, fun j hj => ?_, ?_, ?_, ?_, ?_, ?_⟩
  · simp [State.raise, hm]
  · simp [State.raise, CoreKept]
  · simp [State.raise]
  · simp only [State.coreAt_passTurn, State.raise, State.coreAt_modCtx]; exact .modSeat ..
  · simp [State.raise, here]
  · simp [State.raise, here]
  · simp [State.raise, here, hj]
  · refine ⟨if q.tvalStated then tval else Config.freeDw s.free (640 + k.toNat), ?_, fun hq => if_pos hq⟩
    simp [State.raise, here]
  · exact PackageKept.trans (.modCore ..) (.passTurn _)
  · rfl
  · rfl
  · exact nextTurn_passTurn _

/-- A word whose rule traps without issuing. -/
theorem issue_trap {s : State} {k : SeatId} {st : Bool} {i : Instr} {q : Cause} {tval : Dw} (h : Issues s k st i) :
    ∃ t, issue k st i (.trap q tval) s = .next t ∧ Trapped k q tval s t := by
  refine ⟨_, ?_, raise_trapped s k q tval⟩
  unfold issue
  rw [if_pos h.1, h.2]
  rfl

/-- A word that a check of issue turns away; one that is undefined where it stands has been told apart before. -/
theorem issue_turned {s : State} {k : SeatId} {st : Bool} {i : Instr} {v : Verdict} {q : Cause} (h : s.canIssue k = true)
    (hv : (decide (k = .c) && v.isUndefined) = false) (hq : s.precheck k st i false = .trap q) : ∃ t, issue k st i v s = .next t ∧ Trapped k q 0 s t := by
  refine ⟨_, ?_, raise_trapped s k q 0⟩
  unfold issue
  rw [if_pos h, hq, hv]
  rfl

end Sys2Proof
end

