-- ==== Sys2Proof/Laws/Memory.lean ====
section
/-! SUPPORT. Memory: a read after a write, and the canonical form, which every memory operation keeps. -/

namespace Sys2Proof.Machine

open Sys2Proof

theorem memRead_below (m : List Host.Cell) (lo a : Nat) (h : memWfFrom (some lo) m = true) (ha : a ≤ lo) : memRead m a = memDefault := by
  induction m generalizing lo with
  | nil => rfl
  | cons c r ih =>
    obtain ⟨k, b⟩ := c
    simp only [memWfFrom, Bool.and_eq_true, decide_eq_true_eq] at h
    obtain ⟨⟨h1, -⟩, h3⟩ := h
    have : a ≠ k := by omega
    simp only [memRead, this, if_false]
    exact ih k h3 (by omega)

theorem memWfFrom_weaken (m : List Host.Cell) (lo lo' : Nat) (h : memWfFrom (some lo) m = true) (hl : lo' ≤ lo) : memWfFrom (some lo') m = true := by
  cases m with
  | nil => rfl
  | cons c r =>
    obtain ⟨k, b⟩ := c
    simp only [memWfFrom, Bool.and_eq_true, decide_eq_true_eq] at h ⊢
    exact ⟨⟨by omega, h.1.2⟩, h.2⟩

theorem memWfFrom_none (m : List Host.Cell) (lo : Nat) (h : memWfFrom (some lo) m = true) : memWfFrom none m = true := by
  cases m with
  | nil => rfl
  | cons c r =>
    obtain ⟨k, b⟩ := c
    simp only [memWfFrom, Bool.and_eq_true, decide_eq_true_eq] at h ⊢
    exact ⟨⟨trivial, h.1.2⟩, h.2⟩

/-- What a write leaves at or above its own lower bound. -/
theorem memWrite_wfFrom (m : List Host.Cell) (lo : Option Nat) (a : Nat) (b : Byte) (h : memWfFrom lo m = true) (hl : ∀ l, lo = some l → l < a) :
    memWfFrom lo (memWrite m a b) = true := by
  induction m generalizing lo with
  | nil =>
    by_cases hb : b = memDefault
    · simp [memWrite, hb, memWfFrom]
    · cases lo with
      | none => simp [memWrite, hb, memWfFrom]
      | some l => simp [memWrite, hb, memWfFrom, hl l rfl]
  | cons c r ih =>
    obtain ⟨k, x⟩ := c
    simp only [memWfFrom, Bool.and_eq_true, decide_eq_true_eq] at h
    obtain ⟨⟨h1, h2⟩, h3⟩ := h
    by_cases hak : a = k
    · by_cases hb : b = memDefault
      · simp only [memWrite, hak, hb, if_true]
        cases lo with
        | none => exact memWfFrom_none r k h3
        | some l => exact memWfFrom_weaken r k l h3 (by simp at h1; omega)
      · simp only [memWrite, hak, hb, if_true, if_false, memWfFrom, Bool.and_eq_true, decide_eq_true_eq]
        exact ⟨⟨h1, hb⟩, h3⟩
    · by_cases hlt : a < k
      · by_cases hb : b = memDefault
        · simp only [memWrite, hak, hlt, hb, if_true, if_false, memWfFrom, Bool.and_eq_true, decide_eq_true_eq]
          exact ⟨⟨h1, h2⟩, h3⟩
        · simp only [memWrite, hak, hlt, hb, if_true, if_false, memWfFrom, Bool.and_eq_true, decide_eq_true_eq]
          refine ⟨⟨?_, hb⟩, ⟨trivial, h2⟩, h3⟩
          cases lo with
          | none => rfl
          | some l => simpa using hl l rfl
      · simp only [memWrite, hak, hlt, if_false, memWfFrom, Bool.and_eq_true, decide_eq_true_eq]
        exact ⟨⟨h1, h2⟩, ih (some k) h3 (by intro l hl; cases hl; omega)⟩

/-- A byte written keeps the canonical form. -/
theorem memWrite_wf (m : List Host.Cell) (a : Nat) (b : Byte) (h : Memory.wf m = true) : Memory.wf (memWrite m a b) = true :=
  memWrite_wfFrom m none a b h (by intro l hl; cases hl)

/-- Bytes written keep the canonical form. -/
theorem memWriteBytes_wf (bytes : List Byte) (m : List Host.Cell) (a : Nat) (h : Memory.wf m = true) : Memory.wf (memWriteBytes m a bytes) = true := by
  induction bytes generalizing m a with
  | nil => exact h
  | cons b r ih => exact ih _ _ (memWrite_wf m a b h)

theorem filter_wfFrom (m : List Host.Cell) (lo : Option Nat) (p : Host.Cell → Bool) (h : memWfFrom lo m = true) : memWfFrom lo (m.filter p) = true := by
  induction m generalizing lo with
  | nil => rfl
  | cons c r ih =>
    obtain ⟨k, x⟩ := c
    simp only [memWfFrom, Bool.and_eq_true, decide_eq_true_eq] at h
    obtain ⟨⟨h1, h2⟩, h3⟩ := h
    by_cases hp : p (k, x) = true
    · simp only [List.filter_cons, hp, if_true, memWfFrom, Bool.and_eq_true, decide_eq_true_eq]
      exact ⟨⟨h1, h2⟩, ih _ h3⟩
    · simp only [List.filter_cons, hp]
      cases lo with
      | none => exact ih none (memWfFrom_none r k h3)
      | some l => exact ih _ (memWfFrom_weaken r k l h3 (by simp at h1; omega))

/-- A range that is zeroed keeps the canonical form. -/
theorem clearRange_wf (m : List Host.Cell) (a n : Nat) (h : Memory.wf m = true) : Memory.wf (clearRange m a n) = true := filter_wfFrom m none _ h

theorem wakeLine_mem (s : State) (pa n : Nat) : (s.wakeLine pa n).mem = s.mem := by
  unfold State.wakeLine
  dsimp only
  split <;> rfl

/-- A write of the device's own hand keeps the canonical form. -/
theorem plainStore_wf (s : State) (pa : Nat) (bytes : List Byte) (h : Memory.wf s.mem = true) : Memory.wf (s.plainStore pa bytes).mem = true := by
  unfold State.plainStore
  rw [wakeLine_mem]
  exact memWriteBytes_wf _ s.mem pa h

/-- A read of the byte written. -/
theorem memRead_memWrite (m : List Host.Cell) (a : Nat) (b : Byte) (h : Memory.wf m = true) : memRead (memWrite m a b) a = b := by
  suffices ∀ lo, memWfFrom lo m = true → (∀ l, lo = some l → l < a) → memRead (memWrite m a b) a = b from this none h (by intro l hl; cases hl)
  clear h
  induction m with
  | nil =>
    intro lo _ _
    by_cases hb : b = memDefault
    · simp [memWrite, hb, memRead]
    · simp [memWrite, hb, memRead]
  | cons c r ih =>
    intro lo h hl
    obtain ⟨k, x⟩ := c
    simp only [memWfFrom, Bool.and_eq_true, decide_eq_true_eq] at h
    obtain ⟨⟨h1, h2⟩, h3⟩ := h
    by_cases hak : a = k
    · by_cases hb : b = memDefault
      · simp only [memWrite, hak, hb, if_true]; exact memRead_below r k k h3 (Nat.le_refl k)
      · simp [memWrite, hak, hb, memRead]
    · by_cases hlt : a < k
      · by_cases hb : b = memDefault
        · simp only [memWrite, hak, hlt, hb, if_true, if_false, memRead]
          exact memRead_below r k a h3 (by omega)
        · simp [memWrite, hak, hlt, hb, memRead]
      · simp only [memWrite, hak, hlt, if_false, memRead]
        exact ih (some k) h3 (by intro l hl; cases hl; omega)

/-- A read of another byte. -/
theorem memRead_memWrite_ne (m : List Host.Cell) (a a' : Nat) (b : Byte) (h : Memory.wf m = true) (hne : a' ≠ a) :
    memRead (memWrite m a b) a' = memRead m a' := by
  suffices ∀ lo, memWfFrom lo m = true → memRead (memWrite m a b) a' = memRead m a' from this none h
  clear h
  induction m with
  | nil =>
    intro lo _
    by_cases hb : b = memDefault
    · simp [memWrite, hb, memRead]
    · simp [memWrite, hb, memRead, hne]
  | cons c r ih =>
    intro lo h
    obtain ⟨k, x⟩ := c
    simp only [memWfFrom, Bool.and_eq_true, decide_eq_true_eq] at h
    obtain ⟨⟨h1, h2⟩, h3⟩ := h
    by_cases hak : a = k
    · subst hak
      by_cases hb : b = memDefault
      · simp [memWrite, hb, memRead, hne]
      · simp [memWrite, hb, memRead, hne]
    · by_cases hlt : a < k
      · by_cases hb : b = memDefault
        · simp [memWrite, hak, hlt, hb]
        · simp [memWrite, hak, hlt, hb, memRead, hne]
      · simp only [memWrite, hak, hlt, if_false, memRead]
        rw [ih (some k) h3]

/-- A byte outside the bytes written. -/
theorem memRead_memWriteBytes_ne (bytes : List Byte) (m : List Host.Cell) (a a' : Nat) (h : Memory.wf m = true)
    (hne : a' < a ∨ a + bytes.length ≤ a') : memRead (memWriteBytes m a bytes) a' = memRead m a' := by
  induction bytes generalizing m a with
  | nil => rfl
  | cons b r ih =>
    simp only [List.length_cons] at hne
    rw [memWriteBytes, ih _ _ (memWrite_wf m a b h) (by omega), memRead_memWrite_ne m a a' b h (by omega)]

/-- The bytes written. -/
theorem memRead_memWriteBytes (bytes : List Byte) (m : List Host.Cell) (a j : Nat) (h : Memory.wf m = true) (hj : j < bytes.length) :
    memRead (memWriteBytes m a bytes) (a + j) = bytes[j] := by
  induction bytes generalizing m a j with
  | nil => exact absurd hj (by simp)
  | cons b r ih =>
    cases j with
    | zero =>
      rw [memWriteBytes, memRead_memWriteBytes_ne r _ _ _ (memWrite_wf m a b h) (by omega)]
      exact memRead_memWrite m a b h
    | succ j =>
      have := ih (memWrite m a b) (a + 1) j (memWrite_wf m a b h) (by simpa using hj)
      rw [memWriteBytes, show a + (j + 1) = a + 1 + j by omega, this]
      rfl

/-- Memory after reset lists nothing. -/
theorem reset_mem_wf : Memory.wf State.reset.mem = true := rfl

end Sys2Proof.Machine
end

