-- ==== Sys2Proof/Laws/PerInstr.lean ====
section
/-! SUPPORT. Per instruction: a well-formed word, laid out by the encoder, is read back by the seat that fetches it, with every operand at every value
(R113, R114, R133 to R136, R125); an event has no word. -/

namespace Sys2Proof.Laws.DecodesBack

open Sys2Proof

/-- In every seat that fetches the instruction, its word decodes to it; what has a seat has a word. -/
def Statement (i : Instr) : Prop :=
  (∀ k w, i.inSeat k → i.wf = true → encode i = some w → decode k w = .ok i) ∧ (i.seat.isSome = true ↔ (encode i).isSome = true)

theorem decode_of_fields {k : SeatId} {w : Word} {i : Instr} (hf : fieldsOf k w = some i) (he : encode i = some w) (hw : i.wf = true) :
    decode k w = .ok i := by
  unfold decode; rw [hf]; simp only [he, if_true, hw]

theorem own_seat {i : Instr} {j k : SeatId} (hs : i.seat = some (some j)) (hk : i.inSeat k) : k = j := by
  rcases hk with hk | hk
  · rw [hs] at hk; exact (Option.some.inj (Option.some.inj hk)).symm
  · rw [hs] at hk; cases Option.some.inj hk

theorem event {i : Instr} (hs : i.seat = none) (he : encode i = none) : Statement i :=
  ⟨fun _ _ _ _ h => absurd (he.symm.trans h) (by simp), by simp [hs, he]⟩

theorem getLsbD_append_hi {v w : Nat} {x : BitVec v} {y : BitVec w} {i : Nat} (h : w ≤ i) : (x ++ y).getLsbD i = x.getLsbD (i - w) := by
  rw [BitVec.getLsbD_append]; simp [show ¬ i < w by omega]

theorem getLsbD_stroke {st : Bool} : (BitVec.ofBool st).getLsbD 0 = st := by cases st <;> rfl

/-! ## The formats of a word: its fields, from bit 31 down -/

theorem format1 {st : Bool} {o : BitVec 8} {x0 : BitVec 5} {x1 : BitVec 5} {x2 : BitVec 5} {w : Word} (h : BitVec.ofBool st ++ o ++ x0 ++ x1 ++ x2 ++ 0#8 = w) :
    w.getLsbD 31 = st ∧ w.extractLsb' 23 8 = o ∧ w.extractLsb' 18 5 = x0 ∧ w.extractLsb' 13 5 = x1 ∧ w.extractLsb' 8 5 = x2 := by
  subst h
  refine ⟨?_, ?_, ?_, ?_, ?_⟩
  all_goals repeat (first
    | exact BitVec.extractLsb'_eq_self | exact getLsbD_stroke | refine (getLsbD_append_hi (by decide)).trans ?_
    | refine (BitVec.extractLsb'_append_eq_of_le (by decide)).trans ?_ | refine (BitVec.extractLsb'_append_eq_of_add_le (by decide)).trans ?_)

theorem format2 {st : Bool} {o : BitVec 8} {x0 : BitVec 5} {x1 : BitVec 5} {x2 : BitVec 13} {w : Word} (h : BitVec.ofBool st ++ o ++ x0 ++ x1 ++ x2 = w) :
    w.getLsbD 31 = st ∧ w.extractLsb' 23 8 = o ∧ w.extractLsb' 18 5 = x0 ∧ w.extractLsb' 13 5 = x1 ∧ w.extractLsb' 0 13 = x2 := by
  subst h
  refine ⟨?_, ?_, ?_, ?_, ?_⟩
  all_goals repeat (first
    | exact BitVec.extractLsb'_eq_self | exact getLsbD_stroke | refine (getLsbD_append_hi (by decide)).trans ?_
    | refine (BitVec.extractLsb'_append_eq_of_le (by decide)).trans ?_ | refine (BitVec.extractLsb'_append_eq_of_add_le (by decide)).trans ?_)

theorem format3 {st : Bool} {o : BitVec 8} {x0 : BitVec 5} {x1 : BitVec 5} {x2 : BitVec 6} {w : Word} (h : BitVec.ofBool st ++ o ++ x0 ++ x1 ++ 0#7 ++ x2 = w) :
    w.getLsbD 31 = st ∧ w.extractLsb' 23 8 = o ∧ w.extractLsb' 18 5 = x0 ∧ w.extractLsb' 13 5 = x1 ∧ w.extractLsb' 0 6 = x2 := by
  subst h
  refine ⟨?_, ?_, ?_, ?_, ?_⟩
  all_goals repeat (first
    | exact BitVec.extractLsb'_eq_self | exact getLsbD_stroke | refine (getLsbD_append_hi (by decide)).trans ?_
    | refine (BitVec.extractLsb'_append_eq_of_le (by decide)).trans ?_ | refine (BitVec.extractLsb'_append_eq_of_add_le (by decide)).trans ?_)

theorem format4 {st : Bool} {o : BitVec 8} {x0 : BitVec 5} {x1 : BitVec 18} {w : Word} (h : BitVec.ofBool st ++ o ++ x0 ++ x1 = w) :
    w.getLsbD 31 = st ∧ w.extractLsb' 23 8 = o ∧ w.extractLsb' 18 5 = x0 ∧ w.extractLsb' 0 18 = x1 := by
  subst h
  refine ⟨?_, ?_, ?_, ?_⟩
  all_goals repeat (first
    | exact BitVec.extractLsb'_eq_self | exact getLsbD_stroke | refine (getLsbD_append_hi (by decide)).trans ?_
    | refine (BitVec.extractLsb'_append_eq_of_le (by decide)).trans ?_ | refine (BitVec.extractLsb'_append_eq_of_add_le (by decide)).trans ?_)

theorem format5 {st : Bool} {o : BitVec 8} {x0 : BitVec 23} {w : Word} (h : BitVec.ofBool st ++ o ++ x0 = w) :
    w.getLsbD 31 = st ∧ w.extractLsb' 23 8 = o ∧ w.extractLsb' 0 23 = x0 := by
  subst h
  refine ⟨?_, ?_, ?_⟩
  all_goals repeat (first
    | exact BitVec.extractLsb'_eq_self | exact getLsbD_stroke | refine (getLsbD_append_hi (by decide)).trans ?_
    | refine (BitVec.extractLsb'_append_eq_of_le (by decide)).trans ?_ | refine (BitVec.extractLsb'_append_eq_of_add_le (by decide)).trans ?_)

theorem format6 {st : Bool} {o : BitVec 8} {x0 : BitVec 5} {w : Word} (h : BitVec.ofBool st ++ o ++ 0#5 ++ x0 ++ 0#13 = w) :
    w.getLsbD 31 = st ∧ w.extractLsb' 23 8 = o ∧ w.extractLsb' 13 5 = x0 := by
  subst h
  refine ⟨?_, ?_, ?_⟩
  all_goals repeat (first
    | exact BitVec.extractLsb'_eq_self | exact getLsbD_stroke | refine (getLsbD_append_hi (by decide)).trans ?_
    | refine (BitVec.extractLsb'_append_eq_of_le (by decide)).trans ?_ | refine (BitVec.extractLsb'_append_eq_of_add_le (by decide)).trans ?_)

theorem format7 {st : Bool} {o : BitVec 8} {x0 : BitVec 5} {x1 : BitVec 5} {x2 : BitVec 1} {w : Word} (h : BitVec.ofBool st ++ o ++ 0#5 ++ x0 ++ x1 ++ 0#7 ++ x2 = w) :
    w.getLsbD 31 = st ∧ w.extractLsb' 23 8 = o ∧ w.extractLsb' 13 5 = x0 ∧ w.extractLsb' 8 5 = x1 ∧ w.extractLsb' 0 1 = x2 := by
  subst h
  refine ⟨?_, ?_, ?_, ?_, ?_⟩
  all_goals repeat (first
    | exact BitVec.extractLsb'_eq_self | exact getLsbD_stroke | refine (getLsbD_append_hi (by decide)).trans ?_
    | refine (BitVec.extractLsb'_append_eq_of_le (by decide)).trans ?_ | refine (BitVec.extractLsb'_append_eq_of_add_le (by decide)).trans ?_)

theorem format8 {st : Bool} {o : BitVec 8} {w : Word} (h : BitVec.ofBool st ++ o ++ 0#23 = w) :
    w.getLsbD 31 = st ∧ w.extractLsb' 23 8 = o := by
  subst h
  refine ⟨?_, ?_⟩
  all_goals repeat (first
    | exact BitVec.extractLsb'_eq_self | exact getLsbD_stroke | refine (getLsbD_append_hi (by decide)).trans ?_
    | refine (BitVec.extractLsb'_append_eq_of_le (by decide)).trans ?_ | refine (BitVec.extractLsb'_append_eq_of_add_le (by decide)).trans ?_)

theorem format9 {st : Bool} {o : BitVec 8} {x0 : BitVec 5} {x1 : BitVec 5} {x2 : BitVec 3} {w : Word} (h : BitVec.ofBool st ++ o ++ 0#5 ++ x0 ++ x1 ++ 0#5 ++ x2 = w) :
    w.getLsbD 31 = st ∧ w.extractLsb' 23 8 = o ∧ w.extractLsb' 13 5 = x0 ∧ w.extractLsb' 8 5 = x1 ∧ w.extractLsb' 0 3 = x2 := by
  subst h
  refine ⟨?_, ?_, ?_, ?_, ?_⟩
  all_goals repeat (first
    | exact BitVec.extractLsb'_eq_self | exact getLsbD_stroke | refine (getLsbD_append_hi (by decide)).trans ?_
    | refine (BitVec.extractLsb'_append_eq_of_le (by decide)).trans ?_ | refine (BitVec.extractLsb'_append_eq_of_add_le (by decide)).trans ?_)

theorem format10 {st : Bool} {o : BitVec 8} {x0 : BitVec 5} {x1 : BitVec 5} {x2 : BitVec 5} {x3 : BitVec 3} {w : Word} (h : BitVec.ofBool st ++ o ++ x0 ++ x1 ++ x2 ++ 0#5 ++ x3 = w) :
    w.getLsbD 31 = st ∧ w.extractLsb' 23 8 = o ∧ w.extractLsb' 18 5 = x0 ∧ w.extractLsb' 13 5 = x1 ∧ w.extractLsb' 8 5 = x2 ∧ w.extractLsb' 0 3 = x3 := by
  subst h
  refine ⟨?_, ?_, ?_, ?_, ?_, ?_⟩
  all_goals repeat (first
    | exact BitVec.extractLsb'_eq_self | exact getLsbD_stroke | refine (getLsbD_append_hi (by decide)).trans ?_
    | refine (BitVec.extractLsb'_append_eq_of_le (by decide)).trans ?_ | refine (BitVec.extractLsb'_append_eq_of_add_le (by decide)).trans ?_)

theorem format11 {st : Bool} {o : BitVec 8} {x0 : BitVec 5} {x1 : BitVec 13} {w : Word} (h : BitVec.ofBool st ++ o ++ x0 ++ 0#5 ++ x1 = w) :
    w.getLsbD 31 = st ∧ w.extractLsb' 23 8 = o ∧ w.extractLsb' 18 5 = x0 ∧ w.extractLsb' 0 13 = x1 := by
  subst h
  refine ⟨?_, ?_, ?_, ?_⟩
  all_goals repeat (first
    | exact BitVec.extractLsb'_eq_self | exact getLsbD_stroke | refine (getLsbD_append_hi (by decide)).trans ?_
    | refine (BitVec.extractLsb'_append_eq_of_le (by decide)).trans ?_ | refine (BitVec.extractLsb'_append_eq_of_add_le (by decide)).trans ?_)

theorem format12 {st : Bool} {o : BitVec 8} {x0 : BitVec 5} {x1 : BitVec 13} {w : Word} (h : BitVec.ofBool st ++ o ++ 0#5 ++ x0 ++ x1 = w) :
    w.getLsbD 31 = st ∧ w.extractLsb' 23 8 = o ∧ w.extractLsb' 13 5 = x0 ∧ w.extractLsb' 0 13 = x1 := by
  subst h
  refine ⟨?_, ?_, ?_, ?_⟩
  all_goals repeat (first
    | exact BitVec.extractLsb'_eq_self | exact getLsbD_stroke | refine (getLsbD_append_hi (by decide)).trans ?_
    | refine (BitVec.extractLsb'_append_eq_of_le (by decide)).trans ?_ | refine (BitVec.extractLsb'_append_eq_of_add_le (by decide)).trans ?_)

theorem format13 {st : Bool} {o : BitVec 8} {x0 : BitVec 13} {w : Word} (h : BitVec.ofBool st ++ o ++ 0#10 ++ x0 = w) :
    w.getLsbD 31 = st ∧ w.extractLsb' 23 8 = o ∧ w.extractLsb' 0 13 = x0 := by
  subst h
  refine ⟨?_, ?_, ?_⟩
  all_goals repeat (first
    | exact BitVec.extractLsb'_eq_self | exact getLsbD_stroke | refine (getLsbD_append_hi (by decide)).trans ?_
    | refine (BitVec.extractLsb'_append_eq_of_le (by decide)).trans ?_ | refine (BitVec.extractLsb'_append_eq_of_add_le (by decide)).trans ?_)

theorem format14 {st : Bool} {o : BitVec 8} {x0 : BitVec 5} {w : Word} (h : BitVec.ofBool st ++ o ++ x0 ++ 0#18 = w) :
    w.getLsbD 31 = st ∧ w.extractLsb' 23 8 = o ∧ w.extractLsb' 18 5 = x0 := by
  subst h
  refine ⟨?_, ?_, ?_⟩
  all_goals repeat (first
    | exact BitVec.extractLsb'_eq_self | exact getLsbD_stroke | refine (getLsbD_append_hi (by decide)).trans ?_
    | refine (BitVec.extractLsb'_append_eq_of_le (by decide)).trans ?_ | refine (BitVec.extractLsb'_append_eq_of_add_le (by decide)).trans ?_)

theorem format15 {st : Bool} {o : BitVec 8} {x0 : BitVec 5} {x1 : BitVec 2} {w : Word} (h : BitVec.ofBool st ++ o ++ 0#16 ++ x0 ++ x1 = w) :
    w.getLsbD 31 = st ∧ w.extractLsb' 23 8 = o ∧ w.extractLsb' 2 5 = x0 ∧ w.extractLsb' 0 2 = x1 := by
  subst h
  refine ⟨?_, ?_, ?_, ?_⟩
  all_goals repeat (first
    | exact BitVec.extractLsb'_eq_self | exact getLsbD_stroke | refine (getLsbD_append_hi (by decide)).trans ?_
    | refine (BitVec.extractLsb'_append_eq_of_le (by decide)).trans ?_ | refine (BitVec.extractLsb'_append_eq_of_add_le (by decide)).trans ?_)

theorem format16 {st : Bool} {o : BitVec 8} {x0 : BitVec 5} {x1 : BitVec 5} {x2 : BitVec 2} {x3 : BitVec 4} {x4 : BitVec 7} {w : Word} (h : BitVec.ofBool st ++ o ++ x0 ++ x1 ++ x2 ++ x3 ++ x4 = w) :
    w.getLsbD 31 = st ∧ w.extractLsb' 23 8 = o ∧ w.extractLsb' 18 5 = x0 ∧ w.extractLsb' 13 5 = x1 ∧ w.extractLsb' 11 2 = x2 ∧ w.extractLsb' 7 4 = x3 ∧ w.extractLsb' 0 7 = x4 := by
  subst h
  refine ⟨?_, ?_, ?_, ?_, ?_, ?_, ?_⟩
  all_goals repeat (first
    | exact BitVec.extractLsb'_eq_self | exact getLsbD_stroke | refine (getLsbD_append_hi (by decide)).trans ?_
    | refine (BitVec.extractLsb'_append_eq_of_le (by decide)).trans ?_ | refine (BitVec.extractLsb'_append_eq_of_add_le (by decide)).trans ?_)

theorem format17 {st : Bool} {o : BitVec 8} {x0 : BitVec 5} {x1 : BitVec 2} {x2 : BitVec 2} {w : Word} (h : BitVec.ofBool st ++ o ++ x0 ++ 0#14 ++ x1 ++ x2 = w) :
    w.getLsbD 31 = st ∧ w.extractLsb' 23 8 = o ∧ w.extractLsb' 18 5 = x0 ∧ w.extractLsb' 2 2 = x1 ∧ w.extractLsb' 0 2 = x2 := by
  subst h
  refine ⟨?_, ?_, ?_, ?_, ?_⟩
  all_goals repeat (first
    | exact BitVec.extractLsb'_eq_self | exact getLsbD_stroke | refine (getLsbD_append_hi (by decide)).trans ?_
    | refine (BitVec.extractLsb'_append_eq_of_le (by decide)).trans ?_ | refine (BitVec.extractLsb'_append_eq_of_add_le (by decide)).trans ?_)

theorem format18 {st : Bool} {o : BitVec 8} {x0 : BitVec 5} {x1 : BitVec 5} {x2 : BitVec 2} {x3 : BitVec 4} {x4 : BitVec 5} {w : Word} (h : BitVec.ofBool st ++ o ++ x0 ++ x1 ++ x2 ++ x3 ++ x4 ++ 0#2 = w) :
    w.getLsbD 31 = st ∧ w.extractLsb' 23 8 = o ∧ w.extractLsb' 18 5 = x0 ∧ w.extractLsb' 13 5 = x1 ∧ w.extractLsb' 11 2 = x2 ∧ w.extractLsb' 7 4 = x3 ∧ w.extractLsb' 2 5 = x4 := by
  subst h
  refine ⟨?_, ?_, ?_, ?_, ?_, ?_, ?_⟩
  all_goals repeat (first
    | exact BitVec.extractLsb'_eq_self | exact getLsbD_stroke | refine (getLsbD_append_hi (by decide)).trans ?_
    | refine (BitVec.extractLsb'_append_eq_of_le (by decide)).trans ?_ | refine (BitVec.extractLsb'_append_eq_of_add_le (by decide)).trans ?_)

theorem format19 {st : Bool} {o : BitVec 8} {x0 : BitVec 5} {x1 : BitVec 5} {x2 : BitVec 2} {x3 : BitVec 4} {x4 : BitVec 4} {w : Word} (h : BitVec.ofBool st ++ o ++ x0 ++ x1 ++ x2 ++ x3 ++ 0#1 ++ x4 ++ 0#2 = w) :
    w.getLsbD 31 = st ∧ w.extractLsb' 23 8 = o ∧ w.extractLsb' 18 5 = x0 ∧ w.extractLsb' 13 5 = x1 ∧ w.extractLsb' 11 2 = x2 ∧ w.extractLsb' 7 4 = x3 ∧ w.extractLsb' 2 4 = x4 := by
  subst h
  refine ⟨?_, ?_, ?_, ?_, ?_, ?_, ?_⟩
  all_goals repeat (first
    | exact BitVec.extractLsb'_eq_self | exact getLsbD_stroke | refine (getLsbD_append_hi (by decide)).trans ?_
    | refine (BitVec.extractLsb'_append_eq_of_le (by decide)).trans ?_ | refine (BitVec.extractLsb'_append_eq_of_add_le (by decide)).trans ?_)

theorem format20 {st : Bool} {o : BitVec 8} {x0 : BitVec 5} {x1 : BitVec 5} {x2 : BitVec 2} {x3 : BitVec 4} {x4 : BitVec 5} {x5 : BitVec 2} {w : Word} (h : BitVec.ofBool st ++ o ++ x0 ++ x1 ++ x2 ++ x3 ++ x4 ++ x5 = w) :
    w.getLsbD 31 = st ∧ w.extractLsb' 23 8 = o ∧ w.extractLsb' 18 5 = x0 ∧ w.extractLsb' 13 5 = x1 ∧ w.extractLsb' 11 2 = x2 ∧ w.extractLsb' 7 4 = x3 ∧ w.extractLsb' 2 5 = x4 ∧ w.extractLsb' 0 2 = x5 := by
  subst h
  refine ⟨?_, ?_, ?_, ?_, ?_, ?_, ?_, ?_⟩
  all_goals repeat (first
    | exact BitVec.extractLsb'_eq_self | exact getLsbD_stroke | refine (getLsbD_append_hi (by decide)).trans ?_
    | refine (BitVec.extractLsb'_append_eq_of_le (by decide)).trans ?_ | refine (BitVec.extractLsb'_append_eq_of_add_le (by decide)).trans ?_)

theorem format21 {st : Bool} {o : BitVec 8} {x0 : BitVec 5} {x1 : BitVec 5} {x2 : BitVec 2} {x3 : BitVec 4} {w : Word} (h : BitVec.ofBool st ++ o ++ x0 ++ x1 ++ x2 ++ x3 ++ 0#7 = w) :
    w.getLsbD 31 = st ∧ w.extractLsb' 23 8 = o ∧ w.extractLsb' 18 5 = x0 ∧ w.extractLsb' 13 5 = x1 ∧ w.extractLsb' 11 2 = x2 ∧ w.extractLsb' 7 4 = x3 := by
  subst h
  refine ⟨?_, ?_, ?_, ?_, ?_, ?_⟩
  all_goals repeat (first
    | exact BitVec.extractLsb'_eq_self | exact getLsbD_stroke | refine (getLsbD_append_hi (by decide)).trans ?_
    | refine (BitVec.extractLsb'_append_eq_of_le (by decide)).trans ?_ | refine (BitVec.extractLsb'_append_eq_of_add_le (by decide)).trans ?_)

theorem format22 {st : Bool} {o : BitVec 8} {x0 : BitVec 5} {x1 : BitVec 2} {x2 : BitVec 4} {x3 : BitVec 7} {w : Word} (h : BitVec.ofBool st ++ o ++ 0#5 ++ x0 ++ x1 ++ x2 ++ x3 = w) :
    w.getLsbD 31 = st ∧ w.extractLsb' 23 8 = o ∧ w.extractLsb' 13 5 = x0 ∧ w.extractLsb' 11 2 = x1 ∧ w.extractLsb' 7 4 = x2 ∧ w.extractLsb' 0 7 = x3 := by
  subst h
  refine ⟨?_, ?_, ?_, ?_, ?_, ?_⟩
  all_goals repeat (first
    | exact BitVec.extractLsb'_eq_self | exact getLsbD_stroke | refine (getLsbD_append_hi (by decide)).trans ?_
    | refine (BitVec.extractLsb'_append_eq_of_le (by decide)).trans ?_ | refine (BitVec.extractLsb'_append_eq_of_add_le (by decide)).trans ?_)

theorem format23 {st : Bool} {o : BitVec 8} {x0 : BitVec 5} {x1 : BitVec 2} {x2 : BitVec 4} {x3 : BitVec 5} {w : Word} (h : BitVec.ofBool st ++ o ++ 0#5 ++ x0 ++ x1 ++ x2 ++ x3 ++ 0#2 = w) :
    w.getLsbD 31 = st ∧ w.extractLsb' 23 8 = o ∧ w.extractLsb' 13 5 = x0 ∧ w.extractLsb' 11 2 = x1 ∧ w.extractLsb' 7 4 = x2 ∧ w.extractLsb' 2 5 = x3 := by
  subst h
  refine ⟨?_, ?_, ?_, ?_, ?_, ?_⟩
  all_goals repeat (first
    | exact BitVec.extractLsb'_eq_self | exact getLsbD_stroke | refine (getLsbD_append_hi (by decide)).trans ?_
    | refine (BitVec.extractLsb'_append_eq_of_le (by decide)).trans ?_ | refine (BitVec.extractLsb'_append_eq_of_add_le (by decide)).trans ?_)

theorem format24 {st : Bool} {o : BitVec 8} {x0 : BitVec 6} {x1 : BitVec 6} {x2 : BitVec 6} {x3 : BitVec 3} {x4 : BitVec 2} {w : Word} (h : BitVec.ofBool st ++ o ++ x0 ++ x1 ++ x2 ++ x3 ++ x4 = w) :
    w.getLsbD 31 = st ∧ w.extractLsb' 23 8 = o ∧ w.extractLsb' 17 6 = x0 ∧ w.extractLsb' 11 6 = x1 ∧ w.extractLsb' 5 6 = x2 ∧ w.extractLsb' 2 3 = x3 ∧ w.extractLsb' 0 2 = x4 := by
  subst h
  refine ⟨?_, ?_, ?_, ?_, ?_, ?_, ?_⟩
  all_goals repeat (first
    | exact BitVec.extractLsb'_eq_self | exact getLsbD_stroke | refine (getLsbD_append_hi (by decide)).trans ?_
    | refine (BitVec.extractLsb'_append_eq_of_le (by decide)).trans ?_ | refine (BitVec.extractLsb'_append_eq_of_add_le (by decide)).trans ?_)

theorem format25 {st : Bool} {o : BitVec 8} {x0 : BitVec 6} {x1 : BitVec 6} {x2 : BitVec 3} {x3 : BitVec 2} {w : Word} (h : BitVec.ofBool st ++ o ++ x0 ++ x1 ++ 0#6 ++ x2 ++ x3 = w) :
    w.getLsbD 31 = st ∧ w.extractLsb' 23 8 = o ∧ w.extractLsb' 17 6 = x0 ∧ w.extractLsb' 11 6 = x1 ∧ w.extractLsb' 2 3 = x2 ∧ w.extractLsb' 0 2 = x3 := by
  subst h
  refine ⟨?_, ?_, ?_, ?_, ?_, ?_⟩
  all_goals repeat (first
    | exact BitVec.extractLsb'_eq_self | exact getLsbD_stroke | refine (getLsbD_append_hi (by decide)).trans ?_
    | refine (BitVec.extractLsb'_append_eq_of_le (by decide)).trans ?_ | refine (BitVec.extractLsb'_append_eq_of_add_le (by decide)).trans ?_)

theorem format26 {st : Bool} {o : BitVec 8} {x0 : BitVec 6} {x1 : BitVec 6} {x2 : BitVec 6} {w : Word} (h : BitVec.ofBool st ++ o ++ x0 ++ x1 ++ x2 ++ 0#5 = w) :
    w.getLsbD 31 = st ∧ w.extractLsb' 23 8 = o ∧ w.extractLsb' 17 6 = x0 ∧ w.extractLsb' 11 6 = x1 ∧ w.extractLsb' 5 6 = x2 := by
  subst h
  refine ⟨?_, ?_, ?_, ?_, ?_⟩
  all_goals repeat (first
    | exact BitVec.extractLsb'_eq_self | exact getLsbD_stroke | refine (getLsbD_append_hi (by decide)).trans ?_
    | refine (BitVec.extractLsb'_append_eq_of_le (by decide)).trans ?_ | refine (BitVec.extractLsb'_append_eq_of_add_le (by decide)).trans ?_)

theorem format27 {st : Bool} {o : BitVec 8} {x0 : BitVec 6} {x1 : BitVec 6} {w : Word} (h : BitVec.ofBool st ++ o ++ x0 ++ x1 ++ 0#11 = w) :
    w.getLsbD 31 = st ∧ w.extractLsb' 23 8 = o ∧ w.extractLsb' 17 6 = x0 ∧ w.extractLsb' 11 6 = x1 := by
  subst h
  refine ⟨?_, ?_, ?_, ?_⟩
  all_goals repeat (first
    | exact BitVec.extractLsb'_eq_self | exact getLsbD_stroke | refine (getLsbD_append_hi (by decide)).trans ?_
    | refine (BitVec.extractLsb'_append_eq_of_le (by decide)).trans ?_ | refine (BitVec.extractLsb'_append_eq_of_add_le (by decide)).trans ?_)

theorem format28 {st : Bool} {o : BitVec 8} {x0 : BitVec 6} {x1 : BitVec 1} {x2 : BitVec 16} {w : Word} (h : BitVec.ofBool st ++ o ++ x0 ++ x1 ++ x2 = w) :
    w.getLsbD 31 = st ∧ w.extractLsb' 23 8 = o ∧ w.extractLsb' 17 6 = x0 ∧ w.extractLsb' 16 1 = x1 ∧ w.extractLsb' 0 16 = x2 := by
  subst h
  refine ⟨?_, ?_, ?_, ?_, ?_⟩
  all_goals repeat (first
    | exact BitVec.extractLsb'_eq_self | exact getLsbD_stroke | refine (getLsbD_append_hi (by decide)).trans ?_
    | refine (BitVec.extractLsb'_append_eq_of_le (by decide)).trans ?_ | refine (BitVec.extractLsb'_append_eq_of_add_le (by decide)).trans ?_)

theorem format29 {st : Bool} {o : BitVec 8} {x0 : BitVec 4} {x1 : BitVec 4} {x2 : BitVec 4} {x3 : BitVec 11} {w : Word} (h : BitVec.ofBool st ++ o ++ x0 ++ x1 ++ x2 ++ x3 = w) :
    w.getLsbD 31 = st ∧ w.extractLsb' 23 8 = o ∧ w.extractLsb' 19 4 = x0 ∧ w.extractLsb' 15 4 = x1 ∧ w.extractLsb' 11 4 = x2 ∧ w.extractLsb' 0 11 = x3 := by
  subst h
  refine ⟨?_, ?_, ?_, ?_, ?_, ?_⟩
  all_goals repeat (first
    | exact BitVec.extractLsb'_eq_self | exact getLsbD_stroke | refine (getLsbD_append_hi (by decide)).trans ?_
    | refine (BitVec.extractLsb'_append_eq_of_le (by decide)).trans ?_ | refine (BitVec.extractLsb'_append_eq_of_add_le (by decide)).trans ?_)

theorem format30 {st : Bool} {o : BitVec 8} {x0 : BitVec 4} {x1 : BitVec 4} {x2 : BitVec 4} {x3 : BitVec 6} {w : Word} (h : BitVec.ofBool st ++ o ++ x0 ++ x1 ++ x2 ++ 0#5 ++ x3 = w) :
    w.getLsbD 31 = st ∧ w.extractLsb' 23 8 = o ∧ w.extractLsb' 19 4 = x0 ∧ w.extractLsb' 15 4 = x1 ∧ w.extractLsb' 11 4 = x2 ∧ w.extractLsb' 0 6 = x3 := by
  subst h
  refine ⟨?_, ?_, ?_, ?_, ?_, ?_⟩
  all_goals repeat (first
    | exact BitVec.extractLsb'_eq_self | exact getLsbD_stroke | refine (getLsbD_append_hi (by decide)).trans ?_
    | refine (BitVec.extractLsb'_append_eq_of_le (by decide)).trans ?_ | refine (BitVec.extractLsb'_append_eq_of_add_le (by decide)).trans ?_)

theorem format31 {st : Bool} {o : BitVec 8} {x0 : BitVec 4} {x1 : BitVec 4} {x2 : BitVec 5} {w : Word} (h : BitVec.ofBool st ++ o ++ x0 ++ 0#4 ++ x1 ++ 0#6 ++ x2 = w) :
    w.getLsbD 31 = st ∧ w.extractLsb' 23 8 = o ∧ w.extractLsb' 19 4 = x0 ∧ w.extractLsb' 11 4 = x1 ∧ w.extractLsb' 0 5 = x2 := by
  subst h
  refine ⟨?_, ?_, ?_, ?_, ?_⟩
  all_goals repeat (first
    | exact BitVec.extractLsb'_eq_self | exact getLsbD_stroke | refine (getLsbD_append_hi (by decide)).trans ?_
    | refine (BitVec.extractLsb'_append_eq_of_le (by decide)).trans ?_ | refine (BitVec.extractLsb'_append_eq_of_add_le (by decide)).trans ?_)

theorem format32 {st : Bool} {o : BitVec 8} {x0 : BitVec 4} {x1 : BitVec 4} {x2 : BitVec 5} {w : Word} (h : BitVec.ofBool st ++ o ++ 0#4 ++ x0 ++ x1 ++ 0#6 ++ x2 = w) :
    w.getLsbD 31 = st ∧ w.extractLsb' 23 8 = o ∧ w.extractLsb' 15 4 = x0 ∧ w.extractLsb' 11 4 = x1 ∧ w.extractLsb' 0 5 = x2 := by
  subst h
  refine ⟨?_, ?_, ?_, ?_, ?_⟩
  all_goals repeat (first
    | exact BitVec.extractLsb'_eq_self | exact getLsbD_stroke | refine (getLsbD_append_hi (by decide)).trans ?_
    | refine (BitVec.extractLsb'_append_eq_of_le (by decide)).trans ?_ | refine (BitVec.extractLsb'_append_eq_of_add_le (by decide)).trans ?_)

theorem format33 {st : Bool} {o : BitVec 8} {x0 : BitVec 4} {x1 : BitVec 19} {w : Word} (h : BitVec.ofBool st ++ o ++ x0 ++ x1 = w) :
    w.getLsbD 31 = st ∧ w.extractLsb' 23 8 = o ∧ w.extractLsb' 19 4 = x0 ∧ w.extractLsb' 0 19 = x1 := by
  subst h
  refine ⟨?_, ?_, ?_, ?_⟩
  all_goals repeat (first
    | exact BitVec.extractLsb'_eq_self | exact getLsbD_stroke | refine (getLsbD_append_hi (by decide)).trans ?_
    | refine (BitVec.extractLsb'_append_eq_of_le (by decide)).trans ?_ | refine (BitVec.extractLsb'_append_eq_of_add_le (by decide)).trans ?_)

theorem format34 {st : Bool} {o : BitVec 8} {x0 : BitVec 3} {w : Word} (h : BitVec.ofBool st ++ o ++ 0#20 ++ x0 = w) :
    w.getLsbD 31 = st ∧ w.extractLsb' 23 8 = o ∧ w.extractLsb' 0 3 = x0 := by
  subst h
  refine ⟨?_, ?_, ?_⟩
  all_goals repeat (first
    | exact BitVec.extractLsb'_eq_self | exact getLsbD_stroke | refine (getLsbD_append_hi (by decide)).trans ?_
    | refine (BitVec.extractLsb'_append_eq_of_le (by decide)).trans ?_ | refine (BitVec.extractLsb'_append_eq_of_add_le (by decide)).trans ?_)

theorem format35 {st : Bool} {o : BitVec 8} {x0 : BitVec 3} {x1 : BitVec 3} {x2 : BitVec 3} {x3 : BitVec 5} {x4 : BitVec 9} {w : Word} (h : BitVec.ofBool st ++ o ++ x0 ++ x1 ++ x2 ++ x3 ++ x4 = w) :
    w.getLsbD 31 = st ∧ w.extractLsb' 23 8 = o ∧ w.extractLsb' 20 3 = x0 ∧ w.extractLsb' 17 3 = x1 ∧ w.extractLsb' 14 3 = x2 ∧ w.extractLsb' 9 5 = x3 ∧ w.extractLsb' 0 9 = x4 := by
  subst h
  refine ⟨?_, ?_, ?_, ?_, ?_, ?_, ?_⟩
  all_goals repeat (first
    | exact BitVec.extractLsb'_eq_self | exact getLsbD_stroke | refine (getLsbD_append_hi (by decide)).trans ?_
    | refine (BitVec.extractLsb'_append_eq_of_le (by decide)).trans ?_ | refine (BitVec.extractLsb'_append_eq_of_add_le (by decide)).trans ?_)

theorem format36 {st : Bool} {o : BitVec 8} {x0 : BitVec 3} {w : Word} (h : BitVec.ofBool st ++ o ++ x0 ++ 0#20 = w) :
    w.getLsbD 31 = st ∧ w.extractLsb' 23 8 = o ∧ w.extractLsb' 20 3 = x0 := by
  subst h
  refine ⟨?_, ?_, ?_⟩
  all_goals repeat (first
    | exact BitVec.extractLsb'_eq_self | exact getLsbD_stroke | refine (getLsbD_append_hi (by decide)).trans ?_
    | refine (BitVec.extractLsb'_append_eq_of_le (by decide)).trans ?_ | refine (BitVec.extractLsb'_append_eq_of_add_le (by decide)).trans ?_)

theorem format37 {st : Bool} {o : BitVec 8} {x0 : BitVec 4} {x1 : BitVec 4} {w : Word} (h : BitVec.ofBool st ++ o ++ 0#4 ++ x0 ++ 0#11 ++ x1 = w) :
    w.getLsbD 31 = st ∧ w.extractLsb' 23 8 = o ∧ w.extractLsb' 15 4 = x0 ∧ w.extractLsb' 0 4 = x1 := by
  subst h
  refine ⟨?_, ?_, ?_, ?_⟩
  all_goals repeat (first
    | exact BitVec.extractLsb'_eq_self | exact getLsbD_stroke | refine (getLsbD_append_hi (by decide)).trans ?_
    | refine (BitVec.extractLsb'_append_eq_of_le (by decide)).trans ?_ | refine (BitVec.extractLsb'_append_eq_of_add_le (by decide)).trans ?_)

theorem format38 {st : Bool} {o : BitVec 8} {x0 : BitVec 4} {x1 : BitVec 4} {w : Word} (h : BitVec.ofBool st ++ o ++ x0 ++ 0#15 ++ x1 = w) :
    w.getLsbD 31 = st ∧ w.extractLsb' 23 8 = o ∧ w.extractLsb' 19 4 = x0 ∧ w.extractLsb' 0 4 = x1 := by
  subst h
  refine ⟨?_, ?_, ?_, ?_⟩
  all_goals repeat (first
    | exact BitVec.extractLsb'_eq_self | exact getLsbD_stroke | refine (getLsbD_append_hi (by decide)).trans ?_
    | refine (BitVec.extractLsb'_append_eq_of_le (by decide)).trans ?_ | refine (BitVec.extractLsb'_append_eq_of_add_le (by decide)).trans ?_)

theorem format39 {st : Bool} {o : BitVec 8} {x0 : BitVec 4} {w : Word} (h : BitVec.ofBool st ++ o ++ x0 ++ 0#19 = w) :
    w.getLsbD 31 = st ∧ w.extractLsb' 23 8 = o ∧ w.extractLsb' 19 4 = x0 := by
  subst h
  refine ⟨?_, ?_, ?_⟩
  all_goals repeat (first
    | exact BitVec.extractLsb'_eq_self | exact getLsbD_stroke | refine (getLsbD_append_hi (by decide)).trans ?_
    | refine (BitVec.extractLsb'_append_eq_of_le (by decide)).trans ?_ | refine (BitVec.extractLsb'_append_eq_of_add_le (by decide)).trans ?_)

theorem format40 {st : Bool} {o : BitVec 8} {x0 : BitVec 4} {x1 : BitVec 4} {x2 : BitVec 15} {w : Word} (h : BitVec.ofBool st ++ o ++ x0 ++ x1 ++ x2 = w) :
    w.getLsbD 31 = st ∧ w.extractLsb' 23 8 = o ∧ w.extractLsb' 19 4 = x0 ∧ w.extractLsb' 15 4 = x1 ∧ w.extractLsb' 0 15 = x2 := by
  subst h
  refine ⟨?_, ?_, ?_, ?_, ?_⟩
  all_goals repeat (first
    | exact BitVec.extractLsb'_eq_self | exact getLsbD_stroke | refine (getLsbD_append_hi (by decide)).trans ?_
    | refine (BitVec.extractLsb'_append_eq_of_le (by decide)).trans ?_ | refine (BitVec.extractLsb'_append_eq_of_add_le (by decide)).trans ?_)

theorem format41 {st : Bool} {o : BitVec 8} {x0 : BitVec 4} {x1 : BitVec 4} {x2 : BitVec 6} {w : Word} (h : BitVec.ofBool st ++ o ++ x0 ++ x1 ++ 0#9 ++ x2 = w) :
    w.getLsbD 31 = st ∧ w.extractLsb' 23 8 = o ∧ w.extractLsb' 19 4 = x0 ∧ w.extractLsb' 15 4 = x1 ∧ w.extractLsb' 0 6 = x2 := by
  subst h
  refine ⟨?_, ?_, ?_, ?_, ?_⟩
  all_goals repeat (first
    | exact BitVec.extractLsb'_eq_self | exact getLsbD_stroke | refine (getLsbD_append_hi (by decide)).trans ?_
    | refine (BitVec.extractLsb'_append_eq_of_le (by decide)).trans ?_ | refine (BitVec.extractLsb'_append_eq_of_add_le (by decide)).trans ?_)

theorem format42 {st : Bool} {o : BitVec 8} {x0 : BitVec 4} {x1 : BitVec 15} {w : Word} (h : BitVec.ofBool st ++ o ++ x0 ++ 0#4 ++ x1 = w) :
    w.getLsbD 31 = st ∧ w.extractLsb' 23 8 = o ∧ w.extractLsb' 19 4 = x0 ∧ w.extractLsb' 0 15 = x1 := by
  subst h
  refine ⟨?_, ?_, ?_, ?_⟩
  all_goals repeat (first
    | exact BitVec.extractLsb'_eq_self | exact getLsbD_stroke | refine (getLsbD_append_hi (by decide)).trans ?_
    | refine (BitVec.extractLsb'_append_eq_of_le (by decide)).trans ?_ | refine (BitVec.extractLsb'_append_eq_of_add_le (by decide)).trans ?_)

theorem format43 {st : Bool} {o : BitVec 8} {x0 : BitVec 3} {x1 : BitVec 6} {x2 : BitVec 3} {x3 : BitVec 3} {w : Word} (h : BitVec.ofBool st ++ o ++ x0 ++ x1 ++ x2 ++ x3 ++ 0#8 = w) :
    w.getLsbD 31 = st ∧ w.extractLsb' 23 8 = o ∧ w.extractLsb' 20 3 = x0 ∧ w.extractLsb' 14 6 = x1 ∧ w.extractLsb' 11 3 = x2 ∧ w.extractLsb' 8 3 = x3 := by
  subst h
  refine ⟨?_, ?_, ?_, ?_, ?_, ?_⟩
  all_goals repeat (first
    | exact BitVec.extractLsb'_eq_self | exact getLsbD_stroke | refine (getLsbD_append_hi (by decide)).trans ?_
    | refine (BitVec.extractLsb'_append_eq_of_le (by decide)).trans ?_ | refine (BitVec.extractLsb'_append_eq_of_add_le (by decide)).trans ?_)

theorem format44 {st : Bool} {o : BitVec 8} {x0 : BitVec 4} {x1 : BitVec 8} {w : Word} (h : BitVec.ofBool st ++ o ++ x0 ++ x1 ++ 0#11 = w) :
    w.getLsbD 31 = st ∧ w.extractLsb' 23 8 = o ∧ w.extractLsb' 19 4 = x0 ∧ w.extractLsb' 11 8 = x1 := by
  subst h
  refine ⟨?_, ?_, ?_, ?_⟩
  all_goals repeat (first
    | exact BitVec.extractLsb'_eq_self | exact getLsbD_stroke | refine (getLsbD_append_hi (by decide)).trans ?_
    | refine (BitVec.extractLsb'_append_eq_of_le (by decide)).trans ?_ | refine (BitVec.extractLsb'_append_eq_of_add_le (by decide)).trans ?_)

theorem format45 {st : Bool} {o : BitVec 8} {x0 : BitVec 3} {x1 : BitVec 1} {w : Word} (h : BitVec.ofBool st ++ o ++ x0 ++ x1 ++ 0#19 = w) :
    w.getLsbD 31 = st ∧ w.extractLsb' 23 8 = o ∧ w.extractLsb' 20 3 = x0 ∧ w.extractLsb' 19 1 = x1 := by
  subst h
  refine ⟨?_, ?_, ?_, ?_⟩
  all_goals repeat (first
    | exact BitVec.extractLsb'_eq_self | exact getLsbD_stroke | refine (getLsbD_append_hi (by decide)).trans ?_
    | refine (BitVec.extractLsb'_append_eq_of_le (by decide)).trans ?_ | refine (BitVec.extractLsb'_append_eq_of_add_le (by decide)).trans ?_)

theorem format46 {st : Bool} {o : BitVec 8} {x0 : BitVec 8} {w : Word} (h : BitVec.ofBool st ++ o ++ x0 ++ 0#15 = w) :
    w.getLsbD 31 = st ∧ w.extractLsb' 23 8 = o ∧ w.extractLsb' 15 8 = x0 := by
  subst h
  refine ⟨?_, ?_, ?_⟩
  all_goals repeat (first
    | exact BitVec.extractLsb'_eq_self | exact getLsbD_stroke | refine (getLsbD_append_hi (by decide)).trans ?_
    | refine (BitVec.extractLsb'_append_eq_of_le (by decide)).trans ?_ | refine (BitVec.extractLsb'_append_eq_of_add_le (by decide)).trans ?_)

/-! ## The instructions -/

theorem add (st : Bool) (d : BitVec 5) (a : BitVec 5) (b : BitVec 5) : Statement (.add st d a b) := by
  refine ⟨fun k w hk hwf hw => decode_of_fields ?_ hw hwf, fun _ => rfl, fun _ => rfl⟩
  obtain ⟨h0, hop, h1, h2, h3⟩ := format1 (Option.some.inj hw)
  obtain rfl := own_seat rfl hk
  have key : fieldsOf .c w = some (.add (w.getLsbD 31) (w.extractLsb' 18 5) (w.extractLsb' 13 5) (w.extractLsb' 8 5)) := by
    unfold fieldsOf fieldsC; rw [hop]; rfl
  rw [key, h0, h1, h2, h3]

theorem sub (st : Bool) (d : BitVec 5) (a : BitVec 5) (b : BitVec 5) : Statement (.sub st d a b) := by
  refine ⟨fun k w hk hwf hw => decode_of_fields ?_ hw hwf, fun _ => rfl, fun _ => rfl⟩
  obtain ⟨h0, hop, h1, h2, h3⟩ := format1 (Option.some.inj hw)
  obtain rfl := own_seat rfl hk
  have key : fieldsOf .c w = some (.sub (w.getLsbD 31) (w.extractLsb' 18 5) (w.extractLsb' 13 5) (w.extractLsb' 8 5)) := by
    unfold fieldsOf fieldsC; rw [hop]; rfl
  rw [key, h0, h1, h2, h3]

theorem mul (st : Bool) (d : BitVec 5) (a : BitVec 5) (b : BitVec 5) : Statement (.mul st d a b) := by
  refine ⟨fun k w hk hwf hw => decode_of_fields ?_ hw hwf, fun _ => rfl, fun _ => rfl⟩
  obtain ⟨h0, hop, h1, h2, h3⟩ := format1 (Option.some.inj hw)
  obtain rfl := own_seat rfl hk
  have key : fieldsOf .c w = some (.mul (w.getLsbD 31) (w.extractLsb' 18 5) (w.extractLsb' 13 5) (w.extractLsb' 8 5)) := by
    unfold fieldsOf fieldsC; rw [hop]; rfl
  rw [key, h0, h1, h2, h3]

theorem mulh (st : Bool) (d : BitVec 5) (a : BitVec 5) (b : BitVec 5) : Statement (.mulh st d a b) := by
  refine ⟨fun k w hk hwf hw => decode_of_fields ?_ hw hwf, fun _ => rfl, fun _ => rfl⟩
  obtain ⟨h0, hop, h1, h2, h3⟩ := format1 (Option.some.inj hw)
  obtain rfl := own_seat rfl hk
  have key : fieldsOf .c w = some (.mulh (w.getLsbD 31) (w.extractLsb' 18 5) (w.extractLsb' 13 5) (w.extractLsb' 8 5)) := by
    unfold fieldsOf fieldsC; rw [hop]; rfl
  rw [key, h0, h1, h2, h3]

theorem mulhu (st : Bool) (d : BitVec 5) (a : BitVec 5) (b : BitVec 5) : Statement (.mulhu st d a b) := by
  refine ⟨fun k w hk hwf hw => decode_of_fields ?_ hw hwf, fun _ => rfl, fun _ => rfl⟩
  obtain ⟨h0, hop, h1, h2, h3⟩ := format1 (Option.some.inj hw)
  obtain rfl := own_seat rfl hk
  have key : fieldsOf .c w = some (.mulhu (w.getLsbD 31) (w.extractLsb' 18 5) (w.extractLsb' 13 5) (w.extractLsb' 8 5)) := by
    unfold fieldsOf fieldsC; rw [hop]; rfl
  rw [key, h0, h1, h2, h3]

theorem div (st : Bool) (d : BitVec 5) (a : BitVec 5) (b : BitVec 5) : Statement (.div st d a b) := by
  refine ⟨fun k w hk hwf hw => decode_of_fields ?_ hw hwf, fun _ => rfl, fun _ => rfl⟩
  obtain ⟨h0, hop, h1, h2, h3⟩ := format1 (Option.some.inj hw)
  obtain rfl := own_seat rfl hk
  have key : fieldsOf .c w = some (.div (w.getLsbD 31) (w.extractLsb' 18 5) (w.extractLsb' 13 5) (w.extractLsb' 8 5)) := by
    unfold fieldsOf fieldsC; rw [hop]; rfl
  rw [key, h0, h1, h2, h3]

theorem divu (st : Bool) (d : BitVec 5) (a : BitVec 5) (b : BitVec 5) : Statement (.divu st d a b) := by
  refine ⟨fun k w hk hwf hw => decode_of_fields ?_ hw hwf, fun _ => rfl, fun _ => rfl⟩
  obtain ⟨h0, hop, h1, h2, h3⟩ := format1 (Option.some.inj hw)
  obtain rfl := own_seat rfl hk
  have key : fieldsOf .c w = some (.divu (w.getLsbD 31) (w.extractLsb' 18 5) (w.extractLsb' 13 5) (w.extractLsb' 8 5)) := by
    unfold fieldsOf fieldsC; rw [hop]; rfl
  rw [key, h0, h1, h2, h3]

theorem rem (st : Bool) (d : BitVec 5) (a : BitVec 5) (b : BitVec 5) : Statement (.rem st d a b) := by
  refine ⟨fun k w hk hwf hw => decode_of_fields ?_ hw hwf, fun _ => rfl, fun _ => rfl⟩
  obtain ⟨h0, hop, h1, h2, h3⟩ := format1 (Option.some.inj hw)
  obtain rfl := own_seat rfl hk
  have key : fieldsOf .c w = some (.rem (w.getLsbD 31) (w.extractLsb' 18 5) (w.extractLsb' 13 5) (w.extractLsb' 8 5)) := by
    unfold fieldsOf fieldsC; rw [hop]; rfl
  rw [key, h0, h1, h2, h3]

theorem and (st : Bool) (d : BitVec 5) (a : BitVec 5) (b : BitVec 5) : Statement (.and st d a b) := by
  refine ⟨fun k w hk hwf hw => decode_of_fields ?_ hw hwf, fun _ => rfl, fun _ => rfl⟩
  obtain ⟨h0, hop, h1, h2, h3⟩ := format1 (Option.some.inj hw)
  obtain rfl := own_seat rfl hk
  have key : fieldsOf .c w = some (.and (w.getLsbD 31) (w.extractLsb' 18 5) (w.extractLsb' 13 5) (w.extractLsb' 8 5)) := by
    unfold fieldsOf fieldsC; rw [hop]; rfl
  rw [key, h0, h1, h2, h3]

theorem or (st : Bool) (d : BitVec 5) (a : BitVec 5) (b : BitVec 5) : Statement (.or st d a b) := by
  refine ⟨fun k w hk hwf hw => decode_of_fields ?_ hw hwf, fun _ => rfl, fun _ => rfl⟩
  obtain ⟨h0, hop, h1, h2, h3⟩ := format1 (Option.some.inj hw)
  obtain rfl := own_seat rfl hk
  have key : fieldsOf .c w = some (.or (w.getLsbD 31) (w.extractLsb' 18 5) (w.extractLsb' 13 5) (w.extractLsb' 8 5)) := by
    unfold fieldsOf fieldsC; rw [hop]; rfl
  rw [key, h0, h1, h2, h3]

theorem xor (st : Bool) (d : BitVec 5) (a : BitVec 5) (b : BitVec 5) : Statement (.xor st d a b) := by
  refine ⟨fun k w hk hwf hw => decode_of_fields ?_ hw hwf, fun _ => rfl, fun _ => rfl⟩
  obtain ⟨h0, hop, h1, h2, h3⟩ := format1 (Option.some.inj hw)
  obtain rfl := own_seat rfl hk
  have key : fieldsOf .c w = some (.xor (w.getLsbD 31) (w.extractLsb' 18 5) (w.extractLsb' 13 5) (w.extractLsb' 8 5)) := by
    unfold fieldsOf fieldsC; rw [hop]; rfl
  rw [key, h0, h1, h2, h3]

theorem shl (st : Bool) (d : BitVec 5) (a : BitVec 5) (b : BitVec 5) : Statement (.shl st d a b) := by
  refine ⟨fun k w hk hwf hw => decode_of_fields ?_ hw hwf, fun _ => rfl, fun _ => rfl⟩
  obtain ⟨h0, hop, h1, h2, h3⟩ := format1 (Option.some.inj hw)
  obtain rfl := own_seat rfl hk
  have key : fieldsOf .c w = some (.shl (w.getLsbD 31) (w.extractLsb' 18 5) (w.extractLsb' 13 5) (w.extractLsb' 8 5)) := by
    unfold fieldsOf fieldsC; rw [hop]; rfl
  rw [key, h0, h1, h2, h3]

theorem shr (st : Bool) (d : BitVec 5) (a : BitVec 5) (b : BitVec 5) : Statement (.shr st d a b) := by
  refine ⟨fun k w hk hwf hw => decode_of_fields ?_ hw hwf, fun _ => rfl, fun _ => rfl⟩
  obtain ⟨h0, hop, h1, h2, h3⟩ := format1 (Option.some.inj hw)
  obtain rfl := own_seat rfl hk
  have key : fieldsOf .c w = some (.shr (w.getLsbD 31) (w.extractLsb' 18 5) (w.extractLsb' 13 5) (w.extractLsb' 8 5)) := by
    unfold fieldsOf fieldsC; rw [hop]; rfl
  rw [key, h0, h1, h2, h3]

theorem sar (st : Bool) (d : BitVec 5) (a : BitVec 5) (b : BitVec 5) : Statement (.sar st d a b) := by
  refine ⟨fun k w hk hwf hw => decode_of_fields ?_ hw hwf, fun _ => rfl, fun _ => rfl⟩
  obtain ⟨h0, hop, h1, h2, h3⟩ := format1 (Option.some.inj hw)
  obtain rfl := own_seat rfl hk
  have key : fieldsOf .c w = some (.sar (w.getLsbD 31) (w.extractLsb' 18 5) (w.extractLsb' 13 5) (w.extractLsb' 8 5)) := by
    unfold fieldsOf fieldsC; rw [hop]; rfl
  rw [key, h0, h1, h2, h3]

theorem min (st : Bool) (d : BitVec 5) (a : BitVec 5) (b : BitVec 5) : Statement (.min st d a b) := by
  refine ⟨fun k w hk hwf hw => decode_of_fields ?_ hw hwf, fun _ => rfl, fun _ => rfl⟩
  obtain ⟨h0, hop, h1, h2, h3⟩ := format1 (Option.some.inj hw)
  obtain rfl := own_seat rfl hk
  have key : fieldsOf .c w = some (.min (w.getLsbD 31) (w.extractLsb' 18 5) (w.extractLsb' 13 5) (w.extractLsb' 8 5)) := by
    unfold fieldsOf fieldsC; rw [hop]; rfl
  rw [key, h0, h1, h2, h3]

theorem max (st : Bool) (d : BitVec 5) (a : BitVec 5) (b : BitVec 5) : Statement (.max st d a b) := by
  refine ⟨fun k w hk hwf hw => decode_of_fields ?_ hw hwf, fun _ => rfl, fun _ => rfl⟩
  obtain ⟨h0, hop, h1, h2, h3⟩ := format1 (Option.some.inj hw)
  obtain rfl := own_seat rfl hk
  have key : fieldsOf .c w = some (.max (w.getLsbD 31) (w.extractLsb' 18 5) (w.extractLsb' 13 5) (w.extractLsb' 8 5)) := by
    unfold fieldsOf fieldsC; rw [hop]; rfl
  rw [key, h0, h1, h2, h3]

theorem slt (st : Bool) (d : BitVec 5) (a : BitVec 5) (b : BitVec 5) : Statement (.slt st d a b) := by
  refine ⟨fun k w hk hwf hw => decode_of_fields ?_ hw hwf, fun _ => rfl, fun _ => rfl⟩
  obtain ⟨h0, hop, h1, h2, h3⟩ := format1 (Option.some.inj hw)
  obtain rfl := own_seat rfl hk
  have key : fieldsOf .c w = some (.slt (w.getLsbD 31) (w.extractLsb' 18 5) (w.extractLsb' 13 5) (w.extractLsb' 8 5)) := by
    unfold fieldsOf fieldsC; rw [hop]; rfl
  rw [key, h0, h1, h2, h3]

theorem sltu (st : Bool) (d : BitVec 5) (a : BitVec 5) (b : BitVec 5) : Statement (.sltu st d a b) := by
  refine ⟨fun k w hk hwf hw => decode_of_fields ?_ hw hwf, fun _ => rfl, fun _ => rfl⟩
  obtain ⟨h0, hop, h1, h2, h3⟩ := format1 (Option.some.inj hw)
  obtain rfl := own_seat rfl hk
  have key : fieldsOf .c w = some (.sltu (w.getLsbD 31) (w.extractLsb' 18 5) (w.extractLsb' 13 5) (w.extractLsb' 8 5)) := by
    unfold fieldsOf fieldsC; rw [hop]; rfl
  rw [key, h0, h1, h2, h3]

theorem addi (st : Bool) (d : BitVec 5) (a : BitVec 5) (imm : BitVec 13) : Statement (.addi st d a imm) := by
  refine ⟨fun k w hk hwf hw => decode_of_fields ?_ hw hwf, fun _ => rfl, fun _ => rfl⟩
  obtain ⟨h0, hop, h1, h2, h3⟩ := format2 (Option.some.inj hw)
  obtain rfl := own_seat rfl hk
  have key : fieldsOf .c w = some (.addi (w.getLsbD 31) (w.extractLsb' 18 5) (w.extractLsb' 13 5) (w.extractLsb' 0 13)) := by
    unfold fieldsOf fieldsC; rw [hop]; rfl
  rw [key, h0, h1, h2, h3]

theorem andi (st : Bool) (d : BitVec 5) (a : BitVec 5) (imm : BitVec 13) : Statement (.andi st d a imm) := by
  refine ⟨fun k w hk hwf hw => decode_of_fields ?_ hw hwf, fun _ => rfl, fun _ => rfl⟩
  obtain ⟨h0, hop, h1, h2, h3⟩ := format2 (Option.some.inj hw)
  obtain rfl := own_seat rfl hk
  have key : fieldsOf .c w = some (.andi (w.getLsbD 31) (w.extractLsb' 18 5) (w.extractLsb' 13 5) (w.extractLsb' 0 13)) := by
    unfold fieldsOf fieldsC; rw [hop]; rfl
  rw [key, h0, h1, h2, h3]

theorem ori (st : Bool) (d : BitVec 5) (a : BitVec 5) (imm : BitVec 13) : Statement (.ori st d a imm) := by
  refine ⟨fun k w hk hwf hw => decode_of_fields ?_ hw hwf, fun _ => rfl, fun _ => rfl⟩
  obtain ⟨h0, hop, h1, h2, h3⟩ := format2 (Option.some.inj hw)
  obtain rfl := own_seat rfl hk
  have key : fieldsOf .c w = some (.ori (w.getLsbD 31) (w.extractLsb' 18 5) (w.extractLsb' 13 5) (w.extractLsb' 0 13)) := by
    unfold fieldsOf fieldsC; rw [hop]; rfl
  rw [key, h0, h1, h2, h3]

theorem xori (st : Bool) (d : BitVec 5) (a : BitVec 5) (imm : BitVec 13) : Statement (.xori st d a imm) := by
  refine ⟨fun k w hk hwf hw => decode_of_fields ?_ hw hwf, fun _ => rfl, fun _ => rfl⟩
  obtain ⟨h0, hop, h1, h2, h3⟩ := format2 (Option.some.inj hw)
  obtain rfl := own_seat rfl hk
  have key : fieldsOf .c w = some (.xori (w.getLsbD 31) (w.extractLsb' 18 5) (w.extractLsb' 13 5) (w.extractLsb' 0 13)) := by
    unfold fieldsOf fieldsC; rw [hop]; rfl
  rw [key, h0, h1, h2, h3]

theorem shli (st : Bool) (d : BitVec 5) (a : BitVec 5) (imm : BitVec 6) : Statement (.shli st d a imm) := by
  refine ⟨fun k w hk hwf hw => decode_of_fields ?_ hw hwf, fun _ => rfl, fun _ => rfl⟩
  obtain ⟨h0, hop, h1, h2, h3⟩ := format3 (Option.some.inj hw)
  obtain rfl := own_seat rfl hk
  have key : fieldsOf .c w = some (.shli (w.getLsbD 31) (w.extractLsb' 18 5) (w.extractLsb' 13 5) (w.extractLsb' 0 6)) := by
    unfold fieldsOf fieldsC; rw [hop]; rfl
  rw [key, h0, h1, h2, h3]

theorem shri (st : Bool) (d : BitVec 5) (a : BitVec 5) (imm : BitVec 6) : Statement (.shri st d a imm) := by
  refine ⟨fun k w hk hwf hw => decode_of_fields ?_ hw hwf, fun _ => rfl, fun _ => rfl⟩
  obtain ⟨h0, hop, h1, h2, h3⟩ := format3 (Option.some.inj hw)
  obtain rfl := own_seat rfl hk
  have key : fieldsOf .c w = some (.shri (w.getLsbD 31) (w.extractLsb' 18 5) (w.extractLsb' 13 5) (w.extractLsb' 0 6)) := by
    unfold fieldsOf fieldsC; rw [hop]; rfl
  rw [key, h0, h1, h2, h3]

theorem sari (st : Bool) (d : BitVec 5) (a : BitVec 5) (imm : BitVec 6) : Statement (.sari st d a imm) := by
  refine ⟨fun k w hk hwf hw => decode_of_fields ?_ hw hwf, fun _ => rfl, fun _ => rfl⟩
  obtain ⟨h0, hop, h1, h2, h3⟩ := format3 (Option.some.inj hw)
  obtain rfl := own_seat rfl hk
  have key : fieldsOf .c w = some (.sari (w.getLsbD 31) (w.extractLsb' 18 5) (w.extractLsb' 13 5) (w.extractLsb' 0 6)) := by
    unfold fieldsOf fieldsC; rw [hop]; rfl
  rw [key, h0, h1, h2, h3]

theorem slti (st : Bool) (d : BitVec 5) (a : BitVec 5) (imm : BitVec 13) : Statement (.slti st d a imm) := by
  refine ⟨fun k w hk hwf hw => decode_of_fields ?_ hw hwf, fun _ => rfl, fun _ => rfl⟩
  obtain ⟨h0, hop, h1, h2, h3⟩ := format2 (Option.some.inj hw)
  obtain rfl := own_seat rfl hk
  have key : fieldsOf .c w = some (.slti (w.getLsbD 31) (w.extractLsb' 18 5) (w.extractLsb' 13 5) (w.extractLsb' 0 13)) := by
    unfold fieldsOf fieldsC; rw [hop]; rfl
  rw [key, h0, h1, h2, h3]

theorem lui (st : Bool) (d : BitVec 5) (imm : BitVec 18) : Statement (.lui st d imm) := by
  refine ⟨fun k w hk hwf hw => decode_of_fields ?_ hw hwf, fun _ => rfl, fun _ => rfl⟩
  obtain ⟨h0, hop, h1, h2⟩ := format4 (Option.some.inj hw)
  obtain rfl := own_seat rfl hk
  have key : fieldsOf .c w = some (.lui (w.getLsbD 31) (w.extractLsb' 18 5) (w.extractLsb' 0 18)) := by
    unfold fieldsOf fieldsC; rw [hop]; rfl
  rw [key, h0, h1, h2]

theorem beq (st : Bool) (a : BitVec 5) (b : BitVec 5) (imm : BitVec 13) : Statement (.beq st a b imm) := by
  refine ⟨fun k w hk hwf hw => decode_of_fields ?_ hw hwf, fun _ => rfl, fun _ => rfl⟩
  obtain ⟨h0, hop, h1, h2, h3⟩ := format2 (Option.some.inj hw)
  obtain rfl := own_seat rfl hk
  have key : fieldsOf .c w = some (.beq (w.getLsbD 31) (w.extractLsb' 18 5) (w.extractLsb' 13 5) (w.extractLsb' 0 13)) := by
    unfold fieldsOf fieldsC; rw [hop]; rfl
  rw [key, h0, h1, h2, h3]

theorem bne (st : Bool) (a : BitVec 5) (b : BitVec 5) (imm : BitVec 13) : Statement (.bne st a b imm) := by
  refine ⟨fun k w hk hwf hw => decode_of_fields ?_ hw hwf, fun _ => rfl, fun _ => rfl⟩
  obtain ⟨h0, hop, h1, h2, h3⟩ := format2 (Option.some.inj hw)
  obtain rfl := own_seat rfl hk
  have key : fieldsOf .c w = some (.bne (w.getLsbD 31) (w.extractLsb' 18 5) (w.extractLsb' 13 5) (w.extractLsb' 0 13)) := by
    unfold fieldsOf fieldsC; rw [hop]; rfl
  rw [key, h0, h1, h2, h3]

theorem blt (st : Bool) (a : BitVec 5) (b : BitVec 5) (imm : BitVec 13) : Statement (.blt st a b imm) := by
  refine ⟨fun k w hk hwf hw => decode_of_fields ?_ hw hwf, fun _ => rfl, fun _ => rfl⟩
  obtain ⟨h0, hop, h1, h2, h3⟩ := format2 (Option.some.inj hw)
  obtain rfl := own_seat rfl hk
  have key : fieldsOf .c w = some (.blt (w.getLsbD 31) (w.extractLsb' 18 5) (w.extractLsb' 13 5) (w.extractLsb' 0 13)) := by
    unfold fieldsOf fieldsC; rw [hop]; rfl
  rw [key, h0, h1, h2, h3]

theorem bge (st : Bool) (a : BitVec 5) (b : BitVec 5) (imm : BitVec 13) : Statement (.bge st a b imm) := by
  refine ⟨fun k w hk hwf hw => decode_of_fields ?_ hw hwf, fun _ => rfl, fun _ => rfl⟩
  obtain ⟨h0, hop, h1, h2, h3⟩ := format2 (Option.some.inj hw)
  obtain rfl := own_seat rfl hk
  have key : fieldsOf .c w = some (.bge (w.getLsbD 31) (w.extractLsb' 18 5) (w.extractLsb' 13 5) (w.extractLsb' 0 13)) := by
    unfold fieldsOf fieldsC; rw [hop]; rfl
  rw [key, h0, h1, h2, h3]

theorem bltu (st : Bool) (a : BitVec 5) (b : BitVec 5) (imm : BitVec 13) : Statement (.bltu st a b imm) := by
  refine ⟨fun k w hk hwf hw => decode_of_fields ?_ hw hwf, fun _ => rfl, fun _ => rfl⟩
  obtain ⟨h0, hop, h1, h2, h3⟩ := format2 (Option.some.inj hw)
  obtain rfl := own_seat rfl hk
  have key : fieldsOf .c w = some (.bltu (w.getLsbD 31) (w.extractLsb' 18 5) (w.extractLsb' 13 5) (w.extractLsb' 0 13)) := by
    unfold fieldsOf fieldsC; rw [hop]; rfl
  rw [key, h0, h1, h2, h3]

theorem bgeu (st : Bool) (a : BitVec 5) (b : BitVec 5) (imm : BitVec 13) : Statement (.bgeu st a b imm) := by
  refine ⟨fun k w hk hwf hw => decode_of_fields ?_ hw hwf, fun _ => rfl, fun _ => rfl⟩
  obtain ⟨h0, hop, h1, h2, h3⟩ := format2 (Option.some.inj hw)
  obtain rfl := own_seat rfl hk
  have key : fieldsOf .c w = some (.bgeu (w.getLsbD 31) (w.extractLsb' 18 5) (w.extractLsb' 13 5) (w.extractLsb' 0 13)) := by
    unfold fieldsOf fieldsC; rw [hop]; rfl
  rw [key, h0, h1, h2, h3]

theorem jmp (st : Bool) (imm : BitVec 23) : Statement (.jmp st imm) := by
  refine ⟨fun k w hk hwf hw => decode_of_fields ?_ hw hwf, fun _ => rfl, fun _ => rfl⟩
  obtain ⟨h0, hop, h1⟩ := format5 (Option.some.inj hw)
  obtain rfl := own_seat rfl hk
  have key : fieldsOf .c w = some (.jmp (w.getLsbD 31) (w.extractLsb' 0 23)) := by
    unfold fieldsOf fieldsC; rw [hop]; rfl
  rw [key, h0, h1]

theorem jal (st : Bool) (imm : BitVec 23) : Statement (.jal st imm) := by
  refine ⟨fun k w hk hwf hw => decode_of_fields ?_ hw hwf, fun _ => rfl, fun _ => rfl⟩
  obtain ⟨h0, hop, h1⟩ := format5 (Option.some.inj hw)
  obtain rfl := own_seat rfl hk
  have key : fieldsOf .c w = some (.jal (w.getLsbD 31) (w.extractLsb' 0 23)) := by
    unfold fieldsOf fieldsC; rw [hop]; rfl
  rw [key, h0, h1]

theorem jr (st : Bool) (a : BitVec 5) : Statement (.jr st a) := by
  refine ⟨fun k w hk hwf hw => decode_of_fields ?_ hw hwf, fun _ => rfl, fun _ => rfl⟩
  obtain ⟨h0, hop, h1⟩ := format6 (Option.some.inj hw)
  obtain rfl := own_seat rfl hk
  have key : fieldsOf .c w = some (.jr (w.getLsbD 31) (w.extractLsb' 13 5)) := by
    unfold fieldsOf fieldsC; rw [hop]; rfl
  rw [key, h0, h1]

theorem lset (st : Bool) (d : BitVec 5) (a : BitVec 5) (imm : BitVec 13) : Statement (.lset st d a imm) := by
  refine ⟨fun k w hk hwf hw => decode_of_fields ?_ hw hwf, fun _ => rfl, fun _ => rfl⟩
  obtain ⟨h0, hop, h1, h2, h3⟩ := format2 (Option.some.inj hw)
  obtain rfl := own_seat rfl hk
  have key : fieldsOf .c w = some (.lset (w.getLsbD 31) (w.extractLsb' 18 5) (w.extractLsb' 13 5) (w.extractLsb' 0 13)) := by
    unfold fieldsOf fieldsC; rw [hop]; rfl
  rw [key, h0, h1, h2, h3]

theorem spawn (st : Bool) (a : BitVec 5) : Statement (.spawn st a) := by
  refine ⟨fun k w hk hwf hw => decode_of_fields ?_ hw hwf, fun _ => rfl, fun _ => rfl⟩
  obtain ⟨h0, hop, h1⟩ := format6 (Option.some.inj hw)
  obtain rfl := own_seat rfl hk
  have key : fieldsOf .c w = some (.spawn (w.getLsbD 31) (w.extractLsb' 13 5)) := by
    unfold fieldsOf fieldsC; rw [hop]; rfl
  rw [key, h0, h1]

theorem park (st : Bool) (a : BitVec 5) (b : BitVec 5) (fn : BitVec 1) : Statement (.park st a b fn) := by
  refine ⟨fun k w hk hwf hw => decode_of_fields ?_ hw hwf, fun _ => rfl, fun _ => rfl⟩
  obtain ⟨h0, hop, h1, h2, h3⟩ := format7 (Option.some.inj hw)
  obtain rfl := own_seat rfl hk
  have key : fieldsOf .c w = some (.park (w.getLsbD 31) (w.extractLsb' 13 5) (w.extractLsb' 8 5) (w.extractLsb' 0 1)) := by
    unfold fieldsOf fieldsC; rw [hop]; rfl
  rw [key, h0, h1, h2, h3]

theorem exit (st : Bool) : Statement (.exit st) := by
  refine ⟨fun k w hk hwf hw => decode_of_fields ?_ hw hwf, fun _ => rfl, fun _ => rfl⟩
  obtain ⟨h0, hop⟩ := format8 (Option.some.inj hw)
  obtain rfl := own_seat rfl hk
  have key : fieldsOf .c w = some (.exit (w.getLsbD 31)) := by
    unfold fieldsOf fieldsC; rw [hop]; rfl
  rw [key, h0]

theorem cncl (st : Bool) (a : BitVec 5) (b : BitVec 5) (fn : BitVec 3) : Statement (.cncl st a b fn) := by
  refine ⟨fun k w hk hwf hw => decode_of_fields ?_ hw hwf, fun _ => rfl, fun _ => rfl⟩
  obtain ⟨h0, hop, h1, h2, h3⟩ := format9 (Option.some.inj hw)
  obtain rfl := own_seat rfl hk
  have key : fieldsOf .c w = some (.cncl (w.getLsbD 31) (w.extractLsb' 13 5) (w.extractLsb' 8 5) (w.extractLsb' 0 3)) := by
    unfold fieldsOf fieldsC; rw [hop]; rfl
  rw [key, h0, h1, h2, h3]

theorem crd (st : Bool) (d : BitVec 5) (a : BitVec 5) (b : BitVec 5) (fn : BitVec 3) : Statement (.crd st d a b fn) := by
  refine ⟨fun k w hk hwf hw => decode_of_fields ?_ hw hwf, fun _ => rfl, fun _ => rfl⟩
  obtain ⟨h0, hop, h1, h2, h3, h4⟩ := format10 (Option.some.inj hw)
  obtain rfl := own_seat rfl hk
  have key : fieldsOf .c w = some (.crd (w.getLsbD 31) (w.extractLsb' 18 5) (w.extractLsb' 13 5) (w.extractLsb' 8 5) (w.extractLsb' 0 3)) := by
    unfold fieldsOf fieldsC; rw [hop]; rfl
  rw [key, h0, h1, h2, h3, h4]

theorem sysr (st : Bool) (d : BitVec 5) (sys : BitVec 13) : Statement (.sysr st d sys) := by
  refine ⟨fun k w hk hwf hw => decode_of_fields ?_ hw hwf, fun _ => rfl, fun _ => rfl⟩
  obtain ⟨h0, hop, h1, h2⟩ := format11 (Option.some.inj hw)
  obtain rfl := own_seat rfl hk
  have key : fieldsOf .c w = some (.sysr (w.getLsbD 31) (w.extractLsb' 18 5) (w.extractLsb' 0 13)) := by
    unfold fieldsOf fieldsC; rw [hop]; rfl
  rw [key, h0, h1, h2]

theorem sysw (st : Bool) (a : BitVec 5) (sys : BitVec 13) : Statement (.sysw st a sys) := by
  refine ⟨fun k w hk hwf hw => decode_of_fields ?_ hw hwf, fun _ => rfl, fun _ => rfl⟩
  obtain ⟨h0, hop, h1, h2⟩ := format12 (Option.some.inj hw)
  obtain rfl := own_seat rfl hk
  have key : fieldsOf .c w = some (.sysw (w.getLsbD 31) (w.extractLsb' 13 5) (w.extractLsb' 0 13)) := by
    unfold fieldsOf fieldsC; rw [hop]; rfl
  rw [key, h0, h1, h2]

theorem trap (st : Bool) (sys : BitVec 13) : Statement (.trap st sys) := by
  refine ⟨fun k w hk hwf hw => decode_of_fields ?_ hw hwf, fun _ => rfl, fun _ => rfl⟩
  obtain ⟨h0, hop, h1⟩ := format13 (Option.some.inj hw)
  obtain rfl := own_seat rfl hk
  have key : fieldsOf .c w = some (.trap (w.getLsbD 31) (w.extractLsb' 0 13)) := by
    unfold fieldsOf fieldsC; rw [hop]; rfl
  rw [key, h0, h1]

theorem rft (st : Bool) : Statement (.rft st) := by
  refine ⟨fun k w hk hwf hw => decode_of_fields ?_ hw hwf, fun _ => rfl, fun _ => rfl⟩
  obtain ⟨h0, hop⟩ := format8 (Option.some.inj hw)
  obtain rfl := own_seat rfl hk
  have key : fieldsOf .c w = some (.rft (w.getLsbD 31)) := by
    unfold fieldsOf fieldsC; rw [hop]; rfl
  rw [key, h0]

theorem time (st : Bool) (d : BitVec 5) : Statement (.time st d) := by
  refine ⟨fun k w hk hwf hw => decode_of_fields ?_ hw hwf, fun _ => rfl, fun _ => rfl⟩
  obtain ⟨h0, hop, h1⟩ := format14 (Option.some.inj hw)
  obtain rfl := own_seat rfl hk
  have key : fieldsOf .c w = some (.time (w.getLsbD 31) (w.extractLsb' 18 5)) := by
    unfold fieldsOf fieldsC; rw [hop]; rfl
  rw [key, h0, h1]

theorem scope (st : Bool) (e : BitVec 5) (sm : BitVec 2) : Statement (.scope st e sm) := by
  refine ⟨fun k w hk hwf hw => decode_of_fields ?_ hw hwf, fun _ => rfl, fun _ => rfl⟩
  obtain ⟨h0, hop, h1, h2⟩ := format15 (Option.some.inj hw)
  obtain rfl := own_seat rfl hk
  have key : fieldsOf .c w = some (.scope (w.getLsbD 31) (w.extractLsb' 2 5) (w.extractLsb' 0 2)) := by
    unfold fieldsOf fieldsC; rw [hop]; rfl
  rw [key, h0, h1, h2]

theorem aadd (st : Bool) (d : BitVec 5) (a : BitVec 5) (b : BitVec 5) : Statement (.aadd st d a b) := by
  refine ⟨fun k w hk hwf hw => decode_of_fields ?_ hw hwf, fun _ => rfl, fun _ => rfl⟩
  obtain ⟨h0, hop, h1, h2, h3⟩ := format1 (Option.some.inj hw)
  obtain rfl := own_seat rfl hk
  have key : fieldsOf .a w = some (.aadd (w.getLsbD 31) (w.extractLsb' 18 5) (w.extractLsb' 13 5) (w.extractLsb' 8 5)) := by
    unfold fieldsOf fieldsA; rw [hop]; rfl
  rw [key, h0, h1, h2, h3]

theorem asub (st : Bool) (d : BitVec 5) (a : BitVec 5) (b : BitVec 5) : Statement (.asub st d a b) := by
  refine ⟨fun k w hk hwf hw => decode_of_fields ?_ hw hwf, fun _ => rfl, fun _ => rfl⟩
  obtain ⟨h0, hop, h1, h2, h3⟩ := format1 (Option.some.inj hw)
  obtain rfl := own_seat rfl hk
  have key : fieldsOf .a w = some (.asub (w.getLsbD 31) (w.extractLsb' 18 5) (w.extractLsb' 13 5) (w.extractLsb' 8 5)) := by
    unfold fieldsOf fieldsA; rw [hop]; rfl
  rw [key, h0, h1, h2, h3]

theorem amul (st : Bool) (d : BitVec 5) (a : BitVec 5) (b : BitVec 5) : Statement (.amul st d a b) := by
  refine ⟨fun k w hk hwf hw => decode_of_fields ?_ hw hwf, fun _ => rfl, fun _ => rfl⟩
  obtain ⟨h0, hop, h1, h2, h3⟩ := format1 (Option.some.inj hw)
  obtain rfl := own_seat rfl hk
  have key : fieldsOf .a w = some (.amul (w.getLsbD 31) (w.extractLsb' 18 5) (w.extractLsb' 13 5) (w.extractLsb' 8 5)) := by
    unfold fieldsOf fieldsA; rw [hop]; rfl
  rw [key, h0, h1, h2, h3]

theorem aand (st : Bool) (d : BitVec 5) (a : BitVec 5) (b : BitVec 5) : Statement (.aand st d a b) := by
  refine ⟨fun k w hk hwf hw => decode_of_fields ?_ hw hwf, fun _ => rfl, fun _ => rfl⟩
  obtain ⟨h0, hop, h1, h2, h3⟩ := format1 (Option.some.inj hw)
  obtain rfl := own_seat rfl hk
  have key : fieldsOf .a w = some (.aand (w.getLsbD 31) (w.extractLsb' 18 5) (w.extractLsb' 13 5) (w.extractLsb' 8 5)) := by
    unfold fieldsOf fieldsA; rw [hop]; rfl
  rw [key, h0, h1, h2, h3]

theorem aor (st : Bool) (d : BitVec 5) (a : BitVec 5) (b : BitVec 5) : Statement (.aor st d a b) := by
  refine ⟨fun k w hk hwf hw => decode_of_fields ?_ hw hwf, fun _ => rfl, fun _ => rfl⟩
  obtain ⟨h0, hop, h1, h2, h3⟩ := format1 (Option.some.inj hw)
  obtain rfl := own_seat rfl hk
  have key : fieldsOf .a w = some (.aor (w.getLsbD 31) (w.extractLsb' 18 5) (w.extractLsb' 13 5) (w.extractLsb' 8 5)) := by
    unfold fieldsOf fieldsA; rw [hop]; rfl
  rw [key, h0, h1, h2, h3]

theorem ashl (st : Bool) (d : BitVec 5) (a : BitVec 5) (b : BitVec 5) : Statement (.ashl st d a b) := by
  refine ⟨fun k w hk hwf hw => decode_of_fields ?_ hw hwf, fun _ => rfl, fun _ => rfl⟩
  obtain ⟨h0, hop, h1, h2, h3⟩ := format1 (Option.some.inj hw)
  obtain rfl := own_seat rfl hk
  have key : fieldsOf .a w = some (.ashl (w.getLsbD 31) (w.extractLsb' 18 5) (w.extractLsb' 13 5) (w.extractLsb' 8 5)) := by
    unfold fieldsOf fieldsA; rw [hop]; rfl
  rw [key, h0, h1, h2, h3]

theorem ashr (st : Bool) (d : BitVec 5) (a : BitVec 5) (b : BitVec 5) : Statement (.ashr st d a b) := by
  refine ⟨fun k w hk hwf hw => decode_of_fields ?_ hw hwf, fun _ => rfl, fun _ => rfl⟩
  obtain ⟨h0, hop, h1, h2, h3⟩ := format1 (Option.some.inj hw)
  obtain rfl := own_seat rfl hk
  have key : fieldsOf .a w = some (.ashr (w.getLsbD 31) (w.extractLsb' 18 5) (w.extractLsb' 13 5) (w.extractLsb' 8 5)) := by
    unfold fieldsOf fieldsA; rw [hop]; rfl
  rw [key, h0, h1, h2, h3]

theorem aaddi (st : Bool) (d : BitVec 5) (a : BitVec 5) (imm : BitVec 13) : Statement (.aaddi st d a imm) := by
  refine ⟨fun k w hk hwf hw => decode_of_fields ?_ hw hwf, fun _ => rfl, fun _ => rfl⟩
  obtain ⟨h0, hop, h1, h2, h3⟩ := format2 (Option.some.inj hw)
  obtain rfl := own_seat rfl hk
  have key : fieldsOf .a w = some (.aaddi (w.getLsbD 31) (w.extractLsb' 18 5) (w.extractLsb' 13 5) (w.extractLsb' 0 13)) := by
    unfold fieldsOf fieldsA; rw [hop]; rfl
  rw [key, h0, h1, h2, h3]

theorem alui (st : Bool) (d : BitVec 5) (imm : BitVec 18) : Statement (.alui st d imm) := by
  refine ⟨fun k w hk hwf hw => decode_of_fields ?_ hw hwf, fun _ => rfl, fun _ => rfl⟩
  obtain ⟨h0, hop, h1, h2⟩ := format4 (Option.some.inj hw)
  obtain rfl := own_seat rfl hk
  have key : fieldsOf .a w = some (.alui (w.getLsbD 31) (w.extractLsb' 18 5) (w.extractLsb' 0 18)) := by
    unfold fieldsOf fieldsA; rw [hop]; rfl
  rw [key, h0, h1, h2]

theorem abeq (st : Bool) (a : BitVec 5) (b : BitVec 5) (imm : BitVec 13) : Statement (.abeq st a b imm) := by
  refine ⟨fun k w hk hwf hw => decode_of_fields ?_ hw hwf, fun _ => rfl, fun _ => rfl⟩
  obtain ⟨h0, hop, h1, h2, h3⟩ := format2 (Option.some.inj hw)
  obtain rfl := own_seat rfl hk
  have key : fieldsOf .a w = some (.abeq (w.getLsbD 31) (w.extractLsb' 18 5) (w.extractLsb' 13 5) (w.extractLsb' 0 13)) := by
    unfold fieldsOf fieldsA; rw [hop]; rfl
  rw [key, h0, h1, h2, h3]

theorem abne (st : Bool) (a : BitVec 5) (b : BitVec 5) (imm : BitVec 13) : Statement (.abne st a b imm) := by
  refine ⟨fun k w hk hwf hw => decode_of_fields ?_ hw hwf, fun _ => rfl, fun _ => rfl⟩
  obtain ⟨h0, hop, h1, h2, h3⟩ := format2 (Option.some.inj hw)
  obtain rfl := own_seat rfl hk
  have key : fieldsOf .a w = some (.abne (w.getLsbD 31) (w.extractLsb' 18 5) (w.extractLsb' 13 5) (w.extractLsb' 0 13)) := by
    unfold fieldsOf fieldsA; rw [hop]; rfl
  rw [key, h0, h1, h2, h3]

theorem ablt (st : Bool) (a : BitVec 5) (b : BitVec 5) (imm : BitVec 13) : Statement (.ablt st a b imm) := by
  refine ⟨fun k w hk hwf hw => decode_of_fields ?_ hw hwf, fun _ => rfl, fun _ => rfl⟩
  obtain ⟨h0, hop, h1, h2, h3⟩ := format2 (Option.some.inj hw)
  obtain rfl := own_seat rfl hk
  have key : fieldsOf .a w = some (.ablt (w.getLsbD 31) (w.extractLsb' 18 5) (w.extractLsb' 13 5) (w.extractLsb' 0 13)) := by
    unfold fieldsOf fieldsA; rw [hop]; rfl
  rw [key, h0, h1, h2, h3]

theorem abge (st : Bool) (a : BitVec 5) (b : BitVec 5) (imm : BitVec 13) : Statement (.abge st a b imm) := by
  refine ⟨fun k w hk hwf hw => decode_of_fields ?_ hw hwf, fun _ => rfl, fun _ => rfl⟩
  obtain ⟨h0, hop, h1, h2, h3⟩ := format2 (Option.some.inj hw)
  obtain rfl := own_seat rfl hk
  have key : fieldsOf .a w = some (.abge (w.getLsbD 31) (w.extractLsb' 18 5) (w.extractLsb' 13 5) (w.extractLsb' 0 13)) := by
    unfold fieldsOf fieldsA; rw [hop]; rfl
  rw [key, h0, h1, h2, h3]

theorem ajmp (st : Bool) (imm : BitVec 23) : Statement (.ajmp st imm) := by
  refine ⟨fun k w hk hwf hw => decode_of_fields ?_ hw hwf, fun _ => rfl, fun _ => rfl⟩
  obtain ⟨h0, hop, h1⟩ := format5 (Option.some.inj hw)
  obtain rfl := own_seat rfl hk
  have key : fieldsOf .a w = some (.ajmp (w.getLsbD 31) (w.extractLsb' 0 23)) := by
    unfold fieldsOf fieldsA; rw [hop]; rfl
  rw [key, h0, h1]

theorem ajr (st : Bool) (a : BitVec 5) : Statement (.ajr st a) := by
  refine ⟨fun k w hk hwf hw => decode_of_fields ?_ hw hwf, fun _ => rfl, fun _ => rfl⟩
  obtain ⟨h0, hop, h1⟩ := format6 (Option.some.inj hw)
  obtain rfl := own_seat rfl hk
  have key : fieldsOf .a w = some (.ajr (w.getLsbD 31) (w.extractLsb' 13 5)) := by
    unfold fieldsOf fieldsA; rw [hop]; rfl
  rw [key, h0, h1]

theorem ldb (st : Bool) (t : BitVec 5) (b : BitVec 5) (os : BitVec 2) (pm : BitVec 4) (off : BitVec 7) : Statement (.ldb st t b os pm off) := by
  refine ⟨fun k w hk hwf hw => decode_of_fields ?_ hw hwf, fun _ => rfl, fun _ => rfl⟩
  obtain ⟨h0, hop, h1, h2, h3, h4, h5⟩ := format16 (Option.some.inj hw)
  obtain rfl := own_seat rfl hk
  have key : fieldsOf .a w = some (.ldb (w.getLsbD 31) (w.extractLsb' 18 5) (w.extractLsb' 13 5) (w.extractLsb' 11 2) (w.extractLsb' 7 4) (w.extractLsb' 0 7)) := by
    unfold fieldsOf fieldsA; rw [hop]; rfl
  rw [key, h0, h1, h2, h3, h4, h5]

theorem ldbs (st : Bool) (t : BitVec 5) (b : BitVec 5) (os : BitVec 2) (pm : BitVec 4) (off : BitVec 7) : Statement (.ldbs st t b os pm off) := by
  refine ⟨fun k w hk hwf hw => decode_of_fields ?_ hw hwf, fun _ => rfl, fun _ => rfl⟩
  obtain ⟨h0, hop, h1, h2, h3, h4, h5⟩ := format16 (Option.some.inj hw)
  obtain rfl := own_seat rfl hk
  have key : fieldsOf .a w = some (.ldbs (w.getLsbD 31) (w.extractLsb' 18 5) (w.extractLsb' 13 5) (w.extractLsb' 11 2) (w.extractLsb' 7 4) (w.extractLsb' 0 7)) := by
    unfold fieldsOf fieldsA; rw [hop]; rfl
  rw [key, h0, h1, h2, h3, h4, h5]

theorem ldh (st : Bool) (t : BitVec 5) (b : BitVec 5) (os : BitVec 2) (pm : BitVec 4) (off : BitVec 7) : Statement (.ldh st t b os pm off) := by
  refine ⟨fun k w hk hwf hw => decode_of_fields ?_ hw hwf, fun _ => rfl, fun _ => rfl⟩
  obtain ⟨h0, hop, h1, h2, h3, h4, h5⟩ := format16 (Option.some.inj hw)
  obtain rfl := own_seat rfl hk
  have key : fieldsOf .a w = some (.ldh (w.getLsbD 31) (w.extractLsb' 18 5) (w.extractLsb' 13 5) (w.extractLsb' 11 2) (w.extractLsb' 7 4) (w.extractLsb' 0 7)) := by
    unfold fieldsOf fieldsA; rw [hop]; rfl
  rw [key, h0, h1, h2, h3, h4, h5]

theorem ldhs (st : Bool) (t : BitVec 5) (b : BitVec 5) (os : BitVec 2) (pm : BitVec 4) (off : BitVec 7) : Statement (.ldhs st t b os pm off) := by
  refine ⟨fun k w hk hwf hw => decode_of_fields ?_ hw hwf, fun _ => rfl, fun _ => rfl⟩
  obtain ⟨h0, hop, h1, h2, h3, h4, h5⟩ := format16 (Option.some.inj hw)
  obtain rfl := own_seat rfl hk
  have key : fieldsOf .a w = some (.ldhs (w.getLsbD 31) (w.extractLsb' 18 5) (w.extractLsb' 13 5) (w.extractLsb' 11 2) (w.extractLsb' 7 4) (w.extractLsb' 0 7)) := by
    unfold fieldsOf fieldsA; rw [hop]; rfl
  rw [key, h0, h1, h2, h3, h4, h5]

theorem ldw (st : Bool) (t : BitVec 5) (b : BitVec 5) (os : BitVec 2) (pm : BitVec 4) (off : BitVec 7) : Statement (.ldw st t b os pm off) := by
  refine ⟨fun k w hk hwf hw => decode_of_fields ?_ hw hwf, fun _ => rfl, fun _ => rfl⟩
  obtain ⟨h0, hop, h1, h2, h3, h4, h5⟩ := format16 (Option.some.inj hw)
  obtain rfl := own_seat rfl hk
  have key : fieldsOf .a w = some (.ldw (w.getLsbD 31) (w.extractLsb' 18 5) (w.extractLsb' 13 5) (w.extractLsb' 11 2) (w.extractLsb' 7 4) (w.extractLsb' 0 7)) := by
    unfold fieldsOf fieldsA; rw [hop]; rfl
  rw [key, h0, h1, h2, h3, h4, h5]

theorem ldws (st : Bool) (t : BitVec 5) (b : BitVec 5) (os : BitVec 2) (pm : BitVec 4) (off : BitVec 7) : Statement (.ldws st t b os pm off) := by
  refine ⟨fun k w hk hwf hw => decode_of_fields ?_ hw hwf, fun _ => rfl, fun _ => rfl⟩
  obtain ⟨h0, hop, h1, h2, h3, h4, h5⟩ := format16 (Option.some.inj hw)
  obtain rfl := own_seat rfl hk
  have key : fieldsOf .a w = some (.ldws (w.getLsbD 31) (w.extractLsb' 18 5) (w.extractLsb' 13 5) (w.extractLsb' 11 2) (w.extractLsb' 7 4) (w.extractLsb' 0 7)) := by
    unfold fieldsOf fieldsA; rw [hop]; rfl
  rw [key, h0, h1, h2, h3, h4, h5]

theorem ldd (st : Bool) (t : BitVec 5) (b : BitVec 5) (os : BitVec 2) (pm : BitVec 4) (off : BitVec 7) : Statement (.ldd st t b os pm off) := by
  refine ⟨fun k w hk hwf hw => decode_of_fields ?_ hw hwf, fun _ => rfl, fun _ => rfl⟩
  obtain ⟨h0, hop, h1, h2, h3, h4, h5⟩ := format16 (Option.some.inj hw)
  obtain rfl := own_seat rfl hk
  have key : fieldsOf .a w = some (.ldd (w.getLsbD 31) (w.extractLsb' 18 5) (w.extractLsb' 13 5) (w.extractLsb' 11 2) (w.extractLsb' 7 4) (w.extractLsb' 0 7)) := by
    unfold fieldsOf fieldsA; rw [hop]; rfl
  rw [key, h0, h1, h2, h3, h4, h5]

theorem stb (st : Bool) (t : BitVec 5) (b : BitVec 5) (os : BitVec 2) (pm : BitVec 4) (off : BitVec 7) : Statement (.stb st t b os pm off) := by
  refine ⟨fun k w hk hwf hw => decode_of_fields ?_ hw hwf, fun _ => rfl, fun _ => rfl⟩
  obtain ⟨h0, hop, h1, h2, h3, h4, h5⟩ := format16 (Option.some.inj hw)
  obtain rfl := own_seat rfl hk
  have key : fieldsOf .a w = some (.stb (w.getLsbD 31) (w.extractLsb' 18 5) (w.extractLsb' 13 5) (w.extractLsb' 11 2) (w.extractLsb' 7 4) (w.extractLsb' 0 7)) := by
    unfold fieldsOf fieldsA; rw [hop]; rfl
  rw [key, h0, h1, h2, h3, h4, h5]

theorem sth (st : Bool) (t : BitVec 5) (b : BitVec 5) (os : BitVec 2) (pm : BitVec 4) (off : BitVec 7) : Statement (.sth st t b os pm off) := by
  refine ⟨fun k w hk hwf hw => decode_of_fields ?_ hw hwf, fun _ => rfl, fun _ => rfl⟩
  obtain ⟨h0, hop, h1, h2, h3, h4, h5⟩ := format16 (Option.some.inj hw)
  obtain rfl := own_seat rfl hk
  have key : fieldsOf .a w = some (.sth (w.getLsbD 31) (w.extractLsb' 18 5) (w.extractLsb' 13 5) (w.extractLsb' 11 2) (w.extractLsb' 7 4) (w.extractLsb' 0 7)) := by
    unfold fieldsOf fieldsA; rw [hop]; rfl
  rw [key, h0, h1, h2, h3, h4, h5]

theorem stw (st : Bool) (t : BitVec 5) (b : BitVec 5) (os : BitVec 2) (pm : BitVec 4) (off : BitVec 7) : Statement (.stw st t b os pm off) := by
  refine ⟨fun k w hk hwf hw => decode_of_fields ?_ hw hwf, fun _ => rfl, fun _ => rfl⟩
  obtain ⟨h0, hop, h1, h2, h3, h4, h5⟩ := format16 (Option.some.inj hw)
  obtain rfl := own_seat rfl hk
  have key : fieldsOf .a w = some (.stw (w.getLsbD 31) (w.extractLsb' 18 5) (w.extractLsb' 13 5) (w.extractLsb' 11 2) (w.extractLsb' 7 4) (w.extractLsb' 0 7)) := by
    unfold fieldsOf fieldsA; rw [hop]; rfl
  rw [key, h0, h1, h2, h3, h4, h5]

theorem std (st : Bool) (t : BitVec 5) (b : BitVec 5) (os : BitVec 2) (pm : BitVec 4) (off : BitVec 7) : Statement (.std st t b os pm off) := by
  refine ⟨fun k w hk hwf hw => decode_of_fields ?_ hw hwf, fun _ => rfl, fun _ => rfl⟩
  obtain ⟨h0, hop, h1, h2, h3, h4, h5⟩ := format16 (Option.some.inj hw)
  obtain rfl := own_seat rfl hk
  have key : fieldsOf .a w = some (.std (w.getLsbD 31) (w.extractLsb' 18 5) (w.extractLsb' 13 5) (w.extractLsb' 11 2) (w.extractLsb' 7 4) (w.extractLsb' 0 7)) := by
    unfold fieldsOf fieldsA; rw [hop]; rfl
  rw [key, h0, h1, h2, h3, h4, h5]

theorem ldv (st : Bool) (t : BitVec 5) (b : BitVec 5) (os : BitVec 2) (pm : BitVec 4) (off : BitVec 7) : Statement (.ldv st t b os pm off) := by
  refine ⟨fun k w hk hwf hw => decode_of_fields ?_ hw hwf, fun _ => rfl, fun _ => rfl⟩
  obtain ⟨h0, hop, h1, h2, h3, h4, h5⟩ := format16 (Option.some.inj hw)
  obtain rfl := own_seat rfl hk
  have key : fieldsOf .a w = some (.ldv (w.getLsbD 31) (w.extractLsb' 18 5) (w.extractLsb' 13 5) (w.extractLsb' 11 2) (w.extractLsb' 7 4) (w.extractLsb' 0 7)) := by
    unfold fieldsOf fieldsA; rw [hop]; rfl
  rw [key, h0, h1, h2, h3, h4, h5]

theorem stv (st : Bool) (t : BitVec 5) (b : BitVec 5) (os : BitVec 2) (pm : BitVec 4) (off : BitVec 7) : Statement (.stv st t b os pm off) := by
  refine ⟨fun k w hk hwf hw => decode_of_fields ?_ hw hwf, fun _ => rfl, fun _ => rfl⟩
  obtain ⟨h0, hop, h1, h2, h3, h4, h5⟩ := format16 (Option.some.inj hw)
  obtain rfl := own_seat rfl hk
  have key : fieldsOf .a w = some (.stv (w.getLsbD 31) (w.extractLsb' 18 5) (w.extractLsb' 13 5) (w.extractLsb' 11 2) (w.extractLsb' 7 4) (w.extractLsb' 0 7)) := by
    unfold fieldsOf fieldsA; rw [hop]; rfl
  rw [key, h0, h1, h2, h3, h4, h5]

theorem qbind (st : Bool) (d : BitVec 5) (e : BitVec 2) (r : BitVec 2) : Statement (.qbind st d e r) := by
  refine ⟨fun k w hk hwf hw => decode_of_fields ?_ hw hwf, fun _ => rfl, fun _ => rfl⟩
  obtain ⟨h0, hop, h1, h2, h3⟩ := format17 (Option.some.inj hw)
  obtain rfl := own_seat rfl hk
  have key : fieldsOf .a w = some (.qbind (w.getLsbD 31) (w.extractLsb' 18 5) (w.extractLsb' 2 2) (w.extractLsb' 0 2)) := by
    unfold fieldsOf fieldsA; rw [hop]; rfl
  rw [key, h0, h1, h2, h3]

theorem qpat (st : Bool) (t : BitVec 5) (b : BitVec 5) (os : BitVec 2) (pm : BitVec 4) (c : BitVec 5) : Statement (.qpat st t b os pm c) := by
  refine ⟨fun k w hk hwf hw => decode_of_fields ?_ hw hwf, fun _ => rfl, fun _ => rfl⟩
  obtain ⟨h0, hop, h1, h2, h3, h4, h5⟩ := format18 (Option.some.inj hw)
  obtain rfl := own_seat rfl hk
  have key : fieldsOf .a w = some (.qpat (w.getLsbD 31) (w.extractLsb' 18 5) (w.extractLsb' 13 5) (w.extractLsb' 11 2) (w.extractLsb' 7 4) (w.extractLsb' 2 5)) := by
    unfold fieldsOf fieldsA; rw [hop]; rfl
  rw [key, h0, h1, h2, h3, h4, h5]

theorem qstop (st : Bool) (d : BitVec 5) : Statement (.qstop st d) := by
  refine ⟨fun k w hk hwf hw => decode_of_fields ?_ hw hwf, fun _ => rfl, fun _ => rfl⟩
  obtain ⟨h0, hop, h1⟩ := format14 (Option.some.inj hw)
  obtain rfl := own_seat rfl hk
  have key : fieldsOf .a w = some (.qstop (w.getLsbD 31) (w.extractLsb' 18 5)) := by
    unfold fieldsOf fieldsA; rw [hop]; rfl
  rw [key, h0, h1]

theorem qmc (st : Bool) (t : BitVec 5) (b : BitVec 5) (os : BitVec 2) (pm : BitVec 4) (c : BitVec 4) : Statement (.qmc st t b os pm c) := by
  refine ⟨fun k w hk hwf hw => decode_of_fields ?_ hw hwf, fun _ => rfl, fun _ => rfl⟩
  obtain ⟨h0, hop, h1, h2, h3, h4, h5⟩ := format19 (Option.some.inj hw)
  obtain rfl := own_seat rfl hk
  have key : fieldsOf .a w = some (.qmc (w.getLsbD 31) (w.extractLsb' 18 5) (w.extractLsb' 13 5) (w.extractLsb' 11 2) (w.extractLsb' 7 4) (w.extractLsb' 2 4)) := by
    unfold fieldsOf fieldsA; rw [hop]; rfl
  rw [key, h0, h1, h2, h3, h4, h5]

theorem amoadd (st : Bool) (t : BitVec 5) (b : BitVec 5) (os : BitVec 2) (pm : BitVec 4) (c : BitVec 5) (fn : BitVec 2) : Statement (.amoadd st t b os pm c fn) := by
  refine ⟨fun k w hk hwf hw => decode_of_fields ?_ hw hwf, fun _ => rfl, fun _ => rfl⟩
  obtain ⟨h0, hop, h1, h2, h3, h4, h5, h6⟩ := format20 (Option.some.inj hw)
  obtain rfl := own_seat rfl hk
  have key : fieldsOf .a w = some (.amoadd (w.getLsbD 31) (w.extractLsb' 18 5) (w.extractLsb' 13 5) (w.extractLsb' 11 2) (w.extractLsb' 7 4) (w.extractLsb' 2 5) (w.extractLsb' 0 2)) := by
    unfold fieldsOf fieldsA; rw [hop]; rfl
  rw [key, h0, h1, h2, h3, h4, h5, h6]

theorem amomin (st : Bool) (t : BitVec 5) (b : BitVec 5) (os : BitVec 2) (pm : BitVec 4) (c : BitVec 5) (fn : BitVec 2) : Statement (.amomin st t b os pm c fn) := by
  refine ⟨fun k w hk hwf hw => decode_of_fields ?_ hw hwf, fun _ => rfl, fun _ => rfl⟩
  obtain ⟨h0, hop, h1, h2, h3, h4, h5, h6⟩ := format20 (Option.some.inj hw)
  obtain rfl := own_seat rfl hk
  have key : fieldsOf .a w = some (.amomin (w.getLsbD 31) (w.extractLsb' 18 5) (w.extractLsb' 13 5) (w.extractLsb' 11 2) (w.extractLsb' 7 4) (w.extractLsb' 2 5) (w.extractLsb' 0 2)) := by
    unfold fieldsOf fieldsA; rw [hop]; rfl
  rw [key, h0, h1, h2, h3, h4, h5, h6]

theorem amomax (st : Bool) (t : BitVec 5) (b : BitVec 5) (os : BitVec 2) (pm : BitVec 4) (c : BitVec 5) (fn : BitVec 2) : Statement (.amomax st t b os pm c fn) := by
  refine ⟨fun k w hk hwf hw => decode_of_fields ?_ hw hwf, fun _ => rfl, fun _ => rfl⟩
  obtain ⟨h0, hop, h1, h2, h3, h4, h5, h6⟩ := format20 (Option.some.inj hw)
  obtain rfl := own_seat rfl hk
  have key : fieldsOf .a w = some (.amomax (w.getLsbD 31) (w.extractLsb' 18 5) (w.extractLsb' 13 5) (w.extractLsb' 11 2) (w.extractLsb' 7 4) (w.extractLsb' 2 5) (w.extractLsb' 0 2)) := by
    unfold fieldsOf fieldsA; rw [hop]; rfl
  rw [key, h0, h1, h2, h3, h4, h5, h6]

theorem amoand (st : Bool) (t : BitVec 5) (b : BitVec 5) (os : BitVec 2) (pm : BitVec 4) (c : BitVec 5) (fn : BitVec 2) : Statement (.amoand st t b os pm c fn) := by
  refine ⟨fun k w hk hwf hw => decode_of_fields ?_ hw hwf, fun _ => rfl, fun _ => rfl⟩
  obtain ⟨h0, hop, h1, h2, h3, h4, h5, h6⟩ := format20 (Option.some.inj hw)
  obtain rfl := own_seat rfl hk
  have key : fieldsOf .a w = some (.amoand (w.getLsbD 31) (w.extractLsb' 18 5) (w.extractLsb' 13 5) (w.extractLsb' 11 2) (w.extractLsb' 7 4) (w.extractLsb' 2 5) (w.extractLsb' 0 2)) := by
    unfold fieldsOf fieldsA; rw [hop]; rfl
  rw [key, h0, h1, h2, h3, h4, h5, h6]

theorem amoor (st : Bool) (t : BitVec 5) (b : BitVec 5) (os : BitVec 2) (pm : BitVec 4) (c : BitVec 5) (fn : BitVec 2) : Statement (.amoor st t b os pm c fn) := by
  refine ⟨fun k w hk hwf hw => decode_of_fields ?_ hw hwf, fun _ => rfl, fun _ => rfl⟩
  obtain ⟨h0, hop, h1, h2, h3, h4, h5, h6⟩ := format20 (Option.some.inj hw)
  obtain rfl := own_seat rfl hk
  have key : fieldsOf .a w = some (.amoor (w.getLsbD 31) (w.extractLsb' 18 5) (w.extractLsb' 13 5) (w.extractLsb' 11 2) (w.extractLsb' 7 4) (w.extractLsb' 2 5) (w.extractLsb' 0 2)) := by
    unfold fieldsOf fieldsA; rw [hop]; rfl
  rw [key, h0, h1, h2, h3, h4, h5, h6]

theorem amoxor (st : Bool) (t : BitVec 5) (b : BitVec 5) (os : BitVec 2) (pm : BitVec 4) (c : BitVec 5) (fn : BitVec 2) : Statement (.amoxor st t b os pm c fn) := by
  refine ⟨fun k w hk hwf hw => decode_of_fields ?_ hw hwf, fun _ => rfl, fun _ => rfl⟩
  obtain ⟨h0, hop, h1, h2, h3, h4, h5, h6⟩ := format20 (Option.some.inj hw)
  obtain rfl := own_seat rfl hk
  have key : fieldsOf .a w = some (.amoxor (w.getLsbD 31) (w.extractLsb' 18 5) (w.extractLsb' 13 5) (w.extractLsb' 11 2) (w.extractLsb' 7 4) (w.extractLsb' 2 5) (w.extractLsb' 0 2)) := by
    unfold fieldsOf fieldsA; rw [hop]; rfl
  rw [key, h0, h1, h2, h3, h4, h5, h6]

theorem amoswp (st : Bool) (t : BitVec 5) (b : BitVec 5) (os : BitVec 2) (pm : BitVec 4) (c : BitVec 5) (fn : BitVec 2) : Statement (.amoswp st t b os pm c fn) := by
  refine ⟨fun k w hk hwf hw => decode_of_fields ?_ hw hwf, fun _ => rfl, fun _ => rfl⟩
  obtain ⟨h0, hop, h1, h2, h3, h4, h5, h6⟩ := format20 (Option.some.inj hw)
  obtain rfl := own_seat rfl hk
  have key : fieldsOf .a w = some (.amoswp (w.getLsbD 31) (w.extractLsb' 18 5) (w.extractLsb' 13 5) (w.extractLsb' 11 2) (w.extractLsb' 7 4) (w.extractLsb' 2 5) (w.extractLsb' 0 2)) := by
    unfold fieldsOf fieldsA; rw [hop]; rfl
  rw [key, h0, h1, h2, h3, h4, h5, h6]

theorem amocas (st : Bool) (t : BitVec 5) (b : BitVec 5) (os : BitVec 2) (pm : BitVec 4) (c : BitVec 5) (fn : BitVec 2) : Statement (.amocas st t b os pm c fn) := by
  refine ⟨fun k w hk hwf hw => decode_of_fields ?_ hw hwf, fun _ => rfl, fun _ => rfl⟩
  obtain ⟨h0, hop, h1, h2, h3, h4, h5, h6⟩ := format20 (Option.some.inj hw)
  obtain rfl := own_seat rfl hk
  have key : fieldsOf .a w = some (.amocas (w.getLsbD 31) (w.extractLsb' 18 5) (w.extractLsb' 13 5) (w.extractLsb' 11 2) (w.extractLsb' 7 4) (w.extractLsb' 2 5) (w.extractLsb' 0 2)) := by
    unfold fieldsOf fieldsA; rw [hop]; rfl
  rw [key, h0, h1, h2, h3, h4, h5, h6]

theorem aset (st : Bool) (t : BitVec 5) (b : BitVec 5) (os : BitVec 2) (pm : BitVec 4) : Statement (.aset st t b os pm) := by
  refine ⟨fun k w hk hwf hw => decode_of_fields ?_ hw hwf, fun _ => rfl, fun _ => rfl⟩
  obtain ⟨h0, hop, h1, h2, h3, h4⟩ := format21 (Option.some.inj hw)
  obtain rfl := own_seat rfl hk
  have key : fieldsOf .a w = some (.aset (w.getLsbD 31) (w.extractLsb' 18 5) (w.extractLsb' 13 5) (w.extractLsb' 11 2) (w.extractLsb' 7 4)) := by
    unfold fieldsOf fieldsA; rw [hop]; rfl
  rw [key, h0, h1, h2, h3, h4]

theorem afree (st : Bool) (b : BitVec 5) (os : BitVec 2) (pm : BitVec 4) (off : BitVec 7) : Statement (.afree st b os pm off) := by
  refine ⟨fun k w hk hwf hw => decode_of_fields ?_ hw hwf, fun _ => rfl, fun _ => rfl⟩
  obtain ⟨h0, hop, h1, h2, h3, h4⟩ := format22 (Option.some.inj hw)
  obtain rfl := own_seat rfl hk
  have key : fieldsOf .a w = some (.afree (w.getLsbD 31) (w.extractLsb' 13 5) (w.extractLsb' 11 2) (w.extractLsb' 7 4) (w.extractLsb' 0 7)) := by
    unfold fieldsOf fieldsA; rw [hop]; rfl
  rw [key, h0, h1, h2, h3, h4]

theorem await (st : Bool) (t : BitVec 5) (b : BitVec 5) (os : BitVec 2) (pm : BitVec 4) (off : BitVec 7) : Statement (.await st t b os pm off) := by
  refine ⟨fun k w hk hwf hw => decode_of_fields ?_ hw hwf, fun _ => rfl, fun _ => rfl⟩
  obtain ⟨h0, hop, h1, h2, h3, h4, h5⟩ := format16 (Option.some.inj hw)
  obtain rfl := own_seat rfl hk
  have key : fieldsOf .a w = some (.await (w.getLsbD 31) (w.extractLsb' 18 5) (w.extractLsb' 13 5) (w.extractLsb' 11 2) (w.extractLsb' 7 4) (w.extractLsb' 0 7)) := by
    unfold fieldsOf fieldsA; rw [hop]; rfl
  rw [key, h0, h1, h2, h3, h4, h5]

theorem aread (st : Bool) (t : BitVec 5) (b : BitVec 5) (os : BitVec 2) (pm : BitVec 4) (off : BitVec 7) : Statement (.aread st t b os pm off) := by
  refine ⟨fun k w hk hwf hw => decode_of_fields ?_ hw hwf, fun _ => rfl, fun _ => rfl⟩
  obtain ⟨h0, hop, h1, h2, h3, h4, h5⟩ := format16 (Option.some.inj hw)
  obtain rfl := own_seat rfl hk
  have key : fieldsOf .a w = some (.aread (w.getLsbD 31) (w.extractLsb' 18 5) (w.extractLsb' 13 5) (w.extractLsb' 11 2) (w.extractLsb' 7 4) (w.extractLsb' 0 7)) := by
    unfold fieldsOf fieldsA; rw [hop]; rfl
  rw [key, h0, h1, h2, h3, h4, h5]

theorem acred (st : Bool) (b : BitVec 5) (os : BitVec 2) (pm : BitVec 4) (c : BitVec 5) : Statement (.acred st b os pm c) := by
  refine ⟨fun k w hk hwf hw => decode_of_fields ?_ hw hwf, fun _ => rfl, fun _ => rfl⟩
  obtain ⟨h0, hop, h1, h2, h3, h4⟩ := format23 (Option.some.inj hw)
  obtain rfl := own_seat rfl hk
  have key : fieldsOf .a w = some (.acred (w.getLsbD 31) (w.extractLsb' 13 5) (w.extractLsb' 11 2) (w.extractLsb' 7 4) (w.extractLsb' 2 5)) := by
    unfold fieldsOf fieldsA; rw [hop]; rfl
  rw [key, h0, h1, h2, h3, h4]

theorem cpy (st : Bool) (b : BitVec 5) (os : BitVec 2) (pm : BitVec 4) (off : BitVec 7) : Statement (.cpy st b os pm off) := by
  refine ⟨fun k w hk hwf hw => decode_of_fields ?_ hw hwf, fun _ => rfl, fun _ => rfl⟩
  obtain ⟨h0, hop, h1, h2, h3, h4⟩ := format22 (Option.some.inj hw)
  obtain rfl := own_seat rfl hk
  have key : fieldsOf .a w = some (.cpy (w.getLsbD 31) (w.extractLsb' 13 5) (w.extractLsb' 11 2) (w.extractLsb' 7 4) (w.extractLsb' 0 7)) := by
    unfold fieldsOf fieldsA; rw [hop]; rfl
  rw [key, h0, h1, h2, h3, h4]

theorem gath (st : Bool) (b : BitVec 5) (os : BitVec 2) (pm : BitVec 4) (off : BitVec 7) : Statement (.gath st b os pm off) := by
  refine ⟨fun k w hk hwf hw => decode_of_fields ?_ hw hwf, fun _ => rfl, fun _ => rfl⟩
  obtain ⟨h0, hop, h1, h2, h3, h4⟩ := format22 (Option.some.inj hw)
  obtain rfl := own_seat rfl hk
  have key : fieldsOf .a w = some (.gath (w.getLsbD 31) (w.extractLsb' 13 5) (w.extractLsb' 11 2) (w.extractLsb' 7 4) (w.extractLsb' 0 7)) := by
    unfold fieldsOf fieldsA; rw [hop]; rfl
  rw [key, h0, h1, h2, h3, h4]

theorem scat (st : Bool) (b : BitVec 5) (os : BitVec 2) (pm : BitVec 4) (off : BitVec 7) : Statement (.scat st b os pm off) := by
  refine ⟨fun k w hk hwf hw => decode_of_fields ?_ hw hwf, fun _ => rfl, fun _ => rfl⟩
  obtain ⟨h0, hop, h1, h2, h3, h4⟩ := format22 (Option.some.inj hw)
  obtain rfl := own_seat rfl hk
  have key : fieldsOf .a w = some (.scat (w.getLsbD 31) (w.extractLsb' 13 5) (w.extractLsb' 11 2) (w.extractLsb' 7 4) (w.extractLsb' 0 7)) := by
    unfold fieldsOf fieldsA; rw [hop]; rfl
  rw [key, h0, h1, h2, h3, h4]

theorem cpyr (st : Bool) (b : BitVec 5) (os : BitVec 2) (pm : BitVec 4) (off : BitVec 7) : Statement (.cpyr st b os pm off) := by
  refine ⟨fun k w hk hwf hw => decode_of_fields ?_ hw hwf, fun _ => rfl, fun _ => rfl⟩
  obtain ⟨h0, hop, h1, h2, h3, h4⟩ := format22 (Option.some.inj hw)
  obtain rfl := own_seat rfl hk
  have key : fieldsOf .a w = some (.cpyr (w.getLsbD 31) (w.extractLsb' 13 5) (w.extractLsb' 11 2) (w.extractLsb' 7 4) (w.extractLsb' 0 7)) := by
    unfold fieldsOf fieldsA; rw [hop]; rfl
  rw [key, h0, h1, h2, h3, h4]

theorem chlnk (st : Bool) (t : BitVec 5) (b : BitVec 5) (os : BitVec 2) (pm : BitVec 4) (off : BitVec 7) : Statement (.chlnk st t b os pm off) := by
  refine ⟨fun k w hk hwf hw => decode_of_fields ?_ hw hwf, fun _ => rfl, fun _ => rfl⟩
  obtain ⟨h0, hop, h1, h2, h3, h4, h5⟩ := format16 (Option.some.inj hw)
  obtain rfl := own_seat rfl hk
  have key : fieldsOf .a w = some (.chlnk (w.getLsbD 31) (w.extractLsb' 18 5) (w.extractLsb' 13 5) (w.extractLsb' 11 2) (w.extractLsb' 7 4) (w.extractLsb' 0 7)) := by
    unfold fieldsOf fieldsA; rw [hop]; rfl
  rw [key, h0, h1, h2, h3, h4, h5]

theorem chkck (st : Bool) (b : BitVec 5) (os : BitVec 2) (pm : BitVec 4) (off : BitVec 7) : Statement (.chkck st b os pm off) := by
  refine ⟨fun k w hk hwf hw => decode_of_fields ?_ hw hwf, fun _ => rfl, fun _ => rfl⟩
  obtain ⟨h0, hop, h1, h2, h3, h4⟩ := format22 (Option.some.inj hw)
  obtain rfl := own_seat rfl hk
  have key : fieldsOf .a w = some (.chkck (w.getLsbD 31) (w.extractLsb' 13 5) (w.extractLsb' 11 2) (w.extractLsb' 7 4) (w.extractLsb' 0 7)) := by
    unfold fieldsOf fieldsA; rw [hop]; rfl
  rw [key, h0, h1, h2, h3, h4]

theorem rgres (st : Bool) (t : BitVec 5) (b : BitVec 5) (os : BitVec 2) (pm : BitVec 4) : Statement (.rgres st t b os pm) := by
  refine ⟨fun k w hk hwf hw => decode_of_fields ?_ hw hwf, fun _ => rfl, fun _ => rfl⟩
  obtain ⟨h0, hop, h1, h2, h3, h4⟩ := format21 (Option.some.inj hw)
  obtain rfl := own_seat rfl hk
  have key : fieldsOf .a w = some (.rgres (w.getLsbD 31) (w.extractLsb' 18 5) (w.extractLsb' 13 5) (w.extractLsb' 11 2) (w.extractLsb' 7 4)) := by
    unfold fieldsOf fieldsA; rw [hop]; rfl
  rw [key, h0, h1, h2, h3, h4]

theorem rgpub (st : Bool) (t : BitVec 5) (b : BitVec 5) (os : BitVec 2) (pm : BitVec 4) : Statement (.rgpub st t b os pm) := by
  refine ⟨fun k w hk hwf hw => decode_of_fields ?_ hw hwf, fun _ => rfl, fun _ => rfl⟩
  obtain ⟨h0, hop, h1, h2, h3, h4⟩ := format21 (Option.some.inj hw)
  obtain rfl := own_seat rfl hk
  have key : fieldsOf .a w = some (.rgpub (w.getLsbD 31) (w.extractLsb' 18 5) (w.extractLsb' 13 5) (w.extractLsb' 11 2) (w.extractLsb' 7 4)) := by
    unfold fieldsOf fieldsA; rw [hop]; rfl
  rw [key, h0, h1, h2, h3, h4]

theorem rgpop (st : Bool) (t : BitVec 5) (b : BitVec 5) (os : BitVec 2) (pm : BitVec 4) (c : BitVec 5) : Statement (.rgpop st t b os pm c) := by
  refine ⟨fun k w hk hwf hw => decode_of_fields ?_ hw hwf, fun _ => rfl, fun _ => rfl⟩
  obtain ⟨h0, hop, h1, h2, h3, h4, h5⟩ := format18 (Option.some.inj hw)
  obtain rfl := own_seat rfl hk
  have key : fieldsOf .a w = some (.rgpop (w.getLsbD 31) (w.extractLsb' 18 5) (w.extractLsb' 13 5) (w.extractLsb' 11 2) (w.extractLsb' 7 4) (w.extractLsb' 2 5)) := by
    unfold fieldsOf fieldsA; rw [hop]; rfl
  rw [key, h0, h1, h2, h3, h4, h5]

theorem rgcur (st : Bool) (t : BitVec 5) (b : BitVec 5) (os : BitVec 2) (pm : BitVec 4) (c : BitVec 5) : Statement (.rgcur st t b os pm c) := by
  refine ⟨fun k w hk hwf hw => decode_of_fields ?_ hw hwf, fun _ => rfl, fun _ => rfl⟩
  obtain ⟨h0, hop, h1, h2, h3, h4, h5⟩ := format18 (Option.some.inj hw)
  obtain rfl := own_seat rfl hk
  have key : fieldsOf .a w = some (.rgcur (w.getLsbD 31) (w.extractLsb' 18 5) (w.extractLsb' 13 5) (w.extractLsb' 11 2) (w.extractLsb' 7 4) (w.extractLsb' 2 5)) := by
    unfold fieldsOf fieldsA; rw [hop]; rfl
  rw [key, h0, h1, h2, h3, h4, h5]

theorem waita (st : Bool) (b : BitVec 5) (os : BitVec 2) (pm : BitVec 4) (off : BitVec 7) : Statement (.waita st b os pm off) := by
  refine ⟨fun k w hk hwf hw => decode_of_fields ?_ hw hwf, fun _ => rfl, fun _ => rfl⟩
  obtain ⟨h0, hop, h1, h2, h3, h4⟩ := format22 (Option.some.inj hw)
  obtain rfl := own_seat rfl hk
  have key : fieldsOf .a w = some (.waita (w.getLsbD 31) (w.extractLsb' 13 5) (w.extractLsb' 11 2) (w.extractLsb' 7 4) (w.extractLsb' 0 7)) := by
    unfold fieldsOf fieldsA; rw [hop]; rfl
  rw [key, h0, h1, h2, h3, h4]

theorem vadd (st : Bool) (d : BitVec 6) (a : BitVec 6) (b : BitVec 6) (p : BitVec 3) (ty : BitVec 2) : Statement (.vadd st d a b p ty) := by
  refine ⟨fun k w hk hwf hw => decode_of_fields ?_ hw hwf, fun _ => rfl, fun _ => rfl⟩
  obtain ⟨h0, hop, h1, h2, h3, h4, h5⟩ := format24 (Option.some.inj hw)
  obtain rfl := own_seat rfl hk
  have key : fieldsOf .v w = some (.vadd (w.getLsbD 31) (w.extractLsb' 17 6) (w.extractLsb' 11 6) (w.extractLsb' 5 6) (w.extractLsb' 2 3) (w.extractLsb' 0 2)) := by
    unfold fieldsOf fieldsV; rw [hop]; rfl
  rw [key, h0, h1, h2, h3, h4, h5]

theorem vsub (st : Bool) (d : BitVec 6) (a : BitVec 6) (b : BitVec 6) (p : BitVec 3) (ty : BitVec 2) : Statement (.vsub st d a b p ty) := by
  refine ⟨fun k w hk hwf hw => decode_of_fields ?_ hw hwf, fun _ => rfl, fun _ => rfl⟩
  obtain ⟨h0, hop, h1, h2, h3, h4, h5⟩ := format24 (Option.some.inj hw)
  obtain rfl := own_seat rfl hk
  have key : fieldsOf .v w = some (.vsub (w.getLsbD 31) (w.extractLsb' 17 6) (w.extractLsb' 11 6) (w.extractLsb' 5 6) (w.extractLsb' 2 3) (w.extractLsb' 0 2)) := by
    unfold fieldsOf fieldsV; rw [hop]; rfl
  rw [key, h0, h1, h2, h3, h4, h5]

theorem vmul (st : Bool) (d : BitVec 6) (a : BitVec 6) (b : BitVec 6) (p : BitVec 3) (ty : BitVec 2) : Statement (.vmul st d a b p ty) := by
  refine ⟨fun k w hk hwf hw => decode_of_fields ?_ hw hwf, fun _ => rfl, fun _ => rfl⟩
  obtain ⟨h0, hop, h1, h2, h3, h4, h5⟩ := format24 (Option.some.inj hw)
  obtain rfl := own_seat rfl hk
  have key : fieldsOf .v w = some (.vmul (w.getLsbD 31) (w.extractLsb' 17 6) (w.extractLsb' 11 6) (w.extractLsb' 5 6) (w.extractLsb' 2 3) (w.extractLsb' 0 2)) := by
    unfold fieldsOf fieldsV; rw [hop]; rfl
  rw [key, h0, h1, h2, h3, h4, h5]

theorem vfma (st : Bool) (d : BitVec 6) (a : BitVec 6) (b : BitVec 6) (p : BitVec 3) (ty : BitVec 2) : Statement (.vfma st d a b p ty) := by
  refine ⟨fun k w hk hwf hw => decode_of_fields ?_ hw hwf, fun _ => rfl, fun _ => rfl⟩
  obtain ⟨h0, hop, h1, h2, h3, h4, h5⟩ := format24 (Option.some.inj hw)
  obtain rfl := own_seat rfl hk
  have key : fieldsOf .v w = some (.vfma (w.getLsbD 31) (w.extractLsb' 17 6) (w.extractLsb' 11 6) (w.extractLsb' 5 6) (w.extractLsb' 2 3) (w.extractLsb' 0 2)) := by
    unfold fieldsOf fieldsV; rw [hop]; rfl
  rw [key, h0, h1, h2, h3, h4, h5]

theorem vfms (st : Bool) (d : BitVec 6) (a : BitVec 6) (b : BitVec 6) (p : BitVec 3) (ty : BitVec 2) : Statement (.vfms st d a b p ty) := by
  refine ⟨fun k w hk hwf hw => decode_of_fields ?_ hw hwf, fun _ => rfl, fun _ => rfl⟩
  obtain ⟨h0, hop, h1, h2, h3, h4, h5⟩ := format24 (Option.some.inj hw)
  obtain rfl := own_seat rfl hk
  have key : fieldsOf .v w = some (.vfms (w.getLsbD 31) (w.extractLsb' 17 6) (w.extractLsb' 11 6) (w.extractLsb' 5 6) (w.extractLsb' 2 3) (w.extractLsb' 0 2)) := by
    unfold fieldsOf fieldsV; rw [hop]; rfl
  rw [key, h0, h1, h2, h3, h4, h5]

theorem vscac (st : Bool) (d : BitVec 6) (a : BitVec 6) (b : BitVec 6) (p : BitVec 3) (ty : BitVec 2) : Statement (.vscac st d a b p ty) := by
  refine ⟨fun k w hk hwf hw => decode_of_fields ?_ hw hwf, fun _ => rfl, fun _ => rfl⟩
  obtain ⟨h0, hop, h1, h2, h3, h4, h5⟩ := format24 (Option.some.inj hw)
  obtain rfl := own_seat rfl hk
  have key : fieldsOf .v w = some (.vscac (w.getLsbD 31) (w.extractLsb' 17 6) (w.extractLsb' 11 6) (w.extractLsb' 5 6) (w.extractLsb' 2 3) (w.extractLsb' 0 2)) := by
    unfold fieldsOf fieldsV; rw [hop]; rfl
  rw [key, h0, h1, h2, h3, h4, h5]

theorem vmax (st : Bool) (d : BitVec 6) (a : BitVec 6) (b : BitVec 6) (p : BitVec 3) (ty : BitVec 2) : Statement (.vmax st d a b p ty) := by
  refine ⟨fun k w hk hwf hw => decode_of_fields ?_ hw hwf, fun _ => rfl, fun _ => rfl⟩
  obtain ⟨h0, hop, h1, h2, h3, h4, h5⟩ := format24 (Option.some.inj hw)
  obtain rfl := own_seat rfl hk
  have key : fieldsOf .v w = some (.vmax (w.getLsbD 31) (w.extractLsb' 17 6) (w.extractLsb' 11 6) (w.extractLsb' 5 6) (w.extractLsb' 2 3) (w.extractLsb' 0 2)) := by
    unfold fieldsOf fieldsV; rw [hop]; rfl
  rw [key, h0, h1, h2, h3, h4, h5]

theorem vmin (st : Bool) (d : BitVec 6) (a : BitVec 6) (b : BitVec 6) (p : BitVec 3) (ty : BitVec 2) : Statement (.vmin st d a b p ty) := by
  refine ⟨fun k w hk hwf hw => decode_of_fields ?_ hw hwf, fun _ => rfl, fun _ => rfl⟩
  obtain ⟨h0, hop, h1, h2, h3, h4, h5⟩ := format24 (Option.some.inj hw)
  obtain rfl := own_seat rfl hk
  have key : fieldsOf .v w = some (.vmin (w.getLsbD 31) (w.extractLsb' 17 6) (w.extractLsb' 11 6) (w.extractLsb' 5 6) (w.extractLsb' 2 3) (w.extractLsb' 0 2)) := by
    unfold fieldsOf fieldsV; rw [hop]; rfl
  rw [key, h0, h1, h2, h3, h4, h5]

theorem vabs (st : Bool) (d : BitVec 6) (a : BitVec 6) (p : BitVec 3) (ty : BitVec 2) : Statement (.vabs st d a p ty) := by
  refine ⟨fun k w hk hwf hw => decode_of_fields ?_ hw hwf, fun _ => rfl, fun _ => rfl⟩
  obtain ⟨h0, hop, h1, h2, h3, h4⟩ := format25 (Option.some.inj hw)
  obtain rfl := own_seat rfl hk
  have key : fieldsOf .v w = some (.vabs (w.getLsbD 31) (w.extractLsb' 17 6) (w.extractLsb' 11 6) (w.extractLsb' 2 3) (w.extractLsb' 0 2)) := by
    unfold fieldsOf fieldsV; rw [hop]; rfl
  rw [key, h0, h1, h2, h3, h4]

theorem vneg (st : Bool) (d : BitVec 6) (a : BitVec 6) (p : BitVec 3) (ty : BitVec 2) : Statement (.vneg st d a p ty) := by
  refine ⟨fun k w hk hwf hw => decode_of_fields ?_ hw hwf, fun _ => rfl, fun _ => rfl⟩
  obtain ⟨h0, hop, h1, h2, h3, h4⟩ := format25 (Option.some.inj hw)
  obtain rfl := own_seat rfl hk
  have key : fieldsOf .v w = some (.vneg (w.getLsbD 31) (w.extractLsb' 17 6) (w.extractLsb' 11 6) (w.extractLsb' 2 3) (w.extractLsb' 0 2)) := by
    unfold fieldsOf fieldsV; rw [hop]; rfl
  rw [key, h0, h1, h2, h3, h4]

theorem vrcp (st : Bool) (d : BitVec 6) (a : BitVec 6) (p : BitVec 3) (ty : BitVec 2) : Statement (.vrcp st d a p ty) := by
  refine ⟨fun k w hk hwf hw => decode_of_fields ?_ hw hwf, fun _ => rfl, fun _ => rfl⟩
  obtain ⟨h0, hop, h1, h2, h3, h4⟩ := format25 (Option.some.inj hw)
  obtain rfl := own_seat rfl hk
  have key : fieldsOf .v w = some (.vrcp (w.getLsbD 31) (w.extractLsb' 17 6) (w.extractLsb' 11 6) (w.extractLsb' 2 3) (w.extractLsb' 0 2)) := by
    unfold fieldsOf fieldsV; rw [hop]; rfl
  rw [key, h0, h1, h2, h3, h4]

theorem vrsq (st : Bool) (d : BitVec 6) (a : BitVec 6) (p : BitVec 3) (ty : BitVec 2) : Statement (.vrsq st d a p ty) := by
  refine ⟨fun k w hk hwf hw => decode_of_fields ?_ hw hwf, fun _ => rfl, fun _ => rfl⟩
  obtain ⟨h0, hop, h1, h2, h3, h4⟩ := format25 (Option.some.inj hw)
  obtain rfl := own_seat rfl hk
  have key : fieldsOf .v w = some (.vrsq (w.getLsbD 31) (w.extractLsb' 17 6) (w.extractLsb' 11 6) (w.extractLsb' 2 3) (w.extractLsb' 0 2)) := by
    unfold fieldsOf fieldsV; rw [hop]; rfl
  rw [key, h0, h1, h2, h3, h4]

theorem vexp2 (st : Bool) (d : BitVec 6) (a : BitVec 6) (p : BitVec 3) (ty : BitVec 2) : Statement (.vexp2 st d a p ty) := by
  refine ⟨fun k w hk hwf hw => decode_of_fields ?_ hw hwf, fun _ => rfl, fun _ => rfl⟩
  obtain ⟨h0, hop, h1, h2, h3, h4⟩ := format25 (Option.some.inj hw)
  obtain rfl := own_seat rfl hk
  have key : fieldsOf .v w = some (.vexp2 (w.getLsbD 31) (w.extractLsb' 17 6) (w.extractLsb' 11 6) (w.extractLsb' 2 3) (w.extractLsb' 0 2)) := by
    unfold fieldsOf fieldsV; rw [hop]; rfl
  rw [key, h0, h1, h2, h3, h4]

theorem vlog2 (st : Bool) (d : BitVec 6) (a : BitVec 6) (p : BitVec 3) (ty : BitVec 2) : Statement (.vlog2 st d a p ty) := by
  refine ⟨fun k w hk hwf hw => decode_of_fields ?_ hw hwf, fun _ => rfl, fun _ => rfl⟩
  obtain ⟨h0, hop, h1, h2, h3, h4⟩ := format25 (Option.some.inj hw)
  obtain rfl := own_seat rfl hk
  have key : fieldsOf .v w = some (.vlog2 (w.getLsbD 31) (w.extractLsb' 17 6) (w.extractLsb' 11 6) (w.extractLsb' 2 3) (w.extractLsb' 0 2)) := by
    unfold fieldsOf fieldsV; rw [hop]; rfl
  rw [key, h0, h1, h2, h3, h4]

theorem vcmpeq (st : Bool) (d : BitVec 6) (a : BitVec 6) (b : BitVec 6) (p : BitVec 3) (ty : BitVec 2) : Statement (.vcmpeq st d a b p ty) := by
  refine ⟨fun k w hk hwf hw => decode_of_fields ?_ hw hwf, fun _ => rfl, fun _ => rfl⟩
  obtain ⟨h0, hop, h1, h2, h3, h4, h5⟩ := format24 (Option.some.inj hw)
  obtain rfl := own_seat rfl hk
  have key : fieldsOf .v w = some (.vcmpeq (w.getLsbD 31) (w.extractLsb' 17 6) (w.extractLsb' 11 6) (w.extractLsb' 5 6) (w.extractLsb' 2 3) (w.extractLsb' 0 2)) := by
    unfold fieldsOf fieldsV; rw [hop]; rfl
  rw [key, h0, h1, h2, h3, h4, h5]

theorem vcmpne (st : Bool) (d : BitVec 6) (a : BitVec 6) (b : BitVec 6) (p : BitVec 3) (ty : BitVec 2) : Statement (.vcmpne st d a b p ty) := by
  refine ⟨fun k w hk hwf hw => decode_of_fields ?_ hw hwf, fun _ => rfl, fun _ => rfl⟩
  obtain ⟨h0, hop, h1, h2, h3, h4, h5⟩ := format24 (Option.some.inj hw)
  obtain rfl := own_seat rfl hk
  have key : fieldsOf .v w = some (.vcmpne (w.getLsbD 31) (w.extractLsb' 17 6) (w.extractLsb' 11 6) (w.extractLsb' 5 6) (w.extractLsb' 2 3) (w.extractLsb' 0 2)) := by
    unfold fieldsOf fieldsV; rw [hop]; rfl
  rw [key, h0, h1, h2, h3, h4, h5]

theorem vcmplt (st : Bool) (d : BitVec 6) (a : BitVec 6) (b : BitVec 6) (p : BitVec 3) (ty : BitVec 2) : Statement (.vcmplt st d a b p ty) := by
  refine ⟨fun k w hk hwf hw => decode_of_fields ?_ hw hwf, fun _ => rfl, fun _ => rfl⟩
  obtain ⟨h0, hop, h1, h2, h3, h4, h5⟩ := format24 (Option.some.inj hw)
  obtain rfl := own_seat rfl hk
  have key : fieldsOf .v w = some (.vcmplt (w.getLsbD 31) (w.extractLsb' 17 6) (w.extractLsb' 11 6) (w.extractLsb' 5 6) (w.extractLsb' 2 3) (w.extractLsb' 0 2)) := by
    unfold fieldsOf fieldsV; rw [hop]; rfl
  rw [key, h0, h1, h2, h3, h4, h5]

theorem vcmple (st : Bool) (d : BitVec 6) (a : BitVec 6) (b : BitVec 6) (p : BitVec 3) (ty : BitVec 2) : Statement (.vcmple st d a b p ty) := by
  refine ⟨fun k w hk hwf hw => decode_of_fields ?_ hw hwf, fun _ => rfl, fun _ => rfl⟩
  obtain ⟨h0, hop, h1, h2, h3, h4, h5⟩ := format24 (Option.some.inj hw)
  obtain rfl := own_seat rfl hk
  have key : fieldsOf .v w = some (.vcmple (w.getLsbD 31) (w.extractLsb' 17 6) (w.extractLsb' 11 6) (w.extractLsb' 5 6) (w.extractLsb' 2 3) (w.extractLsb' 0 2)) := by
    unfold fieldsOf fieldsV; rw [hop]; rfl
  rw [key, h0, h1, h2, h3, h4, h5]

theorem vsel (st : Bool) (d : BitVec 6) (a : BitVec 6) (b : BitVec 6) (p : BitVec 3) (ty : BitVec 2) : Statement (.vsel st d a b p ty) := by
  refine ⟨fun k w hk hwf hw => decode_of_fields ?_ hw hwf, fun _ => rfl, fun _ => rfl⟩
  obtain ⟨h0, hop, h1, h2, h3, h4, h5⟩ := format24 (Option.some.inj hw)
  obtain rfl := own_seat rfl hk
  have key : fieldsOf .v w = some (.vsel (w.getLsbD 31) (w.extractLsb' 17 6) (w.extractLsb' 11 6) (w.extractLsb' 5 6) (w.extractLsb' 2 3) (w.extractLsb' 0 2)) := by
    unfold fieldsOf fieldsV; rw [hop]; rfl
  rw [key, h0, h1, h2, h3, h4, h5]

theorem vand (st : Bool) (d : BitVec 6) (a : BitVec 6) (b : BitVec 6) (p : BitVec 3) (ty : BitVec 2) : Statement (.vand st d a b p ty) := by
  refine ⟨fun k w hk hwf hw => decode_of_fields ?_ hw hwf, fun _ => rfl, fun _ => rfl⟩
  obtain ⟨h0, hop, h1, h2, h3, h4, h5⟩ := format24 (Option.some.inj hw)
  obtain rfl := own_seat rfl hk
  have key : fieldsOf .v w = some (.vand (w.getLsbD 31) (w.extractLsb' 17 6) (w.extractLsb' 11 6) (w.extractLsb' 5 6) (w.extractLsb' 2 3) (w.extractLsb' 0 2)) := by
    unfold fieldsOf fieldsV; rw [hop]; rfl
  rw [key, h0, h1, h2, h3, h4, h5]

theorem vor (st : Bool) (d : BitVec 6) (a : BitVec 6) (b : BitVec 6) (p : BitVec 3) (ty : BitVec 2) : Statement (.vor st d a b p ty) := by
  refine ⟨fun k w hk hwf hw => decode_of_fields ?_ hw hwf, fun _ => rfl, fun _ => rfl⟩
  obtain ⟨h0, hop, h1, h2, h3, h4, h5⟩ := format24 (Option.some.inj hw)
  obtain rfl := own_seat rfl hk
  have key : fieldsOf .v w = some (.vor (w.getLsbD 31) (w.extractLsb' 17 6) (w.extractLsb' 11 6) (w.extractLsb' 5 6) (w.extractLsb' 2 3) (w.extractLsb' 0 2)) := by
    unfold fieldsOf fieldsV; rw [hop]; rfl
  rw [key, h0, h1, h2, h3, h4, h5]

theorem vxor (st : Bool) (d : BitVec 6) (a : BitVec 6) (b : BitVec 6) (p : BitVec 3) (ty : BitVec 2) : Statement (.vxor st d a b p ty) := by
  refine ⟨fun k w hk hwf hw => decode_of_fields ?_ hw hwf, fun _ => rfl, fun _ => rfl⟩
  obtain ⟨h0, hop, h1, h2, h3, h4, h5⟩ := format24 (Option.some.inj hw)
  obtain rfl := own_seat rfl hk
  have key : fieldsOf .v w = some (.vxor (w.getLsbD 31) (w.extractLsb' 17 6) (w.extractLsb' 11 6) (w.extractLsb' 5 6) (w.extractLsb' 2 3) (w.extractLsb' 0 2)) := by
    unfold fieldsOf fieldsV; rw [hop]; rfl
  rw [key, h0, h1, h2, h3, h4, h5]

theorem vshl (st : Bool) (d : BitVec 6) (a : BitVec 6) (b : BitVec 6) (p : BitVec 3) (ty : BitVec 2) : Statement (.vshl st d a b p ty) := by
  refine ⟨fun k w hk hwf hw => decode_of_fields ?_ hw hwf, fun _ => rfl, fun _ => rfl⟩
  obtain ⟨h0, hop, h1, h2, h3, h4, h5⟩ := format24 (Option.some.inj hw)
  obtain rfl := own_seat rfl hk
  have key : fieldsOf .v w = some (.vshl (w.getLsbD 31) (w.extractLsb' 17 6) (w.extractLsb' 11 6) (w.extractLsb' 5 6) (w.extractLsb' 2 3) (w.extractLsb' 0 2)) := by
    unfold fieldsOf fieldsV; rw [hop]; rfl
  rw [key, h0, h1, h2, h3, h4, h5]

theorem vshr (st : Bool) (d : BitVec 6) (a : BitVec 6) (b : BitVec 6) (p : BitVec 3) (ty : BitVec 2) : Statement (.vshr st d a b p ty) := by
  refine ⟨fun k w hk hwf hw => decode_of_fields ?_ hw hwf, fun _ => rfl, fun _ => rfl⟩
  obtain ⟨h0, hop, h1, h2, h3, h4, h5⟩ := format24 (Option.some.inj hw)
  obtain rfl := own_seat rfl hk
  have key : fieldsOf .v w = some (.vshr (w.getLsbD 31) (w.extractLsb' 17 6) (w.extractLsb' 11 6) (w.extractLsb' 5 6) (w.extractLsb' 2 3) (w.extractLsb' 0 2)) := by
    unfold fieldsOf fieldsV; rw [hop]; rfl
  rw [key, h0, h1, h2, h3, h4, h5]

theorem vsar (st : Bool) (d : BitVec 6) (a : BitVec 6) (b : BitVec 6) (p : BitVec 3) (ty : BitVec 2) : Statement (.vsar st d a b p ty) := by
  refine ⟨fun k w hk hwf hw => decode_of_fields ?_ hw hwf, fun _ => rfl, fun _ => rfl⟩
  obtain ⟨h0, hop, h1, h2, h3, h4, h5⟩ := format24 (Option.some.inj hw)
  obtain rfl := own_seat rfl hk
  have key : fieldsOf .v w = some (.vsar (w.getLsbD 31) (w.extractLsb' 17 6) (w.extractLsb' 11 6) (w.extractLsb' 5 6) (w.extractLsb' 2 3) (w.extractLsb' 0 2)) := by
    unfold fieldsOf fieldsV; rw [hop]; rfl
  rw [key, h0, h1, h2, h3, h4, h5]

theorem pand (st : Bool) (d : BitVec 6) (a : BitVec 6) (b : BitVec 6) : Statement (.pand st d a b) := by
  refine ⟨fun k w hk hwf hw => decode_of_fields ?_ hw hwf, fun _ => rfl, fun _ => rfl⟩
  obtain ⟨h0, hop, h1, h2, h3⟩ := format26 (Option.some.inj hw)
  obtain rfl := own_seat rfl hk
  have key : fieldsOf .v w = some (.pand (w.getLsbD 31) (w.extractLsb' 17 6) (w.extractLsb' 11 6) (w.extractLsb' 5 6)) := by
    unfold fieldsOf fieldsV; rw [hop]; rfl
  rw [key, h0, h1, h2, h3]

theorem por (st : Bool) (d : BitVec 6) (a : BitVec 6) (b : BitVec 6) : Statement (.por st d a b) := by
  refine ⟨fun k w hk hwf hw => decode_of_fields ?_ hw hwf, fun _ => rfl, fun _ => rfl⟩
  obtain ⟨h0, hop, h1, h2, h3⟩ := format26 (Option.some.inj hw)
  obtain rfl := own_seat rfl hk
  have key : fieldsOf .v w = some (.por (w.getLsbD 31) (w.extractLsb' 17 6) (w.extractLsb' 11 6) (w.extractLsb' 5 6)) := by
    unfold fieldsOf fieldsV; rw [hop]; rfl
  rw [key, h0, h1, h2, h3]

theorem pnot (st : Bool) (d : BitVec 6) (a : BitVec 6) : Statement (.pnot st d a) := by
  refine ⟨fun k w hk hwf hw => decode_of_fields ?_ hw hwf, fun _ => rfl, fun _ => rfl⟩
  obtain ⟨h0, hop, h1, h2⟩ := format27 (Option.some.inj hw)
  obtain rfl := own_seat rfl hk
  have key : fieldsOf .v w = some (.pnot (w.getLsbD 31) (w.extractLsb' 17 6) (w.extractLsb' 11 6)) := by
    unfold fieldsOf fieldsV; rw [hop]; rfl
  rw [key, h0, h1, h2]

theorem pcnt (st : Bool) (d : BitVec 6) (a : BitVec 6) : Statement (.pcnt st d a) := by
  refine ⟨fun k w hk hwf hw => decode_of_fields ?_ hw hwf, fun _ => rfl, fun _ => rfl⟩
  obtain ⟨h0, hop, h1, h2⟩ := format27 (Option.some.inj hw)
  obtain rfl := own_seat rfl hk
  have key : fieldsOf .v w = some (.pcnt (w.getLsbD 31) (w.extractLsb' 17 6) (w.extractLsb' 11 6)) := by
    unfold fieldsOf fieldsV; rw [hop]; rfl
  rw [key, h0, h1, h2]

theorem vcvt (st : Bool) (d : BitVec 6) (a : BitVec 6) (b : BitVec 6) (p : BitVec 3) (ty : BitVec 2) : Statement (.vcvt st d a b p ty) := by
  refine ⟨fun k w hk hwf hw => decode_of_fields ?_ hw hwf, fun _ => rfl, fun _ => rfl⟩
  obtain ⟨h0, hop, h1, h2, h3, h4, h5⟩ := format24 (Option.some.inj hw)
  obtain rfl := own_seat rfl hk
  have key : fieldsOf .v w = some (.vcvt (w.getLsbD 31) (w.extractLsb' 17 6) (w.extractLsb' 11 6) (w.extractLsb' 5 6) (w.extractLsb' 2 3) (w.extractLsb' 0 2)) := by
    unfold fieldsOf fieldsV; rw [hop]; rfl
  rw [key, h0, h1, h2, h3, h4, h5]

theorem vqnt (st : Bool) (d : BitVec 6) (a : BitVec 6) (p : BitVec 3) (ty : BitVec 2) : Statement (.vqnt st d a p ty) := by
  refine ⟨fun k w hk hwf hw => decode_of_fields ?_ hw hwf, fun _ => rfl, fun _ => rfl⟩
  obtain ⟨h0, hop, h1, h2, h3, h4⟩ := format25 (Option.some.inj hw)
  obtain rfl := own_seat rfl hk
  have key : fieldsOf .v w = some (.vqnt (w.getLsbD 31) (w.extractLsb' 17 6) (w.extractLsb' 11 6) (w.extractLsb' 2 3) (w.extractLsb' 0 2)) := by
    unfold fieldsOf fieldsV; rw [hop]; rfl
  rw [key, h0, h1, h2, h3, h4]

theorem vdq (st : Bool) (d : BitVec 6) (a : BitVec 6) (p : BitVec 3) (ty : BitVec 2) : Statement (.vdq st d a p ty) := by
  refine ⟨fun k w hk hwf hw => decode_of_fields ?_ hw hwf, fun _ => rfl, fun _ => rfl⟩
  obtain ⟨h0, hop, h1, h2, h3, h4⟩ := format25 (Option.some.inj hw)
  obtain rfl := own_seat rfl hk
  have key : fieldsOf .v w = some (.vdq (w.getLsbD 31) (w.extractLsb' 17 6) (w.extractLsb' 11 6) (w.extractLsb' 2 3) (w.extractLsb' 0 2)) := by
    unfold fieldsOf fieldsV; rw [hop]; rfl
  rw [key, h0, h1, h2, h3, h4]

theorem vrsum (st : Bool) (d : BitVec 6) (a : BitVec 6) (b : BitVec 6) (p : BitVec 3) (ty : BitVec 2) : Statement (.vrsum st d a b p ty) := by
  refine ⟨fun k w hk hwf hw => decode_of_fields ?_ hw hwf, fun _ => rfl, fun _ => rfl⟩
  obtain ⟨h0, hop, h1, h2, h3, h4, h5⟩ := format24 (Option.some.inj hw)
  obtain rfl := own_seat rfl hk
  have key : fieldsOf .v w = some (.vrsum (w.getLsbD 31) (w.extractLsb' 17 6) (w.extractLsb' 11 6) (w.extractLsb' 5 6) (w.extractLsb' 2 3) (w.extractLsb' 0 2)) := by
    unfold fieldsOf fieldsV; rw [hop]; rfl
  rw [key, h0, h1, h2, h3, h4, h5]

theorem vrmax (st : Bool) (d : BitVec 6) (a : BitVec 6) (b : BitVec 6) (p : BitVec 3) (ty : BitVec 2) : Statement (.vrmax st d a b p ty) := by
  refine ⟨fun k w hk hwf hw => decode_of_fields ?_ hw hwf, fun _ => rfl, fun _ => rfl⟩
  obtain ⟨h0, hop, h1, h2, h3, h4, h5⟩ := format24 (Option.some.inj hw)
  obtain rfl := own_seat rfl hk
  have key : fieldsOf .v w = some (.vrmax (w.getLsbD 31) (w.extractLsb' 17 6) (w.extractLsb' 11 6) (w.extractLsb' 5 6) (w.extractLsb' 2 3) (w.extractLsb' 0 2)) := by
    unfold fieldsOf fieldsV; rw [hop]; rfl
  rw [key, h0, h1, h2, h3, h4, h5]

theorem vperm (st : Bool) (d : BitVec 6) (a : BitVec 6) (b : BitVec 6) (p : BitVec 3) (ty : BitVec 2) : Statement (.vperm st d a b p ty) := by
  refine ⟨fun k w hk hwf hw => decode_of_fields ?_ hw hwf, fun _ => rfl, fun _ => rfl⟩
  obtain ⟨h0, hop, h1, h2, h3, h4, h5⟩ := format24 (Option.some.inj hw)
  obtain rfl := own_seat rfl hk
  have key : fieldsOf .v w = some (.vperm (w.getLsbD 31) (w.extractLsb' 17 6) (w.extractLsb' 11 6) (w.extractLsb' 5 6) (w.extractLsb' 2 3) (w.extractLsb' 0 2)) := by
    unfold fieldsOf fieldsV; rw [hop]; rfl
  rw [key, h0, h1, h2, h3, h4, h5]

theorem vbcast (st : Bool) (d : BitVec 6) (a : BitVec 6) (b : BitVec 6) (p : BitVec 3) (ty : BitVec 2) : Statement (.vbcast st d a b p ty) := by
  refine ⟨fun k w hk hwf hw => decode_of_fields ?_ hw hwf, fun _ => rfl, fun _ => rfl⟩
  obtain ⟨h0, hop, h1, h2, h3, h4, h5⟩ := format24 (Option.some.inj hw)
  obtain rfl := own_seat rfl hk
  have key : fieldsOf .v w = some (.vbcast (w.getLsbD 31) (w.extractLsb' 17 6) (w.extractLsb' 11 6) (w.extractLsb' 5 6) (w.extractLsb' 2 3) (w.extractLsb' 0 2)) := by
    unfold fieldsOf fieldsV; rw [hop]; rfl
  rw [key, h0, h1, h2, h3, h4, h5]

theorem vscan (st : Bool) (d : BitVec 6) (a : BitVec 6) (b : BitVec 6) (p : BitVec 3) (ty : BitVec 2) : Statement (.vscan st d a b p ty) := by
  refine ⟨fun k w hk hwf hw => decode_of_fields ?_ hw hwf, fun _ => rfl, fun _ => rfl⟩
  obtain ⟨h0, hop, h1, h2, h3, h4, h5⟩ := format24 (Option.some.inj hw)
  obtain rfl := own_seat rfl hk
  have key : fieldsOf .v w = some (.vscan (w.getLsbD 31) (w.extractLsb' 17 6) (w.extractLsb' 11 6) (w.extractLsb' 5 6) (w.extractLsb' 2 3) (w.extractLsb' 0 2)) := by
    unfold fieldsOf fieldsV; rw [hop]; rfl
  rw [key, h0, h1, h2, h3, h4, h5]

theorem vaddiF32 (st : Bool) (d : BitVec 6) (md : BitVec 1) (imm : BitVec 16) : Statement (.vaddiF32 st d md imm) := by
  refine ⟨fun k w hk hwf hw => decode_of_fields ?_ hw hwf, fun _ => rfl, fun _ => rfl⟩
  obtain ⟨h0, hop, h1, h2, h3⟩ := format28 (Option.some.inj hw)
  obtain rfl := own_seat rfl hk
  have key : fieldsOf .v w = some (.vaddiF32 (w.getLsbD 31) (w.extractLsb' 17 6) (w.extractLsb' 16 1) (w.extractLsb' 0 16)) := by
    unfold fieldsOf fieldsV; rw [hop]; rfl
  rw [key, h0, h1, h2, h3]

theorem vmuliF32 (st : Bool) (d : BitVec 6) (md : BitVec 1) (imm : BitVec 16) : Statement (.vmuliF32 st d md imm) := by
  refine ⟨fun k w hk hwf hw => decode_of_fields ?_ hw hwf, fun _ => rfl, fun _ => rfl⟩
  obtain ⟨h0, hop, h1, h2, h3⟩ := format28 (Option.some.inj hw)
  obtain rfl := own_seat rfl hk
  have key : fieldsOf .v w = some (.vmuliF32 (w.getLsbD 31) (w.extractLsb' 17 6) (w.extractLsb' 16 1) (w.extractLsb' 0 16)) := by
    unfold fieldsOf fieldsV; rw [hop]; rfl
  rw [key, h0, h1, h2, h3]

theorem vmoviF32 (st : Bool) (d : BitVec 6) (md : BitVec 1) (imm : BitVec 16) : Statement (.vmoviF32 st d md imm) := by
  refine ⟨fun k w hk hwf hw => decode_of_fields ?_ hw hwf, fun _ => rfl, fun _ => rfl⟩
  obtain ⟨h0, hop, h1, h2, h3⟩ := format28 (Option.some.inj hw)
  obtain rfl := own_seat rfl hk
  have key : fieldsOf .v w = some (.vmoviF32 (w.getLsbD 31) (w.extractLsb' 17 6) (w.extractLsb' 16 1) (w.extractLsb' 0 16)) := by
    unfold fieldsOf fieldsV; rw [hop]; rfl
  rw [key, h0, h1, h2, h3]

theorem vaddiF16 (st : Bool) (d : BitVec 6) (md : BitVec 1) (imm : BitVec 16) : Statement (.vaddiF16 st d md imm) := by
  refine ⟨fun k w hk hwf hw => decode_of_fields ?_ hw hwf, fun _ => rfl, fun _ => rfl⟩
  obtain ⟨h0, hop, h1, h2, h3⟩ := format28 (Option.some.inj hw)
  obtain rfl := own_seat rfl hk
  have key : fieldsOf .v w = some (.vaddiF16 (w.getLsbD 31) (w.extractLsb' 17 6) (w.extractLsb' 16 1) (w.extractLsb' 0 16)) := by
    unfold fieldsOf fieldsV; rw [hop]; rfl
  rw [key, h0, h1, h2, h3]

theorem vmuliF16 (st : Bool) (d : BitVec 6) (md : BitVec 1) (imm : BitVec 16) : Statement (.vmuliF16 st d md imm) := by
  refine ⟨fun k w hk hwf hw => decode_of_fields ?_ hw hwf, fun _ => rfl, fun _ => rfl⟩
  obtain ⟨h0, hop, h1, h2, h3⟩ := format28 (Option.some.inj hw)
  obtain rfl := own_seat rfl hk
  have key : fieldsOf .v w = some (.vmuliF16 (w.getLsbD 31) (w.extractLsb' 17 6) (w.extractLsb' 16 1) (w.extractLsb' 0 16)) := by
    unfold fieldsOf fieldsV; rw [hop]; rfl
  rw [key, h0, h1, h2, h3]

theorem vmoviF16 (st : Bool) (d : BitVec 6) (md : BitVec 1) (imm : BitVec 16) : Statement (.vmoviF16 st d md imm) := by
  refine ⟨fun k w hk hwf hw => decode_of_fields ?_ hw hwf, fun _ => rfl, fun _ => rfl⟩
  obtain ⟨h0, hop, h1, h2, h3⟩ := format28 (Option.some.inj hw)
  obtain rfl := own_seat rfl hk
  have key : fieldsOf .v w = some (.vmoviF16 (w.getLsbD 31) (w.extractLsb' 17 6) (w.extractLsb' 16 1) (w.extractLsb' 0 16)) := by
    unfold fieldsOf fieldsV; rw [hop]; rfl
  rw [key, h0, h1, h2, h3]

theorem vaddiBF16 (st : Bool) (d : BitVec 6) (md : BitVec 1) (imm : BitVec 16) : Statement (.vaddiBF16 st d md imm) := by
  refine ⟨fun k w hk hwf hw => decode_of_fields ?_ hw hwf, fun _ => rfl, fun _ => rfl⟩
  obtain ⟨h0, hop, h1, h2, h3⟩ := format28 (Option.some.inj hw)
  obtain rfl := own_seat rfl hk
  have key : fieldsOf .v w = some (.vaddiBF16 (w.getLsbD 31) (w.extractLsb' 17 6) (w.extractLsb' 16 1) (w.extractLsb' 0 16)) := by
    unfold fieldsOf fieldsV; rw [hop]; rfl
  rw [key, h0, h1, h2, h3]

theorem vmuliBF16 (st : Bool) (d : BitVec 6) (md : BitVec 1) (imm : BitVec 16) : Statement (.vmuliBF16 st d md imm) := by
  refine ⟨fun k w hk hwf hw => decode_of_fields ?_ hw hwf, fun _ => rfl, fun _ => rfl⟩
  obtain ⟨h0, hop, h1, h2, h3⟩ := format28 (Option.some.inj hw)
  obtain rfl := own_seat rfl hk
  have key : fieldsOf .v w = some (.vmuliBF16 (w.getLsbD 31) (w.extractLsb' 17 6) (w.extractLsb' 16 1) (w.extractLsb' 0 16)) := by
    unfold fieldsOf fieldsV; rw [hop]; rfl
  rw [key, h0, h1, h2, h3]

theorem vmoviBF16 (st : Bool) (d : BitVec 6) (md : BitVec 1) (imm : BitVec 16) : Statement (.vmoviBF16 st d md imm) := by
  refine ⟨fun k w hk hwf hw => decode_of_fields ?_ hw hwf, fun _ => rfl, fun _ => rfl⟩
  obtain ⟨h0, hop, h1, h2, h3⟩ := format28 (Option.some.inj hw)
  obtain rfl := own_seat rfl hk
  have key : fieldsOf .v w = some (.vmoviBF16 (w.getLsbD 31) (w.extractLsb' 17 6) (w.extractLsb' 16 1) (w.extractLsb' 0 16)) := by
    unfold fieldsOf fieldsV; rw [hop]; rfl
  rw [key, h0, h1, h2, h3]

theorem vaddiI32 (st : Bool) (d : BitVec 6) (md : BitVec 1) (imm : BitVec 16) : Statement (.vaddiI32 st d md imm) := by
  refine ⟨fun k w hk hwf hw => decode_of_fields ?_ hw hwf, fun _ => rfl, fun _ => rfl⟩
  obtain ⟨h0, hop, h1, h2, h3⟩ := format28 (Option.some.inj hw)
  obtain rfl := own_seat rfl hk
  have key : fieldsOf .v w = some (.vaddiI32 (w.getLsbD 31) (w.extractLsb' 17 6) (w.extractLsb' 16 1) (w.extractLsb' 0 16)) := by
    unfold fieldsOf fieldsV; rw [hop]; rfl
  rw [key, h0, h1, h2, h3]

theorem vmoviI32 (st : Bool) (d : BitVec 6) (md : BitVec 1) (imm : BitVec 16) : Statement (.vmoviI32 st d md imm) := by
  refine ⟨fun k w hk hwf hw => decode_of_fields ?_ hw hwf, fun _ => rfl, fun _ => rfl⟩
  obtain ⟨h0, hop, h1, h2, h3⟩ := format28 (Option.some.inj hw)
  obtain rfl := own_seat rfl hk
  have key : fieldsOf .v w = some (.vmoviI32 (w.getLsbD 31) (w.extractLsb' 17 6) (w.extractLsb' 16 1) (w.extractLsb' 0 16)) := by
    unfold fieldsOf fieldsV; rw [hop]; rfl
  rw [key, h0, h1, h2, h3]

theorem vandi (st : Bool) (d : BitVec 6) (md : BitVec 1) (imm : BitVec 16) : Statement (.vandi st d md imm) := by
  refine ⟨fun k w hk hwf hw => decode_of_fields ?_ hw hwf, fun _ => rfl, fun _ => rfl⟩
  obtain ⟨h0, hop, h1, h2, h3⟩ := format28 (Option.some.inj hw)
  obtain rfl := own_seat rfl hk
  have key : fieldsOf .v w = some (.vandi (w.getLsbD 31) (w.extractLsb' 17 6) (w.extractLsb' 16 1) (w.extractLsb' 0 16)) := by
    unfold fieldsOf fieldsV; rw [hop]; rfl
  rw [key, h0, h1, h2, h3]

theorem vori (st : Bool) (d : BitVec 6) (md : BitVec 1) (imm : BitVec 16) : Statement (.vori st d md imm) := by
  refine ⟨fun k w hk hwf hw => decode_of_fields ?_ hw hwf, fun _ => rfl, fun _ => rfl⟩
  obtain ⟨h0, hop, h1, h2, h3⟩ := format28 (Option.some.inj hw)
  obtain rfl := own_seat rfl hk
  have key : fieldsOf .v w = some (.vori (w.getLsbD 31) (w.extractLsb' 17 6) (w.extractLsb' 16 1) (w.extractLsb' 0 16)) := by
    unfold fieldsOf fieldsV; rw [hop]; rfl
  rw [key, h0, h1, h2, h3]

theorem xadd (st : Bool) (d : BitVec 4) (a : BitVec 4) (b : BitVec 4) (imm : BitVec 11) : Statement (.xadd st d a b imm) := by
  refine ⟨fun k w hk hwf hw => decode_of_fields ?_ hw hwf, fun _ => rfl, fun _ => rfl⟩
  obtain ⟨h0, hop, h1, h2, h3, h4⟩ := format29 (Option.some.inj hw)
  obtain rfl := own_seat rfl hk
  have key : fieldsOf .v w = some (.xadd (w.getLsbD 31) (w.extractLsb' 19 4) (w.extractLsb' 15 4) (w.extractLsb' 11 4) (w.extractLsb' 0 11)) := by
    unfold fieldsOf fieldsV; rw [hop]; rfl
  rw [key, h0, h1, h2, h3, h4]

theorem xsub (st : Bool) (d : BitVec 4) (a : BitVec 4) (b : BitVec 4) (imm : BitVec 11) : Statement (.xsub st d a b imm) := by
  refine ⟨fun k w hk hwf hw => decode_of_fields ?_ hw hwf, fun _ => rfl, fun _ => rfl⟩
  obtain ⟨h0, hop, h1, h2, h3, h4⟩ := format29 (Option.some.inj hw)
  obtain rfl := own_seat rfl hk
  have key : fieldsOf .v w = some (.xsub (w.getLsbD 31) (w.extractLsb' 19 4) (w.extractLsb' 15 4) (w.extractLsb' 11 4) (w.extractLsb' 0 11)) := by
    unfold fieldsOf fieldsV; rw [hop]; rfl
  rw [key, h0, h1, h2, h3, h4]

theorem xmul (st : Bool) (d : BitVec 4) (a : BitVec 4) (b : BitVec 4) (imm : BitVec 6) : Statement (.xmul st d a b imm) := by
  refine ⟨fun k w hk hwf hw => decode_of_fields ?_ hw hwf, fun _ => rfl, fun _ => rfl⟩
  obtain ⟨h0, hop, h1, h2, h3, h4⟩ := format30 (Option.some.inj hw)
  obtain rfl := own_seat rfl hk
  have key : fieldsOf .v w = some (.xmul (w.getLsbD 31) (w.extractLsb' 19 4) (w.extractLsb' 15 4) (w.extractLsb' 11 4) (w.extractLsb' 0 6)) := by
    unfold fieldsOf fieldsV; rw [hop]; rfl
  rw [key, h0, h1, h2, h3, h4]

theorem xli (st : Bool) (d : BitVec 4) (a : BitVec 4) (b : BitVec 4) (imm : BitVec 11) : Statement (.xli st d a b imm) := by
  refine ⟨fun k w hk hwf hw => decode_of_fields ?_ hw hwf, fun _ => rfl, fun _ => rfl⟩
  obtain ⟨h0, hop, h1, h2, h3, h4⟩ := format29 (Option.some.inj hw)
  obtain rfl := own_seat rfl hk
  have key : fieldsOf .v w = some (.xli (w.getLsbD 31) (w.extractLsb' 19 4) (w.extractLsb' 15 4) (w.extractLsb' 11 4) (w.extractLsb' 0 11)) := by
    unfold fieldsOf fieldsV; rw [hop]; rfl
  rw [key, h0, h1, h2, h3, h4]

theorem xget (st : Bool) (d : BitVec 4) (b : BitVec 4) (vr : BitVec 5) : Statement (.xget st d b vr) := by
  refine ⟨fun k w hk hwf hw => decode_of_fields ?_ hw hwf, fun _ => rfl, fun _ => rfl⟩
  obtain ⟨h0, hop, h1, h2, h3⟩ := format31 (Option.some.inj hw)
  obtain rfl := own_seat rfl hk
  have key : fieldsOf .v w = some (.xget (w.getLsbD 31) (w.extractLsb' 19 4) (w.extractLsb' 11 4) (w.extractLsb' 0 5)) := by
    unfold fieldsOf fieldsV; rw [hop]; rfl
  rw [key, h0, h1, h2, h3]

theorem xput (st : Bool) (a : BitVec 4) (b : BitVec 4) (vr : BitVec 5) : Statement (.xput st a b vr) := by
  refine ⟨fun k w hk hwf hw => decode_of_fields ?_ hw hwf, fun _ => rfl, fun _ => rfl⟩
  obtain ⟨h0, hop, h1, h2, h3⟩ := format32 (Option.some.inj hw)
  obtain rfl := own_seat rfl hk
  have key : fieldsOf .v w = some (.xput (w.getLsbD 31) (w.extractLsb' 15 4) (w.extractLsb' 11 4) (w.extractLsb' 0 5)) := by
    unfold fieldsOf fieldsV; rw [hop]; rfl
  rw [key, h0, h1, h2, h3]

theorem vbz (st : Bool) (a : BitVec 4) (imm : BitVec 19) : Statement (.vbz st a imm) := by
  refine ⟨fun k w hk hwf hw => decode_of_fields ?_ hw hwf, fun _ => rfl, fun _ => rfl⟩
  obtain ⟨h0, hop, h1, h2⟩ := format33 (Option.some.inj hw)
  obtain rfl := own_seat rfl hk
  have key : fieldsOf .v w = some (.vbz (w.getLsbD 31) (w.extractLsb' 19 4) (w.extractLsb' 0 19)) := by
    unfold fieldsOf fieldsV; rw [hop]; rfl
  rw [key, h0, h1, h2]

theorem vbnz (st : Bool) (a : BitVec 4) (imm : BitVec 19) : Statement (.vbnz st a imm) := by
  refine ⟨fun k w hk hwf hw => decode_of_fields ?_ hw hwf, fun _ => rfl, fun _ => rfl⟩
  obtain ⟨h0, hop, h1, h2⟩ := format33 (Option.some.inj hw)
  obtain rfl := own_seat rfl hk
  have key : fieldsOf .v w = some (.vbnz (w.getLsbD 31) (w.extractLsb' 19 4) (w.extractLsb' 0 19)) := by
    unfold fieldsOf fieldsV; rw [hop]; rfl
  rw [key, h0, h1, h2]

theorem vjmp (st : Bool) (imm : BitVec 23) : Statement (.vjmp st imm) := by
  refine ⟨fun k w hk hwf hw => decode_of_fields ?_ hw hwf, fun _ => rfl, fun _ => rfl⟩
  obtain ⟨h0, hop, h1⟩ := format5 (Option.some.inj hw)
  obtain rfl := own_seat rfl hk
  have key : fieldsOf .v w = some (.vjmp (w.getLsbD 31) (w.extractLsb' 0 23)) := by
    unfold fieldsOf fieldsV; rw [hop]; rfl
  rw [key, h0, h1]

theorem vsweep (st : Bool) (d : BitVec 6) (a : BitVec 6) (b : BitVec 6) (p : BitVec 3) (ty : BitVec 2) : Statement (.vsweep st d a b p ty) := by
  refine ⟨fun k w hk hwf hw => decode_of_fields ?_ hw hwf, fun _ => rfl, fun _ => rfl⟩
  obtain ⟨h0, hop, h1, h2, h3, h4, h5⟩ := format24 (Option.some.inj hw)
  obtain rfl := own_seat rfl hk
  have key : fieldsOf .v w = some (.vsweep (w.getLsbD 31) (w.extractLsb' 17 6) (w.extractLsb' 11 6) (w.extractLsb' 5 6) (w.extractLsb' 2 3) (w.extractLsb' 0 2)) := by
    unfold fieldsOf fieldsV; rw [hop]; rfl
  rw [key, h0, h1, h2, h3, h4, h5]

theorem vjlim (st : Bool) (d : BitVec 6) (a : BitVec 6) (b : BitVec 6) (p : BitVec 3) (ty : BitVec 2) : Statement (.vjlim st d a b p ty) := by
  refine ⟨fun k w hk hwf hw => decode_of_fields ?_ hw hwf, fun _ => rfl, fun _ => rfl⟩
  obtain ⟨h0, hop, h1, h2, h3, h4, h5⟩ := format24 (Option.some.inj hw)
  obtain rfl := own_seat rfl hk
  have key : fieldsOf .v w = some (.vjlim (w.getLsbD 31) (w.extractLsb' 17 6) (w.extractLsb' 11 6) (w.extractLsb' 5 6) (w.extractLsb' 2 3) (w.extractLsb' 0 2)) := by
    unfold fieldsOf fieldsV; rw [hop]; rfl
  rw [key, h0, h1, h2, h3, h4, h5]

theorem vdist (st : Bool) (d : BitVec 6) (a : BitVec 6) (b : BitVec 6) (p : BitVec 3) (ty : BitVec 2) : Statement (.vdist st d a b p ty) := by
  refine ⟨fun k w hk hwf hw => decode_of_fields ?_ hw hwf, fun _ => rfl, fun _ => rfl⟩
  obtain ⟨h0, hop, h1, h2, h3, h4, h5⟩ := format24 (Option.some.inj hw)
  obtain rfl := own_seat rfl hk
  have key : fieldsOf .v w = some (.vdist (w.getLsbD 31) (w.extractLsb' 17 6) (w.extractLsb' 11 6) (w.extractLsb' 5 6) (w.extractLsb' 2 3) (w.extractLsb' 0 2)) := by
    unfold fieldsOf fieldsV; rw [hop]; rfl
  rw [key, h0, h1, h2, h3, h4, h5]

theorem vdph (st : Bool) (imm : BitVec 3) : Statement (.vdph st imm) := by
  refine ⟨fun k w hk hwf hw => decode_of_fields ?_ hw hwf, fun _ => rfl, fun _ => rfl⟩
  obtain ⟨h0, hop, h1⟩ := format34 (Option.some.inj hw)
  obtain rfl := own_seat rfl hk
  have key : fieldsOf .v w = some (.vdph (w.getLsbD 31) (w.extractLsb' 0 3)) := by
    unfold fieldsOf fieldsV; rw [hop]; rfl
  rw [key, h0, h1]

theorem vmov (st : Bool) (d : BitVec 6) (a : BitVec 6) (p : BitVec 3) (ty : BitVec 2) : Statement (.vmov st d a p ty) := by
  refine ⟨fun k w hk hwf hw => decode_of_fields ?_ hw hwf, fun _ => rfl, fun _ => rfl⟩
  obtain ⟨h0, hop, h1, h2, h3, h4⟩ := format25 (Option.some.inj hw)
  obtain rfl := own_seat rfl hk
  have key : fieldsOf .v w = some (.vmov (w.getLsbD 31) (w.extractLsb' 17 6) (w.extractLsb' 11 6) (w.extractLsb' 2 3) (w.extractLsb' 0 2)) := by
    unfold fieldsOf fieldsV; rw [hop]; rfl
  rw [key, h0, h1, h2, h3, h4]

theorem vpack (st : Bool) (d : BitVec 6) (a : BitVec 6) (b : BitVec 6) (p : BitVec 3) (ty : BitVec 2) : Statement (.vpack st d a b p ty) := by
  refine ⟨fun k w hk hwf hw => decode_of_fields ?_ hw hwf, fun _ => rfl, fun _ => rfl⟩
  obtain ⟨h0, hop, h1, h2, h3, h4, h5⟩ := format24 (Option.some.inj hw)
  obtain rfl := own_seat rfl hk
  have key : fieldsOf .v w = some (.vpack (w.getLsbD 31) (w.extractLsb' 17 6) (w.extractLsb' 11 6) (w.extractLsb' 5 6) (w.extractLsb' 2 3) (w.extractLsb' 0 2)) := by
    unfold fieldsOf fieldsV; rw [hop]; rfl
  rw [key, h0, h1, h2, h3, h4, h5]

theorem vunpk (st : Bool) (d : BitVec 6) (a : BitVec 6) (b : BitVec 6) (p : BitVec 3) (ty : BitVec 2) : Statement (.vunpk st d a b p ty) := by
  refine ⟨fun k w hk hwf hw => decode_of_fields ?_ hw hwf, fun _ => rfl, fun _ => rfl⟩
  obtain ⟨h0, hop, h1, h2, h3, h4, h5⟩ := format24 (Option.some.inj hw)
  obtain rfl := own_seat rfl hk
  have key : fieldsOf .v w = some (.vunpk (w.getLsbD 31) (w.extractLsb' 17 6) (w.extractLsb' 11 6) (w.extractLsb' 5 6) (w.extractLsb' 2 3) (w.extractLsb' 0 2)) := by
    unfold fieldsOf fieldsV; rw [hop]; rfl
  rw [key, h0, h1, h2, h3, h4, h5]

theorem vsplt (st : Bool) (d : BitVec 6) (a : BitVec 6) (b : BitVec 6) (p : BitVec 3) (ty : BitVec 2) : Statement (.vsplt st d a b p ty) := by
  refine ⟨fun k w hk hwf hw => decode_of_fields ?_ hw hwf, fun _ => rfl, fun _ => rfl⟩
  obtain ⟨h0, hop, h1, h2, h3, h4, h5⟩ := format24 (Option.some.inj hw)
  obtain rfl := own_seat rfl hk
  have key : fieldsOf .v w = some (.vsplt (w.getLsbD 31) (w.extractLsb' 17 6) (w.extractLsb' 11 6) (w.extractLsb' 5 6) (w.extractLsb' 2 3) (w.extractLsb' 0 2)) := by
    unfold fieldsOf fieldsV; rw [hop]; rfl
  rw [key, h0, h1, h2, h3, h4, h5]

theorem vcat (st : Bool) (d : BitVec 6) (a : BitVec 6) (b : BitVec 6) (p : BitVec 3) (ty : BitVec 2) : Statement (.vcat st d a b p ty) := by
  refine ⟨fun k w hk hwf hw => decode_of_fields ?_ hw hwf, fun _ => rfl, fun _ => rfl⟩
  obtain ⟨h0, hop, h1, h2, h3, h4, h5⟩ := format24 (Option.some.inj hw)
  obtain rfl := own_seat rfl hk
  have key : fieldsOf .v w = some (.vcat (w.getLsbD 31) (w.extractLsb' 17 6) (w.extractLsb' 11 6) (w.extractLsb' 5 6) (w.extractLsb' 2 3) (w.extractLsb' 0 2)) := by
    unfold fieldsOf fieldsV; rw [hop]; rfl
  rw [key, h0, h1, h2, h3, h4, h5]

theorem mma (st : Bool) (o : BitVec 3) (a : BitVec 3) (b : BitVec 3) (f : BitVec 5) (kk : BitVec 9) : Statement (.mma st o a b f kk) := by
  refine ⟨fun k w hk hwf hw => decode_of_fields ?_ hw hwf, fun _ => rfl, fun _ => rfl⟩
  obtain ⟨h0, hop, h1, h2, h3, h4, h5⟩ := format35 (Option.some.inj hw)
  obtain rfl := own_seat rfl hk
  have key : fieldsOf .m w = some (.mma (w.getLsbD 31) (w.extractLsb' 20 3) (w.extractLsb' 17 3) (w.extractLsb' 14 3) (w.extractLsb' 9 5) (w.extractLsb' 0 9)) := by
    unfold fieldsOf fieldsM; rw [hop]; rfl
  rw [key, h0, h1, h2, h3, h4, h5]

theorem mmaj (st : Bool) (o : BitVec 3) (a : BitVec 3) (b : BitVec 3) (f : BitVec 5) (kk : BitVec 9) : Statement (.mmaj st o a b f kk) := by
  refine ⟨fun k w hk hwf hw => decode_of_fields ?_ hw hwf, fun _ => rfl, fun _ => rfl⟩
  obtain ⟨h0, hop, h1, h2, h3, h4, h5⟩ := format35 (Option.some.inj hw)
  obtain rfl := own_seat rfl hk
  have key : fieldsOf .m w = some (.mmaj (w.getLsbD 31) (w.extractLsb' 20 3) (w.extractLsb' 17 3) (w.extractLsb' 14 3) (w.extractLsb' 9 5) (w.extractLsb' 0 9)) := by
    unfold fieldsOf fieldsM; rw [hop]; rfl
  rw [key, h0, h1, h2, h3, h4, h5]

theorem mdrn (st : Bool) (o : BitVec 3) : Statement (.mdrn st o) := by
  refine ⟨fun k w hk hwf hw => decode_of_fields ?_ hw hwf, fun _ => rfl, fun _ => rfl⟩
  obtain ⟨h0, hop, h1⟩ := format36 (Option.some.inj hw)
  obtain rfl := own_seat rfl hk
  have key : fieldsOf .m w = some (.mdrn (w.getLsbD 31) (w.extractLsb' 20 3)) := by
    unfold fieldsOf fieldsM; rw [hop]; rfl
  rw [key, h0, h1]

theorem mzero (st : Bool) : Statement (.mzero st) := by
  refine ⟨fun k w hk hwf hw => decode_of_fields ?_ hw hwf, fun _ => rfl, fun _ => rfl⟩
  obtain ⟨h0, hop⟩ := format8 (Option.some.inj hw)
  obtain rfl := own_seat rfl hk
  have key : fieldsOf .m w = some (.mzero (w.getLsbD 31)) := by
    unfold fieldsOf fieldsM; rw [hop]; rfl
  rw [key, h0]

theorem ftset (st : Bool) (a : BitVec 4) (e : BitVec 4) : Statement (.ftset st a e) := by
  refine ⟨fun k w hk hwf hw => decode_of_fields ?_ hw hwf, fun _ => rfl, fun _ => rfl⟩
  obtain ⟨h0, hop, h1, h2⟩ := format37 (Option.some.inj hw)
  obtain rfl := own_seat rfl hk
  have key : fieldsOf .m w = some (.ftset (w.getLsbD 31) (w.extractLsb' 15 4) (w.extractLsb' 0 4)) := by
    unfold fieldsOf fieldsM; rw [hop]; rfl
  rw [key, h0, h1, h2]

theorem ftget (st : Bool) (d : BitVec 4) (e : BitVec 4) : Statement (.ftget st d e) := by
  refine ⟨fun k w hk hwf hw => decode_of_fields ?_ hw hwf, fun _ => rfl, fun _ => rfl⟩
  obtain ⟨h0, hop, h1, h2⟩ := format38 (Option.some.inj hw)
  obtain rfl := own_seat rfl hk
  have key : fieldsOf .m w = some (.ftget (w.getLsbD 31) (w.extractLsb' 19 4) (w.extractLsb' 0 4)) := by
    unfold fieldsOf fieldsM; rw [hop]; rfl
  rw [key, h0, h1, h2]

theorem mpidx (st : Bool) (d : BitVec 4) : Statement (.mpidx st d) := by
  refine ⟨fun k w hk hwf hw => decode_of_fields ?_ hw hwf, fun _ => rfl, fun _ => rfl⟩
  obtain ⟨h0, hop, h1⟩ := format39 (Option.some.inj hw)
  obtain rfl := own_seat rfl hk
  have key : fieldsOf .m w = some (.mpidx (w.getLsbD 31) (w.extractLsb' 19 4)) := by
    unfold fieldsOf fieldsM; rw [hop]; rfl
  rw [key, h0, h1]

theorem madd (st : Bool) (d : BitVec 4) (a : BitVec 4) (imm : BitVec 15) : Statement (.madd st d a imm) := by
  refine ⟨fun k w hk hwf hw => decode_of_fields ?_ hw hwf, fun _ => rfl, fun _ => rfl⟩
  obtain ⟨h0, hop, h1, h2, h3⟩ := format40 (Option.some.inj hw)
  obtain rfl := own_seat rfl hk
  have key : fieldsOf .m w = some (.madd (w.getLsbD 31) (w.extractLsb' 19 4) (w.extractLsb' 15 4) (w.extractLsb' 0 15)) := by
    unfold fieldsOf fieldsM; rw [hop]; rfl
  rw [key, h0, h1, h2, h3]

theorem msub (st : Bool) (d : BitVec 4) (a : BitVec 4) (imm : BitVec 15) : Statement (.msub st d a imm) := by
  refine ⟨fun k w hk hwf hw => decode_of_fields ?_ hw hwf, fun _ => rfl, fun _ => rfl⟩
  obtain ⟨h0, hop, h1, h2, h3⟩ := format40 (Option.some.inj hw)
  obtain rfl := own_seat rfl hk
  have key : fieldsOf .m w = some (.msub (w.getLsbD 31) (w.extractLsb' 19 4) (w.extractLsb' 15 4) (w.extractLsb' 0 15)) := by
    unfold fieldsOf fieldsM; rw [hop]; rfl
  rw [key, h0, h1, h2, h3]

theorem mand (st : Bool) (d : BitVec 4) (a : BitVec 4) (imm : BitVec 15) : Statement (.mand st d a imm) := by
  refine ⟨fun k w hk hwf hw => decode_of_fields ?_ hw hwf, fun _ => rfl, fun _ => rfl⟩
  obtain ⟨h0, hop, h1, h2, h3⟩ := format40 (Option.some.inj hw)
  obtain rfl := own_seat rfl hk
  have key : fieldsOf .m w = some (.mand (w.getLsbD 31) (w.extractLsb' 19 4) (w.extractLsb' 15 4) (w.extractLsb' 0 15)) := by
    unfold fieldsOf fieldsM; rw [hop]; rfl
  rw [key, h0, h1, h2, h3]

theorem mor (st : Bool) (d : BitVec 4) (a : BitVec 4) (imm : BitVec 15) : Statement (.mor st d a imm) := by
  refine ⟨fun k w hk hwf hw => decode_of_fields ?_ hw hwf, fun _ => rfl, fun _ => rfl⟩
  obtain ⟨h0, hop, h1, h2, h3⟩ := format40 (Option.some.inj hw)
  obtain rfl := own_seat rfl hk
  have key : fieldsOf .m w = some (.mor (w.getLsbD 31) (w.extractLsb' 19 4) (w.extractLsb' 15 4) (w.extractLsb' 0 15)) := by
    unfold fieldsOf fieldsM; rw [hop]; rfl
  rw [key, h0, h1, h2, h3]

theorem mshl (st : Bool) (d : BitVec 4) (a : BitVec 4) (imm : BitVec 6) : Statement (.mshl st d a imm) := by
  refine ⟨fun k w hk hwf hw => decode_of_fields ?_ hw hwf, fun _ => rfl, fun _ => rfl⟩
  obtain ⟨h0, hop, h1, h2, h3⟩ := format41 (Option.some.inj hw)
  obtain rfl := own_seat rfl hk
  have key : fieldsOf .m w = some (.mshl (w.getLsbD 31) (w.extractLsb' 19 4) (w.extractLsb' 15 4) (w.extractLsb' 0 6)) := by
    unfold fieldsOf fieldsM; rw [hop]; rfl
  rw [key, h0, h1, h2, h3]

theorem mshr (st : Bool) (d : BitVec 4) (a : BitVec 4) (imm : BitVec 6) : Statement (.mshr st d a imm) := by
  refine ⟨fun k w hk hwf hw => decode_of_fields ?_ hw hwf, fun _ => rfl, fun _ => rfl⟩
  obtain ⟨h0, hop, h1, h2, h3⟩ := format41 (Option.some.inj hw)
  obtain rfl := own_seat rfl hk
  have key : fieldsOf .m w = some (.mshr (w.getLsbD 31) (w.extractLsb' 19 4) (w.extractLsb' 15 4) (w.extractLsb' 0 6)) := by
    unfold fieldsOf fieldsM; rw [hop]; rfl
  rw [key, h0, h1, h2, h3]

theorem mli (st : Bool) (d : BitVec 4) (imm : BitVec 15) : Statement (.mli st d imm) := by
  refine ⟨fun k w hk hwf hw => decode_of_fields ?_ hw hwf, fun _ => rfl, fun _ => rfl⟩
  obtain ⟨h0, hop, h1, h2⟩ := format42 (Option.some.inj hw)
  obtain rfl := own_seat rfl hk
  have key : fieldsOf .m w = some (.mli (w.getLsbD 31) (w.extractLsb' 19 4) (w.extractLsb' 0 15)) := by
    unfold fieldsOf fieldsM; rw [hop]; rfl
  rw [key, h0, h1, h2]

theorem mlui (st : Bool) (d : BitVec 4) (imm : BitVec 15) : Statement (.mlui st d imm) := by
  refine ⟨fun k w hk hwf hw => decode_of_fields ?_ hw hwf, fun _ => rfl, fun _ => rfl⟩
  obtain ⟨h0, hop, h1, h2⟩ := format42 (Option.some.inj hw)
  obtain rfl := own_seat rfl hk
  have key : fieldsOf .m w = some (.mlui (w.getLsbD 31) (w.extractLsb' 19 4) (w.extractLsb' 0 15)) := by
    unfold fieldsOf fieldsM; rw [hop]; rfl
  rw [key, h0, h1, h2]

theorem mbz (st : Bool) (a : BitVec 4) (imm : BitVec 15) : Statement (.mbz st a imm) := by
  refine ⟨fun k w hk hwf hw => decode_of_fields ?_ hw hwf, fun _ => rfl, fun _ => rfl⟩
  obtain ⟨h0, hop, h1, h2⟩ := format42 (Option.some.inj hw)
  obtain rfl := own_seat rfl hk
  have key : fieldsOf .m w = some (.mbz (w.getLsbD 31) (w.extractLsb' 19 4) (w.extractLsb' 0 15)) := by
    unfold fieldsOf fieldsM; rw [hop]; rfl
  rw [key, h0, h1, h2]

theorem mbnz (st : Bool) (a : BitVec 4) (imm : BitVec 15) : Statement (.mbnz st a imm) := by
  refine ⟨fun k w hk hwf hw => decode_of_fields ?_ hw hwf, fun _ => rfl, fun _ => rfl⟩
  obtain ⟨h0, hop, h1, h2⟩ := format42 (Option.some.inj hw)
  obtain rfl := own_seat rfl hk
  have key : fieldsOf .m w = some (.mbnz (w.getLsbD 31) (w.extractLsb' 19 4) (w.extractLsb' 0 15)) := by
    unfold fieldsOf fieldsM; rw [hop]; rfl
  rw [key, h0, h1, h2]

theorem mblt (st : Bool) (a : BitVec 4) (b : BitVec 4) (imm : BitVec 15) : Statement (.mblt st a b imm) := by
  refine ⟨fun k w hk hwf hw => decode_of_fields ?_ hw hwf, fun _ => rfl, fun _ => rfl⟩
  obtain ⟨h0, hop, h1, h2, h3⟩ := format40 (Option.some.inj hw)
  obtain rfl := own_seat rfl hk
  have key : fieldsOf .m w = some (.mblt (w.getLsbD 31) (w.extractLsb' 19 4) (w.extractLsb' 15 4) (w.extractLsb' 0 15)) := by
    unfold fieldsOf fieldsM; rw [hop]; rfl
  rw [key, h0, h1, h2, h3]

theorem mjmp (st : Bool) (imm : BitVec 23) : Statement (.mjmp st imm) := by
  refine ⟨fun k w hk hwf hw => decode_of_fields ?_ hw hwf, fun _ => rfl, fun _ => rfl⟩
  obtain ⟨h0, hop, h1⟩ := format5 (Option.some.inj hw)
  obtain rfl := own_seat rfl hk
  have key : fieldsOf .m w = some (.mjmp (w.getLsbD 31) (w.extractLsb' 0 23)) := by
    unfold fieldsOf fieldsM; rw [hop]; rfl
  rw [key, h0, h1]

theorem mjr (st : Bool) (a : BitVec 4) : Statement (.mjr st a) := by
  refine ⟨fun k w hk hwf hw => decode_of_fields ?_ hw hwf, fun _ => rfl, fun _ => rfl⟩
  obtain ⟨h0, hop, h1⟩ := format39 (Option.some.inj hw)
  obtain rfl := own_seat rfl hk
  have key : fieldsOf .m w = some (.mjr (w.getLsbD 31) (w.extractLsb' 19 4)) := by
    unfold fieldsOf fieldsM; rw [hop]; rfl
  rw [key, h0, h1]

theorem nop (st : Bool) : Statement (.nop st) := by
  refine ⟨fun k w hk hwf hw => decode_of_fields ?_ hw hwf, fun _ => rfl, fun _ => rfl⟩
  obtain ⟨h0, hop⟩ := format8 (Option.some.inj hw)
  have key : fieldsOf k w = some (.nop (w.getLsbD 31)) := by
    unfold fieldsOf fieldsCommon; rw [hop]; rfl
  rw [key, h0]

theorem mloop (st : Bool) (l : BitVec 3) (n : BitVec 6) (stg : BitVec 3) (ms : BitVec 3) : Statement (.mloop st l n stg ms) := by
  refine ⟨fun k w hk hwf hw => decode_of_fields ?_ hw hwf, fun _ => rfl, fun _ => rfl⟩
  obtain ⟨h0, hop, h1, h2, h3, h4⟩ := format43 (Option.some.inj hw)
  have key : fieldsOf k w = some (.mloop (w.getLsbD 31) (w.extractLsb' 20 3) (w.extractLsb' 14 6) (w.extractLsb' 11 3) (w.extractLsb' 8 3)) := by
    unfold fieldsOf fieldsCommon; rw [hop]; rfl
  rw [key, h0, h1, h2, h3, h4]

theorem tpost (st : Bool) (k : BitVec 4) (n : BitVec 8) : Statement (.tpost st k n) := by
  refine ⟨fun k w hk hwf hw => decode_of_fields ?_ hw hwf, fun _ => rfl, fun _ => rfl⟩
  obtain ⟨h0, hop, h1, h2⟩ := format44 (Option.some.inj hw)
  have key : fieldsOf k w = some (.tpost (w.getLsbD 31) (w.extractLsb' 19 4) (w.extractLsb' 11 8)) := by
    unfold fieldsOf fieldsCommon; rw [hop]; rfl
  rw [key, h0, h1, h2]

theorem twait (st : Bool) (k : BitVec 4) (n : BitVec 8) : Statement (.twait st k n) := by
  refine ⟨fun k w hk hwf hw => decode_of_fields ?_ hw hwf, fun _ => rfl, fun _ => rfl⟩
  obtain ⟨h0, hop, h1, h2⟩ := format44 (Option.some.inj hw)
  have key : fieldsOf k w = some (.twait (w.getLsbD 31) (w.extractLsb' 19 4) (w.extractLsb' 11 8)) := by
    unfold fieldsOf fieldsCommon; rw [hop]; rfl
  rw [key, h0, h1, h2]

theorem fset (st : Bool) (f : BitVec 3) (v : BitVec 1) : Statement (.fset st f v) := by
  refine ⟨fun k w hk hwf hw => decode_of_fields ?_ hw hwf, fun _ => rfl, fun _ => rfl⟩
  obtain ⟨h0, hop, h1, h2⟩ := format45 (Option.some.inj hw)
  have key : fieldsOf k w = some (.fset (w.getLsbD 31) (w.extractLsb' 20 3) (w.extractLsb' 19 1)) := by
    unfold fieldsOf fieldsCommon; rw [hop]; rfl
  rw [key, h0, h1, h2]

theorem fwait (st : Bool) (f : BitVec 3) (v : BitVec 1) : Statement (.fwait st f v) := by
  refine ⟨fun k w hk hwf hw => decode_of_fields ?_ hw hwf, fun _ => rfl, fun _ => rfl⟩
  obtain ⟨h0, hop, h1, h2⟩ := format45 (Option.some.inj hw)
  have key : fieldsOf k w = some (.fwait (w.getLsbD 31) (w.extractLsb' 20 3) (w.extractLsb' 19 1)) := by
    unfold fieldsOf fieldsCommon; rw [hop]; rfl
  rw [key, h0, h1, h2]

theorem brk (st : Bool) (c : BitVec 8) : Statement (.brk st c) := by
  refine ⟨fun k w hk hwf hw => decode_of_fields ?_ hw hwf, fun _ => rfl, fun _ => rfl⟩
  obtain ⟨h0, hop, h1⟩ := format46 (Option.some.inj hw)
  have key : fieldsOf k w = some (.brk (w.getLsbD 31) (w.extractLsb' 15 8)) := by
    unfold fieldsOf fieldsCommon; rw [hop]; rfl
  rw [key, h0, h1]

theorem bndy (st : Bool) : Statement (.bndy st) := by
  refine ⟨fun k w hk hwf hw => decode_of_fields ?_ hw hwf, fun _ => rfl, fun _ => rfl⟩
  obtain ⟨h0, hop⟩ := format8 (Option.some.inj hw)
  have key : fieldsOf k w = some (.bndy (w.getLsbD 31)) := by
    unfold fieldsOf fieldsCommon; rw [hop]; rfl
  rw [key, h0]

theorem resultLand (n : CoreId) : Statement (.resultLand n) := event rfl rfl
theorem loadHoldEnd (n : CoreId) : Statement (.loadHoldEnd n) := event rfl rfl
theorem queueEntryLand (n : CoreId) (q : BitVec 3) (k : Nat) : Statement (.queueEntryLand n q k) := event rfl rfl
theorem strokeRendezvous (n : CoreId) : Statement (.strokeRendezvous n) := event rfl rfl
theorem seatRunOut (n : CoreId) (k : SeatId) : Statement (.seatRunOut n k) := event rfl rfl
theorem operationPerformed (n : CoreId) (id : Nat) : Statement (.operationPerformed n id) := event rfl rfl
theorem homeWrite (w : WriteSrc) : Statement (.homeWrite w) := event rfl rfl
theorem mirrorAck (d : DieId) (sid : Nat) : Statement (.mirrorAck d sid) := event rfl rfl
theorem guardedDeadline (slot : Nat) : Statement (.guardedDeadline slot) := event rfl rfl
theorem slotPoll (w : Waiter) : Statement (.slotPoll w) := event rfl rfl
theorem coxSlotPoll (d : DieId) (e : Nat) : Statement (.coxSlotPoll d e) := event rfl rfl
theorem waitaWake (n : CoreId) : Statement (.waitaWake n) := event rfl rfl
theorem pageWalkStart (d : DieId) : Statement (.pageWalkStart d) := event rfl rfl
theorem pageWalkComplete (d : DieId) (k : Nat) : Statement (.pageWalkComplete d k) := event rfl rfl
theorem copySuspend (n : CoreId) (id : Nat) : Statement (.copySuspend n id) := event rfl rfl
theorem copyComplete (n : CoreId) (id : Nat) : Statement (.copyComplete n id) := event rfl rfl
theorem spillCommandTake (n : CoreId) : Statement (.spillCommandTake n) := event rfl rfl
theorem spillFault (n : CoreId) : Statement (.spillFault n) := event rfl rfl
theorem chainAdvance (n : CoreId) : Statement (.chainAdvance n) := event rfl rfl
theorem spawnPush (n : CoreId) : Statement (.spawnPush n) := event rfl rfl
theorem parkRegister (n : CoreId) : Statement (.parkRegister n) := event rfl rfl
theorem unitPlace (n : CoreId) : Statement (.unitPlace n) := event rfl rfl
theorem unitRetire (n : CoreId) (k : Nat) : Statement (.unitRetire n k) := event rfl rfl
theorem phaseComplete (d : DieId) (phid : Dw) : Statement (.phaseComplete d phid) := event rfl rfl
theorem taskEntryFree (d : DieId) : Statement (.taskEntryFree d) := event rfl rfl
theorem cancelTimeout (n : CoreId) : Statement (.cancelTimeout n) := event rfl rfl
theorem trapEntry (n : CoreId) : Statement (.trapEntry n) := event rfl rfl
theorem masterThaw (m : Master) : Statement (.masterThaw m) := event rfl rfl
theorem masterReset (m : Master) : Statement (.masterReset m) := event rfl rfl
theorem engineFaultTake (n : CoreId) : Statement (.engineFaultTake n) := event rfl rfl
theorem matrixOpStart (n : CoreId) : Statement (.matrixOpStart n) := event rfl rfl
theorem spanToBackBank (n : CoreId) : Statement (.spanToBackBank n) := event rfl rfl
theorem drainEntryPush (n : CoreId) : Statement (.drainEntryPush n) := event rfl rfl
theorem mdrnStart (n : CoreId) : Statement (.mdrnStart n) := event rfl rfl
theorem mzeroComplete (n : CoreId) : Statement (.mzeroComplete n) := event rfl rfl
theorem jointStart (w : CrewId) : Statement (.jointStart w) := event rfl rfl
theorem jointComplete (w : CrewId) : Statement (.jointComplete w) := event rfl rfl
theorem preemptRequest (d : DieId) (part : Fin 32) : Statement (.preemptRequest d part) := event rfl rfl
theorem boundaryStopTimeout (n : CoreId) : Statement (.boundaryStopTimeout n) := event rfl rfl
theorem urgentStopFreeze (n : CoreId) : Statement (.urgentStopFreeze n) := event rfl rfl
theorem contextSave (n : CoreId) : Statement (.contextSave n) := event rfl rfl
theorem contextRestore (n : CoreId) : Statement (.contextRestore n) := event rfl rfl
theorem sliceEnd (w : CrewId) : Statement (.sliceEnd w) := event rfl rfl
theorem sliceSwitch (w : CrewId) : Statement (.sliceSwitch w) := event rfl rfl
theorem ringSegmentLink (n : CoreId) : Statement (.ringSegmentLink n) := event rfl rfl
theorem ringSegmentPoll (k : Nat) : Statement (.ringSegmentPoll k) := event rfl rfl
theorem coxRelease (d : DieId) (e : Nat) : Statement (.coxRelease d e) := event rfl rfl
theorem phaseSkip (d : DieId) (e : Nat) : Statement (.phaseSkip d e) := event rfl rfl
theorem powerEvaluation (d : DieId) (temp : BitVec 8) (above : Bool) : Statement (.powerEvaluation d temp above) := event rfl rfl
theorem powerOn (d : DieId) (r : StartResult) : Statement (.powerOn d r) := event rfl rfl
theorem coldStart (d : DieId) (r : StartResult) : Statement (.coldStart d r) := event rfl rfl
theorem warmStart (d : DieId) (r : StartResult) : Statement (.warmStart d r) := event rfl rfl
theorem startTimeout (d : DieId) : Statement (.startTimeout d) := event rfl rfl
theorem atreq (d : DieId) (buf : Dw) : Statement (.atreq d buf) := event rfl rfl
theorem scrub (d : DieId) : Statement (.scrub d) := event rfl rfl
theorem dataErrorDetected (e : ErrLoc) : Statement (.dataErrorDetected e) := event rfl rfl
theorem ringTake (d : DieId) (r : Fin 64) : Statement (.ringTake d r) := event rfl rfl
theorem ringWatchWake (d : DieId) (r : Fin 64) : Statement (.ringWatchWake d r) := event rfl rfl
theorem rdoor (d : DieId) (x : Door) : Statement (.rdoor d x) := event rfl rfl
theorem ringEnable (d : DieId) (r : Fin 64) (v : Dw) : Statement (.ringEnable d r v) := event rfl rfl
theorem ringDisable (d : DieId) (r : Fin 64) (v : Dw) : Statement (.ringDisable d r v) := event rfl rfl
theorem phase (d : DieId) (cmd : Cmd) : Statement (.phase d cmd) := event rfl rfl
theorem cancel (d : DieId) (cmd : Cmd) : Statement (.cancel d cmd) := event rfl rfl
theorem gload (d : DieId) (cmd : Cmd) : Statement (.gload d cmd) := event rfl rfl
theorem gfree (d : DieId) (cmd : Cmd) : Statement (.gfree d cmd) := event rfl rfl
theorem kload (d : DieId) (cmd : Cmd) : Statement (.kload d cmd) := event rfl rfl
theorem kfree (d : DieId) (cmd : Cmd) : Statement (.kfree d cmd) := event rfl rfl
theorem jobOpen (d : DieId) (cmd : Cmd) : Statement (.jobOpen d cmd) := event rfl rfl
theorem jobClose (d : DieId) (cmd : Cmd) : Statement (.jobClose d cmd) := event rfl rfl
theorem stream (d : DieId) (cmd : Cmd) : Statement (.stream d cmd) := event rfl rfl
theorem badCommand (d : DieId) (cmd : Cmd) : Statement (.badCommand d cmd) := event rfl rfl
theorem reconfigure (d : DieId) (v : Dw) : Statement (.reconfigure d v) := event rfl rfl
theorem reconfigDrainDone  : Statement (.reconfigDrainDone) := event rfl rfl
theorem sessionOpen (d : DieId) (v : Dw) : Statement (.sessionOpen d v) := event rfl rfl
theorem sessionClose (d : DieId) (v : Dw) : Statement (.sessionClose d v) := event rfl rfl
theorem mailboxBadCode (d : DieId) (v : Dw) : Statement (.mailboxBadCode d v) := event rfl rfl
theorem channelSlot (d : DieId) (ch : Fin 112) : Statement (.channelSlot d ch) := event rfl rfl
theorem inboundWrite (d : DieId) (sid : Nat) (idx : Nat) (off : Nat) (bytes : List Byte) : Statement (.inboundWrite d sid idx off bytes) := event rfl rfl
theorem ptpEventMessage (d : DieId) (ppm : Int) (offset : Int) : Statement (.ptpEventMessage d ppm offset) := event rfl rfl
theorem deviceTimeStep (d : DieId) (ns : Dw) : Statement (.deviceTimeStep d ns) := event rfl rfl
theorem heartbeatSend (d : DieId) : Statement (.heartbeatSend d) := event rfl rfl
theorem heartbeatReceive (d : DieId) : Statement (.heartbeatReceive d) := event rfl rfl
theorem peerLossTimeout (d : DieId) : Statement (.peerLossTimeout d) := event rfl rfl
theorem bridgeLinkDown (d : DieId) : Statement (.bridgeLinkDown d) := event rfl rfl
theorem isolateAsserted (d : DieId) : Statement (.isolateAsserted d) := event rfl rfl
theorem streamTakeover (d : DieId) (sid : Nat) : Statement (.streamTakeover d sid) := event rfl rfl
theorem invalPage (n : CoreId) (w : Dw) : Statement (.invalPage n w) := event rfl rfl
theorem invalContext (n : CoreId) (w : Dw) : Statement (.invalContext n w) := event rfl rfl
theorem invalReload (n : CoreId) (w : Dw) : Statement (.invalReload n w) := event rfl rfl
theorem invalComplete (n : CoreId) : Statement (.invalComplete n) := event rfl rfl
theorem cpyres (n : CoreId) (v : Dw) : Statement (.cpyres n v) := event rfl rfl
theorem save (n : CoreId) (v : Dw) : Statement (.save n v) := event rfl rfl
theorem svreq (n : CoreId) (v : Dw) : Statement (.svreq n v) := event rfl rfl
theorem svreqReply (n : CoreId) (v : Dw) : Statement (.svreqReply n v) := event rfl rfl
theorem fdata (n : CoreId) (w : Option Dw) : Statement (.fdata n w) := event rfl rfl
theorem debugStop (n : CoreId) : Statement (.debugStop n) := event rfl rfl
theorem debugResume (n : CoreId) : Statement (.debugResume n) := event rfl rfl
theorem debugStep (n : CoreId) (k : Nat) : Statement (.debugStep n k) := event rfl rfl
theorem clearConflictCells (n : CoreId) : Statement (.clearConflictCells n) := event rfl rfl
theorem clearReplayLog (n : CoreId) : Statement (.clearReplayLog n) := event rfl rfl
theorem stepDone (n : CoreId) : Statement (.stepDone n) := event rfl rfl
theorem stopAt (n : CoreId) : Statement (.stopAt n) := event rfl rfl
theorem breakpointMatch (n : CoreId) (k : SeatId) : Statement (.breakpointMatch n k) := event rfl rfl
theorem dfdata (n : CoreId) (w : Option Dw) : Statement (.dfdata n w) := event rfl rfl
theorem traceEnable (w : CrewId) (v : Dw) : Statement (.traceEnable w v) := event rfl rfl
theorem traceSample (n : CoreId) : Statement (.traceSample n) := event rfl rfl
theorem traceDrain (w : CrewId) : Statement (.traceDrain w) := event rfl rfl
theorem crewPowerGate (w : CrewId) (forced : Bool) : Statement (.crewPowerGate w forced) := event rfl rfl
theorem crewPowerUp (w : CrewId) : Statement (.crewPowerUp w) := event rfl rfl
theorem snapshotGo (d : DieId) (v : Dw) : Statement (.snapshotGo d v) := event rfl rfl
theorem snapshotMarker (d : DieId) (link : Link) (id : Word) : Statement (.snapshotMarker d link id) := event rfl rfl
theorem snmk (d : DieId) (v : Dw) : Statement (.snmk d v) := event rfl rfl
theorem snapshotDump (d : DieId) : Statement (.snapshotDump d) := event rfl rfl
theorem snapshotResume (d : DieId) : Statement (.snapshotResume d) := event rfl rfl
theorem registerWrite (d : DieId) (a : Bar) (w : Option Dw) : Statement (.registerWrite d a w) := event rfl rfl
theorem homeAnswer (n : CoreId) : Statement (.homeAnswer n) := event rfl rfl
theorem groupBoundary (n : CoreId) : Statement (.groupBoundary n) := event rfl rfl
theorem lastsentMirrorWrite (d : DieId) (sid : Nat) (q : Word) : Statement (.lastsentMirrorWrite d sid q) := event rfl rfl
theorem peerStreamCopy (d : DieId) (p : PeerStream) : Statement (.peerStreamCopy d p) := event rfl rfl
theorem unsupportedPacket (d : DieId) : Statement (.unsupportedPacket d) := event rfl rfl
theorem rlrd (n : CoreId) (v : Dw) : Statement (.rlrd n v) := event rfl rfl
theorem trrd (w : CrewId) (v : Dw) : Statement (.trrd w v) := event rfl rfl
theorem clockStop (n : CoreId) : Statement (.clockStop n) := event rfl rfl
theorem clockRestart (n : CoreId) : Statement (.clockRestart n) := event rfl rfl
theorem powerLoss (d : DieId) : Statement (.powerLoss d) := event rfl rfl
theorem functionLevelReset (d : DieId) (fn : Fin 33) : Statement (.functionLevelReset d fn) := event rfl rfl
theorem hostLinkDown (d : DieId) : Statement (.hostLinkDown d) := event rfl rfl
theorem isolateDeasserted (d : DieId) : Statement (.isolateDeasserted d) := event rfl rfl

end Sys2Proof.Laws.DecodesBack
end

