-- ==== Sys2Proof/Laws/Vec.lean ====
section
/-! SUPPORT. The elements of a packed line. -/

namespace Sys2Proof

open Machine

theorem packNat_digit (base : Nat) (hb : 0 < base) (l : List Nat) (e : Nat) : packNat base l / base ^ e % base = l.getD e 0 % base := by
  induction l generalizing e with
  | nil => simp [packNat]
  | cons v r ih =>
    cases e with
    | zero => simp [packNat, Nat.add_mul_mod_self_left]
    | succ e =>
      have : (v % base + base * packNat base r) / base = packNat base r := by
        rw [Nat.add_mul_div_left _ _ hb, Nat.div_eq_of_lt (Nat.mod_lt _ hb), Nat.zero_add]
      rw [packNat, pow_succ', ← Nat.div_div_eq_div_mul, this, ih]
      simp

/-- Element e of a packed line is the e-th value of the list, its low bits. -/
theorem elemOf_packElems (w : Nat) (l : List Nat) (e : Nat) (h : 8 * w * (e + 1) ≤ 8192) :
    elemOf w (packElems w l) e = l.getD e 0 % 2 ^ (8 * w) := by
  unfold elemOf packElems
  rw [BitVec.extractLsb'_toNat, BitVec.toNat_ofNat, Nat.shiftRight_eq_div_pow, ← packNat_digit _ (by positivity) l e, ← pow_mul]
  have h1 : 8192 = 8 * w * e + (8192 - 8 * w * e) := by have : 8 * w * (e + 1) = 8 * w * e + 8 * w := by ring
                                                        omega
  have h2 : 8 * w ≤ 8192 - 8 * w * e := by have : 8 * w * (e + 1) = 8 * w * e + 8 * w := by ring
                                           omega
  generalize packNat (2 ^ (8 * w)) l = x
  rw [h1, pow_add, Nat.mod_mul_right_div_self, Nat.mod_mod_of_dvd _ (pow_dvd_pow 2 h2)]

/-- An element of a line is one of its list. -/
theorem elems_getD (w : Nat) (x : Line) (e : Nat) (h : e < 1024 / w) : (elems w x).getD e 0 = elemOf w x e := by
  unfold elems elemOf
  rw [List.getD_eq_getElem?_getD, List.getElem?_map, List.getElem?_range h]; rfl

theorem elems_length (w : Nat) (x : Line) : (elems w x).length = 1024 / w := by simp [elems]

theorem fits {w e : Nat} (h : e < 1024 / w) : 8 * w * (e + 1) ≤ 8192 := by
  have h1 : w * (e + 1) ≤ w * (1024 / w) := Nat.mul_le_mul_left _ h
  have h2 := Nat.mul_div_le 1024 w
  have : 8 * w * (e + 1) = 8 * (w * (e + 1)) := by ring
  omega

theorem map1_elem (w : Nat) (f : Nat → Nat) (a : Line) (e : Nat) (h : e < 1024 / w) : elemOf w (map1 w f a) e = f (elemOf w a e) % 2 ^ (8 * w) := by
  unfold map1
  rw [elemOf_packElems _ _ _ (fits h), ← elems_getD w a e h]
  rw [List.getD_eq_getElem _ _ (by simpa [elems_length] using h), List.getElem_map, List.getD_eq_getElem _ _ (by simpa [elems_length] using h)]

theorem map2_elem (w : Nat) (f : Nat → Nat → Nat) (a b : Line) (e : Nat) (h : e < 1024 / w) :
    elemOf w (map2 w f a b) e = f (elemOf w a e) (elemOf w b e) % 2 ^ (8 * w) := by
  unfold map2
  rw [elemOf_packElems _ _ _ (fits h), ← elems_getD w a e h, ← elems_getD w b e h]
  rw [List.getD_eq_getElem _ _ (by simpa [elems_length] using h), List.getElem_zipWith, List.getD_eq_getElem _ _ (by simpa [elems_length] using h),
    List.getD_eq_getElem _ _ (by simpa [elems_length] using h)]

theorem map3_elem (w : Nat) (f : Nat → Nat → Nat → Nat) (a b c : Line) (e : Nat) (h : e < 1024 / w) :
    elemOf w (map3 w f a b c) e = f (elemOf w a e) (elemOf w b e) (elemOf w c e) % 2 ^ (8 * w) := by
  unfold map3
  rw [elemOf_packElems _ _ _ (fits h), ← elems_getD w a e h, ← elems_getD w b e h, ← elems_getD w c e h]
  rw [List.getD_eq_getElem _ _ (by simpa [elems_length] using h), List.getElem_zipWith, List.getElem_zipWith,
    List.getD_eq_getElem _ _ (by simpa [elems_length] using h), List.getD_eq_getElem _ _ (by simpa [elems_length] using h),
    List.getD_eq_getElem _ _ (by simpa [elems_length] using h)]

theorem moveLine_elem (w : Nat) (f : Nat → Nat) (e : Nat) (h : e < 1024 / w) : elemOf w (moveLine w f) e = f e % 2 ^ (8 * w) := by
  unfold moveLine
  rw [elemOf_packElems _ _ _ (fits h), List.getD_eq_getElem _ _ (by simpa using h)]
  simp

end Sys2Proof
end

