-- ==== Sys2Proof/Tests/Slice0.lean ====
section
/-! SUPPORT. Tests of the model: ill-formed terms that the check refuses, words of the spec that decode to their instructions, single steps whose results are
worked out by hand from the spec, and for each statement of the obligations states that meet its hypotheses, clause by clause. -/

namespace Sys2Proof.Tests

open Sys2Proof Machine Spec

/-! ## States -/

/-- The start of the scratchpad in the local window. -/
def base : Dw := BitVec.ofNat 64 localBase

/-- Core 0 with a unit of partition 0 and context 0, seat k alone active at the start of its scratchpad, its turn come; f changes the context. -/
def on (k : SeatId) (f : Ctx → Ctx) : State :=
  let s := State.reset.placeWord 0x7C000000
  { s.modCtx 0 (fun c => f { c with seats := (Vector.replicate 4 { Seat.reset with pc := base + 64 }).set k.toFin { Seat.reset with pc := base, act := true } })
    with turn := .seat k }

/-- As `on`, with the core changed by g. -/
def onCore (k : SeatId) (f : Ctx → Ctx) (g : Core → Core) : State := (on k f).modCore 0 g

/-- A step answers a next state. -/
def goesOn (o : Host.Outcome State Fault Refusal) : Bool := match o with | .next _ => true | _ => false

/-- Register i of C or A. -/
def cReg (i : Nat) (v : Dw) (c : Ctx) : Ctx := { c with c := c.c.setIfInBounds i v }
def aReg (i : Nat) (v : Dw) (c : Ctx) : Ctx := { c with a := c.a.setIfInBounds i v }

/-- The seat k changed by f. -/
def seatIs (k : SeatId) (f : Seat → Seat) (c : Ctx) : Ctx := c.modSeat k f

/-- Queue 0 as given. -/
def q0 (q : Queue) (c : Ctx) : Ctx := c.setQueue 0 q

/-- A landed entry that holds v, poisoned or not. -/
def entry (v : Line) (p : Option Dw) : QEntry := { ticket := 0, landed := true, data := v, poison := p }

/-- A load queue and a store queue of 32-bit elements with the given entries. -/
def loadQ (es : List QEntry) : Queue := { dir := 1, esz := 3, pat := false, ents := es }
def storeQ (es : List QEntry) : Queue := { dir := 2, esz := 3, pat := false, ents := es }

/-- A running loop on l0 of two words and three iterations, at its first word. -/
def loop0 : Loop :=
  { reg := 0, len := 2, stage := 0, ms := 0, head := base - 4, trip := 3, step := 0, pos := 0, b0 := 0, base := 0, group := false, lsq := false,
    lepi := false, lmid := false, i0 := 0, dith := false }

/-- The handler of a trap taken on core 0; sup says which one. -/
def handler0 (sup : Bool) : Handler :=
  { sup := sup, cause := .software, tpc := 0, tval := 0, tseat := .c, orig := .software, dcode := 0, esc := false, saved := Ctx.reset,
    writes := [], saveWritten := false, efinfo := 0, bad := false, req := none }

/-- Die Bow started, as f makes it. -/
def started0 (s : State) (f : Die → Die) : State := s.modDie .bow fun d => f { d with start := .running }

/-! ## Ill-formed terms (R115, R131) -/

theorem test_wf_loop_register : (Instr.lset false 8 0 0).wf = false := rfl
theorem test_wf_queue : (Instr.ldv false 8 0 0 0 0).wf = false := rfl
theorem test_wf_generator : (Instr.qpat false 0 0 0 0 4).wf = false := rfl
theorem test_wf_amo_fn : (Instr.amoadd false 0 0 0 0 0 2).wf = false := rfl
theorem test_wf_level : (Instr.cncl false 0 0 7).wf = false := rfl
theorem test_wf_tpost_zero : (Instr.tpost false 0 0).wf = false := rfl
theorem test_wf_twait_zero : (Instr.twait false 0 0).wf = false := rfl
theorem test_wf_loop_stage : (Instr.mloop false 0 0 2 1).wf = false := rfl
theorem test_wf_predicate : (Instr.pand false 8 0 0).wf = false := rfl
theorem test_wf_vector_operand : (Instr.vadd false 0 0 0x28 0 0).wf = false := rfl
theorem test_wf_vector_destination : (Instr.vadd false 0x30 0 0 0 0).wf = false := rfl
theorem test_wf_type : (Instr.vand false 0 0 0 0 0).wf = false := rfl
theorem test_wf_mcast : (Instr.qmc false 0 0 0 0 0).wf = false := rfl

/-! ## Words of the spec and what they stand for (one or more of every family) -/

theorem test_decode_c :
    decode .c 0x008C8500 = .ok (.add false 3 4 5) ∧ decode .c 0x101891A3 = .ok (.lui false 6 37283) ∧
    decode .c 0x0C18D678 = .ok (.addi false 6 6 0x1678) ∧ decode .c 0x148C1FFA = .ok (.bne false 3 0 0x1FFA) ∧
    decode .c 0x1C010000 = .ok (.lset false 0 8 0) ∧ decode .c 0x1D012A01 = .ok (.park false 9 10 1) ∧
    decode .c 0x1E010003 = .ok (.cncl false 8 0 3) ∧ decode .c 0x22300000 = .ok (.time false 12) ∧
    decode .c 0x22800075 = .ok (.scope false 29 1) ∧ decode .c 0x20812109 = .ok (.sysw false 9 265) ∧
    decode .c 0x2028010A = .ok (.sysr false 10 266) ∧ decode .c 0x21800000 = .ok (.rft false) := by
  refine ⟨?_, ?_, ?_, ?_, ?_, ?_, ?_, ?_, ?_, ?_, ?_, ?_⟩ <;> rfl

theorem test_decode_a :
    decode .a 0x04108040 = .ok (.aaddi false 4 4 64) ∧ decode .a 0x088C1FFC = .ok (.abne false 3 0 0x1FFC) ∧
    decode .a 0x12148883 = .ok (.ldw false 5 4 1 1 3) ∧ decode .a 0x155D3008 = .ok (.std false 23 9 2 0 8) ∧
    decode .a 0x1588C001 = .ok (.ldv false 2 6 0 0 1) ∧ decode .a 0x16114800 = .ok (.stv false 4 10 1 0 0) ∧
    decode .a 0x1800000D = .ok (.qbind false 0 3 1) ∧ decode .a 0x18855884 = .ok (.qpat false 1 10 3 1 1) ∧
    decode .a 0x1C18901D = .ok (.amoadd false 6 4 2 0 7 1) ∧ decode .a 0x201D2000 = .ok (.aset false 7 9 0 0) ∧
    decode .a 0x21C10000 = .ok (.aread false 16 8 0 0 0) ∧ decode .a 0x220128A8 = .ok (.acred false 9 1 1 10) := by
  refine ⟨?_, ?_, ?_, ?_, ?_, ?_, ?_, ?_, ?_, ?_, ?_, ?_⟩ <;> rfl

theorem test_decode_a_engines :
    decode .a 0x24017000 = .ok (.cpy false 11 2 0 0) ∧ decode .a 0x24814400 = .ok (.gath false 10 0 8 0) ∧
    decode .a 0x28818000 = .ok (.chkck false 12 0 0 0) ∧ decode .a 0x2C31A000 = .ok (.rgres false 12 13 0 0) ∧
    decode .a 0x2D15A000 = .ok (.rgpop false 5 13 0 0 0) ∧ decode .a 0x3001C000 = .ok (.waita false 14 0 0 0) ∧
    decode .a 0x21012000 = .ok (.await false 0 9 0 0 0) ∧ decode .a 0x20812000 = .ok (.afree false 9 0 0 0) := by
  refine ⟨?_, ?_, ?_, ?_, ?_, ?_, ?_, ?_⟩ <;> rfl

theorem test_decode_v :
    decode .v 0x00820C01 = .ok (.vadd false 1 1 32 0 1) ∧ decode .v 0x0321012C = .ok (.vscac false 16 32 9 3 0) ∧
    decode .v 0x09021E83 = .ok (.vcmplt false 1 3 0x34 0 3) ∧ decode .v 0x11881800 = .ok (.pcnt false 4 3) ∧
    decode .v 0x14061860 = .ok (.vcvt false 3 3 3 0 0) ∧ decode .v 0x180B00E0 = .ok (.vrsum false 5 32 7 0 0) ∧
    decode .v 0x1A061900 = .ok (.vscan false 3 3 8 0 0) ∧ decode .v 0x190E20A7 = .ok (.vperm false 7 4 5 1 3) ∧
    decode .v 0x1D063F00 = .ok (.vmoviF32 false 3 0 0x3F00) ∧ decode .v 0x243307FF = .ok (.xadd false 6 6 0 0x7FF) ∧
    decode .v 0x28AFFFF8 = .ok (.vbnz false 5 0x7FFF8) ∧ decode .v 0x2C02A448 = .ok (.vsweep false 1 20 34 2 0) ∧
    decode .v 0x322CA2A0 = .ok (.vcat false 22 20 21 0 0) ∧ decode .v 0x068A2000 = .ok (.vexp2 false 5 4 0 0) := by
  refine ⟨?_, ?_, ?_, ?_, ?_, ?_, ?_, ?_, ?_, ?_, ?_, ?_, ?_, ?_⟩ <;> rfl

theorem test_decode_m_and_common :
    decode .m 0x80C0640F = .ok (.mma true 4 0 1 18 15) ∧ decode .m 0x8140407F = .ok (.mmaj true 4 0 1 0 127) ∧
    decode .m 0x01D00000 = .ok (.mdrn false 5) ∧ decode .m 0x02000000 = .ok (.mzero false) ∧
    decode .m 0x04008000 = .ok (.ftset false 1 0) ∧ decode .m 0x08114240 = .ok (.madd false 2 2 0x4240) ∧
    decode .m 0x0D11FFFD = .ok (.mblt false 2 3 0x7FFD) ∧ decode .m 0x7C000000 = .ok (.nop false) ∧
    decode .v 0x7D081000 = .ok (.tpost false 1 2) ∧ decode .a 0x7D800800 = .ok (.twait false 0 1) ∧
    decode .c 0xFC81C900 = .ok (.mloop true 0 7 1 1) := by
  refine ⟨?_, ?_, ?_, ?_, ?_, ?_, ?_, ?_, ?_, ?_, ?_⟩ <;> rfl

/-- An opcode byte that is assigned in no seat, and a reserved field set, decode to nothing (R115). -/
theorem test_decode_refuses : decode .c 0 = .error .unassigned ∧ decode .c 0x008C8501 = .error .reservedField ∧ decode .c 0x1C210000 = .error .badField := by
  refine ⟨?_, ?_, ?_⟩ <;> rfl

/-! ## Witnesses: encoding and the machine -/

set_option maxRecDepth 20000 in
theorem witness_DecodeEncode : (Instr.add true 31 0 31).inSeat .c ∧ (Instr.add true 31 0 31).wf = true ∧
    encode (.add true 31 0 31) = some 0x80FC1F00 := ⟨.inl rfl, rfl, rfl⟩
set_option maxRecDepth 20000 in
theorem witness_DecodeEncode_common : (Instr.nop false).inSeat .m ∧ (Instr.nop false).wf = true ∧ encode (.nop false) = some 0x7C000000 :=
  ⟨.inr rfl, rfl, rfl⟩
set_option maxRecDepth 20000 in
theorem witness_EncodeDecode : decode .v 0x2D800003 = .ok (.vdph false 3) := rfl

set_option maxRecDepth 20000 in
/-- ADD c3, c4, c5 as the first instruction: its turn has come, it is fetched, and it decodes. -/
theorem witness_StepRunsDecoded :
    let s := State.reset.withFetchWord 32 0x008C8500
    turnOf s .c ∧ s.canIssue .c = true ∧ ((here s).seat .c).body = none ∧ s.fetch s.cur .c = .word 0x008C8500 ∧
    decode .c 0x008C8500 = .ok (.add false 3 4 5) := by
  refine ⟨⟨rfl, fun _ => ⟨rfl, ?_⟩⟩, rfl, rfl, ?_, rfl⟩ <;> decide
set_option maxRecDepth 20000 in
theorem witness_StepRunsDecoded_body : loop0.issues = true ∧ (on .c (seatIs .c fun t => { t with loop := some loop0 })).canIssue .c = true := by decide
set_option maxRecDepth 20000 in
theorem witness_StepRunsDecoded_fetch :
    let s := on .c id
    let pc := ((s.coreAt 0).ctx.seat .c).pc
    pc.toNat % 4 = 0 ∧ (s.section_ 0 .c).base.toNat ≤ pc.toNat ∧ pc.toNat < (s.section_ 0 .c).base.toNat + 4 * (s.section_ 0 .c).words ∧
    translate s 0 (s.ctxOn 0) (s.partOn 0) (.fetch .c) false needRd false pc 4 = .ok (padBase 0) ∧ padBase 0 < 2 ^ 80 ∧
    ((onCore .c id fun c => { c with handler := some (handler0 true) }).coreAt 0).handler = some (handler0 true) := ⟨by decide, by decide, by decide, by decide, by decide, rfl⟩

set_option maxRecDepth 20000 in
theorem witness_WordChecks_undefined : (Instr.lset false 8 0 0).inSeat .c ∧ (on .c id).canIssue .c = true ∧ (Instr.lset false 8 0 0).wf = false ∧ stroke (.lset false 8 0 0) = false ∧ (Instr.lset true 8 0 0).wf = false ∧ stroke (.lset true 8 0 0) = true ∧
    (here (on .c id)).actives = [.c] := ⟨.inl rfl, rfl, rfl, rfl, rfl, rfl, rfl⟩
set_option maxRecDepth 20000 in
theorem witness_WordChecks_here :
    let s := onCore .c id fun c => { c with handler := some (handler0 false) }
    s.canIssue .c = true ∧ (Instr.park false 9 10 0).wf = true ∧ undefinedHere s (.park false 9 10 0) ∧ undefinedHere s (.sysr true 3 17) ∧
    undefinedHere s (.sysw false 0 0) ∧ ¬undefinedHere s (.add false 3 4 5) := ⟨rfl, rfl, rfl, .inl (by decide), .inl (by decide), id⟩
set_option maxRecDepth 20000 in
theorem witness_WordChecks_slot :
    let s := on .c (seatIs .c fun t => { t with dslots := 1 })
    s.canIssue .c = true ∧ ((here s).seat .c).dslots ≠ 0 ∧ isTransfer (.beq false 0 0 0) = true ∧ stroke (.beq false 0 0 0) = false ∧
    stroke (.add true 0 0 0) = true ∧ (here s).actives = [.c] := by decide
set_option maxRecDepth 20000 in
theorem witness_WordChecks_body :
    let s := on .c (seatIs .c fun t => { t with loop := some loop0 })
    s.canIssue .c = true ∧ ((here s).seat .c).dslots = 0 ∧ ((here s).seat .c).body.isSome = true ∧ isTransfer (.jmp false 0) = true := by decide
set_option maxRecDepth 20000 in
theorem witness_WordChecks_alone :
    let s := on .c id
    s.canIssue .c = true ∧ ((here s).seat .c).dslots = 0 ∧ ((here s).seat .c).body = none ∧ stroke (.add true 0 0 0) = true ∧ (here s).actives = [.c] := by
  decide
set_option maxRecDepth 20000 in
theorem witness_WordChecks_handler :
    let s := onCore .c id fun c => { c with handler := some (handler0 true) }
    s.canIssue .c = true ∧ stroke (.nop true) = true ∧ (s.coreAt s.cur).handler.isSome = true := by decide
set_option maxRecDepth 20000 in
theorem witness_WordChecks_partners :
    let s := on .c (seatIs .a fun t => { t with act := true })
    s.canIssue .c = true ∧ stroke (.nop true) = true ∧ stroke (.lset true 8 0 0) = true ∧ (Instr.lset true 8 0 0).wf = false ∧ ((here s).seat .c).body = none ∧
    ¬((s.coreAt s.cur).handler.isSome = true ∨ (here s).actives = [.c]) := by decide

set_option maxRecDepth 20000 in
theorem witness_RegisterReads : (here (on .c id)).inWindow (.c 1) = false ∧ (here (on .a id)).inWindow (.a 23) = false ∧
    (here (on .v id)).inWindow (.x 15) = false ∧ (here (on .m id)).inWindow (.m 15) = false ∧ (here (on .v id)).inWindow (.p 7) = false ∧
    (here (on .v id)).inWindow (.v 23) = false := by decide
set_option maxRecDepth 20000 in
theorem witness_RegisterReads_rotating : (24 : Nat) ≤ (24 : BitVec 5).toNat ∧
    (((29 : BitVec 5).toNat : Int) = 24 + (((24 : BitVec 5).toNat : Int) - 24 - ((here (on .a (seatIs .a fun t => { t with rb := 3 }))).seat .a).rb.toNat) % 8) ∧
    (here (on .a (seatIs .a fun t => { t with rb := 3 }))).inWindow (.a 29) = false := by decide
set_option maxRecDepth 20000 in
theorem witness_RegisterReads_vector :
    (((31 : BitVec 5).toNat : Int) = 24 + (((31 : BitVec 5).toNat : Int) - 24 - ((here (on .v id)).seat .v).rb.toNat) % 8) ∧
    (here (on .v id)).inWindow (.v 31) = false := by decide

/-- A result of clock 0 for c3. -/
def result0 : InFlight :=
  { seat := .c, dest := .c 3, val := 7, en := 0, rem := 0, ready := true, op := 0, ext := false, poison := none, err := none }
set_option maxRecDepth 20000 in
theorem witness_ResultLands :
    let s := on .c fun c => { c with inflight := [result0] }
    s.atStart 0 = true ∧ s.advancing 0 = true ∧ s.playing 0 = false ∧
    (s.coreAt 0).ctx.inflight.find? (s.coreAt 0).ctx.landable = some result0 ∧ result0.err = none ∧ result0.ext = false := by
  refine ⟨rfl, rfl, rfl, ?_, rfl, rfl⟩
  exact List.find?_cons_of_pos (a := result0) (l := []) (show ((on .c fun c => { c with inflight := [result0] }).coreAt 0).ctx.landable result0 = true from rfl)
set_option maxRecDepth 20000 in
/-- A load's result on a core that records, and a result that brings a trap. -/
theorem witness_ResultLands_outside :
    let q : SeatCause := { cause := .data, tval := base, tpc := base, issued := true }
    let r : InFlight := { result0 with seat := .a, dest := .a 3, ext := true }
    let b : InFlight := { r with err := some q }
    let s (r : InFlight) : State := onCore .c (fun c => { c with inflight := [r] }) fun c => { c with dbg := { c.dbg with dcfg := 2 } }
    (s r).atStart 0 = true ∧ (s r).advancing 0 = true ∧ (s r).playing 0 = false ∧ ((s r).coreAt 0).ctx.inflight.find? ((s r).coreAt 0).ctx.landable = some r ∧
    r.ext = true ∧ ((s r).coreAt 0).dbg.rec_ = true ∧ (s b).advancing 0 = true ∧
    ((s b).coreAt 0).ctx.inflight.find? ((s b).coreAt 0).ctx.landable = some b ∧ b.err = some q := by
  refine ⟨rfl, rfl, rfl, ?_, rfl, rfl, rfl, ?_, rfl⟩
  · apply List.find?_cons_of_pos; rfl
  · apply List.find?_cons_of_pos; rfl

set_option maxRecDepth 20000 in
theorem witness_StepKeepsMemory : MemInv (State.reset.withFetchWord 32 0x008C8500) ∧
    goesOn (step (State.reset.withFetchWord 32 0x008C8500)) = true := ⟨by unfold MemInv; decide, by decide⟩

set_option maxRecDepth 20000 in
theorem witness_ClockEnds :
    let s := { onCore .c (fun c => { c with inflight := [{ result0 with rem := 2 }] }) (fun c => { c with pend := [.post 3 5, .flag 1 false, .post 3 6, .flag 1 true, .scope 2 7, .bind 0 1 3] }) with turn := .finish }
    s.turn = .finish ∧ (s.coreAt s.cur).ended = false ∧ s.running s.cur = true ∧ (s.coreAt s.cur).why = [] ∧
    (s.coreAt s.cur).dbg.rlq = [] ∧ (∀ p ∈ (s.coreAt s.cur).pend, p ≠ .boundary ∧ p ≠ .lost ∧ ∀ a b, p ≠ .leave a b) ∧
    lastOf (s.coreAt s.cur).pend (fun p => match p with | .flag g v => if g = 1 then some v else none | _ => none) = some true ∧
    lastOf (s.coreAt s.cur).pend (boundTo 0) = some (1, 3) ∧ (s.coreAt s.cur).postsTo 3 = 11 ∧ s.playing s.cur = false := by
  refine ⟨rfl, rfl, rfl, rfl, rfl, fun p hp => ?_, rfl, rfl, rfl, rfl⟩
  have hp : p ∈ [Pending.post 3 5, .flag 1 false, .post 3 6, .flag 1 true, .scope 2 7, .bind 0 1 3] := hp
  simp only [List.mem_cons, List.not_mem_nil, or_false] at hp
  rcases hp with rfl | rfl | rfl | rfl | rfl | rfl <;> exact ⟨nofun, nofun, fun _ _ h => by cases h⟩

/-! ## Witnesses: the C seat -/

set_option maxRecDepth 20000 in
theorem witness_CScalarResult : (∃ v, cScalar (on .c id) (.add false 3 4 5) = some (false, 3, v, 1)) ∧ Issues (on .c id) .c false (.add false 3 4 5) :=
  ⟨⟨_, rfl⟩, rfl, rfl⟩
set_option maxRecDepth 20000 in
theorem witness_CScalarResult_fn : 1 ≤ ((0x008C8501 : Word).extractLsb' 23 8).toNat ∧ ((0x008C8501 : Word).extractLsb' 23 8).toNat ≤ 18 ∧
    (0x008C8501 : Word).extractLsb' 0 8 ≠ 0 := by decide
set_option maxRecDepth 20000 in
theorem witness_CDivCorners_zero : Issues (on .c id) .c false (.div false 3 4 5) ∧ Issues (on .c id) .c false (.divu false 3 4 5) ∧
    Issues (on .c id) .c false (.rem false 3 4 5) ∧ (on .c id).rdC 1 5 = 0 := ⟨⟨rfl, rfl⟩, ⟨rfl, rfl⟩, ⟨rfl, rfl⟩, rfl⟩
set_option maxRecDepth 20000 in
theorem witness_CDivCorners_min :
    let s := on .c (cReg 4 (BitVec.intMin 64) ∘ cReg 5 (-1))
    Issues s .c false (.div false 3 4 5) ∧ Issues s .c false (.rem false 3 4 5) ∧ s.rdC 0 4 = BitVec.intMin 64 ∧ (s.rdC 1 5).toInt = -1 := by
  exact ⟨⟨rfl, rfl⟩, ⟨rfl, rfl⟩, rfl, rfl⟩
set_option maxRecDepth 20000 in
theorem witness_CDivCorners_ordinary :
    let s := on .c (cReg 4 (-7) ∘ cReg 5 2)
    Issues s .c false (.div false 3 4 5) ∧ s.rdC 1 5 ≠ 0 ∧ ¬(s.rdC 0 4 = BitVec.intMin 64 ∧ (s.rdC 1 5).toInt = -1) := by
  refine ⟨⟨rfl, rfl⟩, ?_, ?_⟩ <;> decide
set_option maxRecDepth 20000 in
theorem witness_CBranchGoes : (∃ tk tg, cBranch (on .c id) (.beq false 1 2 8) = some (false, tk, tg)) ∧ Issues (on .c id) .c false (.beq false 1 2 8) ∧
    Issues (on .c id) .c false (.jal false 8) := ⟨⟨_, _, rfl⟩, ⟨rfl, rfl⟩, ⟨rfl, rfl⟩⟩
set_option maxRecDepth 20000 in
theorem witness_LsetWrites :
    Issues (on .c (cReg 8 (-1))) .c false (.lset false 0 8 0) ∧ (wrap (((on .c (cReg 8 (-1))).rdC 0 8).toInt + (0 : BitVec 13).toInt)).toInt < 0 ∧
    4294967295 < (wrap (((on .c (cReg 8 4294967295)).rdC 0 8).toInt + (1 : BitVec 13).toInt)).toInt ∧
    Issues (on .c (cReg 8 4294967295)) .c false (.lset false 7 8 0) ∧
    (wrap (((on .c (cReg 8 4294967295)).rdC 0 8).toInt + (0 : BitVec 13).toInt)).toInt = 4294967295 ∧
    ((on .c (cReg 8 4294967295)).coreAt 0).loopOn 7 = false := ⟨⟨rfl, rfl⟩, by decide, by decide, ⟨rfl, rfl⟩, by decide, by decide⟩
set_option maxRecDepth 20000 in
theorem witness_LsetWrites_busy :
    let s := on .c (seatIs .a fun t => { t with act := true, loop := some loop0 })
    Issues s .c false (.lset false 0 8 0) ∧ (s.coreAt s.cur).loopOn 0 = true ∧ (wrap ((s.rdC 0 8).toInt + (0 : BitVec 13).toInt)).toInt = 0 :=
  ⟨⟨rfl, rfl⟩, by decide, by decide⟩
set_option maxRecDepth 20000 in
theorem witness_UnitWords :
    Issues (on .c id) .c false (.spawn false 4) ∧ Issues (on .c id) .c false (.exit false) ∧ ((on .c id).coreAt 0).handler = none ∧
    ((on .c id).coreAt 0).unit.isSome = true := ⟨⟨rfl, rfl⟩, ⟨rfl, rfl⟩, rfl, rfl⟩
set_option maxRecDepth 20000 in
theorem witness_UnitWords_park :
    Issues (on .c (cReg 10 1)) .c false (.park false 9 10 1) ∧ (((on .c (cReg 10 1)).rdC 1 10).extractLsb' 0 32).getLsbD 0 = true ∧
    16 < ((List.range 32).filter fun i => (((on .c (cReg 10 0x3FFFE)).rdC 1 10).extractLsb' 0 32).getLsbD i).length ∧
    ¬(16 < ((List.range 32).filter fun i => (((on .c (cReg 10 0x1FFFE)).rdC 1 10).extractLsb' 0 32).getLsbD i).length ∨
      (((on .c (cReg 10 0x1FFFE)).rdC 1 10).extractLsb' 0 32).getLsbD 0 = true) ∧
    (((on .c (cReg 10 0x1FFFE)).coreAt 0).unit.map fun u => u.crew) = some false := ⟨⟨rfl, rfl⟩, by decide, by decide, by decide, rfl⟩
set_option maxRecDepth 20000 in
theorem witness_UnitWords_crew :
    let s := onCore .c (cReg 10 2) fun c => { c with unit := c.unit.map fun u => { u with crew := true } }
    Issues s .c false (.park false 9 10 1) ∧ ((s.coreAt 0).unit.map fun u => u.crew) = some true ∧ (s.coreAt 0).handler = none := ⟨⟨rfl, rfl⟩, rfl, rfl⟩
set_option maxRecDepth 20000 in
theorem witness_UnitWords_handler :
    let s := onCore .c id fun c => { c with handler := some (handler0 true) }
    let t := onCore .c id fun c => { c with handler := some (handler0 false) }
    Issues s .c false (.exit false) ∧ Issues t .c false (.exit false) ∧ Issues t .c false (.spawn false 4) ∧ Issues t .c false (.park false 9 10 0) ∧
    (s.coreAt s.cur).handler = some (handler0 true) ∧ (t.coreAt t.cur).handler = some (handler0 false) :=
  ⟨⟨rfl, rfl⟩, ⟨rfl, rfl⟩, ⟨rfl, rfl⟩, ⟨rfl, rfl⟩, rfl, rfl⟩
/-- A command of a type. -/
def cmd0 (typ : Nat) (f : Cmd → Cmd) : Cmd :=
  f { typ := typ, len := 112, resv := false, tag := 0, crec := 0, sigaddr := 0, sigval := 0, sigk := 0, w0 := 0, w1 := 0, w2 := 0, w3 := 0, ring := 0, ctx := 0,
      part := 0, fn := 0 }
/-- A phase of die Bow with one waiting node. -/
def phase0 : Phase :=
  { phid := 1, jid := 4, graph := 2, nodes := [{ kdesc := 0x1000, argb := 0, units := 1, npred := 0, succ := [] }], prio := 3, ctx := 0, part := 0, dline := 0,
    hasdl := false, level := 0, stream := none, cmd := cmd0 1 id, tstart := 0, status := 0, cancelled := false, rejected := false, faults := 0, urun := 0, ucan := 0, pushed := 0,
    pushedDone := 0, alive := 1, cnt := [0], nst := [.queued], acq := [], nacq := [] }
/-- The open job 4 of partition 0. -/
def job0 : Job := { jid := 4, part := 0, isOpen := true, total := 1, done := 0 }
set_option maxRecDepth 20000 in
theorem witness_SystemWords :
    Issues (on .c id) .c false (.cncl false 8 0 4) ∧ Issues (on .c id) .c false (.crd false 3 8 0 0) ∧ Issues (on .c id) .c false (.time false 12) ∧
    Issues (on .c id) .c false (.scope false 29 1) ∧ Issues (on .c id) .c false (.trap false 5) :=
  ⟨⟨rfl, rfl⟩, ⟨rfl, rfl⟩, ⟨rfl, rfl⟩, ⟨rfl, rfl⟩, rfl, rfl⟩
/-- A question of core 0. -/
def ask0 (l : Nat) (a : Dw) : CrdAsk := { op := 9, level := l, a := a, b := 0, part := 0 }
/-- The die that core 0 is on with phase 1, its launch 1 and job 4; core 0 has a question. -/
def counting (l : Nat) (a : Dw) : State :=
  (onCore .c (cReg 8 a) fun c => { c with crds := [ask0 l a], unit := c.unit.map fun u => { u with phid := 1 } }).modDie .bow fun d =>
    { d with phases := [phase0], jobs := [job0], launches := [{ lid := 1, phid := 1, total := 3, done := 2, node := some 0, uidx := 0 }] }
set_option maxRecDepth 20000 in
theorem witness_SystemWords_cancel :
    Issues (counting 1 1) .c false (.cncl false 8 0 3) ∧ ((counting 1 1).die (dieOf (counting 1 1).cur)).phase? ((counting 1 1).rdC 0 8) = some phase0 ∧
    phase0.part = (counting 1 1).partOn (counting 1 1).cur ∧ (((counting 1 1).coreAt 0).unit.map fun u => u.phid) = some 1 ∧
    (∀ p ∈ ((counting 1 9).die .bow).phases, p.rejected = false) ∧ ((counting 1 9).die .bow).phase? ((counting 1 9).rdC 0 8) = none ∧
    Issues (counting 1 9) .c false (.cncl false 8 0 3) := ⟨⟨rfl, rfl⟩, by decide, rfl, rfl, by decide, by decide, rfl, rfl⟩
set_option maxRecDepth 20000 in
theorem witness_SystemWords_play :
    let s := onCore .c id fun c => { c with dbg := { c.dbg with dcfg := 7 } }
    s.playing s.cur = true ∧ Issues s .c false (.crd false 3 8 0 0) ∧ (on .c id).playing 0 = false := ⟨by decide, ⟨rfl, rfl⟩, rfl⟩
set_option maxRecDepth 20000 in
theorem witness_SystemWords_counts :
    (∀ l a, asked (counting l a) 0 (ask0 l a)) ∧
    (((counting 1 1).die (dieOf 0)).launches.find? fun l => decide (l.lid = (ask0 1 1).a.setWidth 32)) =
      some { lid := 1, phid := 1, total := 3, done := 2, node := some 0, uidx := 0 } ∧
    ((counting 3 1).die (dieOf 0)).phase? (ask0 3 1).a = some phase0 ∧ phase0.part = (ask0 3 1).part ∧
    (((counting 4 4).die (dieOf 0)).jobs.find? fun j => decide (j.jid = (ask0 4 4).a.setWidth 32) && decide (j.part = (ask0 4 4).part)) = some job0 ∧
    (((counting 1 9).die (dieOf 0)).launches.find? fun l => decide (l.lid = (ask0 1 9).a.setWidth 32)) = none ∧
    ((counting 3 9).die (dieOf 0)).phase? (ask0 3 9).a = none ∧ (∀ j ∈ ((counting 4 9).die (dieOf 0)).jobs, j.jid ≠ (ask0 4 9).a.setWidth 32) := by
  refine ⟨fun l a => ⟨rfl, rfl, ?_⟩, ?_, ?_, rfl, ?_, ?_, ?_, ?_⟩
  · exact List.find?_cons_of_pos (by simp)
  all_goals decide
/-- The supervisor's handler, and the user's, on core 0. -/
def inHandler (sup : Bool) : State := onCore .c id fun c => { c with handler := some (handler0 sup) }
set_option maxRecDepth 20000 in
theorem witness_SystemRegisters_read :
    (∃ u, ((on .c id).coreAt 0).unit = some u ∧ (sysUser (on .c id) u 0).isSome ∧ (sysUser (on .c id) u 16).isSome) ∧
    (∃ u, ((inHandler true).coreAt 0).unit = some u ∧ (sysSup (inHandler true) u (handler0 true) 256).isSome ∧
      (sysSup (inHandler true) u (handler0 true) 266).isSome) ∧
    Issues (on .c id) .c false (.sysr false 3 256) ∧ Issues (inHandler true) .c false (.sysr false 3 266) := by
  refine ⟨⟨_, rfl, rfl, rfl⟩, ⟨_, rfl, rfl, rfl⟩, ⟨rfl, rfl⟩, rfl, rfl⟩
set_option maxRecDepth 20000 in
theorem witness_SystemRegisters_edges :
    256 ≤ (256 : BitVec 13).toNat ∧ (1023 : BitVec 13).toNat ≤ 1023 ∧ 266 < (267 : BitVec 13).toNat ∧ 16 < (17 : BitVec 13).toNat ∧
    (17 : BitVec 13).toNat < 256 ∧ 1023 < (1024 : BitVec 13).toNat ∧ ¬inSup (on .c id) ∧ inSup (inHandler true) ∧
    Issues (on .c id) .c false (.sysr false 3 17) ∧ Issues (on .c id) .c false (.sysr false 3 1024) ∧ Issues (on .c id) .c false (.sysr false 3 1023) ∧
    Issues (inHandler true) .c false (.sysr false 3 267) := by
  refine ⟨by decide, by decide, by decide, by decide, by decide, by decide, ?_, ⟨_, rfl, rfl⟩, ⟨rfl, rfl⟩, ⟨rfl, rfl⟩, ⟨rfl, rfl⟩, rfl, rfl⟩
  rintro ⟨h, hh, _⟩; exact absurd hh (by intro h; cases h)
set_option maxRecDepth 20000 in
/-- SYSR of FDATA in the supervisor handler, within the shadow and beyond its last index. -/
theorem witness_SystemRegisters_fdata :
    Issues (inHandler true) .c false (.sysr false 3 259) ∧ (handler0 true).sup = true ∧ ((inHandler true).coreAt 0).fidx ≤ 4095 ∧
    4095 < ((onCore .c id fun c => { c with handler := some (handler0 true), fidx := 4096 }).coreAt 0).fidx := by
  refine ⟨⟨rfl, rfl⟩, rfl, ?_, ?_⟩ <;> decide
set_option maxRecDepth 20000 in
theorem witness_SystemRegisters_write :
    Issues (on .c id) .c false (.sysw false 9 12) ∧ Issues (on .c id) .c false (.sysw false 9 256) ∧ Issues (on .c id) .c false (.sysw false 9 1023) ∧
    Issues (inHandler true) .c false (.sysw false 9 258) ∧ Issues (inHandler true) .c false (.sysw false 9 265) ∧
    Issues (inHandler true) .c false (.sysw false 9 262) ∧ Issues (on .c id) .c false (.sysw false 9 1024) ∧ Issues (on .c id) .c false (.sysw false 9 0) :=
  ⟨⟨rfl, rfl⟩, ⟨rfl, rfl⟩, ⟨rfl, rfl⟩, ⟨rfl, rfl⟩, ⟨rfl, rfl⟩, ⟨rfl, rfl⟩, ⟨rfl, rfl⟩, rfl, rfl⟩
set_option maxRecDepth 20000 in
theorem witness_SystemRegisters_values :
    let s (v : Dw) : State := onCore .c (cReg 9 v) fun c => { c with handler := some (handler0 true) }
    ((s 4095).rdC 0 9).toNat ≤ 4095 ∧ 4095 < ((s 4096).rdC 0 9).toNat ∧ ((s 29439).rdC 0 9).toNat ≤ 29439 ∧
    ((s 0x1001).rdC 0 9).extractLsb' 0 2 ≠ 3 ∧ ((s 0x1001).rdC 0 9).extractLsb' 2 10 = 0 ∧ ((s 0x1001).rdC 0 9).extractLsb' 57 7 = 0 ∧
    ((s 3).rdC 0 9).extractLsb' 0 2 = 3 ∧ ((s 4).rdC 0 9).extractLsb' 2 10 ≠ 0 ∧ ((s 0x0200000000000000).rdC 0 9).extractLsb' 57 7 ≠ 0 ∧
    (inHandler true).svcRingOk 0 = false := by decide

/-! ## Witnesses: the A seat -/

/-- A ring header: widx, slots, lsize, slot size, cursors, consumers. -/
def header (widx slots lsize ssz curs ncons : Nat) : Nat :=
  widx + slots * 2 ^ 64 + lsize * 2 ^ 128 + ssz * 2 ^ 136 + curs * 2 ^ 152 + ncons * 2 ^ 216

/-- The state with n bytes of v from pa on. -/
def put (pa n v : Nat) (s : State) : State := { s with mem := memWriteBytes s.mem pa (leBytes v n) }

/-- A live slot of the pool granules that nobody waits at, with a region of 128 bytes. -/
def slot0 (pa rbase : Nat) : Slot :=
  { pa := pa, expect := 128, arrived := 0, waiters := [], region := 0, tag := 0, kind := 0, phase := false, arg := 0, closed := false, ovr := false,
    base := rbase, len64 := 2, late := 0, dline := BitVec.allOnes 64, die := .bow, ctx := 0, part := 0, poisoned := false, wlog := [] }

/-- A range entry that maps 0x1000 to 0x1FFF to the die's pool, for reading and writing. -/
def poolRange : BitVec 256 := BitVec.ofNat 256 (0x1000 + 0x2000 * 2 ^ 64 + 2 ^ 192 + 2 ^ 193 + 2 ^ 194 + 1 * 2 ^ 197)

/-- An operation of stream 0 of the unit on core 0. -/
def op0 (k : OpKind) : MemOp :=
  { id := 9, os := 0, pm := 0, scope := 28, owner := 0, kind := k, done := [], bad := [], homed := false, cov := [], pc := base, va := base, buf := 0, reply := none }

/-- A copy of the unit on core 0. -/
def copy0 : Copy :=
  { id := 1, op := none, owner := 0, ctx := 0, code := 0x48, recVa := base, recPa := padBase 0, located := true, resumeOf := [], chained := false, spilled := false,
    record := 0, st := .move, done := 0, cause := 0, zcnt := 0, wslot := 0, cslot := 0, loads := [], acq := [], cancel := false, frozen := false, undef := false }

/-- Core 0 at A with a4 = v. -/
def atA (v : Dw) : State := on .a (aReg 4 v)

set_option maxRecDepth 20000 in
theorem witness_AScalarResult : (∃ v, aScalar (on .a id) (.aadd false 3 4 5) = some (false, 3, v, 1)) ∧ Issues (on .a id) .a false (.aadd false 3 4 5) ∧
    1 ≤ ((0x03800001 : Word).extractLsb' 23 8).toNat ∧ ((0x03800001 : Word).extractLsb' 23 8).toNat ≤ 7 ∧ (0x03800001 : Word).extractLsb' 0 8 ≠ 0 :=
  ⟨⟨_, rfl⟩, ⟨rfl, rfl⟩, by decide, by decide, by decide⟩
set_option maxRecDepth 20000 in
theorem witness_SeatBranches_a : (∃ tk tg, aBranch (on .a id) (.abeq false 1 2 8) = some (false, tk, tg)) ∧ Issues (on .a id) .a false (.abeq false 1 2 8) :=
  ⟨⟨_, _, rfl⟩, rfl, rfl⟩
set_option maxRecDepth 20000 in
theorem witness_AccessFaults :
    (∃ x, access (atA (base + 1)) (.ldw false 5 4 0 0 0) = some (false, 0, x) ∧ found (atA (base + 1)) x = .fault .alignment) ∧
    (∃ x, access (atA 0x1000) (.ldw false 5 4 0 0 0) = some (false, 0, x) ∧ found (atA 0x1000) x = .miss) ∧
    Issues (atA 0x1000) .a false (.ldw false 5 4 0 0 0) ∧ Issues (atA (base + 1)) .a false (.ldw false 5 4 0 0 0) :=
  ⟨⟨_, rfl, by decide⟩, ⟨_, rfl, by decide⟩, ⟨rfl, rfl⟩, rfl, rfl⟩
set_option maxRecDepth 20000 in
theorem witness_AccessFaults_breaks :
    let s := (atA 0x1000).modDie .bow fun d => { d with contexts := d.contexts.set 0 { Context.reset with ranges := Context.reset.ranges.set 0 poolRange } }
    (∃ x pa, access s (.ldw false 5 4 0 0 0) = some (false, 0, x) ∧ found s x = .breaks pa) ∧ Issues s .a false (.ldw false 5 4 0 0 0) :=
  ⟨⟨_, poolBase .bow + 0x1000, rfl, by decide⟩, rfl, rfl⟩
set_option maxRecDepth 20000 in
theorem witness_LoadsIssue :
    (∃ x k, access (atA base) (.ldw false 5 4 0 0 0) = some (false, 0, x) ∧ loadWord (atA base) (padBase 0) (.ldw false 5 4 0 0 0) = some (0, 5, 8, k) ∧
      found (atA base) x = .ok (padBase 0)) ∧ Issues (atA base) .a false (.ldw false 5 4 0 0 0) ∧ (atA base).streamFull 0 = false ∧
    (∀ x, meetsSlot (atA base) (padBase 0) x (.ldw false 5 4 0 0 0) = false) := ⟨⟨_, _, rfl, rfl, by decide⟩, ⟨rfl, rfl⟩, by decide, fun _ => rfl⟩
set_option maxRecDepth 20000 in
theorem witness_LoadsIssue_slot :
    let s := { atA base with slots := [slot0 (padBase 0) (padBase 0 + 64)] }
    (∃ x k, access s (.amoadd false 5 4 0 0 6 0) = some (false, 0, x) ∧ loadWord s (padBase 0) (.amoadd false 5 4 0 0 6 0) = some (0, 5, 24, k) ∧
      found s x = .ok (padBase 0) ∧ meetsSlot s (padBase 0) x (.amoadd false 5 4 0 0 6 0) = true) ∧ Issues s .a false (.amoadd false 5 4 0 0 6 0) :=
  ⟨⟨_, _, rfl, rfl, by decide, by decide⟩, rfl, rfl⟩
set_option maxRecDepth 20000 in
theorem witness_LoadsIssue_full :
    let s := onCore .a (aReg 4 base) fun c => { c with ops := List.replicate 64 (op0 (.load 0 1 false 0)) }
    (∃ x, access s (.ldw false 5 4 0 0 0) = some (false, 0, x) ∧ found s x = .ok (padBase 0)) ∧ Issues s .a false (.ldw false 5 4 0 0 0) ∧
    s.streamFull 0 = true := ⟨⟨_, rfl, by decide⟩, ⟨rfl, rfl⟩, by decide⟩
set_option maxRecDepth 20000 in
theorem witness_StoresIssue :
    (∃ x k, access (atA base) (.std false 5 4 0 0 0) = some (false, 0, x) ∧ storeWord (atA base) (padBase 0) (.std false 5 4 0 0 0) = some (0, k) ∧
      found (atA base) x = .ok (padBase 0)) ∧ Issues (atA base) .a false (.std false 5 4 0 0 0) ∧
    (∀ x ∈ access (atA base) (.std false 5 4 0 0 0), meetsSlot (atA base) (padBase 0) x.2.2 (.std false 5 4 0 0 0) = false) ∧ (atA base).streamFull 0 = false :=
  ⟨⟨_, _, rfl, rfl, by decide⟩, ⟨rfl, rfl⟩, fun _ h => by cases h; decide, by decide⟩
set_option maxRecDepth 20000 in
theorem witness_StoresIssue_slot_full :
    meetsSlot ({ atA base with slots := [slot0 (padBase 0) (padBase 0 + 64)] } : State) (padBase 0) ⟨needWr, 8, 8, base⟩ (.std false 5 4 0 0 0) = true ∧
    Issues { atA base with slots := [slot0 (padBase 0) (padBase 0 + 64)] } .a false (.std false 5 4 0 0 0) ∧
    (onCore .a (aReg 4 base) fun c => { c with ops := List.replicate 64 (op0 (.load 0 1 false 0)) }).streamFull 0 = true ∧
    Issues (onCore .a (aReg 4 base) fun c => { c with ops := List.replicate 64 (op0 (.load 0 1 false 0)) }) .a false (.std false 5 4 0 0 0) :=
  ⟨by decide, ⟨rfl, rfl⟩, by decide, rfl, rfl⟩
set_option maxRecDepth 20000 in
theorem witness_OperationIssued : (atA base).playing (atA base).cur = false := rfl

/-- The sixteen blocks of a vector access at the start of the scratchpad. -/
def blocks0 : List Nat := (List.range 16).map fun k => padBase 0 + 64 * k
set_option maxRecDepth 20000 in
theorem found_blocks0 (s : State) (h : s = on .a (aReg 4 base ∘ q0 (loadQ [])) ∨ s = on .a (aReg 4 base ∘ q0 (storeQ [entry 9 none]))) (n : Need)
    (hn : n = needRd ∨ n = needWr) : foundBlocks s n base blocks0 := by
  rcases h with rfl | rfl <;> rcases hn with rfl | rfl <;> exact ⟨by decide, rfl, by decide⟩
set_option maxRecDepth 20000 in
theorem witness_LineAndQueueWords_ldv :
    let s := on .a (aReg 4 base ∘ q0 (loadQ []))
    Issues s .a false (.ldv false 0 4 0 0 0) ∧ (s.queueAt 0).dir = 1 ∧ (s.queueAt 0).pat = false ∧ (s.queueAt 0).ents.length < 4 ∧
    foundBlocks s needRd (Spec.ea s 4 0 1024) blocks0 ∧ s.streamFull 0 = false :=
  ⟨⟨rfl, rfl⟩, rfl, rfl, by decide, found_blocks0 _ (.inl rfl) _ (.inl rfl), by decide⟩
set_option maxRecDepth 20000 in
theorem witness_LineAndQueueWords_ldv_stops :
    ((on .a id).queueAt 0).dir ≠ 1 ∧ Issues (on .a id) .a false (.ldv false 0 4 0 0 0) ∧
    ((on .a (q0 { loadQ [] with pat := true })).queueAt 0).pat = true ∧ ((on .a (q0 { loadQ [] with pat := true })).queueAt 0).dir = 1 ∧
    4 ≤ ((on .a (q0 (loadQ (List.replicate 4 (entry 0 none))))).queueAt 0).ents.length := ⟨by decide, ⟨rfl, rfl⟩, rfl, rfl, by decide⟩
set_option maxRecDepth 20000 in
theorem witness_LineAndQueueWords_stv :
    let s := on .a (aReg 4 base ∘ q0 (storeQ [entry 9 none]))
    Issues s .a false (.stv false 0 4 0 0 0) ∧ (s.queueAt 0).dir = 2 ∧ (s.queueAt 0).pat = false ∧ (s.queueAt 0).head = some (entry 9 none) ∧
    foundBlocks s needWr (Spec.ea s 4 0 1024) blocks0 ∧ (∀ pa ∈ blocks0, s.hitsSlot pa 64 = false) ∧ s.streamFull 0 = false :=
  ⟨⟨rfl, rfl⟩, rfl, rfl, rfl, found_blocks0 _ (.inr rfl) _ (.inr rfl), by decide, by decide⟩
set_option maxRecDepth 20000 in
theorem witness_LineAndQueueWords_stv_stops :
    ((on .a id).queueAt 0).dir ≠ 2 ∧ ((on .a (q0 { storeQ [] with pat := true })).queueAt 0).pat = true ∧ ((on .a (q0 (storeQ []))).queueAt 0).head = none ∧
    (((on .a (q0 (storeQ [entry 9 (some 5)]))).queueAt 0).head.bind fun e => e.poison) = some 5 ∧
    (∃ pa ∈ blocks0, ({ on .a id with slots := [slot0 (padBase 0 + 960) (padBase 0 + 2048)] } : State).hitsSlot pa 64 = true) ∧
    Issues (on .a (q0 (storeQ []))) .a false (.stv false 0 4 0 0 0) := ⟨by decide, rfl, rfl, rfl, ⟨padBase 0 + 960, by decide, by decide⟩, rfl, rfl⟩
set_option maxRecDepth 20000 in
/-- Both streams full, and a poisoned head that the word does not take. -/
theorem witness_LineAndQueueWords_full :
    let g (c : Core) : Core := { c with ops := List.replicate 64 (op0 (.load 0 1 false 0)) }
    let s := onCore .a (aReg 4 base ∘ q0 (loadQ [])) g
    let t := onCore .a (aReg 4 base ∘ q0 (storeQ [entry 9 (some 5)])) g
    Issues s .a false (.ldv false 0 4 0 0 0) ∧ (s.queueAt 0).ents.length < 4 ∧ s.streamFull 0 = true ∧ (s.queueAt 0).dir = 1 ∧
    Issues t .a false (.stv false 0 4 0 0 0) ∧ (t.queueAt 0).head = some (entry 9 (some 5)) ∧ t.streamFull 0 = true ∧ (t.queueAt 0).dir = 2 ∧
    (on .a (q0 (storeQ [entry 9 (some 5)]))).streamFull 0 = false :=
  ⟨⟨rfl, rfl⟩, by decide, by decide, rfl, ⟨rfl, rfl⟩, rfl, by decide, rfl, by decide⟩
set_option maxRecDepth 20000 in
theorem witness_LineAndQueueWords_qbind :
    Issues (on .a id) .a false (.qbind false 0 3 2) ∧ ((on .a id).queueAt 0).ents = [] ∧ ((on .a id).queueAt 0).pat = false ∧
    ((on .a (q0 (loadQ [entry 0 none]))).queueAt 0).ents ≠ [] ∧ Issues (on .a (q0 (loadQ [entry 0 none]))) .a false (.qbind false 0 3 1) :=
  ⟨⟨rfl, rfl⟩, rfl, rfl, by decide, rfl, rfl⟩
set_option maxRecDepth 20000 in
theorem witness_LineAndQueueWords_qpat :
    let s := on .a (q0 (loadQ []))
    Issues s .a false (.qpat false 0 4 0 0 3) ∧ (s.coreAt 0).pats.get 3 = none ∧ (s.queueAt 0).pat = false ∧ (s.queueAt 0).dir ≠ 0 ∧ s.playing 0 = false ∧
    s.streamFull 0 = false ∧ ((on .a id).queueAt 0).dir = 0 ∧ Issues (on .a id) .a false (.qpat false 0 4 0 0 0) ∧
    ((on .a (q0 { loadQ [] with pat := true })).queueAt 0).pat = true := ⟨⟨rfl, rfl⟩, rfl, rfl, by decide, rfl, by decide, rfl, ⟨rfl, rfl⟩, rfl⟩
/-- A load pattern on queue 0. -/
def pattern0 : Pattern :=
  { serial := 0, op := 0, owner := 0, q := 0, va := base, shape := none, next := 0, reads := [], writes := [], stop := false, fault := none, members := 0 }
set_option maxRecDepth 20000 in
theorem witness_LineAndQueueWords_qstop :
    let s := onCore .a (q0 { loadQ [] with pat := true }) fun c => { c with pats := c.pats.set 2 (some pattern0), mcast := some pattern0 }
    Issues s .a false (.qstop false 0) ∧ (s.queueAt 0).pat = true ∧ (s.coreAt 0).pats.get 2 = some pattern0 ∧ pattern0.q = 0 ∧
    ((s.coreAt 0).pats.get 2).isSome = true ∧ Issues s .a false (.qpat false 0 4 0 0 2) ∧ (s.coreAt 0).mcast.isSome = true ∧
    Issues s .a false (.qmc false 0 4 0 0 3) ∧ Issues (on .a id) .a false (.qstop false 0) ∧ ((on .a id).queueAt 0).pat = false :=
  ⟨⟨rfl, rfl⟩, rfl, rfl, rfl, rfl, ⟨rfl, rfl⟩, rfl, ⟨rfl, rfl⟩, ⟨rfl, rfl⟩, rfl⟩
set_option maxRecDepth 20000 in
theorem witness_LineAndQueueWords_qmc : Issues (on .a id) .a false (.qmc false 0 4 0 0 15) ∧ ((on .a id).coreAt 0).mcast = none ∧
    (on .a id).playing 0 = false ∧ (on .a id).streamFull 0 = false := ⟨⟨rfl, rfl⟩, rfl, rfl, by decide⟩

set_option maxRecDepth 20000 in
theorem witness_SlotAndCopyWords_aset :
    let s := on .a (aReg 4 base ∘ aReg 5 (base + 64))
    Issues s .a false (.aset false 5 4 0 0) ∧ found s ⟨needRw, 1, 16, s.rdA 1 4⟩ = .ok (padBase 0) ∧
    found s ⟨needRd, 64, 64, s.rdA 0 5⟩ = .ok (padBase 0 + 64) ∧ s.streamFull 0 = false := ⟨⟨rfl, rfl⟩, by decide, by decide, by decide⟩
set_option maxRecDepth 20000 in
theorem witness_SlotAndCopyWords_afree :
    Issues (atA base) .a false (.afree false 4 0 0 0) ∧ found (atA base) ⟨needRw, 16, 16, Spec.ea (atA base) 4 0 16⟩ = .ok (padBase 0) := ⟨⟨rfl, rfl⟩, by decide⟩
set_option maxRecDepth 20000 in
theorem witness_SlotAndCopyWords_waita :
    Issues (atA base) .a false (.waita false 4 0 1 0) ∧ found (atA base) ⟨needRd, 64, 64, Spec.ea (atA base) 4 0 64⟩ = .ok (padBase 0) ∧
    (atA base).maskDone 1 = true := ⟨⟨rfl, rfl⟩, by decide, by decide⟩
set_option maxRecDepth 20000 in
theorem witness_SlotAndCopyWords_waita_waits :
    let s := onCore .a (aReg 4 base) fun c => { c with ops := [op0 (.store (padBase 0) [1])] }
    Issues s .a false (.waita false 4 0 1 0) ∧ s.maskDone 1 = false := ⟨⟨rfl, rfl⟩, by decide⟩
set_option maxRecDepth 20000 in
theorem witness_SlotAndCopyWords_aread :
    let s := atA (base + 4)
    Issues s .a false (.aread false 5 4 0 0 0) ∧ (Spec.ea s 4 0 16).toNat % 16 = 4 ∧
    found s ⟨needRd, 16, 16, Spec.ea s 4 0 16 - BitVec.ofNat 64 4⟩ = .ok (padBase 0) ∧ s.streamFull 0 = false ∧
    (Spec.ea (atA (base + 5)) 4 0 16).toNat % 16 = 5 ∧ found (atA (base + 5)) ⟨needRd, 16, 1, Spec.ea (atA (base + 5)) 4 0 16⟩ = .fault .alignment ∧
    Issues (atA (base + 5)) .a false (.aread false 5 4 0 0 0) :=
  ⟨⟨rfl, rfl⟩, by decide, by decide, by decide, by decide, by decide, rfl, rfl⟩
set_option maxRecDepth 20000 in
theorem witness_SlotAndCopyWords_await :
    let s := { atA base with slots := [slot0 (padBase 0) (padBase 0 + 64)] }
    Issues s .a false (.await false 0 4 0 0 0) ∧ s.playing 0 = false ∧ (here s).await = none ∧
    found s ⟨needRd, 16, 16, Spec.ea s 4 0 16⟩ = .ok (padBase 0) ∧ s.maskDone 0 = true ∧ s.slot? (padBase 0) = some (slot0 (padBase 0) (padBase 0 + 64)) ∧
    (slot0 (padBase 0) (padBase 0 + 64)).phase = (s.rdA 0 0).getLsbD 0 ∧ (atA base).slot? (padBase 0) = none ∧
    Issues (atA base) .a false (.await false 0 4 0 0 0) :=
  ⟨⟨rfl, rfl⟩, rfl, rfl, by decide, by decide, by decide, by decide, by decide, rfl, rfl⟩
set_option maxRecDepth 20000 in
theorem witness_SlotAndCopyWords_await_goes :
    let s (w : Option AWait) : State := { on .a (fun c => { aReg 4 base (aReg 6 1 c) with await := w }) with slots := [slot0 (padBase 0) (padBase 0 + 64)] }
    (slot0 (padBase 0) (padBase 0 + 64)).phase ≠ ((s none).rdA 0 6).getLsbD 0 ∧ Issues (s none) .a false (.await false 6 4 0 0 0) ∧
    Issues (s (some (.await (padBase 0) true false (some 0)))) .a false (.await false 6 4 0 0 0) ∧
    (here (s (some (.await (padBase 0) true false (some 0))))).await = some (.await (padBase 0) true false (some 0)) := ⟨by decide, ⟨rfl, rfl⟩, ⟨rfl, rfl⟩, rfl⟩
set_option maxRecDepth 20000 in
/-- An AWAIT whose predecessors are not performed, at a poisoned slot, at one with 65,535 waiters, and one whose slot is gone, before and after its release. -/
theorem witness_SlotAndCopyWords_await_others :
    let x := slot0 (padBase 0) (padBase 0 + 64)
    let s (l : List Slot) (w : Option AWait) : State := { on .a (fun c => { aReg 4 base c with await := w }) with slots := l }
    let p := onCore .a (aReg 4 base) fun c => { c with ops := [op0 (.store (padBase 0) [1])] }
    p.maskDone 1 = false ∧ Issues p .a false (.await false 0 4 0 1 0) ∧ (here p).await = none ∧
    (s [{ x with poisoned := true }] none).slot? (padBase 0) = some { x with poisoned := true } ∧
    Issues (s [{ x with poisoned := true }] none) .a false (.await false 0 4 0 0 0) ∧
    65535 ≤ ({ x with waiters := List.replicate 65535 (.await 3) } : Slot).waiters.length ∧
    (s [] (some (.await (padBase 0) false false none))).slot? (padBase 0) = none ∧
    (here (s [] (some (.await (padBase 0) false false none)))).await = some (.await (padBase 0) false false none) ∧
    (∀ z, (s [] (some (.await (padBase 0) false false (some 4)))).slot? (padBase 0) = some z → z.poisoned = false) :=
  ⟨by decide, ⟨rfl, rfl⟩, rfl, by decide, ⟨rfl, rfl⟩, Nat.le_of_eq List.length_replicate.symm, rfl, rfl, nofun⟩
set_option maxRecDepth 20000 in
theorem witness_SlotAndCopyWords_copy :
    (∃ x, access (atA base) (.cpy false 4 0 0 0) = some (false, 0, x) ∧ found (atA base) x = .ok (padBase 0)) ∧
    copyWord (.cpy false 4 0 0 0) = some (0, 0x48) ∧ Issues (atA base) .a false (.cpy false 4 0 0 0) ∧ ((atA base).coreAt 0).latch = none ∧
    ¬(64 ≤ (((atA base).coreAt 0).copies.filter fun k => !k.spilled).length ∨ ∃ k ∈ ((atA base).coreAt 0).copies, k.spilled = true) :=
  ⟨⟨_, rfl, by decide⟩, rfl, ⟨rfl, rfl⟩, rfl, by decide⟩
/-- Which way a write to the spill ring goes. -/
def spillKind : Spilled → Nat
  | .written _ => 0
  | .faults => 1
  | .breaks => 2
theorem spill_written {x : Spilled} (h : spillKind x = 0) : ∃ z, x = .written z := by cases x <;> simp_all [spillKind]
theorem spill_faults {x : Spilled} (h : spillKind x = 1) : x = .faults := by cases x <;> simp_all [spillKind]
theorem spill_breaks {x : Spilled} (h : spillKind x = 2) : x = .breaks := by cases x <;> simp_all [spillKind]
set_option maxRecDepth 20000 in
set_option exponentiation.threshold 1024 in
theorem witness_SlotAndCopyWords_copy_full :
    let s := (onCore .a (aReg 4 base) fun c => { c with copies := [{ copy0 with spilled := true }] }).modDie .bow fun d =>
      { d with contexts := d.contexts.set 0 { Context.reset with spill := base + 8 } }
    let t := put (padBase 0 + 192) 64 (header 0 (localBase + 256) 4 4 (localBase + 4096) 1)
      (s.modDie .bow fun d => { d with contexts := d.contexts.set 0 { Context.reset with spill := base + 192 } })
    Issues s .a false (.cpy false 4 0 0 0) ∧ (∃ k ∈ (s.coreAt 0).copies, k.spilled = true) ∧
    (s.issueOp 0 0 (.copy s.nextId) false).spillWrite 0 (mkCopy s 0x48 base (some s.nextId) true) 0 0 = .faults ∧
    Issues t .a false (.cpy false 4 0 0 0) ∧
    (∃ z, (t.issueOp 0 0 (.copy t.nextId) false).spillWrite 0 (mkCopy t 0x48 base (some t.nextId) true) 0 0 = .written z) ∧
    Issues (onCore .a (aReg 4 base) fun c => { c with latch := some copy0 }) .a false (.cpy false 4 0 0 0) :=
  ⟨⟨rfl, rfl⟩, ⟨{ copy0 with spilled := true }, List.mem_singleton.mpr rfl, rfl⟩, spill_faults (by decide), ⟨rfl, rfl⟩,
    spill_written (by decide), rfl, rfl⟩
set_option maxRecDepth 20000 in
set_option exponentiation.threshold 1024 in
/-- The spill ring stands in the die's pool, of which partition 0 has nothing. -/
theorem witness_SlotAndCopyWords_copy_breaks :
    let s := (onCore .a (aReg 4 base) fun c => { c with copies := [{ copy0 with spilled := true }] }).modDie .bow fun d =>
      { d with contexts := d.contexts.set 0 { Context.reset with spill := 0x1000, ranges := Context.reset.ranges.set 0 poolRange } }
    Issues s .a false (.cpy false 4 0 0 0) ∧ (s.coreAt 0).latch = none ∧ s.streamFull 0 = false ∧
    (s.issueOp 0 0 (.copy s.nextId) false).spillWrite 0 (mkCopy s 0x48 base (some s.nextId) true) 0 0 = .breaks :=
  ⟨⟨rfl, rfl⟩, rfl, by decide, spill_breaks (by decide)⟩

/-! ## Witnesses: the V seat -/

/-- Core 0 at V with queue 0 as given. -/
def atV (q : Queue) : State := on .v (q0 q)

set_option maxRecDepth 20000 in
theorem witness_VElementResult : (∃ x, vElement (on .v id) (.vadd false 1 2 3 0 0) = some x ∧ queuesReady (on .v id) x.srcs [(x.d, x.desz)]) ∧
    Issues (on .v id) .v false (.vadd false 1 2 3 0 0) := by
  refine ⟨⟨_, rfl, ?_⟩, rfl, rfl⟩; unfold queuesReady; decide
set_option maxRecDepth 20000 in
theorem witness_VElementResult_queue : (∃ x, vElement (atV (loadQ [entry 9 none])) (.vadd false 1 2 32 0 0) = some x ∧
      queuesReady (atV (loadQ [entry 9 none])) x.srcs [(x.d, x.desz)]) ∧ Issues (atV (loadQ [entry 9 none])) .v false (.vadd false 1 2 32 0 0) := by
  refine ⟨⟨_, rfl, ?_, ?_⟩, rfl, rfl⟩
  · intro o ho
    simp only [two, List.mem_cons, List.not_mem_nil, or_false] at ho
    rcases ho with rfl | rfl
    · intro h; exact absurd h (by decide)
    · intro _; exact ⟨rfl, rfl, _, rfl, rfl⟩
  · intro o ho
    simp only [two, List.mem_cons, List.not_mem_nil, or_false] at ho
    subst ho; intro h; exact absurd h (by decide)
set_option maxRecDepth 20000 in
theorem witness_VMoveResult : (∃ x, vMove (on .v id) (.vmov false 1 2 0 0) = some x ∧ queuesReady (on .v id) x.srcs [(x.d, x.desz)]) ∧
    Issues (on .v id) .v false (.vmov false 1 2 0 0) := by
  refine ⟨⟨_, rfl, ?_⟩, rfl, rfl⟩; unfold queuesReady; decide
set_option maxRecDepth 20000 in
theorem witness_VReduceResult : (∃ x, vReduce (on .v id) (.vrsum false 1 2 0 0 0) = some x ∧ queuesReady (on .v id) x.srcs [(x.d, x.desz)]) ∧
    Issues (on .v id) .v false (.vrsum false 1 2 0 0 0) := by
  refine ⟨⟨_, rfl, ?_⟩, rfl, rfl⟩; unfold queuesReady; decide
set_option maxRecDepth 20000 in
/-- VADD v1, v2, q0 with queue 0 unbound, of 16-bit elements, empty, and with a poisoned head. -/
theorem witness_VReduceResult_turned_away :
    (∃ x, vElement (on .v id) (.vadd false 1 2 32 0 0) = some x ∧ (32, 3) ∈ x.srcs ∧ x.d = 1) ∧ isQueue 32 = true ∧ queueOf 32 = 0 ∧ isQueue 1 = false ∧
    ((on .v id).queueAt 0).dir ≠ 1 ∧ Issues (on .v id) .v false (.vadd false 1 2 32 0 0) ∧
    ((atV { loadQ [] with esz := 2 }).queueAt 0).dir = 1 ∧ ((atV { loadQ [] with esz := 2 }).queueAt 0).esz ≠ 3 ∧
    Issues (atV { loadQ [] with esz := 2 }) .v false (.vadd false 1 2 32 0 0) ∧
    ((atV (loadQ [])).queueAt 0).head = none ∧ ((atV (loadQ [])).queueAt 0).esz = 3 ∧ Issues (atV (loadQ [])) .v false (.vadd false 1 2 32 0 0) ∧
    (((atV (loadQ [entry 0 (some 5)])).queueAt 0).head.bind fun e => e.poison) = some 5 ∧
    Issues (atV (loadQ [entry 0 (some 5)])) .v false (.vadd false 1 2 32 0 0) :=
  ⟨⟨_, rfl, List.mem_cons_of_mem _ (List.mem_cons_self ..), rfl⟩, rfl, rfl, rfl, by decide, ⟨rfl, rfl⟩, rfl, by decide, ⟨rfl, rfl⟩, rfl, rfl, ⟨rfl, rfl⟩,
    rfl, rfl, rfl⟩
set_option maxRecDepth 20000 in
/-- VADD q0, v2, v3 with queue 0 bound to load, and unbound with elements of 32 bits. -/
theorem witness_VReduceResult_unbound :
    let s := atV (loadQ [])
    let t := atV { Queue.reset with esz := 3 }
    (∃ x, vElement s (.vadd false 32 2 3 0 0) = some x ∧ x.d = 32) ∧ (s.queueAt 0).dir = 1 ∧ Issues s .v false (.vadd false 32 2 3 0 0) ∧
    (∃ x, vElement t (.vadd false 32 2 3 0 0) = some x ∧ x.d = 32 ∧ x.desz = 3) ∧ (t.queueAt 0).dir ≠ 1 ∧ (t.queueAt 0).dir ≠ 2 ∧ (t.queueAt 0).esz = 3 ∧
    Issues t .v false (.vadd false 32 2 3 0 0) :=
  ⟨⟨_, rfl, rfl⟩, rfl, ⟨rfl, rfl⟩, ⟨_, rfl, rfl, rfl⟩, by decide, by decide, rfl, rfl, rfl⟩
set_option maxRecDepth 20000 in
/-- VADD q0, v2, v3 with a full store queue 0. -/
theorem witness_VReduceResult_full :
    let s := atV (storeQ (List.replicate 4 (entry 0 none)))
    (∃ x, vElement s (.vadd false 32 2 3 0 0) = some x ∧ x.d = 32 ∧ x.desz = 3) ∧ (s.queueAt 0).dir = 2 ∧ (s.queueAt 0).esz = 3 ∧
    4 ≤ (s.queueAt 0).ents.length ∧ Issues s .v false (.vadd false 32 2 3 0 0) := ⟨⟨_, rfl, rfl, rfl⟩, rfl, rfl, by decide, rfl, rfl⟩
set_option maxRecDepth 20000 in
theorem witness_VCompareResult : (∃ r, vCompare (.vcmplt false 1 3 2 0 3) = some (false, 1, 3, 2, 0, 3, r)) ∧
    queuesReady (on .v id) [(3, tyEsz 3), (2, tyEsz 3)] [] ∧ Issues (on .v id) .v false (.vcmplt false 1 3 2 0 3) ∧
    (∃ r, vPred (on .v id) (.pand false 1 2 3) = some (false, 1, r)) ∧ Issues (on .v id) .v false (.pand false 1 2 3) := by
  refine ⟨⟨_, rfl⟩, ?_, ⟨rfl, rfl⟩, ⟨_, rfl⟩, rfl, rfl⟩; unfold queuesReady; decide
set_option maxRecDepth 20000 in
theorem witness_VImmediateResult : (∃ f, vImmediate (.vaddiF32 false 3 0 0x3F80) = some (false, 3, 4, 4, f)) ∧
    Issues (on .v id) .v false (.vaddiF32 false 3 0 0x3F80) := ⟨⟨_, rfl⟩, rfl, rfl⟩
set_option maxRecDepth 20000 in
theorem witness_XScalarResult : (∃ v, xScalar (on .v id) (.xadd false 6 6 0 0x7FF) = some (false, 6, v, 1)) ∧
    Issues (on .v id) .v false (.xadd false 6 6 0 0x7FF) ∧ Issues (on .v id) .v false (.xget false 6 0 3) ∧
    Issues (on .v id) .v false (.pcnt false 4 3) := ⟨⟨_, rfl⟩, ⟨rfl, rfl⟩, ⟨rfl, rfl⟩, rfl, rfl⟩
set_option maxRecDepth 20000 in
theorem witness_VConvertWords :
    Issues (on .v id) .v false (.vscac false 16 1 9 3 0) ∧ queuesReady (on .v id) [(1, 3), (9, 3)] [(16, 3)] ∧
    Issues (on .v id) .v false (.vcvt false 3 3 3 0 0) ∧ queuesReady (on .v id) [(3, cvtEsz ((3 : BitVec 6).toNat / 8))] [(3, cvtEsz ((3 : BitVec 6).toNat % 8))] ∧
    Issues (on .v id) .v false (.vdq false 3 4 0 0) ∧ queuesReady (on .v id) [(4, 0)] [(3, tyEsz 0)] ∧
    Issues (on .v id) .v false (.vqnt false 3 4 0 0) ∧ queuesReady (on .v id) [(4, 3)] [(3, 0)] ∧
    Issues (on .v id) .v false (.vscan false 3 3 8 0 0) ∧ queuesReady (on .v id) [(3, tyEsz 0)] [(3, tyEsz 0)] := by
  refine ⟨⟨rfl, rfl⟩, ?_, ⟨rfl, rfl⟩, ?_, ⟨rfl, rfl⟩, ?_, ⟨rfl, rfl⟩, ?_, ⟨rfl, rfl⟩, ?_⟩ <;> (unfold queuesReady; decide)
set_option maxRecDepth 20000 in
theorem witness_VConvertWords_queue :
    let s := atV { loadQ [entry 9 none] with esz := 0 }
    Issues s .v false (.vdq false 3 32 0 0) ∧ queuesReady s [(32, 0)] [(3, tyEsz 0)] := by
  refine ⟨⟨rfl, rfl⟩, ?_, ?_⟩
  · intro o ho _
    simp only [List.mem_cons, List.not_mem_nil, or_false] at ho
    subst ho; exact ⟨rfl, rfl, _, rfl, rfl⟩
  · intro o ho
    simp only [List.mem_cons, List.not_mem_nil, or_false] at ho
    subst ho; intro h; exact absurd h (by decide)
set_option maxRecDepth 20000 in
theorem witness_VOtherWords :
    (∃ tk tg, vBranch (on .v id) (.vbnz false 5 0x7FFF8) = some (false, tk, tg)) ∧ Issues (on .v id) .v false (.vbnz false 5 0x7FFF8) ∧
    Issues (on .v id) .v false (.xput false 1 2 3) ∧ Issues (on .v id) .v false (.vdph false 7) ∧
    Issues (on .v id) .v false (.vsweep false 1 20 2 2 0) ∧ queuesReady (on .v id) [(2, 3)] [] ∧ (here (on .v id)).shape = none ∧
    Issues (on .v id) .v false (.vdist false 1 20 2 2 0) ∧ queuesReady (on .v id) [(2, 3)] [(1, 3)] ∧
    Issues (on .v id) .v false (.vjlim false 1 3 20 0 0) ∧ queuesReady (on .v id) [(3, 3)] [] := by
  refine ⟨⟨_, _, rfl⟩, ⟨rfl, rfl⟩, ⟨rfl, rfl⟩, ⟨rfl, rfl⟩, ⟨rfl, rfl⟩, ?_, rfl, ⟨rfl, rfl⟩, ?_, ⟨rfl, rfl⟩, ?_⟩ <;> (unfold queuesReady; decide)
set_option maxRecDepth 20000 in
theorem witness_VOtherWords_busy :
    let s := (on .v id).startShape 0 false 0 [] 0
    let t := (on .v fun c => { c with shape := some { Shape.begun 0 false 0 [] 0 with rem := 0 } })
    (∃ h, (here s).shape = some h ∧ h.rem ≠ 0) ∧ (∃ h, (here t).shape = some h ∧ h.rem = 0) ∧ Issues t .v false (.vdist false 1 20 2 2 0) ∧ Issues s .v false (.vsweep false 1 20 2 2 0) ∧ Issues s .v false (.vdist false 1 20 2 2 0) ∧
    queuesReady s [(2, 3)] [(1, 3)] := by
  refine ⟨⟨_, rfl, by decide⟩, ⟨_, rfl, rfl⟩, ⟨rfl, rfl⟩, ⟨rfl, rfl⟩, ⟨rfl, rfl⟩, ?_⟩; unfold queuesReady; decide

/-! ## Witnesses: the M seat -/

set_option maxRecDepth 20000 in
theorem witness_MScalarResult : (∃ v, mScalar (on .m id) (.madd false 2 2 0x4240) = some (false, 2, v, 1)) ∧
    Issues (on .m id) .m false (.madd false 2 2 0x4240) := ⟨⟨_, rfl⟩, rfl, rfl⟩
set_option maxRecDepth 20000 in
theorem witness_SeatBranches_m : (∃ tk tg, mBranch (on .m id) (.mblt false 2 3 0x7FFD) = some (false, tk, tg)) ∧
    Issues (on .m id) .m false (.mblt false 2 3 0x7FFD) ∧ Issues (on .m id) .m false (.ftset false 1 0) := ⟨⟨_, _, rfl⟩, ⟨rfl, rfl⟩, rfl, rfl⟩

/-- Core 0 at M with entry 0 of the format table and three queues: 0 and 1 to load, 2 to store. -/
def atM (f : BitVec 16) (e : BitVec 2) (g : Ctx → Ctx) : State :=
  on .m fun c => g (((({ c with fmt := c.fmt.set 0 f } : Ctx).setQueue 0 { loadQ [] with esz := e }).setQueue 1 { loadQ [] with esz := e }).setQueue 2 (storeQ []))
/-- Operands A and B in BF16, the output in FP32. -/
def bf16Entry : BitVec 16 := 0x0044
/-- An operation of the engine's queue. -/
def engOp (k : EngKind) : EngOp := { kind := k, word := 0, ent := bf16Entry, addr := base }

set_option maxRecDepth 20000 in
theorem witness_MatrixWords :
    let s := atM bf16Entry 2 id
    Issues s .m false (.mma false 2 0 1 0 15) ∧ mmaWord (.mma false 2 0 1 0 15) = some (false, false, 2, 0, 1, 0, 15) ∧ s.playing s.cur = false ∧
    formatOf s 0 = bf16Entry ∧ entryOk bf16Entry (((15 : BitVec 9).toNat + 1) * 8) = true ∧ (s.queueAt 0).dir = 1 ∧ (s.queueAt 1).dir = 1 ∧
    (s.queueAt 2).dir ≠ 0 ∧ (s.queueAt 0).esz = fmtEsz (entA bf16Entry) ∧ (s.queueAt 1).esz = fmtEsz (entB bf16Entry) ∧
    (s.queueAt 2).esz = (if entOutf bf16Entry then 2 else 3) ∧ (here s).eng.opq.length < 2 :=
  ⟨⟨rfl, rfl⟩, rfl, rfl, rfl, rfl, rfl, rfl, by decide, rfl, rfl, rfl, by decide⟩
set_option maxRecDepth 20000 in
theorem witness_MatrixWords_crew :
    let s := atM bf16Entry 2 id
    Issues s .m false (.mmaj false 2 0 1 0 15) ∧ ¬inCrew s := by
  refine ⟨⟨rfl, rfl⟩, ?_⟩
  rintro ⟨u, hu, hc⟩
  have : (((atM bf16Entry 2 id).coreAt 0).unit.map fun u => u.crew) = some false := rfl
  have hu : ((atM bf16Entry 2 id).coreAt 0).unit = some u := hu
  rw [hu] at this; simp [hc] at this
set_option maxRecDepth 20000 in
theorem witness_MatrixWords_joint :
    let s := (atM bf16Entry 2 id).modCore 0 fun c => { c with unit := c.unit.map fun u => { u with crew := true } }
    Issues s .m false (.mmaj false 2 0 1 0 15) ∧ ((s.coreAt 0).unit.map fun u => u.crew) = some true ∧ s.playing s.cur = false ∧
    entryOk (formatOf s 0) (((15 : BitVec 9).toNat + 1) * 8) = true ∧ isQ4 (entB (formatOf s 0)) = false ∧ Issues s .m false (.mmaj false 2 0 0 0 15) :=
  ⟨⟨rfl, rfl⟩, rfl, rfl, rfl, rfl, rfl, rfl⟩
set_option maxRecDepth 20000 in
/-- MMAJ with a Q4Q operand B, and with one queue for both operands. -/
theorem witness_MatrixWords_joint_checks :
    let j (s : State) : State := s.modCore 0 fun c => { c with unit := c.unit.map fun u => { u with crew := true } }
    let s := j (atM 0x0030 1 fun c => c.setQueue 1 { loadQ [] with esz := 0 })
    let t := j (atM bf16Entry 2 id)
    Issues s .m false (.mmaj false 2 0 1 0 15) ∧ entryOk (formatOf s 0) (((15 : BitVec 9).toNat + 1) * 8) = true ∧ (s.queueAt 0).esz = fmtEsz (entA (formatOf s 0)) ∧
    (s.queueAt 1).esz = fmtEsz (entB (formatOf s 0)) ∧ (s.queueAt 2).esz = 3 ∧ isQ4 (entB (formatOf s 0)) = true ∧
    Issues t .m false (.mmaj false 2 0 0 0 15) ∧ isQ4 (entB (formatOf t 0)) = false ∧ (t.queueAt 0).esz = fmtEsz (entA (formatOf t 0)) ∧
    entA (formatOf t 0) = entB (formatOf t 0) := ⟨⟨rfl, rfl⟩, rfl, rfl, rfl, rfl, rfl, ⟨rfl, rfl⟩, rfl, rfl, rfl⟩
set_option maxRecDepth 20000 in
theorem witness_MatrixWords_format :
    let s := atM 0x1044 2 id
    Issues s .m false (.mma false 2 0 1 0 15) ∧ entryOk (formatOf s 0) (((15 : BitVec 9).toNat + 1) * 8) = false ∧
    Issues s .m false (.mma false 2 0 1 16 15) ∧ formatOf s 16 = 0x1044 := ⟨⟨rfl, rfl⟩, rfl, ⟨rfl, rfl⟩, rfl⟩
set_option maxRecDepth 20000 in
theorem witness_MatrixWords_queues :
    let s := atM bf16Entry 2 (fun c => c.setQueue 0 Queue.reset)
    let t := atM bf16Entry 1 id
    Issues s .m false (.mma false 2 0 1 0 15) ∧ (s.queueAt 0).dir ≠ 1 ∧ Issues t .m false (.mma false 2 0 1 0 15) ∧ (t.queueAt 0).esz ≠ fmtEsz (entA bf16Entry) ∧
    Issues (atM bf16Entry 2 id) .m false (.mma false 0 0 1 0 15) := ⟨⟨rfl, rfl⟩, by decide, ⟨rfl, rfl⟩, by decide, rfl, rfl⟩
set_option maxRecDepth 20000 in
theorem witness_MatrixWords_full :
    let s := atM bf16Entry 2 fun c => { c with eng := { c.eng with opq := [engOp .mma, engOp .mdrn] } }
    Issues s .m false (.mma false 2 0 1 0 15) ∧ 2 ≤ (here s).eng.opq.length ∧ Issues s .m false (.mdrn false 2) := ⟨⟨rfl, rfl⟩, by decide, rfl, rfl⟩
set_option maxRecDepth 20000 in
theorem witness_MatrixWords_mdrn :
    let s := atM bf16Entry 2 id
    Issues s .m false (.mdrn false 2) ∧ (s.queueAt 2).dir ≠ 0 ∧ (here s).eng.lastBf16 = false ∧ (s.queueAt 2).esz = 3 ∧ (here s).eng.opq.length < 2 ∧
    Issues s .m false (.mdrn false 3) ∧ (s.queueAt 3).dir = 0 ∧ Issues s .m false (.mdrn false 0) ∧ (s.queueAt 0).esz ≠ 3 :=
  ⟨⟨rfl, rfl⟩, by decide, rfl, rfl, by decide, ⟨rfl, rfl⟩, rfl, ⟨rfl, rfl⟩, by decide⟩
set_option maxRecDepth 20000 in
theorem witness_MatrixWords_mzero :
    let s := atM bf16Entry 2 fun c => { c with eng := { c.eng with opq := [engOp .mmaj] } }
    Issues s .m false (.mzero false) ∧ (∃ o ∈ (here s).eng.opq, o.kind = .mmaj) ∧ Issues (on .m id) .m false (.mzero false) ∧
    (here (on .m id)).eng.opq = [] := ⟨⟨rfl, rfl⟩, ⟨engOp .mmaj, List.mem_singleton.mpr rfl, rfl⟩, ⟨rfl, rfl⟩, rfl⟩

/-! ## Witnesses: the common group and loops -/

set_option maxRecDepth 20000 in
theorem witness_CommonWords :
    let s := on .a fun c => { c with k := c.k.set 3 65535 }
    Issues s .a false (.nop false) ∧ Issues s .a false (.tpost false 3 1) ∧
    65535 < ((here s).k.get (3 : BitVec 4).toFin).toNat + (s.coreAt s.cur).postsTo 3 + (1 : BitVec 8).toNat ∧
    Issues s .a false (.tpost false 2 255) ∧ ((here s).k.get (2 : BitVec 4).toFin).toNat + (s.coreAt s.cur).postsTo 2 + (255 : BitVec 8).toNat ≤ 65535 ∧
    Issues s .a false (.twait false 3 255) ∧ (255 : BitVec 8).toNat ≤ ((here s).k.get (3 : BitVec 4).toFin).toNat ∧
    Issues s .a false (.twait false 2 1) ∧ ((here s).k.get (2 : BitVec 4).toFin).toNat < (1 : BitVec 8).toNat :=
  ⟨⟨rfl, rfl⟩, ⟨rfl, rfl⟩, by decide, ⟨rfl, rfl⟩, by decide, ⟨rfl, rfl⟩, by decide, ⟨rfl, rfl⟩, by decide⟩
set_option maxRecDepth 20000 in
theorem witness_CommonWords_flags :
    let s := on .m fun c => { c with f := 0x80 }
    Issues s .m false (.fset false 7 1) ∧ Issues s .m false (.fwait false 7 1) ∧ (here s).f.getLsbD (7 : BitVec 3).toNat = true ∧
    Issues s .m false (.fwait false 7 0) ∧ Issues s .m false (.brk false 9) ∧ (s.coreAt s.cur).dbg.dcfg.getLsbD 0 = false ∧
    Issues (onCore .m id fun c => { c with dbg := { c.dbg with dcfg := 1 } }) .m false (.brk false 9) ∧
    ((onCore .m id fun c => { c with dbg := { c.dbg with dcfg := 1 } }).coreAt 0).dbg.dcfg.getLsbD 0 = true :=
  ⟨⟨rfl, rfl⟩, ⟨rfl, rfl⟩, rfl, ⟨rfl, rfl⟩, ⟨rfl, rfl⟩, rfl, ⟨rfl, rfl⟩, rfl⟩
set_option maxRecDepth 20000 in
theorem witness_CommonWords_bndy :
    let s := on .c id
    let t := onCore .c id fun c => { c with unit := c.unit.map fun u => { u with stop := some { why := .preempt, posted := 0, urgent := false, clks := 0 } } }
    let w := on .c (seatIs .c fun t => { t with loop := some loop0 })
    Issues s .c false (.bndy false) ∧ (s.coreAt s.cur).unit.isSome = true ∧ (s.coreAt s.cur).handler = none ∧ ((here s).seat .c).loop = none ∧
    (here s).actives = [.c] ∧ ((s.coreAt 0).unit.bind fun u => u.stop) = none ∧ Issues t .c false (.bndy false) ∧
    ((t.coreAt 0).unit.bind fun u => u.stop).isSome = true ∧ (here t).actives = [.c] ∧
    Issues w .c false (.bndy false) ∧ ((here w).seat .c).body = some loop0 :=
  ⟨⟨rfl, rfl⟩, rfl, rfl, rfl, rfl, rfl, ⟨rfl, rfl⟩, rfl, rfl, ⟨rfl, rfl⟩, rfl⟩
set_option maxRecDepth 20000 in
theorem witness_LoopWords :
    let s := on .m fun c => { c with l := c.l.set 7 3 }
    let b := on .m (seatIs .a fun t => { t with act := true, loop := some { loop0 with reg := 7 } })
    Issues s .m false (.mloop false 7 63 3 7) ∧ (s.coreAt s.cur).urgent = false ∧ ((here s).seat .m).loop = none ∧
    ((here s).l.get (7 : BitVec 3).toFin).toNat % 2 ^ 32 ≠ 0 ∧ (∀ j, ((here s).seat j).body = none) ∧
    Issues s .m false (.mloop false 0 0 0 0) ∧ ((here s).l.get (0 : BitVec 3).toFin).toNat % 2 ^ 32 = 0 ∧
    Issues b .m false (.mloop false 7 0 0 0) ∧ (∃ lp, ((here b).seat .a).body = some lp ∧ lp.reg = 7) :=
  ⟨⟨rfl, rfl⟩, rfl, rfl, by decide, fun j => by cases j <;> rfl, ⟨rfl, rfl⟩, by decide, ⟨rfl, rfl⟩, _, rfl, rfl⟩
set_option maxRecDepth 20000 in
/-- An MLOOP of a handler on the register of the C seat's own frozen loop. -/
theorem witness_LoopWords_frozen :
    let h := { handler0 false with saved := seatIs .c (fun t => { t with loop := some loop0 }) Ctx.reset }
    let s := onCore .c (fun c => { c with l := c.l.set 0 3 }) fun c => { c with handler := some h }
    Issues s .c false (.mloop false 0 0 0 0) ∧ ((here s).seat .c).loop = none ∧ (s.coreAt s.cur).handler = some h ∧ (h.saved.seat .c).body = some loop0 ∧
    loop0.reg = 0 ∧ (s.coreAt s.cur).urgent = false := ⟨⟨rfl, rfl⟩, rfl, rfl, rfl, rfl, rfl⟩
set_option maxRecDepth 20000 in
theorem witness_LoopWords_squashed :
    let lp := { loop0 with stage := 1, ms := 1 }
    let s := on .a (seatIs .a fun t => { t with loop := some lp })
    s.turn = .seat .a ∧ s.canIssue .a = true ∧ ((here s).seat .a).body = some lp ∧ lp.issues = false := ⟨rfl, rfl, rfl, rfl⟩
/-- The stop of a unit of core 0. -/
def stopIs (q : Stop) (c : Core) : Core := { c with unit := c.unit.map fun u => { u with stop := some q } }
set_option maxRecDepth 20000 in
/-- An urgent stop holds an MLOOP; at the MLOOP where a forced early epilogue has ended, the loop stands with its iterations still to run. -/
theorem witness_LoopWords_resumed :
    let s := onCore .m id (stopIs { why := .preempt, posted := 0, urgent := true, clks := 0 })
    let lp := { loop0 with lepi := true, lsq := true, i0 := 2 }
    let t := on .m (seatIs .m fun t => { t with loop := some lp })
    Issues s .m false (.mloop false 0 1 0 0) ∧ (s.coreAt s.cur).urgent = true ∧
    Issues t .m false (.mloop false 0 1 0 0) ∧ (t.coreAt t.cur).urgent = false ∧ ((here t).seat .m).loop = some lp :=
  ⟨⟨rfl, rfl⟩, rfl, ⟨rfl, rfl⟩, rfl, rfl⟩
set_option maxRecDepth 20000 in
/-- A stroked MLOOP beside an active seat, alone, in a delay slot, in a body. -/
theorem witness_LoopWords_stroked :
    let s := on .c (seatIs .a fun t => { t with act := true })
    let w := on .c (seatIs .c fun t => { t with dslots := 1 })
    let b := on .c (seatIs .c fun t => { t with loop := some loop0 })
    s.canIssue .c = true ∧ ((here s).seat .c).body = none ∧ (s.coreAt s.cur).handler = none ∧ (here s).actives ≠ [.c] ∧
    (on .c id).canIssue .c = true ∧ (here (on .c id)).actives = [.c] ∧ w.canIssue .c = true ∧ ((here w).seat .c).dslots ≠ 0 ∧
    b.canIssue .c = true ∧ ((here b).seat .c).body.isSome = true := by decide
/-- C and A at a word each, both active: the words from the start of the scratchpad on. -/
def two (w v : Nat) (f : Ctx → Ctx) : State :=
  put (padBase 0) 8 (w + v * 2 ^ 32) (on .c (f ∘ seatIs .a fun t => { t with act := true, pc := base + 4 }))
set_option maxRecDepth 20000 in
/-- MLOOP.S of l0 with a trip of 3, in C and A. -/
theorem witness_LoopWords_met :
    let s := two 0xFC81C100 0xFC81C100 fun c => { c with l := c.l.set 0 3 }
    s.nextWord s.cur .c = .word (.mloop true 0 7 0 1) ∧ (s.coreAt s.cur).seatWaits .c = false ∧ ((here s).seat .c).dslots = 0 ∧
    ((here s).seat .c).loop = none ∧ (s.coreAt s.cur).urgent = false ∧ (∀ j, ((here s).seat j).body = none) ∧
    ((here s).l.get (0 : BitVec 3).toFin).toNat % 2 ^ 32 ≠ 0 := by
  refine ⟨?_, rfl, rfl, rfl, rfl, fun j => by cases j <;> rfl, ?_⟩ <;> decide

/-! ## Witnesses: events of the seats and of traps -/

/-- The state with the context of core 0, or its core, changed. -/
def core0 (g : Core → Core) : State := onCore .c id g

theorem core0_other (g : Core → Core) (m : CoreId) (hm : m ≠ 0) : (core0 g).coreAt m = Core.reset := by
  have h1 : ((on .c id).modCore 0 g).coreAt m = (on .c id).coreAt m := State.coreAt_modCore_ne _ _ _ _ hm
  have h2 : (on .c id).coreAt m = (State.reset.placeWord 0x7C000000).coreAt m := State.coreAt_modCtx_ne (State.reset.placeWord 0x7C000000) 0 m _ hm
  have h3 : (State.reset.placeWord 0x7C000000).coreAt m = State.reset.coreAt m := by
    unfold State.placeWord; dsimp only; exact State.coreAt_modCore_ne State.reset State.reset.cur m (fun _ => _) hm
  rw [show (core0 g).coreAt m = ((on .c id).modCore 0 g).coreAt m from rfl, h1, h2, h3]
  show (Vector.replicate 352 Core.reset)[m.val] = _
  simp
/-- Context 0 of die Bow with the given values. -/
def ctx0 (g : Context → Context) (s : State) : State := s.modDie .bow fun d => { d with contexts := d.contexts.set 0 (g (d.contexts.get 0)) }

/-- A pending cause. -/
def cause0 (c : Cause) (tv : Dw) : SeatCause := { cause := c, tval := tv, tpc := base, issued := true }

set_option maxRecDepth 20000 in
theorem witness_SeatEvents :
    let s := core0 fun c => { c with hold := true }
    (s.coreAt 0).hold = true ∧ (s.coreAt 0).ctx.mustHold = false ∧ (s.coreAt 0).logFull = false := by decide
set_option maxRecDepth 20000 in
theorem witness_SeatEvents_runout :
    let s := on .c (seatIs .c fun t => { t with pc := base + 64 })
    s.ranOut 0 .c = true ∧ (s.coreAt 0).handler = none ∧ ((s.coreAt 0).ctx.seat .c).body = none := by decide
set_option maxRecDepth 20000 in
theorem witness_SeatEvents_body :
    let s := on .a (seatIs .a fun t => { t with pc := base + 64, loop := some loop0 })
    s.ranOut 0 .a = true ∧ ((s.coreAt 0).ctx.seat .a).body.isSome = true := by decide
set_option maxRecDepth 20000 in
theorem witness_SeatEvents_handler :
    let s := onCore .c (seatIs .c fun t => { t with pc := base + 64 }) fun c => { c with handler := some (handler0 false) }
    s.ranOut 0 .c = true ∧ (s.coreAt 0).handler.isSome = true := by decide

/-- How a rendezvous goes. -/
def jointKind : Joint → Nat
  | .issued _ => 0
  | .stall => 1
  | .trap _ _ _ => 2
set_option maxRecDepth 20000 in
theorem witness_Rendezvous :
    let s := two 0xFC000000 0xFC000000 id
    s.atStart 0 = true ∧ s.meetDue = true ∧ s.partners = [.c, .a] ∧ (∀ k ∈ s.partners, ∀ z, s.partnerV k ≠ .stall z) ∧ s.trapsOf s.partners = [] ∧
    jointKind (s.issueAll s.partners) = 0 := by
  have h : (two 0xFC000000 0xFC000000 id).partners = [.c, .a] := by decide
  refine ⟨by decide, by decide, h, ?_, by decide, by decide⟩
  rw [h]
  intro k hk
  simp only [List.mem_cons, List.not_mem_nil, or_false] at hk
  rcases hk with rfl | rfl <;> intro z hz <;> cases hz
set_option maxRecDepth 20000 in
/-- Both wait for a token that holds one; two posts that pass the token's range only together: in both nothing traps or stalls by itself. -/
theorem witness_Rendezvous_together :
    let s := two 0xFD880800 0xFD880800 fun c => { c with k := c.k.set 1 1 }
    let t := two 0xFD080800 0xFD080800 fun c => { c with k := c.k.set 1 65534 }
    decode .c 0xFD880800 = .ok (.twait true 1 1) ∧ decode .c 0xFD080800 = .ok (.tpost true 1 1) ∧
    s.atStart 0 = true ∧ s.meetDue = true ∧ s.trapsOf s.partners = [] ∧ jointKind (s.issueAll s.partners) = 1 ∧
    t.atStart 0 = true ∧ t.meetDue = true ∧ t.trapsOf t.partners = [] ∧ jointKind (t.issueAll t.partners) = 2 := by
  refine ⟨rfl, rfl, ?_, ?_, ?_, ?_, ?_, ?_, ?_, ?_⟩ <;> decide
set_option maxRecDepth 20000 in
/-- A posts past the token's range. -/
theorem witness_Rendezvous_trap :
    let s := two 0xFC000000 0xFD0C0800 fun c => { c with k := c.k.set 1 65535 }
    decode .a 0xFD0C0800 = .ok (.tpost true 1 129) ∧
    s.atStart 0 = true ∧ s.meetDue = true ∧ (s.trapsOf s.partners).map (fun b => b.1) = [.a] := by
  refine ⟨rfl, by decide, by decide, by decide⟩
set_option maxRecDepth 20000 in
theorem witness_TrapEntry :
    let s := ctx0 (fun x => { x with shbase := base + 128 }) (on .c (seatIs .a fun t => { t with cause := some (cause0 .alignment 3) }))
    s.mayTrap 0 = true ∧ (s.coreAt 0).handler = none ∧ (s.coreAt 0).ctx.firstCause = some (.a, cause0 .alignment 3) ∧ supEntry s 0 ≠ 0 ∧
    (s.coreAt 0).ctx.uhandGov = 0 := ⟨rfl, rfl, rfl, by decide, rfl⟩
set_option maxRecDepth 20000 in
theorem witness_TrapEntry_none :
    let s := on .c (seatIs .a fun t => { t with cause := some (cause0 .alignment 3) })
    s.mayTrap 0 = true ∧ (s.coreAt 0).handler = none ∧ (s.coreAt 0).ctx.firstCause = some (.a, cause0 .alignment 3) ∧ toSupervisor s 0 .alignment ∧
    supEntry s 0 = 0 := ⟨rfl, rfl, rfl, .inr rfl, rfl⟩
set_option maxRecDepth 20000 in
theorem witness_TrapEntry_user :
    let s := on .c fun c => { seatIs .a (fun t => { t with cause := some (cause0 .alignment 3) }) c with uhandGov := base + 8 }
    s.mayTrap 0 = true ∧ (s.coreAt 0).ctx.firstCause = some (.a, cause0 .alignment 3) ∧ ¬toSupervisor s 0 .alignment := by
  refine ⟨rfl, rfl, ?_⟩; unfold toSupervisor; decide
set_option maxRecDepth 20000 in
theorem witness_TrapEntry_again :
    let s (sup : Bool) : State := ctx0 (fun x => { x with shbase := base + 128 })
      (onCore .c (seatIs .c fun t => { t with cause := some (cause0 .software 9) }) fun c => { c with handler := some (handler0 sup) })
    (s false).mayTrap 0 = true ∧ ((s false).coreAt 0).handler = some (handler0 false) ∧ (((s false).coreAt 0).ctx.seat .c).cause = some (cause0 .software 9) ∧
    supEntry (s false) 0 ≠ 0 ∧ (s true).mayTrap 0 = true ∧ ((s true).coreAt 0).handler = some (handler0 true) ∧
    (((s true).coreAt 0).ctx.seat .c).cause = some (cause0 .software 9) ∧ supEntry (core0 id) 0 = 0 :=
  ⟨rfl, rfl, rfl, by decide, rfl, rfl, rfl, rfl⟩
set_option maxRecDepth 20000 in
theorem witness_ReturnFromTrap :
    Issues (on .c id) .c false (.rft false) ∧ ((on .c id).coreAt (on .c id).cur).handler = none ∧
    Issues (inHandler true) .c false (.rft false) ∧ (here (inHandler true)).inflight = [] ∧ (handler0 true).saved.awaitsDump = false ∧
    (handler0 true).writes = [] ∧ (handler0 true).bad = false ∧ ({ handler0 true with bad := true } : Handler).bad = true ∧
    Issues (onCore .c id fun c => { c with handler := some { handler0 true with bad := true } }) .c false (.rft false) ∧
    ({ handler0 true with saved := { Ctx.reset with inflight := [{ result0 with ready := false }] } } : Handler).saved.awaitsDump = true ∧
    (∀ lp, ((handler0 true).saved.seat .c).loop = some lp → lp.len ≠ 0) ∧
    (here (onCore .c (fun c => { c with inflight := [result0] }) fun c => { c with handler := some (handler0 false) })).inflight ≠ [] ∧
    Issues (onCore .c (fun c => { c with inflight := [result0] }) fun c => { c with handler := some (handler0 false) }) .c false (.rft false) :=
  ⟨⟨rfl, rfl⟩, rfl, ⟨rfl, rfl⟩, rfl, rfl, rfl, rfl, rfl, ⟨rfl, rfl⟩, rfl, nofun, by decide, rfl, rfl⟩
/-- A session of core 0's context. -/
def session0 : Session :=
  { sid := 7, isOpen := true, prim := true, rod := false, part := 0, ctx := 0, epq := 5, lastsent := 0, cseq := 0, fstr := none, sstr := none, fin := 0, sin := 0, gslot := 0,
    raddr := 0, rjob := 0, rpid := 0, err := false }
set_option maxRecDepth 20000 in
theorem witness_EngineFaultsAndMasters :
    let s := ctx0 (fun x => { x with shbase := base + 128 }) (core0 fun c => { c with efq := [{ tval := 5, cause := 7 }] })
    let f := core0 fun c => { c with frozen := some .master, cpFrozen := true }
    (s.coreAt 0).efq = [{ tval := 5, cause := 7 }] ∧ s.efDue 0 = true ∧ supEntry s 0 ≠ 0 ∧ (f.coreAt 0).frozen = some .master ∧
    (f.coreAt 0).unit.isSome = true ∧ (f.coreAt 0).dbg.rec_ = false ∧ (f.coreAt 0).cpFrozen = true := ⟨rfl, rfl, by decide, rfl, rfl, rfl, rfl⟩
set_option maxRecDepth 20000 in
/-- A core frozen for want of a supervisor handler, one copy of whose frozen engine stands for its operation 9, its unit in a phase of die Bow. -/
theorem witness_EngineFaultsAndMasters_copies :
    let k := { copy0 with op := some 9 }
    let s := (core0 fun c => { c with frozen := some .master, cpFrozen := true, chosen := some .a, copies := [{ copy0 with op := some 9 }],
                                      ops := [op0 (.copy 9)], unit := c.unit.map fun u => { u with phid := 1 } }).modDie .bow fun d => { d with phases := [phase0] }
    (s.coreAt 0).frozen = some .master ∧ (s.coreAt 0).chosen = some .a ∧ (s.coreAt 0).cpFrozen = true ∧ k ∈ (s.coreAt 0).copies ∧ k.op = some 9 ∧
    ((s.coreAt 0).op? 9).isSome = true ∧ ((s.coreAt 0).ownerUnit k.owner).map (fun u => u.phid) = some 1 ∧ s.phaseHome (dieOf 0) 1 = .bow ∧
    (s.die .bow).phase? 1 = some phase0 := by
  refine ⟨rfl, rfl, rfl, ?_, rfl, ?_, ?_, ?_, ?_⟩ <;> decide
set_option maxRecDepth 20000 in
theorem witness_EngineFaultsAndMasters_die :
    let s := State.reset.modDie .stern fun d => { d with frozenQs := [5], frozenFns := [32], sessions := [session0] }
    (5 : Fin 64).val ∈ (s.die .stern).frozenQs ∧ (32 : Fin 33).val ∈ (s.die .stern).frozenFns ∧ session0 ∈ (s.die .stern).sessions ∧
    session0.isOpen = true ∧ session0.epq = 5 := by decide
set_option maxRecDepth 20000 in
/-- A frozen function that has submitted phase 1, in which core 0's unit runs. -/
theorem witness_EngineFaultsAndMasters_phases :
    let s := (core0 fun c => { c with unit := c.unit.map fun u => { u with phid := 1 } }).modDie .bow fun d => { d with phases := [phase0], frozenFns := [0] }
    (0 : Fin 33).val ∈ (s.die .bow).frozenFns ∧ (s.die .bow).phase? 1 = some phase0 ∧ phase0.cmd.fn = 0 ∧ dieOf 0 = .bow ∧
    ((s.coreAt 0).unit.map fun u => u.phid) = some 1 := by decide
/-- The handler of core 0 asks for r. -/
def asking (r : SysReq) : State := core0 fun c => { c with handler := some { handler0 true with req := some r } }
set_option maxRecDepth 20000 in
theorem witness_HandlerRequests :
    asksFor (asking (.inval 0x1000)) 0 (.inval 0x1000) ∧ (0x1000 : Dw).extractLsb' 0 2 = 0 ∧ asksFor (asking (.inval 1)) 0 (.inval 1) ∧
    asksFor (asking (.inval 2)) 0 (.inval 2) ∧
    contextLost (asking (.inval 2)).dwAt ((asking (.inval 2)).contextOf 0 ((asking (.inval 2)).ctxOn 0)).ctxd = none ∧
    asksFor (asking .invalDone) 0 .invalDone := by
  refine ⟨⟨_, rfl, rfl⟩, rfl, ⟨_, rfl, rfl⟩, ⟨_, rfl, rfl⟩, ?_, ⟨_, rfl, rfl⟩⟩
  decide
set_option maxRecDepth 20000 in
theorem witness_HandlerRequests_others :
    asksFor (asking (.cpyres base)) 0 (.cpyres base) ∧ ((asking (.cpyres base)).coreAt 0).unit.isSome = true ∧
    ((asking (.cpyres base)).coreAt 0).engineEntries < 64 ∧ asksFor (asking (.save base)) 0 (.save base) ∧ asksFor (asking (.fdata (some 4))) 0 (.fdata (some 4)) ∧
    asksFor (asking (.fdata none)) 0 (.fdata none) := ⟨⟨_, rfl, rfl⟩, rfl, by decide, ⟨_, rfl, rfl⟩, ⟨_, rfl, rfl⟩, ⟨_, rfl, rfl⟩⟩
set_option maxRecDepth 20000 in
theorem witness_HandlerRequests_fdata_limit :
    ((asking (.fdata none)).coreAt 0).fidx ≤ (if (handler0 true).saveWritten then 29439 else 4095) ∧
    ((core0 fun c => { c with fidx := 29439 }).coreAt 0).fidx ≤
      (if ({ handler0 true with saveWritten := true } : Handler).saveWritten then 29439 else 4095) ∧
    (if (handler0 true).saveWritten then 29439 else 4095) < ((core0 fun c => { c with fidx := 4096 }).coreAt 0).fidx := by decide
set_option maxRecDepth 20000 in
/-- A walk found by an INVAL's write still runs, and none does. -/
theorem witness_HandlerRequests_walk :
    let w : Walk := { ctx := 0, page := 1, started := true, stale := true, waiters := [] }
    let s := (asking .invalDone).modDie .bow fun d => { d with walks := [w] }
    asksFor s 0 .invalDone ∧ w ∈ (s.die (dieOf 0)).walks ∧ w.ctx = s.ctxOn 0 ∧ ((asking .invalDone).die (dieOf 0)).walks = [] :=
  ⟨⟨_, rfl, rfl⟩, List.mem_singleton.mpr rfl, rfl, rfl⟩
/-- The service ring of context 0 with write index w: its header, its four slots and its cursor, at 0, in the scratchpad, the reply doubleword at the start
of the next KiB. -/
def svRing (w : Nat) (r : SysReq) : State :=
  put (padBase 0 + 64) 64 (header w (localBase + 512) 2 4 (localBase + 128) 1)
    (ctx0 (fun x => { x with svring := base + 64, svrep := base + 1024 }) (asking r))
set_option maxRecDepth 20000 in
theorem serviceRing_svRing (w : Nat) (r : SysReq) (h : w = 0 ∧ r = .svreq 5 ∨ w = 4 ∧ (r = .svreq 5 ∨ r = .svfull 5 0)) :
    serviceRing ((svRing w r).homeStore (padBase 0 + 1024) (leBytes 0 8)) 0 (padBase 0 + 64) 0 ∧ serviceRing (svRing w r) 0 (padBase 0 + 64) 0 := by
  rcases h with ⟨rfl, rfl⟩ | ⟨rfl, rfl | rfl⟩ <;> refine ⟨⟨?_, ?_, ?_, ?_⟩, ?_, ?_, ?_, ?_⟩ <;> decide
set_option maxRecDepth 20000 in
theorem witness_HandlerRequests_svreq :
    let s := svRing 0 (.svreq 5)
    let u := s.homeStore (padBase 0 + 1024) (leBytes 0 8)
    let f := (svRing 4 (.svreq 5)).homeStore (padBase 0 + 1024) (leBytes 0 8)
    asksFor s 0 (.svreq 5) ∧ s.replyTr 0 = .ok (padBase 0 + 1024) ∧
    u.svTr 0 needWr (ringSlotVa (u.recAt (padBase 0 + 64)) (recU (u.recAt (padBase 0 + 64)) 0 64)) 8 = .ok (padBase 0 + 512) ∧
    ringFull (u.recAt (padBase 0 + 64)) 0 = false ∧ MemInv s ∧ s.hitsSlot (padBase 0 + 1024) 8 = false ∧
    16 * recU (u.recAt (padBase 0 + 64)) 136 16 = 64 ∧ apart (padBase 0 + 1024) 8 (padBase 0 + 512) 64 ∧
    f.svTr 0 needWr (ringSlotVa (f.recAt (padBase 0 + 64)) (recU (f.recAt (padBase 0 + 64)) 0 64)) 8 = .ok (padBase 0 + 512) ∧
    ringFull (f.recAt (padBase 0 + 64)) 0 = true := by
  refine ⟨⟨_, rfl, rfl⟩, ?_, ?_, ?_, ?_, ?_, ?_, ?_, ?_, ?_⟩
  all_goals first | decide | (unfold MemInv; decide) | (unfold apart; decide)
set_option maxRecDepth 20000 in
theorem witness_HandlerRequests_full :
    let s := svRing 4 (.svfull 5 0)
    asksFor s 0 (.svfull 5 0) ∧ ringFull (s.recAt (padBase 0 + 64)) 0 = true ∧
    s.svTr 0 needWr (ringSlotVa (s.recAt (padBase 0 + 64)) (recU (s.recAt (padBase 0 + 64)) 0 64)) 8 = .ok (padBase 0 + 512) := by
  refine ⟨⟨_, rfl, rfl⟩, ?_, ?_⟩ <;> decide
set_option maxRecDepth 20000 in
theorem witness_HandlerRequests_reply :
    let s := put (padBase 0 + 1024) 8 6 (svRing 0 .reply)
    (s.coreAt 0).handler = some { handler0 true with req := some .reply } ∧ s.replyTr 0 = .ok (padBase 0 + 1024) ∧
    s.valueAt (padBase 0 + 1024) 8 ≠ 0 ∧ (svRing 0 .reply).replyTr 0 = .ok (padBase 0 + 1024) ∧ (svRing 0 .reply).valueAt (padBase 0 + 1024) 8 = 0 := by
  refine ⟨rfl, ?_, ?_, ?_, ?_⟩ <;> decide
set_option maxRecDepth 20000 in
theorem witness_SystemRegisters_ring : (svRing 0 .reply).svcRingOk 0 = true := by decide

/-! ## Witnesses: operations, slots, walks, copies and rings -/

/-- Core 0 with one operation. -/
def withOp (k : OpKind) (f : MemOp → MemOp) (g : Core → Core) : State := core0 fun c => g { c with ops := [f (op0 k)] }

set_option maxRecDepth 20000 in
theorem witness_OperationsPerformed_store :
    let o := op0 (.store (padBase 0 + 64) [1, 2])
    let s := withOp (.store (padBase 0 + 64) [1, 2]) id id
    mayPerform s 0 9 o ∧ (0 : Nat) ∉ o.done ∧ s.hitsSlot (padBase 0 + 64) 2 = false ∧ MemInv s ∧
    mayPerform (withOp (.store (padBase 0 + 64) [1, 2]) (fun o => { o with homed := true }) id) 0 9 { o with homed := true } ∧
    mayReturn (withOp (.store (padBase 0 + 64) [1, 2]) (fun o => { o with homed := true }) id) 0 { o with homed := true } := by
  refine ⟨⟨rfl, by decide, _, rfl, rfl⟩, by decide, ?_, ?_, ⟨rfl, by decide, _, rfl, rfl⟩, fun _ => ⟨rfl, rfl⟩⟩
  · decide
  · unfold MemInv; decide
set_option maxRecDepth 20000 in
/-- A store to the other die's HBM, performed there. -/
theorem witness_OperationsPerformed_far :
    let o := { op0 (.store (hbmBase .stern) [1]) with homed := true }
    let s := withOp (.store (hbmBase .stern) [1]) (fun o => { o with homed := true }) id
    mayPerform s 0 9 o ∧ State.overBridge 0 o = true ∧ (s.die (dieOf 0)).snap = none ∧ o.reply = none ∧ o.homed = true :=
  ⟨⟨rfl, by decide, _, rfl, rfl⟩, by decide, rfl, rfl, rfl⟩
set_option maxRecDepth 20000 in
theorem witness_OperationsPerformed_stv :
    let o := op0 (.stv blocks0 7)
    let s := withOp (.stv blocks0 7) id id
    mayPerform s 0 9 o ∧ blocks0[15]? = some (padBase 0 + 960) ∧ (15 : Nat) ∉ o.done ∧ s.hitsSlot (padBase 0 + 960) 64 = false ∧ MemInv s := by
  refine ⟨⟨rfl, by decide, _, rfl, rfl⟩, ?_, ?_, ?_, ?_⟩
  all_goals first | decide | (unfold MemInv; decide)
set_option maxRecDepth 20000 in
/-- AMOADD on a word, AMOCAS on a doubleword that holds another value, and the former once its home has performed it. -/
theorem witness_OperationsPerformed_amo :
    let add := OpKind.amo (padBase 0) false 0 5 0 3
    let cas := OpKind.amo (padBase 0) true 7 5 9 3
    mayPerform (withOp add id id) 0 9 (op0 add) ∧ (0 : Nat) ∉ (op0 add).done ∧ (withOp add id id).hitsSlot (padBase 0) 4 = false ∧
    (withOp add id id).poisoned (padBase 0) 4 = false ∧ MemInv (withOp add id id) ∧ amoBytes (withOp add id id).mem (padBase 0) 4 0 5 0 = some [5, 0, 0, 0x7C] ∧
    mayPerform (withOp cas id id) 0 9 (op0 cas) ∧ amoBytes (withOp cas id id).mem (padBase 0) 8 7 5 9 = none ∧
    mayPerform (withOp add (fun o => { o with homed := true, done := [0] }) id) 0 9 { op0 add with homed := true, done := [0] } ∧
    mayReturn (withOp add id id) 0 { op0 add with homed := true, done := [0] } := by
  refine ⟨⟨rfl, by decide, _, rfl, rfl⟩, ?_, ?_, ?_, ?_, rfl, ⟨rfl, by decide, _, rfl, rfl⟩, rfl, ⟨rfl, by decide, _, rfl, rfl⟩, fun _ => ⟨rfl, rfl⟩⟩
  all_goals first | decide | (unfold MemInv; decide)
set_option maxRecDepth 20000 in
/-- A store of two bytes into the region of a slot that expects 128 bytes of which none, 125 or 127 have come, and which an AWAIT waits at. -/
theorem witness_OperationsPerformed_counts :
    let k := OpKind.store (padBase 0 + 64) [1, 2]
    let x (n : Word) : Slot := { slot0 (padBase 0) (padBase 0 + 64) with arrived := n, waiters := [.await 0] }
    let s (n : Word) : State := { withOp k id fun c => { c with ctx := { c.ctx with await := some (.await (padBase 0) true true none) } } with slots := [x n] }
    mayPerform (s 0) 0 9 (op0 k) ∧ (s 0).hitsSlot (padBase 0 + 64) 2 = false ∧ MemInv (s 0) ∧ (s 0).slots = [] ++ x 0 :: [] ∧
    overlaps (padBase 0 + 64) 2 (x 0).base (64 * (x 0).len64) = true ∧ (x 0).kind = 0 ∧ countedOf (x 0) (padBase 0 + 64) 2 = 2 ∧
    (x 125).arrived.toNat + 2 < (x 125).expect.toNat ∧ (x 126).expect.toNat ≤ (x 126).arrived.toNat + 2 ∧ (x 127).expect.toNat < (x 127).arrived.toNat + 2 ∧
    mayPerform (s 127) 0 9 (op0 k) ∧ Waiter.await 0 ∈ (x 127).waiters ∧ ((s 127).coreAt 0).ctx.await = some (.await (x 127).pa true true none) ∧
    ((s 127).die (dieOf 0)).snap = none := by
  refine ⟨⟨rfl, by decide, _, rfl, rfl⟩, ?_, ?_, rfl, ?_, rfl, ?_, ?_, ?_, ?_, ⟨rfl, by decide, _, rfl, rfl⟩, ?_, rfl, rfl⟩
  all_goals first | decide | (unfold MemInv; decide)
set_option maxRecDepth 20000 in
theorem witness_OperationsPerformed_load :
    let o := op0 (.load (padBase 0) 4 true 3)
    let s := withOp (.load (padBase 0) 4 true 3) id id
    mayPerform s 0 9 o ∧ mayReturn s 0 o ∧ s.poisoned (padBase 0) 4 = false ∧ noSlotAt s (padBase 0) 4 ∧
    ({ s with poison := [padBase 0] } : State).poisoned (padBase 0) 4 = true ∧ mayPerform { s with poison := [padBase 0] } 0 9 o := by
  refine ⟨⟨rfl, by decide, _, rfl, rfl⟩, fun _ => ⟨rfl, rfl⟩, by decide, ?_, by decide, ⟨rfl, by decide, _, rfl, rfl⟩⟩; unfold noSlotAt; decide
set_option maxRecDepth 20000 in
theorem witness_OperationsPerformed_ldv :
    let o := { op0 (.ldv blocks0 base 0 0) with homed := true }
    let s := withOp (.ldv blocks0 base 0 0) (fun o => { o with homed := true }) id
    mayPerform s 0 9 o ∧ mayReturn s 0 o ∧ o.homed = true ∧ o.bad = [] := by
  refine ⟨⟨rfl, by decide, _, rfl, rfl⟩, fun _ => ⟨rfl, rfl⟩, rfl, rfl⟩

/-- A waits at the home for the answer of its operation. -/
def answering (k : OpKind) : State := withOp k id fun c => { c with ctx := { c.ctx with await := some (.answer 9) } }
theorem asksHome_answering (k : OpKind) (h : (answering k).mayStep 0 (op0 k) = true) : ∃ u, asksHome (answering k) 0 u (op0 k) :=
  ⟨_, rfl, rfl, rfl, ⟨rfl, h, _, rfl, rfl⟩, fun e he _ => by
    have he : e ∈ [op0 k] := he
    cases List.mem_singleton.mp he; rfl⟩
/-- The record of ASET: expect 64, region at the second KiB of the scratchpad, two blocks long. -/
def asetRec (kind dl : Nat) : Nat := 64 + kind * 2 ^ 32 + (localBase + 1024) * 2 ^ 128 + 2 * 2 ^ 192 + dl * 2 ^ 256
set_option maxRecDepth 20000 in
theorem witness_SlotEvents_aset :
    let s := put (padBase 0 + 64) 64 (asetRec 0 0) (answering (.aset (padBase 0 + 64) (padBase 0 + 128) 0 base))
    let r := s.recAt (padBase 0 + 64)
    (∃ u, asksHome s 0 u (op0 (.aset (padBase 0 + 64) (padBase 0 + 128) 0 base)) ∧ u.ctx = s.ctxOn 0 ∧ u.part = s.partOn 0) ∧
    s.poisoned (padBase 0 + 64) 64 = false ∧
    translate s 0 (s.ctxOn 0) (s.partOn 0) (.seat .a) false needRd false (r.extractLsb' 128 64) 1 = .ok (padBase 0 + 1024) ∧
    s.asetCheck 0 (s.ctxOn 0) (.seat .a) (padBase 0 + 128) (padBase 0 + 1024) (r.extractLsb' 128 64) r = none ∧
    s.asetCheck 0 (s.ctxOn 0) (.seat .a) (padBase 0 + 132) (padBase 0 + 1024) (r.extractLsb' 128 64) r = some .slotPlacement := by
  refine ⟨⟨_, ⟨rfl, rfl, rfl, ⟨rfl, rfl, _, rfl, rfl⟩, fun e he _ => ?_⟩, rfl, rfl⟩, ?_, ?_, ?_, ?_⟩
  · have he : e ∈ [op0 (.aset (padBase 0 + 64) (padBase 0 + 128) 0 base)] := he
    cases List.mem_singleton.mp he; rfl
  all_goals decide
set_option maxRecDepth 20000 in
theorem witness_SlotEvents_guarded :
    let s := put (padBase 0 + 64) 64 (asetRec 4 1000) (answering (.aset (padBase 0 + 64) (padBase 0 + 128) 0 base))
    let r := s.recAt (padBase 0 + 64)
    r.extractLsb' 32 3 = 4 ∧ r.extractLsb' 256 64 ≠ 0 ∧ s.asetCheck 0 (s.ctxOn 0) (.seat .a) (padBase 0 + 128) (padBase 0 + 1024) (r.extractLsb' 128 64) r = none := by
  refine ⟨?_, ?_, ?_⟩ <;> decide
set_option maxRecDepth 20000 in
theorem witness_SlotEvents_afree :
    let x := slot0 (padBase 0) (padBase 0 + 64)
    let s (l : List Slot) : State := { answering (.afree (padBase 0)) with slots := l }
    (∀ l, (s l).mayStep 0 (op0 (.afree (padBase 0))) = true → ∃ u, asksHome (s l) 0 u (op0 (.afree (padBase 0)))) ∧
    (s []).mayStep 0 (op0 (.afree (padBase 0))) = true ∧ (s [x]).mayStep 0 (op0 (.afree (padBase 0))) = true ∧
    (s [x]).slot? (padBase 0) = some x ∧ x.waiters = [] ∧ (s []).slot? (padBase 0) = none ∧
    (s [{ x with waiters := [.await 3] }]).slot? (padBase 0) = some { x with waiters := [.await 3] } ∧
    (((s []).coreAt 0).ctx.seat .a).loop = none ∧ (((s []).coreAt 0).ctx.seat .a).dslots = 0 :=
  ⟨fun l h => ⟨_, rfl, rfl, rfl, ⟨rfl, h, _, rfl, rfl⟩, fun e he _ => by
      have he : e ∈ [op0 (.afree (padBase 0))] := he
      cases List.mem_singleton.mp he; rfl⟩,
    rfl, rfl, by decide, rfl, rfl, by decide, rfl, rfl⟩
/-- A guarded slot whose deadline is time 10. -/
def guarded0 : Slot := { slot0 (padBase 0) (padBase 0 + 64) with kind := 4, dline := 10, arg := 0x2000 }
set_option maxRecDepth 20000 in
theorem witness_SlotEvents_deadline :
    let s := ({ core0 id with slots := [guarded0] } : State).modDie .bow fun d => { d with time := 10 }
    s.slot? (padBase 0) = some guarded0 ∧ guarded0.kind = 4 ∧ guarded0.dline ≠ BitVec.allOnes 64 ∧
    guarded0.dline.toNat ≤ (s.die ((homeDie (padBase 0)).getD .bow)).time ∧ (s.die ((homeDie (padBase 0)).getD .bow)).snap = none := by
  refine ⟨?_, rfl, ?_, ?_, ?_⟩ <;> decide
/-- A stream entry. -/
def cox0 : Cox :=
  { e := 3, key := 3, slow := false, iarr := false, prio := 0, level := 0, state := 0, part := 0, ctx := 0, miss := 0, nrel := 0, ndl := 0, islot := 0,
    lgraph := Vector.replicate 4 0, period := 1000, dline := 500, lcost := Vector.replicate 4 0, cmd := cmd0 8 id, jid := 0, t0 := 0, offset := 0,
    polling := false, seen := false, susp := false, iacq := 0, itime := 0, rose := false, sid := none }

set_option maxRecDepth 20000 in
theorem witness_SlotEvents_polls :
    let x := slot0 (padBase 0) (padBase 0 + 64)
    let s (w : AWait) : State := { on .c (fun c => { c with await := some w }) with slots := [x] }
    let d := (s (.line 9 (padBase 0) true)).modDie .bow fun d => { d with cox := [{ cox0 with polling := true, islot := padBase 0, seen := true }] }
    ((s (.await (padBase 0) true true none)).coreAt 0).ctx.await = some (.await (padBase 0) true true none) ∧
    (s (.await (padBase 0) true true none)).slot? (padBase 0) = some x ∧ x.phase ≠ true ∧
    ((s (.line 9 (padBase 0) true)).coreAt 0).ctx.await = some (.line 9 (padBase 0) true) ∧
    ((d.die .bow).cox.find? fun k => decide (k.e = 3)) = some { cox0 with polling := true, islot := padBase 0, seen := true } ∧
    d.slot? (padBase 0) = some x ∧ x.phase ≠ ({ cox0 with polling := true, islot := padBase 0, seen := true } : Cox).seen := by
  refine ⟨rfl, ?_, ?_, rfl, ?_, ?_, ?_⟩ <;> decide
/-- A walk for page 1 of context 0. -/
def walk0 : Walk := { ctx := 0, page := 1, started := false, stale := false, waiters := [(0, .seat .a)] }
/-- Tables in host memory, one at each multiple of 4096 from 4096 on: all levels' entry 0 leads on, and entry 1 of the last is the given one. Partition p has
context 0 of die Bow. -/
def tables (p : Nat) (leaf : Nat) (w : Walk) : State :=
  let next (k : Nat) : Nat := 1 + 4 * 2 ^ 9 + 4096 * k
  let s : State := { State.reset with parts := State.reset.parts.setIfInBounds p { exist := true, bow := { PartDie.reset with contexts := 1 }, stern := PartDie.reset } }
  put (hostBase + 4096 * 5 + 8) 8 leaf (put (hostBase + 4096 * 4) 8 (next 5) (put (hostBase + 4096 * 3) 8 (next 4) (put (hostBase + 4096 * 2) 8 (next 3)
    (put (hostBase + 4096) 8 (next 2) ((ctx0 (fun x => { x with ptroot := BitVec.ofNat 64 (hostBase + 4096) }) s).modDie .bow fun d => { d with walks := [w] })))))
/-- The walk of the tables as PAGE_WALK_COMPLETE makes it. -/
def ends (s : State) (w : Walk) : WalkRes :=
  walkTables s.dwAt (fun pa => match s.ownerOf .bow w.ctx with | some p => s.mayReach p pa | none => false) .bow (w.page.toNat * 4096) 5
    ((s.die .bow).contexts.get w.ctx).ptroot.toNat
set_option maxRecDepth 20000 in
theorem witness_SlotEvents_walks :
    let s := State.reset.modDie .bow fun d => { d with walks := [{ walk0 with started := true }, walk0] }
    let w := { walk0 with started := true }
    let v := { walk0 with started := true, stale := true }
    let leaf := 1 + 2 + 2 ^ 20
    let lost := ctx0 (fun x => { x with ptroot := BitVec.ofNat 64 (2 ^ 63) }) (tables 0 leaf w)
    (s.die .bow).walks = [w] ++ walk0 :: [] ∧ ((s.die .bow).walks.filter fun x => x.started).length < 32 ∧
    ((tables 0 leaf w).die .bow).walks[0]? = some w ∧ ends (tables 0 leaf w) w = .leaf (BitVec.ofNat 64 leaf) ∧
    ((tables 0 leaf v).die .bow).walks[0]? = some v ∧ ends (tables 0 leaf v) v = .leaf (BitVec.ofNat 64 leaf) ∧
    ends (tables 0 0 w) w = .fault .notPresent ∧ ends (tables 32 leaf w) w = .breaks (hostBase + 4096) ∧ ends lost w = .noLoc (2 ^ 63) := by
  refine ⟨rfl, ?_, rfl, ?_, rfl, ?_, ?_, ?_, ?_⟩ <;> decide
/-- A send that the peer has mirrored. -/
def send0 : Send := { sid := 7, seq := 3, time := 5, bytes := [1], asked := true, mirrored := true }
set_option maxRecDepth 20000 in
theorem witness_SlotEvents_sends :
    let s := State.reset.modDie .bow fun d => { d with sends := [send0], sessions := [session0] }
    ((s.die .bow).sends.find? fun x => decide (x.sid = 7) && x.mirrored) = some send0 ∧ send0.asked = true ∧ s.maySend .bow 7 = true ∧ (s.die .bow).session? 7 = some session0 := by decide
set_option maxRecDepth 20000 in
/-- Die Stern has asked for its sequence to be mirrored on die Bow, where the session is open. -/
theorem witness_SlotEvents_mirror :
    let m := { send0 with mirrored := false }
    let s := (State.reset.modDie .bow fun d => { d with start := .running, sessions := [session0] }).modDie .stern fun d => { d with sends := [{ send0 with mirrored := false }] }
    (s.die .bow).start = .running ∧ (s.die .bow).snap = none ∧ (s.die DieId.bow.other).snap = none ∧ m ∈ (s.die DieId.bow.other).sends ∧ m.sid = 7 ∧
    m.seq = 3 ∧ m.asked = true ∧ m.mirrored = false ∧ (s.die .bow).session? 7 = some session0 := by decide

/-- Core 0 with one copy. -/
def withCopy (f : Copy → Copy) : State := core0 fun c => { c with copies := [f copy0] }
set_option maxRecDepth 20000 in
theorem memInv_on : MemInv (on .c id) := by unfold MemInv; decide
set_option maxRecDepth 20000 in
theorem witness_CopyAndRingEvents_suspend :
    let k := { copy0 with cause := 7, done := 3 }
    let s := withCopy fun k => { k with cause := 7, done := 3 }
    let u : State := { s with slots := [slot0 (padBase 0) (padBase 0 + 1024)] }
    (s.coreAt 0).copy? k.id = some k ∧ (s.coreAt 0).mustSuspend k = true ∧ s.hitsSlot k.recPa 64 = false ∧ MemInv s ∧ k.st ≠ .fetch ∧
    (s.die (dieOf 0).other).snap = none ∧ ((s.coreAt 0).unit.map fun u => u.serial) = some k.owner ∧ k.fault = 7 ∧ u.hitsSlot k.recPa 64 = true ∧
    (u.coreAt 0).mustSuspend k = true ∧
    ((withCopy fun k => { k with cause := 7, st := .fetch }).coreAt 0).mustSuspend { copy0 with cause := 7, st := .fetch } = true :=
  ⟨rfl, rfl, rfl, memInv_on, by decide, rfl, rfl, rfl, by decide, rfl, rfl⟩
set_option maxRecDepth 20000 in
theorem witness_CopyAndRingEvents_done :
    let s := withCopy id
    let t := core0 fun c => { c with copies := [{ copy0 with op := some 9 }], ops := [op0 (.copy 9)] }
    (s.coreAt 0).copy? copy0.id = some copy0 ∧ (s.coreAt 0).copyDone copy0 = true ∧ s.hitsSlot copy0.recPa 64 = false ∧ MemInv s ∧
    (s.die (dieOf 0).other).snap = none ∧ (t.coreAt 0).copyDone { copy0 with op := some 9 } = true ∧ ((t.coreAt 0).op? 9) = some (op0 (.copy 9)) ∧
    (∀ m, m ≠ 0 → (t.coreAt m).op? 9 = none) := by
  refine ⟨rfl, rfl, rfl, memInv_on, rfl, rfl, rfl, fun m hm => ?_⟩
  rw [core0_other _ m hm]; rfl
set_option maxRecDepth 20000 in
/-- A loaded chunk of one write of two bytes. -/
theorem witness_CopyAndRingEvents_write :
    let a : ChunkWrite := { pa := padBase 0 + 512, bytes := [1, 2], cut := false }
    let x : ChunkLoad := { ixs := [], reads := [], dest := [], loaded := true, chunk := [a], begun := false, cause := 0, zeros := 0 }
    let k := { copy0 with loads := [x], record := BitVec.ofNat 512 (2 * 2 ^ 128) }
    let s := withCopy fun k => { k with loads := [x], record := BitVec.ofNat 512 (2 * 2 ^ 128) }
    (s.coreAt 0).copy? k.id = some k ∧ (s.coreAt 0).cpFrozen = false ∧ k.pending[0]? = some (0, 0, a) ∧ k.mayWrite 0 = true ∧ k.cancel = false ∧
    k.frozen = false ∧ (s.die (dieOf 0)).snap = none ∧ (s.die (dieOf 0).other).snap = none ∧
    (∀ x ∈ k.loads, ∀ b ∈ x.chunk, s.hitsSlot b.pa b.bytes.length = false) ∧ MemInv s :=
  ⟨rfl, rfl, rfl, rfl, rfl, rfl, rfl, rfl, by decide, memInv_on⟩
/-- Context 0 of partition 0 has its spill ring at the fourth 64 bytes of core 0's scratchpad, off bytes on: four slots, the cursor in the next KiB. -/
def spillRing (off : Nat) (f : Core → Core) : State :=
  put (padBase 0 + 192) 64 (header 0 (localBase + 256) 2 4 (localBase + 1024) 1)
    (ctx0 (fun x => { x with shbase := base + 128, spill := base + 192 + BitVec.ofNat 64 off })
      { core0 f with parts := State.reset.parts.set 0 { exist := true, bow := { PartDie.reset with contexts := 1 }, stern := PartDie.reset } })
set_option maxRecDepth 20000 in
theorem witness_CopyAndRingEvents_spilled :
    let k := { copy0 with spilled := true }
    let s := spillRing 0 fun c => { c with copies := [{ copy0 with spilled := true }] }
    ((s.coreAt 0).copies.find? fun k => k.spilled) = some k ∧ (s.coreAt 0).engineEntries < 64 ∧
    translateNowFor s 0 k.ctx true needRw false ((s.contextOf 0 k.ctx).spill + BitVec.ofNat 64 (64 * dieCore 0)) 64 = .ok (padBase 0 + 192) ∧
    translateNowFor s 0 k.ctx true needRw false (cursorVa (s.recAt (padBase 0 + 192)) 0) 8 = .ok (padBase 0 + 1024) ∧
    s.hitsSlot (padBase 0 + 1024) 8 = false ∧ MemInv s := by
  refine ⟨rfl, ?_, ?_, ?_, ?_, ?_⟩
  all_goals first | decide | (unfold MemInv; decide)
set_option maxRecDepth 20000 in
theorem witness_CopyAndRingEvents_latch_left :
    let s := core0 fun c => { c with latch := some { copy0 with owner := 7, spilled := true } }
    (∀ j ∈ (s.coreAt 0).copies, j.spilled = false) ∧ (s.coreAt 0).latch = some { copy0 with owner := 7, spilled := true } ∧
    ((s.coreAt 0).unit.map fun u => u.serial) = some 0 ∧ (s.coreAt 0).engineEntries < 64 ∧
    copy0.cancel = false ∧ ((core0 fun c => { c with latch := some { copy0 with cancel := true } }).coreAt 0).latch = some { copy0 with cancel := true } :=
  ⟨fun k h => (nomatch h), rfl, rfl, by decide, rfl, rfl⟩
/-- The stream and the mask are only in the bytes that a command writes. -/
theorem spillKind_any (s : State) (n : CoreId) (k : Copy) (os : BitVec 2) (pm : BitVec 4) : spillKind (s.spillWrite n k os pm) = spillKind (s.spillWrite n k 0 0) := by
  simp only [State.spillWrite]
  split
  · split
    · simp only [spillKind]
    · split
      · split <;> simp only [spillKind]
      all_goals simp only [spillKind]
  all_goals simp only [spillKind]
set_option maxRecDepth 20000 in
theorem witness_CopyAndRingEvents_spill_fault :
    let s := spillRing 8 fun c => { c with latch := some copy0 }
    (s.coreAt 0).handler = none ∧ (s.coreAt 0).unit.isSome = true ∧ (s.coreAt 0).frozen = none ∧ (s.coreAt 0).latch = some copy0 ∧
    (∀ os pm, s.spillWrite 0 copy0 os pm = .faults) ∧ supEntry s 0 ≠ 0 :=
  ⟨rfl, rfl, rfl, rfl, fun os pm => spill_faults ((spillKind_any _ _ _ os pm).trans (by decide)), by decide⟩
set_option maxRecDepth 20000 in
theorem witness_CopyAndRingEvents_spill_again :
    let s := spillRing 0 fun c => { c with latch := some copy0 }
    (s.coreAt 0).handler = none ∧ (s.coreAt 0).unit.isSome = true ∧ (s.coreAt 0).frozen = none ∧ (s.coreAt 0).latch = some copy0 ∧
    (∀ os pm, ∃ x, s.spillWrite 0 copy0 os pm = .written x) :=
  ⟨rfl, rfl, rfl, rfl, fun os pm => spill_written ((spillKind_any _ _ _ os pm).trans (by decide))⟩
/-- An idle chain of context 0, which partition 0 has; next stands at its entry's link, tail in its record. -/
def chain0 (linking : Bool) : Chain :=
  { recPa := padBase 0 + 256, ctx := 0, owner := 0, cur := none, entry := base + 512, linking := linking, stuck := false, cancel := false }
def chained (linking : Bool) (next tail : Nat) : State :=
  put (padBase 0 + 264) 8 tail (put (padBase 0 + 576) 8 next (spillRing 0 fun c => { c with chains := [chain0 linking] }))
set_option maxRecDepth 20000 in
theorem witness_CopyAndRingEvents_chain :
    let s := chained false 0 0
    (s.coreAt 0).chains = [chain0 false] ∧ (chain0 false).cur = none ∧ (s.coreAt 0).cpFrozen = false ∧ (s.coreAt 0).engineEntries < 64 ∧
    (∀ k ∈ (s.coreAt 0).copies, k.spilled = false) := ⟨rfl, rfl, rfl, by decide, fun k h => nomatch h⟩
set_option maxRecDepth 20000 in
/-- A cancelled chain between entries, and one whose entry has ended. -/
theorem witness_CopyAndRingEvents_chain_ends :
    let h := { chain0 false with cancel := true }
    let g := { chain0 false with cur := some 5 }
    let s (h : Chain) := core0 fun c => { c with chains := [h] }
    ((s h).coreAt 0).chains = [h] ∧ h.cur = none ∧ h.cancel = true ∧ ((s h).coreAt 0).cpFrozen = false ∧ ((s g).coreAt 0).chains = [g] ∧ g.cur = some 5 ∧
    (∀ m, ((s g).coreAt m).copy? 5 = none) ∧ noSlotAt (s g) g.recPa 64 ∧ MemInv (s g) := by
  refine ⟨rfl, rfl, rfl, rfl, rfl, rfl, fun m => ?_, fun x h => (List.not_mem_nil (a := x) h).elim, memInv_on⟩
  by_cases hm : m = 0
  · subst hm; rfl
  · show ((core0 fun c => { c with chains := [{ chain0 false with cur := some 5 }] }).coreAt m).copy? 5 = none
    rw [core0_other _ m hm]; rfl
set_option maxRecDepth 20000 in
theorem witness_CopyAndRingEvents_link :
    let s := chained true (localBase + 768) 0
    let t := chained true 0 (localBase + 512)
    (s.coreAt 0).chains = [chain0 true] ∧ noSlotAt s (chain0 true).recPa 64 ∧ noSlotAt t (chain0 true).recPa 64 ∧
    translateNowFor s 0 (chain0 true).ctx false needRd false ((chain0 true).entry + 64) 8 = .ok (padBase 0 + 576) ∧ MemInv s ∧
    s.valueAt (padBase 0 + 576) 8 ≠ 0 ∧ t.valueAt (padBase 0 + 576) 8 = 0 ∧ t.valueAt ((chain0 true).recPa + 8) 8 = (chain0 true).entry.toNat ∧
    translateNowFor t 0 (chain0 true).ctx false needRd false ((chain0 true).entry + 64) 8 = .ok (padBase 0 + 576) ∧ MemInv t := by
  refine ⟨rfl, nofun, nofun, ?_, ?_, ?_, ?_, ?_, ?_, ?_⟩
  all_goals first | decide | (unfold MemInv; decide)
/-- A full ring's header stands in core 0's scratchpad, and partition 0 has a segment pool of 4 KiB. -/
def fullRing0 : State :=
  { withOp (.rgres (padBase 0 + 64) 3) (fun o => { o with done := [4] }) id with
    parts := State.reset.parts.set 0 { exist := true, bow := { PartDie.reset with segBase := 0x1000, segSize := 4096 }, stern := PartDie.reset }
    mem := memWriteBytes [] (padBase 0 + 64) (leBytes (header 4 (localBase + 512) 2 4 (localBase + 128) 1) 64) }
set_option maxRecDepth 20000 in
theorem witness_CopyAndRingEvents_segment :
    let h := fullRing0.recAt (padBase 0 + 64)
    (∃ f, fullRing0.fullRing 0 = some f ∧ f.hdr = padBase 0 + 64 ∧ f.part = 0) ∧ fullRing0.hitsSlot (padBase 0 + 64) 64 = false ∧ MemInv fullRing0 ∧
    h.extractLsb' 256 64 = 0 ∧ (h.extractLsb' 128 8).toNat + 1 ≤ 24 ∧
    poolPlace (fullRing0.part 0 (dieOf 0)).segUsed (fullRing0.part 0 (dieOf 0)).segSize
      (2 ^ ((h.extractLsb' 128 8).toNat + 1) * (16 * (h.extractLsb' 136 16).toNat)) = some 0 ∧
    fullRing0.hitsSlot (hbmBase (dieOf 0) + 0x1000) 512 = false := by
  refine ⟨⟨_, rfl, rfl, rfl⟩, rfl, ?_, ?_, ?_, ?_, rfl⟩
  · unfold MemInv; decide
  all_goals decide
/-- A ring whose cursor, at 4, has reached the index from which its linked segment is used. -/
def linked0 : State :=
  { put (padBase 0 + 128) 8 4 (put (padBase 0 + 64) 64 (header 5 (localBase + 512) 2 4 (localBase + 128) 1 + (localBase + 1024) * 2 ^ 256 + 3 * 2 ^ 320 + 4 * 2 ^ 384)
    (on .c id)) with links := [{ hdr := padBase 0 + 64, core := 0, ctx := 0, part := 0 }] }
set_option maxRecDepth 20000 in
theorem witness_CopyAndRingEvents_retire :
    linked0.segmentDue 0 = some { hdr := padBase 0 + 64, core := 0, ctx := 0, part := 0 } ∧ linked0.hitsSlot (padBase 0 + 64) 64 = false ∧ MemInv linked0 := by
  refine ⟨?_, rfl, ?_⟩
  · decide
  · unfold MemInv; decide

/-! ## Witnesses: units, phases and stops -/

/-- A unit of launch 1. -/
def unit0 : UnitInfo :=
  { serial := 0, lid := 1, uidx := 0, ucnt := 1, phid := 0, jid := 0, prio := 0, dline := 0, ctx := 0, part := 0, kdesc := 0, argb := 0,
    secs := Vector.replicate 4 { base := base, words := 16 }, crew := false, order := 0, stop := none, acq := [] }
/-- A kernel without words at an address of context 0. -/
def kernel0 : Kernel :=
  { ctx := 0, addr := 0x1000, secs := Vector.replicate 4 { base := base, words := 0 }, ft := Vector.replicate 16 0, crew := false }
/-- Die Bow running, with the kernel; partition 0 has crew 0 and room for four tasks. -/
def ready (f : Die → Die) (s : State) : State :=
  { (s.modDie .bow fun d => f { d with start := .running, kernels := [kernel0] }) with
    parts := s.parts.set 0 { exist := true, bow := { PartDie.reset with crews := 1, share := 4, tb := 10 }, stern := PartDie.reset } }
set_option maxRecDepth 20000 in
theorem witness_UnitEvents_spawn :
    let s := put (padBase 0) 64 (0x1000 + 1 * 2 ^ 160) (ready id (core0 fun c => { c with spawns := [(9, base, unit0, [])] }))
    (s.coreAt 0).spawnDue = some (9, base, unit0, []) ∧
    translateNow s 0 unit0.ctx unit0.part false needRd (decide (base.toNat % 64 ≠ 0)) base 64 = .ok (padBase 0) ∧ (s.spawnRecord 0 unit0 (padBase 0)).isSome = true := by
  refine ⟨rfl, ?_, ?_⟩ <;> decide
set_option maxRecDepth 20000 in
/-- A SPAWN of phase 1 whose record, all zeros, names no kernel. -/
theorem witness_UnitEvents_refused :
    let u := { unit0 with phid := 1 }
    let s := ready (fun d => { d with phases := [phase0] }) (core0 fun c => { c with spawns := [(9, base, { unit0 with phid := 1 }, [])] })
    (s.coreAt 0).spawnDue = some (9, base, u, []) ∧ (s.die (dieOf 0)).snap = none ∧ (s.die (dieOf 0).other).snap = none ∧
    (s.die (dieOf 0)).phase? u.phid = some phase0 ∧
    translateNow s 0 u.ctx u.part false needRd (decide (base.toNat % 64 ≠ 0)) base 64 = .ok (padBase 0) ∧ s.spawnRecord 0 u (padBase 0) = none := by
  refine ⟨rfl, rfl, rfl, ?_, ?_, ?_⟩ <;> decide
/-- A quiescent unit that waits to park at a slot. -/
def park0 (ph : BitVec 1) : ParkWait := { pc := base, slotVa := base, phase := ph, mask := 2, polling := false }
def parking (ph : BitVec 1) : State :=
  { on .c (fun c => { c with park := some (park0 ph) }) with slots := [slot0 (padBase 0) (padBase 0 + 64)] }
set_option maxRecDepth 20000 in
theorem witness_UnitEvents_park :
    let x := slot0 (padBase 0) (padBase 0 + 64)
    ((parking 1).coreAt 0).ctx.park = some (park0 1) ∧ ((parking 1).coreAt 0).unit = some unit0 ∧ (parking 1).running 0 = true ∧
    (parking 1).playing 0 = false ∧ (((parking 1).coreAt 0).ctx.seat .c).dslots = 0 ∧ unit0.cancelPending = false ∧ (parking 1).quiescent 0 = true ∧
    translate (parking 1) 0 unit0.ctx unit0.part (.seat .c) false needRd (decide ((park0 1).slotVa.toNat % 16 ≠ 0)) (park0 1).slotVa 16 = .ok (padBase 0) ∧
    (parking 1).slot? (padBase 0) = some x ∧ x.part = unit0.part ∧ x.poisoned = false ∧ x.phase ≠ decide ((park0 1).phase = 1) ∧
    x.waiters.length < 65535 ∧ x.phase = decide ((park0 0).phase = 1) ∧ (parking 0).quiescent 0 = true :=
  ⟨rfl, rfl, rfl, rfl, rfl, rfl, by decide, by decide, by decide, rfl, rfl, by decide, by decide, rfl, by decide⟩
/-- A task of one unit of the kernel, its argument block at the start of core 0's scratchpad. -/
def task0 : Task :=
  { kind := .one { kdesc := 0x1000, argb := base, uidx := 0, ucnt := 1 } 1, part := 0, ctx := 0, prio := 3, dline := 0, phid := 0, jid := 0, since := 0, acq := [] }
def placing : State := ready (fun d => { d with tasks := [task0] }) State.reset
set_option maxRecDepth 20000 in
theorem witness_UnitEvents_place :
    placing.coreFree 0 = true ∧ placing.heldFirst 0 = false ∧ placing.crewPart (crewOf 0) = some 0 ∧ (placing.die (dieOf 0)).crewTask task0 = false ∧
    (∀ r, task0.kind ≠ .cont r) ∧ placing.candidate 0 0 = some ((0, task0), true) ∧
    ((taken placing (dieOf 0) 0 task0 true).die (dieOf 0)).kernel? task0.ctx task0.kernel = some kernel0 ∧
    translateNow (taken placing (dieOf 0) 0 task0 true) 0 0 0 false needRd (decide (base.toNat % 64 ≠ 0)) base 64 = .ok (padBase 0) ∧
    ((placing.takeTask (dieOf 0) 0 task0 true).unitInfo (dieOf 0) task0 (placing.takeTask (dieOf 0) 0 task0 true).nextId).argb = base ∧
    (taken placing (dieOf 0) 0 task0 true).poisoned (padBase 0) 64 = false := by
  refine ⟨by decide, by decide, by decide, by decide, (fun r h => nomatch h), by decide, by decide, by decide, by decide, by decide⟩
/-- A parked record, its C seat to go on at base + 8, with the values 5 and 6 of c4 and c31. -/
def record0 : ContRec :=
  { cpc := base + 8, argb := base, rmask := 0x80000010, prio := 3, ucnt := 1, uidx := 0, lid := 1, phid := 0, jid := 0, ctx := 0, dline := 0,
    osc := Vector.replicate 4 7, regs := [5, 6], part := 0, kdesc := 0x1000, bad := none, acq := [], acqs := [], scov := Vector.replicate 4 [] }
def resuming : State := ready (fun d => { d with tasks := [{ task0 with kind := .cont record0 }] }) State.reset
set_option maxRecDepth 20000 in
theorem witness_UnitEvents_resume :
    let k := { task0 with kind := .cont record0 }
    resuming.coreFree 0 = true ∧ resuming.heldFirst 0 = false ∧ resuming.crewPart (crewOf 0) = some 0 ∧ resuming.candidate 0 0 = some ((0, k), true) ∧
    (resuming.die (dieOf 0)).crewTask k = false ∧ ((taken resuming (dieOf 0) 0 k true).die (dieOf 0)).kernel? k.ctx k.kernel = some kernel0 ∧
    translateNow (taken resuming (dieOf 0) 0 k true) 0 0 0 false needRd (decide (base.toNat % 64 ≠ 0)) base 64 = .ok (padBase 0) ∧
    ((resuming.takeTask (dieOf 0) 0 k true).unitInfo (dieOf 0) k (resuming.takeTask (dieOf 0) 0 k true).nextId).argb = base ∧
    (taken resuming (dieOf 0) 0 k true).poisoned (padBase 0) 64 = false ∧ record0.bad = none ∧
    record0.rmask.getLsbD (30 : Fin 32).val = false ∧ record0.rmask.getLsbD (31 : Fin 32).val = true ∧
    ((List.range (31 : Fin 32).val).filter fun b => record0.rmask.getLsbD b).length = 1 := by
  refine ⟨?_, ?_, ?_, ?_, ?_, ?_, ?_, ?_, ?_, ?_, ?_, ?_, ?_⟩ <;> decide
set_option maxRecDepth 20000 in
theorem witness_UnitEvents_retire :
    let l : Leaving := { unit := { unit0 with phid := 1 }, cancelled := false, fault := false, status := 0 }
    let la : Launch := { lid := 1, phid := 1, total := 3, done := 0, node := some 0, uidx := 0 }
    let s := (core0 fun c => { c with leaving := [l] }).modDie .bow fun d => { d with phases := [phase0], launches := [la] }
    (s.coreAt 0).leaving[0]? = some l ∧ (s.coreAt 0).retired l.unit.serial = true ∧ (s.die (dieOf 0)).phase? l.unit.phid = some phase0 ∧
    phase0.cancelled = false ∧ phase0.rejected = false ∧ ((s.die (dieOf 0)).launches.find? fun x => decide (x.lid = l.unit.lid)) = some la ∧
    la.done + 1 ≠ la.total ∧ (s.die (dieOf 0)).snap = none := by
  refine ⟨rfl, rfl, ?_, rfl, rfl, ?_, ?_, rfl⟩ <;> decide
set_option maxRecDepth 20000 in
theorem witness_UnitEvents_entry :
    let s := ready (fun d => { d with phases := [phase0], waitLaunch := [(1, 0)] }) State.reset
    s.waitReady .bow = some (1, 0) ∧ (s.die .bow).phase? 1 = some phase0 ∧ phase0.nodes[0]? = some { kdesc := 0x1000, argb := 0, units := 1, npred := 0, succ := [] } := by
  decide
/-- Context 0 reaches 8 KiB of host memory from 0x1000 on. -/
def hostRange : BitVec 256 := BitVec.ofNat 256 (0x1000 + 0x3000 * 2 ^ 64 + 2 ^ 192 + 2 ^ 193 + 2 ^ 194 + 2 ^ 195 + 4 * 2 ^ 197)
def host0 (s : State) : State := ctx0 (fun x => { x with ranges := x.ranges.set 0 hostRange }) s
set_option maxRecDepth 20000 in
theorem witness_UnitEvents_phase :
    let p := { phase0 with nst := [.complete], cnt := [0], alive := 0, cmd := cmd0 1 fun c => { c with crec := 0x1000 } }
    let s := host0 (ready (fun d => { d with phases := [p], jobs := [{ jid := 4, part := 0, isOpen := true, total := 1, done := 0 }] }) State.reset)
    (s.die .bow).phase? 1 = some p ∧ s.phaseDone .bow p = true ∧ (∀ q ∈ (s.die .bow).queuedPh, q.graph ≠ p.graph) ∧
    (s.die .bow).job? p.part p.jid = some { jid := 4, part := 0, isOpen := true, total := 1, done := 0 } ∧ p.cmd.crec ≠ 0 ∧
    s.fePa .bow p.cmd.ctx p.cmd.part needWr 64 64 p.cmd.crec = some (hostBase + 0x1000) ∧ s.hitsSlot (hostBase + 0x1000) 64 = false ∧ p.cmd.sigk = 0 ∧
    s.recBreaks .bow p.cmd = false ∧ MemInv s := by
  refine ⟨by decide, by decide, by decide, by decide, by decide, by decide, by decide, rfl, by decide, ?_⟩
  unfold MemInv; decide
set_option maxRecDepth 20000 in
/-- The phase's record stands in the die's pool, of which partition 0 has nothing. -/
theorem witness_UnitEvents_breaks :
    let p := { phase0 with nst := [.complete], cnt := [0], alive := 0, cmd := cmd0 1 fun c => { c with crec := 0x1000 } }
    let s := ctx0 (fun x => { x with ranges := x.ranges.set 0 poolRange }) (ready (fun d => { d with phases := [p] }) State.reset)
    (s.die .bow).phase? 1 = some p ∧ s.phaseDone .bow p = true ∧ (∀ q ∈ (s.die .bow).queuedPh, q.graph ≠ p.graph) ∧ s.recBreaks .bow p.cmd = true := by
  refine ⟨by decide, by decide, by decide, by decide⟩
/-- Core 0 with a unit that has the stop q. -/
def stopping (q : Stop) (t : Nat) (g : Core → Core) : State :=
  ready (fun d => { d with time := t }) (core0 fun c => g { c with unit := some { unit0 with stop := some q } })
def stop0 (w : StopWhy) (urgent : Bool) : Stop := { why := w, posted := 0, urgent := urgent, clks := 0 }
/-- A deadline task of partition 0 is ready, and the four cores of its crew run units of a lower priority. -/
def hurry : State :=
  ready (fun d => { d with tasks := [{ task0 with prio := 13, dline := 9 }] })
    ((members 0).foldl (fun s n => s.modCore n fun c => { c with unit := some unit0 }) State.reset)
set_option maxRecDepth 20000 in
theorem witness_StopAndSliceEvents_preempt :
    (hurry.preemptFor .bow 0).isSome = true ∧ hurry.hurried .bow 0 = [] := by
  refine ⟨?_, ?_⟩ <;> decide
set_option maxRecDepth 20000 in
theorem witness_StopAndSliceEvents_late :
    let s := stopping (stop0 .preempt false) 10 id
    s.stopLate 0 = true ∧ (s.coreAt 0).unit = some { unit0 with stop := some (stop0 .preempt false) } ∧ (stopping (stop0 .preempt false) 9 id).stopLate 0 = false := by
  refine ⟨by decide, rfl, by decide⟩
set_option maxRecDepth 20000 in
theorem witness_StopAndSliceEvents_urgent :
    let s := stopping (stop0 .preempt true) 0 id
    s.urgentDue 0 = true ∧ (s.coreAt 0).unit = some { unit0 with stop := some (stop0 .preempt true) } ∧ (stop0 .preempt true).why ≠ .cancel := by
  refine ⟨by decide, rfl, by decide⟩
set_option maxRecDepth 20000 in
theorem witness_StopAndSliceEvents_save :
    let s := stopping (stop0 .preempt true) 0 fun c => { c with frozen := some (.stopped .preempt false) }
    s.stopGroup 0 = [0] ∧ (s.coreAt 0).unit = some { unit0 with stop := some (stop0 .preempt true) } ∧ (s.coreAt 0).stoppedFor .preempt = true ∧
    (s.coreAt 0).held = none ∧ ({ unit0 with stop := some (stop0 .preempt true) } : UnitInfo).cancelPending = false := ⟨by decide, rfl, rfl, rfl, rfl⟩
set_option maxRecDepth 20000 in
/-- The four units of a crew launch, which go to the shadow together. -/
theorem witness_StopAndSliceEvents_save_crew :
    let u := { unit0 with crew := true, stop := some (stop0 .preempt true) }
    let s := (members 0).foldl (fun s n => s.modCore n fun c => { c with unit := some { unit0 with crew := true, stop := some (stop0 .preempt true) }, frozen := some (.stopped .preempt false) })
      State.reset
    s.stopGroup 1 = members 0 ∧ (∀ m ∈ members 0, (s.coreAt m).unit = some u ∧ (s.coreAt m).stoppedFor .preempt = true ∧ (s.coreAt m).held = none) ∧
    u.cancelPending = false := by
  refine ⟨?_, ?_, rfl⟩ <;> decide
/-- A unit held in core 0's shadow. -/
def held0 (bad : Bool) : Held := { unit := unit0, ctx := Ctx.reset, pats := Vector.replicate 4 none, mcast := none, bad := bad }
def holding (bad : Bool) : State := ready id (State.reset.modCore 0 fun c => { c with held := some (held0 bad) })
set_option maxRecDepth 20000 in
theorem witness_StopAndSliceEvents_restore :
    (holding false).restoreDue 0 = true ∧ ((holding false).coreAt 0).held = some (held0 false) ∧ (holding true).restoreDue 0 = true ∧
    ((holding true).coreAt 0).held = some (held0 true) ∧ (holding false).heldGroup 0 (held0 false) = [0] ∧
    (∀ b, ((holding b).coreAt 0).images = []) := by
  refine ⟨by decide, rfl, by decide, rfl, by decide, fun _ => rfl⟩
set_option maxRecDepth 20000 in
theorem witness_StopAndSliceEvents_cancel :
    let s := stopping (stop0 .cancel false) 10 id
    s.cancelLate 0 = true ∧ (s.coreAt 0).unit.isSome = true := by
  refine ⟨by decide, rfl⟩
/-- Crew 0 shared by partitions 1 and 2. -/
def shared0 (switching : Bool) : Shared := { crew := 0, members := [(1, 100, 0), (2, 200, 1050 * 60)], cur := 0, ends := 10, switching := switching, mark := 0 }
set_option maxRecDepth 20000 in
theorem witness_StopAndSliceEvents_slice :
    let s (b : Bool) : State := { (core0 id).modDie .bow fun d => { d with time := 10 } with shared := [shared0 b] }
    let t : State := { State.reset with shared := [shared0 true] }
    (s false).sliceOver 0 = true ∧ (s false).sharedOf 0 = some (shared0 false) ∧ ((s false).coreAt 0).unit.isSome = true ∧
    t.switchDue 0 = true ∧ t.sharedOf 0 = some (shared0 true) ∧ (shared0 true).members[((shared0 true).cur + 1) % (shared0 true).members.length]? = some (2, 200, 1050 * 60) := by
  refine ⟨by decide, by decide, rfl, by decide, by decide, by decide⟩

/-! ## Witnesses: the matrix engine, streams and the host's commands -/

/-- Core 0 with the matrix engine as f makes it: queues 0 and 1 to load, 2 to store, entries of 16-bit elements. -/
def engine (es : List QEntry) (f : Engine → Engine) : State :=
  on .m fun c => (((({ c with eng := f c.eng } : Ctx).setQueue 0 { loadQ es with esz := 2 }).setQueue 1 { loadQ es with esz := 2 }).setQueue 2 (storeQ []))
/-- MMA q2, q0, q1 of 8 k-steps. -/
def mma0 : EngOp := { kind := .mma, word := 0x00204000, ent := bf16Entry, addr := base }
set_option maxRecDepth 20000 in
theorem witness_MatrixEvents :
    let s := engine [] fun e => { e with opq := [mma0] }
    decode .m 0x00A04000 = .ok (.mma false 2 0 1 0 0) ∧ s.engineOn 0 = true ∧ (s.coreAt 0).ctx.eng.running = false ∧ (s.coreAt 0).ctx.eng.halt = false ∧
    (s.coreAt 0).ctx.eng.opq = [mma0] := ⟨rfl, rfl, rfl, rfl, rfl⟩
set_option maxRecDepth 20000 in
theorem witness_MatrixEvents_group :
    let s := engine [entry 1 none, entry 2 none] fun e => { e with opq := [mma0], running := true }
    s.engineOn 0 = true ∧ (s.coreAt 0).ctx.eng.active .mma = some mma0 ∧ (s.coreAt 0).ctx.eng.wantsScale mma0 = false ∧ mma0.a ≠ mma0.b ∧
    takesAt (entA mma0.ent) ((s.coreAt 0).ctx.eng.kpos % 128 / 8) - (s.coreAt 0).ctx.eng.gotA = 2 ∧
    takesAt (entB mma0.ent) ((s.coreAt 0).ctx.eng.kpos % 128 / 8) - (s.coreAt 0).ctx.eng.gotB = 2 ∧
    needs 2 ((s.coreAt 0).ctx.queue mma0.a) (entA mma0.ent) = none ∧ needs 2 ((s.coreAt 0).ctx.queue mma0.b) (entB mma0.ent) = none ∧
    ((s.coreAt 0).ctx.queue mma0.a).firsts 2 = .ok [1, 2] ∧ ((s.coreAt 0).ctx.queue mma0.b).firsts 2 = .ok [1, 2] ∧
    (s.coreAt 0).ctx.eng.gotA = 0 ∧ (s.coreAt 0).ctx.eng.gotB = 0 ∧ entA mma0.ent ≤ 5 ∧ entB mma0.ent ≤ 5 ∧ entA mma0.ent ≠ 2 :=
  ⟨rfl, rfl, rfl, by decide, by decide, by decide, by decide, by decide, rfl, rfl, rfl, rfl, by decide, by decide, by decide⟩
set_option maxRecDepth 20000 in
/-- INT8 operands of zeros, and an accumulator at the largest value it holds. -/
theorem witness_MatrixEvents_group_int8 :
    let o := { mma0 with ent := 0x0022 }
    let f (e : Engine) : Engine := { e with opq := [{ mma0 with ent := 0x0022 }], running := true, front := e.front.set 127 0x7FFFFFFF }
    let q := { loadQ [entry 0 none] with esz := 1 }
    let s := on .m fun c => (({ c with eng := f c.eng } : Ctx).setQueue 0 q).setQueue 1 q
    s.engineOn 0 = true ∧ (s.coreAt 0).ctx.eng.active .mma = some o ∧ (s.coreAt 0).ctx.eng.wantsScale o = false ∧
    takesAt (entA o.ent) ((s.coreAt 0).ctx.eng.kpos % 128 / 8) - (s.coreAt 0).ctx.eng.gotA = 1 ∧
    needs 1 ((s.coreAt 0).ctx.queue o.a) (entA o.ent) = none ∧ needs 1 ((s.coreAt 0).ctx.queue o.b) (entB o.ent) = none ∧
    ((s.coreAt 0).ctx.queue o.a).firsts 1 = .ok [0] ∧ ((s.coreAt 0).ctx.queue o.b).firsts 1 = .ok [0] ∧ entA o.ent = 2 ∧ entB o.ent = 2 ∧
    (let z : Int := (((s.coreAt 0).ctx.eng.front.get 127).extractLsb' (32 * (0 : Fin 128).val) 32).toInt +
        ((List.range 8).map fun j => ((0 : Line).extractLsb' (8 * (8 * (127 : Fin 128).val + j)) 8).toInt * ((0 : Line).extractLsb' (8 * (8 * (0 : Fin 128).val + j)) 8).toInt).sum
     z < 2 ^ 31 ∧ -2 ^ 31 ≤ z) :=
  ⟨rfl, rfl, rfl, by decide, by decide, by decide, rfl, rfl, rfl, rfl, by decide⟩
set_option maxRecDepth 20000 in
theorem witness_MatrixEvents_span :
    let s := engine [] fun e => { e with opq := [mma0], running := true, spanDone := true, kpos := 8 }
    s.engineOn 0 = true ∧ (s.coreAt 0).ctx.eng.running = true ∧ (s.coreAt 0).ctx.eng.spanDone = true ∧ (s.coreAt 0).ctx.eng.dbusy = false ∧
    (s.coreAt 0).ctx.eng.halt = false ∧ (s.coreAt 0).ctx.eng.opq = mma0 :: [] ∧ ((mma0.word.extractLsb' 0 9).toNat + 1) * 8 ≤ (s.coreAt 0).ctx.eng.kpos :=
  ⟨rfl, rfl, rfl, rfl, rfl, rfl, by decide⟩
set_option maxRecDepth 20000 in
theorem witness_MatrixEvents_drain :
    let s := engine [] fun e => { e with dbusy := true, dpos := 63, drainQ := 2 }
    let t (b : Bool) : State := engine [] fun e => { e with dbusy := b, dpos := 63, drainQ := 2, drainT := some 5, opq := [{ mma0 with kind := .mdrn }], running := b }
    s.engineOn 0 = true ∧ (s.coreAt 0).ctx.eng.dbusy = true ∧ (s.coreAt 0).ctx.eng.halt = false ∧ (s.coreAt 0).ctx.eng.drainT = none ∧
    ((s.coreAt 0).ctx.queue (s.coreAt 0).ctx.eng.drainQ).dir ≠ 0 ∧
    ((s.coreAt 0).ctx.queue (s.coreAt 0).ctx.eng.drainQ).esz = drainEsz (s.coreAt 0).ctx.eng.bf16 ∧
    ((s.coreAt 0).ctx.queue (s.coreAt 0).ctx.eng.drainQ).ents.length < 4 ∧ (s.coreAt 0).ctx.eng.dpos = (63 : Fin 64).val ∧
    ((t true).coreAt 0).ctx.eng.drainT = some 5 ∧ ((t true).coreAt 0).ctx.eng.dbusy = true ∧ 64 ≤ ((t true).coreAt 0).ctx.eng.dpos + 1 ∧
    ((t false).coreAt 0).ctx.eng.drainT = some 5 ∧ ((t false).coreAt 0).ctx.eng.dbusy = false :=
  ⟨rfl, rfl, rfl, rfl, by decide, rfl, by decide, rfl, rfl, rfl, by decide, rfl, rfl⟩
set_option maxRecDepth 20000 in
theorem witness_MatrixEvents_drain_half :
    let s := on .m fun c => (({ c with eng := { c.eng with dbusy := true, bf16 := true, dpos := 31, drainQ := 2 } } : Ctx).setQueue 2 { storeQ [] with esz := 2 })
    (s.coreAt 0).ctx.eng.bf16 = true ∧ ((s.coreAt 0).ctx.queue (s.coreAt 0).ctx.eng.drainQ).esz = drainEsz (s.coreAt 0).ctx.eng.bf16 ∧
    (s.coreAt 0).ctx.eng.dpos = (31 : Fin 32).val := ⟨rfl, rfl, rfl⟩
set_option maxRecDepth 20000 in
theorem witness_MatrixEvents_mdrn :
    let o := { mma0 with kind := .mdrn }
    let s := engine [] fun e => { e with opq := [{ mma0 with kind := .mdrn }] }
    s.engineOn 0 = true ∧ (s.coreAt 0).ctx.eng.running = false ∧ (s.coreAt 0).ctx.eng.dbusy = false ∧ (s.coreAt 0).ctx.eng.halt = false ∧
    (s.coreAt 0).ctx.eng.opq = o :: [] ∧ ((engine [] fun e => { e with halt := true }).coreAt 0).ctx.eng.halt = true ∧
    ((engine [] fun e => { e with halt := true }).coreAt 0).ctx.eng.drainT = none := ⟨rfl, rfl, rfl, rfl, rfl, rfl, rfl⟩
/-- Crew 0: every member has a unit of a crew launch and a joint operation at its engine's head. -/
def joint (f : Engine → Engine) : State :=
  (members 0).foldl (fun s n => s.modCore n fun c => { c with unit := some { unit0 with crew := true }, ctx := { c.ctx with eng := f c.ctx.eng } }) State.reset
set_option maxRecDepth 20000 in
theorem witness_MatrixEvents_joint :
    let o := { mma0 with kind := .mmaj }
    let s := joint fun e => { e with opq := [{ mma0 with kind := .mmaj }] }
    (∀ n ∈ members 0, (s.coreAt n).ctx.eng.jrun = false ∧ s.jointWaits n = true ∧ s.engineOn n = true) ∧
    (∀ n ∈ members 0, (s.headOf n).map (fun o => (o.word.extractLsb' 0 14, o.ent)) = some (o.word.extractLsb' 0 14, o.ent)) := by
  refine ⟨?_, ?_⟩ <;> decide
set_option maxRecDepth 20000 in
theorem witness_MatrixEvents_joint_ends :
    let s := joint fun e => { e with jrun := true }
    let t := s.modCore 1 fun c => { c with ctx := { c.ctx with k := c.ctx.k.set 15 65535 } }
    (∀ n ∈ members 0, (s.coreAt n).ctx.eng.jrun = true ∧ (s.coreAt n).ctx.eng.running = false) ∧ (∀ n ∈ members 0, (s.coreAt n).unit.isSome = true) ∧
    ((s.coreAt 1).ctx.k.get 15).toNat < 65535 ∧ ((t.coreAt 1).ctx.k.get 15).toNat = 65535 ∧
    (∀ n ∈ members 0, (t.coreAt n).ctx.eng.jrun = true ∧ (t.coreAt n).ctx.eng.running = false) := by
  refine ⟨?_, ?_, ?_, ?_, ?_⟩ <;> decide

/-- Die Bow running with job 0 open, the streams and sessions given. -/
def streams (l : List Cox) (t : Nat) : State :=
  ready (fun d => { d with cox := l, time := t, jobs := [{ jid := 0, part := 0, isOpen := true, total := 0, done := 0 }], sessions := [session0] }) State.reset
set_option maxRecDepth 20000 in
theorem witness_StreamAndRingEvents_release :
    let s := streams [{ cox0 with nrel := 1000 }] 1000
    coxAt s .bow 3 = some { cox0 with nrel := 1000 } ∧ s.releaseDue .bow { cox0 with nrel := 1000 } = true ∧ cox0.susp = false ∧ cox0.islot = 0 := by
  refine ⟨?_, ?_, rfl, rfl⟩ <;> decide
set_option maxRecDepth 20000 in
theorem witness_StreamAndRingEvents_skip :
    let k := { cox0 with islot := padBase 0, nrel := 1000, miss := 65535 }
    let s := streams [{ cox0 with islot := padBase 0, nrel := 1000, miss := 65535 }] 1501
    coxAt s .bow 3 = some k ∧ s.lateQueued .bow k.key = none ∧ s.skipDue .bow k = true ∧ (streams [k] 1500).skipDue .bow k = false ∧
    s.recBreaks .bow k.cmd = false := by
  refine ⟨?_, ?_, ?_, ?_, ?_⟩ <;> decide
set_option maxRecDepth 20000 in
/-- The skipped phase's record would stand in the die's pool, of which partition 0 has nothing. -/
theorem witness_StreamAndRingEvents_skip_breaks :
    let k := { cox0 with islot := padBase 0, nrel := 1000, cmd := cmd0 8 fun c => { c with crec := 0x1000 } }
    let s := ctx0 (fun x => { x with ranges := x.ranges.set 0 poolRange })
      (streams [{ cox0 with islot := padBase 0, nrel := 1000, cmd := cmd0 8 fun c => { c with crec := 0x1000 } }] 1501)
    coxAt s .bow 3 = some k ∧ s.lateQueued .bow k.key = none ∧ s.skipDue .bow k = true ∧ s.recBreaks .bow k.cmd = true := by
  refine ⟨?_, ?_, ?_, ?_⟩ <;> decide
set_option maxRecDepth 20000 in
theorem witness_StreamAndRingEvents_copies :
    let k := { cox0 with sid := some 7 }
    let s := streams [{ cox0 with sid := some 7 }] 0
    let t := (streams [] 0).modDie .bow fun d => { d with peerLost := true, peers := k.peerCopy.toList }
    (s.copiesDue .bow).map (fun p => p.sid) = [7] ∧ (t.takeoverNext .bow).map (fun p => p.sid) = some 7 ∧ (t.die .bow).session? 7 = some session0 ∧
    (t.die .bow).freeCox = some 0 := by
  refine ⟨by decide, by decide, by decide, ?_⟩
  unfold Die.freeCox
  rw [List.range_succ_eq_map, List.find?_cons_of_pos (by decide)]
/-- Ring 0 of die Bow in host memory: its header at 0x1000, its slots of 128 bytes at 0x1200, its cursor at 0x1100, which stands at c. -/
def ringed (c : Nat) (f : Ring → Ring) (g : Die → Die) : State :=
  put (hostBase + 0x1100) 8 c (put (hostBase + 0x1000) 64 (header 4 0x1200 2 8 0x1100 1)
    (host0 (ready (fun d => g { d with rings := d.rings.set 0 (f { Ring.reset with base := 0x1000 }) }) State.reset)))
set_option maxRecDepth 20000 in
theorem witness_StreamAndRingEvents_enable :
    let s := ringed 2 id id
    let y : Ring := { s.ring .bow 0 with ctl := 1 &&& 0x7FFFF }
    (s.ring .bow 0).ctl.getLsbD 0 = false ∧ (1 : Dw).getLsbD 0 = true ∧ s.feAccess .bow y.ctx y.part needRd 64 64 y.base = .ok (hostBase + 0x1000) ∧
    s.poisoned (hostBase + 0x1000) 64 = false ∧ frontBad (s.recAt (hostBase + 0x1000)) y.cons = false ∧
    s.feAccess .bow y.ctx y.part needRd 8 8 (cursorVa (s.recAt (hostBase + 0x1000)) y.cons) = .ok (hostBase + 0x1100) ∧ (s.ring .bow 0).blocked = none := by
  refine ⟨rfl, rfl, ?_, ?_, ?_, ?_, rfl⟩ <;> decide
set_option maxRecDepth 20000 in
/-- The ring, written off, still carries out a command. -/
theorem witness_StreamAndRingEvents_enable_again :
    let c := cmd0 1 id
    let s := ringed 2 (fun r => { r with blocked := some (cmd0 1 id) }) id
    let y : Ring := { s.ring .bow 0 with ctl := 1 &&& 0x7FFFF }
    (s.ring .bow 0).ctl.getLsbD 0 = false ∧ (1 : Dw).getLsbD 0 = true ∧ (s.ring .bow 0).blocked = some c ∧
    s.feAccess .bow y.ctx y.part needRd 64 64 y.base = .ok (hostBase + 0x1000) ∧ s.poisoned (hostBase + 0x1000) 64 = false ∧
    frontBad (s.recAt (hostBase + 0x1000)) y.cons = false ∧
    s.feAccess .bow y.ctx y.part needRd 8 8 (cursorVa (s.recAt (hostBase + 0x1000)) y.cons) = .ok (hostBase + 0x1100) := by
  refine ⟨rfl, rfl, rfl, ?_, ?_, ?_, ?_⟩ <;> decide
set_option maxRecDepth 20000 in
theorem witness_StreamAndRingEvents_bad :
    let s := put (hostBase + 0x1000) 64 0 (ringed 2 id id)
    let y : Ring := { s.ring .bow 0 with ctl := 1 &&& 0x7FFFF }
    (s.ring .bow 0).ctl.getLsbD 0 = false ∧ s.feAccess .bow y.ctx y.part needRd 64 64 y.base = .ok (hostBase + 0x1000) ∧
    frontBad (s.recAt (hostBase + 0x1000)) y.cons = true := by
  refine ⟨rfl, ?_, ?_⟩ <;> decide
set_option maxRecDepth 20000 in
theorem witness_StreamAndRingEvents_rings :
    let s := ringed 2 (fun r => { r with ctl := 1, enabled := true, watch := some 0, wake := true }) id
    (s.ring .bow 0).ctl.getLsbD 0 = true ∧ (0 : Dw).getLsbD 0 = false ∧ (s.ring .bow 0).enabled = true ∧ (s.ring .bow 0).watch.isSome = true ∧
    (s.ring .bow 0).wake = true ∧
    ringFn (s.ring .bow 0).part = 1 ∧ ((ringed 2 id id).ring .bow 0).ctl.getLsbD 0 = false := ⟨rfl, rfl, rfl, rfl, rfl, rfl, rfl⟩
/-- Slot 2 of the ring holds a record of sequence 3. -/
def taking : State := put (hostBase + 0x1300) 8 3 (ringed 2 (fun r => { r with ctl := 1, enabled := true, wake := true, c := 2 }) id)
set_option maxRecDepth 20000 in
theorem witness_StreamAndRingEvents_take :
    let s' := taking.modDie .bow fun x => { x with ringTurn := 1 }
    let x := taking.ring .bow 0
    taking.ringNext .bow = some 0 ∧ x.carried = false ∧ s'.feAccess .bow x.ctx x.part needRd 64 64 x.base = .ok (hostBase + 0x1000) ∧
    s'.poisoned (hostBase + 0x1000) 64 = false ∧ frontBad (s'.recAt (hostBase + 0x1000)) x.cons = false ∧
    s'.feAccess .bow x.ctx x.part needRd 8 8 (ringSlotVa (s'.recAt (hostBase + 0x1000)) x.c) = .ok (hostBase + 0x1300) ∧
    s'.valueAt (hostBase + 0x1300) 8 = (x.c + 1) % 2 ^ 64 ∧
    s'.spanBreaks .bow x.ctx x.part (ringSlotVa (s'.recAt (hostBase + 0x1000)) x.c) 128 = false ∧
    (s'.feBytes .bow x.ctx x.part (ringSlotVa (s'.recAt (hostBase + 0x1000)) x.c) 128).isSome = true := by
  refine ⟨?_, rfl, ?_, ?_, ?_, ?_, ?_, ?_, ?_⟩ <;> decide
set_option maxRecDepth 20000 in
/-- Slot 2 still holds another sequence. -/
theorem witness_StreamAndRingEvents_none :
    let s := ringed 2 (fun r => { r with ctl := 1, enabled := true, wake := true, c := 2 }) id
    let s' := s.modDie .bow fun x => { x with ringTurn := 1 }
    let x := s.ring .bow 0
    s.ringNext .bow = some 0 ∧ x.carried = false ∧ s'.feAccess .bow x.ctx x.part needRd 64 64 x.base = .ok (hostBase + 0x1000) ∧
    s'.poisoned (hostBase + 0x1000) 64 = false ∧ frontBad (s'.recAt (hostBase + 0x1000)) x.cons = false ∧
    s'.feAccess .bow x.ctx x.part needRd 8 8 (ringSlotVa (s'.recAt (hostBase + 0x1000)) x.c) = .ok (hostBase + 0x1300) ∧
    s'.valueAt (hostBase + 0x1300) 8 ≠ (x.c + 1) % 2 ^ 64 := by
  refine ⟨?_, rfl, ?_, ?_, ?_, ?_, ?_⟩ <;> decide
/-- Ring 0 carries out the command. -/
def doing (c : Cmd) (g : Die → Die) : State := ringed 2 (fun r => { r with ctl := 1, enabled := true, blocked := some c, c := 2, cva := 0x1100 }) g
set_option maxRecDepth 20000 in
theorem due_doing (c : Cmd) (g : Die → Die) (typ : Nat) (h : (doing c g).cmdDue .bow c = true) (h1 : c.typ = typ) (h2 : c.resv = false) (h3 : c.len = 112)
    (h4 : c.sigk = 0) : due (doing c g) .bow c typ := ⟨h, h1, h2, by omega, by omega⟩
set_option maxRecDepth 20000 in
theorem carries_doing (c : Cmd) (g : Die → Die) (typ : Nat) (h : (doing c g).cmdDue .bow c = true) (h1 : c.typ = typ) (h2 : c.resv = false) (h3 : c.len = 112)
    (h4 : c.sigk = 0) (h5 : (doing c g).recBreaks .bow c = false) : carries (doing c g) .bow c typ := ⟨due_doing c g typ h h1 h2 h3 h4, h5⟩
/-- Graph 2 of context 0, job 4. -/
def graph0 : Graph := { num := 2, ctx := 0, bytes := 128, nodes := phase0.nodes }
set_option maxRecDepth 20000 in
theorem witness_HostCommands_phase :
    let c := cmd0 1 fun c => { c with w0 := 2 + 11 * 4096, w1 := 4 }
    let s (l : List Phase) := doing c fun d => { d with graphs := [graph0], jobs := [job0], phases := l }
    due (s []) .bow c 1 ∧ (∀ q ∈ ((s []).die .bow).queuedPh, q.cmd ≠ c) ∧ c.w0.toNat / 4096 % 16 ≤ 11 ∧ ((s []).die .bow).graph? (c.w0.toNat % 4096) = some graph0 ∧
    graph0.ctx = c.ctx ∧ jobOf (s []) .bow c (c.w1.setWidth 32) = some job0 ∧ job0.isOpen = true ∧ ((s []).die .bow).graphBusy (c.w0.toNat % 4096) = false ∧
    ((s [phase0]).die .bow).graphBusy (c.w0.toNat % 4096) = true ∧ due (s [phase0]) .bow c 1 ∧ (∀ l, (s l).drainOf .bow c.ctx = none) := by
  refine ⟨due_doing _ _ _ (by decide) rfl rfl rfl rfl, by decide, by decide, by decide, rfl, ?_, rfl, by decide, by decide,
    due_doing _ _ _ (by decide) rfl rfl rfl rfl, fun _ => rfl⟩
  unfold jobOf; decide
set_option maxRecDepth 20000 in
theorem witness_HostCommands_cancel :
    let c := cmd0 2 fun c => { c with w0 := 3, w1 := 1 }
    let s := doing c fun d => { d with phases := [phase0] }
    carries s .bow c 2 ∧ c.w0.toNat % 8 = 3 ∧ (s.die .bow).phase? c.w1 = some phase0 ∧ phase0.part = c.part :=
  ⟨carries_doing _ _ _ (by decide) rfl rfl rfl rfl (by decide), by decide, by decide, rfl⟩
set_option maxRecDepth 20000 in
theorem witness_HostCommands_job :
    let o := cmd0 7 fun c => { c with w1 := 4 }
    let c := cmd0 7 fun c => { c with w0 := 1, w1 := 4 }
    carries (doing o id) .bow o 7 ∧ o.w0.getLsbD 0 = false ∧ jobOf (doing o id) .bow o (o.w1.setWidth 32) = none ∧
    carries (doing c fun d => { d with jobs := [job0] }) .bow c 7 ∧ c.w0.getLsbD 0 = true ∧
    jobOf (doing c fun d => { d with jobs := [job0] }) .bow c (c.w1.setWidth 32) = some job0 ∧ job0.isOpen = true ∧
    carries (doing o fun d => { d with jobs := [{ job0 with isOpen := false }] }) .bow o 7 ∧
    jobOf (doing o fun d => { d with jobs := [{ job0 with isOpen := false }] }) .bow o (o.w1.setWidth 32) = some { job0 with isOpen := false } :=
  ⟨carries_doing _ _ _ (by decide) rfl rfl rfl rfl (by decide), rfl, rfl, carries_doing _ _ _ (by decide) rfl rfl rfl rfl (by decide), rfl, rfl, rfl,
    carries_doing _ _ _ (by decide) rfl rfl rfl rfl (by decide), rfl⟩
/-- A table of one node without successors at 0x2000. -/
def loading (c : Cmd) : State := put (hostBase + 0x2000) 80 (1 + 0x1000 * 2 ^ 128 + 1 * 2 ^ 256 + 80 * 2 ^ 320) (doing c id)
set_option maxRecDepth 20000 in
theorem witness_HostCommands_gload :
    let c := cmd0 3 fun c => { c with w0 := 2, w1 := 0x2000, w2 := 80 }
    let s := loading c
    s.cmdDue .bow c = true ∧ c.typ = 3 ∧ c.resv = false ∧ 112 ≤ c.len ∧ c.sigk < 4 ∧ s.recBreaks .bow c = false ∧ s.gloadBreaks .bow c = false ∧ (s.die .bow).graph? (c.w0.toNat % 4096) = none ∧ c.w1.toNat % 64 = 0 ∧
    ((s.die .bow).graphs.map fun k => k.bytes).sum + c.w2.toNat % 2 ^ 32 ≤ 8 * 2 ^ 20 ∧
    ((s.feBytes .bow c.ctx c.part c.w1 (c.w2.toNat % 2 ^ 32)).bind fun b => graphNodes (s.die .bow) c.ctx b).isSome = true := by
  refine ⟨?_, rfl, rfl, by decide, by decide, ?_, ?_, ?_, ?_, ?_, ?_⟩ <;> decide
set_option maxRecDepth 20000 in
theorem witness_HostCommands_gfree :
    let c := cmd0 4 fun c => { c with w0 := 2 }
    let s := doing c fun d => { d with graphs := [graph0] }
    carries s .bow c 4 ∧ (s.die .bow).graph? (c.w0.toNat % 4096) = some graph0 ∧ graph0.ctx = c.ctx ∧ (s.die .bow).graphBusy (c.w0.toNat % 4096) = false ∧
    (∀ q ∈ (s.die .bow).queuedPh, q.graph ≠ c.w0.toNat % 4096) ∧ (∀ k ∈ (s.die .bow).cox, c.w0.toNat % 4096 ∉ k.lgraph.toList) :=
  ⟨carries_doing _ _ _ (by decide) rfl rfl rfl rfl (by decide), by decide, rfl, by decide, by decide, by decide⟩
set_option maxRecDepth 20000 in
theorem witness_HostCommands_kernels :
    let c := cmd0 5 fun c => { c with w1 := 0x2000 }
    let f := cmd0 6 fun c => { c with w1 := 0x1000 }
    carries (doing c id) .bow c 5 ∧ ((doing c id).die .bow).kernel? c.ctx c.w1 = none ∧
    (((doing c id).die .bow).kernels.filter fun k => decide (k.ctx = c.ctx)).length < 4096 ∧ ((doing c id).kernelOf .bow c).isSome = true ∧ (doing c id).kloadBreaks .bow c = false ∧
    carries (doing f id) .bow f 6 ∧ ((doing f id).die .bow).kernel? f.ctx f.w1 = some kernel0 ∧
    (∀ g ∈ ((doing f id).die .bow).graphs, g.ctx = f.ctx → ∀ n ∈ g.nodes, n.kdesc ≠ f.w1) :=
  ⟨carries_doing _ _ _ (by decide) rfl rfl rfl rfl (by decide), by decide, by decide, by decide, by decide, carries_doing _ _ _ (by decide) rfl rfl rfl rfl (by decide), by decide,
    fun g h => by cases h⟩
/-- A stream record at 0x2000: class 0, priority 12, period 10000, offset 10, deadline 500, graph 2 at every level, costs 4, 3, 2 and 1. -/
def streamRecord : Nat :=
  12 * 2 ^ 36 + 10000 * 2 ^ 64 + 10 * 2 ^ 128 + 500 * 2 ^ 192 + (2 + 4 * 2 ^ 64) * 2 ^ 256 + (2 + 3 * 2 ^ 64) * 2 ^ 384 + (2 + 2 * 2 ^ 64) * 2 ^ 512 +
    (2 + 1 * 2 ^ 64) * 2 ^ 640
def admitting : State :=
  put (hostBase + 0x2000) 96 streamRecord
    (let s := doing (cmd0 8 fun c => { c with w0 := 4, w1 := 0x2000 }) fun d => { d with graphs := [graph0], jobs := [job0] }
     s.modPart 0 .bow fun p => { p with ceiling := 65536 })
set_option maxRecDepth 40000 in
theorem witness_HostCommands_stream :
    let c := cmd0 8 fun c => { c with w0 := 4, w1 := 0x2000 }
    admitting.cmdDue .bow c = true ∧ c.typ = 8 ∧ c.resv = false ∧ 112 ≤ c.len ∧ c.sigk < 4 ∧ admitting.recBreaks .bow c = false ∧
    admitting.streamBreaks .bow c = false ∧ admitting.drainOf .bow c.ctx = none ∧ ∃ u, admitting.streamTry .bow c = (0, u) := by
  refine ⟨?_, rfl, rfl, ?_, ?_, ?_, ?_, rfl, (admitting.streamTry .bow (cmd0 8 fun c => { c with w0 := 4, w1 := 0x2000 })).2, Prod.ext ?_ rfl⟩ <;> decide
set_option maxRecDepth 20000 in
theorem witness_HostCommands_bad :
    let c := cmd0 9 id
    (doing c id).cmdDue .bow c = true ∧ 8 < c.typ ∧ (doing (cmd0 0 id) id).cmdDue .bow (cmd0 0 id) = true ∧ c.crec = 0 ∧ c.sigk = 0 ∧
    ringGoes (doing c id) .bow c (hostBase + 0x1100) ∧ MemInv (doing c id) ∧ ((doing c id).ring .bow c.ring).again = false := by
  refine ⟨by decide, by decide, by decide, rfl, rfl, ⟨?_, ?_⟩, ?_, rfl⟩
  · decide
  · decide
  · unfold MemInv; decide

/-! ## Witnesses: partitions, sessions, starts and the loss of a die -/

/-- Die Bow running, with a list of one entry at 0x4000 of host memory. -/
def listed (e : Nat) : State := put (hostBase + 0x4000) 96 (1 + e * 2 ^ 512) (State.reset.modDie .bow fun d => { d with start := .running })
set_option maxRecDepth 20000 in
theorem witness_PartitionEvents_list :
    let s := listed 1
    let v : Dw := 0x4021
    let pa := hostBase + v.toNat / 64 * 64
    let h := memReadRec s.mem pa
    let l : ListState := { s := s.modDie .bow fun x => { x with mboxin := v, mboxst := x.mboxst &&& 2 }, drain := { die := .bow, crews := [], contexts := [], granules := [], queues := [] } }
    let es := (List.range (h.extractLsb' 0 8).toNat).map fun i => BitVec.ofNat 256 (leValue (memReadBytes s.mem (pa + 64 + 32 * i) 32))
    s.policyRuns .bow = true ∧ v.toNat % 64 = 0x21 ∧ s.reconf = none ∧ 1 ≤ (h.extractLsb' 0 8).toNat ∧ (h.extractLsb' 0 8).toNat ≤ 64 ∧ h.extractLsb' 8 504 = 0 ∧
    pa + 64 + 32 * (h.extractLsb' 0 8).toNat ≤ 2 ^ 56 ∧ es = [1] ∧ (match l.run 0 [1] with | .ok _ => true | .error _ => false) = true := by
  refine ⟨?_, ?_, rfl, ?_, ?_, ?_, ?_, ?_, ?_⟩ <;> decide
set_option maxRecDepth 20000 in
/-- Partition 3 does not exist, so that a grant to it fails. -/
theorem witness_PartitionEvents_refused :
    let l : ListState := { s := State.reset, drain := { die := .bow, crews := [], contexts := [], granules := [], queues := [] } }
    (match l.run 0 [BitVec.ofNat 256 (6 + 3 * 256)] with | .ok _ => none | .error q => some q) = some (0, 2) := by decide
set_option maxRecDepth 20000 in
theorem witness_PartitionEvents_drained :
    let r : Reconf := { die := .bow, crews := [0], contexts := [(.bow, 0, 0)], granules := [], queues := [] }
    ({ State.reset with reconf := some r } : State).drained = some r := by decide
/-- A session record of number 7 at 0x4000: endpoint queue 5, context 0, partition 0, its in-slots at the start of the scratchpad of core 0, and its goal slot
g (or none where g is 0). -/
def opening (g : Nat) : State :=
  put (hostBase + 0x4000) 64 (5 * 2 ^ 14 + padBase 0 / 16 * 2 ^ 128 + (padBase 0 / 16 + 4) * 2 ^ 192 + g / 16 * 2 ^ 256 + 7 * 2 ^ 484)
    { (State.reset.modDie .bow fun d => { d with start := .running }).modPart 0 .bow fun x => { x with queues := 32, contexts := 1 } with
      slots := [slot0 (padBase 0) (padBase 0 + 4096), slot0 (padBase 0 + 64) (padBase 0 + 8192)] }
set_option maxRecDepth 20000 in
theorem witness_PartitionEvents_open :
    let v : Dw := 0x4022
    let s := opening 0
    let t := opening (padBase 0)
    let r := memReadRec s.mem (hostBase + v.toNat / 64 * 64)
    s.policyRuns .bow = true ∧ v.toNat % 64 = 0x22 ∧ s.mboxBusy .bow = false ∧ hostBase + v.toNat / 64 * 64 + 64 ≤ 2 ^ 56 ∧ r &&& ~~~sessionMask = 0 ∧
    (s.die .bow).session? (r.extractLsb' 484 13).toNat = none ∧ (s.part (r.extractLsb' 3 5).toFin .bow).queues.getLsbD (r.extractLsb' 14 6).toNat = true ∧
    (s.part (r.extractLsb' 3 5).toFin .bow).contexts.getLsbD (r.extractLsb' 8 6).toNat = true ∧ s.slotOwned 0 (slotField r 128) = true ∧
    s.slotOwned 0 (slotField r 192) = true ∧ r.extractLsb' 256 52 = 0 ∧
    t.slotOwned 0 (slotField (memReadRec t.mem (hostBase + v.toNat / 64 * 64)) 256) = true := by
  refine ⟨?_, ?_, ?_, ?_, ?_, ?_, ?_, ?_, ?_, ?_, ?_, ?_⟩ <;> decide
/-- The last 64 bytes of host memory hold a session record too. -/
theorem witness_PartitionEvents_open_last : hostBase + (0xFFFFFFFFFFFFE2 - BitVec.ofNat 64 hostBase : Dw).toNat / 64 * 64 + 64 = 2 ^ 56 := by decide
set_option maxRecDepth 20000 in
theorem witness_PartitionEvents_others :
    let s := State.reset.modDie .bow fun d => { d with start := .running, sessions := [session0] }
    s.policyRuns .bow = true ∧ (0x1E3 : Dw).toNat % 64 = 0x23 ∧ s.mboxBusy .bow = false ∧ (0x1E3 : Dw).extractLsb' 19 45 = 0 ∧
    (s.die .bow).session? ((0x1E3 : Dw).extractLsb' 6 13).toNat = some session0 ∧ (0x24 : Dw).toNat % 64 ≠ 0x21 ∧ (0x24 : Dw).toNat % 64 ≠ 0x22 ∧
    (0x24 : Dw).toNat % 64 ≠ 0x23 := by decide
set_option maxRecDepth 20000 in
theorem witness_StartEvents :
    (State.reset.die .bow).start = .off ∧ (State.reset.die .bow).isolated = false ∧ (State.reset.die .bow).isStarting = false ∧
    (State.reset.die .bow).wfail.toNat < 2 ∧ 2 ≤ ((State.reset.modDie .bow fun d => { d with wfail := 2 }).die .bow).wfail.toNat ∧
    ((State.reset.modDie .stern fun d => { d with start := .starting true 5 }).die .stern).start = .starting true 5 ∧
    (State.reset.die .bow).orphans = [] ∧ (State.reset.die .bow).cox = [] := by decide
theorem witness_StartEvents_noSlow : noSlow State.reset .bow :=
  ⟨rfl, fun _ h => (List.not_mem_nil h).elim⟩
theorem witness_StartEvents_results :
    let stopped : StartResult := ⟨4, true, true, 0⟩
    let hung : StartResult := ⟨8, true, true, 0⟩
    let forged : StartResult := ⟨0, false, true, 0⟩
    let large : StartResult := ⟨9, true, false, 0⟩
    1 ≤ stopped.failStep ∧ stopped.failStep ≤ 4 ∧ 8 ≤ hung.failStep ∧ hung.sigOk = true ∧ hung.bodyOk = true ∧ forged.failStep = 0 ∧ forged.sigOk = false ∧
    5 ≤ large.failStep ∧ large.bodyOk = false := by decide
set_option maxRecDepth 20000 in
theorem witness_PowerAndStorageEvents :
    let s := (core0 id).modDie .bow fun d => { d with start := .running }
    (s.die .bow).start = .running ∧ 105 ≤ (105 : BitVec 8).toNat ∧ s.policyRuns .bow = true ∧ s.hitsSlot (hostBase + (0x4000 : Dw).toNat / 64 * 64) 192 = false ∧ MemInv s ∧
    hostBase + (0x4000 : Dw).toNat / 64 * 64 + 192 ≤ 2 ^ 56 ∧ (spaceOf (padBase 0)).isSome = true ∧ padBase 0 / 64 * 64 ∉ s.poison ∧
    (s.coreAt 0).unit.isSome = true ∧ ((s.coreAt 0).ctx.seat .c).cause = none ∧ ((s.coreAt 0).ctx.seat .c).act = true :=
  ⟨rfl, by decide, rfl, rfl, memInv_on, by decide, by decide, by decide, rfl, rfl, rfl⟩
set_option maxRecDepth 20000 in
/-- Both dies run, the last evaluation of the package 10 µs ago, or none yet. -/
theorem witness_PowerAndStorageEvents_package :
    let s := (State.reset.modDie .bow fun d => { d with start := .running, pwrAt := 5, time := 10005 }).modDie .stern fun d => { d with start := .running }
    (∀ e, (s.die e).start = .running) ∧ (104 : BitVec 8).toNat < 105 ∧ (s.die .bow).pwrAt + 10000 ≤ (s.die .bow).time ∧ (s.die .stern).pwrAt = 0 :=
  ⟨fun e => by cases e <;> rfl, by decide, by decide, rfl⟩
set_option maxRecDepth 20000 in
theorem witness_FailoverEvents :
    let s := State.reset.modDie .bow fun d => { d with start := .running, locked := true, hbSeen := 1, time := 20001 }
    (s.die .bow).start = .running ∧ s.source = .bow ∧ (s.die .bow).locked = true ∧ (-10000 : Int) ≤ 10000 ∧ (∀ e ∈ s.dues .bow, min ((s.die .bow).time + (4 : Dw).toNat) (2 ^ 64 - 1) < e.time) ∧
    (s.die .bow).beatDue = true ∧ (s.die .bow).lossDue = true ∧ s.isolate ≠ some (DieId.bow.other) ∧ (s.die .bow).peerLost = false ∧ s.portRuns .bow = true ∧
    (s.die .bow).snap = none := by
  refine ⟨rfl, rfl, rfl, ?_, ?_, ?_, ?_, ?_, ?_, ?_, ?_⟩ <;> decide
set_option maxRecDepth 20000 in
theorem witness_FailoverEvents_isolate :
    let s : State := { State.reset with isolate := some .stern }
    s.isolate = some (DieId.bow.other) ∧ (s.die .bow).isolated = false := by decide
set_option maxRecDepth 20000 in
theorem witness_FailoverEvents_inbound :
    let x := slot0 (padBase 0) (padBase 0 + 64)
    let z := { session0 with fin := padBase 0 }
    let s : State := { (core0 id).modDie .bow fun d => { d with start := .running, sessions := [{ session0 with fin := padBase 0 }] } with slots := [x] }
    s.portRuns .bow = true ∧ (s.die .bow).snap = none ∧ (s.die .bow).session? 7 = some z ∧ z.epq.val ∉ (s.die .bow).frozenQs ∧ z.inSlot 0 ≠ 0 ∧
    s.slot? (z.inSlot 0) = some x ∧ 126 + [(1 : Byte), 2].length ≤ 64 * x.len64 ∧ s.hitsSlot (x.base + 126) 2 = false ∧ s.mayReachAll z.part (x.base + 126) 2 = true ∧
    MemInv s :=
  ⟨rfl, rfl, by decide, by decide, by decide, by decide, by decide, by decide, by decide, memInv_on⟩

/-! ## Witnesses: debug, trace and snapshots -/

/-- Core 0 with its debug registers changed. -/
def debugged (f : Dbg → Dbg) : State := core0 fun c => { c with dbg := f c.dbg }
set_option maxRecDepth 20000 in
theorem witness_HaltEvents :
    (debugged fun d => { d with pending := some .brk }).stopDue 0 = some .brk ∧ (debugged fun d => { d with pending := some .stepDone }).stopDue 0 = some .stepDone ∧
    (debugged fun d => { d with pending := some .stopAt }).stopDue 0 = some .stopAt ∧ (debugged id).stopDue 0 = none ∧
    ((debugged id).coreAt 0).dbg.halted = none := ⟨rfl, rfl, rfl, rfl, rfl⟩
set_option maxRecDepth 20000 in
theorem witness_HaltEvents_comparator :
    let s := debugged fun d => { d with bps := d.bps.set 0 (base + 1) }
    s.atStart 0 = true ∧ s.bpDue = some .c := by decide
set_option maxRecDepth 20000 in
theorem witness_HaltEvents_resume :
    let s := core0 fun c => { c with frozen := some .halt, dbg := { c.dbg with halted := some .request, dfidx := 29439 } }
    (s.coreAt 0).dbg.halted = some .request ∧ HaltWhy.request ≠ .cut ∧ (s.coreAt 0).playReady = false ∧ (s.coreAt 0).isHalted = true ∧
    (∀ k lp, ((s.coreAt 0).ctx.seat k).loop = some lp → lp.len ≠ 0) ∧ ((core0 id).coreAt 0).isHalted = false := by
  refine ⟨rfl, ?_, rfl, rfl, fun k lp h => ?_, rfl⟩
  · decide
  · cases k <;> cases h
/-- No index of DFDATA falls under two of the clauses for a write. -/
theorem witness_HaltEvents_write (i : Nat) (r q : Fin 32) (x y : Fin 16) (l : Fin 8) :
    (i = 48 + r.val → i ≠ 80 + q.val ∧ i ≠ 112 + x.val ∧ i ≠ 128 + y.val ∧ i ≠ 180 + l.val) ∧
    (i = 80 + q.val → i ≠ 112 + x.val ∧ i ≠ 128 + y.val ∧ i ≠ 180 + l.val) ∧
    (i = 112 + x.val → i ≠ 128 + y.val ∧ i ≠ 180 + l.val) ∧ (i = 128 + y.val → i ≠ 180 + l.val) := by omega
/-- Crew 0 with the given trace state. -/
def traced (f : Crew → Crew) (s : State) : State := s.setCrew 0 (f Crew.reset)
set_option maxRecDepth 20000 in
theorem witness_TraceEvents :
    let s := traced id State.reset
    (1 : Dw).getLsbD 0 = true ∧ (s.crewAt 0).trctl.getLsbD 0 = false ∧ (s.crewAt 0).buf = [] ∧ (s.crewAt 0).gated = false ∧
    ((traced (fun w => { w with gated := true }) s).crewAt 0).gated = true ∧ (((core0 fun c => { c with stopped := true }).coreAt 0).stopped = true) ∧
    (∃ p, (s.coreAt (crewCore 0 p)).stopped = false) := by
  refine ⟨rfl, rfl, rfl, rfl, rfl, rfl, 0, ?_⟩
  decide
set_option maxRecDepth 20000 in
/-- Crew 0 gated with its trace on: the gate has dropped g records. -/
theorem witness_TraceEvents_up (g : Nat) :
    let s := traced (fun w => { w with trctl := 1, gated := true, gateLost := g }) State.reset
    (s.crewAt 0).gated = true ∧ (s.crewAt 0).trctl.getLsbD 0 = true ∧ (s.crewAt 0).buf = [] ∧ (s.crewAt 0).lost = 0 ∧ (s.crewAt 0).epochs = [] ∧
    (s.crewAt 0).gateLost = g ∧ (s.coreAt (crewCore 0 0)).stopped = false := by
  refine ⟨rfl, (by decide : (1 : Dw).getLsbD 0 = true), rfl, rfl, rfl, rfl, ?_⟩
  show (State.reset.coreAt (crewCore 0 0)).stopped = false
  decide
set_option maxRecDepth 20000 in
theorem witness_TraceEvents_sample :
    let s := traced (fun w => { w with trctl := 5 }) (core0 fun c => { c with ended := true, why := [103] })
    s.sampleDue 0 = true ∧ (s.crewAt (crewOf 0)).trctl.getLsbD 0 = true ∧ (s.crewAt (crewOf 0)).trctl.getLsbD 2 = true ∧ (s.crewAt (crewOf 0)).lost = 0 ∧ (s.crewAt (crewOf 0)).buf.length + 5 ≤ 8192 ∧
    ((s.coreAt 0).csc - (s.crewAt (crewOf 0)).last.get (crewPos 0)).toNat < 2 ^ 50 := by
  refine ⟨by decide, rfl, rfl, rfl, ?_, ?_⟩ <;> decide
set_option maxRecDepth 20000 in
theorem witness_TraceEvents_drain :
    let s (l : List Dw) (en : Dw) : State := traced (fun w => { w with trctl := en, buf := l, trbase := 0x1000, trsize := 4096, trwr := 4032, trrd := 64 }) State.reset
    ((s (List.replicate 9 7) 1).crewAt 0).drainable = true ∧ ((s [1, 2] 0).crewAt 0).drainable = true ∧
    (spaceOf (((s (List.replicate 9 7) 1).crewAt 0).trbase.toNat + ((s (List.replicate 9 7) 1).crewAt 0).trwr.toNat)).isSome = true ∧
    8 ≤ ((s (List.replicate 9 7) 1).crewAt 0).buf.length ∧
    ((s (List.replicate 9 7) 1).crewAt 0).trwr.toNat + 64 ≤ ((s (List.replicate 9 7) 1).crewAt 0).trsize.toNat ∧
    (s (List.replicate 9 7) 1).hitsSlot (0x1000 + 4032) 64 = false ∧ MemInv (s (List.replicate 9 7) 1) ∧
    ((s [1, 2] 1).crewAt 0).gated = false ∧ ((s [1, 2] 1).crewAt 0).buf ≠ [] := by
  refine ⟨?_, ?_, ?_, ?_, ?_, rfl, ?_, rfl, ?_⟩
  all_goals first | decide | (unfold MemInv; decide)
/-- A cut of die Bow, with z bytes for its dump. -/
def snap0 (l : List Link) (dumped : Bool) : Snapshot := { id := 6, scope := 0, own := true, waiting := l, outgoing := [], channel := [], heldMsgs := [], dumped := dumped }
def cut0 (z : Dw) (l : List Link) : State := State.reset.modDie .bow fun d => { d with start := .running, snap := some (snap0 l false), dmpsize := z }
set_option maxRecDepth 20000 in
theorem witness_SnapshotEvents :
    let s := State.reset.modDie .bow fun d => { d with start := .running, snid := 6 }
    (s.die .bow).start = .running ∧ (1 : Dw).getLsbD 0 = true ∧ (s.die .bow).snid ≠ 0 ∧ ((1 : Dw).extractLsb' 2 2).toNat < 3 ∧ (s.die .bow).snap = none ∧
    (6 : Word) ≠ 0 ∧ Link.bridge ≠ .network ∧ ((cut0 0 [.bridge]).die .bow).snap = some (snap0 [.bridge] false) ∧ (snap0 [.bridge] false).id = 6 ∧
    ((cut0 0 [.host]).die .bow).linkDown = false ∧ (snap0 [.host] false).id = (6 : Dw).setWidth 32 ∧
    (s.die .bow).start ≠ .off ∧ (s.die .bow).linkDown = false := by decide
theorem leBytes_len (n k : Nat) : (leBytes n k).length = k := by
  induction k generalizing n with
  | zero => rfl
  | succ k ih => simp [leBytes, ih]
theorem sum_const (c : Nat) {α : Type} (l : List α) : (l.map fun _ => c).sum = l.length * c := by
  induction l with
  | nil => simp
  | cons a l ih => simp [ih, Nat.succ_mul]; omega
theorem flatMap_len {α : Type} (f : α → List Byte) (k : Nat) (h : ∀ i, (f i).length = k) (l : List α) : (l.flatMap f).length = l.length * k := by
  induction l with
  | nil => simp
  | cons a l ih => rw [List.flatMap_cons, List.length_append, h, ih, List.length_cons, Nat.succ_mul, Nat.add_comm]
theorem image_len (x : Ctx) (k : Option SeatId) : (x.image k).length = 235520 := by
  rw [Ctx.image, flatMap_len _ 8 fun _ => leBytes_len .., List.length_range]
theorem sum_erase (l : List (List Byte)) (i : Nat) (p : List Byte) (h : l[i]? = some p) :
    ((l.eraseIdx i).map List.length).sum + p.length = (l.map List.length).sum := by
  induction l generalizing i with
  | nil => simp at h
  | cons a l ih =>
    cases i with
    | zero => simp at h; subst h; simp; omega
    | succ i => simp at h; have := ih i h; simp; omega
/-- A dump is no longer than its parts and what stands between them. -/
theorem scatter_len (pick : Nat → Nat) (fill : Nat → List Byte) (hf : ∀ m, (fill m).length ≤ 65536) (m : Nat) (l : List (List Byte)) :
    (scatter pick fill m l).length ≤ 65536 * m + (l.map List.length).sum := by
  induction m generalizing l with
  | zero => simp [scatter]
  | succ m ih =>
    unfold scatter
    split
    · rename_i p hp
      have h1 := sum_erase l _ p hp
      have h2 := ih (l.eraseIdx (pick m % l.length))
      have h3 := hf m
      simp only [List.length_append]; omega
    · simp
/-- A dump holds all its parts. -/
theorem scatter_ge (pick : Nat → Nat) (fill : Nat → List Byte) (m : Nat) (l : List (List Byte)) (h : l.length = m) :
    (l.map List.length).sum ≤ (scatter pick fill m l).length := by
  induction m generalizing l with
  | zero => simp [List.length_eq_zero_iff.mp h]
  | succ m ih =>
    have hi : pick m % l.length < l.length := Nat.mod_lt _ (by omega)
    have hp : l[pick m % l.length]? = some l[pick m % l.length] := List.getElem?_eq_getElem hi
    have h1 := sum_erase l _ _ hp
    have h2 := ih (l.eraseIdx (pick m % l.length)) (by rw [List.length_eraseIdx_of_lt hi]; omega)
    unfold scatter
    rw [hp]
    simp only [List.length_append]; omega
theorem coreAt_cut0 (z : Dw) (l : List Link) (n : CoreId) : (cut0 z l).coreAt n = Core.reset := by
  show (Vector.replicate 352 Core.reset)[n.val] = _
  simp
theorem parts_cut0 (z : Dw) : ((cut0 z []).dumpParts .bow).length ≤ 1408 ∧ (((cut0 z []).dumpParts .bow).map List.length).sum ≤ 352 * 235520 ∧
    0 < (((cut0 z []).dumpParts .bow).map List.length).sum := by
  have hc : (coresOf .bow).length ≤ 352 := by
    unfold coresOf; exact Nat.le_trans (List.length_filter_le _ _) (by simp)
  have hp : (cut0 z []).dumpParts .bow = (coresOf .bow).flatMap fun _ => [Core.reset.ctx.image none, [], [], []] := by
    unfold State.dumpParts
    simp only [coreAt_cut0, Core.reset, Core.keptBytes]
    have h1 : ((cut0 z []).die .bow).cox = [] := rfl
    have h2 : ((cut0 z []).die .bow).snap = some (snap0 [] false) := rfl
    have h3 : (cut0 z []).slots = [] := rfl
    have h4 : ((cut0 z []).die .bow).sessions = [] := rfl
    have h5 : ((cut0 z []).die .bow).sends = [] := rfl
    have h6 : ((cut0 z []).die .bow).frozenFns = [] := rfl
    simp [h1, h2, h3, h4, h5, h6, snap0]
  have hz : 0 < (coresOf .bow).length := List.length_pos_of_mem (a := (0 : CoreId)) (by unfold coresOf; exact List.mem_filter.mpr ⟨List.mem_finRange _, by decide⟩)
  rw [hp]
  generalize hl : coresOf .bow = l at hc hz
  clear hl hp
  constructor
  · simp [List.length_flatMap, sum_const]; omega
  · have : ((l.flatMap fun _ => [Core.reset.ctx.image none, [], [], []]).map List.length).sum = l.length * 235520 := by
      clear hc hz
      induction l with
      | nil => rfl
      | cons a l ih => simp [List.flatMap_cons, image_len] at ih ⊢; omega
    constructor <;> omega
theorem dump_cut0 (z : Dw) : 0 < ((cut0 z []).dumpBytes .bow).length ∧ ((cut0 z []).dumpBytes .bow).length < 2 ^ 40 := by
  obtain ⟨h1, h2, h3⟩ := parts_cut0 z
  have := scatter_len (fun m => Config.pick (cut0 z []).free (1000 + 2 * m))
    (fun m => (List.range (Config.pick (cut0 z []).free (1001 + 2 * m) % 2 ^ 16)).map fun j => (Config.freeLine (cut0 z []).free (2 ^ 20 + 2 ^ 16 * m + j)).setWidth 8)
    (fun m => by simp; omega) ((cut0 z []).dumpParts .bow).length ((cut0 z []).dumpParts .bow)
  have h4 := scatter_ge (fun m => Config.pick (cut0 z []).free (1000 + 2 * m))
    (fun m => (List.range (Config.pick (cut0 z []).free (1001 + 2 * m) % 2 ^ 16)).map fun j => (Config.freeLine (cut0 z []).free (2 ^ 20 + 2 ^ 16 * m + j)).setWidth 8)
    ((cut0 z []).dumpParts .bow).length ((cut0 z []).dumpParts .bow) rfl
  unfold State.dumpBytes; dsimp only; omega
set_option maxRecDepth 20000 in
theorem witness_SnapshotEvents_dump :
    let s := cut0 (2 ^ 40) []
    (s.die .bow).snap = some (snap0 [] false) ∧ (snap0 [] false).waiting = [] ∧ (snap0 [] false).outgoing = [] ∧ (snap0 [] false).dumped = false ∧
    (s.die .bow).linkDown = false ∧
    (s.dumpBytes .bow).length ≤ (s.die .bow).dmpsize.toNat ∧ hostBase + (s.die .bow).dmpbase.toNat + (s.dumpBytes .bow).length ≤ 2 ^ 56 ∧ MemInv s ∧
    s.hitsSlot (hostBase + (s.die .bow).dmpbase.toNat) (s.dumpBytes .bow).length = false ∧
    ((cut0 0 []).die .bow).dmpsize.toNat < ((cut0 0 []).dumpBytes .bow).length := by
  have h := (dump_cut0 (2 ^ 40)).2
  refine ⟨rfl, rfl, rfl, rfl, rfl, Nat.le_trans (Nat.le_of_lt h) (by decide), Nat.le_trans (Nat.add_le_add_left (Nat.le_of_lt h) _) (by decide), ?_, rfl,
    (dump_cut0 0).1⟩
  unfold MemInv; decide
set_option maxRecDepth 20000 in
theorem witness_SnapshotEvents_resume :
    (snap0 [] false).heldMsgs = [] ∧ (snap0 [] false).outgoing = [] ∧ ((cut0 0 []).die DieId.bow.other).markerIn = none ∧
    (∀ e ∈ ((cut0 0 []).modDie .bow fun x => { x with snap := none }).dues .bow, ((cut0 0 []).die .bow).time < e.time) := by
  refine ⟨rfl, rfl, rfl, ?_⟩; decide
theorem witness_SnapshotEvents_scope : (0xC : Dw).extractLsb' 2 2 = 3 ∧ (0x1D : Dw).extractLsb' 2 2 = 3 := by decide
set_option maxRecDepth 20000 in
/-- Core 0 halted by a cut of its die. -/
theorem witness_SnapshotEvents_resumed :
    let s := (cut0 0 []).modCore 0 fun c => { c with dbg := { c.dbg with halted := some .cut } }
    dieOf 0 = .bow ∧ (s.coreAt 0).dbg.halted = some .cut ∧ (s.die .bow).snap = some (snap0 [] false) := ⟨rfl, rfl, rfl⟩

/-! ## Single steps, their results worked out by hand -/

/-- The state after a meaning. -/
def after (o : Host.Outcome State Fault Refusal) : State := match o with | .next t => t | _ => State.reset

/-- The results in flight to scalar registers on core 0 (destination and value). -/
def results (o : Host.Outcome State Fault Refusal) : List (Dest × Nat) := ((after o).coreAt 0).ctx.inflight.map fun r => (r.dest, r.val.toNat)

set_option maxRecDepth 20000 in
/-- R142: the sum wraps. -/
theorem test_add_wraps : results (exec (.add false 3 4 5) (on .c (cReg 4 (BitVec.allOnes 64) ∘ cReg 5 2))) = [(.c 3, 1)] := by decide
set_option maxRecDepth 20000 in
/-- R143: −7 / 2 is −3. -/
theorem test_div_truncates : results (exec (.div false 3 4 5) (on .c (cReg 4 (-7) ∘ cReg 5 2))) = [(.c 3, 2 ^ 64 - 3)] := by decide
set_option maxRecDepth 20000 in
/-- R143: −7 rem 2 is −1. -/
theorem test_rem_sign : results (exec (.rem false 3 4 5) (on .c (cReg 4 (-7) ∘ cReg 5 2))) = [(.c 3, 2 ^ 64 - 1)] := by decide
set_option maxRecDepth 20000 in
/-- R26: c0 reads as zero. -/
theorem test_c0_reads_zero : results (exec (.sub false 3 0 5) (on .c (cReg 0 9 ∘ cReg 5 1))) = [(.c 3, 2 ^ 64 - 1)] := by decide
set_option maxRecDepth 20000 in
/-- R35, R121: a taken branch remembers A + 4 × sext(imm). -/
theorem test_branch_back :
    (((after (exec (.beq false 1 2 0x1FFF) (on .c id))).coreAt 0).ctx.seat .c).dtgt = base - 4 ∧
    (((after (exec (.beq false 1 2 0x1FFF) (on .c id))).coreAt 0).ctx.seat .c).pc = base + 4 := by decide
set_option maxRecDepth 20000 in
/-- R161: AADD adds on A. -/
theorem test_aadd : results (exec (.aadd false 3 4 5) (on .a (aReg 4 7 ∘ aReg 5 5))) = [(.a 3, 12)] := by decide
set_option maxRecDepth 20000 in
/-- R164: LDBS extends the sign of its byte when it is performed. -/
theorem test_ldbs :
    let s := put (padBase 0 + 64) 1 0x80 (core0 fun c => { c with ops := [op0 (.load (padBase 0 + 64) 1 true 3)], ctx := { c.ctx with
      inflight := [{ result0 with dest := .a 3, ready := false, op := 9 }] } })
    results (exec (.operationPerformed 0 9) s) = [(.a 3, 2 ^ 64 - 128)] := by decide
set_option maxRecDepth 20000 in
/-- R221: XADD adds its immediate. -/
theorem test_xadd : results (exec (.xadd false 6 6 0 0x7FF) (on .v fun c => { c with x := c.x.set 6 5 })) = [(.x 6, 4)] := by decide
set_option maxRecDepth 20000 in
/-- R245: MLUI shifts its immediate by 15. -/
theorem test_mlui : results (exec (.mlui false 2 1) (on .m id)) = [(.m 2, 32768)] := by decide
set_option maxRecDepth 20000 in
/-- R205: 1.0 + 2.0 is 3.0 in every lane. -/
theorem test_vadd :
    let s := on .v fun c => { c with v := (c.v.set 2 (packElems 4 (List.replicate 256 0x3F800000))).set 3 (packElems 4 (List.replicate 256 0x40000000)) }
    ((results (exec (.vadd false 1 2 3 0 0) s)).map fun r => (r.1, r.2 % 2 ^ 64)) = [(.v 1, 0x4040000040400000)] := by decide
set_option maxRecDepth 20000 in
/-- R31: a post lands at the end of the clock. -/
theorem test_tpost : ((after (exec (.tpost false 3 5) (on .c id))).coreAt 0).pend = [.post 3 5] := by decide
set_option maxRecDepth 20000 in
/-- R350: a trap waits as the cause of its seat. -/
theorem test_misaligned :
    ((((after (exec (.ldw false 5 4 0 0 0) (atA (base + 1)))).coreAt 0).ctx.seat .a).cause.map fun q => q.cause) = some .alignment := by decide
end Sys2Proof.Tests
end

section
/-! SUPPORT. The canonical form of memory along a step: a state is kept in form when its memory is left as it was, or is written through the laws of
Laws/Memory; the rules for branches and folds, for the state that a verdict carries, and for the state that an outcome answers. -/

namespace Sys2Proof.Machine

open Sys2Proof

/-! ## Branches and folds -/

@[simp] theorem State.ite_mem (c : Prop) [Decidable c] (s t : State) : (if c then s else t).mem = if c then s.mem else t.mem := apply_ite State.mem c s t

theorem State.ite_wf {c : Prop} [Decidable c] {s t : State} (hs : Memory.wf s.mem) (ht : Memory.wf t.mem) : Memory.wf (if c then s else t).mem := by
  split <;> assumption

@[simp] theorem State.foldl_mem {α : Type} (l : List α) (f : State → α → State) (s : State) (h : ∀ s x, (f s x).mem = s.mem) :
    (l.foldl f s).mem = s.mem := by
  induction l generalizing s with
  | nil => rfl
  | cons x l ih => rw [List.foldl_cons, ih, h]

theorem State.foldl_wf {α : Type} (l : List α) (f : State → α → State) {s : State} (h : Memory.wf s.mem)
    (hf : ∀ s x, Memory.wf s.mem → Memory.wf (f s x).mem) : Memory.wf (l.foldl f s).mem := by
  induction l generalizing s with
  | nil => exact h
  | cons x l ih => exact ih (hf s x h)

/-! ## Verdicts -/

/-- The state that a verdict carries, where it carries one, has its memory in canonical form. -/
def Verdict.MemWf : Verdict → Prop
  | .stall s | .go s _ | .goTrap s _ _ _ => Memory.wf s.mem
  | .trap _ _ => True

@[simp] theorem Verdict.memWf_stall (s : State) : (Verdict.stall s).MemWf ↔ Memory.wf s.mem := Iff.rfl
@[simp] theorem Verdict.memWf_go (s : State) (f : Flow) : (Verdict.go s f).MemWf ↔ Memory.wf s.mem := Iff.rfl
@[simp] theorem Verdict.memWf_goTrap (s : State) (f : Flow) (c : Cause) (v : Dw) : (Verdict.goTrap s f c v).MemWf ↔ Memory.wf s.mem := Iff.rfl
@[simp] theorem Verdict.memWf_trap (c : Cause) (v : Dw) : (Verdict.trap c v).MemWf := trivial

@[simp] theorem Verdict.memWf_ite (c : Prop) [Decidable c] (v w : Verdict) : (if c then v else w).MemWf ↔ if c then v.MemWf else w.MemWf := by
  split <;> rfl

/-! ## Outcomes -/

/-- The state that an outcome answers, where it answers one, has its memory in canonical form. -/
def OutcomeWf (o : Host.Outcome State Fault Refusal) : Prop := ∀ t, o = .next t → Memory.wf t.mem

@[simp] theorem outcomeWf_next (t : State) : OutcomeWf (.next t) ↔ Memory.wf t.mem := by simp [OutcomeWf]
@[simp] theorem outcomeWf_fault (r : Fault) : OutcomeWf (.fault r) := by simp [OutcomeWf]
@[simp] theorem outcomeWf_refused (r : Refusal) : OutcomeWf (.refused r) := by simp [OutcomeWf]

end Sys2Proof.Machine
end

section
/-! SUPPORT. One rule per operation of the model, in the order of its files: `f_mem` where f leaves memory as it was, `f_wf` where f writes and keeps the
canonical form. A rule takes the branches of its operation apart once and closes each by the rules of the operations that the branch calls. -/

namespace Sys2Proof.Machine

open Sys2Proof

/-! ## Ops -/

@[simp] theorem State.sendC_mem (s : State) (d : BitVec 5) (v : Dw) (lat : Nat) : (s.sendC d v lat).mem = s.mem := by simp [State.sendC]
@[simp] theorem State.sendA_mem (s : State) (d : BitVec 5) (v : Dw) (lat : Nat) : (s.sendA d v lat).mem = s.mem := by simp [State.sendA]
@[simp] theorem State.sendM_mem (s : State) (d : BitVec 4) (v : Dw) (lat : Nat) : (s.sendM d v lat).mem = s.mem := by simp [State.sendM]
@[simp] theorem State.sendX_mem (s : State) (d : BitVec 4) (v : Dw) (lat : Nat) : (s.sendX d v lat).mem = s.mem := by simp [State.sendX]

/-- The law of Laws/Memory, as a rule of the simp set. -/
@[simp] theorem State.wakeLine_mem (s : State) (pa n : Nat) : (s.wakeLine pa n).mem = s.mem := Machine.wakeLine_mem s pa n

@[simp] theorem State.modSlot_mem (s : State) (pa : Nat) (f : Slot → Slot) : (s.modSlot pa f).mem = s.mem := by simp [State.modSlot]

@[simp] theorem State.raise_mem (s : State) (n : CoreId) (k : SeatId) (c : Cause) (tval tpc : Dw) (issued : Bool) :
    (s.raise n k c tval tpc issued).mem = s.mem := by simp [State.raise]

@[simp] theorem State.withdrawAwait_mem (s : State) (n : CoreId) : (s.withdrawAwait n).mem = s.mem := by
  unfold State.withdrawAwait
  split <;> simp

@[simp] theorem State.freezeCore_mem (s : State) (n : CoreId) (c : Cause) : (s.freezeCore n c).mem = s.mem := by simp [State.freezeCore]
@[simp] theorem State.freezeCopies_mem (s : State) (n : CoreId) : (s.freezeCopies n).mem = s.mem := by simp [State.freezeCopies]
@[simp] theorem State.freezeQueue_mem (s : State) (d : DieId) (q : Fin 64) : (s.freezeQueue d q).mem = s.mem := by simp [State.freezeQueue]
@[simp] theorem State.freezeFunction_mem (s : State) (d : DieId) (fn : Fin 33) : (s.freezeFunction d fn).mem = s.mem := by simp [State.freezeFunction]
@[simp] theorem State.dropWaits_mem (s : State) (n : CoreId) : (s.dropWaits n).mem = s.mem := by simp [State.dropWaits]

@[simp] theorem State.takeTrap_mem (s : State) (n : CoreId) (k : SeatId) (q : SeatCause) (efinfo : Nat) : (s.takeTrap n k q efinfo).mem = s.mem := by
  unfold State.takeTrap
  dsimp only
  split <;> simp

@[simp] theorem State.returnTrap_mem (s : State) (n : CoreId) (h : Handler) : (s.returnTrap n h).mem = s.mem := by simp [State.returnTrap]

/-! ## Trace -/

@[simp] theorem State.traceEpoch_mem (s : State) (w : CrewId) (cause : Nat) : (s.traceEpoch w cause).mem = s.mem := by simp [State.traceEpoch]
@[simp] theorem State.lateEpochs_mem (s : State) (w : CrewId) (l : List Nat) : (s.lateEpochs w l).mem = s.mem := by simp [State.lateEpochs]

@[simp] theorem State.traceRec_mem (s : State) (n : CoreId) (kind : Nat) (data : List Dw) : (s.traceRec n kind data).mem = s.mem := by
  simp [State.traceRec]

@[simp] theorem State.traceUnit_mem (s : State) (n : CoreId) (u : UnitInfo) (event cause : Nat) : (s.traceUnit n u event cause).mem = s.mem := by
  simp [State.traceUnit]

@[simp] theorem State.traceUnitOf_mem (s : State) (n : CoreId) (event cause : Nat) : (s.traceUnitOf n event cause).mem = s.mem := by
  unfold State.traceUnitOf
  split <;> simp

@[simp] theorem State.logEntry_mem (s : State) (n : CoreId) (kind : Nat) (k : SeatId) (idx val : Nat) (data : List Byte) :
    (s.logEntry n kind k idx val data).mem = s.mem := by simp [State.logEntry]

@[simp] theorem State.logStart_mem (s : State) (n : CoreId) (halt : Nat) : (s.logStart n halt).mem = s.mem := by
  unfold State.logStart
  split <;> simp

@[simp] theorem State.logLine_mem (s : State) (n : CoreId) (q : BitVec 3) (v : Line) : (s.logLine n q v).mem = s.mem := by simp [State.logLine]
@[simp] theorem State.logWake_mem (s : State) (n : CoreId) (k : SeatId) : (s.logWake n k).mem = s.mem := by simp [State.logWake]
@[simp] theorem State.logPost_mem (s : State) (n : CoreId) (t : BitVec 4) (v : Nat) : (s.logPost n t v).mem = s.mem := by simp [State.logPost]
@[simp] theorem State.logSkip_mem (s : State) (n : CoreId) (len : Nat) : (s.logSkip n len).mem = s.mem := by simp [State.logSkip]
@[simp] theorem State.debugHalt_mem (s : State) (n : CoreId) (why : HaltWhy) : (s.debugHalt n why).mem = s.mem := by simp [State.debugHalt]

/-! ## Translate -/

@[simp] theorem State.addMiss_mem (s : State) (n : CoreId) (ctx : Fin 64) (ag : Agent) (va : Dw) : (s.addMiss n ctx ag va).mem = s.mem := by
  simp [State.addMiss]

@[simp] theorem State.clearWalkAns_mem (s : State) (n : CoreId) (ag : Agent) : (s.clearWalkAns n ag).mem = s.mem := by simp [State.clearWalkAns]

@[simp] theorem State.installContext_mem (s : State) (d : DieId) (x : Fin 64) : (s.installContext d x).mem = s.mem := by
  unfold State.installContext
  dsimp only
  split <;> simp

@[simp] theorem State.installGranted_mem (s before : State) : (s.installGranted before).mem = s.mem :=
  State.foldl_mem _ _ _ fun s d => State.foldl_mem _ _ _ fun s x => by split <;> simp

/-! ## Issue -/

@[simp] theorem State.counterRecord_mem (s : State) (n : CoreId) : (s.counterRecord n).mem = s.mem := by simp [State.counterRecord]
@[simp] theorem State.count_mem (s : State) (n : CoreId) (code inc : Nat) : (s.count n code inc).mem = s.mem := by simp [State.count]
@[simp] theorem State.landReserved_mem (s : State) (n : CoreId) : (s.landReserved n).mem = s.mem := by simp [State.landReserved]
@[simp] theorem State.countDie_mem (s : State) (x : DieId) (code inc : Nat) : (s.countDie x code inc).mem = s.mem := by simp [State.countDie]
@[simp] theorem State.why_mem (s : State) (code : Nat) : (s.why code).mem = s.mem := by simp [State.why]
@[simp] theorem State.pass_mem (s : State) (k : SeatId) (f : Flow) : (s.pass k f).mem = s.mem := by simp [State.pass]

/-- A seat that settles a verdict goes on in the state the verdict carries. -/
@[simp] theorem State.settle_wf (s : State) (k : SeatId) (v : Verdict) (h : Memory.wf s.mem) (hv : v.MemWf) : Memory.wf (s.settle k v).mem := by
  cases v with
  | stall t => exact hv
  | trap c tval => simpa [State.settle] using h
  | go t f => simpa [State.settle] using hv
  | goTrap t f c tval => simpa [State.settle] using hv

theorem issue_wf {s : State} {k : SeatId} {st : Bool} {i : Instr} {v : Verdict} (h : Memory.wf s.mem) (hv : v.MemWf) : OutcomeWf (issue k st i v s) := by
  unfold issue
  split
  · split
    · split <;> simp [h, hv]
    · simpa using h
    · simp [h, hv]
  · simpa using h

@[simp] theorem State.squash_mem (s : State) (k : SeatId) : (s.squash k).mem = s.mem := by simp [State.squash]
@[simp] theorem State.loseBanks_mem (s : State) (n : CoreId) : (s.loseBanks n).mem = s.mem := by simp [State.loseBanks]
@[simp] theorem State.countClock_mem (s : State) (n : CoreId) : (s.countClock n).mem = s.mem := by simp [State.countClock]
@[simp] theorem State.conflictRecord_mem (s : State) (n : CoreId) : (s.conflictRecord n).mem = s.mem := by simp [State.conflictRecord]
@[simp] theorem State.loopRecord_mem (s : State) (n : CoreId) : (s.loopRecord n).mem = s.mem := by simp [State.loopRecord]
@[simp] theorem State.tickClock_mem (s : State) (n : CoreId) : (s.tickClock n).mem = s.mem := by simp [State.tickClock]
@[simp] theorem State.tickDie_mem (s : State) (d : DieId) : (s.tickDie d).mem = s.mem := by simp [State.tickDie]
@[simp] theorem State.nextCore_mem (s : State) : s.nextCore.mem = s.mem := by simp [State.nextCore]

/-! ## Phases -/

@[simp] theorem State.walk_mem (s : State) (d : DieId) (phid : Dw) (work : List NodeWork) (acq : List (Nat × Nat)) :
    (s.walk d phid work acq).mem = s.mem := by
  unfold State.walk
  split <;> simp

@[simp] theorem State.unitDone_mem (s : State) (d : DieId) (phid : Dw) (lid : Word) (run fault : Bool) (status : Nat) :
    (s.unitDone d phid lid run fault status).mem = s.mem := by
  unfold State.unitDone
  dsimp only
  (repeat' split) <;> simp

@[simp] theorem State.cancelUnits_mem (s : State) (d : DieId) (phid : Dw) (lid : Word) (n : Nat) : (s.cancelUnits d phid lid n).mem = s.mem := by
  induction n generalizing s with
  | zero => rfl
  | succ n ih => simp [State.cancelUnits, ih]

@[simp] theorem State.cancelTasks_mem (s : State) (d : DieId) (sel : Task → Bool) : (s.cancelTasks d sel).mem = s.mem := by simp [State.cancelTasks]
@[simp] theorem State.dropWaiters_mem (s : State) (gone : Waiter → Bool) : (s.dropWaiters gone).mem = s.mem := by simp [State.dropWaiters]

@[simp] theorem State.cancelParked_mem (s : State) (d : DieId) (sel : ContRec → Bool) : (s.cancelParked d sel).mem = s.mem := by
  simp [State.cancelParked]

@[simp] theorem State.cancelRunning_mem (s : State) (d : DieId) (sel : UnitInfo → Bool) : (s.cancelRunning d sel).mem = s.mem := by
  simp [State.cancelRunning]

@[simp] theorem State.cancelHeld_mem (s : State) (d : DieId) (sel : UnitInfo → Bool) : (s.cancelHeld d sel).mem = s.mem := by simp [State.cancelHeld]

@[simp] theorem State.cancelAll_mem (s : State) (d : DieId) (phOk : Dw → Bool) (lidOk : Word → Bool) : (s.cancelAll d phOk lidOk).mem = s.mem := by
  simp [State.cancelAll]

@[simp] theorem State.cancelPhase_mem (s : State) (d : DieId) (phid : Dw) (status : Nat) : (s.cancelPhase d phid status).mem = s.mem := by
  simp [State.cancelPhase]

@[simp] theorem State.sweepPhase_mem (s : State) (d : DieId) (phid : Dw) : (s.sweepPhase d phid).mem = s.mem := by
  unfold State.sweepPhase
  split <;> simp

@[simp] theorem State.sweepAll_mem (s : State) (d : DieId) : (s.sweepAll d).mem = s.mem := by simp [State.sweepAll]

@[simp] theorem State.cancelUnit_mem (s : State) (d : DieId) (l : Launch) (uidx : Word) : (s.cancelUnit d l uidx).mem = s.mem := by
  simp [State.cancelUnit]

@[simp] theorem State.affected_mem (s : State) (d : DieId) (phid : Dw) (hit : Bool) : (s.affected d phid hit).mem = s.mem := by simp [State.affected]
@[simp] theorem State.dropCox_mem (s : State) (d : DieId) (gone : Cox → Bool) : (s.dropCox d gone).mem = s.mem := by simp [State.dropCox]

@[simp] theorem State.cancelLevel_mem (s : State) (d : DieId) (p : Fin 32) (m : Member) : (s.cancelLevel d p m).mem = s.mem := by
  unfold State.cancelLevel
  (repeat' split) <;> simp

@[simp] theorem State.cancelMember_mem (s : State) (d : DieId) (p : Fin 32) (m : Member) : (s.cancelMember d p m).mem = s.mem := by
  simp [State.cancelMember]

@[simp] theorem State.jointLeave_mem (s : State) (n : CoreId) : (s.jointLeave n).mem = s.mem := by simp [State.jointLeave]
@[simp] theorem State.endOn_mem (s : State) (n : CoreId) (event : Nat) : (s.endOn n event).mem = s.mem := by simp [State.endOn]

@[simp] theorem State.leaveUnit_mem (s : State) (n : CoreId) (cancelled fault : Bool) (status : Nat) :
    (s.leaveUnit n cancelled fault status).mem = s.mem := by simp [State.leaveUnit]

/-! ## Operands -/

theorem branchV_wf {s : State} {taken : Bool} {t : Dw} (h : Memory.wf s.mem) : (branchV s taken t).MemWf := by simp [branchV, h]

/-! ## CSeat -/

@[simp] theorem State.sendExt_mem (s : State) (d : BitVec 5) (v : Dw) (lat : Nat) : (s.sendExt d v lat).mem = s.mem := by simp [State.sendExt]
theorem aluC_wf {d a b : BitVec 5} {lat : Nat} {f : Dw → Dw → Dw} {s : State} (h : Memory.wf s.mem) : (aluC d a b lat f s).MemWf := by simp [aluC, h]
theorem aluCI_wf {d a : BitVec 5} {f : Dw → Dw} {s : State} (h : Memory.wf s.mem) : (aluCI d a f s).MemWf := by simp [aluCI, h]

theorem branchC_wf {a b : BitVec 5} {imm : BitVec 13} {f : Dw → Dw → Bool} {s : State} (h : Memory.wf s.mem) : (branchC a b imm f s).MemWf :=
  branchV_wf h

@[simp] theorem State.pendF_mem (s : State) (p : Pending) : (s.pendF p).mem = s.mem := by simp [State.pendF]
theorem lsetV_wf {d a : BitVec 5} {imm : BitVec 13} {s : State} (h : Memory.wf s.mem) : (lsetV d a imm s).MemWf := by simp [lsetV, h]

theorem spawnV_wf {a : BitVec 5} {s : State} (h : Memory.wf s.mem) : (spawnV a s).MemWf := by
  unfold spawnV
  dsimp only
  split <;> simp [h]

theorem parkV_wf {a b : BitVec 5} {fn : BitVec 1} {s : State} (h : Memory.wf s.mem) : (parkV a b fn s).MemWf := by
  unfold parkV
  dsimp only
  split <;> simp [h]

theorem exitV_wf {s : State} (h : Memory.wf s.mem) : (exitV s).MemWf := by
  unfold exitV
  dsimp only
  split <;> simp [h]

@[simp] theorem State.askCrd_mem (s : State) (m : Member) : (s.askCrd m).mem = s.mem := by simp [State.askCrd]
theorem cnclV_wf {a b : BitVec 5} {fn : BitVec 3} {s : State} (h : Memory.wf s.mem) : (cnclV a b fn s).MemWf := by simp [cnclV, h]
theorem crdV_wf {d a b : BitVec 5} {fn : BitVec 3} {s : State} (h : Memory.wf s.mem) : (crdV d a b fn s).MemWf := by simp [crdV, h]
@[simp] theorem State.modHandler_mem (s : State) (n : CoreId) (f : Handler → Handler) : (s.modHandler n f).mem = s.mem := by simp [State.modHandler]

theorem sysrV_wf {d : BitVec 5} {sys : BitVec 13} {s : State} (h : Memory.wf s.mem) : (sysrV d sys s).MemWf := by
  unfold sysrV
  split <;> simp [h]

theorem syswV_wf {a : BitVec 5} {sys : BitVec 13} {s : State} (h : Memory.wf s.mem) : (syswV a sys s).MemWf := by
  unfold syswV
  dsimp only
  (repeat' split) <;> simp [h]

@[simp] theorem State.adoptLoop_mem (s : State) (n : CoreId) (k : SeatId) : (s.adoptLoop n k).mem = s.mem := by
  unfold State.adoptLoop
  dsimp only
  (repeat' split) <;> simp

@[simp] theorem State.adoptLoops_mem (s : State) (n : CoreId) : (s.adoptLoops n).mem = s.mem := by simp [State.adoptLoops]

theorem rftV_wf {s : State} (h : Memory.wf s.mem) : (rftV s).MemWf := by
  unfold rftV
  dsimp only
  split <;> simp [h]

/-! ## Home -/

@[simp] theorem State.crosses_mem (s : State) (d : DieId) : (s.crosses d).mem = s.mem := by simp [State.crosses]
@[simp] theorem State.hold_mem (s : State) (d : DieId) (l : Link) (i : Msg) : (s.hold d l i).mem = s.mem := by simp [State.hold]

@[simp] theorem State.actionFault_mem (s : State) (d : DieId) (t : Slot) (cause : Nat) : (s.actionFault d t cause).mem = s.mem := by
  simp [State.actionFault]

@[simp] theorem State.pushUnit_mem (s : State) (d : DieId) (r : UnitRec) (part : Fin 32) (ctx : Fin 64) (prio : BitVec 4)
    (dline phid : Dw) (jid : Word) (acq : List (Nat × Nat)) :
    (s.pushUnit d r part ctx prio dline phid jid acq).mem = s.mem := by simp [State.pushUnit]

@[simp] theorem State.launchNow_mem (s : State) (d : DieId) (t : Slot) (read : Option (BitVec 512)) : (s.launchNow d t read).mem = s.mem := by
  unfold State.launchNow
  dsimp only
  (repeat' split) <;> simp

@[simp] theorem State.launchAction_mem (s : State) (d : DieId) (t : Slot) : (s.launchAction d t).mem = s.mem := by simp [State.launchAction]

@[simp] theorem State.nodeAction_mem (s : State) (d : DieId) (t : Slot) : (s.nodeAction d t).mem = s.mem := by
  unfold State.nodeAction
  dsimp only
  split <;> simp

@[simp] theorem State.outsidePost_mem (s : State) (n : CoreId) (k : BitVec 4) (v : Nat) : (s.outsidePost n k v).mem = s.mem := by
  simp [State.outsidePost]

@[simp] theorem State.tokenPost_mem (s : State) (d : DieId) (t : Slot) (core : CoreId) (k : BitVec 4) (n : Nat) :
    (s.tokenPost d t core k n).mem = s.mem := by simp [State.tokenPost]

@[simp] theorem State.tokenAction_mem (s : State) (d : DieId) (t : Slot) : (s.tokenAction d t).mem = s.mem := by
  unfold State.tokenAction
  split <;> simp

@[simp] theorem State.sendOp_mem (s : State) (d : DieId) (sid : Nat) (bytes : List Byte) : (s.sendOp d sid bytes).mem = s.mem := by
  unfold State.sendOp
  split <;> simp

@[simp] theorem State.sendChunk_mem (s : State) (d : DieId) (x : Send) : (s.sendChunk d x).mem = s.mem := by simp [State.sendChunk]

@[simp] theorem State.regionSend_mem (s : State) (d : DieId) (sid pa n : Nat) : (s.regionSend d sid pa n).mem = s.mem := by
  unfold State.regionSend
  split <;> simp

@[simp] theorem State.wakeWaiter_mem (s : State) (pa : Nat) (ph : Bool) (at_ : Nat) (w : Waiter) : (s.wakeWaiter pa ph at_ w).mem = s.mem := by
  unfold State.wakeWaiter
  (repeat' split) <;> simp

@[simp] theorem State.releaseWaiter_mem (s : State) (pa : Nat) (ph : Bool) (w : Waiter) : (s.releaseWaiter pa ph w).mem = s.mem := by
  unfold State.releaseWaiter
  split <;> simp

@[simp] theorem State.slotAction_mem (s : State) (d : DieId) (t : Slot) : (s.slotAction d t).mem = s.mem := by
  unfold State.slotAction
  (repeat' split) <;> simp

@[simp] theorem State.completeSlot_mem (s : State) (d : DieId) (pa : Nat) (above : Bool) : (s.completeSlot d pa above).mem = s.mem := by
  unfold State.completeSlot
  split <;> simp

@[simp] theorem State.countBytes_mem (s : State) (d : DieId) (pa n : Nat) : (s.countBytes d pa n).mem = s.mem := by
  unfold State.countBytes
  split <;> simp

@[simp] theorem State.deadline_mem (s : State) (d : DieId) (pa : Nat) : (s.deadline d pa).mem = s.mem := by
  unfold State.deadline
  split <;> simp

@[simp] theorem State.countWrite_mem (s : State) (pa n : Nat) (t : Slot) : (s.countWrite pa n t).mem = s.mem := by
  unfold State.countWrite
  dsimp only
  (repeat' split) <;> simp

@[simp] theorem State.clearPoison_mem (s : State) (pa n : Nat) : (s.clearPoison pa n).mem = s.mem := by simp [State.clearPoison]

@[simp] theorem State.countAccess_mem (s : State) (pa k : Nat) : (s.countAccess pa k).mem = s.mem := by
  unfold State.countAccess
  split <;> simp

/-- A store at its home keeps the canonical form; what it counts and wakes touches no byte. -/
@[simp] theorem State.homeStore_wf (s : State) (pa : Nat) (bytes : List Byte) (h : Memory.wf s.mem) : Memory.wf (s.homeStore pa bytes).mem := by
  unfold State.homeStore
  simpa using memWriteBytes_wf _ s.mem pa h

theorem State.flushLogGo_wf (n : CoreId) (fuel : Nat) (s : State) (h : Memory.wf s.mem) : Memory.wf (State.flushLog.go n fuel s).mem := by
  induction fuel generalizing s with
  | zero => exact h
  | succ fuel ih =>
    unfold State.flushLog.go
    dsimp only
    split
    · exact h
    · split
      · exact h
      · exact ih _ (State.foldl_wf _ _ (by simpa using h) fun s p hs => State.homeStore_wf _ _ _ hs)

@[simp] theorem State.flushLog_wf (s : State) (n : CoreId) (h : Memory.wf s.mem) : Memory.wf (s.flushLog n).mem := State.flushLogGo_wf n _ s h

@[simp] theorem State.credit_mem (s : State) (pa n : Nat) : (s.credit pa n).mem = s.mem := by
  unfold State.credit
  dsimp only
  split <;> simp

/-! ## ASeat -/

theorem aluA_wf {d a b : BitVec 5} {lat : Nat} {f : Dw → Dw → Dw} {s : State} (h : Memory.wf s.mem) : (aluA d a b lat f s).MemWf := by simp [aluA, h]

@[simp] theorem State.issueOp_mem (s : State) (os : BitVec 2) (pm : BitVec 4) (kind : OpKind) (acquires : Bool) (va : Dw) :
    (s.issueOp os pm kind acquires va).mem = s.mem := by simp [State.issueOp]

theorem State.withA_wf {s : State} {need : Need} {align size : Nat} {va : Dw} {k : Nat → Verdict} (h : Memory.wf s.mem) (hk : ∀ pa, (k pa).MemWf) :
    (s.withA need align size va k).MemWf := by
  unfold State.withA
  split <;> simp [h, hk]

@[simp] theorem State.issueLoad_mem (s : State) (os : BitVec 2) (pm : BitVec 4) (kind : BitVec 5 → OpKind) (t : BitVec 5) (lat : Nat)
    (acquires : Bool) (va : Dw) :
    (s.issueLoad os pm kind t lat acquires va).mem = s.mem := by simp [State.issueLoad]

@[simp] theorem State.ifRoom_wf (s : State) (os : BitVec 2) (v : Verdict) (h : Memory.wf s.mem) (hv : v.MemWf) : (s.ifRoom os v).MemWf := by
  unfold State.ifRoom
  split <;> simp [h, hv]

theorem loadV_wf {n : Nat} {sext : Bool} {t b : BitVec 5} {os : BitVec 2} {pm : BitVec 4} {off : BitVec 7} {s : State} (h : Memory.wf s.mem) :
    (loadV n sext t b os pm off s).MemWf :=
  State.withA_wf h fun pa => by simp [h]

theorem storeV_wf {n : Nat} {t b : BitVec 5} {os : BitVec 2} {pm : BitVec 4} {off : BitVec 7} {s : State} (h : Memory.wf s.mem) :
    (storeV n t b os pm off s).MemWf :=
  State.withA_wf h fun pa => by simp [h]

theorem State.withBlocks_wf {s : State} {need : Need} {va : Dw} {k : List Nat → Verdict} (h : Memory.wf s.mem) (hk : ∀ l, (k l).MemWf) :
    (s.withBlocks need va k).MemWf := by
  unfold State.withBlocks
  split
  · simp
  · split <;> simp [h, hk]

theorem ldvV_wf {t b : BitVec 5} {os : BitVec 2} {pm : BitVec 4} {off : BitVec 7} {s : State} (h : Memory.wf s.mem) : (ldvV t b os pm off s).MemWf := by
  unfold ldvV
  dsimp only
  split
  · simp
  · split
    · simp
    · exact State.withBlocks_wf h fun l => by split <;> simp [h]

theorem stvV_wf {t b : BitVec 5} {os : BitVec 2} {pm : BitVec 4} {off : BitVec 7} {s : State} (h : Memory.wf s.mem) : (stvV t b os pm off s).MemWf := by
  unfold stvV
  dsimp only
  split
  · simp
  · split
    · simp
    · refine State.withBlocks_wf h fun l => ?_
      split
      · simp
      · split
        · simp [h]
        · exact State.ifRoom_wf _ _ _ h (by split <;> simp [h])

theorem qbindV_wf {d : BitVec 5} {dir esz : BitVec 2} {s : State} (h : Memory.wf s.mem) : (qbindV d dir esz s).MemWf := by simp [qbindV, h]

theorem qpatV_wf {t b : BitVec 5} {os : BitVec 2} {pm : BitVec 4} {c : BitVec 5} {s : State} (h : Memory.wf s.mem) : (qpatV t b os pm c s).MemWf := by
  unfold qpatV
  dsimp only
  (repeat' split) <;> simp [h]

theorem qstopV_wf {d : BitVec 5} {s : State} (h : Memory.wf s.mem) : (qstopV d s).MemWf := by simp [qstopV, h]

theorem qmcV_wf {t b : BitVec 5} {os : BitVec 2} {pm c : BitVec 4} {s : State} (h : Memory.wf s.mem) : (qmcV t b os pm c s).MemWf := by
  unfold qmcV
  dsimp only
  (repeat' split) <;> simp [h]

theorem amoV_wf {op : BitVec 3} {t b : BitVec 5} {os : BitVec 2} {pm : BitVec 4} {c : BitVec 5} {fn : BitVec 2} {s : State} (h : Memory.wf s.mem) :
    (amoV op t b os pm c fn s).MemWf :=
  State.withA_wf h fun pa => by simp [h]

theorem asetV_wf {t b : BitVec 5} {os : BitVec 2} {pm : BitVec 4} {s : State} (h : Memory.wf s.mem) : (asetV t b os pm s).MemWf :=
  State.withA_wf h fun spa => State.withA_wf h fun rpa => by simp [h]

theorem afreeV_wf {b : BitVec 5} {os : BitVec 2} {pm : BitVec 4} {off : BitVec 7} {s : State} (h : Memory.wf s.mem) : (afreeV b os pm off s).MemWf :=
  State.withA_wf h fun pa => by simp [h]

@[simp] theorem State.issueDone_mem (s : State) (os : BitVec 2) (pm : BitVec 4) (acq : Option (Nat × Nat)) : (s.issueDone os pm acq).mem = s.mem := by
  simp [State.issueDone]

theorem awaitV_wf {t b : BitVec 5} {os : BitVec 2} {pm : BitVec 4} {off : BitVec 7} {s : State} (h : Memory.wf s.mem) : (awaitV t b os pm off s).MemWf := by
  unfold awaitV
  dsimp only
  split
  · (repeat' split) <;> simp [h]
  · refine State.withA_wf h fun pa => ?_
    split
    · simp [h]
    · split
      · simp [h]
      · split <;> simp [h]

theorem areadV_wf {t b : BitVec 5} {os : BitVec 2} {pm : BitVec 4} {off : BitVec 7} {s : State} (h : Memory.wf s.mem) : (areadV t b os pm off s).MemWf :=
  State.withA_wf h fun pa => by simp [h]

theorem acredV_wf {b : BitVec 5} {os : BitVec 2} {pm : BitVec 4} {c : BitVec 5} {s : State} (h : Memory.wf s.mem) : (acredV b os pm c s).MemWf :=
  State.withA_wf h fun pa => by simp [h]

/-- A command that reaches the spill ring does so by three stores. -/
theorem State.spillWrite_wf {s t : State} {n : CoreId} {k : Copy} {os : BitVec 2} {pm : BitVec 4} (h : Memory.wf s.mem) (ht : s.spillWrite n k os pm = .written t) :
    Memory.wf t.mem := by
  unfold State.spillWrite at ht
  dsimp only at ht
  split at ht
  · split at ht
    · simp at ht
    · split at ht
      · split at ht
        · simp at ht
        · injection ht with ht
          subst ht
          exact State.homeStore_wf _ _ _ (State.homeStore_wf _ _ _ (State.homeStore_wf _ _ _ h))
      · simp at ht
      · simp at ht
  · simp at ht
  · simp at ht

theorem copyV_wf {code : BitVec 8} {b : BitVec 5} {os : BitVec 2} {pm : BitVec 4} {off : BitVec 7} {s : State} (h : Memory.wf s.mem) :
    (copyV code b os pm off s).MemWf := by
  refine State.withA_wf h fun pa => ?_
  dsimp only
  split
  · simpa using h
  · split
    · simpa using h
    · refine State.ifRoom_wf _ _ _ h ?_
      split
      · simpa using h
      · split
        case _ t ht => simpa using State.spillWrite_wf (by simpa using h) ht
        · simpa using h
        · simpa using h

theorem chlnkV_wf {t b : BitVec 5} {os : BitVec 2} {pm : BitVec 4} {off : BitVec 7} {s : State} (h : Memory.wf s.mem) : (chlnkV t b os pm off s).MemWf :=
  State.withA_wf h fun pa => by simp [h]

theorem chkckV_wf {b : BitVec 5} {os : BitVec 2} {pm : BitVec 4} {off : BitVec 7} {s : State} (h : Memory.wf s.mem) : (chkckV b os pm off s).MemWf :=
  State.withA_wf h fun pa => by simp [h]

theorem rgresV_wf {t b : BitVec 5} {os : BitVec 2} {pm : BitVec 4} {s : State} (h : Memory.wf s.mem) : (rgresV t b os pm s).MemWf :=
  State.withA_wf h fun pa => by simp [h]

theorem rgpubV_wf {t b : BitVec 5} {os : BitVec 2} {pm : BitVec 4} {s : State} (h : Memory.wf s.mem) : (rgpubV t b os pm s).MemWf :=
  State.withA_wf h fun pa => by simp [h]

theorem rgpopV_wf {t b : BitVec 5} {os : BitVec 2} {pm : BitVec 4} {c : BitVec 5} {s : State} (h : Memory.wf s.mem) : (rgpopV t b os pm c s).MemWf :=
  State.withA_wf h fun pa => by simp [h]

theorem rgcurV_wf {t b : BitVec 5} {os : BitVec 2} {pm : BitVec 4} {c : BitVec 5} {s : State} (h : Memory.wf s.mem) : (rgcurV t b os pm c s).MemWf :=
  State.withA_wf h fun pa => by simp [h]

theorem waitaV_wf {b : BitVec 5} {os : BitVec 2} {pm : BitVec 4} {off : BitVec 7} {s : State} (h : Memory.wf s.mem) : (waitaV b os pm off s).MemWf :=
  State.withA_wf h fun pa => by simp [h]

/-! ## Perform -/

@[simp] theorem State.finishOp_mem (s : State) (n : CoreId) (id : Nat) : (s.finishOp n id).mem = s.mem := by simp [State.finishOp]

@[simp] theorem State.fill_mem (s : State) (n : CoreId) (id : Nat) (v : Line) (err : Option SeatCause) : (s.fill n id v err).mem = s.mem := by
  simp [State.fill]

@[simp] theorem State.fillDw_mem (s : State) (n : CoreId) (id : Nat) (v : Dw) : (s.fillDw n id v).mem = s.mem := by simp [State.fillDw]
@[simp] theorem State.modOp_mem (s : State) (n : CoreId) (id : Nat) (f : MemOp → MemOp) : (s.modOp n id f).mem = s.mem := by simp [State.modOp]

@[simp] theorem State.amoStore_wf (s : State) (pa : Nat) (w64 : Bool) (fn : BitVec 3) (c t : Dw) (h : Memory.wf s.mem) :
    Memory.wf (s.amoStore pa w64 fn c t).mem := by
  unfold State.amoStore
  split <;> simp [h]

@[simp] theorem State.performAmo_wf (s : State) (n : CoreId) (id pa : Nat) (w64 : Bool) (fn : BitVec 3) (c t : Dw) (h : Memory.wf s.mem) :
    Memory.wf (s.performAmo n id pa w64 fn c t).mem := by simp [State.performAmo, h]

@[simp] theorem State.noteOf_mem (s : State) (n : CoreId) (o : MemOp) (l : List (Nat × Nat)) : (s.noteOf n o l).mem = s.mem := by simp [State.noteOf]

@[simp] theorem State.performPart_wf (s : State) (n : CoreId) (o : MemOp) (blk : Nat) (h : Memory.wf s.mem) :
    Memory.wf (s.performPart n o blk).mem := by
  unfold State.performPart
  (repeat' split) <;> simp [h]

@[simp] theorem State.engineFault_mem (s : State) (n : CoreId) (owner : Nat) (tval : Dw) (cause : Nat) :
    (s.engineFault n owner tval cause).mem = s.mem := by simp [State.engineFault]

@[simp] theorem State.performRgres_wf (s : State) (n : CoreId) (o : MemOp) (hdr : Nat) (h : Memory.wf s.mem) :
    Memory.wf (s.performRgres n o hdr).mem := by
  unfold State.performRgres
  dsimp only
  (repeat' split) <;> simp [h]

@[simp] theorem State.performRgpub_wf (s : State) (n : CoreId) (o : MemOp) (hdr : Nat) (i : Dw) (h : Memory.wf s.mem) :
    Memory.wf (s.performRgpub n o hdr i).mem := by
  unfold State.performRgpub
  dsimp only
  (repeat' split) <;> simp [h]

@[simp] theorem State.performRgpop_wf (s : State) (n : CoreId) (o : MemOp) (hdr : Nat) (j : Dw) (pop : Bool) (h : Memory.wf s.mem) :
    Memory.wf (s.performRgpop n o hdr j pop).mem := by
  unfold State.performRgpop
  dsimp only
  (repeat' split) <;> simp [h]

@[simp] theorem State.performChlnk_wf (s : State) (n : CoreId) (o : MemOp) (rec_ : Nat) (ent : Dw) (h : Memory.wf s.mem) :
    Memory.wf (s.performChlnk n o rec_ ent).mem := by
  unfold State.performChlnk
  refine State.ite_wf (by simpa using h) ?_
  rw [State.finishOp_mem]
  refine State.ite_wf (by simpa using h) ?_
  refine State.homeStore_wf _ _ _ (State.ite_wf ?_ ?_)
  · exact State.homeStore_wf _ _ _ (State.homeStore_wf _ _ _ h)
  · exact State.homeStore_wf _ _ _ (State.homeStore_wf _ _ _ h)

@[simp] theorem State.performChkck_wf (s : State) (n : CoreId) (o : MemOp) (rec_ : Nat) (h : Memory.wf s.mem) :
    Memory.wf (s.performChkck n o rec_).mem := by
  unfold State.performChkck
  dsimp only
  (repeat' split) <;> simp [h]

@[simp] theorem State.takeBack_mem (s : State) (n : CoreId) (id : Nat) : (s.takeBack n id).mem = s.mem := by simp [State.takeBack]

@[simp] theorem State.refuse_mem (s : State) (n : CoreId) (id : Nat) (c : Cause) (tval : Dw) : (s.refuse n id c tval).mem = s.mem := by
  simp [State.refuse]

@[simp] theorem State.answered_mem (s : State) (n : CoreId) (id : Nat) : (s.answered n id).mem = s.mem := by simp [State.answered]

@[simp] theorem State.answerAset_mem (s : State) (n : CoreId) (o : MemOp) (rpa slot : Nat) (rva : Dw) :
    (s.answerAset n o rpa slot rva).mem = s.mem := by
  unfold State.answerAset
  dsimp only
  (repeat' split) <;> simp

@[simp] theorem State.answerAfree_wf (s : State) (n : CoreId) (o : MemOp) (slot : Nat) (h : Memory.wf s.mem) : Memory.wf (s.answerAfree n o slot).mem := by
  unfold State.answerAfree
  split
  · simpa using h
  · split
    · simpa using h
    · simpa using memWriteBytes_wf (leBytes 0 16) s.mem slot h

@[simp] theorem State.readBlock_mem (s : State) (n : CoreId) (o : MemOp) (blocks : List Nat) (i : Nat) : (s.readBlock n o blocks i).mem = s.mem := by
  simp [State.readBlock]

@[simp] theorem State.performOp_wf (s : State) (n : CoreId) (o : MemOp) (h : Memory.wf s.mem) : Memory.wf (s.performOp n o).mem := by
  unfold State.performOp
  (repeat' split) <;> simp [h]

@[simp] theorem State.performAway_wf (s : State) (n : CoreId) (o : MemOp) (h : Memory.wf s.mem) : Memory.wf (s.performAway n o).mem := by
  simp [State.performAway, h]

@[simp] theorem State.deliver_mem (s : State) (n : CoreId) (o : MemOp) (r : Reply) : (s.deliver n o r).mem = s.mem := by
  unfold State.deliver
  (repeat' split) <;> simp

/-! ## Pattern -/

@[simp] theorem State.modPort_mem (s : State) (n : CoreId) (g : Port) (f : Pattern → Pattern) : (s.modPort n g f).mem = s.mem := by
  simp [State.modPort]

@[simp] theorem State.modFed_mem (s : State) (n m : CoreId) (g : Port) (p : Pattern) (f : Ctx → Ctx) : (s.modFed n m g p f).mem = s.mem := by
  unfold State.modFed
  split <;> simp

@[simp] theorem State.endPort_mem (s : State) (n : CoreId) (g : Port) (p : Pattern) : (s.endPort n g p).mem = s.mem := by simp [State.endPort]

@[simp] theorem State.feedEntry_mem (s : State) (n : CoreId) (g : Port) (p : Pattern) (v : Line) (poison : Option Dw) :
    (s.feedEntry n g p v poison).mem = s.mem := by simp [State.feedEntry]

@[simp] theorem State.portFault_mem (s : State) (n : CoreId) (g : Port) (p : Pattern) (kind cause : Nat) :
    (s.portFault n g p kind cause).mem = s.mem := by simp [State.portFault]

theorem State.openTargets_mem {s t : State} {n : CoreId} {p : Pattern} (h : s.openTargets n p = some t) : t.mem = s.mem := by
  unfold State.openTargets at h
  dsimp only at h
  split at h
  · injection h with h
    exact h ▸ State.foldl_mem _ _ _ fun _ _ => rfl
  · simp at h

theorem State.afterFetch_mem {s : State} {n : CoreId} {g : Port} {p : Pattern} {k : State → State} (hk : ∀ u, (k u).mem = u.mem) :
    (s.afterFetch n g p k).mem = s.mem := by
  unfold State.afterFetch
  split
  · exact hk s
  · split
    case _ t ht => rw [hk, State.openTargets_mem ht]
    · simp

@[simp] theorem State.fetchShape_mem (s : State) (n : CoreId) (g : Port) (p : Pattern) : (s.fetchShape n g p).mem = s.mem := by
  unfold State.fetchShape
  dsimp only
  split
  · simp
  · split
    · simp
    · simp
    · exact State.afterFetch_mem fun u => by simp
    · split
      · exact State.afterFetch_mem fun u => by simp
      · split <;> exact (State.afterFetch_mem fun u => by simp).trans (by simp)

@[simp] theorem State.readOn_mem (s : State) (n : CoreId) (g : Port) (p : Pattern) (o : MemOp) (r : BitVec 512) (i : Nat) :
    (s.readOn n g p o r i).mem = s.mem := by
  unfold State.readOn
  dsimp only
  (repeat' split) <;> simp

@[simp] theorem State.readEntry_mem (s : State) (n : CoreId) (g : Port) (p : Pattern) (o : MemOp) (r : BitVec 512) :
    (s.readEntry n g p o r).mem = s.mem := by
  unfold State.readEntry
  dsimp only
  (repeat' split) <;> simp

@[simp] theorem State.loadEntry_mem (s : State) (n : CoreId) (g : Port) (p : Pattern) : (s.loadEntry n g p).mem = s.mem := by
  unfold State.loadEntry
  (repeat' split) <;> simp

@[simp] theorem State.storeEntry_mem (s : State) (n : CoreId) (g : Port) (p : Pattern) : (s.storeEntry n g p).mem = s.mem := by
  unfold State.storeEntry
  dsimp only
  (repeat' split) <;> simp

@[simp] theorem State.portStep_mem (s : State) (n : CoreId) (g : Port) (p : Pattern) (o : MemOp) : (s.portStep n g p o).mem = s.mem := by
  unfold State.portStep
  split <;> simp

@[simp] theorem State.patternWrite_wf (s : State) (n : CoreId) (g : Fin 4) (k : Nat) (h : Memory.wf s.mem) :
    Memory.wf (s.patternWrite n g k).mem := by
  unfold State.patternWrite
  dsimp only
  (repeat' split) <;> simp [h]

/-! ## Copy -/

@[simp] theorem State.modCopy_mem (s : State) (n : CoreId) (id : Nat) (f : Copy → Copy) : (s.modCopy n id f).mem = s.mem := by simp [State.modCopy]
@[simp] theorem State.dropCopy_mem (s : State) (n : CoreId) (id : Nat) : (s.dropCopy n id).mem = s.mem := by simp [State.dropCopy]

@[simp] theorem State.finishAnywhere_mem (s : State) (id : Nat) : (s.finishAnywhere id).mem = s.mem := by
  unfold State.finishAnywhere
  split <;> simp

@[simp] theorem State.copyFault_mem (s : State) (n : CoreId) (id cause : Nat) : (s.copyFault n id cause).mem = s.mem := by simp [State.copyFault]

@[simp] theorem State.modLoad_mem (s : State) (n : CoreId) (id i : Nat) (f : ChunkLoad → ChunkLoad) : (s.modLoad n id i f).mem = s.mem := by
  simp [State.modLoad]

@[simp] theorem State.loadFault_mem (s : State) (n : CoreId) (id i cause : Nat) : (s.loadFault n id i cause).mem = s.mem := by simp [State.loadFault]

theorem State.trCopy_mem {s : State} {n : CoreId} {k : Copy} {need : Need} {mis : Bool} {va : Dw} {size : Nat} {f : Nat → State}
    (hf : ∀ pa, (f pa).mem = s.mem) : (s.trCopy n k need mis va size f).mem = s.mem := by
  unfold State.trCopy
  split <;> simp [hf]

theorem State.trCopy_wf {s : State} {n : CoreId} {k : Copy} {need : Need} {mis : Bool} {va : Dw} {size : Nat} {f : Nat → State}
    (h : Memory.wf s.mem) (hf : ∀ pa, Memory.wf (f pa).mem) : Memory.wf (s.trCopy n k need mis va size f).mem := by
  unfold State.trCopy
  split <;> simp [h, hf]

theorem State.trCopyAll_mem {s : State} {n : CoreId} {k : Copy} {i : Nat} {need : Need} {runs l : List (Dw × Nat)} {f : List (Nat × Nat) → State}
    (hf : ∀ pas, (f pas).mem = s.mem) : (s.trCopyAll n k i need runs l f).mem = s.mem := by
  unfold State.trCopyAll
  split
  · simp
  · split <;> simp [hf]

@[simp] theorem State.putSt_wf (s : State) (pa st : Nat) (h : Memory.wf s.mem) : Memory.wf (s.putSt pa st).mem := by simp [State.putSt, h]

@[simp] theorem State.markRunning_wf (s : State) (n : CoreId) (id pa : Nat) (h : Memory.wf s.mem) : Memory.wf (s.markRunning n id pa).mem := by
  unfold State.markRunning
  split <;> simp [h]

@[simp] theorem State.copyFetch_mem (s : State) (n : CoreId) (k : Copy) : (s.copyFetch n k).mem = s.mem :=
  State.trCopy_mem fun pa => by dsimp only; (repeat' split) <;> simp

@[simp] theorem State.resumePoisoned_mem (s : State) (n : CoreId) (k : Copy) (pa : Nat) : (s.resumePoisoned n k pa).mem = s.mem := by
  unfold State.resumePoisoned
  split <;> simp

@[simp] theorem State.copyResume_wf (s : State) (n : CoreId) (k : Copy) (h : Memory.wf s.mem) : Memory.wf (s.copyResume n k).mem := by
  refine State.trCopy_wf h fun pa => ?_
  have hn : ((k.op.toList.foldl (fun (s : State) id => s.finishAnywhere id) s).dropCopy n k.id).mem = s.mem := by
    rw [State.dropCopy_mem]
    exact State.foldl_mem _ _ _ fun s id => State.finishAnywhere_mem s id
  dsimp only
  split
  · simpa using h
  · split
    · exact hn ▸ h
    · split
      · exact hn ▸ h
      · split <;> simp [h]

@[simp] theorem State.copyWait_mem (s : State) (n : CoreId) (k : Copy) : (s.copyWait n k).mem = s.mem := by
  unfold State.copyWait
  split <;> simp

@[simp] theorem State.copyPoll_mem (s : State) (n : CoreId) (k : Copy) : (s.copyPoll n k).mem = s.mem := by
  unfold State.copyPoll
  split <;> simp

@[simp] theorem State.copyCheck_wf (s : State) (n : CoreId) (k : Copy) (h : Memory.wf s.mem) : Memory.wf (s.copyCheck n k).mem := by
  unfold State.copyCheck
  dsimp only
  split
  · split
    · (repeat' split) <;> simp [h]
    · refine State.trCopy_wf h fun cpa => ?_
      (repeat' split) <;> simp [h]
  · refine State.trCopy_wf h fun wpa => ?_
    split
    · (repeat' split) <;> simp [h]
    · refine State.trCopy_wf h fun cpa => ?_
      (repeat' split) <;> simp [h]

@[simp] theorem State.copyResumed_mem (s : State) (n : CoreId) (k : Copy) : (s.copyResumed n k).mem = s.mem := State.trCopy_mem fun pa => by simp

@[simp] theorem State.copyPlaces_mem (s : State) (n : CoreId) (k : Copy) (i : Nat) (x : ChunkLoad) : (s.copyPlaces n k i x).mem = s.mem :=
  State.trCopyAll_mem fun spas => State.trCopyAll_mem fun dpas => by split <;> simp

@[simp] theorem State.copyChunk_mem (s : State) (n : CoreId) (k : Copy) (i : Nat) (x : ChunkLoad) : (s.copyChunk n k i x).mem = s.mem := by
  simp [State.copyChunk]

@[simp] theorem State.copyLoad_mem (s : State) (n : CoreId) (k : Copy) (i : Nat) (x : ChunkLoad) : (s.copyLoad n k i x).mem = s.mem := by
  unfold State.copyLoad
  dsimp only
  split
  · split <;> simp
  · split
    · simp
    · split
      · exact State.trCopyAll_mem fun pas => by simp
      · (repeat' split) <;> simp

@[simp] theorem State.copyMove_mem (s : State) (n : CoreId) (k : Copy) : (s.copyMove n k).mem = s.mem := by
  unfold State.copyMove
  dsimp only
  (repeat' split) <;> simp

@[simp] theorem State.copyWrite_wf (s : State) (n : CoreId) (id w : Nat) (h : Memory.wf s.mem) : Memory.wf (s.copyWrite n id w).mem := by
  unfold State.copyWrite
  dsimp only
  (repeat' split) <;> simp [h]

@[simp] theorem State.copyCancel_mem (s : State) (n : CoreId) (k : Copy) : (s.copyCancel n k).mem = s.mem :=
  (State.foldl_mem _ _ _ fun s id => State.finishAnywhere_mem s id).trans (by simp)

@[simp] theorem State.copyStep_wf (s : State) (n : CoreId) (k : Copy) (h : Memory.wf s.mem) : Memory.wf (s.copyStep n k).mem := by
  unfold State.copyStep
  (repeat' split) <;> simp [h]

@[simp] theorem State.suspendCopy_wf (s : State) (n : CoreId) (k : Copy) (h : Memory.wf s.mem) : Memory.wf (s.suspendCopy n k).mem := by
  unfold State.suspendCopy
  dsimp only
  (repeat' split) <;> simp [h]

@[simp] theorem State.resumePreempted_mem (s : State) (n : CoreId) (serial : Nat) : (s.resumePreempted n serial).mem = s.mem := by
  simp [State.resumePreempted]

@[simp] theorem State.completeCopy_wf (s : State) (n : CoreId) (k : Copy) (h : Memory.wf s.mem) : Memory.wf (s.completeCopy n k).mem := by
  unfold State.completeCopy
  split
  · simpa using h
  · refine State.foldl_wf _ _ ?_ fun s id hs => by simpa using hs
    have hw := State.homeStore_wf _ (k.recPa + 57) [BitVec.ofNat 8 k.zcnt]
      (State.putSt_wf _ k.recPa 3 (State.homeStore_wf s (k.recPa + 48) (leBytes (k.done % 2 ^ 32) 4) h))
    rw [State.count_mem, State.dropCopy_mem]
    split
    · rw [State.credit_mem]; exact hw
    · exact hw

@[simp] theorem State.latchTake_mem (s : State) (n : CoreId) : (s.latchTake n).mem = s.mem := by
  unfold State.latchTake
  dsimp only
  split <;> simp

@[simp] theorem State.spillTake_wf (s : State) (n : CoreId) (h : Memory.wf s.mem) : Memory.wf (s.spillTake n).mem := by
  unfold State.spillTake
  dsimp only
  (repeat' split) <;> simp [h]

@[simp] theorem State.spillFaultStep_wf (s : State) (n : CoreId) (h : Memory.wf s.mem) : Memory.wf (s.spillFaultStep n).mem := by
  unfold State.spillFaultStep
  dsimp only
  split
  · exact h
  · split
    case _ t ht => simpa using State.spillWrite_wf h ht
    · simpa using h
    · simpa using h

/-- A chain goes on by stores of its own, and by what `put` does to its entry. -/
theorem State.chainLink_wf {s : State} {n : CoreId} {c : Chain} {put : State → (Chain → Option Chain) → State} (h : Memory.wf s.mem)
    (hp : ∀ u f, Memory.wf u.mem → Memory.wf (put u f).mem) : Memory.wf (s.chainLink n c put).mem := by
  unfold State.chainLink
  split
  · exact hp _ _ (by simpa using h)
  · split
    · dsimp only
      split
      · exact hp _ _ (State.homeStore_wf _ _ _ h)
      · split
        · exact hp _ _ (State.homeStore_wf _ _ _ (State.homeStore_wf _ _ _ (State.homeStore_wf _ _ _ h)))
        · exact h
    · simpa using h
    · split
      · exact h
      · exact hp _ _ (by simpa using h)
    · exact h

@[simp] theorem State.chainStep_wf (s : State) (n : CoreId) (c : Chain) (h : Memory.wf s.mem) : Memory.wf (s.chainStep n c).mem := by
  unfold State.chainStep
  dsimp only
  split
  · exact h
  · split
    · split
      · simpa using h
      · split
        · exact State.chainLink_wf h fun u f hu => by simpa using hu
        · split <;> simpa using h
    · split
      · exact h
      · split <;> simp [h]

@[simp] theorem State.pollSlot_mem (s : State) (w : Waiter) : (s.pollSlot w).mem = s.mem := by
  unfold State.pollSlot
  (repeat' split) <;> simp

/-! ## MemEvents -/

@[simp] theorem State.answerCrd_mem (s : State) (n : CoreId) (k : CrdAsk) : (s.answerCrd n k).mem = s.mem := by simp [State.answerCrd]

@[simp] theorem State.stepOp_wf (s : State) (n : CoreId) (id : Nat) (h : Memory.wf s.mem) : Memory.wf (s.stepOp n id).mem := by
  unfold State.stepOp
  dsimp only
  (repeat' split) <;> simp [h]

@[simp] theorem State.copyWriteOr_wf (s : State) (n : CoreId) (id k : Nat) (h : Memory.wf s.mem) : Memory.wf (s.copyWriteOr n id k).mem := by
  unfold State.copyWriteOr
  dsimp only
  (repeat' split) <;> simp [h]

@[simp] theorem State.patternWriteOr_wf (s : State) (n : CoreId) (g : Fin 4) (k : Nat) (h : Memory.wf s.mem) :
    Memory.wf (s.patternWriteOr n g k).mem := by
  unfold State.patternWriteOr
  dsimp only
  (repeat' split) <;> simp [h]

@[simp] theorem State.writeHome_wf (s : State) (w : WriteSrc) (h : Memory.wf s.mem) : Memory.wf (s.writeHome w).mem := by
  unfold State.writeHome
  dsimp only
  (repeat' split) <;> simp [h]

@[simp] theorem State.homeAnswer_wf (s : State) (n : CoreId) (h : Memory.wf s.mem) : Memory.wf (s.homeAnswer n).mem := by
  unfold State.homeAnswer
  (repeat' split) <;> simp [h]

@[simp] theorem State.landQueue_mem (s : State) (n : CoreId) (q : BitVec 3) (k : Nat) : (s.landQueue n q k).mem = s.mem := by
  unfold State.landQueue
  dsimp only
  (repeat' split) <;> simp

@[simp] theorem execWaitaWake_wf (n : CoreId) (s : State) (h : Memory.wf s.mem) : OutcomeWf (execWaitaWake n s) := by
  unfold execWaitaWake
  split <;> simp [h]

@[simp] theorem State.startWalk_mem (s : State) (d : DieId) : (s.startWalk d).mem = s.mem := by
  unfold State.startWalk
  dsimp only
  (repeat' split) <;> simp

@[simp] theorem State.answerWalk_mem (s : State) (w : Walk) (a : WalkAns) : (s.answerWalk w a).mem = s.mem := State.foldl_mem _ _ _ fun _ _ => rfl

@[simp] theorem State.walkBreaks_mem (s : State) (w : Walk) : (s.walkBreaks w).mem = s.mem :=
  State.foldl_mem _ _ _ fun s x => by split <;> simp

@[simp] theorem execPageWalkComplete_wf (d : DieId) (k : Nat) (s : State) (h : Memory.wf s.mem) : OutcomeWf (execPageWalkComplete d k s) := by
  unfold execPageWalkComplete
  dsimp only
  (repeat' split) <;> simp [h]

@[simp] theorem execCopySuspend_wf (n : CoreId) (id : Nat) (s : State) (h : Memory.wf s.mem) : OutcomeWf (execCopySuspend n id s) := by
  unfold execCopySuspend
  (repeat' split) <;> simp [h]

@[simp] theorem execCopyComplete_wf (n : CoreId) (id : Nat) (s : State) (h : Memory.wf s.mem) : OutcomeWf (execCopyComplete n id s) := by
  unfold execCopyComplete
  (repeat' split) <;> simp [h]

@[simp] theorem execSpillFault_wf (n : CoreId) (s : State) (h : Memory.wf s.mem) : OutcomeWf (execSpillFault n s) := by
  unfold execSpillFault
  split <;> simp [h]

@[simp] theorem execChainAdvance_wf (n : CoreId) (s : State) (h : Memory.wf s.mem) : OutcomeWf (execChainAdvance n s) := by
  unfold execChainAdvance
  split <;> simp [h]

@[simp] theorem State.spawnPush_mem (s : State) (n : CoreId) : (s.spawnPush n).mem = s.mem := by
  unfold State.spawnPush
  dsimp only
  (repeat' split) <;> simp

@[simp] theorem State.clearCore_mem (s : State) (n : CoreId) : (s.clearCore n).mem = s.mem := by simp [State.clearCore]
@[simp] theorem State.goOn_mem (s : State) (n : CoreId) (pa : Nat) : (s.goOn n pa).mem = s.mem := by simp [State.goOn]

@[simp] theorem State.parkRegister_mem (s : State) (n : CoreId) : (s.parkRegister n).mem = s.mem := by
  unfold State.parkRegister
  dsimp only
  (repeat' split) <;> simp

@[simp] theorem State.mirrorAck_mem (s : State) (d : DieId) (sid : Nat) : (s.mirrorAck d sid).mem = s.mem := by
  unfold State.mirrorAck
  split <;> simp

@[simp] theorem State.mirrored_mem (s : State) (d : DieId) (sid : Nat) (q : Word) : (s.mirrored d sid q).mem = s.mem := by simp [State.mirrored]

@[simp] theorem State.mirrorWrite_mem (s : State) (d : DieId) (sid : Nat) (q : Word) : (s.mirrorWrite d sid q).mem = s.mem := by
  simp [State.mirrorWrite]

/-! ## Front -/

@[simp] theorem State.modRing_mem (s : State) (d : DieId) (r : Fin 64) (f : Ring → Ring) : (s.modRing d r f).mem = s.mem := by simp [State.modRing]
@[simp] theorem State.ringCause_mem (s : State) (d : DieId) (r : Fin 64) (c : Nat) : (s.ringCause d r c).mem = s.mem := by simp [State.ringCause]

@[simp] theorem State.writeCrec_wf (s : State) (d : DieId) (c : Cmd) (r : Crec) (h : Memory.wf s.mem) : Memory.wf (s.writeCrec d c r).mem := by
  unfold State.writeCrec
  (repeat' split) <;> simp [h]

@[simp] theorem State.signal_wf (s : State) (d : DieId) (c : Cmd) (h : Memory.wf s.mem) : Memory.wf (s.signal d c).mem := by
  unfold State.signal
  (repeat' split) <;> simp [h]

@[simp] theorem State.complete_wf (s : State) (d : DieId) (c : Cmd) (r : Crec) (h : Memory.wf s.mem) : Memory.wf (s.complete d c r).mem := by
  simp [State.complete, h]

@[simp] theorem State.ringFail_mem (s : State) (d : DieId) (r : Fin 64) (cause : Nat) : (s.ringFail d r cause).mem = s.mem := by simp [State.ringFail]
@[simp] theorem State.ringBreaks_mem (s : State) (d : DieId) (part : Fin 32) : (s.ringBreaks d part).mem = s.mem := by simp [State.ringBreaks]

@[simp] theorem State.ringAdvance_wf (s : State) (d : DieId) (c : Cmd) (h : Memory.wf s.mem) : Memory.wf (s.ringAdvance d c).mem := by
  unfold State.ringAdvance
  dsimp only
  (repeat' split) <;> simp [h]

@[simp] theorem State.cmdDone_wf (s : State) (d : DieId) (c : Cmd) (h : Memory.wf s.mem) : Memory.wf (s.cmdDone d c).mem := by
  unfold State.cmdDone
  split <;> simp [h]

@[simp] theorem State.answer_wf (s : State) (d : DieId) (c : Cmd) (status : Nat) (jid : Word) (graph : Nat) (h : Memory.wf s.mem) :
    Memory.wf (s.answer d c status jid graph).mem := by
  unfold State.answer
  split <;> simp [h]

theorem State.carry_wf {s t : State} {d : DieId} {c : Cmd} {mine breaks : Bool} (h : Memory.wf s.mem) (ht : Memory.wf t.mem) :
    Memory.wf (s.carry d c mine breaks t).mem := by
  unfold State.carry
  (repeat' split) <;> simp [h, ht]

@[simp] theorem State.startPhase_mem (s : State) (d : DieId) (r : Release) : (s.startPhase d r).mem = s.mem := by
  unfold State.startPhase
  split <;> simp

@[simp] theorem State.coxSettle_mem (s : State) (d : DieId) (e : Nat) : (s.coxSettle d e).mem = s.mem := by simp [State.coxSettle]

@[simp] theorem State.streamSettle_mem (s : State) (d : DieId) (key : Option Nat) : (s.streamSettle d key).mem = s.mem := by
  unfold State.streamSettle
  split <;> simp

@[simp] theorem State.jobDone_mem (s : State) (d : DieId) (p : Fin 32) (j : Word) : (s.jobDone d p j).mem = s.mem := by simp [State.jobDone]

@[simp] theorem State.releaseQueued_wf (s : State) (d : DieId) (g fuel : Nat) (h : Memory.wf s.mem) : Memory.wf (s.releaseQueued d g fuel).mem := by
  induction fuel generalizing s with
  | zero => exact h
  | succ fuel ih =>
    unfold State.releaseQueued
    dsimp only
    split
    · exact h
    · split
      · split
        · simpa using h
        · exact ih _ (by simp [h])
      · simp [h]

@[simp] theorem State.phaseEnd_wf (s : State) (d : DieId) (phid : Dw) (h : Memory.wf s.mem) : Memory.wf (s.phaseEnd d phid).mem := by
  unfold State.phaseEnd
  dsimp only
  (repeat' split) <;> simp [h]

@[simp] theorem State.entryFree_mem (s : State) (d : DieId) : (s.entryFree d).mem = s.mem := by
  unfold State.entryFree
  dsimp only
  (repeat' split) <;> simp

@[simp] theorem State.retire_mem (s : State) (n : CoreId) (k : Nat) : (s.retire n k).mem = s.mem := by
  unfold State.retire
  dsimp only
  split <;> simp

/-! ## CoxUnit -/

@[simp] theorem State.coxStore_mem (s : State) (d : DieId) (l : List Cox) : (s.coxStore d l).mem = s.mem := by simp [State.coxStore]
@[simp] theorem State.coxRecompute_mem (s : State) (d : DieId) (p : Fin 32) : (s.coxRecompute d p).mem = s.mem := by simp [State.coxRecompute]
@[simp] theorem State.coxRecomputeAll_mem (s : State) (d : DieId) : (s.coxRecomputeAll d).mem = s.mem := by simp [State.coxRecomputeAll]

theorem State.coxAdmit_mem {s t : State} {d : DieId} {k : Cox} (h : s.coxAdmit d k = some t) : t.mem = s.mem := by
  unfold State.coxAdmit at h
  dsimp only at h
  split at h
  · simp at h
  · injection h with h
    simp [← h]

@[simp] theorem State.coxRegister_mem (s : State) (d : DieId) (e pa : Nat) : (s.coxRegister d e pa).mem = s.mem := by
  unfold State.coxRegister
  split <;> simp

@[simp] theorem State.streamTry_mem (s : State) (d : DieId) (c : Cmd) : (s.streamTry d c).2.mem = s.mem := by
  unfold State.streamTry
  dsimp only
  split
  · rfl
  · split
    · rfl
    · split
      · split
        · rfl
        · split
          · rfl
          · split
            · rfl
            case _ t ht =>
              have hm := State.coxAdmit_mem ht
              split <;> split <;> simp [hm]
      · rfl

@[simp] theorem State.streamCmd_wf (s : State) (d : DieId) (c : Cmd) (h : Memory.wf s.mem) : Memory.wf (s.streamCmd d c).mem :=
  State.carry_wf h (by dsimp only; (repeat' split) <;> simp [h])

@[simp] theorem State.sessionRelease_mem (s : State) (d : DieId) (k : Cox) (ndl : Nat) : (s.sessionRelease d k ndl).mem = s.mem := by
  unfold State.sessionRelease
  split <;> simp

@[simp] theorem State.coxStart_mem (s : State) (d : DieId) (k : Cox) (rel : Nat) (acq : List (Nat × Nat)) : (s.coxStart d k rel acq).mem = s.mem := by
  simp [State.coxStart]

@[simp] theorem State.coxRelease_wf (s : State) (d : DieId) (e : Nat) (h : Memory.wf s.mem) : Memory.wf (s.coxRelease d e).mem := by
  unfold State.coxRelease
  dsimp only
  (repeat' split) <;> simp [h]

@[simp] theorem State.phaseSkip_wf (s : State) (d : DieId) (e : Nat) (h : Memory.wf s.mem) : Memory.wf (s.phaseSkip d e).mem := by
  unfold State.phaseSkip
  dsimp only
  (repeat' split) <;> simp [h]

@[simp] theorem State.coxPoll_mem (s : State) (d : DieId) (e : Nat) : (s.coxPoll d e).mem = s.mem := by
  unfold State.coxPoll
  (repeat' split) <;> simp

@[simp] theorem execSlotPoll_wf (w : Waiter) (s : State) (h : Memory.wf s.mem) : OutcomeWf (execSlotPoll w s) := by
  unfold execSlotPoll
  (repeat' split) <;> simp [h]

@[simp] theorem State.peerCopy_mem (s : State) (d : DieId) (p : PeerStream) : (s.peerCopy d p).mem = s.mem := by simp [State.peerCopy]

/-! ## Commands -/

@[simp] theorem State.ringTake_wf (s : State) (d : DieId) (r : Fin 64) (h : Memory.wf s.mem) : Memory.wf (s.ringTake d r).mem := by
  unfold State.ringTake
  dsimp only
  (repeat' split) <;> simp [h]

@[simp] theorem State.ringEnable_mem (s : State) (d : DieId) (r : Fin 64) (v : Dw) : (s.ringEnable d r v).mem = s.mem := by
  unfold State.ringEnable
  dsimp only
  (repeat' split) <;> simp

@[simp] theorem State.ringDisable_mem (s : State) (d : DieId) (r : Fin 64) (v : Dw) : (s.ringDisable d r v).mem = s.mem := by simp [State.ringDisable]

@[simp] theorem State.phaseCmd_wf (s : State) (d : DieId) (c : Cmd) (h : Memory.wf s.mem) : Memory.wf (s.phaseCmd d c).mem := by
  unfold State.phaseCmd
  dsimp only
  (repeat' split) <;> simp [h]

@[simp] theorem State.cancelCmd_wf (s : State) (d : DieId) (c : Cmd) (h : Memory.wf s.mem) : Memory.wf (s.cancelCmd d c).mem :=
  State.carry_wf h (State.ite_wf (by simp [h]) (by simp [h]))

@[simp] theorem State.jobOpenCmd_wf (s : State) (d : DieId) (c : Cmd) (h : Memory.wf s.mem) : Memory.wf (s.jobOpenCmd d c).mem :=
  State.carry_wf h (by dsimp only; (repeat' split) <;> simp [h])

@[simp] theorem State.jobCloseCmd_wf (s : State) (d : DieId) (c : Cmd) (h : Memory.wf s.mem) : Memory.wf (s.jobCloseCmd d c).mem :=
  State.carry_wf h (State.ite_wf (by simp [h]) (by simp [h]))

@[simp] theorem State.gloadCmd_wf (s : State) (d : DieId) (c : Cmd) (h : Memory.wf s.mem) : Memory.wf (s.gloadCmd d c).mem :=
  State.carry_wf h (by dsimp only; (repeat' split) <;> simp [h])

@[simp] theorem State.gfreeCmd_wf (s : State) (d : DieId) (c : Cmd) (h : Memory.wf s.mem) : Memory.wf (s.gfreeCmd d c).mem :=
  State.carry_wf h (State.ite_wf (by simp [h]) (by simp [h]))

@[simp] theorem State.kloadCmd_wf (s : State) (d : DieId) (c : Cmd) (h : Memory.wf s.mem) : Memory.wf (s.kloadCmd d c).mem :=
  State.carry_wf h (by (repeat' split) <;> simp [h])

@[simp] theorem State.kfreeCmd_wf (s : State) (d : DieId) (c : Cmd) (h : Memory.wf s.mem) : Memory.wf (s.kfreeCmd d c).mem :=
  State.carry_wf h (State.ite_wf (by simp [h]) (by simp [h]))

@[simp] theorem State.badCmd_wf (s : State) (d : DieId) (c : Cmd) (h : Memory.wf s.mem) : Memory.wf (s.badCmd d c).mem :=
  State.carry_wf h (by simp [h])

/-! ## Common -/

@[simp] theorem State.modSeatOf_mem (s : State) (k : SeatId) (f : Seat → Seat) : (s.modSeatOf k f).mem = s.mem := by simp [State.modSeatOf]

theorem mloopV_wf {st : Bool} {k : SeatId} {l : BitVec 3} {n : BitVec 6} {stg ms : BitVec 3} {s : State} (h : Memory.wf s.mem) :
    (mloopV st k l n stg ms s).MemWf := by
  unfold mloopV
  dsimp only
  (repeat' split) <;> simp [h]

theorem tpostV_wf {t : BitVec 4} {n : BitVec 8} {s : State} (h : Memory.wf s.mem) : (tpostV t n s).MemWf := by simp [tpostV, h]
theorem twaitV_wf {t : BitVec 4} {n : BitVec 8} {s : State} (h : Memory.wf s.mem) : (twaitV t n s).MemWf := by simp [twaitV, h]
theorem brkV_wf {c : BitVec 8} {s : State} (h : Memory.wf s.mem) : (brkV c s).MemWf := by simp [brkV, h]

theorem bndyV_wf {st : Bool} {k : SeatId} {s : State} (h : Memory.wf s.mem) : (bndyV st k s).MemWf := by
  unfold bndyV
  dsimp only
  split <;> simp [h]

/-! ## Vec -/

theorem State.withQueuesOr_wf {s : State} {srcs : List VOp} {dst : Option VOp} {own : Option Cause} {k : Verdict} (h : Memory.wf s.mem) (hk : k.MemWf) :
    (s.withQueuesOr srcs dst own k).MemWf := by
  unfold State.withQueuesOr
  dsimp only
  (repeat' split) <;> simp [h, hk]

theorem State.withQueues_wf {s : State} {srcs : List VOp} {dst : Option VOp} {k : Verdict} (h : Memory.wf s.mem) (hk : k.MemWf) :
    (s.withQueues srcs dst k).MemWf := State.withQueuesOr_wf h hk

@[simp] theorem State.takeHeads_mem (s : State) (codes : List (BitVec 6)) : (s.takeHeads codes).mem = s.mem := State.foldl_mem _ _ _ fun _ _ => rfl

@[simp] theorem State.sendV_mem (s : State) (d : BitVec 6) (v : Line) (en : BitVec 1024) (lat : Nat) : (s.sendV d v en lat).mem = s.mem := by
  simp [State.sendV]

@[simp] theorem State.sendP_mem (s : State) (d : BitVec 6) (p : Pred) (lat : Nat) : (s.sendP d p lat).mem = s.mem := by simp [State.sendP]

theorem vecV_wf {ty : BitVec 2} {d : BitVec 6} {srcs : List (BitVec 6)} {p : BitVec 3} {lat : Nat} {val : Line} {s : State} (h : Memory.wf s.mem) :
    (vecV ty d srcs p lat val s).MemWf := State.withQueues_wf h (by simpa using h)

theorem vec1V_wf {ty : BitVec 2} {d a : BitVec 6} {p : BitVec 3} {lat : Nat} {f : Nat → Nat} {s : State} (h : Memory.wf s.mem) :
    (vec1V ty d a p lat f s).MemWf := vecV_wf h

theorem vec2V_wf {ty : BitVec 2} {d a b : BitVec 6} {p : BitVec 3} {lat : Nat} {f : Nat → Nat → Nat} {s : State} (h : Memory.wf s.mem) :
    (vec2V ty d a b p lat f s).MemWf := vecV_wf h

theorem vecAccV_wf {ty : BitVec 2} {d a b : BitVec 6} {p : BitVec 3} {f : Nat → Nat → Nat → Nat} {s : State} (h : Memory.wf s.mem) :
    (vecAccV ty d a b p f s).MemWf := vecV_wf h

theorem cmpV_wf {ty : BitVec 2} {d a b : BitVec 6} {p : BitVec 3} {r : Nat → Nat → Bool} {s : State} (h : Memory.wf s.mem) : (cmpV ty d a b p r s).MemWf :=
  State.withQueues_wf h (by simpa using h)

theorem vselV_wf {d a b : BitVec 6} {p : BitVec 3} {ty : BitVec 2} {s : State} (h : Memory.wf s.mem) : (vselV d a b p ty s).MemWf :=
  State.withQueues_wf h (by simpa using h)

theorem vscacV_wf {d a b : BitVec 6} {p : BitVec 3} {s : State} (h : Memory.wf s.mem) : (vscacV d a b p s).MemWf := State.withQueues_wf h (by simpa using h)
theorem predV_wf {d : BitVec 6} {p : Pred} {s : State} (h : Memory.wf s.mem) : (predV d p s).MemWf := by simp [predV, h]
theorem pcntV_wf {d a : BitVec 6} {s : State} (h : Memory.wf s.mem) : (pcntV d a s).MemWf := by simp [pcntV, h]

theorem vcvtV_wf {d a b : BitVec 6} {p : BitVec 3} {ty : BitVec 2} {s : State} (h : Memory.wf s.mem) : (vcvtV d a b p ty s).MemWf :=
  State.withQueues_wf h (by simpa using h)

theorem vqntV_wf {d a : BitVec 6} {p : BitVec 3} {s : State} (h : Memory.wf s.mem) : (vqntV d a p s).MemWf := State.withQueues_wf h (by simpa using h)

theorem vdqV_wf {d a : BitVec 6} {p : BitVec 3} {ty : BitVec 2} {s : State} (h : Memory.wf s.mem) : (vdqV d a p ty s).MemWf :=
  State.withQueues_wf h (by simpa using h)

theorem reduceV_wf {ty : BitVec 2} {d a : BitVec 6} {lat : Nat} {val : Line} {s : State} (h : Memory.wf s.mem) : (reduceV ty d a lat val s).MemWf :=
  State.withQueues_wf h (by simpa using h)

theorem permV_wf {d a b : BitVec 6} {p : BitVec 3} {ty : BitVec 2} {s : State} (h : Memory.wf s.mem) : (permV ty d a b p s).MemWf := vecV_wf h
theorem bcastV_wf {d a b : BitVec 6} {p : BitVec 3} {ty : BitVec 2} {s : State} (h : Memory.wf s.mem) : (bcastV ty d a b p s).MemWf := vecV_wf h

theorem weaveV_wf {ty : BitVec 2} {d a b : BitVec 6} {p : BitVec 3} {f : Nat → Nat → Bool × Nat} {s : State} (h : Memory.wf s.mem) :
    (weaveV ty d a b p f s).MemWf := vecV_wf h

theorem viV_wf {w lat : Nat} {d : BitVec 6} {f : Nat → Nat} {s : State} (h : Memory.wf s.mem) : (viV w lat d f s).MemWf := by simp [viV, h]
theorem xliV_wf {d a b : BitVec 4} {imm : BitVec 11} {s : State} (h : Memory.wf s.mem) : (xliV d a b imm s).MemWf := by simp [xliV, h]
theorem xgetV_wf {d b : BitVec 4} {vr : BitVec 5} {s : State} (h : Memory.wf s.mem) : (xgetV d b vr s).MemWf := by simp [xgetV, h]
theorem xputV_wf {a b : BitVec 4} {vr : BitVec 5} {s : State} (h : Memory.wf s.mem) : (xputV a b vr s).MemWf := by simp [xputV, h]

@[simp] theorem State.startShape_mem (s : State) (w : Word) (dist : Bool) (b : Line) (src : List Line) (on : Pred) :
    (s.startShape w dist b src on).mem = s.mem := by simp [State.startShape]

theorem vsweepV_wf {w : Word} {d a b : BitVec 6} {p : BitVec 3} {s : State} (h : Memory.wf s.mem) : (vsweepV w d a b p s).MemWf :=
  State.withQueuesOr_wf h (by simpa using h)

theorem vjlimV_wf {d a b : BitVec 6} {p : BitVec 3} {s : State} (h : Memory.wf s.mem) : (vjlimV d a b p s).MemWf := State.withQueues_wf h (by simpa using h)

theorem vdistV_wf {w : Word} {d a b : BitVec 6} {p : BitVec 3} {s : State} (h : Memory.wf s.mem) : (vdistV w d a b p s).MemWf :=
  State.withQueuesOr_wf h (by simpa using h)

/-! ## Matrix -/

@[simp] theorem State.modEng_mem (s : State) (n : CoreId) (f : Engine → Engine) : (s.modEng n f).mem = s.mem := by simp [State.modEng]
@[simp] theorem State.pushEng_mem (s : State) (op : EngOp) (dith : Bool) : (s.pushEng op dith).mem = s.mem := by simp [State.pushEng]

theorem mmaV_wf {joint : Bool} {w : Word} {o a b : BitVec 3} {f : BitVec 5} {kk : BitVec 9} {s : State} (h : Memory.wf s.mem) :
    (mmaV joint w o a b f kk s).MemWf := by
  unfold mmaV
  dsimp only
  (repeat' split) <;> simp [h]

theorem mdrnV_wf {w : Word} {o : BitVec 3} {s : State} (h : Memory.wf s.mem) : (mdrnV w o s).MemWf := by simp [mdrnV, h]
theorem mzeroV_wf {s : State} (h : Memory.wf s.mem) : (mzeroV s).MemWf := by simp [mzeroV, h]

@[simp] theorem State.engTrap_mem (s : State) (n : CoreId) (op : EngOp) (c : Cause) (tv : Dw) : (s.engTrap n op c tv).mem = s.mem := by
  simp [State.engTrap]

@[simp] theorem State.scaleStep_mem (s : State) (n : CoreId) (o : EngOp) : (s.scaleStep n o).mem = s.mem := by
  unfold State.scaleStep
  dsimp only
  (repeat' split) <;> simp

@[simp] theorem State.poisonStop_mem (s : State) (n : CoreId) (o : EngOp) (isA : Bool) (m : Nat) (tv : Dw) :
    (s.poisonStop n o isA m tv).mem = s.mem := by simp [State.poisonStop]

@[simp] theorem State.groupStep_mem (s : State) (n : CoreId) (o : EngOp) : (s.groupStep n o).mem = s.mem := by
  unfold State.groupStep
  dsimp only
  (repeat' split) <;> simp

@[simp] theorem State.jointTrap_mem (s : State) (n : CoreId) (c : Cause) : (s.jointTrap n c).mem = s.mem := by
  unfold State.jointTrap
  split <;> simp

@[simp] theorem State.jointStart_mem (s : State) (w : CrewId) : (s.jointStart w).mem = s.mem := by
  unfold State.jointStart
  dsimp only
  (repeat' split) <;> simp

@[simp] theorem State.jointGroup_mem (s : State) (w : CrewId) : (s.jointGroup w).mem = s.mem := by
  unfold State.jointGroup
  dsimp only
  (repeat' split) <;> simp

@[simp] theorem State.jointComplete_mem (s : State) (w : CrewId) : (s.jointComplete w).mem = s.mem := by simp [State.jointComplete]

@[simp] theorem State.groupBoundary_mem (s : State) (n : CoreId) : (s.groupBoundary n).mem = s.mem := by
  unfold State.groupBoundary
  dsimp only
  (repeat' split) <;> simp

@[simp] theorem State.matrixStart_mem (s : State) (n : CoreId) : (s.matrixStart n).mem = s.mem := by
  unfold State.matrixStart
  dsimp only
  (repeat' split) <;> simp

@[simp] theorem State.spanToBack_mem (s : State) (n : CoreId) : (s.spanToBack n).mem = s.mem := by
  unfold State.spanToBack
  dsimp only
  split <;> simp

@[simp] theorem State.drainReserve_mem (s : State) (n : CoreId) : (s.drainReserve n).mem = s.mem := by simp [State.drainReserve]

@[simp] theorem State.drainPush_mem (s : State) (n : CoreId) : (s.drainPush n).mem = s.mem := by
  unfold State.drainPush
  dsimp only
  split <;> simp

@[simp] theorem State.mdrnStart_mem (s : State) (n : CoreId) : (s.mdrnStart n).mem = s.mem := by
  unfold State.mdrnStart
  dsimp only
  (repeat' split) <;> simp

@[simp] theorem State.mzeroComplete_mem (s : State) (n : CoreId) : (s.mzeroComplete n).mem = s.mem := by simp [State.mzeroComplete]

/-! ## Verdict -/

theorem vFwait_wf {f : BitVec 3} {v : BitVec 1} {s : State} (h : Memory.wf s.mem) : (vFwait f v s).MemWf := by
  unfold vFwait
  split <;> simp [h]

/-- A word's own rule keeps the canonical form, in whatever seat it stands. -/
theorem wordVerdict_wf (k : SeatId) (i : Instr) (s : State) (h : Memory.wf s.mem) : (wordVerdict k i s).MemWf := by
  cases i with dsimp only [wordVerdict]
  | add | sub | mul | mulh | mulhu | div | divu | rem | and | or | xor | shl | shr | sar | min | max | slt | sltu => exact aluC_wf h
  | addi | andi | ori | xori | shli | shri | sari | slti => exact aluCI_wf h
  | lui | time | scope | aaddi | alui | xadd | xsub | xmul | vdph | ftset | ftget | mpidx | madd | msub | mand | mor | mshl | mshr | mli | mlui | nop
  | fset => exact (Verdict.memWf_go _ _).2 (by simpa using h)
  | beq | bne | blt | bge | bltu | bgeu => exact branchC_wf h
  | jmp | jal | jr | abeq | abne | ablt | abge | ajmp | ajr | vbz | vbnz | vjmp | mbz | mbnz | mblt | mjmp | mjr => exact branchV_wf h
  | lset => exact lsetV_wf h
  | spawn => exact spawnV_wf h
  | park => exact parkV_wf h
  | exit => exact exitV_wf h
  | cncl => exact cnclV_wf h
  | crd => exact crdV_wf h
  | sysr => exact sysrV_wf h
  | sysw => exact syswV_wf h
  | trap => exact (Verdict.memWf_goTrap _ _ _ _).2 h
  | rft => exact rftV_wf h
  | aadd | asub | amul | aand | aor | ashl | ashr => exact aluA_wf h
  | ldb | ldbs | ldh | ldhs | ldw | ldws | ldd => exact loadV_wf h
  | stb | sth | stw | std => exact storeV_wf h
  | ldv => exact ldvV_wf h
  | stv => exact stvV_wf h
  | qbind => exact qbindV_wf h
  | qpat => exact qpatV_wf h
  | qstop => exact qstopV_wf h
  | qmc => exact qmcV_wf h
  | amoadd | amomin | amomax | amoand | amoor | amoxor | amoswp | amocas => exact amoV_wf h
  | aset => exact asetV_wf h
  | afree => exact afreeV_wf h
  | await => exact awaitV_wf h
  | aread => exact areadV_wf h
  | acred => exact acredV_wf h
  | cpy | gath | scat | cpyr => exact copyV_wf h
  | chlnk => exact chlnkV_wf h
  | chkck => exact chkckV_wf h
  | rgres => exact rgresV_wf h
  | rgpub => exact rgpubV_wf h
  | rgpop => exact rgpopV_wf h
  | rgcur => exact rgcurV_wf h
  | waita => exact waitaV_wf h
  | vadd | vsub | vmul | vmax | vmin | vand | vor | vxor | vshl | vshr | vsar => exact vec2V_wf h
  | vfma | vfms => exact vecAccV_wf h
  | vscac => exact vscacV_wf h
  | vabs | vneg | vrcp | vrsq | vexp2 | vlog2 | vmov => exact vec1V_wf h
  | vcmpeq | vcmpne | vcmplt | vcmple => exact cmpV_wf h
  | vsel => exact vselV_wf h
  | pand | por | pnot => exact predV_wf h
  | pcnt => exact pcntV_wf h
  | vcvt => exact vcvtV_wf h
  | vqnt => exact vqntV_wf h
  | vdq => exact vdqV_wf h
  | vrsum | vrmax => exact reduceV_wf h
  | vperm => exact permV_wf h
  | vbcast => exact bcastV_wf h
  | vscan => exact vecV_wf h
  | vaddiF32 | vmuliF32 | vmoviF32 | vaddiF16 | vmuliF16 | vmoviF16 | vaddiBF16 | vmuliBF16 | vmoviBF16 | vaddiI32 | vmoviI32 | vandi | vori => exact viV_wf h
  | xli => exact xliV_wf h
  | xget => exact xgetV_wf h
  | xput => exact xputV_wf h
  | vsweep => exact vsweepV_wf h
  | vjlim => exact vjlimV_wf h
  | vdist => exact vdistV_wf h
  | vpack | vunpk | vsplt | vcat => exact weaveV_wf h
  | mma | mmaj => exact mmaV_wf h
  | mdrn => exact mdrnV_wf h
  | mzero => exact mzeroV_wf h
  | mloop => exact mloopV_wf h
  | tpost => exact tpostV_wf h
  | twait => exact twaitV_wf h
  | fwait => exact vFwait_wf h
  | brk => exact brkV_wf h
  | bndy => exact bndyV_wf h
  | _ => exact h

/-! ## SeatEvents -/

@[simp] theorem State.playEntry_mem (s : State) (n : CoreId) (e : LogHead) : (s.playEntry n e).mem = s.mem := by
  unfold State.playEntry
  dsimp only
  (repeat' split) <;> simp

@[simp] theorem State.playDrain_mem (s : State) (n : CoreId) : (s.playDrain n).mem = s.mem := by simp [State.playDrain]
@[simp] theorem State.atClockEnd_mem (s : State) (n : CoreId) : (s.atClockEnd n).mem = s.mem := by simp [State.atClockEnd]

@[simp] theorem State.landOne_mem (s : State) (n : CoreId) (r : InFlight) : (s.landOne n r).mem = s.mem := by
  unfold State.landOne
  split <;> simp

@[simp] theorem State.resultLand_mem (s : State) (n : CoreId) : (s.resultLand n).mem = s.mem := by
  unfold State.resultLand
  (repeat' split) <;> simp

@[simp] theorem State.runOut_mem (s : State) (n : CoreId) (k : SeatId) : (s.runOut n k).mem = s.mem := by
  unfold State.runOut
  (repeat' split) <;> simp

theorem State.partnerV_wf (s : State) (k : SeatId) (h : Memory.wf s.mem) : (s.partnerV k).MemWf := by
  unfold State.partnerV
  split
  · simpa using h
  · split
    case _ i _ =>
      have hv := wordVerdict_wf k i s h
      dsimp only
      split
      · split
        case _ z hz => exact hz ▸ hv
        · split <;> simp [hv]
      · exact hv
    all_goals simp [h]

@[simp] theorem State.skipSeats_mem (s : State) (l : List SeatId) : (s.skipSeats l).mem = s.mem := by simp [State.skipSeats]
@[simp] theorem State.waitStroke_mem (s : State) (l : List SeatId) : (s.waitStroke l).mem = s.mem := State.foldl_mem _ _ _ fun _ _ => rfl

theorem State.issueAll_wf {s t : State} {l : List SeatId} (h : Memory.wf s.mem) (ht : s.issueAll l = .issued t) : Memory.wf t.mem := by
  induction l generalizing s with
  | nil =>
    injection ht with ht
    exact ht ▸ h
  | cons k r ih =>
    unfold State.issueAll at ht
    split at ht
    · exact ih (by simpa using h) ht
    · have hv := State.partnerV_wf s k h
      split at ht
      · simp at ht
      · simp at ht
      · refine ih ?_ ht
        have hs := State.settle_wf s k _ h hv
        split <;> simpa using hs

@[simp] theorem State.rendezvous_wf (s : State) (h : Memory.wf s.mem) : Memory.wf s.rendezvous.mem := by
  unfold State.rendezvous
  dsimp only
  split
  case _ u hu =>
    obtain ⟨k, -, hk⟩ := List.exists_of_findSome?_eq_some hu
    have hv := State.partnerV_wf s k h
    split at hk
    case _ z hz =>
      injection hk with hk
      simpa [hz, hk] using hv
    · simp at hk
  · split
    · split
      case _ t hi => simpa using State.issueAll_wf h hi
      · simpa using h
      · simpa using h
    · simpa using h

@[simp] theorem execStrokeRendezvous_wf (n : CoreId) (s : State) (h : Memory.wf s.mem) : OutcomeWf (execStrokeRendezvous n s) := by
  unfold execStrokeRendezvous
  split <;> simp [h]

/-! ## DebugEvents -/

@[simp] theorem State.debugStop_mem (s : State) (n : CoreId) : (s.debugStop n).mem = s.mem := by
  unfold State.debugStop
  split <;> simp

@[simp] theorem State.breakpointMatch_wf (s : State) (n : CoreId) (k : SeatId) (h : Memory.wf s.mem) : Memory.wf (s.breakpointMatch n k).mem := by
  simp [State.breakpointMatch, h]

@[simp] theorem State.playStart_mem (s : State) (n : CoreId) : (s.playStart n).mem = s.mem := by simp [State.playStart]
@[simp] theorem State.runOn_mem (s : State) (n : CoreId) (left : Option Nat) : (s.runOn n left).mem = s.mem := by simp [State.runOn]
@[simp] theorem State.dfdataStep_mem (s : State) (n : CoreId) (w : Option Dw) : (s.dfdataStep n w).mem = s.mem := by simp [State.dfdataStep]

@[simp] theorem execDfdata_wf (n : CoreId) (w : Option Dw) (s : State) (h : Memory.wf s.mem) : OutcomeWf (execDfdata n w s) := by
  unfold execDfdata
  split <;> simp [h]

@[simp] theorem State.traceEnable_mem (s : State) (w : CrewId) (v : Dw) : (s.traceEnable w v).mem = s.mem := by simp [State.traceEnable]
@[simp] theorem State.traceSample_mem (s : State) (n : CoreId) : (s.traceSample n).mem = s.mem := by simp [State.traceSample]

@[simp] theorem State.traceDrain_wf (s : State) (w : CrewId) (h : Memory.wf s.mem) : Memory.wf (s.traceDrain w).mem := by
  unfold State.traceDrain
  dsimp only
  split
  · exact h
  · split
    · simpa using h
    · rw [State.outp_mem, State.setCrew_mem]
      exact State.foldl_wf _ _ h fun s p hs => plainStore_wf s _ _ hs

@[simp] theorem State.crewGate_mem (s : State) (w : CrewId) (forced : Bool) : (s.crewGate w forced).mem = s.mem := by simp [State.crewGate]
@[simp] theorem State.crewUp_mem (s : State) (w : CrewId) : (s.crewUp w).mem = s.mem := by simp [State.crewUp]
@[simp] theorem State.clockRestart_mem (s : State) (n : CoreId) : (s.clockRestart n).mem = s.mem := by simp [State.clockRestart]

/-! ## TrapEvents -/

@[simp] theorem State.enterTrap_mem (s : State) (n : CoreId) (k : SeatId) (q : SeatCause) (efinfo : Nat) :
    (s.enterTrap n k q efinfo).mem = s.mem := by simp [State.enterTrap]

@[simp] theorem State.trapEntry_mem (s : State) (n : CoreId) : (s.trapEntry n).mem = s.mem := by
  unfold State.trapEntry
  split <;> simp

@[simp] theorem State.efTake_mem (s : State) (n : CoreId) : (s.efTake n).mem = s.mem := by
  unfold State.efTake
  split <;> simp

@[simp] theorem State.masterThaw_mem (s : State) (m : Master) : (s.masterThaw m).mem = s.mem := by
  unfold State.masterThaw
  split <;> simp

@[simp] theorem State.phaseStatus_mem (s : State) (d : DieId) (phid : Dw) (st : Nat) : (s.phaseStatus d phid st).mem = s.mem := by
  simp [State.phaseStatus]

@[simp] theorem State.masterReset_mem (s : State) (m : Master) : (s.masterReset m).mem = s.mem := by
  unfold State.masterReset
  split
  · split <;> simp
  · split
    · rfl
    · rw [State.modCore_mem]
      exact (State.foldl_mem _ _ _ fun s p => State.phaseStatus_mem ..).trans (State.foldl_mem _ _ _ fun s k => State.copyCancel_mem ..)
  · split <;> simp
  · split <;> simp

@[simp] theorem State.setReq_mem (s : State) (n : CoreId) (r : Option SysReq) : (s.setReq n r).mem = s.mem := by simp [State.setReq]
@[simp] theorem State.invalPage_mem (s : State) (n : CoreId) (w : Dw) : (s.invalPage n w).mem = s.mem := by simp [State.invalPage]
@[simp] theorem State.invalContext_mem (s : State) (n : CoreId) (w : Dw) : (s.invalContext n w).mem = s.mem := by simp [State.invalContext]

@[simp] theorem execInvalReload_wf (n : CoreId) (w : Dw) (s : State) (h : Memory.wf s.mem) : OutcomeWf (execInvalReload n w s) := by
  unfold execInvalReload
  dsimp only
  (repeat' split) <;> simp [h]

@[simp] theorem State.dropUnused_mem (s : State) (d : DieId) : (s.dropUnused d).mem = s.mem := by simp [State.dropUnused]

@[simp] theorem execInvalComplete_wf (n : CoreId) (s : State) (h : Memory.wf s.mem) : OutcomeWf (execInvalComplete n s) := by
  unfold execInvalComplete
  split <;> simp [h]

@[simp] theorem State.cpyresTake_mem (s : State) (n : CoreId) (v : Dw) : (s.cpyresTake n v).mem = s.mem := by
  unfold State.cpyresTake
  dsimp only
  split <;> simp

@[simp] theorem State.saveTake_mem (s : State) (n : CoreId) (v : Dw) : (s.saveTake n v).mem = s.mem := by
  unfold State.saveTake
  split <;> simp

@[simp] theorem State.svAppend_wf (s : State) (n : CoreId) (k : Handler) (v : Dw) (h : Memory.wf s.mem) : Memory.wf (s.svAppend n k v).mem := by
  unfold State.svAppend
  dsimp only
  split
  · refine State.ite_wf (by simpa using h) ?_
    split
    · refine State.ite_wf ?_ ?_
      · split <;> simpa using h
      · rw [State.setReq_mem]
        exact State.homeStore_wf _ _ _ (State.homeStore_wf _ _ _ (State.homeStore_wf _ _ _ h))
    · simpa using h
    · simpa using h
  · simpa using h
  · simpa using h

@[simp] theorem State.svreqTake_wf (s : State) (n : CoreId) (v : Dw) (h : Memory.wf s.mem) : Memory.wf (s.svreqTake n v).mem := by
  unfold State.svreqTake
  (repeat' split) <;> simp [h]

@[simp] theorem State.svreqReply_wf (s : State) (n : CoreId) (v : Dw) (h : Memory.wf s.mem) : Memory.wf (s.svreqReply n v).mem := by
  unfold State.svreqReply
  (repeat' split) <;> simp [h]

@[simp] theorem State.fdataStep_mem (s : State) (n : CoreId) (w : Option Dw) : (s.fdataStep n w).mem = s.mem := by
  unfold State.fdataStep
  (repeat' split) <;> simp

/-! ## Sched -/

@[simp] theorem State.takeTask_mem (s : State) (d : DieId) (i : Nat) (t : Task) (round : Bool) : (s.takeTask d i t round).mem = s.mem := by
  simp [State.takeTask]

@[simp] theorem State.leaveMulticasts_mem (s : State) (n : CoreId) : (s.leaveMulticasts n).mem = s.mem := by simp [State.leaveMulticasts]
@[simp] theorem State.notStarted_mem (s : State) (d : DieId) (u : UnitInfo) : (s.notStarted d u).mem = s.mem := by simp [State.notStarted]

@[simp] theorem State.enter_mem (s : State) (n : CoreId) (u : UnitInfo) (x : Ctx) (event : Nat) : (s.enter n u x event).mem = s.mem := by
  simp [State.enter]

@[simp] theorem State.placeOn_mem (s : State) (n : CoreId) (t : Task) : (s.placeOn n t).mem = s.mem := by
  unfold State.placeOn
  dsimp only
  (repeat' split) <;> simp

@[simp] theorem State.placeCrew_mem (s : State) (w : CrewId) (i : Nat) (lid : Word) (g : Nat) (l : List (Fin 4)) (round : Bool) :
    (s.placeCrew w i lid g l round).mem = s.mem := by
  induction l generalizing s round with
  | nil => rfl
  | cons p r ih =>
    unfold State.placeCrew
    split
    · rfl
    · split <;> simp [ih]

@[simp] theorem State.unitPlace_mem (s : State) (n : CoreId) : (s.unitPlace n).mem = s.mem := by
  unfold State.unitPlace
  (repeat' split) <;> simp

@[simp] theorem State.makeUrgent_mem (s : State) (n : CoreId) : (s.makeUrgent n).mem = s.mem := by simp [State.makeUrgent]

@[simp] theorem State.postStop_mem (s : State) (n : CoreId) (why : StopWhy) (urgent : Bool) : (s.postStop n why urgent).mem = s.mem := by
  simp [State.postStop]

@[simp] theorem State.preempt_mem (s : State) (d : DieId) (p : Fin 32) : (s.preempt d p).mem = s.mem := by
  unfold State.preempt
  dsimp only
  split <;> simp

@[simp] theorem State.urgentFreeze_mem (s : State) (n : CoreId) : (s.urgentFreeze n).mem = s.mem := by
  unfold State.urgentFreeze
  (repeat' split) <;> simp

@[simp] theorem State.saveOne_mem (s : State) (n : CoreId) : (s.saveOne n).mem = s.mem := by
  unfold State.saveOne
  split <;> simp

@[simp] theorem State.contextSave_mem (s : State) (n : CoreId) : (s.contextSave n).mem = s.mem := by simp [State.contextSave]

@[simp] theorem State.restoreOne_mem (s : State) (n : CoreId) : (s.restoreOne n).mem = s.mem := by
  unfold State.restoreOne
  split <;> simp

@[simp] theorem State.modShared_mem (s : State) (w : CrewId) (f : Shared → Shared) : (s.modShared w f).mem = s.mem := by simp [State.modShared]
@[simp] theorem State.settleSlices_mem (s : State) (d : DieId) : (s.settleSlices d).mem = s.mem := by simp [State.settleSlices]
@[simp] theorem State.sliceEnd_mem (s : State) (w : CrewId) : (s.sliceEnd w).mem = s.mem := by simp [State.sliceEnd]

@[simp] theorem State.swapOut_wf (s : State) (n : CoreId) (h : Memory.wf s.mem) : Memory.wf (s.swapOut n).mem := by
  unfold State.swapOut
  dsimp only
  (repeat' split) <;> simp [h]

@[simp] theorem State.swapIn_mem (s : State) (n : CoreId) (p : Fin 32) : (s.swapIn n p).mem = s.mem := by simp [State.swapIn]

@[simp] theorem State.contextRestore_mem (s : State) (n : CoreId) : (s.contextRestore n).mem = s.mem := by
  unfold State.contextRestore
  split <;> simp

@[simp] theorem State.sliceSwitch_wf (s : State) (w : CrewId) (h : Memory.wf s.mem) : Memory.wf (s.sliceSwitch w).mem := by
  unfold State.sliceSwitch
  dsimp only
  split
  · split
    · exact h
    · rw [State.modShared_mem]
      exact State.foldl_wf _ _ h fun s q hs => by simp [hs]
  · exact h

@[simp] theorem State.retireSegment_wf (s : State) (k : SegLink) (h : Memory.wf s.mem) : Memory.wf (s.retireSegment k).mem := by
  unfold State.retireSegment
  dsimp only
  rw [State.modPart_mem]
  exact State.homeStore_wf _ _ _ (State.homeStore_wf _ _ _ (State.homeStore_wf _ _ _ h))

@[simp] theorem State.ringStarved_mem (s : State) (n : CoreId) (o : MemOp) : (s.ringStarved n o).mem = s.mem := by simp [State.ringStarved]

@[simp] theorem State.segmentLink_wf (s : State) (n : CoreId) (h : Memory.wf s.mem) : Memory.wf (s.segmentLink n).mem := by
  unfold State.segmentLink
  dsimp only
  (repeat' split) <;> simp [h]

@[simp] theorem execRingSegmentPoll_wf (k : Nat) (s : State) (h : Memory.wf s.mem) : OutcomeWf (execRingSegmentPoll k s) := by
  unfold execRingSegmentPoll
  split <;> simp [h]

/-! ## Partition -/

@[simp] theorem State.mboxAnswer_mem (s : State) (d : DieId) (code status index reason : Nat) :
    (s.mboxAnswer d code status index reason).mem = s.mem := by simp [State.mboxAnswer]

@[simp] theorem State.mboxIn_mem (s : State) (d : DieId) (v : Dw) : (s.mboxIn d v).mem = s.mem := by simp [State.mboxIn]

theorem State.mboxTake_mem {s : State} {d : DieId} {v : Dw} {mine : Bool} {t : State → State} (ht : ∀ u, (t u).mem = u.mem) :
    (s.mboxTake d v mine t).mem = s.mem := by
  unfold State.mboxTake
  (repeat' split) <;> simp [ht]

@[simp] theorem State.addShared_mem (s : State) (w : CrewId) (p : Fin 32) (len : Nat) : (s.addShared w p len).mem = s.mem := by
  unfold State.addShared
  split <;> simp

@[simp] theorem State.dropShared_mem (s : State) (w : CrewId) : (s.dropShared w).mem = s.mem := by simp [State.dropShared]

theorem State.grantMask_mem {s t : State} {d : DieId} {p : Fin 32} {n m : Nat} {f : PartDie → Nat} {g : PartDie → Nat → PartDie}
    (h : s.grantMask d p n m f g = .ok t) : t.mem = s.mem := by
  unfold State.grantMask at h
  split at h
  · simp at h
  · injection h with h
    simp [← h]

theorem State.revokeMask_mem {s t : State} {d : DieId} {p : Fin 32} {n m : Nat} {f : PartDie → Nat} {g : PartDie → Nat → PartDie}
    (h : s.revokeMask d p n m f g = .ok t) : t.mem = s.mem := by
  unfold State.revokeMask at h
  split at h
  · simp at h
  · injection h with h
    simp [← h]

@[simp] theorem State.closeSession_mem (s : State) (d : DieId) (sid : Nat) : (s.closeSession d sid).mem = s.mem := by
  unfold State.closeSession
  split <;> simp

@[simp] theorem State.sessionOpen_mem (s : State) (d : DieId) (v : Dw) : (s.sessionOpen d v).mem = s.mem :=
  State.mboxTake_mem fun u => by dsimp only; (repeat' split) <;> simp

@[simp] theorem State.sessionClose_mem (s : State) (d : DieId) (v : Dw) : (s.sessionClose d v).mem = s.mem :=
  State.mboxTake_mem fun u => by dsimp only; (repeat' split) <;> simp

@[simp] theorem State.mboxBad_mem (s : State) (d : DieId) (v : Dw) : (s.mboxBad d v).mem = s.mem :=
  State.mboxTake_mem fun u => by split <;> simp

@[simp] theorem State.tearDown_mem (s : State) (d : DieId) (ctx : Fin 64) : (s.tearDown d ctx).mem = s.mem := by simp [State.tearDown]
@[simp] theorem State.failRings_mem (s : State) (d : DieId) (ctx : Fin 64) : (s.failRings d ctx).mem = s.mem := by simp [State.failRings]
@[simp] theorem State.clearContext_mem (s : State) (d : DieId) (ctx : Fin 64) : (s.clearContext d ctx).mem = s.mem := by simp [State.clearContext]

@[simp] theorem State.dropSlots_mem (s : State) (d : DieId) (g : Fin 64) : (s.dropSlots d g).mem = s.mem := by
  unfold State.dropSlots
  dsimp only
  rw [foldl_mem]
  intro s w
  split <;> simp

/-- Writes that count toward slots, a list of blocks for each, touch no byte. -/
theorem State.countBlocks_mem (s : State) (ts : List Slot) (pa : Nat → Nat) (blocks : Slot → List Nat) :
    (ts.foldl (fun s t => (blocks t).foldl (fun s i => s.countWrite (pa i) 64 t) s) s).mem = s.mem :=
  State.foldl_mem _ _ _ fun _ _ => State.foldl_mem _ _ _ fun _ _ => State.countWrite_mem ..

@[simp] theorem State.zeroGranule_wf (s : State) (d : DieId) (g : Fin 64) (h : Memory.wf s.mem) : Memory.wf (s.zeroGranule d g).mem := by
  unfold State.zeroGranule
  extract_lets a s₁ s₂
  rw [State.countBlocks_mem s₂ s₂.slots (fun i => a + 64 * i), State.wakeLine_mem]
  exact clearRange_wf _ _ _ (by simpa [s₁] using h)

@[simp] theorem State.drainCrew_mem (s : State) (w : CrewId) : (s.drainCrew w).mem = s.mem :=
  State.foldl_mem _ _ _ fun s p => by dsimp only; split <;> simp

@[simp] theorem State.applyDrain_mem (s : State) (r : Reconf) : (s.applyDrain r).mem = s.mem := by simp [State.applyDrain]

@[simp] theorem State.swapInOwned_mem (s : State) : s.swapInOwned.mem = s.mem :=
  State.foldl_mem _ _ _ fun s n => by
    split
    · rfl
    · split <;> rfl

theorem exceptMap_eq_ok {ε α β : Type} {e : Except ε α} {f : α → β} {b : β} (h : e.map f = .ok b) : ∃ a, e = .ok a ∧ f a = b := by
  cases e with
  | error _ => simp [Except.map] at h
  | ok a => exact ⟨a, rfl, by simpa [Except.map] using h⟩

theorem ite_eq_ok {ε α : Type} {c : Prop} [Decidable c] {q : ε} (a b : α) : (if c then Except.error q else .ok a) = .ok b ↔ ¬ c ∧ a = b := by
  split <;> simp_all

theorem ListState.exists_mem {l l' : ListState} {create : Bool} {p : Fin 32} (h : l.exists_ create p = .ok l') : l'.s.mem = l.s.mem := by
  unfold ListState.exists_ at h
  dsimp only at h
  (repeat' split at h) <;> cases h <;> rfl

theorem ListState.crews_mem {l l' : ListState} {op : Nat} {p : Fin 32} {d : DieId} {a b : Nat} (h : l.crews op p d a b = .ok l') : l'.s.mem = l.s.mem := by
  unfold ListState.crews at h
  dsimp only at h
  split at h
  · split at h
    · simp at h
    · obtain ⟨t, ht, rfl⟩ := exceptMap_eq_ok h
      exact (State.foldl_mem _ _ _ fun s w => State.dropShared_mem s w).trans (State.grantMask_mem ht)
  · split at h
    · split at h
      · simp at h
      · obtain ⟨t, ht, rfl⟩ := exceptMap_eq_ok h
        exact State.revokeMask_mem ht
    · split at h
      · simp at h
      · split at h
        · simp at h
        · obtain ⟨-, h⟩ := (ite_eq_ok _ _).1 h
          rw [← h]
          simp

theorem ListState.masks_mem {l l' : ListState} {op : Nat} {p : Fin 32} {d : DieId} {a : Nat} (h : l.masks op p d a = .ok l') : l'.s.mem = l.s.mem := by
  unfold ListState.masks at h
  dsimp only at h
  split at h
  · split at h
    · simp at h
    · obtain ⟨t, ht, rfl⟩ := exceptMap_eq_ok h
      exact State.grantMask_mem ht
  all_goals obtain ⟨t, ht, rfl⟩ := exceptMap_eq_ok h
  · exact State.revokeMask_mem ht
  · exact State.grantMask_mem ht
  · exact State.revokeMask_mem ht
  · exact State.grantMask_mem ht
  · exact State.revokeMask_mem ht

theorem ListState.settings_mem {l l' : ListState} {op : Nat} {p : Fin 32} {d : DieId} {a b : Dw} (h : l.settings op p d a b = .ok l') :
    l'.s.mem = l.s.mem := by
  unfold ListState.settings at h
  dsimp only at h
  (repeat' split at h) <;> cases h <;> rfl

theorem ListState.entry_mem {l l' : ListState} {e : BitVec 256} (h : l.entry e = .ok l') : l'.s.mem = l.s.mem := by
  unfold ListState.entry at h
  dsimp only at h
  split at h
  · simp at h
  · split at h
    · exact ListState.exists_mem h
    · split at h
      · simp at h
      · split at h
        · exact ListState.crews_mem h
        · split at h
          · exact ListState.masks_mem h
          · exact ListState.settings_mem h

theorem ListState.run_mem {l l' : ListState} {i : Nat} {es : List (BitVec 256)} (h : l.run i es = .ok l') : l'.s.mem = l.s.mem := by
  induction es generalizing l i with
  | nil =>
    injection h with h
    rw [h]
  | cons e r ih =>
    unfold ListState.run at h
    split at h
    · simp at h
    case _ u hu => exact (ih h).trans (ListState.entry_mem hu)

@[simp] theorem State.reconfigure_mem (s : State) (d : DieId) (v : Dw) : (s.reconfigure d v).mem = s.mem := by
  refine State.mboxTake_mem fun u => ?_
  dsimp only
  split
  · simp
  · split
    · simp
    · split
      · simp
      case _ l hl => simpa using ListState.run_mem hl

@[simp] theorem State.drainDone_wf (s : State) (h : Memory.wf s.mem) : Memory.wf s.drainDone.mem := by
  unfold State.drainDone
  split
  · exact h
  · rw [State.mboxAnswer_mem]
    dsimp only
    rw [State.swapInOwned_mem]
    refine State.foldl_wf _ _ ?_ fun s x hs => State.zeroGranule_wf _ _ _ hs
    rw [State.foldl_mem _ _ _ fun s x => by split <;> simp]
    refine State.foldl_wf _ _ h fun s w hs => State.foldl_wf _ _ hs fun s p hs => ?_
    split
    · split <;> simp [hs]
    · split <;> simp [hs]
    · exact hs

@[simp] theorem State.channelSlot_mem (s : State) (d : DieId) (ch : Fin 112) : (s.channelSlot d ch).mem = s.mem := by simp [State.channelSlot]

/-! ## Package -/

@[simp] theorem State.keepCarried_mem (s : State) (d : DieId) : (s.keepCarried d).mem = s.mem := by simp [State.keepCarried]
@[simp] theorem State.dieEnds_mem (s : State) (d : DieId) : (s.dieEnds d).mem = s.mem := by simp [State.dieEnds]

@[simp] theorem State.endSlow_wf (s : State) (d : DieId) (h : Memory.wf s.mem) : Memory.wf (s.endSlow d).mem := by
  unfold State.endSlow
  dsimp only
  rw [State.modDie_mem]
  exact State.foldl_wf _ _ h fun s r hs => by simp [hs]

@[simp] theorem State.declareLoss_wf (s : State) (d : DieId) (h : Memory.wf s.mem) : Memory.wf (s.declareLoss d).mem := by
  unfold State.declareLoss
  split <;> simp [h]

@[simp] theorem State.clearHbm_wf (s : State) (d : DieId) (h : Memory.wf s.mem) : Memory.wf (s.clearHbm d).mem := clearRange_wf s.mem _ _ h

@[simp] theorem State.startFails_mem (s : State) (d : DieId) (warm : Bool) (step : Nat) (sigbad : Bool) :
    (s.startFails d warm step sigbad).mem = s.mem := by simp [State.startFails]

@[simp] theorem State.startDone_mem (s : State) (d : DieId) (warm : Bool) : (s.startDone d warm).mem = s.mem := by simp [State.startDone]

@[simp] theorem State.startRun_wf (s : State) (d : DieId) (warm : Bool) (r : StartResult) (h : Memory.wf s.mem) :
    Memory.wf (s.startRun d warm r).mem := by
  unfold State.startRun
  dsimp only
  (repeat' split) <;> simp [h]

@[simp] theorem State.startRequest_wf (s : State) (d : DieId) (warm : Bool) (r : StartResult) (h : Memory.wf s.mem) :
    Memory.wf (s.startRequest d warm r).mem := by
  unfold State.startRequest
  dsimp only
  (repeat' split) <;> simp [h]

@[simp] theorem execPowerOn_wf (d : DieId) (r : StartResult) (s : State) (h : Memory.wf s.mem) : OutcomeWf (execPowerOn d r s) := by
  unfold execPowerOn
  split <;> simp [h]

@[simp] theorem execStartTimeout_wf (d : DieId) (s : State) (h : Memory.wf s.mem) : OutcomeWf (execStartTimeout d s) := by
  unfold execStartTimeout
  split <;> simp [h]

@[simp] theorem State.setStep_mem (s : State) (d : DieId) (step : Nat) : (s.setStep d step).mem = s.mem := by simp [State.setStep]
@[simp] theorem State.applyStep_mem (s : State) (d : DieId) : (s.applyStep d).mem = s.mem := by simp [State.applyStep]

@[simp] theorem State.powerEval_mem (s : State) (d : DieId) (temp : BitVec 8) (above : Bool) : (s.powerEval d temp above).mem = s.mem := by
  simp [State.powerEval]

@[simp] theorem State.attest_wf (s : State) (d : DieId) (buf : Dw) (h : Memory.wf s.mem) : Memory.wf (s.attest d buf).mem := by
  unfold State.attest
  dsimp only
  split
  · exact h
  · exact State.homeStore_wf _ _ _ (State.homeStore_wf _ _ _ (State.homeStore_wf _ _ _ h))

@[simp] theorem State.countError_mem (s : State) (pa : Nat) (fatal : Bool) : (s.countError pa fatal).mem = s.mem := by
  unfold State.countError
  split <;> simp

@[simp] theorem State.poisonWaiter_mem (s : State) (pa : Nat) (w : Waiter) : (s.poisonWaiter pa w).mem = s.mem := by
  unfold State.poisonWaiter
  (repeat' split) <;> simp

@[simp] theorem State.poisonSlot_mem (s : State) (pa : Nat) : (s.poisonSlot pa).mem = s.mem := by
  unfold State.poisonSlot
  split <;> simp

@[simp] theorem State.poisonCounter_mem (s : State) (d : DieId) (g : Nat) (p : Phase) : (s.poisonCounter d g p).mem = s.mem := by
  simp [State.poisonCounter]

@[simp] theorem State.fatalError_mem (s : State) (e : ErrLoc) : (s.fatalError e).mem = s.mem := by
  unfold State.fatalError
  (repeat' split) <;> simp

@[simp] theorem State.dataError_mem (s : State) (e : ErrLoc) : (s.dataError e).mem = s.mem := by
  unfold State.dataError
  dsimp only
  split <;> simp

@[simp] theorem State.functionReset_mem (s : State) (d : DieId) (fn : Fin 33) : (s.functionReset d fn).mem = s.mem := by simp [State.functionReset]

/-! ## Failover -/

@[simp] theorem State.applyOne_wf (s : State) (d : DieId) (w : DueWhat) (h : Memory.wf s.mem) : Memory.wf (s.applyOne d w).mem := by
  unfold State.applyOne
  split <;> simp [h]

@[simp] theorem State.applyDue_wf (s : State) (d : DieId) (target fuel : Nat) (h : Memory.wf s.mem) : Memory.wf (s.applyDue d target fuel).mem := by
  induction fuel generalizing s with
  | zero => simpa [State.applyDue] using h
  | succ fuel ih =>
    unfold State.applyDue
    split
    · simpa using h
    · exact ih _ (by simp [h])

@[simp] theorem State.stepTime_wf (s : State) (d : DieId) (ns : Nat) (h : Memory.wf s.mem) : Memory.wf (s.stepTime d ns).mem := by
  simp [State.stepTime, h]

@[simp] theorem execDeviceTimeStep_wf (d : DieId) (ns : Dw) (s : State) (h : Memory.wf s.mem) : OutcomeWf (execDeviceTimeStep d ns s) := by
  unfold execDeviceTimeStep
  split <;> simp [h]

@[simp] theorem State.ptp_wf (s : State) (d : DieId) (ppm offset : Int) (h : Memory.wf s.mem) : Memory.wf (s.ptp d ppm offset).mem := by
  unfold State.ptp
  dsimp only
  (repeat' split) <;> simp [h]

@[simp] theorem State.beat_mem (s : State) (d : DieId) : (s.beat d).mem = s.mem := by simp [State.beat]

@[simp] theorem execPeerLossTimeout_wf (d : DieId) (s : State) (h : Memory.wf s.mem) : OutcomeWf (execPeerLossTimeout d s) := by
  unfold execPeerLossTimeout
  split <;> simp [h]

@[simp] theorem State.takeoverRelease_mem (s : State) (d : DieId) (e : Nat) : (s.takeoverRelease d e).mem = s.mem := by
  unfold State.takeoverRelease
  split <;> simp

@[simp] theorem State.takeover_mem (s : State) (d : DieId) (sid : Nat) : (s.takeover d sid).mem = s.mem := by
  unfold State.takeover
  (repeat' split) <;> simp

@[simp] theorem State.inbound_wf (s : State) (d : DieId) (sid idx off : Nat) (bytes : List Byte) (h : Memory.wf s.mem) :
    Memory.wf (s.inbound d sid idx off bytes).mem := by
  unfold State.inbound
  dsimp only
  (repeat' split) <;> simp [h]

/-! ## Snapshot -/

@[simp] theorem State.cutCore_mem (s : State) (n : CoreId) (id : Word) : (s.cutCore n id).mem = s.mem := by simp [State.cutCore]

@[simp] theorem State.sendMarker_wf (s : State) (d : DieId) (id : Word) (scope : BitVec 2) (l : Link) (h : Memory.wf s.mem) :
    Memory.wf (s.sendMarker d id scope l).mem := by
  unfold State.sendMarker
  dsimp only
  (repeat' split) <;> simp [h]

@[simp] theorem State.markersOut_wf (s : State) (d : DieId) (now : Bool) (h : Memory.wf s.mem) : Memory.wf (s.markersOut d now).mem := by
  unfold State.markersOut
  split
  · exact h
  · split
    · exact h
    · exact State.foldl_wf _ _ (by simpa using h) fun s l hs => by simp [hs]

@[simp] theorem State.takeCut_wf (s : State) (d : DieId) (id : Word) (scope : BitVec 2) (own : Bool) (h : Memory.wf s.mem) :
    Memory.wf (s.takeCut d id scope own).mem := by
  refine State.markersOut_wf _ _ _ ?_
  rw [State.modDie_mem]
  refine State.foldl_wf _ _ ?_ fun s n hs => by simpa using hs
  exact State.foldl_wf _ _ h fun s n hs => by simpa using hs

@[simp] theorem State.snapshotGo_wf (s : State) (d : DieId) (v : Dw) (h : Memory.wf s.mem) : Memory.wf (s.snapshotGo d v).mem := by
  unfold State.snapshotGo
  dsimp only
  split <;> simp [h]

@[simp] theorem State.sentBefore_mem (s : State) (d : DieId) : (s.sentBefore d).mem = s.mem := by simp [State.sentBefore]

@[simp] theorem State.serve_wf (s : State) (n : CoreId) (id : Nat) (h : Memory.wf s.mem) : Memory.wf (s.serve n id).mem := by
  unfold State.serve
  split
  · exact h
  · split
    · exact h
    · split
      · simp [h]
      · simp [h]
      · exact State.foldl_wf _ _ h fun s i hs => by simp [hs]
      · exact State.foldl_wf _ _ h fun s i hs => by simp [hs]
      all_goals simp [h]

@[simp] theorem State.serveEngine_wf (s : State) (m : Msg) (h : Memory.wf s.mem) : Memory.wf (s.serveEngine m).mem := by
  unfold State.serveEngine
  (repeat' split) <;> simp [h]

@[simp] theorem State.answerComes_wf (s : State) (n : CoreId) (id : Nat) (h : Memory.wf s.mem) : Memory.wf (s.answerComes n id).mem := by
  unfold State.answerComes
  (repeat' split) <;> simp [h]

@[simp] theorem State.drainLink_wf (s : State) (d : DieId) (h : Memory.wf s.mem) : Memory.wf (s.drainLink d).mem := by
  refine State.foldl_wf _ _ ?_ fun s n hs => State.foldl_wf _ _ hs fun s o hs => by split <;> simp [hs]
  refine State.foldl_wf _ _ ?_ fun s z hs => by simpa using hs
  exact State.foldl_wf _ _ h fun s n hs => State.foldl_wf _ _ (State.foldl_wf _ _ hs fun s o hs => by simp [hs]) fun s m hs => by simp [hs]

@[simp] theorem State.closeLink_mem (s : State) (d : DieId) (l : Link) (id : Word) : (s.closeLink d l id).mem = s.mem := by
  unfold State.closeLink
  split <;> simp

@[simp] theorem State.cutBy_wf (s : State) (d : DieId) (l : Link) (id : Word) (scope : BitVec 2) (h : Memory.wf s.mem) :
    Memory.wf (s.cutBy d l id scope).mem := by
  unfold State.cutBy
  split <;> simp [h]

@[simp] theorem State.snapshotMarker_wf (s : State) (d : DieId) (l : Link) (id : Word) (h : Memory.wf s.mem) :
    Memory.wf (s.snapshotMarker d l id).mem := by
  unfold State.snapshotMarker
  dsimp only
  (repeat' split) <;> simp [h]

@[simp] theorem State.snapshotDump_wf (s : State) (d : DieId) (h : Memory.wf s.mem) : Memory.wf (s.snapshotDump d).mem := by
  have hp := plainStore_wf s (hostBase + (s.die d).dmpbase.toNat) (s.dumpBytes d) h
  unfold State.snapshotDump
  dsimp only
  (repeat' split) <;> simp [h, hp]

@[simp] theorem State.resumeCore_mem (s : State) (n : CoreId) : (s.resumeCore n).mem = s.mem := by simp [State.resumeCore]

@[simp] theorem State.performMsg_wf (s : State) (d : DieId) (m : Msg) (h : Memory.wf s.mem) : Memory.wf (s.performMsg d m).mem := by
  unfold State.performMsg
  split <;> simp [h]

@[simp] theorem State.snapshotResume_wf (s : State) (d : DieId) (h : Memory.wf s.mem) : Memory.wf (s.snapshotResume d).mem := by
  unfold State.snapshotResume
  split
  · exact h
  · refine State.foldl_wf _ _ ?_ fun s m hs => by simp [hs]
    refine State.foldl_wf _ _ (State.applyDue_wf _ _ _ _ ?_) fun s n hs => by simpa using hs
    rw [State.modDie_mem]
    split <;> simp [h]

/-! ## RegWrite -/

@[simp] theorem State.modDbg_mem (s : State) (d : DieId) (f : Dbg → Dbg) : (s.modDbg d f).mem = s.mem := by
  unfold State.modDbg
  split <;> simp

@[simp] theorem State.writeDebug_mem (s : State) (d : DieId) (off : Nat) (v : Dw) : (s.writeDebug d off v).mem = s.mem := by simp [State.writeDebug]

@[simp] theorem State.writeTrace_mem (s : State) (d : DieId) (off : Nat) (v : Dw) : (s.writeTrace d off v).mem = s.mem := by
  unfold State.writeTrace
  split <;> simp

@[simp] theorem State.writeDie_mem (s : State) (d : DieId) (off : Nat) (v : Dw) : (s.writeDie d off v).mem = s.mem := by simp [State.writeDie]

@[simp] theorem State.readEffect_mem (s : State) (d : DieId) (off : Nat) : (s.readEffect d off).mem = s.mem := by
  unfold State.readEffect
  (repeat' split) <;> simp

@[simp] theorem State.registerRead_mem (s : State) (d : DieId) (a : Bar) : (s.registerRead d a).mem = s.mem := by simp [State.registerRead]

@[simp] theorem State.registerStore_mem (s : State) (d : DieId) (a : Bar) (v : Dw) : (s.registerStore d a v).mem = s.mem := by
  simp [State.registerStore]

@[simp] theorem execRegisterWrite_wf (d : DieId) (a : Bar) (w : Option Dw) (s : State) (h : Memory.wf s.mem) :
    OutcomeWf (execRegisterWrite d a w s) := by
  unfold execRegisterWrite
  (repeat' split) <;> simp [h]

/-! ## Dispatch -/

/-- A word of a seat, issued by its own rule. -/
theorem issue_wordVerdict_wf {s : State} {k : SeatId} {st : Bool} {i : Instr} (h : Memory.wf s.mem) : OutcomeWf (issue k st i (wordVerdict k i s) s) :=
  issue_wf h (wordVerdict_wf k i s h)

/-- Every instruction keeps the canonical form: a word issues by its own rule, and an event answers the state of its meaning. -/
theorem exec_wf (i : Instr) (s : State) (h : Memory.wf s.mem) : OutcomeWf (exec i s) := by
  cases i with dsimp only [exec]
  | add | sub | mul | mulh | mulhu | div | divu | rem | and | or | xor | shl | shr | sar | min | max | slt | sltu | addi | andi | ori | xori | shli
  | shri | sari | slti | lui | beq | bne | blt | bge | bltu | bgeu | jmp | jal | jr | lset | spawn | park | exit | cncl | crd | sysr | sysw | trap
  | rft | time | scope | aadd | asub | amul | aand | aor | ashl | ashr | aaddi | alui | abeq | abne | ablt | abge | ajmp | ajr | ldb | ldbs | ldh
  | ldhs | ldw | ldws | ldd | stb | sth | stw | std | ldv | stv | qbind | qpat | qstop | qmc | amoadd | amomin | amomax | amoand | amoor | amoxor
  | amoswp | amocas | aset | afree | await | aread | acred | cpy | gath | scat | cpyr | chlnk | chkck | rgres | rgpub | rgpop | rgcur | waita | vadd
  | vsub | vmul | vfma | vfms | vscac | vmax | vmin | vabs | vneg | vrcp | vrsq | vexp2 | vlog2 | vcmpeq | vcmpne | vcmplt | vcmple | vsel | vand
  | vor | vxor | vshl | vshr | vsar | pand | por | pnot | pcnt | vcvt | vqnt | vdq | vrsum | vrmax | vperm | vbcast | vscan | vaddiF32 | vmuliF32
  | vmoviF32 | vaddiF16 | vmuliF16 | vmoviF16 | vaddiBF16 | vmuliBF16 | vmoviBF16 | vaddiI32 | vmoviI32 | vandi | vori | xadd | xsub | xmul | xli
  | xget | xput | vbz | vbnz | vjmp | vsweep | vjlim | vdist | vdph | vmov | vpack | vunpk | vsplt | vcat | mma | mmaj | mdrn | mzero | ftset | ftget
  | mpidx | madd | msub | mand | mor | mshl | mshr | mli | mlui | mbz | mbnz | mblt | mjmp | mjr | nop | mloop | tpost | twait | fset | fwait | brk
  | bndy => exact issue_wordVerdict_wf h
  | waitaWake => exact execWaitaWake_wf _ _ h
  | pageWalkComplete => exact execPageWalkComplete_wf _ _ _ h
  | copySuspend => exact execCopySuspend_wf _ _ _ h
  | copyComplete => exact execCopyComplete_wf _ _ _ h
  | spillFault => exact execSpillFault_wf _ _ h
  | chainAdvance => exact execChainAdvance_wf _ _ h
  | slotPoll => exact execSlotPoll_wf _ _ h
  | strokeRendezvous => exact execStrokeRendezvous_wf _ _ h
  | dfdata => exact execDfdata_wf _ _ _ h
  | invalReload => exact execInvalReload_wf _ _ _ h
  | invalComplete => exact execInvalComplete_wf _ _ h
  | ringSegmentPoll => exact execRingSegmentPoll_wf _ _ h
  | powerOn => exact execPowerOn_wf _ _ _ h
  | startTimeout => exact execStartTimeout_wf _ _ h
  | deviceTimeStep => exact execDeviceTimeStep_wf _ _ _ h
  | peerLossTimeout => exact execPeerLossTimeout_wf _ _ h
  | registerWrite => exact execRegisterWrite_wf _ _ _ _ h
  | _ => exact (outcomeWf_next _).2 (by simp [h])

/-! ## Next -/

/-- What the device does by itself keeps the canonical form. -/
theorem Ev.run_wf (e : Ev) (s : State) (h : Memory.wf s.mem) : OutcomeWf (e.run s) := by
  cases e with dsimp only [Ev.run]
  | waitaWake => exact execWaitaWake_wf _ _ h
  | pageWalkComplete => exact execPageWalkComplete_wf _ _ _ h
  | copySuspend => exact execCopySuspend_wf _ _ _ h
  | copyComplete => exact execCopyComplete_wf _ _ _ h
  | spillFault => exact execSpillFault_wf _ _ h
  | chainAdvance => exact execChainAdvance_wf _ _ h
  | slotPoll => exact execSlotPoll_wf _ _ h
  | strokeRendezvous => exact execStrokeRendezvous_wf _ _ h
  | invalReload => exact execInvalReload_wf _ _ _ h
  | invalComplete => exact execInvalComplete_wf _ _ h
  | ringSegmentPoll => exact execRingSegmentPoll_wf _ _ h
  | startTimeout => exact execStartTimeout_wf _ _ h
  | deviceTimeStep => exact execDeviceTimeStep_wf _ _ _ h
  | peerLossTimeout => exact execPeerLossTimeout_wf _ _ h
  | _ => exact (outcomeWf_next _).2 (by simp [h])

@[simp] theorem State.haltAtEnd_mem (s : State) (n : CoreId) : (s.haltAtEnd n).mem = s.mem := by simp [State.haltAtEnd]

@[simp] theorem State.closeClock_wf (s : State) (n : CoreId) (h : Memory.wf s.mem) : Memory.wf (s.closeClock n).mem := by
  unfold State.closeClock
  dsimp only
  (repeat' split) <;> simp [h]

@[simp] theorem State.nextClock_wf (s : State) (h : Memory.wf s.mem) : Memory.wf s.nextClock.mem := by
  unfold State.nextClock
  dsimp only
  split <;> simp [h]

@[simp] theorem State.passSeat_wf (s : State) (k : SeatId) (r : SeatStep) (h : Memory.wf s.mem) : Memory.wf (s.passSeat k r).mem := by
  unfold State.passSeat
  split
  · simpa using h
  · dsimp only
    split <;> simp [h]
  all_goals simp [h]

/-! ## Step -/

theorem State.seatTurn_wf (s : State) (k : SeatId) (h : Memory.wf s.mem) : OutcomeWf (s.seatTurn k) := by
  unfold State.seatTurn
  split
  · exact Ev.run_wf _ s h
  · split
    · exact exec_wf _ s h
    · exact exec_wf _ s h
    · exact (outcomeWf_next _).2 (State.passSeat_wf s k _ h)

theorem State.finishTurn_wf (s : State) (h : Memory.wf s.mem) : OutcomeWf s.finishTurn := by
  unfold State.finishTurn
  split
  · exact (outcomeWf_next _).2 (State.closeClock_wf s s.cur h)
  · split
    · exact Ev.run_wf _ s.fresh h
    · split
      · exact Ev.run_wf _ s.fresh h
      · exact (outcomeWf_next _).2 (State.nextClock_wf s h)

/-- One step, whichever agent takes it, keeps the canonical form. -/
theorem step_wf (s : State) (h : Memory.wf s.mem) : OutcomeWf (step s) := by
  unfold step
  split
  · exact exec_wf _ _ h
  · exact State.seatTurn_wf s _ h
  · exact State.finishTurn_wf s h

end Sys2Proof.Machine
end

section
/-! PROOF. The obligation of the family 00_scope about memory. -/

namespace Sys2Proof

open Machine

/-- Settles O8: memory is written through `memWriteBytes` and `clearRange` alone, which keep the canonical form; every other operation of a step leaves it. -/
theorem stepKeepsMemory : Obligations.StepKeepsMemory := by
  unfold Obligations.StepKeepsMemory
  intro s t h ht
  exact step_wf s h t ht

end Sys2Proof
end

section
/-! PROOF. The obligations of the family 01_machine about the words of a seat. -/

namespace Sys2Proof

open Machine Spec

/-! ## The turn of a seat (R11, R36, R114) -/

/-- A step at the turn of a seat with nothing due before its word is that seat's turn. -/
theorem step_eq_seatTurn {s : State} {k : SeatId} (h : turnOf s k) : step s = s.seatTurn k := by
  obtain ⟨hturn, hdue⟩ := h
  unfold step
  rw [hturn]
  cases k with
  | c => rw [(hdue rfl).1]
  | a => rfl
  | v => rfl
  | m => rfl

/-- A seat that may issue, in a kernel step that its iteration lies in, tries the word at its head. -/
theorem seatStep_eq_headAt {s : State} {k : SeatId} (hcan : s.canIssue k = true)
    (hbody : ∀ lp, ((here s).seat k).body = some lp → lp.issues = true) : s.seatStep k = s.headAt s.cur k := by
  unfold State.seatStep
  rw [hcan]
  cases h : ((here s).seat k).body with
  | none =>
    have h' : ((s.coreAt s.cur).ctx.seat k).body = none := h
    simp [h']
  | some lp =>
    have h' : ((s.coreAt s.cur).ctx.seat k).body = some lp := h
    simp [h', hbody lp h]

/-- The head of a seat is the instruction that the fetched word decodes to in the seat's map. -/
theorem headAt_eq_word {s : State} {n : CoreId} {k : SeatId} {w : Word} {i : Instr} (hw : s.fetch n k = .word w) (hi : decode k w = .ok i) :
    s.headAt n k = .word i := by
  unfold State.headAt
  rw [hw]
  simp only [hi]

/-- The turn of a seat whose head is an instruction runs it. -/
theorem seatTurn_eq_exec {s : State} {k : SeatId} {i : Instr} (h : turnOf s k) (hi : s.seatStep k = .word i) : s.seatTurn k = exec i s := by
  unfold State.seatTurn
  rw [hi]
  by_cases hk : k = .c
  · rw [if_pos hk, (h.2 hk).2]
  · rw [if_neg hk]

/-- A word inside its section whose place translates is fetched from there. -/
theorem fetch_eq_instrAt {s : State} {n : CoreId} {k : SeatId} {pa : Nat} (hal : ((s.coreAt n).ctx.seat k).pc.toNat % 4 = 0)
    (hlo : (s.section_ n k).base.toNat ≤ ((s.coreAt n).ctx.seat k).pc.toNat)
    (hhi : ((s.coreAt n).ctx.seat k).pc.toNat < (s.section_ n k).base.toNat + 4 * (s.section_ n k).words)
    (htr : translate s n (s.ctxOn n) (s.partOn n) (.fetch k) (match (s.coreAt n).handler with | some h => h.sup | none => false) needRd false
      ((s.coreAt n).ctx.seat k).pc 4 = .ok pa) : s.fetch n k = .word (s.instrAt n pa) := by
  unfold State.fetch
  dsimp only
  rw [if_neg (by omega), if_neg (by omega)]
  cases hh : (s.coreAt n).handler with
  | none => simp only [hh] at htr ⊢; rw [htr]
  | some h => simp only [hh] at htr ⊢; rw [htr]

/-- The four bytes of a little-endian word. -/
theorem valueAt_four (s : State) (pa : Nat) : s.valueAt pa 4 = (s.byteAt pa).toNat + 2 ^ 8 * (s.byteAt (pa + 1)).toNat +
    2 ^ 16 * (s.byteAt (pa + 2)).toNat + 2 ^ 24 * (s.byteAt (pa + 3)).toNat := by
  simp only [State.valueAt, State.bytesAt, List.range, List.range.loop, List.map, leValue, Nat.add_zero]
  omega

theorem instrAt_toNat {s : State} {n : CoreId} {pa : Nat} (h : pa < 2 ^ 80) : (s.instrAt n pa).toNat = s.valueAt pa 4 := by
  have hv := valueAt_four s pa
  have h0 := (s.byteAt pa).isLt
  have h1 := (s.byteAt (pa + 1)).isLt
  have h2 := (s.byteAt (pa + 2)).isLt
  have h3 := (s.byteAt (pa + 3)).isLt
  unfold State.instrAt
  rw [if_neg (by omega), BitVec.toNat_ofNat]
  exact Nat.mod_eq_of_lt (by omega)

/-- A byte that lies in no live slot is memory's. -/
theorem byteAt_eq_memRead {s : State} {pa : Nat} (h : ∀ t ∈ s.slots, pa < t.pa ∨ t.pa + 16 ≤ pa) : s.byteAt pa = memRead s.mem pa := by
  have hnone : (s.slots.find? fun t => decide (t.pa ≤ pa) && decide (pa < t.pa + 16)) = none := by
    rw [List.find?_eq_none]
    intro t ht
    have := h t ht
    simp only [Bool.and_eq_true, decide_eq_true_eq]
    omega
  unfold State.byteAt
  rw [hnone]

/-- Settles O4: the turn of a seat is the word at its head, which is the word fetched, decoded in the seat's map; a fetch reads its place through the homes. -/
theorem stepRunsDecoded : Obligations.StepRunsDecoded := by
  unfold Obligations.StepRunsDecoded
  refine ⟨?_, ?_, fun s pa h => byteAt_eq_memRead h, ?_⟩
  · intro s k w i hturn hcan hbody hw hi
    rw [step_eq_seatTurn hturn]
    exact seatTurn_eq_exec hturn ((seatStep_eq_headAt hcan hbody).trans (headAt_eq_word hw hi))
  · intro s n k pa pc sec hal hlo hhi htr hpa
    exact ⟨_, fetch_eq_instrAt hal hlo hhi htr, (instrAt_toNat hpa).trans (valueAt_four s pa)⟩
  · intro s n h pa hh hpa
    unfold State.instrAt
    rw [if_pos hpa, hh]

/-! ## Words in a play run (R390) -/

/-- Core 0 with its C seat alone active at the word of its unit, in a play run (R389, R390). -/
def playState : State := (State.reset.placeWord 0x7C000000).modCore 0 fun c => { c with dbg := { c.dbg with dcfg := 7 } }

set_option maxRecDepth 20000 in
/-- SPAWN meets the hypotheses of its clause in that state. -/
theorem playState_spawn : Issues playState .c false (.spawn false 0) ∧ (playState.coreAt playState.cur).handler = none ∧
    playState.playing playState.cur = true := ⟨⟨rfl, rfl⟩, rfl, rfl⟩

/-- A SPAWN of a play run goes on without leaving a record to be read. -/
theorem spawnV_playing {s : State} {u : UnitInfo} (a : BitVec 5) (hh : (s.coreAt s.cur).handler = none) (hu : (s.coreAt s.cur).unit = some u)
    (hp : s.playing s.cur = true) : spawnV a s = .go s .seq := by
  unfold spawnV
  simp only [hh, hu, hp, if_true]

/-- What SPAWN has left to be read stands as it was once the word of a play run has issued. -/
theorem spawn_playing_spawns {s : State} {u : UnitInfo} {st : Bool} {a : BitVec 5} (hi : Issues s .c st (.spawn st a))
    (hh : (s.coreAt s.cur).handler = none) (hu : (s.coreAt s.cur).unit = some u) (hp : s.playing s.cur = true) :
    ∃ t, exec (.spawn st a) s = .next t ∧ (t.coreAt s.cur).spawns = (s.coreAt s.cur).spawns := by
  obtain ⟨t, ht, hpast⟩ := issue_seq (u := s) hi
  refine ⟨t, ?_, (congrArg Core.spawns hpast.core :)⟩
  rw [← ht, ← spawnV_playing a hh hu hp]
  rfl

/-- Refutes O16: its first clause does not leave out a play run, in which a core performs no operation of its own (R390): there SPAWN goes on and
leaves no record to be read. -/
theorem not_unitWords : ¬ Obligations.UnitWords := by
  unfold Obligations.UnitWords
  rintro ⟨hspawn, -⟩
  obtain ⟨hi, hh, hp⟩ := playState_spawn
  obtain ⟨u, hu⟩ : ∃ u, (playState.coreAt playState.cur).unit = some u := ⟨_, rfl⟩
  obtain ⟨t, ht, hpast⟩ := hspawn playState false 0 u hi hh hu
  obtain ⟨t', ht', hs⟩ := spawn_playing_spawns hi hh hu hp
  obtain rfl : t = t' := Host.Outcome.next.inj (ht.symm.trans ht')
  have hone : (t.coreAt playState.cur).spawns = (playState.coreAt playState.cur).spawns ++ [_] :=
    (congrArg Core.spawns hpast.core).trans (congrArg Core.spawns (State.coreAt_modCore ..))
  exact absurd (hs.symm.trans hone) (by simp)

/-- Phase 0 of partition 0, with no node. -/
def playPhase : Phase :=
  { phid := 0, jid := 0, graph := 0, nodes := [], prio := 0, ctx := 0, part := 0, dline := 0, hasdl := false, level := 0, stream := none,
    cmd := { typ := 1, len := 0, resv := false, tag := 0, crec := 0, sigaddr := 0, sigval := 0, sigk := 0, w0 := 0, w1 := 0, w2 := 0, w3 := 0, ring := 0,
             ctx := 0, part := 0, fn := 0 },
    tstart := 0, status := 0, cancelled := false, rejected := false, faults := 0, urun := 0, ucan := 0, pushed := 0, pushedDone := 0, alive := 0, cnt := [],
    nst := [], acq := [], nacq := [] }

/-- The play run of `playState` with that phase on its die, which CNCL of level 3 with c0 names. -/
def playPhaseState : State := playState.modDie .bow fun d => { d with phases := [playPhase] }

set_option maxRecDepth 20000 in
/-- CNCL meets the hypotheses of its clause in that state. -/
theorem playPhaseState_cncl : Issues playPhaseState .c false (.cncl false 0 0 3) ∧
    (playPhaseState.die (dieOf playPhaseState.cur)).phase? (playPhaseState.rdC 0 0) = some playPhase ∧
    playPhase.part = playPhaseState.partOn playPhaseState.cur ∧ playPhaseState.playing playPhaseState.cur = true :=
  ⟨⟨rfl, rfl⟩, rfl, rfl, rfl⟩

theorem DieKept.phases {a b : Die} (h : DieKept a b) : b.phases = a.phases := by
  unfold DieKept at h
  rw [← h]

theorem PackageKept.die {s t : State} (h : PackageKept s t) (d : DieId) : DieKept (s.die d) (t.die d) := by
  cases d
  · exact h.bow
  · exact h.stern

/-- A CNCL of a play run goes on and cancels nothing. -/
theorem cncl_playing_past {s : State} {st : Bool} {a b : BitVec 5} {fn : BitVec 3} (hi : Issues s .c st (.cncl st a b fn))
    (hp : s.playing s.cur = true) : ∃ t, exec (.cncl st a b fn) s = .next t ∧ Past .c ToNext s t := by
  obtain ⟨t, ht, hpast⟩ := issue_seq (u := s) hi
  refine ⟨t, ?_, hpast⟩
  have hv : cnclV a b fn s = .go s .seq := by simp only [cnclV, hp, if_true]
  rw [← ht, ← hv]
  rfl

/-- Refutes O17: its clauses on CNCL do not leave out a play run, in which a core performs no operation of its own (R390): there CNCL goes on and the
phase it names is not cancelled. -/
theorem not_systemWords : ¬ Obligations.SystemWords := by
  unfold Obligations.SystemWords
  rintro ⟨⟨-, hphase⟩, -⟩
  obtain ⟨hi, hph, hpart, hp⟩ := playPhaseState_cncl
  obtain ⟨t, q, ht, hq, hcan, -⟩ := (hphase playPhaseState false 0 0 hi).1 playPhase hph hpart
  obtain ⟨t', ht', hpast⟩ := cncl_playing_past hi hp
  obtain rfl : t = t' := Host.Outcome.next.inj (ht.symm.trans ht')
  have hsame : (t.die (dieOf playPhaseState.cur)).phase? (playPhaseState.rdC 0 0) = some playPhase := by
    rw [← hph]
    unfold Die.phase?
    rw [(hpast.package.die _).phases]
  obtain rfl : playPhase = q := Option.some.inj (hsame.symm.trans hq)
  exact absurd hcan (by decide)

end Sys2Proof
end

section
/-! PROOF. The obligation on copies and rings: a copy whose front has passed its end. -/

namespace Sys2Proof

open Machine Spec

/-- A write of one byte. -/
def oneByteWrite : ChunkWrite := { pa := 0, bytes := [0], cut := false }

/-- A COPY of no bytes, its record being zero, whose front stands at 512 with a loaded chunk that has one write left. -/
def overrunCopy : Copy :=
  { newCopy 0 0 0 0x48 0 with
    st := .move, done := 512
    loads := [{ ixs := [], reads := [], dest := [], loaded := true, chunk := [oneByteWrite], begun := false, cause := 0, zeros := 0 }] }

/-- The reset state with that copy in the engine of core 0. -/
def overrunState : State := State.reset.modCore 0 fun c => { c with copies := [overrunCopy] }

set_option maxRecDepth 20000 in
/-- The write that is left may be performed. -/
theorem overrunState_pending : (overrunState.coreAt 0).copy? overrunCopy.id = some overrunCopy ∧ (overrunState.coreAt 0).cpFrozen = false ∧
    overrunCopy.pending[0]? = some (0, 0, oneByteWrite) ∧ overrunCopy.mayWrite 0 = true ∧ (overrunState.die (dieOf 0)).snap = none ∧
    (overrunState.die (dieOf 0).other).snap = none ∧ overrunState.hitsSlot 0 1 = false ∧ MemInv overrunState :=
  ⟨rfl, rfl, rfl, rfl, rfl, rfl, rfl, rfl⟩

set_option maxRecDepth 20000 in
/-- Behind the write the front stands at the copy's end, which lies before it. -/
theorem overrunState_done : ∃ t, exec (.homeWrite (.copy 0 overrunCopy.id 0)) overrunState = .next t ∧
    ((t.coreAt 0).copy? overrunCopy.id).map Copy.done = some 0 := ⟨_, rfl, rfl⟩

/-- Refutes O47: its third clause asks that the front of a copy never go back, and its hypotheses leave out no copy whose front stands past its end; a
write of such a copy brings the front to the end, as the front never stands past it (`Copy.pop`). -/
theorem not_copyAndRingEvents : ¬ Obligations.CopyAndRingEvents := by
  unfold Obligations.CopyAndRingEvents
  rintro ⟨-, -, hwrite, -⟩
  obtain ⟨hcopy, hfrozen, hpend, hmay, hsnap, hsnap', hslot, hinv⟩ := overrunState_pending
  have hslots : ∀ x ∈ overrunCopy.loads, ∀ b ∈ x.chunk, overrunState.hitsSlot b.pa b.bytes.length = false := by
    simpa [overrunCopy, oneByteWrite] using hslot
  obtain ⟨t, y, ht, -, hy, hle⟩ := hwrite overrunState 0 overrunCopy 0 0 0 oneByteWrite hcopy hfrozen hpend hmay rfl rfl hsnap hsnap' hslots hinv
  obtain ⟨t', ht', hback⟩ := overrunState_done
  obtain rfl : t = t' := Host.Outcome.next.inj (ht.symm.trans ht')
  have hdone : some y.done = some 0 := (congrArg (Option.map Copy.done) hy).symm.trans hback
  obtain hzero : y.done = 0 := Option.some.inj hdone
  have h512 : overrunCopy.done = 512 := rfl
  omega

end Sys2Proof
end

section
/-! PROOF. What the actions of slots leave of the package (R72, R76 to R78): a write at its home counts toward slots, whose actions release waiters, launch
units, walk graphs, post tokens and send chunks. None of them takes a phase, a stream, a job, a graph or a kernel away. -/

namespace Sys2Proof

open Machine Spec

/-! ## The relation -/

/-- A phase goes on: what it was released with stands, a cancel of it stands, and its first status stands (R13, R314). -/
structure PhaseStands (p q : Phase) : Prop where
  phid : q.phid = p.phid
  graph : q.graph = p.graph
  jid : q.jid = p.jid
  prio : q.prio = p.prio
  part : q.part = p.part
  cmd : q.cmd = p.cmd
  tstart : q.tstart = p.tstart
  cancelled : p.cancelled = true → q.cancelled = true
  status : p.status ≠ 0 → q.status = p.status

/-- A stream's entry goes on: what it was taken with stands, and its place on the grid (R336, R338). -/
structure CoxStands (k j : Cox) : Prop where
  e : j.e = k.e
  cmd : j.cmd = k.cmd
  jid : j.jid = k.jid
  part : j.part = k.part
  ctx : j.ctx = k.ctx
  t0 : j.t0 = k.t0
  offset : j.offset = k.offset
  period : j.period = k.period
  nrel : j.nrel = k.nrel

/-- What stands of a die. -/
structure DieStands (a b : Die) : Prop where
  time : b.time = a.time
  jobs : b.jobs = a.jobs
  graphs : b.graphs = a.graphs
  kernels : b.kernels = a.kernels
  phaseCount : b.phaseCount = a.phaseCount
  queuedPh : b.queuedPh = a.queuedPh
  phases : ∃ f : Phase → Phase, (∀ p, PhaseStands p (f p)) ∧ b.phases = a.phases.map f
  cox : ∃ f : Cox → Cox, (∀ k, CoxStands k (f k)) ∧ b.cox = a.cox.map f

/-- What stands of the package. -/
structure Stands (s t : State) : Prop where
  shared : t.shared = s.shared
  parts : t.parts = s.parts
  die : ∀ d, DieStands (s.die d) (t.die d)

/-- As `Stands`, and of each host ring all but its notes to the front end and the cause of RSTAT (R310, R321). -/
structure Acted (s t : State) : Prop extends Stands s t where
  rings : ∀ d r, ∃ w c, t.ring d r = { s.ring d r with wake := w, cause := c }

theorem PhaseStands.refl (p : Phase) : PhaseStands p p := ⟨rfl, rfl, rfl, rfl, rfl, rfl, rfl, id, fun _ => rfl⟩

theorem PhaseStands.trans {p q r : Phase} (h : PhaseStands p q) (g : PhaseStands q r) : PhaseStands p r where
  phid := g.phid.trans h.phid
  graph := g.graph.trans h.graph
  jid := g.jid.trans h.jid
  prio := g.prio.trans h.prio
  part := g.part.trans h.part
  cmd := g.cmd.trans h.cmd
  tstart := g.tstart.trans h.tstart
  cancelled c := g.cancelled (h.cancelled c)
  status c := (g.status (by rw [h.status c]; exact c)).trans (h.status c)

/-- A change of a phase that leaves all that the relation speaks of. -/
theorem PhaseStands.same {p q : Phase} (h : (q.phid, q.graph, q.jid, q.prio, q.part, q.cmd, q.tstart, q.cancelled, q.status) =
    (p.phid, p.graph, p.jid, p.prio, p.part, p.cmd, p.tstart, p.cancelled, p.status)) : PhaseStands p q := by
  simp only [Prod.mk.injEq] at h
  obtain ⟨h1, h2, h3, h4, h5, h6, h7, h8, h9⟩ := h
  exact ⟨h1, h2, h3, h4, h5, h6, h7, fun c => h8.trans c, fun _ => h9⟩

theorem CoxStands.refl (k : Cox) : CoxStands k k := by constructor <;> rfl

theorem CoxStands.trans {k j i : Cox} (h : CoxStands k j) (g : CoxStands j i) : CoxStands k i where
  e := g.e.trans h.e
  cmd := g.cmd.trans h.cmd
  jid := g.jid.trans h.jid
  part := g.part.trans h.part
  ctx := g.ctx.trans h.ctx
  t0 := g.t0.trans h.t0
  offset := g.offset.trans h.offset
  period := g.period.trans h.period
  nrel := g.nrel.trans h.nrel

theorem DieStands.refl (a : Die) : DieStands a a :=
  ⟨rfl, rfl, rfl, rfl, rfl, rfl, ⟨id, .refl, (List.map_id _).symm⟩, ⟨id, .refl, (List.map_id _).symm⟩⟩

theorem DieStands.trans {a b c : Die} (h : DieStands a b) (g : DieStands b c) : DieStands a c := by
  obtain ⟨f, hf, hp⟩ := h.phases
  obtain ⟨f', hf', hp'⟩ := g.phases
  obtain ⟨k, hk, hc⟩ := h.cox
  obtain ⟨k', hk', hc'⟩ := g.cox
  exact ⟨g.time.trans h.time, g.jobs.trans h.jobs, g.graphs.trans h.graphs, g.kernels.trans h.kernels, g.phaseCount.trans h.phaseCount,
    g.queuedPh.trans h.queuedPh, ⟨f' ∘ f, fun p => (hf p).trans (hf' _), by rw [hp', hp, List.map_map]⟩,
    ⟨k' ∘ k, fun p => (hk p).trans (hk' _), by rw [hc', hc, List.map_map]⟩⟩

/-- A change of a die that leaves all that the relation speaks of. -/
theorem DieStands.same {a b : Die} (h : (b.time, b.jobs, b.graphs, b.kernels, b.phaseCount, b.queuedPh, b.phases, b.cox) =
    (a.time, a.jobs, a.graphs, a.kernels, a.phaseCount, a.queuedPh, a.phases, a.cox)) : DieStands a b := by
  simp only [Prod.mk.injEq] at h
  obtain ⟨h1, h2, h3, h4, h5, h6, h7, h8⟩ := h
  exact ⟨h1, h2, h3, h4, h5, h6, ⟨id, .refl, by rw [h7, List.map_id]⟩, ⟨id, .refl, by rw [h8, List.map_id]⟩⟩

/-- A phase of a die goes on. -/
theorem DieStands.modPhase (a : Die) (phid : Dw) (f : Phase → Phase) (h : ∀ p, PhaseStands p (f p)) : DieStands a (a.modPhase phid f) :=
  { DieStands.refl a with phases := ⟨fun p => if p.phid = phid then f p else p, fun p => by dsimp only; split; exacts [h p, .refl p], rfl⟩ }

/-- The streams' entries of a die go on. -/
theorem DieStands.mapCox (a : Die) (f : Cox → Cox) (h : ∀ k, CoxStands k (f k)) : DieStands a { a with cox := a.cox.map f } :=
  { DieStands.refl a with cox := ⟨f, h, rfl⟩ }

theorem Stands.refl (s : State) : Stands s s := ⟨rfl, rfl, fun _ => .refl _⟩

theorem Stands.trans {s t u : State} (h : Stands s t) (g : Stands t u) : Stands s u :=
  ⟨g.shared.trans h.shared, g.parts.trans h.parts, fun d => (h.die d).trans (g.die d)⟩

theorem Acted.refl (s : State) : Acted s s := ⟨.refl s, fun _ _ => ⟨_, _, rfl⟩⟩

theorem Acted.trans {s t u : State} (h : Acted s t) (g : Acted t u) : Acted s u := by
  refine ⟨h.toStands.trans g.toStands, fun d r => ?_⟩
  obtain ⟨w, c, hr⟩ := h.rings d r
  obtain ⟨w', c', hr'⟩ := g.rings d r
  exact ⟨w', c', by rw [hr', hr]⟩

/-- A step that leaves the dies, the partitions and the shared crews. -/
theorem Acted.of_dies {s t : State} (h : (t.bow, t.stern, t.parts, t.shared) = (s.bow, s.stern, s.parts, s.shared)) : Acted s t := by
  simp only [Prod.mk.injEq] at h
  obtain ⟨hb, hs, hp, hh⟩ := h
  have hd : ∀ d, t.die d = s.die d := fun d => by cases d; exacts [hb, hs]
  exact ⟨⟨hh, hp, fun d => by rw [hd]; exact .refl _⟩, fun d r => ⟨_, _, by unfold State.ring; rw [hd]⟩⟩

/-- A step of one die that leaves its rings. -/
theorem Acted.modDie (s : State) (d : DieId) (f : Die → Die) (h : DieStands (s.die d) (f (s.die d))) (hr : (f (s.die d)).rings = (s.die d).rings) :
    Acted s (s.modDie d f) := by
  refine ⟨⟨by simp, by simp, fun e => ?_⟩, fun e r => ⟨(s.ring e r).wake, (s.ring e r).cause, ?_⟩⟩
  · by_cases he : e = d
    · subst he; simpa using h
    · simpa [he] using .refl _
  · by_cases he : e = d
    · subst he; simp [State.ring, hr]
    · simp [State.ring, he]

/-- A step of one die that leaves all that the relation speaks of. -/
theorem Acted.modDie_same (s : State) (d : DieId) (f : Die → Die)
    (h : ((f (s.die d)).time, (f (s.die d)).jobs, (f (s.die d)).graphs, (f (s.die d)).kernels, (f (s.die d)).phaseCount, (f (s.die d)).queuedPh,
        (f (s.die d)).phases, (f (s.die d)).cox) =
      ((s.die d).time, (s.die d).jobs, (s.die d).graphs, (s.die d).kernels, (s.die d).phaseCount, (s.die d).queuedPh, (s.die d).phases, (s.die d).cox))
    (hr : (f (s.die d)).rings = (s.die d).rings) : Acted s (s.modDie d f) := .modDie s d f (.same h) hr

theorem Acted.modPhase (s : State) (d : DieId) (phid : Dw) (f : Phase → Phase) (h : ∀ p, PhaseStands p (f p)) :
    Acted s (s.modDie d fun x => x.modPhase phid f) := .modDie s d _ (.modPhase _ phid f h) rfl

theorem Acted.modCore (s : State) (n : CoreId) (f : Core → Core) : Acted s (s.modCore n f) := .of_dies rfl

theorem Acted.modCtx (s : State) (n : CoreId) (f : Ctx → Ctx) : Acted s (s.modCtx n f) := .of_dies rfl

theorem Acted.outp (s : State) (o : Out) : Acted s (s.outp o) := .of_dies rfl

theorem Acted.ite (c : Prop) [Decidable c] {s t u : State} (ht : Acted s t) (hu : Acted s u) : Acted s (if c then t else u) := by split <;> assumption

theorem Acted.foldl {α : Type} (l : List α) (f : State → α → State) (h : ∀ s x, Acted s (f s x)) (s : State) : Acted s (l.foldl f s) := by
  induction l generalizing s with
  | nil => exact .refl s
  | cons x l ih => exact (h s x).trans (ih (f s x))

end Sys2Proof
end

section
/-! PROOF. The actions of slots, each by the rules of those it is made of. -/

namespace Sys2Proof

open Machine Spec

/-! ## Watchers, slots and counters -/

/-- What a change of a line notes at a ring that watches it. -/
def wokenRing (pa n : Nat) (r : Ring) : Ring :=
  match r.watch with | some l => if overlaps pa n l 64 then { r with wake := true } else r | none => r

/-- What a change of a line does to a die: the rings that watch it are noted. -/
theorem wakeLine_die (s : State) (pa n : Nat) (d : DieId) : ∃ b : Bool, (s.wakeLine pa n).die d =
    if b then { s.die d with rings := (s.die d).rings.map (wokenRing pa n) } else s.die d := by
  unfold State.wakeLine
  cases d
  · refine ⟨s.bow.rings.toList.any fun r => match r.watch with | some l => overlaps pa n l 64 | none => false, ?_⟩
    show ite _ _ _ = _
    dsimp only
    split <;> rfl
  · refine ⟨s.stern.rings.toList.any fun r => match r.watch with | some l => overlaps pa n l 64 | none => false, ?_⟩
    show ite _ _ _ = _
    dsimp only
    split <;> rfl

theorem wokenRing_eq (pa n : Nat) (r : Ring) : ∃ w, wokenRing pa n r = { r with wake := w } := by
  unfold wokenRing
  split
  · split <;> exact ⟨_, rfl⟩
  · exact ⟨_, rfl⟩

theorem Acted.wakeLine (s : State) (pa n : Nat) : Acted s (s.wakeLine pa n) := by
  have hshape : (s.wakeLine pa n).parts = s.parts ∧ (s.wakeLine pa n).shared = s.shared := by
    unfold State.wakeLine
    dsimp only
    split <;> exact ⟨rfl, rfl⟩
  refine ⟨⟨hshape.2, hshape.1, fun d => ?_⟩, fun d r => ?_⟩
  · obtain ⟨b, hb⟩ := wakeLine_die s pa n d
    rw [hb]
    cases b <;> exact .same rfl
  · obtain ⟨b, hb⟩ := wakeLine_die s pa n d
    obtain ⟨w, hw⟩ := wokenRing_eq pa n (s.ring d r)
    cases b
    · exact ⟨_, _, by unfold State.ring; rw [hb]; rfl⟩
    · refine ⟨w, (s.ring d r).cause, ?_⟩
      unfold State.ring at hw ⊢
      rw [hb, if_pos rfl, Vector.get_eq_getElem, Vector.getElem_map, ← Vector.get_eq_getElem, hw]

theorem Acted.modSlot (s : State) (pa : Nat) (f : Slot → Slot) : Acted s (s.modSlot pa f) := by
  have hset : Acted s { s with slots := s.slots.map fun t => if t.pa = pa then f t else t } := .of_dies rfl
  exact .ite _ (hset.trans (.wakeLine _ pa 16)) hset

theorem Acted.countDie (s : State) (d : DieId) (code inc : Nat) : Acted s (s.countDie d code inc) := .modDie_same s d _ rfl rfl

theorem Acted.crosses (s : State) (d : DieId) : Acted s (s.crosses d) := (Acted.countDie ..).trans (.countDie ..)

theorem Acted.hold (s : State) (d : DieId) (l : Link) (i : Msg) : Acted s (s.hold d l i) := .modDie_same s d _ (by rfl) (by rfl)

theorem Acted.freezeQueue (s : State) (d : DieId) (q : Fin 64) : Acted s (s.freezeQueue d q) :=
  .ite _ (.refl s) ((Acted.modDie_same s d _ (by rfl) (by rfl)).trans (.outp ..))

theorem Acted.freezeFunction (s : State) (d : DieId) (fn : Fin 33) : Acted s (s.freezeFunction d fn) :=
  .ite _ (.refl s) ((Acted.modDie_same s d _ (by rfl) (by rfl)).trans (.outp ..))

theorem Acted.actionFault (s : State) (d : DieId) (t : Slot) (cause : Nat) : Acted s (s.actionFault d t cause) := (Acted.countDie ..).trans (.outp ..)

theorem Acted.logEntry (s : State) (n : CoreId) (kind : Nat) (k : SeatId) (idx val : Nat) (data : List Byte) :
    Acted s (s.logEntry n kind k idx val data) := .ite _ (.refl s) (.of_dies rfl)

theorem Acted.raise (s : State) (n : CoreId) (k : SeatId) (c : Cause) (tval tpc : Dw) (issued : Bool) : Acted s (s.raise n k c tval tpc issued) :=
  .of_dies rfl

/-! ## Units, tasks and the walk of a graph -/

theorem pushTask_stood (a : Die) (t : Task) : ((a.pushTask t).time, (a.pushTask t).jobs, (a.pushTask t).graphs, (a.pushTask t).kernels,
    (a.pushTask t).phaseCount, (a.pushTask t).queuedPh, (a.pushTask t).phases, (a.pushTask t).cox) =
      (a.time, a.jobs, a.graphs, a.kernels, a.phaseCount, a.queuedPh, a.phases, a.cox) := by
  unfold Die.pushTask Die.levelStart
  dsimp only
  (repeat' split) <;> rfl

theorem pushTask_rings (a : Die) (t : Task) : (a.pushTask t).rings = a.rings := by
  unfold Die.pushTask Die.levelStart
  dsimp only
  (repeat' split) <;> rfl

theorem Acted.pushUnit (s : State) (d : DieId) (r : UnitRec) (part : Fin 32) (ctx : Fin 64) (prio : BitVec 4) (dline phid : Dw) (jid : Word)
    (acq : List (Nat × Nat)) : Acted s (s.pushUnit d r part ctx prio dline phid jid acq) := by
  refine Acted.trans ?_ (.modDie_same _ d _ (pushTask_stood ..) (pushTask_rings ..))
  exact .modPhase s _ phid _ fun p => by exact .same rfl

theorem phaseStands_stopWith (p : Phase) (st : Nat) : PhaseStands p (p.stopWith st) :=
  { PhaseStands.refl p with cancelled := fun _ => rfl, status := fun h => if_neg h }

theorem DieStands.handUnits (a : Die) (p : Phase) (n : Nat) (nd : Node) : DieStands a (a.handUnits p n nd) := by
  have hlid : DieStands a a.takeLid.2 := .same rfl
  refine hlid.trans (DieStands.trans ?_ (.same (pushTask_stood ..)))
  exact .modPhase a.takeLid.2 p.phid _ fun q => by exact .same rfl

theorem handUnits_rings (a : Die) (p : Phase) (n : Nat) (nd : Node) : (a.handUnits p n nd).rings = a.rings := pushTask_rings ..

/-- A piece of a graph walk leaves what stands of the die, and its rings. -/
structure DieActs (a b : Die) : Prop extends DieStands a b where
  rings : b.rings = a.rings

theorem DieActs.refl (a : Die) : DieActs a a := ⟨.refl a, rfl⟩

theorem DieActs.trans {a b c : Die} (h : DieActs a b) (g : DieActs b c) : DieActs a c := ⟨h.toDieStands.trans g.toDieStands, g.rings.trans h.rings⟩

theorem DieActs.modPhase (a : Die) (phid : Dw) (f : Phase → Phase) (h : ∀ p, PhaseStands p (f p)) : DieActs a (a.modPhase phid f) :=
  ⟨.modPhase a phid f h, rfl⟩

theorem DieActs.launchUnits (a : Die) (share : Nat) (p : Phase) (n : Nat) (nd : Node) : DieActs a (a.launchUnits share p n nd) := by
  unfold Die.launchUnits
  split
  · exact (DieActs.modPhase a p.phid (fun q => { q with nst := q.nst.set n .queued }) fun q => .same rfl).trans ⟨.same rfl, rfl⟩
  · exact ⟨.handUnits .., handUnits_rings ..⟩

theorem DieActs.ite_fst {a : Die} {α : Type} (c : Prop) [Decidable c] {x y : Die × α} (hx : DieActs a x.1) (hy : DieActs a y.1) :
    DieActs a (if c then x else y).1 := by split <;> assumption

theorem nodeStep_acts (a : Die) (share : Nat) (acq : List (Nat × Nat)) (phid : Dw) (w : NodeWork) : DieActs a (a.nodeStep share acq phid w).1 := by
  unfold Die.nodeStep
  split
  · exact .refl a
  · cases w with
    | launch n =>
      dsimp only
      split
      · exact .refl a
      · refine .ite_fst _ ?_ (.ite_fst _ (.refl a) (.ite_fst _ ?_ (.ite_fst _ ?_ ?_)))
        · exact .modPhase a phid _ fun q => by exact .same rfl
        · exact .modPhase a phid _ fun q => (phaseStands_stopWith q 4).trans (by exact .same rfl)
        · exact .modPhase a phid _ fun q => (phaseStands_stopWith q 4).trans (by exact .same rfl)
        · refine DieActs.trans ?_ (.launchUnits ..)
          exact .modPhase a phid _ fun q => by exact .same rfl
    | complete n => exact .modPhase a phid _ fun q => by exact .same rfl
    | dec n =>
      dsimp only
      split
      · exact .refl a
      · exact .modPhase a phid _ fun q => by exact .same rfl

theorem runNodes_acts (share : Nat) (acq : List (Nat × Nat)) (phid : Dw) (fuel : Nat) (a : Die) (l : List NodeWork) :
    DieActs a (Die.runNodes share acq phid fuel a l) := by
  induction fuel generalizing a l with
  | zero => exact .refl a
  | succ fuel ih =>
    cases l with
    | nil => exact .refl a
    | cons w l => exact (nodeStep_acts a share acq phid w).trans (ih _ _)

theorem Acted.setDie (s : State) (d : DieId) (x : Die) (h : DieActs (s.die d) x) : Acted s (s.setDie d x) :=
  .modDie s d (fun _ => x) h.toDieStands h.rings

theorem Acted.walk (s : State) (d : DieId) (phid : Dw) (work : List NodeWork) (acq : List (Nat × Nat)) : Acted s (s.walk d phid work acq) := by
  unfold State.walk
  split
  · exact .refl s
  · exact .setDie s d _ (runNodes_acts ..)

/-! ## Cancellation -/

/-- A first status stays (R314). -/
theorem phaseStands_status {p q : Phase} (st : Nat) (c : Prop) [Decidable c] (h : PhaseStands p { q with status := p.status })
    (hq : q.status = if c ∧ p.status = 0 then st else p.status) : PhaseStands p q :=
  { h with status := fun hp => by rw [hq, if_neg fun e => hp e.2] }

theorem Acted.unitDone (s : State) (d : DieId) (phid : Dw) (lid : Word) (run fault : Bool) (status : Nat) :
    Acted s (s.unitDone d phid lid run fault status) := by
  have hcount : ∀ u : State, Acted u ((u.modDie (u.phaseHome d phid) fun x => x.modPhase phid fun p =>
      { p with urun := if run then sat32 (p.urun + 1) else p.urun, ucan := if run then p.ucan else sat32 (p.ucan + 1),
               faults := if fault then sat32 (p.faults + 1) else p.faults, alive := p.alive - 1,
               status := if status ≠ 0 ∧ p.status = 0 then status else p.status }).modDie d fun x => x.modLaunch lid fun l => { l with done := l.done + 1 }) :=
    fun u => by
      refine Acted.trans ?_ (.modDie_same _ d _ rfl rfl)
      refine .modPhase u _ phid _ fun p => ?_
      exact phaseStands_status status _ (.same rfl) rfl
  unfold State.unitDone
  dsimp only
  split
  · split
    · split
      · exact (hcount s).trans (.walk ..)
      · refine (hcount s).trans ?_
        exact .modPhase _ _ phid _ fun p => by exact .same rfl
    · exact hcount s
  · exact hcount s

theorem Acted.cancelUnits (s : State) (d : DieId) (phid : Dw) (lid : Word) (n : Nat) : Acted s (s.cancelUnits d phid lid n) := by
  induction n generalizing s with
  | zero => exact .refl s
  | succ n ih => exact (Acted.unitDone ..).trans (ih _)

theorem Acted.cancelTasks (s : State) (d : DieId) (sel : Task → Bool) : Acted s (s.cancelTasks d sel) := by
  refine Acted.trans ?_ (.foldl _ _ (fun u t => .cancelUnits ..) _)
  exact .modDie_same s d _ rfl rfl

theorem Acted.dropWaiters (s : State) (gone : Waiter → Bool) : Acted s (s.dropWaiters gone) :=
  .foldl _ _ (fun u _ => .ite _ (.modSlot ..) (.refl u)) s

theorem Acted.cancelParked (s : State) (d : DieId) (sel : ContRec → Bool) : Acted s (s.cancelParked d sel) := by
  refine Acted.trans ?_ (.foldl _ _ (fun u p => .unitDone ..) _)
  exact (Acted.dropWaiters ..).trans (.of_dies rfl)

theorem Acted.cancelHeld (s : State) (d : DieId) (sel : UnitInfo → Bool) : Acted s (s.cancelHeld d sel) := by
  unfold State.cancelHeld
  exact .of_dies rfl

theorem Acted.cancelRunning (s : State) (d : DieId) (sel : UnitInfo → Bool) : Acted s (s.cancelRunning d sel) := by
  unfold State.cancelRunning
  exact .of_dies rfl

theorem Acted.cancelAll (s : State) (d : DieId) (phOk : Dw → Bool) (lidOk : Word → Bool) : Acted s (s.cancelAll d phOk lidOk) := by
  unfold State.cancelAll
  dsimp only
  exact (Acted.cancelTasks ..).trans ((Acted.cancelParked ..).trans ((Acted.cancelHeld ..).trans (.cancelRunning ..)))

/-- A launch that waits for a task entry is counted as cancelled (R13). -/
def countWaiting (p : Phase) (w : Dw × Nat) : Phase :=
  { p with nst := p.nst.set w.2 .cancelled, ucan := sat32 (p.ucan + (match p.nodes[w.2]? with | some n => n.units | none => 0)) }

theorem phaseStands_countWaiting (l : List (Dw × Nat)) (p : Phase) : PhaseStands p (l.foldl countWaiting p) := by
  induction l generalizing p with
  | nil => exact .refl p
  | cons w l ih =>
    have hone : PhaseStands p (countWaiting p w) := .same rfl
    exact hone.trans (ih _)

theorem DieStands.cancelPhase (a : Die) (phid : Dw) (status : Nat) (l w : List (Dw × Nat)) :
    DieStands a ({ a with waitLaunch := w }.modPhase phid fun p => l.foldl countWaiting (p.stopWith status)) := by
  have hwait : DieStands a { a with waitLaunch := w } := .same rfl
  exact hwait.trans (.modPhase _ phid _ fun p => (phaseStands_stopWith p status).trans (phaseStands_countWaiting l _))

theorem Acted.cancelPhase (s : State) (d : DieId) (phid : Dw) (status : Nat) : Acted s (s.cancelPhase d phid status) := by
  unfold State.cancelPhase
  dsimp only
  refine Acted.trans ?_ ((Acted.cancelAll _ d _ _).trans (.cancelAll _ d.other _ _))
  exact .modDie s d _ (.cancelPhase ..) rfl

theorem Acted.sweepPhase (s : State) (d : DieId) (phid : Dw) : Acted s (s.sweepPhase d phid) := by
  unfold State.sweepPhase
  split
  · refine .ite _ (Acted.trans ?_ (.cancelPhase ..)) (.refl s)
    exact .modPhase s d phid _ fun p => by exact .same rfl
  · exact .refl s

theorem Acted.sweepAll (s : State) (d : DieId) : Acted s (s.sweepAll d) := .foldl _ _ (fun _ _ => .sweepPhase ..) s

/-! ## The actions of a slot (R76 to R78, R92) -/

/-- A launch action that fails counts a fault of its phase, where there is one (R78). -/
theorem Acted.launchFault (s : State) (d home : DieId) (t : Slot) (phid : Dw) (ph : Option Phase) : Acted s ((match ph with
    | some _ => s.modDie home fun x => x.modPhase phid fun p => { p with faults := sat32 (p.faults + 1) }
    | none => s).actionFault d t 4) := by
  refine Acted.trans ?_ (.actionFault ..)
  split
  · exact .modPhase s home phid _ fun p => by exact .same rfl
  · exact .refl s

theorem Acted.launchNow (s : State) (d : DieId) (t : Slot) (read : Option (BitVec 512)) : Acted s (s.launchNow d t read) := by
  unfold State.launchNow
  refine .ite _ (.launchFault ..) ?_
  split
  · exact .launchFault ..
  · exact .ite _ (.launchFault ..) (.ite _ (.actionFault ..) (.pushUnit ..))

theorem Acted.launchAction (s : State) (d : DieId) (t : Slot) : Acted s (s.launchAction d t) := .ite _ (.hold ..) (.launchNow ..)

theorem Acted.nodeAction (s : State) (d : DieId) (t : Slot) : Acted s (s.nodeAction d t) := by
  unfold State.nodeAction
  dsimp only
  split
  · exact .actionFault ..
  · exact .ite _ (.actionFault ..) ((Acted.walk ..).trans (.sweepPhase ..))

theorem Acted.outsidePost (s : State) (n : CoreId) (k : BitVec 4) (v : Nat) : Acted s (s.outsidePost n k v) := by
  refine Acted.trans ?_ (.foldl _ _ (fun u q => .logEntry ..) _)
  exact (Acted.logEntry s n 5 .c k.toNat v []).trans (.modCtx ..)

theorem Acted.tokenPost (s : State) (d : DieId) (t : Slot) (core : CoreId) (k : BitVec 4) (n : Nat) : Acted s (s.tokenPost d t core k n) :=
  .ite _ (.actionFault ..) (.ite _ (.refl s) (.outsidePost ..))

theorem Acted.tokenAction (s : State) (d : DieId) (t : Slot) : Acted s (s.tokenAction d t) := by
  unfold State.tokenAction
  dsimp only
  split
  · exact .ite _ (.hold ..) (.tokenPost ..)
  · exact .actionFault ..

theorem Acted.sendOp (s : State) (d : DieId) (sid : Nat) (bytes : List Byte) : Acted s (s.sendOp d sid bytes) := by
  unfold State.sendOp
  split
  · exact (Acted.countDie ..).trans (.outp ..)
  · exact .refl s

theorem Acted.modSession (s : State) (d : DieId) (sid : Nat) (f : Session → Session) : Acted s (s.modDie d fun y => y.modSession sid f) :=
  .modDie_same s d _ rfl rfl

theorem Acted.regionSend (s : State) (d : DieId) (sid pa n : Nat) : Acted s (s.regionSend d sid pa n) := by
  unfold State.regionSend
  dsimp only
  split
  · exact .refl s
  · refine .ite _ (.refl s) (.ite _ (.countDie ..) ?_)
    refine Acted.trans (.ite _ (.refl s) (.freezeQueue ..)) ((Acted.modSession ..).trans (.ite _ (.sendOp ..) ?_))
    exact .modDie_same _ d _ rfl rfl

theorem Acted.wakeWaiter (s : State) (pa : Nat) (ph : Bool) (at_ : Nat) (w : Waiter) : Acted s (s.wakeWaiter pa ph at_ w) := by
  cases w with
  | await n =>
    simp only [State.wakeWaiter]
    split
    · exact .ite _ ((Acted.modCtx ..).trans (.logEntry ..)) (.refl s)
    · exact .refl s
  | park n => exact .refl s
  | parked id =>
    simp only [State.wakeWaiter]
    split
    · exact .refl s
    · refine Acted.trans ?_ (.modDie_same _ _ _ (pushTask_stood ..) (pushTask_rings ..))
      exact .of_dies rfl
  | copy n id => exact .of_dies rfl
  | cox d e =>
    simp only [State.wakeWaiter]
    refine .modDie s d _ (.mapCox _ _ fun k => ?_) rfl
    split
    · constructor <;> rfl
    · exact .refl k

theorem Acted.releaseWaiter (s : State) (pa : Nat) (ph : Bool) (w : Waiter) : Acted s (s.releaseWaiter pa ph w) := by
  unfold State.releaseWaiter
  split
  · exact .ite _ (.hold ..) (.wakeWaiter ..)
  · exact .refl s

theorem Acted.slotAction (s : State) (d : DieId) (t : Slot) : Acted s (s.slotAction d t) := by
  unfold State.slotAction
  refine .ite _ (.actionFault ..) ?_
  split
  · split
    · exact .launchAction ..
    · exact .nodeAction ..
  · exact .regionSend ..
  · exact .tokenAction ..
  · exact .ite _ (.regionSend ..) (.refl s)
  · exact .refl s

theorem Acted.completeSlot (s : State) (d : DieId) (pa : Nat) (above : Bool) : Acted s (s.completeSlot d pa above) := by
  unfold State.completeSlot
  split
  · exact .refl s
  · dsimp only
    refine Acted.trans ?_ (.slotAction ..)
    refine Acted.trans ?_ (.modSlot ..)
    refine Acted.trans ?_ (.foldl _ _ (fun u w => .releaseWaiter ..) _)
    refine Acted.trans ?_ (.countDie ..)
    refine Acted.trans ?_ (.modSlot ..)
    exact .of_dies rfl

theorem Acted.countBytes (s : State) (d : DieId) (pa n : Nat) : Acted s (s.countBytes d pa n) := by
  unfold State.countBytes
  split
  · exact .refl s
  · exact .ite _ (.refl s) (.ite _ (.completeSlot ..) (.modSlot ..))

theorem Acted.deadline (s : State) (d : DieId) (pa : Nat) : Acted s (s.deadline d pa) := by
  unfold State.deadline
  split
  · exact .refl s
  · exact .ite _ ((Acted.countDie ..).trans (.modSlot ..)) (.refl s)

theorem Acted.countWrite (s : State) (pa n : Nat) (t : Slot) : Acted s (s.countWrite pa n t) := by
  unfold State.countWrite
  refine .ite _ (.refl s) ?_
  dsimp only
  refine Acted.trans (.deadline s ((homeDie t.pa).getD .bow) t.pa) ?_
  split
  · exact .refl _
  · refine Acted.trans ?_ (.countBytes ..)
    exact (Acted.modSlot ..).trans (.of_dies rfl)

theorem Acted.countAccess (s : State) (pa k : Nat) : Acted s (s.countAccess pa k) := by
  unfold State.countAccess
  split
  · exact .countDie ..
  · exact .countDie ..
  · exact .refl s

theorem Acted.clearPoison (s : State) (pa n : Nat) : Acted s (s.clearPoison pa n) := .of_dies rfl

theorem Acted.homeStore (s : State) (pa : Nat) (bytes : List Byte) : Acted s (s.homeStore pa bytes) := by
  unfold State.homeStore
  dsimp only
  refine Acted.trans ?_ (.foldl _ _ (fun u t => .countWrite ..) _)
  refine Acted.trans ?_ (.wakeLine ..)
  refine Acted.trans ?_ (.clearPoison ..)
  refine Acted.trans ?_ (.countAccess ..)
  exact .of_dies rfl

theorem Acted.credit (s : State) (pa n : Nat) : Acted s (s.credit pa n) := by
  unfold State.credit
  dsimp only
  refine (Acted.deadline s ((homeDie pa).getD .bow) pa).trans ?_
  split
  · exact .outp ..
  · exact .ite _ (.ite _ (.modSlot ..) (.refl _)) (.countBytes ..)

end Sys2Proof
end

section
/-! PROOF. The host's commands (R312, R315 to R318, R336): what answering one leaves, and the effect of each. -/

namespace Sys2Proof

open Machine Spec

/-! ## Rings, records and signals -/

@[simp] theorem ring_modRing (s : State) (d : DieId) (r : Fin 64) (f : Ring → Ring) : (s.modRing d r f).ring d r = f (s.ring d r) := by
  simp [State.modRing, State.ring, Vector.get_eq_getElem]

theorem ring_modRing_ne (s : State) (d e : DieId) (r q : Fin 64) (f : Ring → Ring) (h : ¬(e = d ∧ q = r)) :
    (s.modRing d r f).ring e q = s.ring e q := by
  unfold State.modRing State.ring
  by_cases he : e = d
  · subst he
    have hq : r.val ≠ q.val := fun hv => h ⟨rfl, (Fin.ext hv).symm⟩
    rw [State.die_modDie]
    simp only [Vector.get_eq_getElem]
    exact Vector.getElem_set_ne r.isLt q.isLt hq
  · rw [State.die_modDie_ne _ _ _ _ he]

theorem Stands.modRing (s : State) (d : DieId) (r : Fin 64) (f : Ring → Ring) : Stands s (s.modRing d r f) := by
  refine ⟨by simp [State.modRing], by simp [State.modRing], fun e => ?_⟩
  unfold State.modRing
  by_cases he : e = d
  · subst he
    rw [State.die_modDie]
    exact .same rfl
  · rw [State.die_modDie_ne _ _ _ _ he]
    exact .refl _

theorem Acted.ringCause (s : State) (d : DieId) (r : Fin 64) (c : Nat) : Acted s (s.ringCause d r c) := by
  refine ⟨.modRing .., fun e q => ?_⟩
  unfold State.ringCause
  by_cases h : e = d ∧ q = r
  · obtain ⟨rfl, rfl⟩ := h
    exact ⟨_, _, ring_modRing ..⟩
  · exact ⟨_, _, ring_modRing_ne _ _ _ _ _ _ h⟩

theorem Acted.writeCrec (s : State) (d : DieId) (c : Cmd) (r : Crec) : Acted s (s.writeCrec d c r) := by
  unfold State.writeCrec
  refine .ite _ (.refl s) ?_
  split
  · exact .ite _ (.ringCause ..) (.homeStore ..)
  · exact .ringCause ..

theorem Acted.signal (s : State) (d : DieId) (c : Cmd) : Acted s (s.signal d c) := by
  unfold State.signal
  split
  · split
    · exact .ite _ (.ringCause ..) (.homeStore ..)
    · exact .ringCause ..
  · split
    · exact .credit ..
    · exact .ringCause ..
  · exact .outp ..
  · exact .refl s

theorem Acted.complete (s : State) (d : DieId) (c : Cmd) (r : Crec) : Acted s (s.complete d c r) := (Acted.writeCrec ..).trans (.signal ..)

/-! ## The answer to a command -/

theorem Stands.ringFail (s : State) (d : DieId) (r : Fin 64) (cause : Nat) : Stands s (s.ringFail d r cause) :=
  (Stands.modRing ..).trans (Acted.outp ..).toStands

theorem Stands.storedRing (s : State) (pa : Nat) (bytes : List Byte) (d : DieId) (r : Fin 64) (f : Ring → Ring) :
    Stands s ((s.homeStore pa bytes).modRing d r f) := (Acted.homeStore ..).toStands.trans (.modRing ..)

theorem Stands.ringAdvance (s : State) (d : DieId) (c : Cmd) : Stands s (s.ringAdvance d c) := by
  unfold State.ringAdvance
  dsimp only
  split
  · exact .ringFail ..
  · exact (Stands.modRing ..).trans (Acted.freezeFunction ..).toStands
  · split
    · exact .storedRing ..
    · split
      · exact (Stands.storedRing ..).trans (.modRing ..)
      · exact (Stands.storedRing ..).trans (.ringFail ..)
      · exact (Stands.storedRing ..).trans ((Stands.modRing ..).trans (Acted.freezeFunction ..).toStands)

theorem Stands.cmdDone (s : State) (d : DieId) (c : Cmd) : Stands s (s.cmdDone d c) := by
  unfold State.cmdDone
  split
  · exact .ringAdvance ..
  · exact .refl s

/-- An answer leaves what stands of the package, whether its record is written or its function is frozen (R307, R313). -/
theorem Stands.answer (s : State) (d : DieId) (c : Cmd) (status : Nat) (jid : Word) (graph : Nat) : Stands s (s.answer d c status jid graph) := by
  unfold State.answer
  split
  · exact (Acted.freezeFunction ..).toStands
  · exact (Acted.complete ..).toStands.trans (.cmdDone ..)

/-! ## A command that its ring carries out -/

theorem cmdBad_of_due {s : State} {d : DieId} {c : Cmd} {typ : Nat} (h : due s d c typ) : cmdBad c = false := by
  obtain ⟨-, -, hresv, hlen, hsigk⟩ := h
  simp [cmdBad, hresv, hsigk, Nat.not_lt.mpr hlen]

/-- A command that is due, of the type asked for, whose accesses keep protection, has its effect. -/
theorem carry_of_due {s : State} {d : DieId} {c : Cmd} {mine breaks : Bool} (t : State) (hdue : s.cmdDue d c = true) (hmine : mine = true)
    (hrec : s.recBreaks d c = false) (hbr : breaks = false) : s.carry d c mine breaks t = t := by
  simp [State.carry, hdue, hmine, hrec, hbr]

/-! ## What stands of a die, looked up -/

theorem DieStands.graph? {a b : Die} (h : DieStands a b) (g : Nat) : b.graph? g = a.graph? g := by simp [Die.graph?, h.graphs]

theorem DieStands.kernel? {a b : Die} (h : DieStands a b) (x : Fin 64) (p : Dw) : b.kernel? x p = a.kernel? x p := by simp [Die.kernel?, h.kernels]

theorem DieStands.job? {a b : Die} (h : DieStands a b) (p : Fin 32) (j : Word) : b.job? p j = a.job? p j := by simp [Die.job?, h.jobs]

/-- A phase of the die is still found by its id. -/
theorem DieStands.phase? {a b : Die} (h : DieStands a b) {phid : Dw} {p : Phase} (hp : a.phase? phid = some p) :
    ∃ q, b.phase? phid = some q ∧ PhaseStands p q := by
  obtain ⟨f, hf, hb⟩ := h.phases
  refine ⟨f p, ?_, hf p⟩
  have hcomp : ((fun q : Phase => decide (q.phid = phid)) ∘ f) = fun q : Phase => decide (q.phid = phid) := by
    funext q
    simp [(hf q).phid]
  unfold Die.phase? at hp ⊢
  rw [hb, List.find?_map, hcomp, hp]
  rfl

/-- A phase of the die still stands. -/
theorem DieStands.mem_phases {a b : Die} (h : DieStands a b) {p : Phase} (hp : p ∈ a.phases) : ∃ q ∈ b.phases, PhaseStands p q := by
  obtain ⟨f, hf, hb⟩ := h.phases
  exact ⟨f p, hb ▸ List.mem_map_of_mem hp, hf p⟩

/-- A stream's entry still stands. -/
theorem DieStands.mem_cox {a b : Die} (h : DieStands a b) {k : Cox} (hk : k ∈ a.cox) : ∃ j ∈ b.cox, CoxStands k j := by
  obtain ⟨f, hf, hb⟩ := h.cox
  exact ⟨f k, hb ▸ List.mem_map_of_mem hk, hf k⟩

theorem find?_append_singleton_self {α : Type} {p : α → Bool} {l : List α} {x : α} (h : l.find? p = none) (hx : p x = true) :
    (l ++ [x]).find? p = some x := by simp [List.find?_append, h, hx]

/-! ## JOB -/

theorem job?_modJob {x : Die} {p : Fin 32} {j : Word} {k : Job} (f : Job → Job) (h : x.job? p j = some k)
    (hf : ∀ k, (f k).jid = k.jid ∧ (f k).part = k.part) : (x.modJob p j f).job? p j = some (f k) := by
  unfold Die.job? Die.modJob at *
  have hk := List.find?_some h
  have hcomp : ((fun k : Job => decide (k.jid = j) && decide (k.part = p)) ∘ fun k => if k.jid = j ∧ k.part = p then f k else k) =
      fun k : Job => decide (k.jid = j) && decide (k.part = p) := by
    funext k
    dsimp only [Function.comp]
    split
    · rw [(hf k).1, (hf k).2]
    · rfl
  rw [List.find?_map, hcomp, h]
  simp only [Bool.and_eq_true, decide_eq_true_eq] at hk
  simp [hk]

/-- A command whose effect leaves a job answers with the job as it is then. -/
theorem jobOf_answer (s : State) (d : DieId) (c : Cmd) (j : Word) (status : Nat) (jid : Word) (graph : Nat) :
    jobOf (s.answer d c status jid graph) d c j = jobOf s d c j := ((Stands.answer s d c status jid graph).die d).job? ..

theorem jobOpen_new {s : State} {d : DieId} {c : Cmd} (h : carries s d c 7) (hw : c.w0.getLsbD 0 = false)
    (hj : jobOf s d c (c.w1.setWidth 32) = none) : ∃ t, exec (.jobOpen d c) s = .next t ∧
      jobOf t d c (c.w1.setWidth 32) = some { jid := c.w1.setWidth 32, part := c.part, isOpen := true, total := 0, done := 0 } := by
  obtain ⟨hdue, hrec⟩ := h
  refine ⟨_, rfl, ?_⟩
  unfold State.jobOpenCmd
  have hnone : (s.die d).job? c.part (c.w1.setWidth 32) = none := hj
  rw [carry_of_due _ hdue.1 (by rw [hdue.2.1, hw]; rfl) hrec rfl]
  simp only [cmdBad_of_due hdue, hnone, Bool.false_eq_true, if_false]
  rw [jobOf_answer]
  unfold jobOf Die.job? at hj ⊢
  rw [State.die_modDie]
  exact find?_append_singleton_self hj (by simp)

theorem jobOpen_again {s : State} {d : DieId} {c : Cmd} {j : Job} (h : carries s d c 7) (hw : c.w0.getLsbD 0 = false)
    (hj : jobOf s d c (c.w1.setWidth 32) = some j) (hclosed : j.isOpen = false) : ∃ t, exec (.jobOpen d c) s = .next t ∧
      jobOf t d c (c.w1.setWidth 32) = some (if j.done = j.total then { j with isOpen := true, total := 0, done := 0 } else { j with isOpen := true }) := by
  obtain ⟨hdue, hrec⟩ := h
  refine ⟨_, rfl, ?_⟩
  unfold State.jobOpenCmd
  have hsome : (s.die d).job? c.part (c.w1.setWidth 32) = some j := hj
  rw [carry_of_due _ hdue.1 (by rw [hdue.2.1, hw]; rfl) hrec rfl]
  simp only [cmdBad_of_due hdue, hsome, hclosed, Bool.false_eq_true, if_false]
  rw [jobOf_answer]
  unfold jobOf
  rw [State.die_modDie]
  exact job?_modJob _ hsome fun k => by split <;> exact ⟨rfl, rfl⟩

theorem jobClose_closes {s : State} {d : DieId} {c : Cmd} {j : Job} (h : carries s d c 7) (hw : c.w0.getLsbD 0 = true)
    (hj : jobOf s d c (c.w1.setWidth 32) = some j) (hopen : j.isOpen = true) : ∃ t, exec (.jobClose d c) s = .next t ∧
      jobOf t d c (c.w1.setWidth 32) = some { j with isOpen := false } := by
  obtain ⟨hdue, hrec⟩ := h
  refine ⟨_, rfl, ?_⟩
  unfold State.jobCloseCmd
  have hsome : (s.die d).job? c.part (c.w1.setWidth 32) = some j := hj
  rw [carry_of_due _ hdue.1 (by simp [hdue.2.1, hw]) hrec rfl]
  simp only [cmdBad_of_due hdue, hsome, hopen, Bool.not_true, Bool.or_self, Bool.false_eq_true, if_false]
  rw [jobOf_answer]
  unfold jobOf
  rw [State.die_modDie]
  exact job?_modJob _ hsome fun k => ⟨rfl, rfl⟩

/-! ## GLOAD, GFREE, KLOAD, KFREE -/

theorem gload_loads {s : State} {d : DieId} {c : Cmd} {nodes : List Node} (h : carries s d c 3) (hnone : (s.die d).graph? (c.w0.toNat % 4096) = none)
    (hal : c.w1.toNat % 64 = 0) (hroom : ((s.die d).graphs.map fun k => k.bytes).sum + c.w2.toNat % 2 ^ 32 ≤ 8 * 2 ^ 20)
    (hnodes : ((s.feBytes d c.ctx c.part c.w1 (c.w2.toNat % 2 ^ 32)).bind fun b => graphNodes (s.die d) c.ctx b) = some nodes)
    (hbr : s.gloadBreaks d c = false) : ∃ t, exec (.gload d c) s = .next t ∧ (t.die d).graph? (c.w0.toNat % 4096) =
      some { num := c.w0.toNat % 4096, ctx := c.ctx, bytes := c.w2.toNat % 2 ^ 32, nodes := nodes } := by
  obtain ⟨hdue, hrec⟩ := h
  refine ⟨_, rfl, ?_⟩
  unfold State.gloadCmd
  rw [carry_of_due _ hdue.1 (by simp [hdue.2.1]) hrec hbr]
  have hsize : ¬ graphStore < c.w2.toNat % 2 ^ 32 := by unfold graphStore; omega
  have hstore : ¬ graphStore < ((s.die d).graphs.map fun k => k.bytes).sum + c.w2.toNat % 2 ^ 32 := by unfold graphStore; omega
  have hn : (s.feBytes d c.ctx c.part c.w1 (c.w2.toNat % 2 ^ 32)).bind (graphNodes (s.die d) c.ctx) = some nodes := hnodes
  simp only [cmdBad_of_due hdue, hnone, hal, Option.isSome_none, ne_eq, not_true_eq_false, decide_false, Bool.or_self, Bool.false_eq_true, if_false,
    if_neg hsize, hn, if_neg hstore]
  rw [((Stands.answer _ d c 0 0 _).die d).graph?, State.die_modDie]
  exact find?_append_singleton_self hnone (by simp)

theorem gfree_frees {s : State} {d : DieId} {c : Cmd} {g : Graph} (h : carries s d c 4) (hg : (s.die d).graph? (c.w0.toNat % 4096) = some g)
    (hctx : g.ctx = c.ctx) (hbusy : (s.die d).graphBusy (c.w0.toNat % 4096) = false) (hq : ∀ q ∈ (s.die d).queuedPh, q.graph ≠ c.w0.toNat % 4096)
    (hcox : ∀ k ∈ (s.die d).cox, c.w0.toNat % 4096 ∉ k.lgraph.toList) : ∃ t, exec (.gfree d c) s = .next t ∧
      (t.die d).graph? (c.w0.toNat % 4096) = none := by
  obtain ⟨hdue, hrec⟩ := h
  refine ⟨_, rfl, ?_⟩
  unfold State.gfreeCmd
  rw [carry_of_due _ hdue.1 (by simp [hdue.2.1]) hrec rfl]
  have hqueued : ((s.die d).queuedPh.any fun q => decide (q.graph = c.w0.toNat % 4096)) = false := by simpa using hq
  have hnamed : ((s.die d).cox.any fun k => k.lgraph.toList.contains (c.w0.toNat % 4096)) = false := by simpa using hcox
  simp only [cmdBad_of_due hdue, hg, hctx, hbusy, hqueued, hnamed, decide_true, Bool.not_true, Bool.or_self, Bool.false_eq_true, if_false]
  rw [((Stands.answer _ d c 0 0 _).die d).graph?, State.die_modDie]
  simp [Die.graph?]

/-- The kernel that a descriptor gives stands under its context and address. -/
theorem kernelOf_names {s : State} {d : DieId} {c : Cmd} {k : Kernel} (h : s.kernelOf d c = some k) : k.ctx = c.ctx ∧ k.addr = c.w1 := by
  unfold State.kernelOf at h
  split at h
  · cases h
  · split at h
    · cases h
    · dsimp only at h
      split at h
      · cases h
      · cases h
        exact ⟨rfl, rfl⟩

theorem kload_loads {s : State} {d : DieId} {c : Cmd} {k : Kernel} (h : carries s d c 5) (hnone : (s.die d).kernel? c.ctx c.w1 = none)
    (hroom : ((s.die d).kernels.filter fun k => decide (k.ctx = c.ctx)).length < 4096) (hk : s.kernelOf d c = some k) (hbr : s.kloadBreaks d c = false) :
    ∃ t, exec (.kload d c) s = .next t ∧ (t.die d).kernel? c.ctx c.w1 = some k := by
  obtain ⟨hdue, hrec⟩ := h
  refine ⟨_, rfl, ?_⟩
  unfold State.kloadCmd
  rw [carry_of_due _ hdue.1 (by simp [hdue.2.1]) hrec hbr]
  simp only [cmdBad_of_due hdue, hnone, Option.isSome_none, Bool.or_self, Bool.false_eq_true, if_false, if_neg (Nat.not_le.mpr hroom), hk]
  rw [((Stands.answer _ d c 0 0 _).die d).kernel?, State.die_modDie]
  obtain ⟨hctx, haddr⟩ := kernelOf_names hk
  exact find?_append_singleton_self hnone (by simp [hctx, haddr])

theorem kfree_frees {s : State} {d : DieId} {c : Cmd} {k : Kernel} (h : carries s d c 6) (hk : (s.die d).kernel? c.ctx c.w1 = some k)
    (hfree : ∀ g ∈ (s.die d).graphs, g.ctx = c.ctx → ∀ n ∈ g.nodes, n.kdesc ≠ c.w1) : ∃ t, exec (.kfree d c) s = .next t ∧
      (t.die d).kernel? c.ctx c.w1 = none := by
  obtain ⟨hdue, hrec⟩ := h
  refine ⟨_, rfl, ?_⟩
  unfold State.kfreeCmd
  rw [carry_of_due _ hdue.1 (by simp [hdue.2.1]) hrec rfl]
  have hnamed : ((s.die d).graphs.any fun g => decide (g.ctx = c.ctx) && g.nodes.any fun n => decide (n.kdesc = c.w1)) = false := by
    simp only [List.any_eq_false, Bool.and_eq_true, decide_eq_true_eq, List.any_eq_true, not_and, not_exists]
    exact fun g hg hc n hn => hfree g hg hc n hn
  simp only [cmdBad_of_due hdue, hk, hnamed, Option.isNone_some, Bool.or_self, Bool.false_eq_true, if_false]
  rw [((Stands.answer _ d c 0 0 _).die d).kernel?, State.die_modDie]
  unfold Die.kernel?
  rw [List.find?_eq_none]
  intro x hx hnamed
  have hkept := (List.mem_filter.mp hx).2
  rw [hnamed] at hkept
  cases hkept

/-! ## PHASE and CANCEL -/

/-- The phase that a release makes (R12, R314). -/
def releasedPhase (x : Die) (d : DieId) (r : Release) (g : Graph) : Phase :=
  { phid := BitVec.ofNat 64 (d.toNat * 2 ^ 63 + (x.phaseCount + 1) % 2 ^ 63), jid := r.jid, graph := r.graph, nodes := g.nodes, prio := r.prio,
    ctx := r.cmd.ctx, part := r.cmd.part, dline := r.dline, hasdl := r.hasdl, level := r.level, stream := r.stream, cmd := r.cmd, tstart := x.time, status := 0,
    cancelled := false, rejected := false, faults := 0, urun := 0, ucan := 0, pushed := 0, pushedDone := 0, alive := 0,
    cnt := g.nodes.map fun n => n.npred, nst := g.nodes.map fun _ => .waiting, acq := r.acq, nacq := [] }

/-- A release puts its phase behind the die's others and launches the nodes without predecessors. -/
theorem startPhase_eq {s : State} {d : DieId} {r : Release} {g : Graph} (hg : (s.die d).graph? r.graph = some g) : ∃ phid work, s.startPhase d r =
    ((s.modDie d fun x => { x with phaseCount := (s.die d).phaseCount + 1, phases := x.phases ++ [releasedPhase (s.die d) d r g] }).walk d phid
      work).sweepPhase d phid := by
  unfold State.startPhase
  rw [hg]
  exact ⟨_, _, rfl⟩

theorem startPhase_released {s : State} {d : DieId} {r : Release} {g : Graph} (hg : (s.die d).graph? r.graph = some g) :
    ∃ p ∈ ((s.startPhase d r).die d).phases, PhaseStands (releasedPhase (s.die d) d r g) p ∧
      ((s.startPhase d r).die d).phaseCount = (s.die d).phaseCount + 1 := by
  obtain ⟨phid, work, heq⟩ := startPhase_eq hg
  rw [heq]
  generalize hu : (s.modDie d fun x => { x with phaseCount := (s.die d).phaseCount + 1, phases := x.phases ++ [releasedPhase (s.die d) d r g] }) = u
  have hacted : Acted u ((u.walk d phid work).sweepPhase d phid) := (Acted.walk ..).trans (.sweepPhase ..)
  have hdie : u.die d = { s.die d with phaseCount := (s.die d).phaseCount + 1, phases := (s.die d).phases ++ [releasedPhase (s.die d) d r g] } := by
    rw [← hu, State.die_modDie]
  have hmem : releasedPhase (s.die d) d r g ∈ (u.die d).phases := by simp [hdie]
  obtain ⟨q, hq, hstands⟩ := (hacted.die d).mem_phases hmem
  exact ⟨q, hq, hstands, (hacted.die d).phaseCount.trans (by rw [hdie])⟩

theorem graphBusy_modJob (x : Die) (p : Fin 32) (j : Word) (f : Job → Job) (g : Nat) : (x.modJob p j f).graphBusy g = x.graphBusy g := rfl

/-- The release that the command of a phase asks for (R312). -/
def phaseRelease (c : Cmd) : Release :=
  { graph := c.w0.toNat % 4096, cmd := c, prio := BitVec.ofNat 4 (c.w0.toNat / 4096 % 16), jid := c.w1.setWidth 32, dline := 0, hasdl := false, level := 0,
    stream := none, acq := [] }

/-- The same release, queued behind the phase of its graph that runs (R316). -/
def queuedPhase (c : Cmd) : QPhase :=
  { graph := c.w0.toNat % 4096, cmd := c, prio := BitVec.ofNat 4 (c.w0.toNat / 4096 % 16), jid := c.w1.setWidth 32, stream := none, dline := 0, level := 0,
    acq := [], kill := 0 }

/-- What the command of a phase asks for, met: it is released, or queued behind the phase of its graph that runs. -/
theorem phaseCmd_eq {s : State} {d : DieId} {c : Cmd} {g : Graph} {j : Job} (h : due s d c 1) (hdrain : s.drainOf d c.ctx = none)
    (hq : ∀ q ∈ (s.die d).queuedPh, q.cmd ≠ c) (hprio : c.w0.toNat / 4096 % 16 ≤ 11) (hg : (s.die d).graph? (c.w0.toNat % 4096) = some g)
    (hctx : g.ctx = c.ctx) (hj : jobOf s d c (c.w1.setWidth 32) = some j) (hopen : j.isOpen = true) : s.phaseCmd d c =
      let u := s.modDie d fun x => x.modJob c.part (c.w1.setWidth 32) fun j => { j with total := j.total + 1 }
      if (u.die d).graphBusy (c.w0.toNat % 4096) then
        u.modDie d fun x => { x with queuedPh := x.queuedPh ++ [queuedPhase c] }
      else (u.startPhase d (phaseRelease c)).cmdDone d c := by
  have hqueued : ((s.die d).queuedPh.any fun q => decide (q.cmd = c)) = false := by simpa using hq
  have hsome : (s.die d).job? c.part (c.w1.setWidth 32) = some j := hj
  have hlow : ¬ 11 < c.w0.toNat / 4096 % 16 := Nat.not_lt.mpr hprio
  unfold State.phaseCmd
  simp only [h.1, h.2.1, hqueued, hdrain, cmdBad_of_due h, hlow, hg, hctx, hsome, hopen, ne_eq, not_true_eq_false, decide_false, decide_true, Bool.not_true,
    Bool.or_self, Bool.false_eq_true, if_false, Option.isSome_none]
  rfl

theorem phase_releases {s : State} {d : DieId} {c : Cmd} {g : Graph} {j : Job} (h : due s d c 1) (hdrain : s.drainOf d c.ctx = none)
    (hq : ∀ q ∈ (s.die d).queuedPh, q.cmd ≠ c) (hprio : c.w0.toNat / 4096 % 16 ≤ 11) (hg : (s.die d).graph? (c.w0.toNat % 4096) = some g)
    (hctx : g.ctx = c.ctx) (hj : jobOf s d c (c.w1.setWidth 32) = some j) (hopen : j.isOpen = true)
    (hfree : (s.die d).graphBusy (c.w0.toNat % 4096) = false) : ∃ t p, exec (.phase d c) s = .next t ∧ p ∈ (t.die d).phases ∧
      p.phid = BitVec.ofNat 64 (d.toNat * 2 ^ 63 + ((s.die d).phaseCount + 1) % 2 ^ 63) ∧ p.graph = c.w0.toNat % 4096 ∧ p.jid = c.w1.setWidth 32 ∧
      p.prio = BitVec.ofNat 4 (c.w0.toNat / 4096 % 16) ∧ p.tstart = (s.die d).time ∧ (t.die d).phaseCount = (s.die d).phaseCount + 1 := by
  have hcmd := phaseCmd_eq h hdrain hq hprio hg hctx hj hopen
  dsimp only at hcmd
  rw [State.die_modDie, graphBusy_modJob, hfree, if_neg (by decide)] at hcmd
  generalize hu : (s.modDie d fun x => x.modJob c.part (c.w1.setWidth 32) fun j => { j with total := j.total + 1 }) = u at hcmd
  have hug : (u.die d).graph? (c.w0.toNat % 4096) = some g := by rw [← hu, State.die_modDie]; exact hg
  have hucount : (u.die d).phaseCount = (s.die d).phaseCount := by rw [← hu, State.die_modDie]; rfl
  have hutime : (u.die d).time = (s.die d).time := by rw [← hu, State.die_modDie]; rfl
  obtain ⟨p, hp, hrel, hcount⟩ := startPhase_released (r := phaseRelease c) hug
  obtain ⟨q, hq', hkept⟩ := ((Stands.cmdDone _ d c).die d).mem_phases hp
  have hst := hrel.trans hkept
  refine ⟨_, q, rfl, by rw [hcmd]; exact hq', ?_, hst.graph, hst.jid, hst.prio, hst.tstart.trans hutime, ?_⟩
  · rw [hst.phid, ← hucount]
    rfl
  · rw [hcmd, ((Stands.cmdDone _ d c).die d).phaseCount, hcount, hucount]

theorem phase_queues {s : State} {d : DieId} {c : Cmd} {g : Graph} {j : Job} (h : due s d c 1) (hdrain : s.drainOf d c.ctx = none)
    (hq : ∀ q ∈ (s.die d).queuedPh, q.cmd ≠ c) (hprio : c.w0.toNat / 4096 % 16 ≤ 11) (hg : (s.die d).graph? (c.w0.toNat % 4096) = some g)
    (hctx : g.ctx = c.ctx) (hj : jobOf s d c (c.w1.setWidth 32) = some j) (hopen : j.isOpen = true)
    (hbusy : (s.die d).graphBusy (c.w0.toNat % 4096) = true) : ∃ t q, exec (.phase d c) s = .next t ∧
      (t.die d).queuedPh = (s.die d).queuedPh ++ [q] ∧ q.graph = c.w0.toNat % 4096 ∧ q.cmd = c ∧ t.ring d c.ring = s.ring d c.ring := by
  have hcmd := phaseCmd_eq h hdrain hq hprio hg hctx hj hopen
  dsimp only at hcmd
  rw [State.die_modDie, graphBusy_modJob, hbusy, if_pos rfl] at hcmd
  refine ⟨_, _, rfl, by rw [hcmd, State.die_modDie, State.die_modDie]; rfl, rfl, rfl, ?_⟩
  rw [hcmd]
  unfold State.ring
  rw [State.die_modDie, State.die_modDie]
  rfl

/-- Changing a phase of a die changes it where it is found. -/
theorem phase?_modPhase {x : Die} {phid : Dw} {f : Phase → Phase} {p : Phase} (hp : x.phase? phid = some p) (hf : ∀ p, (f p).phid = p.phid) :
    (x.modPhase phid f).phase? phid = some (f p) := by
  unfold Die.phase? Die.modPhase at *
  have hfound := List.find?_some hp
  have hcomp : ((fun p : Phase => decide (p.phid = phid)) ∘ fun p => if p.phid = phid then f p else p) = fun p : Phase => decide (p.phid = phid) := by
    funext p
    dsimp only [Function.comp]
    split
    · rw [hf]
    · rfl
  rw [List.find?_map, hcomp, hp]
  simp only [decide_eq_true_eq] at hfound
  simp [hfound]

/-- A cancel of a phase in its die: its waiting launches are counted, and it stands cancelled (R13). -/
def cancelDie (phid : Dw) (status : Nat) (x : Die) : Die :=
  ({ x with waitLaunch := x.waitLaunch.filter fun w => decide (w.1 ≠ phid) } : Die).modPhase phid fun p =>
    (x.waitLaunch.filter fun w => decide (w.1 = phid)).foldl countWaiting (p.stopWith status)

theorem cancelPhase_eq (s : State) (d : DieId) (phid : Dw) (status : Nat) : s.cancelPhase d phid status =
    ((s.modDie d (cancelDie phid status)).cancelAll d (fun q => decide (q = phid)) fun _ => true).cancelAll d.other (fun q => decide (q = phid))
      fun _ => true := rfl

/-- A cancelled phase stands cancelled, with status 1 where it had none (R13). -/
theorem cancelPhase_cancels {s : State} {d : DieId} {phid : Dw} {p : Phase} (hp : (s.die d).phase? phid = some p) :
    ∃ q, ((s.cancelPhase d phid 1).die d).phase? phid = some q ∧ q.cancelled = true ∧ q.status ≠ 0 ∧ (p.status = 0 → q.status = 1) := by
  rw [cancelPhase_eq]
  obtain ⟨l, hl⟩ : ∃ l : List (Dw × Nat), ((s.modDie d (cancelDie phid 1)).die d).phase? phid = some (l.foldl countWaiting (p.stopWith 1)) := by
    rw [State.die_modDie]
    exact ⟨_, phase?_modPhase (x := { s.die d with waitLaunch := (s.die d).waitLaunch.filter fun w => decide (w.1 ≠ phid) }) hp
      fun q => (phaseStands_countWaiting _ _).phid⟩
  have hwait := phaseStands_countWaiting l (p.stopWith 1)
  obtain ⟨q, hq, hkept⟩ := (((Acted.cancelAll (s.modDie d (cancelDie phid 1)) d (fun q => decide (q = phid)) fun _ => true).trans
    (.cancelAll _ d.other (fun q => decide (q = phid)) fun _ => true)).die d).phase? hl
  have hst := hwait.trans hkept
  have hstop : (p.stopWith 1).status = if p.status = 0 then 1 else p.status := rfl
  have hset : (p.stopWith 1).status ≠ 0 := by rw [hstop]; split <;> simp_all
  refine ⟨q, hq, hst.cancelled rfl, by rw [hst.status hset]; exact hset, fun h0 => ?_⟩
  rw [hst.status hset, hstop, if_pos h0]

theorem cancel_cancels {s : State} {d : DieId} {c : Cmd} {p : Phase} (h : carries s d c 2) (hlevel : c.w0.toNat % 8 = 3)
    (hp : (s.die d).phase? c.w1 = some p) (hpart : p.part = c.part) : ∃ t q, exec (.cancel d c) s = .next t ∧ (t.die d).phase? c.w1 = some q ∧
      q.cancelled = true ∧ (p.status = 0 → q.status = 1) := by
  obtain ⟨hdue, hrec⟩ := h
  obtain ⟨q, hq, hcan, hset, hone⟩ := cancelPhase_cancels hp
  have hphid : p.phid = c.w1 := by simpa using List.find?_some hp
  have hmember : s.cancelMember d c.part { level := 3, a := c.w1, b := (c.w1.extractLsb' 32 32).setWidth 64 } = (s.cancelPhase d c.w1 1).sweepAll d := by
    simp only [State.cancelMember, State.cancelLevel, hp, hpart, hphid, if_true]
  obtain ⟨r, hr, hswept⟩ := ((Acted.sweepAll (s.cancelPhase d c.w1 1) d).die d).phase? hq
  obtain ⟨r', hr', hans⟩ := ((Stands.answer ((s.cancelPhase d c.w1 1).sweepAll d) d c 0 0 noGraph).die d).phase? hr
  have hst := hswept.trans hans
  refine ⟨_, r', rfl, ?_, hst.cancelled hcan, fun h0 => (hst.status hset).trans (hone h0)⟩
  unfold State.cancelCmd
  rw [carry_of_due _ hdue.1 (by simp [hdue.2.1]) hrec rfl]
  simp only [cmdBad_of_due hdue, hlevel, Nat.reduceLT, Nat.reduceEqDiff, decide_false, Bool.or_self, Bool.false_eq_true, if_false, hmember]
  exact hr'

/-! ## STREAM -/

theorem Acted.modCox (s : State) (d : DieId) (e : Nat) (f : Cox → Cox) (h : ∀ k, CoxStands k (f k)) : Acted s (s.modDie d fun x => x.modCox e f) :=
  .modDie s d _ (.mapCox _ _ fun k => by split; exacts [h k, .refl k]) rfl

theorem Acted.coxSettle (s : State) (d : DieId) (e : Nat) : Acted s (s.coxSettle d e) :=
  .modDie s d _ (.mapCox _ _ fun k => by split; exacts [by constructor <;> rfl, .refl k]) rfl

theorem Acted.coxStore (s : State) (d : DieId) (l : List Cox) : Acted s (s.coxStore d l) := by
  unfold State.coxStore
  refine Acted.trans ?_ (.foldl _ _ (fun u k => .coxSettle ..) _)
  refine .modDie s d _ (.mapCox _ _ fun k => ?_) rfl
  split
  · constructor <;> rfl
  · exact .refl k

theorem Acted.coxRegister (s : State) (d : DieId) (e pa : Nat) : Acted s (s.coxRegister d e pa) := by
  unfold State.coxRegister
  split
  · exact .refl s
  · refine .ite _ ?_ (.modSlot ..)
    exact .modCox s d e _ fun k => by constructor <;> rfl

/-- A stream that is taken stands among the die's entries. -/
theorem coxAdmit_stands {s t : State} {d : DieId} {k : Cox} (h : s.coxAdmit d k = some t) : ∃ j ∈ (t.die d).cox, CoxStands k j := by
  unfold State.coxAdmit at h
  dsimp only at h
  split at h
  · cases h
  · cases h
    have hmem : k ∈ ((s.modDie d fun x => { x with cox := x.cox ++ [k] }).die d).cox := by simp
    exact (((Acted.coxStore ..).trans (.countDie ..)).die d).mem_cox hmem

theorem le_gridStart {now period : Nat} (h : 1 ≤ period) : now ≤ gridStart now period := by
  unfold gridStart ceilDiv
  have hdiv := Nat.div_add_mod (now + period - 1) period
  have hmod := Nat.mod_lt (now + period - 1) h
  rw [Nat.mul_comm]
  omega

theorem gridStart_mod (now period : Nat) : gridStart now period % period = 0 := Nat.mul_mod_left ..

/-- The state in which a STREAM has been taken holds an entry of its command, on the grid of its period (R336, R338). -/
theorem streamTry_takes {s u : State} {d : DieId} {c : Cmd} (h : s.streamTry d c = (0, u)) : ∃ k ∈ (u.die d).cox, k.cmd = c ∧ k.jid = c.w0.setWidth 32 ∧
    k.part = c.part ∧ k.ctx = c.ctx ∧ k.nrel = k.t0 + k.offset ∧ k.t0 % k.period = 0 ∧ (s.die d).time ≤ k.t0 := by
  unfold State.streamTry at h
  dsimp only at h
  split at h
  · cases h
  · rename_i bytes _
    split at h
    · cases h
    · rename_i hok
      split at h
      · rename_i islot sid _ _
        split at h
        · cases h
        · split at h
          · cases h
          · split at h
            · cases h
            · rename_i e _ _ v hadm
              obtain ⟨k, hk, hst⟩ := coxAdmit_stands hadm
              have hperiod : 1 ≤ (streamRecOf bytes).period := by
                simp only [Bool.or_eq_true, Bool.not_eq_true', not_or, Bool.not_eq_false, streamOk, Bool.and_eq_true, decide_eq_true_eq] at hok
                omega
              have hrest : Acted v u := by
                obtain ⟨-, rfl⟩ := Prod.mk.inj h
                refine Acted.trans ?_ (.coxSettle ..)
                refine Acted.trans ?_ (.ite _ (.coxRegister ..) (.refl _))
                split
                · exact .modSession ..
                · exact .refl v
              obtain ⟨j, hj, hkept⟩ := (hrest.die d).mem_cox hk
              have hall := hst.trans hkept
              refine ⟨j, hj, hall.cmd, hall.jid, hall.part, hall.ctx, ?_, ?_, ?_⟩
              · rw [hall.nrel, hall.t0, hall.offset]
                rfl
              · rw [hall.t0, hall.period]
                exact gridStart_mod ..
              · rw [hall.t0]
                exact le_gridStart hperiod
      · cases h

theorem stream_takes {s u : State} {d : DieId} {c : Cmd} (h : carries s d c 8) (hdrain : s.drainOf d c.ctx = none) (hbr : s.streamBreaks d c = false)
    (htry : s.streamTry d c = (0, u)) : ∃ t, exec (.stream d c) s = .next t ∧ ∃ k ∈ (t.die d).cox, k.cmd = c ∧ k.jid = c.w0.setWidth 32 ∧ k.part = c.part ∧
      k.ctx = c.ctx ∧ k.nrel = k.t0 + k.offset ∧ k.t0 % k.period = 0 ∧ (s.die d).time ≤ k.t0 := by
  obtain ⟨hdue, hrec⟩ := h
  obtain ⟨k, hk, hcmd, hjid, hpart, hctx, hnrel, hgrid, htime⟩ := streamTry_takes htry
  obtain ⟨j, hj, hst⟩ := ((Stands.answer u d c 0 (c.w0.setWidth 32) noGraph).die d).mem_cox hk
  refine ⟨_, rfl, j, ?_, hst.cmd.trans hcmd, hst.jid.trans hjid, hst.part.trans hpart, hst.ctx.trans hctx, ?_, ?_, ?_⟩
  · unfold State.streamCmd
    rw [carry_of_due _ hdue.1 (by simp [hdue.2.1]) hrec hbr]
    simp only [hdrain, cmdBad_of_due hdue, htry, Option.isSome_none, Bool.false_eq_true, if_false]
    exact hj
  · rw [hst.nrel, hst.t0, hst.offset, hnrel]
  · rw [hst.t0, hst.period, hgrid]
  · rw [hst.t0]
    exact htime

/-! ## A type without a command -/

theorem leBytes_length (v n : Nat) : (leBytes v n).length = n := by
  induction n generalizing v with
  | zero => rfl
  | succ n ih => simp [leBytes, ih]

/-- The value of the little-endian bytes of a number. -/
theorem bytesValue_of_leBytes {m : List Host.Cell} {a v n : Nat} (h : ∀ j, j < n → memRead m (a + j) = (leBytes v n).getD j 0) :
    bytesValue m a n = v % 256 ^ n := by
  induction n generalizing a v with
  | zero => simp [bytesValue, Nat.mod_one]
  | succ n ih =>
    have hfirst : memRead m a = BitVec.ofNat 8 v := h 0 (by omega)
    have hrest : bytesValue m (a + 1) n = v / 256 % 256 ^ n := ih fun j hj => by
      rw [Nat.add_assoc, Nat.add_comm 1 j]
      exact h (j + 1) (by omega)
    rw [bytesValue, hfirst, hrest, BitVec.toNat_ofNat, show 2 ^ 8 = 256 from rfl, Nat.pow_succ', Nat.mod_mul]

/-- A store at its home whose bytes meet no live slot writes them; what it counts and wakes touches no byte. -/
theorem homeStore_mem (s : State) (pa : Nat) (bytes : List Byte) (h : s.hitsSlot pa bytes.length = false) :
    (s.homeStore pa bytes).mem = memWriteBytes s.mem pa bytes := by
  have hbytes : s.asideSlots pa bytes = bytes := by simp [State.asideSlots, h]
  simp [State.homeStore, hbytes]

/-- The bytes that such a store leaves. -/
theorem memRead_homeStore {s : State} {pa : Nat} {bytes : List Byte} (h : s.hitsSlot pa bytes.length = false) (hinv : MemInv s) {j : Nat}
    (hj : j < bytes.length) : memRead (s.homeStore pa bytes).mem (pa + j) = bytes.getD j 0 := by
  rw [homeStore_mem s pa bytes h, memRead_memWriteBytes bytes s.mem pa j hinv hj, List.getD_eq_getElem _ _ hj]

theorem memRead_homeStore_ne {s : State} {pa : Nat} {bytes : List Byte} (h : s.hitsSlot pa bytes.length = false) (hinv : MemInv s) {a : Nat}
    (ha : a < pa ∨ pa + bytes.length ≤ a) : memRead (s.homeStore pa bytes).mem a = memRead s.mem a := by
  rw [homeStore_mem s pa bytes h]
  exact memRead_memWriteBytes_ne bytes s.mem pa a hinv ha

/-- The command at the cursor is done: the cursor's write is performed, and the ring goes on behind it (R309). -/
theorem ringAdvance_goes {s : State} {d : DieId} {c : Cmd} {cpa : Nat} (hacc : s.feAccess d c.ctx c.part needWr 8 8 (s.ring d c.ring).cva = .ok cpa)
    (hagain : (s.ring d c.ring).again = false) : s.ringAdvance d c =
      (s.homeStore cpa (leBytes (((s.ring d c.ring).c + 1) % 2 ^ 64) 8)).modRing d c.ring fun y =>
        { y with c := (y.c + 1) % 2 ^ 64, blocked := none, wake := y.wake || !y.again, carried := false, again := false } := by
  unfold State.ringAdvance
  simp only [hacc, hagain, Bool.false_and, Bool.not_false, if_true]

theorem badCommand_answered {s : State} {d : DieId} {c : Cmd} {cpa : Nat} (hdue : s.cmdDue d c = true) (htyp : c.typ = 0 ∨ 8 < c.typ) (hcrec : c.crec = 0)
    (hsig : c.sigk = 0) (hring : ringGoes s d c cpa) (hagain : (s.ring d c.ring).again = false) (hinv : MemInv s) :
    ∃ t, exec (.badCommand d c) s = .next t ∧ ringOn s t d c ∧ bytesValue t.mem cpa 8 = ((s.ring d c.ring).c + 1) % 2 ^ 64 ∧
      ∀ a, a < cpa ∨ cpa + 8 ≤ a → memRead t.mem a = memRead s.mem a := by
  obtain ⟨hacc, hslot⟩ := hring
  have hblocked : (s.ring d c.ring).blocked = some c := by
    simp only [State.cmdDue, Bool.and_eq_true, decide_eq_true_eq] at hdue
    exact hdue.1.1.1
  have hrec : s.recBreaks d c = false := by simp [State.recBreaks, hcrec, hsig]
  have hdone : s.badCmd d c = s.ringAdvance d c := by
    unfold State.badCmd
    rw [carry_of_due _ hdue (by simpa [Nat.succ_le_iff] using htyp) hrec rfl]
    simp only [State.answer, hrec, State.complete, State.writeCrec, hcrec, State.signal, hsig, State.cmdDone, hblocked, Bool.false_eq_true, if_false, if_true]
  have hlen : s.hitsSlot cpa (leBytes (((s.ring d c.ring).c + 1) % 2 ^ 64) 8).length = false := by rw [leBytes_length]; exact hslot
  obtain ⟨w, cause, hkept⟩ := (Acted.homeStore s cpa (leBytes (((s.ring d c.ring).c + 1) % 2 ^ 64) 8)).rings d c.ring
  refine ⟨_, rfl, ?_⟩
  rw [hdone, ringAdvance_goes hacc hagain]
  refine ⟨⟨?_, ?_, ?_⟩, ?_, fun a ha => ?_⟩
  · rw [ring_modRing]
  · rw [ring_modRing, hkept]
  · rw [ring_modRing, hkept]
    simp [hagain]
  · have hbytes : ∀ j, j < 8 → memRead (s.homeStore cpa (leBytes (((s.ring d c.ring).c + 1) % 2 ^ 64) 8)).mem (cpa + j) =
        (leBytes (((s.ring d c.ring).c + 1) % 2 ^ 64) 8).getD j 0 := fun j hj => memRead_homeStore hlen hinv (by rw [leBytes_length]; exact hj)
    refine (bytesValue_of_leBytes (m := (State.modRing _ d c.ring _).mem) (v := ((s.ring d c.ring).c + 1) % 2 ^ 64) ?_).trans (Nat.mod_mod ..)
    simpa [State.modRing] using hbytes
  · simpa [State.modRing] using memRead_homeStore_ne hlen hinv (by rw [leBytes_length]; exact ha)

/-- Settles O52: each command that is not bad has its effect, and what answering it brings takes nothing of that effect back (`Stands.answer`). -/
theorem hostCommands : Obligations.HostCommands := by
  unfold Obligations.HostCommands
  refine ⟨?_, ?_, ?_, ?_, ?_, ?_, ?_, ?_, ?_, ?_, ?_⟩
  · intro s d c g j h hdrain hq num prio hprio hg hctx hj hopen
    exact ⟨phase_releases h hdrain hq hprio hg hctx hj hopen, phase_queues h hdrain hq hprio hg hctx hj hopen⟩
  · exact fun s d c p h hlevel hp hpart => cancel_cancels h hlevel hp hpart
  · exact fun s d c h hw hj => jobOpen_new h hw hj
  · exact fun s d c j h hw hj hclosed => jobOpen_again h hw hj hclosed
  · exact fun s d c j h hw hj hopen => jobClose_closes h hw hj hopen
  · exact fun s d c nodes h hnone hal hroom hnodes hbr => gload_loads h hnone hal hroom hnodes hbr
  · exact fun s d c g h hg hctx hbusy hq hcox => gfree_frees h hg hctx hbusy hq hcox
  · exact fun s d c k h hnone hroom hk hbr => kload_loads h hnone hroom hk hbr
  · exact fun s d c k h hk hfree => kfree_frees h hk hfree
  · exact fun s u d c h hdrain hbr htry => stream_takes h hdrain hbr htry
  · exact fun s d c cpa hdue htyp hcrec hsig hring hagain hinv => badCommand_answered hdue htyp hcrec hsig hring hagain hinv

end Sys2Proof
end

section
/-! PROOF. What wakes, slots and the end of a unit leave of the cores (R13, R67, R89, R179, R196). -/

namespace Sys2Proof

open Machine Spec

/-! ## Wakes and slots -/

/-- A change of n bytes at pa as the A seat sees it: a WAITA of their line is woken (R196). -/
def wokenAwait (pa n : Nat) : Option AWait → Option AWait
  | some (.line op l w) => some (.line op l (w || overlaps pa n l 64))
  | w => w

theorem wakeLine_coreAt (s : State) (pa n : Nat) (m : CoreId) : (s.wakeLine pa n).coreAt m =
    { s.coreAt m with ctx := { (s.coreAt m).ctx with await := wokenAwait pa n (s.coreAt m).ctx.await } } := by
  unfold State.wakeLine
  dsimp only
  split
  · show (Vector.map _ s.cores).get m = _
    rw [Vector.get_eq_getElem, Vector.getElem_map, ← Vector.get_eq_getElem]
    change _ = { s.cores.get m with ctx := { (s.cores.get m).ctx with await := wokenAwait pa n (s.cores.get m).ctx.await } }
    generalize s.cores.get m = c
    split
    · rename_i op l w hw
      split
      · rename_i hit
        simp [hw, wokenAwait, hit]
      · rename_i hit
        simp [hw, wokenAwait, hit]
    · rename_i hw
      have hsame : wokenAwait pa n c.ctx.await = c.ctx.await := by
        unfold wokenAwait
        split
        · exact absurd ‹_› (hw _ _ _)
        · rfl
      rw [hsame]
  · rename_i hany
    have hsame : wokenAwait pa n (s.coreAt m).ctx.await = (s.coreAt m).ctx.await := by
      unfold wokenAwait
      split
      · rename_i op l w hw
        have hmem : s.coreAt m ∈ s.cores.toList := by simp [State.coreAt, Vector.get_eq_getElem]
        have hmiss : overlaps pa n l 64 = false := by
          rw [List.any_eq_true, not_exists] at hany
          simpa [hmem, hw] using hany (s.coreAt m)
        rw [hmiss, Bool.or_false, hw]
      · rfl
    rw [hsame]
    rfl

theorem wakeLine_slots (s : State) (pa n : Nat) : (s.wakeLine pa n).slots = s.slots := by
  unfold State.wakeLine
  dsimp only
  split <;> rfl

theorem wakeLine_parked (s : State) (pa n : Nat) : (s.wakeLine pa n).parked = s.parked := by
  unfold State.wakeLine
  dsimp only
  split <;> rfl

theorem modSlot_parked (s : State) (pa : Nat) (f : Slot → Slot) : (s.modSlot pa f).parked = s.parked :=
  iteInduction (motive := fun u : State => u.parked = s.parked) (fun _ => wakeLine_parked ..) fun _ => rfl

theorem modSlot_slots (s : State) (pa : Nat) (f : Slot → Slot) : (s.modSlot pa f).slots = s.slots.map fun t => if t.pa = pa then f t else t :=
  iteInduction (motive := fun u : State => u.slots = s.slots.map fun t => if t.pa = pa then f t else t) (fun _ => wakeLine_slots ..) fun _ => rfl

theorem modSlot_coreAt (s : State) (pa : Nat) (f : Slot → Slot) (m : CoreId) : ∃ w, (s.modSlot pa f).coreAt m =
    { s.coreAt m with ctx := { (s.coreAt m).ctx with await := w } } :=
  iteInduction (motive := fun u : State => ∃ w, u.coreAt m = { s.coreAt m with ctx := { (s.coreAt m).ctx with await := w } })
    (fun _ => ⟨_, wakeLine_coreAt ..⟩) fun _ => ⟨(s.coreAt m).ctx.await, rfl⟩

theorem withdrawAwait_coreAt (s : State) (n m : CoreId) : ∃ w, (s.withdrawAwait n).coreAt m =
    { s.coreAt m with ctx := { (s.coreAt m).ctx with await := w } } := by
  unfold State.withdrawAwait
  split
  · exact modSlot_coreAt ..
  · exact ⟨(s.coreAt m).ctx.await, rfl⟩

/-! ## What records and counters of a core leave -/

/-- What records of core n and its counters change: its debug state, the crews' buffers and the dies' counters. -/
structure Logged (n : CoreId) (s t : State) : Prop where
  cores : ∀ m, m ≠ n → t.coreAt m = s.coreAt m
  core : ∃ d, t.coreAt n = { s.coreAt n with dbg := d }
  mem : t.mem = s.mem
  slots : t.slots = s.slots
  parts : t.parts = s.parts
  shared : t.shared = s.shared
  parked : t.parked = s.parked

theorem Logged.refl (n : CoreId) (s : State) : Logged n s s := ⟨fun _ _ => rfl, ⟨_, rfl⟩, rfl, rfl, rfl, rfl, rfl⟩

theorem Logged.trans {n : CoreId} {s t u : State} (h : Logged n s t) (g : Logged n t u) : Logged n s u := by
  obtain ⟨d, hd⟩ := h.core
  obtain ⟨e, he⟩ := g.core
  exact ⟨fun m hm => (g.cores m hm).trans (h.cores m hm), ⟨e, by rw [he, hd]⟩, g.mem.trans h.mem, g.slots.trans h.slots, g.parts.trans h.parts,
    g.shared.trans h.shared, g.parked.trans h.parked⟩

theorem Logged.modDbg (s : State) (n : CoreId) (f : Core → Core) (h : ∃ d, f (s.coreAt n) = { s.coreAt n with dbg := d }) : Logged n s (s.modCore n f) := by
  obtain ⟨d, hd⟩ := h
  exact ⟨fun m hm => by simp [hm], ⟨d, by simp [hd]⟩, rfl, rfl, rfl, rfl, rfl⟩

theorem Logged.traceRec (n : CoreId) (s : State) (kind : Nat) (data : List Dw) : Logged n s (s.traceRec n kind data) := by
  have h := traceRec_only s n kind data
  exact ⟨fun m _ => h.coreAt m, ⟨_, h.coreAt n⟩, by simp, h.package.slots, h.package.parts, h.package.shared, h.package.parked⟩

theorem Logged.traceUnit (n : CoreId) (s : State) (u : UnitInfo) (event cause : Nat) : Logged n s (s.traceUnit n u event cause) := .traceRec ..

theorem Logged.modDie (n : CoreId) (s : State) (d : DieId) (f : Die → Die) : Logged n s (s.modDie d f) :=
  ⟨fun m _ => by simp, ⟨(s.coreAt n).dbg, by simp⟩, by simp, by simp, by simp, by simp, by simp⟩

theorem Logged.countDie (n : CoreId) (s : State) (d : DieId) (code inc : Nat) : Logged n s (s.countDie d code inc) := .modDie n s d _

theorem Logged.ite (n : CoreId) (c : Prop) [Decidable c] {s t u : State} (ht : Logged n s t) (hu : Logged n s u) : Logged n s (if c then t else u) := by
  split <;> assumption

theorem Logged.count (n : CoreId) (s : State) (code inc : Nat) : Logged n s (s.count n code inc) := by
  unfold State.count
  dsimp only
  refine Logged.trans ?_ (.modDie ..)
  have hbump : Logged n s (s.modCore n fun c => c.bump code inc) := .modDbg s n _ ⟨_, rfl⟩
  exact .ite n _ (hbump.trans (.traceRec ..)) hbump

theorem Logged.conflictRecord (n : CoreId) (s : State) : Logged n s (s.conflictRecord n) := by
  refine Logged.trans ?_ (.traceRec ..)
  exact .modDbg s n _ ⟨_, rfl⟩

theorem Logged.logEntry (n : CoreId) (s : State) (kind : Nat) (k : SeatId) (idx val : Nat) (data : List Byte) :
    Logged n s (s.logEntry n kind k idx val data) := by
  unfold State.logEntry
  dsimp only
  refine .ite n _ (.refl n s) ⟨fun m hm => by simp [hm], ?_, rfl, rfl, rfl, rfl, rfl⟩
  exact ⟨_, State.coreAt_setCore ..⟩

theorem Logged.logStart (n : CoreId) (s : State) (halt : Nat) : Logged n s (s.logStart n halt) := by
  unfold State.logStart
  split
  · exact .logEntry ..
  · exact .refl n s

theorem Logged.traceUnitOf (n : CoreId) (s : State) (event cause : Nat) : Logged n s (s.traceUnitOf n event cause) := by
  unfold State.traceUnitOf
  split
  · exact .traceUnit ..
  · exact .refl n s

theorem Logged.endOn (n : CoreId) (s : State) (event : Nat) : Logged n s (s.endOn n event) := by
  refine Logged.trans ?_ (.logEntry ..)
  exact .ite n _ (.refl n s) (.traceUnitOf ..)

/-! ## A unit leaves its core -/

/-- The cores stand but for the states of their seats and their debug state. -/
structure SeatsMove (s t : State) : Prop where
  core : ∀ m, ∃ x d, t.coreAt m = { s.coreAt m with ctx := x, dbg := d }

theorem SeatsMove.refl (s : State) : SeatsMove s s := ⟨fun _ => ⟨_, _, rfl⟩⟩

theorem SeatsMove.trans {s t u : State} (h : SeatsMove s t) (g : SeatsMove t u) : SeatsMove s u := by
  refine ⟨fun m => ?_⟩
  obtain ⟨x, d, hx⟩ := h.core m
  obtain ⟨y, e, hy⟩ := g.core m
  exact ⟨y, e, by rw [hy, hx]⟩

theorem SeatsMove.modCtx (s : State) (n : CoreId) (f : Ctx → Ctx) : SeatsMove s (s.modCtx n f) := by
  refine ⟨fun m => ?_⟩
  by_cases hm : m = n
  · subst hm
    exact ⟨f (s.coreAt m).ctx, (s.coreAt m).dbg, State.coreAt_modCore ..⟩
  · exact ⟨(s.coreAt m).ctx, (s.coreAt m).dbg, State.coreAt_modCore_ne _ _ _ _ hm⟩

theorem SeatsMove.raise (s : State) (n : CoreId) (k : SeatId) (c : Cause) (tval tpc : Dw) (issued : Bool) : SeatsMove s (s.raise n k c tval tpc issued) :=
  SeatsMove.modCtx s n fun x => x.modSeat k fun t =>
    { t with cause := some { cause := c, tval := if c.tvalStated then tval else Config.freeDw s.free (640 + k.toNat), tpc := tpc, issued := issued } }

theorem SeatsMove.withdrawAwait (s : State) (n : CoreId) : SeatsMove s (s.withdrawAwait n) := by
  refine ⟨fun m => ?_⟩
  obtain ⟨w, hw⟩ := withdrawAwait_coreAt s n m
  exact ⟨_, _, hw⟩

theorem SeatsMove.logged {n : CoreId} {s t : State} (h : Logged n s t) : SeatsMove s t := by
  refine ⟨fun m => ?_⟩
  by_cases hm : m = n
  · subst hm
    obtain ⟨d, hd⟩ := h.core
    exact ⟨_, d, hd⟩
  · exact ⟨(s.coreAt m).ctx, (s.coreAt m).dbg, h.cores m hm⟩

theorem SeatsMove.foldl {α : Type} (l : List α) (f : State → α → State) (h : ∀ s x, SeatsMove s (f s x)) (s : State) : SeatsMove s (l.foldl f s) := by
  induction l generalizing s with
  | nil => exact .refl s
  | cons x l ih => exact (h s x).trans (ih (f s x))

theorem SeatsMove.jointLeave (s : State) (n : CoreId) : SeatsMove s (s.jointLeave n) := by
  unfold State.jointLeave
  split
  · exact .refl s
  · refine .foldl _ _ (fun s p => ?_) s
    dsimp only
    split
    · exact .modCtx ..
    · exact (SeatsMove.modCtx ..).trans (.raise ..)

theorem jointLeave_shared (s : State) (n : CoreId) : (s.jointLeave n).shared = s.shared := by
  have hact : Acted s (s.jointLeave n) := by
    unfold State.jointLeave
    refine .ite _ (.refl s) (.foldl _ _ (fun s p => ?_) s)
    dsimp only
    split
    · exact .modCtx ..
    · exact (Acted.modCtx ..).trans (.raise ..)
  exact hact.shared

theorem withdrawAwait_shared (s : State) (n : CoreId) : (s.withdrawAwait n).shared = s.shared := by
  unfold State.withdrawAwait
  split
  · exact (Acted.modSlot ..).shared
  · rfl

theorem leaveUnit_shared (s : State) (n : CoreId) (cancelled fault : Bool) (status : Nat) : (s.leaveUnit n cancelled fault status).shared = s.shared := by
  show (State.endOn _ n _).shared = _
  rw [(Logged.endOn ..).shared, jointLeave_shared, withdrawAwait_shared]

/-- The unit is off the core, and stands among those whose operations are still to be performed. -/
theorem leaveUnit_unit {s : State} {n : CoreId} {u : UnitInfo} (cancelled fault : Bool) (status : Nat) (hu : (s.coreAt n).unit = some u) :
    ((s.leaveUnit n cancelled fault status).coreAt n).unit = none ∧ ((s.leaveUnit n cancelled fault status).coreAt n).leaving =
      (s.coreAt n).leaving ++ [{ unit := u, cancelled := cancelled, fault := fault, status := status }] := by
  have hseats : SeatsMove s (((s.withdrawAwait n).jointLeave n).endOn n (if cancelled && !fault then 0 else 4)) :=
    ((SeatsMove.withdrawAwait s n).trans (.jointLeave ..)).trans (.logged (.endOn ..))
  obtain ⟨x, d, hx⟩ := hseats.core n
  unfold State.leaveUnit
  dsimp only
  rw [State.coreAt_modCore, hx]
  simp only [hu]
  exact ⟨trivial, trivial⟩

/-! ## Steps along a list -/

/-- A step that brings something about for its element, and keeps it for the others, brings it about for every element of a list. -/
theorem foldl_establishes {α : Type} {J : α → State → Prop} {f : State → α → State} (hself : ∀ s n, J n (f s n)) (hkeep : ∀ s n m, J m s → J m (f s n))
    (l : List α) (s : State) : ∀ m ∈ l, J m (l.foldl f s) := by
  have hstay : ∀ (l : List α) (s : State) (m : α), J m s → J m (l.foldl f s) := by
    intro l
    induction l with
    | nil => exact fun s m h => h
    | cons n l ih => exact fun s m h => ih _ m (hkeep s n m h)
  induction l generalizing s with
  | nil => simp
  | cons n l ih =>
    intro m hm
    rcases List.mem_cons.mp hm with rfl | hm
    · exact hstay l _ _ (hself s _)
    · exact ih _ m hm

/-- What no step changes stands at the end. -/
theorem foldl_keeps {α β : Type} {g : State → β} {f : State → α → State} (h : ∀ s x, g (f s x) = g s) (l : List α) (s : State) : g (l.foldl f s) = g s := by
  induction l generalizing s with
  | nil => rfl
  | cons x l ih => rw [List.foldl_cons, ih, h]

/-! ## Steps of one core -/

/-- A step of core n: the other cores, memory and the slots stand. -/
structure Own (n : CoreId) (s t : State) : Prop where
  cores : ∀ m, m ≠ n → t.coreAt m = s.coreAt m
  mem : t.mem = s.mem
  slots : t.slots = s.slots
  shared : t.shared = s.shared

theorem Own.refl (n : CoreId) (s : State) : Own n s s := ⟨fun _ _ => rfl, rfl, rfl, rfl⟩

theorem Own.trans {n : CoreId} {s t u : State} (h : Own n s t) (g : Own n t u) : Own n s u :=
  ⟨fun m hm => (g.cores m hm).trans (h.cores m hm), g.mem.trans h.mem, g.slots.trans h.slots, g.shared.trans h.shared⟩

theorem Own.modCore (n : CoreId) (s : State) (f : Core → Core) : Own n s (s.modCore n f) := ⟨fun m hm => by simp [hm], rfl, rfl, rfl⟩

theorem Logged.own {n : CoreId} {s t : State} (h : Logged n s t) : Own n s t := ⟨h.cores, h.mem, h.slots, h.shared⟩

/-- Steps of different cores, each of its own core, by what stands on it: each core ends as its own step leaves it. -/
theorem foldl_own {C : Core → Prop} {P : Core → Core → Prop} {f : State → CoreId → State} (hown : ∀ s n, C (s.coreAt n) → Own n s (f s n))
    (hstep : ∀ s n, C (s.coreAt n) → P (s.coreAt n) ((f s n).coreAt n)) {l : List CoreId} (hl : l.Nodup) (s : State) (hC : ∀ n ∈ l, C (s.coreAt n)) :
    (l.foldl f s).mem = s.mem ∧ (l.foldl f s).slots = s.slots ∧ (∀ m, m ∉ l → (l.foldl f s).coreAt m = s.coreAt m) ∧
      ∀ m ∈ l, P (s.coreAt m) ((l.foldl f s).coreAt m) := by
  induction l generalizing s with
  | nil => simp
  | cons n l ih =>
    obtain ⟨hn, hl⟩ := List.nodup_cons.mp hl
    have hCn := hC n (by simp)
    have hfirst := hown s n hCn
    have hstay : ∀ m ∈ l, (f s n).coreAt m = s.coreAt m := fun m hm => hfirst.cores m fun h => hn (h ▸ hm)
    obtain ⟨hmem, hslots, hout, hin⟩ := ih hl (f s n) fun m hm => by
      rw [hstay m hm]
      exact hC m (by simp [hm])
    refine ⟨hmem.trans hfirst.mem, hslots.trans hfirst.slots, fun m hm => ?_, fun m hm => ?_⟩
    · obtain ⟨hmn, hml⟩ := not_or.mp (List.mem_cons.not.mp hm)
      exact (hout m hml).trans (hfirst.cores m hmn)
    · rcases List.mem_cons.mp hm with rfl | hml
      · rw [List.foldl_cons, hout m hn]
        exact hstep s m hCn
      · rw [← hstay m hml]
        exact hin m hml

end Sys2Proof
end

section
/-! PROOF. Stops, save and restore, and slices (R13, R42, R344 to R346, R363, R364, R404 to R406). -/

namespace Sys2Proof

open Machine Spec

theorem Logged.oneCore {n : CoreId} {s t : State} (h : Logged n s t) : OneCore n s t := ⟨h.cores, fun a => by rw [h.mem], h.slots, h.parts⟩

theorem oneCore_trans {n : CoreId} {s t u : State} (h : OneCore n s t) (g : OneCore n t u) : OneCore n s u :=
  ⟨fun m hm => (g.cores m hm).trans (h.cores m hm), fun a => (g.mem a).trans (h.mem a), g.slots.trans h.slots, g.parts.trans h.parts⟩

theorem oneCore_modCore (n : CoreId) (s : State) (f : Core → Core) : OneCore n s (s.modCore n f) := ⟨fun m hm => by simp [hm], fun _ => rfl, rfl, rfl⟩

/-! ## Stops (R344, R345, R405) -/

/-- The unit on core m, if there is one, has a stop. -/
def Stopping (m : CoreId) (s : State) : Prop := ∀ u, (s.coreAt m).unit = some u → u.stop.isSome = true

theorem makeUrgent_oneCore (s : State) (n : CoreId) : OneCore n s (s.makeUrgent n) := by
  unfold State.makeUrgent
  dsimp only
  split
  · exact oneCore_trans (oneCore_modCore ..) (Logged.conflictRecord ..).oneCore
  · exact oneCore_modCore ..

/-- The stop of the unit on the core is urgent, and its 640 clocks begin. -/
theorem makeUrgent_unit (s : State) (n : CoreId) : ((s.makeUrgent n).coreAt n).unit =
    (s.coreAt n).unit.map fun u => { u with stop := u.stop.map fun q => { q with urgent := true, clks := 0 } } := by
  unfold State.makeUrgent
  dsimp only
  generalize hu : s.modCore n _ = u
  have hunit : (u.coreAt n).unit = (s.coreAt n).unit.map fun u => { u with stop := u.stop.map fun q => { q with urgent := true, clks := 0 } } := by
    rw [← hu, State.coreAt_modCore]
  split
  · obtain ⟨d, hd⟩ := (Logged.conflictRecord n u).core
    rw [hd]
    exact hunit
  · exact hunit

theorem stopping_makeUrgent {s : State} {m : CoreId} (n : CoreId) (h : Stopping m s) : Stopping m (s.makeUrgent n) := by
  intro u hu
  by_cases hm : m = n
  · subst hm
    rw [makeUrgent_unit] at hu
    obtain ⟨v, hv, rfl⟩ := Option.map_eq_some_iff.mp hu
    simpa using h v hv
  · rw [(makeUrgent_oneCore s n).cores m hm] at hu
    exact h u hu

theorem stopping_postStop_self (s : State) (n : CoreId) (why : StopWhy) (urgent : Bool) : Stopping n (s.postStop n why urgent) := by
  have hposted : ∀ now, Stopping n (s.modCore n fun c => { c with unit := c.unit.map fun u =>
      { u with stop := some (u.stop.getD { why := why, posted := now, urgent := false, clks := 0 }) } }) := by
    intro now u hu
    rw [State.coreAt_modCore] at hu
    obtain ⟨v, -, rfl⟩ := Option.map_eq_some_iff.mp hu
    rfl
  unfold State.postStop
  dsimp only
  split
  · exact stopping_makeUrgent n (hposted _)
  · exact hposted _

theorem stopping_postStop {s : State} {m : CoreId} (n : CoreId) (why : StopWhy) (urgent : Bool) (h : Stopping m s) : Stopping m (s.postStop n why urgent) := by
  by_cases hm : m = n
  · subst hm
    exact stopping_postStop_self _ _ _ _
  · have hposted : ∀ f, Stopping m (s.modCore n f) := fun f u hu => h u (by rwa [State.coreAt_modCore_ne _ _ _ _ hm] at hu)
    unfold State.postStop
    dsimp only
    split
    · exact stopping_makeUrgent n (hposted _)
    · exact hposted _

theorem preempt_stops {s : State} {d : DieId} {p : Fin 32} {k : Task} (hk : s.preemptFor d p = some k) (hq : s.hurried d p = []) :
    ∃ t, exec (.preemptRequest d p) s = .next t ∧ (∀ m ∈ s.victims d p k, ∀ u, (t.coreAt m).unit = some u → u.stop.isSome = true) ∧ t.mem = s.mem := by
  have hall := foldl_establishes (J := Stopping) (f := fun s n => s.postStop n .preempt (s.urgentFor d k)) (fun s n => stopping_postStop_self s n _ _)
    (fun s n m h => stopping_postStop n _ _ h) (s.victims d p k) s
  refine ⟨s.preempt d p, rfl, fun m hm u hu => hall m hm u ?_, by simp⟩
  rw [← hu]
  unfold State.preempt
  simp only [hq, List.foldl_nil, hk, State.coreAt_modDie]

theorem boundaryStopTimeout_urgent {s : State} {n : CoreId} {u : UnitInfo} {q : Stop} (hlate : s.stopLate n = true) (hu : (s.coreAt n).unit = some u)
    (hq : u.stop = some q) : ∃ t, exec (.boundaryStopTimeout n) s = .next t ∧ OneCore n s t ∧
      (t.coreAt n).unit = some { u with stop := some { q with urgent := true, clks := 0 } } := by
  refine ⟨s.makeUrgent n, ?_, makeUrgent_oneCore s n, ?_⟩
  · show Host.Outcome.next (if s.stopLate n then s.makeUrgent n else s) = _
    rw [if_pos hlate]
  · rw [makeUrgent_unit, hu, Option.map_some, hq, Option.map_some]

/-! ## The freeze of an urgent stop (R42, R346) -/

/-- The registers of the seats as the freeze leaves them. -/
theorem modSeats_regs (l : List SeatId) (f : Ctx → SeatId → Ctx) (hf : ∀ x k, (f x k).c = x.c ∧ (f x k).a = x.a ∧ (f x k).v = x.v) (x : Ctx) :
    (l.foldl f x).c = x.c ∧ (l.foldl f x).a = x.a ∧ (l.foldl f x).v = x.v := by
  induction l generalizing x with
  | nil => exact ⟨rfl, rfl, rfl⟩
  | cons k l ih =>
    obtain ⟨hc, ha, hv⟩ := ih (f x k)
    obtain ⟨hc', ha', hv'⟩ := hf x k
    exact ⟨hc.trans hc', ha.trans ha', hv.trans hv'⟩

theorem cutLoops_regs (x : Ctx) : x.cutLoops.c = x.c ∧ x.cutLoops.a = x.a ∧ x.cutLoops.v = x.v :=
  modSeats_regs _ _ (fun x k => by split <;> exact ⟨rfl, rfl, rfl⟩) x

/-- The registers of a frozen unit stand: a cut loop, and a withdrawn wait, are none of them. -/
theorem frozen_regs (x : Ctx) (w : Option AWait) : ({ x with await := w } : Ctx).cutLoops.atFreeze.c = x.c ∧
    ({ x with await := w } : Ctx).cutLoops.atFreeze.a = x.a ∧ ({ x with await := w } : Ctx).cutLoops.atFreeze.v = x.v := by
  obtain ⟨hc, ha, hv⟩ := cutLoops_regs { x with await := w }
  generalize ({ x with await := w } : Ctx).cutLoops = y at hc ha hv
  exact ⟨hc, ha, hv⟩

theorem urgentStopFreeze_freezes {s : State} {n : CoreId} {u : UnitInfo} {q : Stop} (hdue : s.urgentDue n = true) (hu : (s.coreAt n).unit = some u)
    (hq : u.stop = some q) (hwhy : q.why ≠ .cancel) : ∃ t, exec (.urgentStopFreeze n) s = .next t ∧ OneCore n (s.withdrawAwait n) t ∧
      (t.coreAt n).unit = some u ∧ (t.coreAt n).frozen = some (.stopped q.why false) ∧ (t.coreAt n).ctx.c = (s.coreAt n).ctx.c ∧
      (t.coreAt n).ctx.a = (s.coreAt n).ctx.a ∧ (t.coreAt n).ctx.v = (s.coreAt n).ctx.v ∧
      ∀ k ∈ (t.coreAt n).copies, k.owner = u.serial → k.frozen = true := by
  refine ⟨_, rfl, ?_⟩
  unfold State.urgentFreeze
  simp only [hdue, hu, hq, if_neg hwhy]
  obtain ⟨w, hw⟩ := withdrawAwait_coreAt s n n
  obtain ⟨hc, ha, hv⟩ := frozen_regs (s.coreAt n).ctx w
  generalize hmid : (s.withdrawAwait n).modCore n _ = v
  obtain ⟨d, hd⟩ := (Logged.count n v 35 1).core
  refine ⟨oneCore_trans (by rw [← hmid]; exact oneCore_modCore ..) (Logged.count ..).oneCore, ?_⟩
  rw [hd, ← hmid, State.coreAt_modCore, hw]
  refine ⟨hu, rfl, hc, ha, hv, fun k hk hown => ?_⟩
  obtain ⟨k', -, rfl⟩ := List.mem_map.mp hk
  split at hown
  · rw [if_pos ‹_›]
  · exact absurd hown ‹_›

/-! ## Save and restore (R346, R363, R364) -/

theorem crewCore_crewOf (n : CoreId) : crewCore (crewOf n) (crewPos n) = n := by
  apply Fin.ext
  simp only [crewCore, crewOf, crewPos]
  omega

theorem crewCore_injective (w : CrewId) : Function.Injective (crewCore w) := by
  intro p q h
  have hval := congrArg Fin.val h
  simp only [crewCore] at hval
  omega

theorem mem_allPos (p : Fin 4) : p ∈ allPos := by
  revert p
  decide

theorem crewCores_nodup (w : CrewId) : (allPos.map fun p => crewCore w p).Nodup := (by decide : allPos.Nodup).map (crewCore_injective w)

theorem stopGroup_nodup (s : State) (n : CoreId) : (s.stopGroup n).Nodup := by
  unfold State.stopGroup
  split
  · split
    · exact List.nodup_singleton n
    · exact (crewCores_nodup _).filter _
  · exact List.nodup_nil

theorem heldGroup_nodup (s : State) (n : CoreId) (h : Held) : (s.heldGroup n h).Nodup := by
  unfold State.heldGroup
  split
  · exact List.nodup_singleton n
  · exact (crewCores_nodup _).filter _

/-- The core that holds a unit is of the group that comes back with it. -/
theorem mem_heldGroup {s : State} {n : CoreId} {h : Held} (hh : (s.coreAt n).held = some h) : n ∈ s.heldGroup n h := by
  unfold State.heldGroup
  split
  · exact List.mem_singleton_self n
  · rename_i hcrew
    refine List.mem_filter.mpr ⟨List.mem_map.mpr ⟨crewPos n, mem_allPos _, crewCore_crewOf n⟩, ?_⟩
    rw [hh]
    simpa using hcrew

/-- A core whose unit, if it has one, may be saved: no cancel waits for it. -/
def Savable (c : Core) : Prop := ∀ u, c.unit = some u → u.cancelPending = false

/-- The unit of core c stands in the shadow of core k as it stood, but for its stop and a reserved drain entry, which has landed (R247, R346). -/
def SavedTo (c k : Core) : Prop := ∀ u, c.unit = some u → ∃ h, k.unit = none ∧ k.held = some h ∧ h.unit = { u with stop := none } ∧
  h.ctx = c.ctx.drainLands ∧ h.pats = c.pats ∧ h.mcast = c.mcast ∧ h.bad = false ∧ k.heldq = c.efq

theorem Own.landReserved (n : CoreId) (s : State) : Own n s (s.landReserved n) := by
  unfold State.landReserved
  split
  · exact (Logged.count n s 22 1).own.trans (.modCore ..)
  · exact .refl n s

theorem landReserved_core (s : State) (n : CoreId) : ∃ d, (s.landReserved n).coreAt n = { s.coreAt n with ctx := (s.coreAt n).ctx.drainLands, dbg := d } := by
  unfold State.landReserved
  split
  · obtain ⟨d, hd⟩ := (Logged.count n s 22 1).core
    refine ⟨d, ?_⟩
    unfold State.modCtx
    rw [State.coreAt_modCore, hd]
  · rename_i hnone
    refine ⟨(s.coreAt n).dbg, ?_⟩
    have hsame : (s.coreAt n).ctx.drainLands = (s.coreAt n).ctx := by
      unfold Ctx.drainLands
      rw [Option.not_isSome_iff_eq_none.mp hnone]
    rw [hsame]

theorem saveOne_own {s : State} {n : CoreId} (h : Savable (s.coreAt n)) : Own n s (s.saveOne n) := by
  unfold State.saveOne
  split
  · exact .refl n s
  · rename_i u hu
    rw [h u hu, if_neg Bool.false_ne_true]
    exact ((Own.landReserved n s).trans (Logged.traceUnit ..).own).trans (.modCore ..)

theorem saveOne_saves {s : State} {n : CoreId} (h : Savable (s.coreAt n)) : SavedTo (s.coreAt n) ((s.saveOne n).coreAt n) := by
  intro u hu
  obtain ⟨d, hd⟩ := landReserved_core s n
  obtain ⟨e, he⟩ := (Logged.traceUnit n (s.landReserved n) u 6 0).core
  unfold State.saveOne
  simp only [hu, h u hu, Bool.false_eq_true, if_false, State.coreAt_modCore, he, hd]
  exact ⟨_, rfl, rfl, rfl, rfl, rfl, rfl, rfl, rfl⟩

theorem contextSave_saves {s : State} {n : CoreId} (h : ∀ m ∈ s.stopGroup n, (s.coreAt m).stoppedFor .preempt = true ∧ (s.coreAt m).held = none ∧
      ∀ u, (s.coreAt m).unit = some u → u.cancelPending = false) :
    ∃ t, exec (.contextSave n) s = .next t ∧ t.mem = s.mem ∧ t.slots = s.slots ∧ (∀ m, m ∉ s.stopGroup n → t.coreAt m = s.coreAt m) ∧
      ∀ m ∈ s.stopGroup n, SavedTo (s.coreAt m) (t.coreAt m) := by
  have hall : ((s.stopGroup n).all fun m => (s.coreAt m).stoppedFor .preempt && (s.coreAt m).held.isNone) = true := by
    rw [List.all_eq_true]
    intro m hm
    obtain ⟨hstop, hheld, -⟩ := h m hm
    simp [hstop, hheld]
  refine ⟨_, rfl, ?_⟩
  unfold State.contextSave
  dsimp only
  rw [if_pos hall]
  exact foldl_own (C := Savable) (P := SavedTo) (f := fun s m => s.saveOne m) (fun s n hn => saveOne_own hn) (fun s n hn => saveOne_saves hn)
    (stopGroup_nodup s n) s fun m hm => (h m hm).2.2

/-- The unit that the shadow of core c holds is back on core k, or leaves it where the shadow is lost (R362, R364). -/
def RestoredTo (c k : Core) : Prop := ∀ g, c.held = some g → k.held = none ∧ k.frozen = none ∧
  (g.bad = false → k.unit = some g.unit ∧ k.ctx = g.ctx ∧ k.pats = g.pats ∧ k.mcast = g.mcast ∧ k.efq = c.heldq) ∧
  (g.bad = true → ∃ l, k.leaving = c.leaving ++ [l] ∧ l.unit = g.unit ∧ l.cancelled = true ∧ l.fault = true ∧ l.status = 3)

theorem Own.restoreOne (n : CoreId) (s : State) : Own n s (s.restoreOne n) := by
  unfold State.restoreOne
  split
  · exact .refl n s
  · split
    · exact .modCore ..
    · dsimp only
      refine Own.trans ?_ (Logged.traceUnit ..).own
      exact (Own.modCore n s _).trans (.modCore n _ _)

/-- The unit comes back; the core's images stand. -/
theorem restoreOne_restores (s : State) (n : CoreId) : RestoredTo (s.coreAt n) ((s.restoreOne n).coreAt n) ∧
    ((s.restoreOne n).coreAt n).images = (s.coreAt n).images := by
  unfold State.restoreOne
  split
  · rename_i hnone
    exact ⟨fun g hg => absurd (hnone.symm.trans hg) (by simp), rfl⟩
  · rename_i h hh
    split
    · rename_i hbad
      rw [State.coreAt_modCore]
      refine ⟨fun g hg => ?_, rfl⟩
      obtain rfl : h = g := Option.some.inj (hh.symm.trans hg)
      exact ⟨rfl, rfl, fun hgood => absurd (hbad.symm.trans hgood) (by decide), fun _ => ⟨_, rfl, rfl, rfl, rfl, rfl⟩⟩
    · rename_i hgood
      dsimp only
      obtain ⟨d, hd⟩ := (Logged.traceUnit n (State.resumePreempted _ n h.unit.serial) h.unit 3 0).core
      rw [hd]
      unfold State.resumePreempted
      rw [State.coreAt_modCore, State.coreAt_modCore]
      refine ⟨fun g hg => ?_, rfl⟩
      obtain rfl : h = g := Option.some.inj (hh.symm.trans hg)
      exact ⟨rfl, rfl, fun _ => ⟨rfl, rfl, rfl, rfl, rfl⟩, fun hbad => absurd hbad hgood⟩

theorem Own.swapIn (n : CoreId) (s : State) (p : Fin 32) : Own n s (s.swapIn n p) := by
  unfold State.swapIn
  dsimp only
  exact .modCore ..

theorem swapIn_idle {s : State} {n : CoreId} {p : Fin 32} (h : ∀ x ∈ (s.coreAt n).images, x.part ≠ p) : (s.swapIn n p).coreAt n = s.coreAt n := by
  have hnone : ((s.coreAt n).images.find? fun x => decide (x.part = p)) = none := List.find?_eq_none.mpr fun x hx => by simpa using h x hx
  unfold State.swapIn
  dsimp only
  rw [State.coreAt_modCore, hnone]
  exact ite_self _

theorem contextRestore_restores {s : State} {n : CoreId} {h : Held} (hdue : s.restoreDue n = true) (hh : (s.coreAt n).held = some h)
    (himg : ∀ m ∈ s.heldGroup n h, ∀ x ∈ (s.coreAt m).images, x.part ≠ h.unit.part) :
    ∃ t, exec (.contextRestore n) s = .next t ∧ t.mem = s.mem ∧ t.slots = s.slots ∧ (∀ m, m ∉ s.heldGroup n h → t.coreAt m = s.coreAt m) ∧
      n ∈ s.heldGroup n h ∧ ∀ m ∈ s.heldGroup n h, RestoredTo (s.coreAt m) (t.coreAt m) := by
  have hgroup := foldl_own (C := fun c => ∀ x ∈ c.images, x.part ≠ h.unit.part) (P := RestoredTo)
    (f := fun s m => (s.restoreOne m).swapIn m h.unit.part) (fun s n _ => (Own.restoreOne n s).trans (.swapIn ..))
    (fun s n hn => by
      obtain ⟨hback, himages⟩ := restoreOne_restores s n
      rw [swapIn_idle (by rwa [himages])]
      exact hback)
    (heldGroup_nodup s n h) s himg
  obtain ⟨hmem, hslots, hout, hin⟩ := hgroup
  refine ⟨s.contextRestore n, rfl, ?_⟩
  unfold State.contextRestore
  simp only [hdue, hh]
  exact ⟨hmem, hslots, hout, mem_heldGroup hh, hin⟩

theorem cancelTimeout_leaves {s : State} {n : CoreId} {u : UnitInfo} (hlate : s.cancelLate n = true) (hu : (s.coreAt n).unit = some u) :
    ∃ t, exec (.cancelTimeout n) s = .next t ∧ left t n u true := by
  obtain ⟨hunit, hleaving⟩ := leaveUnit_unit true false 0 hu
  refine ⟨s.leaveUnit n true false 0, ?_, hunit, _, by rw [hleaving]; exact List.mem_append_right _ (List.mem_singleton_self _), rfl, rfl, rfl, rfl⟩
  show Host.Outcome.next (if s.cancelLate n then s.leaveUnit n true false 0 else s) = _
  rw [if_pos hlate]

/-! ## Slices (R404 to R406) -/

/-- A change of every shared crew's record that keeps whose it is. -/
theorem find?_map_crew (l : List Shared) (f : Shared → Shared) (hf : ∀ h, (f h).crew = h.crew) (w : CrewId) :
    (l.map f).find? (fun h => decide (h.crew = w)) = (l.find? fun h => decide (h.crew = w)).map f := by
  rw [List.find?_map]
  congr 1
  exact congrArg (fun p => l.find? p) (funext fun h => by simp [hf])

theorem sharedOf_crew {s : State} {w : CrewId} {h : Shared} (hw : s.sharedOf w = some h) : h.crew = w := by
  simpa using List.find?_some hw

theorem sharedOf_modShared {s : State} {w : CrewId} {h : Shared} {f : Shared → Shared} (hw : s.sharedOf w = some h) (hf : ∀ h, (f h).crew = h.crew) :
    (s.modShared w f).sharedOf w = some (f h) := by
  have hmap := find?_map_crew s.shared (fun h => if h.crew = w then f h else h) (fun h => by split; exacts [hf h, rfl]) w
  rw [← State.sharedOf, hw, Option.map_some, if_pos (sharedOf_crew hw)] at hmap
  exact hmap

theorem settle_kept (h : Shared) (now mhz : Nat) : (h.settle now mhz).crew = h.crew ∧ (h.settle now mhz).cur = h.cur := by
  unfold Shared.settle
  split <;> exact ⟨rfl, rfl⟩

theorem sharedOf_settleSlices {s : State} {w : CrewId} {h : Shared} (d : DieId) (hw : s.sharedOf w = some h) :
    ∃ g, (s.settleSlices d).sharedOf w = some g ∧ g.cur = h.cur := by
  refine ⟨_, (find?_map_crew s.shared _ (fun h => ?_) w).trans (by rw [← State.sharedOf, hw]; rfl), ?_⟩
  · split
    exacts [(settle_kept ..).1, rfl]
  · dsimp only
    split
    exacts [(settle_kept ..).2, rfl]

theorem postStop_shared (s : State) (n : CoreId) (why : StopWhy) (urgent : Bool) : (s.postStop n why urgent).shared = s.shared := by
  have hurgent : ∀ u : State, (u.makeUrgent n).shared = u.shared := fun u => by
    unfold State.makeUrgent
    dsimp only
    split
    · exact (Logged.conflictRecord ..).shared
    · rfl
  unfold State.postStop
  dsimp only
  split
  · exact hurgent _
  · rfl

/-- A running unit of a shared crew gets its boundary stop at the slice's end (R405). -/
def sliceStop (s : State) (n : CoreId) : State := if (s.coreAt n).unit.isSome then s.postStop n .slice false else s

theorem sliceEnd_eq {s : State} {w : CrewId} (h : s.sliceOver w = true) : s.sliceEnd w =
    (allPos.map fun p => crewCore w p).foldl sliceStop ((s.settleSlices (crewDie w)).modShared w fun h => { h with switching := true }) := by
  unfold State.sliceEnd
  rw [h, List.foldl_map]
  rfl

theorem stopping_sliceStop_self (s : State) (n : CoreId) : Stopping n (sliceStop s n) := by
  unfold sliceStop
  split
  · exact stopping_postStop_self s n .slice false
  · rename_i hnone
    intro u hu
    rw [hu] at hnone
    exact absurd rfl hnone

theorem stopping_sliceStop (s : State) (n m : CoreId) (h : Stopping m s) : Stopping m (sliceStop s n) := by
  unfold sliceStop
  split
  · exact stopping_postStop n _ _ h
  · exact h

theorem foldl_sliceStop_shared (l : List CoreId) (s : State) : (l.foldl sliceStop s).shared = s.shared :=
  foldl_keeps (g := State.shared) (fun s n => by
    unfold sliceStop
    split
    · exact postStop_shared ..
    · rfl) l s

theorem sliceEnd_ends {s : State} {w : CrewId} {h : Shared} (hover : s.sliceOver w = true) (hw : s.sharedOf w = some h) :
    ∃ t g, exec (.sliceEnd w) s = .next t ∧ t.sharedOf w = some g ∧ g.switching = true ∧ g.cur = h.cur ∧ t.mem = s.mem ∧
      ∀ p : Fin 4, ∀ u, (t.coreAt (crewCore w p)).unit = some u → u.stop.isSome = true := by
  obtain ⟨g, hg, hcur⟩ := sharedOf_settleSlices (crewDie w) hw
  have hswitch := sharedOf_modShared (f := fun h => { h with switching := true }) hg fun _ => rfl
  refine ⟨s.sliceEnd w, { g with switching := true }, rfl, ?_, rfl, hcur, by simp, fun p => ?_⟩
  · rw [sliceEnd_eq hover]
    unfold State.sharedOf
    rw [foldl_sliceStop_shared]
    exact hswitch
  · rw [sliceEnd_eq hover]
    exact foldl_establishes stopping_sliceStop_self stopping_sliceStop _ _ _ (List.mem_map.mpr ⟨p, mem_allPos p, rfl⟩)

/-- An image that goes to its swap area (R405). -/
theorem swapOut_shared (s : State) (n : CoreId) : (s.swapOut n).shared = s.shared := by
  unfold State.swapOut
  dsimp only
  have hland := (Own.landReserved n s).shared
  split
  · split
    · rw [leaveUnit_shared]
      split
      · exact (Acted.homeStore ..).shared.trans hland
      · exact hland
    · refine ((Acted.homeStore ..).shared.trans (Logged.traceUnit ..).shared).trans ?_
      split
      · exact (Acted.homeStore ..).shared.trans hland
      · exact hland
  · show (State.shared _) = _
    split
    · exact (Acted.homeStore ..).shared.trans hland
    · exact hland

theorem foldl_swap_shared (w : CrewId) (p : Fin 32) (l : List (Fin 4)) (s : State) :
    (l.foldl (fun s q => (s.swapOut (crewCore w q)).swapIn (crewCore w q) p) s).shared = s.shared :=
  foldl_keeps (g := State.shared) (fun _ _ => (Own.swapIn ..).shared.trans (swapOut_shared ..)) l s

/-- The record of a crew as the switch leaves it: the slice of its next member, whose account starts again at 0 (R405, R406). -/
def nextSlice (h : Shared) (now nxt : Nat) (p : Fin 32) (len acct : Nat) (g : Shared) : Shared :=
  { g with cur := nxt, switching := false, mark := now, ends := now + len + min (acct / 1050) (len / 4)
           members := h.members.mapIdx fun i m => if i = nxt then (p, len, 0) else m }

theorem sliceSwitch_begins {s : State} {w : CrewId} {h : Shared} {p : Fin 32} {len acct : Nat} (hdue : s.switchDue w = true) (hw : s.sharedOf w = some h)
    (hne : h.members ≠ []) (hnext : h.members[(h.cur + 1) % h.members.length]? = some (p, len, acct)) :
    ∃ t g, exec (.sliceSwitch w) s = .next t ∧ t.sharedOf w = some g ∧ g.cur = (h.cur + 1) % h.members.length ∧ g.switching = false ∧
      g.ends = (s.die (crewDie w)).time + len + min (acct / 1050) (len / 4) ∧ g.members[g.cur]? = some (p, len, 0) := by
  have hlen : h.members.length ≠ 0 := fun h0 => hne (List.length_eq_zero_iff.mp h0)
  refine ⟨s.sliceSwitch w, nextSlice h (s.die (crewDie w)).time ((h.cur + 1) % h.members.length) p len acct h, rfl, ?_, rfl, rfl, rfl, ?_⟩
  · unfold State.sliceSwitch
    simp only [hdue, hw, if_neg hlen, hnext]
    refine sharedOf_modShared (h := h) ?_ fun _ => rfl
    unfold State.sharedOf
    rw [foldl_swap_shared]
    exact hw
  · simp only [nextSlice, List.getElem?_mapIdx, hnext, Option.map_some, if_true]

/-- Settles O49: the pre-emption and the slice's end give each unit its stop core by core; a save and a restore are a step of each core of the group, and
of no other. -/
theorem stopAndSliceEvents : Obligations.StopAndSliceEvents := by
  unfold Obligations.StopAndSliceEvents
  refine ⟨⟨fun s d p k hk hq => preempt_stops hk hq, fun s n u q hlate hu hq => boundaryStopTimeout_urgent hlate hu hq,
    fun s n u q hdue hu hq hwhy => urgentStopFreeze_freezes hdue hu hq hwhy, fun s n h => ?_,
    fun s n h hdue hh himg => contextRestore_restores hdue hh himg, fun s n u hlate hu => cancelTimeout_leaves hlate hu⟩,
    fun s w h hover hw => sliceEnd_ends hover hw, fun s w h p len acct hdue hw hne hnext => sliceSwitch_begins hdue hw hne hnext⟩
  exact contextSave_saves h

end Sys2Proof
end

section
/-! PROOF. The homes' answers, deadlines, polls, page walks and sends (R19, R52 to R54, R72, R75, R79, R92, R177, R178, R196, R416). -/

namespace Sys2Proof

open Machine Spec

/-! ## Slots -/

/-- A change of the elements that a predicate picks, which it picks still, changes the first of them. -/
theorem find?_map_if {α : Type} {q : α → Prop} [DecidablePred q] {f : α → α} (hf : ∀ x, q x → q (f x)) (l : List α) :
    (l.map fun x => if q x then f x else x).find? (fun x => decide (q x)) = (l.find? fun x => decide (q x)).map f := by
  induction l with
  | nil => rfl
  | cons x l ih =>
    by_cases hx : q x
    · simp [hx, hf x hx]
    · rw [List.map_cons, if_neg hx, List.find?_cons_of_neg (by simpa using hx), List.find?_cons_of_neg (by simpa using hx), ih]

/-- A slot changed at its home is the slot that stands there, changed. -/
theorem slot?_modSlot {f : Slot → Slot} (hf : ∀ t, (f t).pa = t.pa) (s : State) (pa : Nat) : (s.modSlot pa f).slot? pa = (s.slot? pa).map f := by
  unfold State.slot?
  rw [modSlot_slots]
  exact find?_map_if (fun t ht => (hf t).trans ht) _

/-- A die event changes a die in its counters alone (R384). -/
theorem countDie_die (s : State) (x : DieId) (code inc : Nat) (d : DieId) : ∃ c v, (s.countDie x code inc).die d = { s.die d with ecsel := c, ecval := v } := by
  unfold State.countDie
  by_cases hd : d = x
  · subst hd
    exact ⟨_, _, by rw [State.die_modDie]⟩
  · exact ⟨(s.die d).ecsel, (s.die d).ecval, by rw [State.die_modDie_ne _ _ _ _ hd]⟩

theorem crosses_die (s : State) (x d : DieId) : ∃ c v, (s.crosses x).die d = { s.die d with ecsel := c, ecval := v } := by
  obtain ⟨c, v, h⟩ := countDie_die s x 57 (Config.pick s.free 720 + 1) d
  obtain ⟨c', v', h'⟩ := countDie_die (s.countDie x 57 (Config.pick s.free 720 + 1)) x.other 58 (Config.pick s.free 720 + 1) d
  exact ⟨c', v', by unfold State.crosses; dsimp only; rw [h', h]⟩

/-- A guarded slot as the deadlines that have come leave it (R79). -/
def missedSlot (k p : Nat) (t : Slot) : Slot :=
  { t with arrived := 0, closed := true, late := t.late + BitVec.ofNat 32 k, dline := if p = 0 then BitVec.allOnes 64 else t.dline + BitVec.ofNat 64 (k * p) }

theorem overdue_eq {t : Slot} {now : Nat} (hkind : t.kind = 4) (hdl : t.dline ≠ BitVec.allOnes 64) (hnow : t.dline.toNat ≤ now) : t.overdue now =
    if (t.arg.extractLsb' 13 18).toNat * 4096 = 0 then 1 else (now - t.dline.toNat) / ((t.arg.extractLsb' 13 18).toNat * 4096) + 1 := by
  unfold Slot.overdue
  dsimp only
  refine if_neg ?_
  rintro (hk | hd | hl)
  exacts [hk hkind, hdl hd, absurd hl (Nat.not_lt.mpr hnow)]

theorem guardedDeadline_closes {s : State} {pa : Nat} {x : Slot} (hx : s.slot? pa = some x) (hkind : x.kind = 4) (hdl : x.dline ≠ BitVec.allOnes 64)
    (hnow : x.dline.toNat ≤ (s.die ((homeDie pa).getD .bow)).time) (hcut : (s.die ((homeDie pa).getD .bow)).snap = none) :
    let p := (x.arg.extractLsb' 13 18).toNat * 4096
    let k := if p = 0 then 1 else ((s.die ((homeDie pa).getD .bow)).time - x.dline.toNat) / p + 1
    ∃ t y, exec (.guardedDeadline pa) s = .next t ∧ t.slot? pa = some y ∧ t.mem = s.mem ∧ y.arrived = 0 ∧ y.closed = true ∧
      y.late = x.late + BitVec.ofNat 32 k ∧ y.phase = x.phase ∧ y.waiters = x.waiters ∧ y.expect = x.expect ∧
      y.dline = (if p = 0 then BitVec.allOnes 64 else x.dline + BitVec.ofNat 64 (k * p)) := by
  intro p k
  have hk : x.overdue (s.die ((homeDie pa).getD .bow)).time = k := overdue_eq hkind hdl hnow
  have hpos : k ≠ 0 := by
    show ite (p = 0) 1 (_ + 1) ≠ 0
    split
    exacts [Nat.one_ne_zero, Nat.succ_ne_zero _]
  refine ⟨_, missedSlot k p x, rfl, ?_, by simp, rfl, rfl, rfl, rfl, rfl, rfl, rfl⟩
  unfold State.deadline
  simp only [hx, hk, hcut]
  rw [if_pos ⟨hpos, rfl⟩]
  refine (slot?_modSlot (f := missedSlot k p) (fun _ => rfl) _ pa).trans ?_
  have hslot : (s.countDie ((homeDie pa).getD .bow) 50 k).slot? pa = s.slot? pa := by
    unfold State.slot? State.countDie
    rw [State.modDie_slots]
  rw [hslot, hx]
  rfl

/-! ## Answers of a home -/

/-- The one operation of the core that its home may answer. -/
theorem find?_of_unique {α : Type} {p q : α → Bool} {l : List α} {x : α} (hfirst : l.find? q = some x) (hp : p x = true) (hpq : ∀ y ∈ l, p y = true → q y = true) :
    l.find? p = some x := by
  induction l with
  | nil => cases hfirst
  | cons y l ih =>
    by_cases hy : p y = true
    · have hqy := hpq y (by simp) hy
      rw [List.find?_cons, hqy] at hfirst
      rw [List.find?_cons, hy]
      exact hfirst
    · have hyx : q y = false := by
        by_contra hq
        rw [Bool.not_eq_false] at hq
        rw [List.find?_cons, hq] at hfirst
        exact hy (Option.some.inj hfirst ▸ hp)
      rw [List.find?_cons, hyx] at hfirst
      rw [List.find?_cons, eq_false_of_ne_true hy]
      exact ih hfirst fun z hz => hpq z (by simp [hz])

/-- The A seat of the running unit u stands at its operation o, which is to be answered. -/
structure Asking (c : Core) (u : UnitInfo) (o : MemOp) : Prop where
  await : c.ctx.await = some (.answer o.id)
  unit : c.unit = some u
  owner : u.serial = o.owner
  op : c.op? o.id = some o

section

variable {s : State} {n : CoreId} {u : UnitInfo} {o : MemOp}

theorem asking_of_asksHome (h : asksHome s n u o) : Asking (s.coreAt n) u o := by
  obtain ⟨hawait, hu, hown, ⟨hop, -⟩, -⟩ := h
  exact ⟨hawait, hu, hown, hop⟩

theorem Asking.standsAt {c : Core} (h : Asking c u o) : c.standsAt o.id = true := by simp [Core.standsAt, h.await]

theorem homeAnswer_find (h : asksHome s n u o) (hkind : (∃ a b c d, o.kind = .aset a b c d) ∨ ∃ a, o.kind = .afree a) :
    ((s.coreAt n).ops.find? fun o => (s.coreAt n).asks o && s.mayStep n o) = some o := by
  have hstands := (asking_of_asksHome h).standsAt
  obtain ⟨-, -, -, ⟨hop, hmay, -⟩, hone⟩ := h
  have hasks : (s.coreAt n).asks o = true := by
    unfold Core.asks
    obtain ⟨_, _, _, _, hk⟩ | ⟨_, hk⟩ := hkind <;> simp [hk, hstands]
  refine find?_of_unique hop (by rw [hasks, hmay]; rfl) fun e he hall => decide_eq_true (hone e he ?_)
  simp only [Core.asks, Bool.and_eq_true] at hall
  obtain ⟨⟨hkind, -⟩, -⟩ := hall
  split at hkind
  · exact .inl ⟨_, _, _, _, ‹_›⟩
  · exact .inr ⟨_, ‹_›⟩
  · cases hkind

theorem homeAnswer_aset {rec_ slot rb : Nat} {va : Dw} (h : asksHome s n u o) (hkind : o.kind = .aset rec_ slot rb va) :
    s.homeAnswer n = s.answerAset n o rec_ slot va := by
  unfold State.homeAnswer
  rw [homeAnswer_find h (.inl ⟨_, _, _, _, hkind⟩)]
  simp only [hkind]

theorem homeAnswer_afree {slot : Nat} (h : asksHome s n u o) (hkind : o.kind = .afree slot) : s.homeAnswer n = s.answerAfree n o slot := by
  unfold State.homeAnswer
  rw [homeAnswer_find h (.inr ⟨_, hkind⟩)]
  simp only [hkind]

theorem ownerUnit_of_asking (h : Asking (s.coreAt n) u o) : (s.coreAt n).ownerUnit o.owner = some u := by
  simp [Core.ownerUnit, h.unit, h.owner]

/-- What the unit on the core changes of its own context. -/
theorem modOwner_running {c : Core} {u : UnitInfo} {serial : Nat} (hu : c.unit = some u) (hown : u.serial = serial) (f : Ctx → Ctx) :
    c.modOwner serial f = { c with ctx := f c.ctx } := by
  unfold Core.modOwner
  simp [hu, hown]

/-- A refused word traps: the cause stands in the A seat, and neither memory nor a slot changes (R70, R177, R178). -/
theorem refuse_traps (h : Asking (s.coreAt n) u o) (q : Cause) (tval : Dw) : (s.refuse n o.id q tval).slots = s.slots ∧ (s.refuse n o.id q tval).mem = s.mem ∧
    ∃ c, (((s.refuse n o.id q tval).coreAt n).ctx.seat .a).cause = some c ∧ c.cause = q ∧ (q.tvalStated = true → c.tval = tval) := by
  have hstands := h.standsAt
  unfold State.refuse
  simp only [hstands, if_true]
  refine ⟨rfl, by simp, ?_⟩
  unfold State.raise State.modCtx
  rw [State.coreAt_modCore]
  simp only [Ctx.seat_modSeat]
  exact ⟨_, rfl, rfl, fun hstated => if_pos hstated⟩

theorem finishOp_core (h : Asking (s.coreAt n) u o) : (s.finishOp n o.id).coreAt n = { s.coreAt n with
    ops := (s.coreAt n).ops.filter fun e => decide (e.id ≠ o.id)
    ctx := { (s.coreAt n).ctx with osprf := (s.coreAt n).ctx.osprf.set o.os.toFin ((s.coreAt n).ctx.osprf.get o.os.toFin + 1) } } := by
  unfold State.finishOp
  rw [State.coreAt_modCore]
  simp only [h.op]
  refine modOwner_running (u := u) ?_ h.owner _
  exact h.unit

/-- An answered word is done: its operation has left, and the A seat goes on behind it. -/
theorem answered_goesOn (h : Asking (s.coreAt n) u o) : goesOn s (s.answered n o.id) n o := by
  obtain ⟨d, hd⟩ := (Logged.logEntry n (s.finishOp n o.id) 4 .a 0 0 []).core
  have hmove := advance_seq { (s.finishOp n o.id).coreAt n |>.ctx with await := none } .a
  have hcore : (s.answered n o.id).coreAt n = { (s.finishOp n o.id).coreAt n with
      dbg := d, ctx := ({ ((s.finishOp n o.id).coreAt n).ctx with await := none } : Ctx).advance .a .seq } := by
    unfold State.answered
    rw [if_pos (h.standsAt)]
    unfold State.modCtx State.logWake
    rw [State.coreAt_modCore, hd]
  have hfin := finishOp_core h
  unfold goesOn counted
  refine ⟨?_, ⟨?_, ?_⟩, fun hloop hslots => ?_⟩
  · rw [hcore]
    exact hmove.regs.await
  · rw [hcore, hfin]
    unfold Core.op?
    exact List.find?_eq_none.mpr fun e he => by simpa using (List.mem_filter.mp he).2
  · rw [hcore]
    refine hmove.regs.osprf.trans ?_
    rw [hfin]
  · rw [hcore]
    have hseat := hmove.seat
    have hsame : ({ ((s.finishOp n o.id).coreAt n).ctx with await := none } : Ctx).seat .a = (s.coreAt n).ctx.seat .a := by rw [hfin]; rfl
    unfold ToNext at hseat
    rw [hsame, hloop] at hseat
    simp only [hslots, if_true] at hseat
    dsimp only
    rw [hseat]

theorem answered_slots (s : State) (n : CoreId) (id : Nat) : (s.answered n id).slots = s.slots := by
  have hfin : (s.finishOp n id).slots = s.slots := rfl
  unfold State.answered
  split
  · exact (Logged.logEntry n (s.finishOp n id) 4 .a 0 0 []).slots.trans hfin
  · exact hfin

/-- An A seat that waits for an answer watches no line. -/
theorem wakeLine_asking (h : Asking (s.coreAt n) u o) (pa k : Nat) : (s.wakeLine pa k).coreAt n = s.coreAt n := by
  rw [wakeLine_coreAt, h.await]
  show { s.coreAt n with ctx := { (s.coreAt n).ctx with await := some (.answer o.id) } } = _
  rw [← h.await]

/-- Where the home changes its slots and memory and answers, the word is done. -/
theorem changed_goesOn {v : State} (h : Asking (s.coreAt n) u o) (hv : v.coreAt n = s.coreAt n) (pa k : Nat) :
    goesOn s ((v.wakeLine pa k).answered n o.id) n o := by
  have hcore : (v.wakeLine pa k).coreAt n = s.coreAt n := by rw [wakeLine_asking (by rw [hv]; exact h), hv]
  have hgo := answered_goesOn (s := v.wakeLine pa k) (by rw [hcore]; exact h)
  unfold goesOn counted at hgo ⊢
  rwa [hcore] at hgo

end

/-- A slot that the checks of ASET accept has its region in memory (R68, R428). -/
theorem asetCheck_space {s : State} {n : CoreId} {cx : Fin 64} {ag : Agent} {slot base : Nat} {rva : Dw} {r : BitVec 512}
    (h : s.asetCheck n cx ag slot base rva r = none) : ∃ sp, spaceOf base = some sp := by
  cases hsp : spaceOf base with
  | some sp => exact ⟨sp, rfl⟩
  | none =>
    have hsame : ∀ k, sameSpace base k = false := fun k => by simp [sameSpace, hsp]
    unfold State.asetCheck at h
    simp [hsame] at h

/-- The slot that an accepted record makes (R67 to R69, R176): `e` is its entry of the region table. -/
def madeSlot (n : CoreId) (u : UnitInfo) (slot pa : Nat) (r : BitVec 512) (e : BitVec 2 × BitVec 12) : Slot :=
  { pa := slot, expect := r.extractLsb' 0 32, arrived := 0, waiters := [], region := e.2, tag := e.1, kind := r.extractLsb' 32 3, phase := false
    arg := r.extractLsb' 64 32, closed := false, ovr := false, base := pa, len64 := recU r 192 25, late := 0
    dline := if r.extractLsb' 256 64 = 0 ∨ r.extractLsb' 32 3 ≠ (4 : BitVec 3) then BitVec.allOnes 64 else r.extractLsb' 256 64
    die := dieOf n, ctx := u.ctx, part := u.part, poisoned := false, wlog := [] }

section

variable {s : State} {n : CoreId} {u : UnitInfo} {o : MemOp} {rec_ slot rb pa : Nat} {va : Dw}

/-- ASET answered: its check decides. -/
theorem answerAset_eq (h : Asking (s.coreAt n) u o) (hpoison : s.poisoned rec_ 64 = false)
    (htr : translate s n u.ctx u.part (.seat .a) false needRd false ((s.recAt rec_).extractLsb' 128 64) 1 = .ok pa) :
    s.answerAset n o rec_ slot va = match s.asetCheck n u.ctx (.seat .a) slot pa ((s.recAt rec_).extractLsb' 128 64) (s.recAt rec_) with
      | some c => s.refuse n o.id c o.va
      | none => match spaceOf pa with
        | none => s.refuse n o.id .slotPlacement ((s.recAt rec_).extractLsb' 128 64)
        | some sp => ({ s with slots := s.slots ++ [madeSlot n u slot pa (s.recAt rec_)
            ((s.freeEntries sp).getD (s.choose 2 (s.freeEntries sp).length) (0, 0))] }.wakeLine slot 16).answered n o.id := by
  have hown := ownerUnit_of_asking h
  have hctx : (s.coreAt n).ownerCtxNum o.owner = u.ctx := by simp [Core.ownerCtxNum, hown]
  have hpart : (s.coreAt n).ownerPart o.owner = u.part := by simp [Core.ownerPart, hown]
  unfold State.answerAset
  simp only [hpoison, hctx, hpart, h.standsAt, htr, Bool.false_eq_true, if_false, if_true]
  rfl

theorem aset_refused (h : asksHome s n u o) (hkind : o.kind = .aset rec_ slot rb va) (hpoison : s.poisoned rec_ 64 = false)
    (htr : translate s n u.ctx u.part (.seat .a) false needRd false ((s.recAt rec_).extractLsb' 128 64) 1 = .ok pa) {q : Cause}
    (hq : s.asetCheck n u.ctx (.seat .a) slot pa ((s.recAt rec_).extractLsb' 128 64) (s.recAt rec_) = some q) :
    ∃ t c, exec (.homeAnswer n) s = .next t ∧ t.slots = s.slots ∧ t.mem = s.mem ∧ ((t.coreAt n).ctx.seat .a).cause = some c ∧ c.cause = q ∧
      (q.tvalStated = true → c.tval = o.va) := by
  have hask := asking_of_asksHome h
  obtain ⟨hslots, hmem, c, hc⟩ := refuse_traps hask q o.va
  have hto : s.homeAnswer n = s.refuse n o.id q o.va := by rw [homeAnswer_aset h hkind, answerAset_eq hask hpoison htr, hq]
  exact ⟨_, c, congrArg Host.Outcome.next hto, hslots, hmem, hc⟩

theorem aset_lives (h : asksHome s n u o) (hkind : o.kind = .aset rec_ slot rb va) (hpoison : s.poisoned rec_ 64 = false)
    (htr : translate s n u.ctx u.part (.seat .a) false needRd false ((s.recAt rec_).extractLsb' 128 64) 1 = .ok pa)
    (hq : s.asetCheck n u.ctx (.seat .a) slot pa ((s.recAt rec_).extractLsb' 128 64) (s.recAt rec_) = none) :
    ∃ t e, exec (.homeAnswer n) s = .next t ∧ t.slots = s.slots ++ [madeSlot n u slot pa (s.recAt rec_) e] ∧ goesOn s t n o := by
  have hask := asking_of_asksHome h
  obtain ⟨sp, hsp⟩ := asetCheck_space hq
  have hto := answerAset_eq (slot := slot) (va := va) hask hpoison htr
  rw [hq] at hto
  simp only [hsp] at hto
  refine ⟨_, (s.freeEntries sp).getD (s.choose 2 (s.freeEntries sp).length) (0, 0), congrArg Host.Outcome.next ((homeAnswer_aset h hkind).trans hto), ?_,
     changed_goesOn (v := { s with slots := s.slots ++ [_] }) hask rfl slot 16⟩
  rw [answered_slots, wakeLine_slots]

/-- The slot is no more, and its 16 bytes are zero (R178). -/
def freedSlot (s : State) (slot : Nat) : State :=
  { s with slots := s.slots.filter fun u => decide (u.pa ≠ slot), mem := memWriteBytes s.mem slot (leBytes 0 16) }

theorem afree_frees (h : asksHome s n u o) (hkind : o.kind = .afree slot) {x : Slot} (hx : s.slot? slot = some x) (hw : x.waiters = []) :
    ∃ t, exec (.homeAnswer n) s = .next t ∧ t.slots = s.slots.filter (fun u => decide (u.pa ≠ slot)) ∧ goesOn s t n o ∧
      (MemInv s → wrote s t slot (leBytes 0 16)) := by
  have hask := asking_of_asksHome h
  have hto : s.homeAnswer n = ((freedSlot s slot).wakeLine slot 16).answered n o.id := by
    rw [homeAnswer_afree h hkind]
    unfold State.answerAfree
    simp only [hx, hw, ne_eq, not_true_eq_false, if_false]
    rfl
  refine ⟨_, congrArg Host.Outcome.next hto, ?_, changed_goesOn (v := freedSlot s slot) hask rfl slot 16, fun hinv a => ?_⟩
  · rw [answered_slots, wakeLine_slots]
    rfl
  · have hmem : (((freedSlot s slot).wakeLine slot 16).answered n o.id).mem = memWriteBytes s.mem slot (leBytes 0 16) := by simp [freedSlot]
    rw [hmem]
    split
    · rename_i hin
      obtain ⟨j, rfl⟩ := Nat.exists_eq_add_of_le hin.1
      rw [memRead_memWriteBytes _ _ _ j hinv (by omega), Nat.add_sub_cancel_left, List.getD_eq_getElem _ _ (by omega)]
    · rename_i hout
      exact memRead_memWriteBytes_ne _ _ _ a hinv (by omega)

theorem afree_traps (h : asksHome s n u o) {q : Cause} (hstated : q.tvalStated = true) (hto : s.homeAnswer n = s.refuse n o.id q o.va) :
    ∃ t c, exec (.homeAnswer n) s = .next t ∧ t.slots = s.slots ∧ ((t.coreAt n).ctx.seat .a).cause = some c ∧ c.cause = q ∧ c.tval = o.va := by
  obtain ⟨hslots, -, c, hc, hcause, htval⟩ := refuse_traps (asking_of_asksHome h) q o.va
  exact ⟨_, c, congrArg Host.Outcome.next hto, hslots, hc, hcause, htval hstated⟩

theorem afree_busy (h : asksHome s n u o) (hkind : o.kind = .afree slot) {x : Slot} (hx : s.slot? slot = some x) (hw : x.waiters ≠ []) :
    s.homeAnswer n = s.refuse n o.id .slotBusy o.va := by
  rw [homeAnswer_afree h hkind]
  unfold State.answerAfree
  simp only [hx, if_pos hw]

theorem afree_of_none (h : asksHome s n u o) (hkind : o.kind = .afree slot) (hx : s.slot? slot = none) :
    s.homeAnswer n = s.refuse n o.id .slotState o.va := by
  rw [homeAnswer_afree h hkind]
  unfold State.answerAfree
  simp only [hx]

end

/-! ## Polls and wakes -/

theorem logWake_core (s : State) (n : CoreId) (k : SeatId) : ∃ d, (s.logWake n k).coreAt n = { s.coreAt n with dbg := d } := (Logged.logEntry ..).core

theorem slotPoll_releases {s : State} {n : CoreId} {pa : Nat} {ph : Bool} {x : Slot} (hawait : (s.coreAt n).ctx.await = some (.await pa ph true none))
    (hx : s.slot? pa = some x) (hph : x.phase ≠ ph) :
    ∃ t at_, exec (.slotPoll (.await n)) s = .next t ∧ (t.coreAt n).ctx.await = some (.await pa ph true (some at_)) ∧ t.slots = s.slots := by
  obtain ⟨d, hd⟩ := logWake_core (s.modCtx n fun x => { x with await := some (.await pa ph true (some s.nextId)) }) n .a
  refine ⟨s.pollSlot (.await n), s.nextId, rfl, ?_⟩
  unfold State.pollSlot
  simp only [hawait, hx, decide_eq_true hph, if_true]
  refine ⟨?_, (Logged.logEntry ..).slots⟩
  rw [hd]
  unfold State.modCtx
  rw [State.coreAt_modCore]

theorem waitaWake_goesOn {s : State} {n : CoreId} {op pa : Nat} (hawait : (s.coreAt n).ctx.await = some (.line op pa true)) :
    ∃ t, exec (.waitaWake n) s = .next t ∧ (t.coreAt n).ctx.await = none ∧ t.slots = s.slots := by
  obtain ⟨d, hd⟩ := logWake_core (s.modCtx n fun x => { x with await := none }) n .a
  have hto : exec (.waitaWake n) s = .next ((s.modCtx n fun x => { x with await := none }).logWake n .a) := by
    show execWaitaWake n s = _
    unfold execWaitaWake
    rw [hawait]
  refine ⟨_, hto, ?_, (Logged.logEntry ..).slots⟩
  rw [hd]
  unfold State.modCtx
  rw [State.coreAt_modCore]

theorem cox?_modCox {x : Die} {e : Nat} {f : Cox → Cox} (hf : ∀ k, (f k).e = k.e) : (x.modCox e f).cox.find? (fun k => decide (k.e = e)) =
    (x.cox.find? fun k => decide (k.e = e)).map f := find?_map_if (fun k hk => (hf k).trans hk) _

/-- Settling a stream's state leaves the rest of its entry. -/
theorem coxSettle_find {s : State} {d : DieId} {e : Nat} {k : Cox} (hk : ((s.die d).cox.find? fun k => decide (k.e = e)) = some k) :
    ∃ j, (((s.coxSettle d e).die d).cox.find? fun k => decide (k.e = e)) = some j ∧ j.iarr = k.iarr ∧ j.seen = k.seen := by
  unfold State.coxSettle
  rw [State.die_modDie]
  refine ⟨_, (cox?_modCox ?_).trans (congrArg (Option.map _) hk), rfl, rfl⟩
  exact fun _ => rfl

theorem coxSlotPoll_arrives {s : State} {d : DieId} {e : Nat} {k : Cox} {x : Slot} (hk : ((s.die d).cox.find? fun k => decide (k.e = e)) = some k)
    (hpoll : k.polling = true) (hx : s.slot? k.islot = some x) (hph : x.phase ≠ k.seen) : ∃ t j, exec (.coxSlotPoll d e) s = .next t ∧
      ((t.die d).cox.find? fun k => decide (k.e = e)) = some j ∧ j.iarr = true ∧ j.seen = x.phase ∧ t.mem = s.mem ∧ t.slots = s.slots := by
  have hfind : ∃ j, (((s.coxPoll d e).die d).cox.find? fun k => decide (k.e = e)) = some j ∧ j.iarr = true ∧ j.seen = x.phase := by
    unfold State.coxPoll
    simp only [hk, hpoll, hx, if_neg hph, Bool.not_true, Bool.false_eq_true, if_false]
    generalize hv : State.modDie _ d _ = v
    have hseen : ∃ j, ((v.die d).cox.find? fun k => decide (k.e = e)) = some j ∧ j.iarr = true ∧ j.seen = x.phase := by
      rw [← hv, State.die_modDie]
      refine ⟨_, (cox?_modCox ?_).trans (congrArg (Option.map _) hk), rfl, rfl⟩
      exact fun _ => rfl
    obtain ⟨j, hj, harr, hseen⟩ := hseen
    obtain ⟨i, hi, hiarr, hiseen⟩ := coxSettle_find hj
    exact ⟨i, hi, hiarr.trans harr, hiseen.trans hseen⟩
  obtain ⟨j, hj, harr, hseen⟩ := hfind
  refine ⟨s.coxPoll d e, j, rfl, hj, harr, hseen, by simp, ?_⟩
  unfold State.coxPoll State.coxSettle
  simp only [hk, hpoll, hx, if_neg hph, Bool.not_true, Bool.false_eq_true, if_false, State.modDie_slots]

/-! ## Page walks (R52 to R54) -/

theorem pageWalkStart_starts {s : State} {d : DieId} {b r : List Walk} {w : Walk} (hwalks : (s.die d).walks = b ++ w :: r)
    (hb : ∀ x ∈ b, x.started = true) (hw : w.started = false) (hfree : ((s.die d).walks.filter fun x => x.started).length < 32) :
    ∃ t, exec (.pageWalkStart d) s = .next t ∧ (t.die d).walks = b ++ { w with started := true } :: r ∧ t.mem = s.mem ∧ t.cores = s.cores := by
  have hbefore : ((s.die d).walks.takeWhile fun w => w.started) = b := by
    rw [hwalks, List.takeWhile_append_of_pos hb, List.takeWhile_cons_of_neg (by simp [hw]), List.append_nil]
  have hto : s.startWalk d = (s.modDie d fun x => { x with walks := b ++ { w with started := true } :: r }).countDie d 51 1 := by
    unfold State.startWalk
    dsimp only
    rw [if_neg (Nat.not_le.mpr hfree), hbefore, hwalks, List.drop_left]
  obtain ⟨c, v, hcount⟩ := countDie_die (s.modDie d fun x => { x with walks := b ++ { w with started := true } :: r }) d 51 1 d
  refine ⟨_, congrArg Host.Outcome.next hto, ?_, by simp, by simp [State.countDie]⟩
  rw [hcount, State.die_modDie]

/-- The state without walk k of a die. -/
def withoutWalk (s : State) (d : DieId) (k : Nat) : State := s.modDie d fun x => { x with walks := x.walks.eraseIdx k }

/-- What a home answers does not depend on the walks. -/
theorem dwAt_withoutWalk (s : State) (d : DieId) (k : Nat) : (withoutWalk s d k).dwAt = s.dwAt := by
  have hdie : ∀ e, ((withoutWalk s d k).die e).time = (s.die e).time ∧ ((withoutWalk s d k).die e).snap = (s.die e).snap := fun e => by
    unfold withoutWalk
    by_cases he : e = d
    · subst he
      rw [State.die_modDie]
      exact ⟨rfl, rfl⟩
    · rw [State.die_modDie_ne _ _ _ _ he]
      exact ⟨rfl, rfl⟩
  have himage : (withoutWalk s d k).slotImage = s.slotImage := by
    funext t
    obtain ⟨htime, hsnap⟩ := hdie ((homeDie t.pa).getD .bow)
    unfold State.slotImage
    dsimp only
    rw [htime, hsnap]
  have hbyte : (withoutWalk s d k).byteAt = s.byteAt := by
    funext pa
    unfold State.byteAt
    rw [himage]
    unfold withoutWalk
    rw [State.modDie_slots, State.modDie_free, State.modDie_mem]
  funext pa
  unfold State.dwAt State.valueAt State.bytesAt
  rw [hbyte]

/-- The places that the walks of a context may reach: those of its partition (R400). -/
def walkReach (s : State) (d : DieId) (x : Fin 64) (pa : Nat) : Bool :=
  match s.ownerOf d x with | some p => s.mayReach p pa | none => false

theorem walkReach_withoutWalk (s : State) (d : DieId) (k : Nat) (x : Fin 64) : walkReach (withoutWalk s d k) d x = walkReach s d x := by
  have hpart : (withoutWalk s d k).part = s.part := by
    funext p e
    unfold State.part withoutWalk
    rw [State.modDie_parts]
  have hdrain : (withoutWalk s d k).drainOf d x = s.drainOf d x := by
    unfold State.drainOf withoutWalk
    rw [State.modDie_reconf]
  funext pa
  unfold walkReach State.ownerOf State.mayReach
  rw [hdrain, hpart]

/-- What walk w of a die finds in its tables. -/
def walkEnds (s : State) (d : DieId) (w : Walk) : WalkRes :=
  walkTables s.dwAt (walkReach s d w.ctx) d (w.page.toNat * 4096) 5 ((s.die d).contexts.get w.ctx).ptroot.toNat

theorem walkEnds_withoutWalk (s : State) (d : DieId) (k : Nat) (w : Walk) : walkEnds (withoutWalk s d k) d w = walkEnds s d w := by
  unfold walkEnds
  rw [dwAt_withoutWalk, walkReach_withoutWalk]
  unfold withoutWalk
  rw [State.die_modDie]

/-- The cached translation that a walk brings (R52). -/
def walkTlb (w : Walk) (e : Dw) : Tlb :=
  { ctx := w.ctx, va := BitVec.ofNat 64 (w.page.toNat * 4096 / pageBytes (pteSz e) * pageBytes (pteSz e)), size := pageBytes (pteSz e), leaf := e }

/-- The state as the end of a walk leaves it, by what it has found. -/
def walkOutcome (s : State) (d : DieId) (w : Walk) : WalkRes → Host.Outcome State Fault Refusal
  | .leaf e => .next ((if w.stale then s else s.modDie d fun x => { x with tlb := x.tlb ++ [walkTlb w e] }).answerWalk w (.leaf e))
  | .fault c => .next (s.answerWalk w (.fault c))
  | .breaks _ => .next (s.walkBreaks w)
  | .noLoc pa => .fault (.noLocation pa)

theorem pageWalkComplete_eq {s : State} {d : DieId} {k : Nat} {w : Walk} (hk : (s.die d).walks[k]? = some w) (hw : w.started = true) :
    exec (.pageWalkComplete d k) s = walkOutcome (withoutWalk s d k) d w (walkEnds s d w) := by
  rw [← walkEnds_withoutWalk s d k w]
  show execPageWalkComplete d k s = _
  unfold execPageWalkComplete
  simp only [hk, hw, Bool.not_true, Bool.false_eq_true, if_false]
  unfold walkOutcome
  rfl

/-- Every access that joined a walk has what it has brought; the dies and memory stand. -/
theorem answerWalk_answers (s : State) (w : Walk) (a : WalkAns) : (s.answerWalk w a).die = s.die ∧ (s.answerWalk w a).mem = s.mem ∧
    ∀ x ∈ w.waiters, (x.2, w.page, a) ∈ ((s.answerWalk w a).coreAt x.1).walkAns := by
  refine ⟨foldl_keeps (g := State.die) (fun _ _ => by exact rfl) w.waiters s, foldl_keeps (g := State.mem) (fun _ _ => by exact rfl) w.waiters s,
    foldl_establishes (J := fun x (s : State) => (x.2, w.page, a) ∈ (s.coreAt x.1).walkAns) ?_ ?_ w.waiters s⟩
  · intro s x
    rw [State.coreAt_modCore]
    exact List.mem_append_right _ (List.mem_singleton_self _)
  · intro s x y hy
    by_cases hxy : y.1 = x.1
    · rw [hxy, State.coreAt_modCore]
      exact List.mem_append_left _ (hxy ▸ hy)
    · rwa [State.coreAt_modCore_ne _ _ _ _ hxy]

theorem freezeCore_frozen (s : State) (n : CoreId) (c : Cause) : ((s.freezeCore n c).coreAt n).frozen = some .master := by
  unfold State.freezeCore
  split
  · assumption
  · rw [State.coreAt_outp, State.coreAt_modCore]

theorem freezeCopies_frozen (s : State) (n : CoreId) : ((s.freezeCopies n).coreAt n).cpFrozen = true := by
  unfold State.freezeCopies
  split
  · assumption
  · rw [State.coreAt_outp, State.coreAt_modCore]

/-- The freeze of one core leaves each core, or freezes it. -/
theorem freezeCore_core (s : State) (n m : CoreId) (c : Cause) : (s.freezeCore n c).coreAt m = s.coreAt m ∨
    (s.freezeCore n c).coreAt m = { s.coreAt m with frozen := some .master, hold := false } := by
  unfold State.freezeCore
  split
  · exact .inl rfl
  · by_cases hm : m = n
    · subst hm
      exact .inr (by rw [State.coreAt_outp, State.coreAt_modCore])
    · exact .inl (by rw [State.coreAt_outp, State.coreAt_modCore_ne _ _ _ _ hm])

theorem freezeCopies_core (s : State) (n m : CoreId) : (s.freezeCopies n).coreAt m = s.coreAt m ∨
    (s.freezeCopies n).coreAt m = { s.coreAt m with cpFrozen := true } := by
  unfold State.freezeCopies
  split
  · exact .inl rfl
  · by_cases hm : m = n
    · subst hm
      exact .inr (by rw [State.coreAt_outp, State.coreAt_modCore])
    · exact .inl (by rw [State.coreAt_outp, State.coreAt_modCore_ne _ _ _ _ hm])

/-- The master whose access waits is frozen: the copy engine for a copy's, the core for a seat's (R368). -/
def MasterFrozen (x : CoreId × Agent) (s : State) : Prop :=
  match x.2 with | .copy _ => (s.coreAt x.1).cpFrozen = true | _ => (s.coreAt x.1).frozen = some .master

/-- The freeze of the master whose access a walk serves. -/
def freezeMaster (s : State) (x : CoreId × Agent) : State :=
  match x.2 with
  | .copy _ => s.freezeCopies x.1
  | _ => s.freezeCore x.1 .protection

theorem masterFrozen_freezeMaster (s : State) (x : CoreId × Agent) : MasterFrozen x (freezeMaster s x) := by
  obtain ⟨n, a⟩ := x
  cases a
  case copy => exact freezeCopies_frozen ..
  all_goals exact freezeCore_frozen ..

/-- A freeze of one master leaves those that are frozen. -/
theorem MasterFrozen.kept {s : State} {y : CoreId × Agent} (x : CoreId × Agent) (h : MasterFrozen y s) : MasterFrozen y (freezeMaster s x) := by
  have hcore : (freezeMaster s x).coreAt y.1 = s.coreAt y.1 ∨ (freezeMaster s x).coreAt y.1 = { s.coreAt y.1 with cpFrozen := true } ∨
      (freezeMaster s x).coreAt y.1 = { s.coreAt y.1 with frozen := some .master, hold := false } := by
    unfold freezeMaster
    split
    · exact (freezeCopies_core ..).imp_right .inl
    · exact (freezeCore_core ..).imp_right .inr
  unfold MasterFrozen at h ⊢
  obtain hto | hto | hto := hcore <;> rw [hto]
  · exact h
  · split at h
    · rfl
    · exact h
  · split at h
    · exact h
    · rfl

theorem walkBreaks_freezes (s : State) (w : Walk) : (s.walkBreaks w).die = s.die ∧ (s.walkBreaks w).mem = s.mem ∧
    ∀ x ∈ w.waiters, MasterFrozen x (s.walkBreaks w) := by
  have hto : s.walkBreaks w = w.waiters.foldl freezeMaster s := rfl
  have hkept : ∀ (s : State) (x : CoreId × Agent), (freezeMaster s x).die = s.die ∧ (freezeMaster s x).mem = s.mem := fun s x => by
    unfold freezeMaster
    split
    · unfold State.freezeCopies
      split <;> exact ⟨rfl, rfl⟩
    · unfold State.freezeCore
      split <;> exact ⟨rfl, rfl⟩
  rw [hto]
  exact ⟨foldl_keeps (g := State.die) (fun s x => (hkept s x).1) w.waiters s, foldl_keeps (g := State.mem) (fun s x => (hkept s x).2) w.waiters s,
    foldl_establishes (J := MasterFrozen) masterFrozen_freezeMaster (fun _ x _ h => h.kept x) w.waiters s⟩

theorem withoutWalk_die (s : State) (d : DieId) (k : Nat) : ((withoutWalk s d k).die d).walks = (s.die d).walks.eraseIdx k ∧
    ((withoutWalk s d k).die d).tlb = (s.die d).tlb ∧ (withoutWalk s d k).mem = s.mem := by
  unfold withoutWalk
  rw [State.die_modDie, State.modDie_mem]
  exact ⟨rfl, rfl, rfl⟩

section

variable {s : State} {d : DieId} {k : Nat} {w : Walk}

theorem walk_cached (hk : (s.die d).walks[k]? = some w) (hw : w.started = true) {e : Dw} (hend : walkEnds s d w = .leaf e) (hstale : w.stale = false) :
    ∃ t x, exec (.pageWalkComplete d k) s = .next t ∧ (t.die d).walks = (s.die d).walks.eraseIdx k ∧ (t.die d).tlb = (s.die d).tlb ++ [x] ∧
      x.ctx = w.ctx ∧ x.leaf = e ∧ x.size = pageBytes (pteSz e) ∧ t.mem = s.mem ∧ ∀ a ∈ w.waiters, (a.2, w.page, .leaf e) ∈ (t.coreAt a.1).walkAns := by
  obtain ⟨hwalks, htlb, hmem⟩ := withoutWalk_die s d k
  obtain ⟨hdie, hmem', hans⟩ := answerWalk_answers ((withoutWalk s d k).modDie d fun x => { x with tlb := x.tlb ++ [walkTlb w e] }) w (.leaf e)
  refine ⟨_, walkTlb w e, ?_, ?_, ?_, rfl, rfl, rfl, hmem'.trans ((State.modDie_mem ..).trans hmem), hans⟩
  · rw [pageWalkComplete_eq hk hw, hend, walkOutcome, hstale, if_neg Bool.false_ne_true]
  · rw [hdie, State.die_modDie]
    exact hwalks
  · rw [hdie, State.die_modDie]
    exact congrArg (· ++ [walkTlb w e]) htlb

theorem walk_answered (hk : (s.die d).walks[k]? = some w) (hw : w.started = true) {a : WalkAns}
    (hend : walkOutcome (withoutWalk s d k) d w (walkEnds s d w) = .next ((withoutWalk s d k).answerWalk w a)) :
    ∃ t, exec (.pageWalkComplete d k) s = .next t ∧ (t.die d).walks = (s.die d).walks.eraseIdx k ∧ (t.die d).tlb = (s.die d).tlb ∧ t.mem = s.mem ∧
      ∀ x ∈ w.waiters, (x.2, w.page, a) ∈ (t.coreAt x.1).walkAns := by
  obtain ⟨hwalks, htlb, hmem⟩ := withoutWalk_die s d k
  obtain ⟨hdie, hmem', hans⟩ := answerWalk_answers (withoutWalk s d k) w a
  refine ⟨_, (pageWalkComplete_eq hk hw).trans hend, ?_, ?_, hmem'.trans hmem, hans⟩
  · rw [hdie, hwalks]
  · rw [hdie, htlb]

theorem walk_dropped (hk : (s.die d).walks[k]? = some w) (hw : w.started = true) {e : Dw} (hend : walkEnds s d w = .leaf e) (hstale : w.stale = true) :
    ∃ t, exec (.pageWalkComplete d k) s = .next t ∧ (t.die d).walks = (s.die d).walks.eraseIdx k ∧ (t.die d).tlb = (s.die d).tlb ∧ t.mem = s.mem ∧
      ∀ x ∈ w.waiters, (x.2, w.page, .leaf e) ∈ (t.coreAt x.1).walkAns :=
  walk_answered hk hw (by rw [hend, walkOutcome, hstale, if_pos rfl])

theorem walk_faults (hk : (s.die d).walks[k]? = some w) (hw : w.started = true) {c : Cause} (hend : walkEnds s d w = .fault c) :
    ∃ t, exec (.pageWalkComplete d k) s = .next t ∧ (t.die d).walks = (s.die d).walks.eraseIdx k ∧ (t.die d).tlb = (s.die d).tlb ∧ t.mem = s.mem ∧
      ∀ x ∈ w.waiters, (x.2, w.page, .fault c) ∈ (t.coreAt x.1).walkAns := walk_answered hk hw (by rw [hend, walkOutcome])

theorem walk_breaks (hk : (s.die d).walks[k]? = some w) (hw : w.started = true) {pa : Nat} (hend : walkEnds s d w = .breaks pa) :
    ∃ t, exec (.pageWalkComplete d k) s = .next t ∧ (t.die d).walks = (s.die d).walks.eraseIdx k ∧ (t.die d).tlb = (s.die d).tlb ∧ t.mem = s.mem ∧
      ∀ x ∈ w.waiters, MasterFrozen x t := by
  obtain ⟨hwalks, htlb, hmem⟩ := withoutWalk_die s d k
  obtain ⟨hdie, hmem', hfrozen⟩ := walkBreaks_freezes (withoutWalk s d k) w
  refine ⟨_, (pageWalkComplete_eq hk hw).trans (by rw [hend, walkOutcome]), ?_, ?_, hmem'.trans hmem, hfrozen⟩
  · rw [hdie, hwalks]
  · rw [hdie, htlb]

end

/-! ## Sends held for the peer (R416) -/

theorem mirrorAck_sends {s : State} {d : DieId} {sid : Nat} {x : Send} {z : Session}
    (hx : ((s.die d).sends.find? fun x => decide (x.sid = sid) && x.mirrored) = some x) (hmay : s.maySend d sid = true)
    (hz : (s.die d).session? sid = some z) : ∃ t, exec (.mirrorAck d sid) s = .next t ∧ (t.die d).sends = (s.die d).sends.erase x ∧ t.mem = s.mem ∧
      t.outs = s.outs ++ [.chunk d sid z.raddr z.rjob z.rpid z.rod (leBytes (sid % 8192 + x.seq.toNat * 2 ^ 32) 8 ++ leBytes x.time 8 ++ x.bytes)] := by
  have hsid : x.sid = sid := by
    have hsel := List.find?_some hx
    simp only [Bool.and_eq_true, decide_eq_true_eq] at hsel
    exact hsel.1
  have hsession : ((s.modDie d fun y => { y with sends := y.sends.erase x }).die d).session? x.sid = some z := by
    rw [State.die_modDie, hsid]
    exact hz
  obtain ⟨c, v, hcount⟩ := countDie_die (s.modDie d fun y => { y with sends := y.sends.erase x }) d 60 1 d
  refine ⟨s.mirrorAck d sid, rfl, ?_⟩
  unfold State.mirrorAck
  simp only [hmay, Bool.and_true, hx]
  unfold State.sendChunk State.sendOp
  rw [hsession]
  refine ⟨?_, by simp, ?_⟩
  · show ((State.countDie _ d 60 1).die d).sends = _
    rw [hcount, State.die_modDie]
  · rw [hsid]
    show (State.countDie _ d 60 1).outs ++ _ = _
    unfold State.countDie
    rw [State.modDie_outs, State.modDie_outs]
    rfl

/-- The entry of a session that the peer's sequence has come to (R416). -/
def sentUpTo (q : Word) (z : Session) : Session := { z with lastsent := q }

theorem setLast_sessions (x : Die) (sid : Nat) (q : Word) : (x.setLast sid q).sessions =
    if x.sessions.any (fun z => decide (z.sid = sid)) then x.sessions.map fun z => if z.sid = sid then sentUpTo q z else z
    else x.sessions ++ [.closed sid q] := by
  unfold Die.setLast
  split <;> rfl

theorem lastSent_setLast (x : Die) (sid : Nat) (q : Word) : (x.setLast sid q).lastSent sid = q := by
  have hlast : ∀ (y : Die) (z : Session), (y.sessions.find? fun z => decide (z.sid = sid)) = some z → y.lastSent sid = z.lastsent := fun y z hz => by
    unfold Die.lastSent
    rw [hz]
  cases hz : x.sessions.find? fun z => decide (z.sid = sid) with
  | some z =>
    have hany : (x.sessions.any fun z => decide (z.sid = sid)) = true :=
      List.any_eq_true.mpr ⟨z, List.mem_of_find?_eq_some hz, List.find?_some (p := fun z : Session => decide (z.sid = sid)) hz⟩
    refine hlast _ (sentUpTo q z) ?_
    rw [setLast_sessions, if_pos hany, find?_map_if (f := sentUpTo q) (fun _ hz => hz), hz]
    rfl
  | none =>
    have hany : ¬(x.sessions.any fun z => decide (z.sid = sid)) = true := fun hany => by
      obtain ⟨z, hmem, hsid⟩ := List.any_eq_true.mp hany
      exact List.find?_eq_none.mp hz z hmem hsid
    refine hlast _ (.closed sid q) ?_
    rw [setLast_sessions, if_neg hany]
    exact find?_append_singleton_self hz (decide_eq_true rfl)

theorem session?_setLast {x : Die} {sid : Nat} {z : Session} (q : Word) (hz : x.session? sid = some z) :
    (x.setLast sid q).session? sid = some (sentUpTo q z) := by
  have hsel : z.sid = sid := by
    have hsel := List.find?_some hz
    simp only [Bool.and_eq_true, decide_eq_true_eq] at hsel
    exact hsel.1
  have hany : (x.sessions.any fun x => decide (x.sid = sid)) = true :=
    List.any_eq_true.mpr ⟨z, List.mem_of_find?_eq_some hz, decide_eq_true hsel⟩
  have hopen : ((fun z : Session => decide (z.sid = sid) && z.isOpen) ∘ fun z => if z.sid = sid then sentUpTo q z else z) =
      fun z => decide (z.sid = sid) && z.isOpen := by
    funext z
    dsimp only [Function.comp]
    split <;> rfl
  unfold Die.session? at hz ⊢
  rw [setLast_sessions, if_pos hany, List.find?_map, hopen, hz, Option.map_some, if_pos hsel]

theorem lastsentMirrorWrite_stores {s : State} {d : DieId} {sid : Nat} {q : Word} (hrun : (s.die d).start = .running) (hsnap : (s.die d).snap = none)
    (hother : (s.die d.other).snap = none) (hdue : ∃ x ∈ (s.die d.other).sends, x.sid = sid ∧ x.seq = q ∧ x.asked = true ∧ x.mirrored = false) :
    ∃ t, exec (.lastsentMirrorWrite d sid q) s = .next t ∧ (t.die d).lastSent sid = q ∧
      (∀ z, (s.die d).session? sid = some z → (t.die d).session? sid = some { z with lastsent := q }) ∧
      (∀ x ∈ (t.die d.other).sends, x.sid = sid → x.seq = q → x.mirrored = true) ∧ t.mem = s.mem := by
  have hne : d ≠ d.other := by cases d <;> decide
  have hmirror : s.mirrorDue d sid q = true := by
    obtain ⟨x, hx, hsid, hseq, hasked, hmirrored⟩ := hdue
    unfold State.mirrorDue State.heldMsg
    rw [hrun, hsnap, hother, List.any_eq_true.mpr ⟨x, hx, by simp [hsid, hseq, hasked, hmirrored]⟩]
    rfl
  have hcross : ∀ e, ∃ c v, ((s.crosses d.other).crosses d).die e = { s.die e with ecsel := c, ecval := v } := fun e => by
    obtain ⟨c, v, h⟩ := crosses_die s d.other e
    obtain ⟨c', v', h'⟩ := crosses_die (s.crosses d.other) d e
    exact ⟨c', v', by rw [h', h]⟩
  obtain ⟨c, v, hd⟩ := hcross d
  obtain ⟨c', v', ho⟩ := hcross d.other
  have hto : s.mirrorWrite d sid q = (((s.crosses d.other).crosses d).modDie d fun x => x.setLast sid q).mirrored d.other sid q := by
    unfold State.mirrorWrite
    simp only [hmirror, Bool.not_true, Bool.false_eq_true, if_false]
    have hcut : s.cut d = false := by simp [State.cut, hsnap]
    have hcut' : (((s.crosses d.other).crosses d).modDie d fun x => x.setLast sid q).cut d.other = false := by
      unfold State.cut
      rw [State.die_modDie_ne _ _ _ _ hne.symm, ho, hother]
      rfl
    rw [hcut, hcut']
    rfl
  refine ⟨_, congrArg Host.Outcome.next hto, ?_, fun z hz => ?_, fun x hx hsid hseq => ?_, by simp [State.mirrored]⟩
  · unfold State.mirrored
    rw [State.die_modDie_ne _ _ _ _ hne, State.die_modDie, lastSent_setLast]
  · unfold State.mirrored
    rw [State.die_modDie_ne _ _ _ _ hne, State.die_modDie, hd]
    exact session?_setLast q hz
  · unfold State.mirrored at hx
    rw [State.die_modDie] at hx
    obtain ⟨y, -, rfl⟩ := List.mem_map.mp hx
    split at hsid
    · rw [if_pos ‹_›]
    · rename_i hnot
      rw [if_neg hnot] at hseq
      exact absurd ⟨hsid, hseq⟩ hnot

/-! ## The homes' answers, walks and sends -/

/-- Settles O46: a home's answer is a refusal, which traps, or an answered word (`answered_goesOn`); a walk's outcome is that of its tables, read
as they stand (`pageWalkComplete_eq`). -/
theorem slotEvents : Obligations.SlotEvents := by
  unfold Obligations.SlotEvents
  refine ⟨⟨fun s n u o rec_ slot rb pa va h hkind hpoison => ?_, fun s n u o slot h hkind => ⟨fun x hx hw => afree_frees h hkind hx hw,
    fun x hx hw => afree_traps h rfl (afree_busy h hkind hx hw), fun hx => afree_traps h rfl (afree_of_none h hkind hx)⟩,
    fun s pa x hx hkind hdl hnow hcut => guardedDeadline_closes hx hkind hdl hnow hcut,
    fun s n pa ph x hawait hx hph => slotPoll_releases hawait hx hph, fun s d e k x hk hpoll hx hph => coxSlotPoll_arrives hk hpoll hx hph,
    fun s n op pa hawait => waitaWake_goesOn hawait⟩,
    fun s d b r w hwalks hb hw hfree => pageWalkStart_starts hwalks hb hw hfree, fun s d k w hk hw => ?_,
    fun s d sid x z hx hmay hz => mirrorAck_sends hx hmay hz, fun s d sid q hrun hsnap hother hdue => lastsentMirrorWrite_stores hrun hsnap hother hdue⟩
  · intro r htr
    refine ⟨fun q hq => aset_refused h hkind hpoison htr hq, fun hq => ?_⟩
    obtain ⟨t, e, hto, hslots, hgo⟩ := aset_lives h hkind hpoison htr hq
    refine ⟨t, _, hto, hslots, rfl, rfl, rfl, rfl, rfl, rfl, rfl, rfl, rfl, rfl, rfl, rfl, fun hkind => ?_, fun hkind hdl => ?_, hgo⟩
    · exact if_pos (.inr hkind)
    · exact if_neg (not_or.mpr ⟨hdl, not_not.mpr hkind⟩)
  · intro reach ends
    refine ⟨fun e hend hstale => walk_cached hk hw hend hstale, fun e hend hstale => walk_dropped hk hw hend hstale, fun c hend => walk_faults hk hw hend,
      fun pa hend => walk_breaks hk hw hend, fun pa hend => ?_⟩
    have hnoloc : walkEnds s d w = .noLoc pa := hend
    rw [pageWalkComplete_eq hk hw, hnoloc]
    rfl

end Sys2Proof
end

section
/-! PROOF. SPAWN's push, PARK's registration, placement, retirement, and the end of a phase (R12, R15, R16, R18 to R24, R150, R151, R313 to R316, R319, R330). -/

namespace Sys2Proof

open Machine Spec

/-! ## SPAWN (R150) -/

section

variable {s : State} {n : CoreId} {id : Nat} {va : Dw} {u : UnitInfo} {deps : List Nat}

/-- The core without a SPAWN that has read its record. -/
def withoutSpawn (s : State) (n : CoreId) (id : Nat) : State := s.modCore n fun c => { c with spawns := c.spawns.filter fun p => decide (p.1 ≠ id) }

/-- A task that is no parked record goes to the tail of its queue (R329). -/
theorem pushTask_tail {x : Die} {t : Machine.Task} (h : ∀ r, t.kind ≠ .cont r) : (x.pushTask t).tasks = x.tasks ++ [t] := by
  have hlevel : ∀ (x : Die) (p : Fin 32) (q : BitVec 4), (x.levelStart p q).tasks = x.tasks := fun x p q => by
    unfold Die.levelStart
    split <;> rfl
  unfold Die.pushTask
  cases hk : t.kind
  case cont r => exact absurd hk (h r)
  all_goals
    simp only [Bool.false_and, Bool.false_eq_true, if_false]
    split
    · rfl
    · rw [hlevel]

/-- The task that a pushed unit record makes. -/
def pushedTask (r : UnitRec) (lid : Word) (part : Fin 32) (ctx : Fin 64) (prio : BitVec 4) (dline phid : Dw) (jid : Word) (since : Nat)
    (acq : List (Nat × Nat)) : Task :=
  { kind := .one r lid, part := part, ctx := ctx, prio := prio, dline := dline, phid := phid, jid := jid, since := since, acq := acq }

/-- A launch of one unit (R150). -/
def oneUnit (lid : Word) (phid : Dw) (uidx : Word) : Launch := { lid := lid, phid := phid, total := 1, done := 0, node := none, uidx := uidx }

/-- What a push makes of its die: a task at the tail, a launch of one unit, and the next launch id. -/
theorem pushUnit_die (s : State) (d : DieId) (r : UnitRec) (part : Fin 32) (ctx : Fin 64) (prio : BitVec 4) (dline phid : Dw) (jid : Word)
    (acq : List (Nat × Nat)) :
    let x := s.die d
    let y := (s.pushUnit d r part ctx prio dline phid jid acq).die d
    y.tasks = x.tasks ++ [pushedTask r x.lidNext part ctx prio dline phid jid x.time acq] ∧ y.launches = x.launches ++ [oneUnit x.lidNext phid r.uidx] ∧
      y.lidNext = if x.lidNext = 0xFFFFFFFF then 1 else x.lidNext + 1 := by
  have hcounted : ∀ f : Phase → Phase, ((s.modDie (s.phaseHome d phid) fun x => x.modPhase phid f).die d).tasks = (s.die d).tasks ∧
      ((s.modDie (s.phaseHome d phid) fun x => x.modPhase phid f).die d).launches = (s.die d).launches ∧
      ((s.modDie (s.phaseHome d phid) fun x => x.modPhase phid f).die d).lidNext = (s.die d).lidNext ∧
      ((s.modDie (s.phaseHome d phid) fun x => x.modPhase phid f).die d).time = (s.die d).time := fun f => by
    by_cases hd : d = s.phaseHome d phid
    · rw [← hd, State.die_modDie]
      exact ⟨rfl, rfl, rfl, rfl⟩
    · rw [State.die_modDie_ne _ _ _ _ hd]
      exact ⟨rfl, rfl, rfl, rfl⟩
  have hlid : ∀ (x : Die) (t : Task), (x.pushTask t).lidNext = x.lidNext := fun x t => by
    unfold Die.pushTask Die.levelStart
    dsimp only
    (repeat' split) <;> rfl
  intro x y
  obtain ⟨htasks, hlaunches, hnext, htime⟩ := hcounted fun p => { p with pushed := p.pushed + 1, alive := p.alive + 1 }
  unfold y State.pushUnit
  rw [State.die_modDie]
  generalize (s.modDie (s.phaseHome d phid) fun x => x.modPhase phid fun p => { p with pushed := p.pushed + 1, alive := p.alive + 1 }).die d = z
    at htasks hlaunches hnext htime
  unfold x
  rw [← htasks, ← hlaunches, ← hnext, ← htime]
  exact ⟨pushTask_tail (fun _ h => by cases h), rfl, hlid ..⟩

theorem spawnPush_pushes {pa : Nat} {r : UnitRec} (hdue : (s.coreAt n).spawnDue = some (id, va, u, deps)) (hcut : (s.die (dieOf n)).snap = none)
    (hcut' : (s.die (dieOf n).other).snap = none)
    (htr : translateNow s n u.ctx u.part false needRd (decide (va.toNat % 64 ≠ 0)) va 64 = .ok pa) (hrec : s.spawnRecord n u pa = some r) :
    s.spawnPush n = (withoutSpawn s n id).pushUnit (dieOf n) r u.part u.ctx u.prio u.dline u.phid u.jid
      (u.acq ++ ((s.coreAt n).ownerCtx u.serial).acqs.map fun a => a.2) := by
  have hhome : s.cut (s.phaseHome (dieOf n) u.phid) = false := by
    unfold State.cut State.phaseHome
    split
    · rw [hcut']; rfl
    · rw [hcut]; rfl
  have hrec' : (withoutSpawn s n id).spawnRecord n u pa = some r := hrec
  unfold State.spawnPush
  simp only [hdue, hhome, htr, Bool.false_eq_true, if_false, Tr.place, Option.bind_some]
  rw [← withoutSpawn, hrec']

theorem spawnPush_launches {pa : Nat} {r : UnitRec} (hdue : (s.coreAt n).spawnDue = some (id, va, u, deps)) (hcut : (s.die (dieOf n)).snap = none)
    (hcut' : (s.die (dieOf n).other).snap = none)
    (htr : translateNow s n u.ctx u.part false needRd (decide (va.toNat % 64 ≠ 0)) va 64 = .ok pa) (hrec : s.spawnRecord n u pa = some r) :
    ∃ t x l, exec (.spawnPush n) s = .next t ∧ (t.die (dieOf n)).tasks = (s.die (dieOf n)).tasks ++ [x] ∧ x.kind = .one r (s.die (dieOf n)).lidNext ∧
      x.part = u.part ∧ x.ctx = u.ctx ∧ x.prio = u.prio ∧ x.dline = u.dline ∧ x.phid = u.phid ∧ x.jid = u.jid ∧
      (t.die (dieOf n)).launches = (s.die (dieOf n)).launches ++ [l] ∧ l.lid = (s.die (dieOf n)).lidNext ∧ l.total = 1 ∧ l.done = 0 ∧ l.phid = u.phid ∧
      (t.die (dieOf n)).lidNext = (if (s.die (dieOf n)).lidNext = 0xFFFFFFFF then 1 else (s.die (dieOf n)).lidNext + 1) ∧ t.mem = s.mem := by
  obtain ⟨htasks, hlaunches, hlid⟩ := pushUnit_die (withoutSpawn s n id) (dieOf n) r u.part u.ctx u.prio u.dline u.phid u.jid
    (u.acq ++ ((s.coreAt n).ownerCtx u.serial).acqs.map fun a => a.2)
  rw [← spawnPush_pushes hdue hcut hcut' htr hrec] at htasks hlaunches hlid
  exact ⟨s.spawnPush n, _, _, rfl, htasks, rfl, rfl, rfl, rfl, rfl, rfl, rfl, hlaunches, rfl, rfl, rfl, rfl, hlid, by simp⟩

/-- A member that does not come to be counts as done, cancelled, with a fault (R12). -/
def refusedMember (p : Phase) : Phase :=
  { p with pushed := p.pushed + 1, pushedDone := p.pushedDone + 1, ucan := sat32 (p.ucan + 1), faults := sat32 (p.faults + 1) }

theorem spawnPush_refused {p : Phase} (hdue : (s.coreAt n).spawnDue = some (id, va, u, deps)) (hcut : (s.die (dieOf n)).snap = none)
    (hp : (s.die (dieOf n)).phase? u.phid = some p)
    (hrec : ∀ pa, translateNow s n u.ctx u.part false needRd (decide (va.toNat % 64 ≠ 0)) va 64 = .ok pa → s.spawnRecord n u pa = none)
    (hbr : ∀ pa, translateNow s n u.ctx u.part false needRd (decide (va.toNat % 64 ≠ 0)) va 64 ≠ .breaks pa) :
    s.spawnPush n = (withoutSpawn s n id).modDie (dieOf n) fun x => x.modPhase u.phid refusedMember := by
  have hhome : s.phaseHome (dieOf n) u.phid = dieOf n := by simp [State.phaseHome, hp]
  have hhome' : (withoutSpawn s n id).phaseHome (dieOf n) u.phid = dieOf n := hhome
  have hnone : ((translateNow s n u.ctx u.part false needRd (decide (va.toNat % 64 ≠ 0)) va 64).place.bind ((withoutSpawn s n id).spawnRecord n u)) = none := by
    cases htr : translateNow s n u.ctx u.part false needRd (decide (va.toNat % 64 ≠ 0)) va 64 with
    | ok pa => exact hrec pa htr
    | _ => rfl
  have hnocut : s.cut (dieOf n) = false := by simp [State.cut, hcut]
  unfold State.spawnPush
  simp only [hdue, hhome, hnocut, Bool.false_eq_true, if_false]
  generalize translateNow s n u.ctx u.part false needRd (decide (va.toNat % 64 ≠ 0)) va 64 = tr at hbr hnone
  cases tr
  case breaks pa => exact absurd rfl (hbr pa)
  all_goals
    rw [← withoutSpawn, hnone, hhome']
    rfl

theorem spawnPush_counts {p : Phase} (hdue : (s.coreAt n).spawnDue = some (id, va, u, deps)) (hcut : (s.die (dieOf n)).snap = none)
    (hp : (s.die (dieOf n)).phase? u.phid = some p)
    (hrec : ∀ pa, translateNow s n u.ctx u.part false needRd (decide (va.toNat % 64 ≠ 0)) va 64 = .ok pa → s.spawnRecord n u pa = none)
    (hbr : ∀ pa, translateNow s n u.ctx u.part false needRd (decide (va.toNat % 64 ≠ 0)) va 64 ≠ .breaks pa) :
    ∃ t q, exec (.spawnPush n) s = .next t ∧ (t.die (dieOf n)).tasks = (s.die (dieOf n)).tasks ∧ (t.die (dieOf n)).phase? u.phid = some q ∧
      q.ucan = min (p.ucan + 1) (2 ^ 32 - 1) ∧ q.faults = min (p.faults + 1) (2 ^ 32 - 1) ∧ q.pushed = p.pushed + 1 ∧ q.pushedDone = p.pushedDone + 1 ∧
      q.alive = p.alive ∧ t.mem = s.mem := by
  refine ⟨s.spawnPush n, refusedMember p, rfl, ?_, ?_, rfl, rfl, rfl, rfl, rfl, by simp⟩
  · rw [spawnPush_refused hdue hcut hp hrec hbr, State.die_modDie]
    rfl
  · rw [spawnPush_refused hdue hcut hp hrec hbr, State.die_modDie]
    exact phase?_modPhase hp fun _ => rfl

end

/-! ## PARK (R18, R19, R151) -/

section

variable {s : State} {n : CoreId} {p : ParkWait} {u : UnitInfo} {pa : Nat} {x : Slot}

/-- A PARK that its slot may take now: the unit is quiescent behind the delay slots, and the slot is one of its partition (R18, R151). -/
structure Parking (s : State) (n : CoreId) (p : ParkWait) (u : UnitInfo) (pa : Nat) (x : Slot) : Prop where
  park : (s.coreAt n).ctx.park = some p
  unit : (s.coreAt n).unit = some u
  runs : s.running n = true
  noPlay : s.playing n = false
  slots : ((s.coreAt n).ctx.seat .c).dslots = 0
  noCancel : u.cancelPending = false
  quiet : s.quiescent n = true
  tr : translate s n u.ctx u.part (.seat .c) false needRd (decide (p.slotVa.toNat % 16 ≠ 0)) p.slotVa 16 = .ok pa
  slot : s.slot? pa = some x
  part : x.part = u.part
  clean : x.poisoned = false

/-- The record that a quiescent unit leaves at its slot (R19, R21). -/
def parkedRecord (s : State) (n : CoreId) (p : ParkWait) (u : UnitInfo) (pa : Nat) : Parked :=
  { id := s.nextId, die := dieOf n, slot := pa, va := p.slotVa, record := (s.coreAt n).ctx.contRec u p }

/-- The state with that record, which waits at the slot. -/
def withParked (s : State) (n : CoreId) (p : ParkWait) (u : UnitInfo) (pa : Nat) : State :=
  State.modSlot { s.clearWalkAns n (.seat .c) with parked := s.parked ++ [parkedRecord s n p u pa], nextId := s.nextId + 1 } pa
    fun t => { t with waiters := t.waiters ++ [Waiter.parked s.nextId] }

theorem parkRegister_parks (h : Parking s n p u pa x) (hph : x.phase ≠ decide (p.phase = 1)) (hpoll : p.polling = false) (hroom : x.waiters.length < 65535) :
    s.parkRegister n = ((withParked s n p u pa).endOn n 5).clearCore n := by
  have hslot : (s.clearWalkAns n (.seat .c)).slot? pa = some x := h.slot
  unfold State.parkRegister
  simp only [h.park, h.unit, h.runs, h.noPlay, h.slots, h.noCancel, h.quiet, h.tr, hslot, h.part, h.clean, hph, hpoll, Nat.not_le.mpr hroom, Bool.not_true,
    ne_eq, not_true_eq_false, decide_false, Bool.or_self, Bool.false_eq_true, if_false]
  rfl

theorem parkRegister_goesOn (h : Parking s n p u pa x) (hph : x.phase = decide (p.phase = 1)) :
    s.parkRegister n = ((s.clearWalkAns n (.seat .c)).logWake n .c).goOn n pa := by
  have hslot : (s.clearWalkAns n (.seat .c)).slot? pa = some x := h.slot
  unfold State.parkRegister
  simp only [h.park, h.unit, h.runs, h.noPlay, h.slots, h.noCancel, h.quiet, h.tr, hslot, h.part, h.clean, hph, Bool.not_true,
    ne_eq, not_true_eq_false, decide_false, Bool.or_self, Bool.false_eq_true, if_false, if_true]

theorem clearCore_leaves (s : State) (n : CoreId) : (s.clearCore n).slots = s.slots ∧ (s.clearCore n).parked = s.parked ∧ ((s.clearCore n).coreAt n).unit = none := by
  unfold State.clearCore State.dropWaits
  refine ⟨?_, ?_, congrArg Core.unit (State.coreAt_modCore ..)⟩
  · exact State.modDie_slots ..
  · exact State.modDie_parked ..

end

/-! ## The fields of a continuation record (R21) -/

theorem getLsbD_fld {W k : Nat} (off : Nat) (x : BitVec k) (i : Nat) : (fld off x.toNat : BitVec W).getLsbD i = (decide (i < W) && decide (off ≤ i) && x.getLsbD (i - off)) := by
  unfold fld
  rw [BitVec.getLsbD_shiftLeft, BitVec.getLsbD_ofNat, BitVec.testBit_toNat]
  by_cases hi : i < W
  · by_cases hoff : off ≤ i
    · simp [hi, hoff, show i - off < W by omega]
    · simp [hi, hoff]
  · simp [hi]

/-- A field read where it stands. -/
theorem extract_fld {W k : Nat} {off pos w : Nat} (x : BitVec k) (hpos : off ≤ pos) (hend : pos + w ≤ W) :
    (fld off x.toNat : BitVec W).extractLsb' pos w = x.extractLsb' (pos - off) w := by
  apply BitVec.eq_of_getLsbD_eq
  intro i hi
  rw [BitVec.getLsbD_extractLsb', BitVec.getLsbD_extractLsb', getLsbD_fld]
  have hadd : pos + i - off = pos - off + i := by omega
  simp [hadd, show pos + i < W by omega, show off ≤ pos + i by omega]

/-- A field lies below what is read above it. -/
theorem extract_fld_above {W k : Nat} {off pos w : Nat} (x : BitVec k) (h : off + k ≤ pos) : (fld off x.toNat : BitVec W).extractLsb' pos w = 0#w := by
  apply BitVec.eq_of_getLsbD_eq
  intro i hi
  rw [BitVec.getLsbD_extractLsb', getLsbD_fld, BitVec.getLsbD_of_ge x _ (by omega)]
  simp

/-- A field, or a block of them, lies above what is read below it. -/
theorem extract_shift_below {W : Nat} {off pos w : Nat} (y : BitVec W) (h : pos + w ≤ off) : (y <<< off).extractLsb' pos w = 0#w := by
  apply BitVec.eq_of_getLsbD_eq
  intro i hi
  rw [BitVec.getLsbD_extractLsb', BitVec.getLsbD_shiftLeft]
  simp [show pos + i < off by omega]

theorem extract_fld_below {W : Nat} {off pos w : Nat} (v : Nat) (h : pos + w ≤ off) : (fld off v : BitVec W).extractLsb' pos w = 0#w := extract_shift_below _ h

theorem fin64_toNat (x : Fin 64) : x.val = (BitVec.ofNat 6 x.val).toNat := by
  rw [BitVec.toNat_ofNat, Nat.mod_eq_of_lt (by have := x.isLt; omega)]

section

variable (r : ContRec)

/-- The fields that a resumption reads stand at their places. -/
theorem contRec_fields : r.dw 0 = r.cpc ∧ r.dw 1 = r.argb ∧ r.bits.extractLsb' 128 32 = r.rmask ∧ r.bits.extractLsb' 164 25 = r.ucnt ∧
    r.bits.extractLsb' 192 32 = r.uidx := by
  unfold ContRec.dw ContRec.bits dwOf
  rw [fin64_toNat r.ctx]
  refine ⟨?_, ?_, ?_, ?_, ?_⟩
  all_goals
    simp (disch := omega) only [BitVec.extractLsb'_or, extract_fld_above, extract_fld_below, extract_shift_below, BitVec.or_zero, BitVec.zero_or, extract_fld]
    exact BitVec.extractLsb'_eq_self

theorem extract_packU16 (v : Vector (BitVec 16) 4) (i : Fin 4) : (packU16 v).extractLsb' (16 * i.val) 16 = v.get i := by
  apply BitVec.eq_of_getLsbD_eq
  intro j hj
  rw [BitVec.getLsbD_extractLsb', decide_eq_true hj, Bool.true_and]
  unfold packU16
  rw [BitVec.getLsbD_append, BitVec.getLsbD_append, BitVec.getLsbD_append]
  obtain ⟨i, hi⟩ := i
  obtain rfl | rfl | rfl | rfl : i = 0 ∨ i = 1 ∨ i = 2 ∨ i = 3 := by omega
  all_goals dsimp only
  · rw [if_pos (by omega)]
    exact congrArg (BitVec.getLsbD v[0]) (by omega)
  · rw [if_neg (by omega), if_pos (by omega)]
    exact congrArg (BitVec.getLsbD v[1]) (by omega)
  · rw [if_neg (by omega), if_neg (by omega), if_pos (by omega)]
    exact congrArg (BitVec.getLsbD v[2]) (by omega)
  · rw [if_neg (by omega), if_neg (by omega), if_neg (by omega)]
    exact congrArg (BitVec.getLsbD v[3]) (by omega)

theorem contRec_osc (i : Fin 4) : r.bits.extractLsb' (448 + 16 * i.val) 16 = r.osc.get i := by
  have hcount : r.bits.extractLsb' (448 + 16 * i.val) 16 = (packU16 r.osc).extractLsb' (16 * i.val) 16 := by
    unfold ContRec.bits
    rw [fin64_toNat r.ctx]
    simp (disch := omega) only [BitVec.extractLsb'_or, extract_fld_above, extract_shift_below, BitVec.or_zero, BitVec.zero_or, extract_fld,
      Nat.add_sub_cancel_left]
  rw [hcount, extract_packU16]

/-- The sixteen doublewords of registers behind the fields (R21). -/
theorem contRec_regs {j : Nat} (hj : j < 16) : r.dw (8 + j) = r.regs.getD j 0 := by
  have hblock : r.dw (8 + j) = (dwBlock (r.regs.take 16)).extractLsb' (64 * j) 64 := by
    unfold ContRec.dw ContRec.bits dwOf
    rw [fin64_toNat r.ctx]
    simp (disch := omega) only [BitVec.extractLsb'_or, extract_fld_above, BitVec.zero_or]
    apply BitVec.eq_of_getLsbD_eq
    intro i hi
    rw [BitVec.getLsbD_extractLsb', BitVec.getLsbD_extractLsb', BitVec.getLsbD_shiftLeft]
    simp [show 64 * (8 + j) + i < 1536 by omega, show ¬64 * (8 + j) + i < 512 by omega, show 64 * (8 + j) + i - 512 = 64 * j + i by omega]
  rw [hblock]
  apply BitVec.eq_of_toNat_eq
  have hdigit := packNat_digit (2 ^ 64) (by norm_num) ((r.regs.take 16).map BitVec.toNat) j
  have hreg : ((r.regs.take 16).map BitVec.toNat).getD j 0 % 2 ^ 64 = (r.regs.getD j 0).toNat := by
    rw [show (0 : Nat) = (0 : Dw).toNat from rfl, List.getD_map, Nat.mod_eq_of_lt (BitVec.isLt _)]
    simp only [List.getD_eq_getElem?_getD, List.getElem?_take_of_lt hj]
  unfold dwBlock
  rw [BitVec.extractLsb'_toNat, BitVec.toNat_ofNat, Nat.shiftRight_eq_div_pow,
    show 2 ^ 1536 = 2 ^ (64 * j) * 2 ^ (1536 - 64 * j) by rw [← pow_add]; congr 1; omega, Nat.mod_mul_right_div_self,
    Nat.mod_mod_of_dvd _ (pow_dvd_pow 2 (by omega)), pow_mul, hdigit, hreg]

end

/-! ## Placement (R15, R16, R22) -/

theorem get_ofFn {α : Type} {n : Nat} (f : Fin n → α) (i : Fin n) : (Vector.ofFn f).get i = f i := by simp [Vector.get_eq_getElem]

theorem get_setVec {α : Type} {n : Nat} (v : Vector α n) (k : Nat) (f : α → α) (i : Fin n) :
    (setVec v k f).get i = if i.val = k then f (v.get i) else v.get i := by simp [setVec, Vector.get_eq_getElem]

/-- Registers that no name of the list calls stand. -/
theorem restoreRegs_other (l : List Nat) (vals : List Dw) (c : Vector Dw 32) (i : Fin 32) (hi : i.val ∉ l) : (restoreRegs l vals c).get i = c.get i := by
  induction l generalizing vals c with
  | nil => rfl
  | cons k l ih =>
    obtain ⟨hk, hl⟩ := not_or.mp (List.mem_cons.not.mp hi)
    cases vals with
    | nil => rfl
    | cons v vals =>
      rw [restoreRegs, ih _ _ hl, get_setVec, if_neg hk]

/-- A named register takes the value at its place among the names. -/
theorem restoreRegs_named (pre rest : List Nat) (vals : List Dw) (c : Vector Dw 32) (i : Fin 32) (hrest : i.val ∉ rest) (hlen : pre.length < vals.length) :
    (restoreRegs (pre ++ i.val :: rest) vals c).get i = vals.getD pre.length 0 := by
  induction pre generalizing vals c with
  | nil =>
    cases vals with
    | nil => exact absurd hlen (by simp)
    | cons v vals =>
      rw [List.nil_append, restoreRegs, restoreRegs_other _ _ _ _ hrest, get_setVec, if_pos rfl]
      rfl
  | cons k pre ih =>
    cases vals with
    | nil => exact absurd hlen (by simp)
    | cons v vals =>
      rw [List.cons_append, restoreRegs, ih _ _ (by simpa using hlen)]
      rfl

/-- The names below, at and above one that a mask names. -/
theorem filter_range_split {f : Nat → Bool} {i n : Nat} (hi : i < n) (hf : f i = true) :
    ∃ rest, (List.range n).filter f = (List.range i).filter f ++ i :: rest ∧ i ∉ rest := by
  refine ⟨((List.range (n - i - 1)).map fun k => i + (k + 1)).filter f, ?_, fun hmem => ?_⟩
  · obtain ⟨m, rfl⟩ : ∃ m, n = i + (m + 1) := ⟨n - i - 1, by omega⟩
    rw [List.range_add, List.filter_append, List.range_succ_eq_map, List.map_cons, List.filter_cons_of_pos (by simpa using hf), List.map_map]
    simp [Function.comp_def]
  · obtain ⟨k, -, hk⟩ := List.mem_map.mp (List.mem_filter.mp hmem).1
    omega

section

variable (u : UnitInfo) (kn : Kernel) (l : List Dw)

theorem entryCtx_seat (q : SeatId) : (entryCtx u kn.ft l).seat q =
    { Seat.reset with pc := (u.secs.get q.toFin).base, act := decide ((u.secs.get q.toFin).words ≠ 0) } := get_ofFn ..

theorem entryRest_entryCtx {arg : Nat → Dw} (harg : ∀ j, j < 8 → l.getD j 0 = arg j) : entryRest (entryCtx u kn.ft l) kn arg := by
  have hargs : ∀ i, (if 8 ≤ i ∧ i < 16 then l.getD (i - 8) 0 else 0) = if 8 ≤ i ∧ i < 16 then arg (i - 8) else 0 := fun i => by
    split
    · exact harg _ (by omega)
    · rfl
  have hargs16 : ∀ i : Fin 16, (if 8 ≤ i.val ∧ i.val < 16 then l.getD (i.val - 8) 0 else 0) = if 8 ≤ i.val then arg (i.val - 8) else 0 := fun i => by
    rw [hargs]
    exact if_congr (and_iff_left i.isLt) rfl rfl
  have hseat := entryCtx_seat u kn l
  refine ⟨rfl, fun i => ?_, fun i => ⟨?_, ?_⟩, fun i => ?_, fun i => ?_, fun i => ?_, fun i => ?_, rfl, fun i => ?_, fun i => ?_, rfl, rfl, rfl, rfl, rfl, rfl, rfl,
    rfl, rfl, fun i => ?_, fun q => ?_⟩
  · exact (get_ofFn ..).trans (hargs i.val)
  · exact (get_ofFn ..).trans (hargs16 i)
  · exact (get_ofFn ..).trans (hargs16 i)
  · simp [entryCtx, Ctx.reset, Vector.get_eq_getElem]
  · fin_cases i <;> rfl
  · simp [entryCtx, Ctx.reset, Vector.get_eq_getElem]
  · simp [entryCtx, Ctx.reset, Vector.get_eq_getElem]
  · have hq : (entryCtx u kn.ft l).queues.get i = Queue.reset := by simp [entryCtx, Ctx.reset, Vector.get_eq_getElem]
    rw [hq]
    exact ⟨rfl, rfl, rfl⟩
  · simp [entryCtx, Ctx.reset, Engine.reset, Vector.get_eq_getElem]
  · rw [hseat]
    simp [Seat.reset, Vector.get_eq_getElem]
  · rw [hseat]
    exact ⟨rfl, rfl, rfl, rfl⟩

theorem atEntry_entryCtx (hsecs : u.secs = kn.secs) (q : SeatId) : atEntry (entryCtx u kn.ft l) kn q := by
  unfold atEntry
  rw [entryCtx_seat, hsecs]
  exact ⟨rfl, rfl⟩

theorem entryCtx_c (i : Fin 32) : (entryCtx u kn.ft l).c.get i = if i.val = 1 then u.argb else if i.val = 2 then BitVec.ofNat 64 u.uidx.toNat
    else if i.val = 3 then BitVec.ofNat 64 u.ucnt.toNat else if 8 ≤ i.val ∧ i.val < 16 then l.getD (i.val - 8) 0 else 0 := get_ofFn ..

theorem entryCtx_counts (i : Fin 4) : (entryCtx u kn.ft l).osiss.get i = 0 ∧ (entryCtx u kn.ft l).osprf.get i = 0 := by
  simp [entryCtx, Ctx.reset, Vector.get_eq_getElem]

end

section

variable (x : Ctx) (r : ContRec)

theorem resumeCtx_seat : ((resumeCtx x r).seat .c).pc = r.cpc ∧ ((resumeCtx x r).seat .c).act = true ∧
    ((resumeCtx x r).seat .c).cause = r.bad.map fun va => { cause := .data, tval := va, tpc := r.dw 0, issued := true } := by
  obtain ⟨hcpc, -⟩ := contRec_fields r
  unfold resumeCtx
  dsimp only
  rw [Ctx.seat_modSeat]
  exact ⟨hcpc, rfl, rfl⟩

theorem resumeCtx_seat_ne {q : SeatId} (hq : q ≠ .c) : (resumeCtx x r).seat q = x.seat q := by
  unfold resumeCtx
  dsimp only
  rw [Ctx.seat_modSeat_ne _ _ _ _ hq]
  rfl

theorem resumeCtx_counts (i : Fin 4) : (resumeCtx x r).osiss.get i = r.osc.get i ∧ (resumeCtx x r).osprf.get i = r.osc.get i := by
  have hosc : (Vector.ofFn fun i : Fin 4 => r.bits.extractLsb' (448 + 16 * i.val) 16).get i = r.osc.get i := (get_ofFn ..).trans (contRec_osc r i)
  exact ⟨hosc, hosc⟩

/-- The registers before the named ones are restored: c1 to c3 of the record's fields (R22). -/
def resumeBase (r : ContRec) : Vector Dw 32 := Vector.ofFn fun i =>
  if i.val = 1 then r.argb else if i.val = 2 then r.uidx.setWidth 64 else if i.val = 3 then r.ucnt.setWidth 64 else 0

theorem resumeCtx_c : (resumeCtx x r).c = restoreRegs ((List.range 32).filter fun i => r.rmask.getLsbD i) ((List.range 16).map fun i => r.dw (8 + i))
    (resumeBase r) := by
  obtain ⟨-, hargb, hmask, hucnt, huidx⟩ := contRec_fields r
  unfold resumeCtx resumeBase
  dsimp only
  rw [hargb, hmask, hucnt, huidx]
  rfl

theorem resumeCtx_unnamed (i : Fin 32) (hi : r.rmask.getLsbD i.val = false) : (resumeCtx x r).c.get i =
    if i.val = 1 then r.argb else if i.val = 2 then r.uidx.setWidth 64 else if i.val = 3 then r.ucnt.setWidth 64 else 0 := by
  rw [resumeCtx_c, restoreRegs_other _ _ _ _ fun hmem => absurd ((List.mem_filter.mp hmem).2.symm.trans hi) (by decide)]
  exact get_ofFn ..

theorem resumeCtx_named (i : Fin 32) (hi : r.rmask.getLsbD i.val = true) (hj : ((List.range i.val).filter fun b => r.rmask.getLsbD b).length < 16) :
    (resumeCtx x r).c.get i = r.regs.getD ((List.range i.val).filter fun b => r.rmask.getLsbD b).length 0 := by
  obtain ⟨rest, hsplit, hrest⟩ := filter_range_split (f := fun b => r.rmask.getLsbD b) i.isLt hi
  rw [resumeCtx_c, hsplit, restoreRegs_named _ _ _ _ _ hrest (by simpa using hj), ← contRec_regs r hj]
  simp [List.getD_eq_getElem?_getD, List.getElem?_range hj]

theorem entryRest_resumeCtx {kn : Kernel} {arg : Nat → Dw} (h : entryRest x kn arg) : entryRest (resumeCtx x r) kn arg := by
  obtain ⟨hfmt, ha, hxm, hv, hp, hl, hk, hf, hq, hbank, hopq, hrun, hkpos, hdpos, hdbusy, hin, huh, hpark, hawait, hosb, hseats⟩ := h
  refine ⟨hfmt, ha, hxm, hv, hp, hl, hk, hf, hq, hbank, hopq, hrun, hkpos, hdpos, hdbusy, hin, huh, hpark, hawait, ?_, fun q => ?_⟩
  · rw [resumeCtx_seat_ne x r (by decide)]
    exact hosb
  · by_cases hqc : q = .c
    · subst hqc
      have hc := hseats .c
      unfold resumeCtx
      dsimp only
      rw [Ctx.seat_modSeat]
      exact hc
    · rw [resumeCtx_seat_ne x r hqc]
      exact hseats q

end

/-- The unit stands on the core with its context. -/
theorem enter_core (s : State) (n : CoreId) (u : UnitInfo) (x : Ctx) (event : Nat) : ((s.enter n u x event).coreAt n).unit = some u ∧
    ((s.enter n u x event).coreAt n).ctx = x := by
  unfold State.enter
  dsimp only
  generalize hw : State.modCore _ n _ = w
  have hcore : (w.coreAt n).unit = some u ∧ (w.coreAt n).ctx = x := by
    rw [← hw, State.coreAt_modCore]
    exact ⟨rfl, rfl⟩
  have hlog : Logged n w ((((w.traceUnit n u event 0).logStart n 0).count n 34 1).countDie (dieOf n) 56 1) :=
    (((Logged.traceUnit n w u event 0).trans (.logStart ..)).trans (.count ..)).trans (.countDie ..)
  obtain ⟨d, hd⟩ := hlog.core
  rw [hd]
  exact hcore

section

variable {s : State} {n : CoreId} {t : Machine.Task} {kn : Kernel} {pa : Nat}

/-- The argument doublewords of a unit, as the placement reads them once (R15). -/
def argWords (s : State) (u : UnitInfo) (pa : Nat) : List Dw := (List.range 8).map fun i => BitVec.ofNat 64 (leValue (s.loadBytes u.acq (pa + 8 * i) 8))

/-- The context with which a unit of a task enters: the entry state, and for a parked record what it resumes with (R16, R22). -/
def placedCtx (t : Machine.Task) (x : Ctx) : Ctx :=
  match t.kind with
  | .cont r => resumeCtx x r
  | _ => x

/-- The state in which a taken task's unit is placed. -/
def numbered (s : State) : State := { s with nextId := s.nextId + 1 }

theorem placeOn_enters (hkn : ((numbered s).die (dieOf n)).kernel? t.ctx t.kernel = some kn)
    (htr : translateNow (numbered s) n (s.unitInfo (dieOf n) t s.nextId).ctx (s.unitInfo (dieOf n) t s.nextId).part false needRd
      (decide ((s.unitInfo (dieOf n) t s.nextId).argb.toNat % 64 ≠ 0)) (s.unitInfo (dieOf n) t s.nextId).argb 64 = .ok pa)
    (hpoison : (numbered s).poisoned pa 64 = false) : ∃ event, s.placeOn n t = (numbered s).enter n (s.unitInfo (dieOf n) t s.nextId)
      (placedCtx t (entryCtx (s.unitInfo (dieOf n) t s.nextId) kn.ft (argWords (numbered s) (s.unitInfo (dieOf n) t s.nextId) pa))) event := by
  unfold State.placeOn placedCtx argWords
  dsimp only
  rw [← numbered]
  generalize s.unitInfo (dieOf n) t s.nextId = u at htr
  generalize numbered s = v at hkn htr hpoison
  rw [hkn]
  dsimp only
  rw [htr]
  dsimp only
  rw [if_neg (by rw [hpoison]; exact Bool.false_ne_true)]
  generalize entryCtx u kn.ft _ = x
  cases t.kind
  case cont r => exact ⟨2, rfl⟩
  all_goals exact ⟨1, rfl⟩

/-- What a unit takes over from its task. -/
theorem unitInfo_task (s : State) (d : DieId) (t : Machine.Task) (serial : Nat) : (s.unitInfo d t serial).lid = t.lid ∧ (s.unitInfo d t serial).phid = t.phid ∧
    (s.unitInfo d t serial).prio = t.prio ∧ (s.unitInfo d t serial).ctx = t.ctx ∧ (s.unitInfo d t serial).part = t.part ∧
    (s.unitInfo d t serial).uidx = BitVec.ofNat 32 t.first := by
  unfold State.unitInfo
  dsimp only
  split <;> exact ⟨rfl, rfl, rfl, rfl, rfl, rfl⟩

theorem unitInfo_secs {d : DieId} (hkn : (s.die d).kernel? t.ctx t.kernel = some kn) (serial : Nat) : (s.unitInfo d t serial).secs = kn.secs := by
  unfold State.unitInfo
  dsimp only
  split <;> simp only [hkn]

theorem argWords_getD (s : State) (u : UnitInfo) (pa : Nat) {j : Nat} (hj : j < 8) : (argWords s u pa).getD j 0 =
    BitVec.ofNat 64 (leValue (s.loadBytes u.acq (pa + 8 * j) 8)) := by
  simp [argWords, List.getD_eq_getElem?_getD, List.getElem?_range hj]

end

section

variable {u : UnitInfo} {kn : Kernel} {l : List Dw} {arg : Nat → Dw}

/-- A unit that starts stands in the entry state (R16). -/
theorem entered_fresh (harg : ∀ j, j < 8 → l.getD j 0 = arg j) (hsecs : u.secs = kn.secs) :
    atEntry (entryCtx u kn.ft l) kn .c ∧ (∀ q, ((entryCtx u kn.ft l).seat q).cause = none) ∧
      (∀ i : Fin 32, (entryCtx u kn.ft l).c.get i = if i.val = 1 then u.argb else if i.val = 2 then u.uidx.setWidth 64 else
        if i.val = 3 then u.ucnt.setWidth 64 else if 8 ≤ i.val ∧ i.val < 16 then arg (i.val - 8) else 0) ∧
      ∀ i, (entryCtx u kn.ft l).osiss.get i = 0 ∧ (entryCtx u kn.ft l).osprf.get i = 0 := by
  refine ⟨atEntry_entryCtx u kn l hsecs .c, fun q => by rw [entryCtx_seat]; rfl, fun i => ?_, entryCtx_counts u kn l⟩
  have hargs : (if 8 ≤ i.val ∧ i.val < 16 then l.getD (i.val - 8) 0 else 0) = if 8 ≤ i.val ∧ i.val < 16 then arg (i.val - 8) else 0 := by
    split
    · exact harg _ (by omega)
    · rfl
  rw [entryCtx_c, BitVec.ofNat_toNat, BitVec.ofNat_toNat, hargs]

/-- A parked record resumes where it parked, with the registers it names and its streams' counts (R22). -/
theorem entered_resumed (r : ContRec) (x : Ctx) (hx : ∀ q, (x.seat q).cause = none) :
    ((resumeCtx x r).seat .c).pc = r.cpc ∧ ((resumeCtx x r).seat .c).act = true ∧ (r.bad = none → ∀ q, ((resumeCtx x r).seat q).cause = none) ∧
      (∀ i : Fin 32, r.rmask.getLsbD i.val = false → (resumeCtx x r).c.get i = if i.val = 1 then r.argb else if i.val = 2 then r.uidx.setWidth 64
        else if i.val = 3 then r.ucnt.setWidth 64 else 0) ∧
      (∀ i : Fin 32, r.rmask.getLsbD i.val = true → i ≠ 0 → let j := ((List.range i.val).filter fun b => r.rmask.getLsbD b).length
        j < 16 → (resumeCtx x r).c.get i = r.regs.getD j 0) ∧
      ∀ i, (resumeCtx x r).osiss.get i = r.osc.get i ∧ (resumeCtx x r).osprf.get i = r.osc.get i := by
  obtain ⟨hpc, hact, hcause⟩ := resumeCtx_seat x r
  refine ⟨hpc, hact, fun hbad q => ?_, resumeCtx_unnamed x r, fun i hi _ => ?_, resumeCtx_counts x r⟩
  · by_cases hq : q = .c
    · rw [hq, hcause, hbad]
      rfl
    · rw [resumeCtx_seat_ne x r hq]
      exact hx q
  · intro j hj
    exact resumeCtx_named x r i hi hj

theorem entryRest_placedCtx (t : Machine.Task) (harg : ∀ j, j < 8 → l.getD j 0 = arg j) : entryRest (placedCtx t (entryCtx u kn.ft l)) kn arg := by
  have hentry := entryRest_entryCtx u kn l harg
  unfold placedCtx
  split
  · exact entryRest_resumeCtx _ _ hentry
  · exact hentry

theorem atEntry_placedCtx (t : Machine.Task) (hsecs : u.secs = kn.secs) {q : SeatId} (hq : q ≠ .c) : atEntry (placedCtx t (entryCtx u kn.ft l)) kn q := by
  have hentry := atEntry_entryCtx u kn l hsecs q
  unfold placedCtx
  split
  · unfold atEntry at hentry ⊢
    rwa [resumeCtx_seat_ne _ _ hq]
  · exact hentry

theorem placedCtx_fresh {t : Machine.Task} (h : ∀ r, t.kind ≠ .cont r) (x : Ctx) : placedCtx t x = x := by
  unfold placedCtx
  split
  · exact absurd ‹_› (h _)
  · rfl

theorem placedCtx_cont {t : Machine.Task} {r : ContRec} (h : t.kind = .cont r) (x : Ctx) : placedCtx t x = resumeCtx x r := by
  unfold placedCtx
  rw [h]

end

theorem unitPlace_takes {s : State} {n : CoreId} {p : Fin 32} {i : Nat} {k : Machine.Task} {round : Bool} (hfree : s.coreFree n = true) (hheld : s.heldFirst n = false)
    (hp : s.crewPart (crewOf n) = some p) (hk : s.candidate n p = some ((i, k), round)) (hcrew : (s.die (dieOf n)).crewTask k = false) :
    s.unitPlace n = (s.takeTask (dieOf n) i k round).placeOn n k := by
  unfold State.unitPlace
  simp only [hfree, hheld, hp, hk, hcrew, Bool.not_true, Bool.or_self, Bool.false_eq_true, if_false]

/-! ## Parking and going on -/

section

variable {s : State} {n : CoreId} {p : ParkWait} {u : UnitInfo} {pa : Nat} {x : Slot}

theorem park_leaves (h : Parking s n p u pa x) (hph : x.phase ≠ decide (p.phase = 1)) (hpoll : p.polling = false) (hroom : x.waiters.length < 65535) :
    ∃ t y, exec (.parkRegister n) s = .next t ∧ (t.coreAt n).unit = none ∧ t.parked = s.parked ++ [parkedRecord s n p u pa] ∧ t.slot? pa = some y ∧
      y.waiters = x.waiters ++ [.parked s.nextId] := by
  obtain ⟨hslots, hparked, hunit⟩ := clearCore_leaves ((withParked s n p u pa).endOn n 5) n
  have hend := Logged.endOn n (withParked s n p u pa) 5
  refine ⟨_, { x with waiters := x.waiters ++ [.parked s.nextId] }, congrArg Host.Outcome.next (parkRegister_parks h hph hpoll hroom), hunit, ?_, ?_, rfl⟩
  · rw [hparked, hend.parked]
    exact modSlot_parked ..
  · unfold State.slot?
    rw [hslots, hend.slots]
    refine (slot?_modSlot (fun _ => ?_) _ pa).trans (congrArg (Option.map _) h.slot)
    rfl

theorem park_goesOn (h : Parking s n p u pa x) (hph : x.phase = decide (p.phase = 1)) :
    ∃ t v, exec (.parkRegister n) s = .next t ∧ (t.coreAt n).unit = some v ∧ v.serial = u.serial ∧ (t.coreAt n).ctx.park = none ∧
      (t.coreAt n).ctx.c = (s.coreAt n).ctx.c ∧ t.parked = s.parked ∧ t.slots = s.slots := by
  have hlog : Logged n (s.clearWalkAns n (.seat .c)) ((s.clearWalkAns n (.seat .c)).logWake n .c) := .logEntry ..
  obtain ⟨d, hd⟩ := hlog.core
  have hcore : (s.clearWalkAns n (.seat .c)).coreAt n = { s.coreAt n with walkAns := (s.coreAt n).walkAns.filter fun w => decide (w.1 ≠ .seat .c) } :=
    State.coreAt_modCore ..
  have hon : ∀ v : State, ((v.goOn n pa).coreAt n).unit = (v.coreAt n).unit.map (fun u => { u with acq := u.acq ++ [(pa, v.nextId)] }) ∧
      ((v.goOn n pa).coreAt n).ctx = { (v.coreAt n).ctx with park := none } := fun v => by
    unfold State.goOn
    rw [State.coreAt_modCore]
    exact ⟨rfl, rfl⟩
  obtain ⟨hunit, hctx⟩ := hon ((s.clearWalkAns n (.seat .c)).logWake n .c)
  rw [hd, hcore] at hunit hctx
  dsimp only at hunit hctx
  rw [h.unit] at hunit
  refine ⟨_, _, congrArg Host.Outcome.next (parkRegister_goesOn h hph), hunit, rfl, ?_, ?_, hlog.parked, hlog.slots⟩
  · rw [hctx]
  · rw [hctx]

end

/-! ## Retirement and task entries (R12, R24, R319) -/

/-- A finished unit as its phase counts it (R12, R14). -/
def countedUnit (run fault : Bool) (status : Nat) (p : Phase) : Phase :=
  { p with
    urun := if run then sat32 (p.urun + 1) else p.urun, ucan := if run then p.ucan else sat32 (p.ucan + 1)
    faults := if fault then sat32 (p.faults + 1) else p.faults, alive := p.alive - 1
    status := if status ≠ 0 ∧ p.status = 0 then status else p.status }

/-- A finished unit as its launch counts it. -/
def countedLaunch (l : Launch) : Launch := { l with done := l.done + 1 }

theorem unitDone_counts {s : State} {d : DieId} {phid : Dw} {lid : Word} {p : Phase} {la : Launch} (run fault : Bool) (status : Nat)
    (hp : (s.die d).phase? phid = some p) (hla : ((s.die d).launches.find? fun x => decide (x.lid = lid)) = some la) (hmore : la.done + 1 ≠ la.total) :
    s.unitDone d phid lid run fault status =
      (s.modDie d fun x => x.modPhase phid (countedUnit run fault status)).modDie d fun x => x.modLaunch lid countedLaunch := by
  have hhome : s.phaseHome d phid = d := by simp [State.phaseHome, hp]
  have hfind : (((((s.modDie d fun x => x.modPhase phid (countedUnit run fault status)).modDie d fun x => x.modLaunch lid countedLaunch).die
      d).launches).find? fun x => decide (x.lid = lid)) = some (countedLaunch la) := by
    rw [State.die_modDie, State.die_modDie]
    exact (find?_map_if (f := countedLaunch) (fun _ h => h) _).trans (congrArg _ hla)
  unfold State.unitDone
  rw [hhome]
  change (match (((((s.modDie d fun x => x.modPhase phid (countedUnit run fault status)).modDie d fun x => x.modLaunch lid countedLaunch).die
      d).launches).find? fun x => decide (x.lid = lid)) with | some l => _ | none => _) = _
  rw [hfind]
  exact if_neg hmore

theorem unitRetire_counts {s : State} {n : CoreId} {k : Nat} {l : Leaving} {p : Phase} {la : Launch} (hl : (s.coreAt n).leaving[k]? = some l)
    (hret : (s.coreAt n).retired l.unit.serial = true) (hcut : (s.die (dieOf n)).snap = none) (hp : (s.die (dieOf n)).phase? l.unit.phid = some p)
    (hrej : p.rejected = false) (hla : ((s.die (dieOf n)).launches.find? fun x => decide (x.lid = l.unit.lid)) = some la)
    (hmore : la.done + 1 ≠ la.total) :
    ∃ t q, exec (.unitRetire n k) s = .next t ∧ (t.coreAt n).leaving = (s.coreAt n).leaving.eraseIdx k ∧ (t.die (dieOf n)).phase? l.unit.phid = some q ∧
      q.urun = (if l.cancelled then p.urun else min (p.urun + 1) (2 ^ 32 - 1)) ∧ q.ucan = (if l.cancelled then min (p.ucan + 1) (2 ^ 32 - 1) else p.ucan) ∧
      q.faults = (if l.fault then min (p.faults + 1) (2 ^ 32 - 1) else p.faults) ∧ q.alive = p.alive - 1 ∧
      q.status = (if p.status = 0 then l.status else p.status) ∧
      ((t.die (dieOf n)).launches.find? fun x => decide (x.lid = l.unit.lid)) = some { la with done := la.done + 1 } ∧ t.mem = s.mem := by
  have hhome : s.phaseHome (dieOf n) l.unit.phid = dieOf n := by simp [State.phaseHome, hp]
  have hnocut : s.cut (dieOf n) = false := by simp [State.cut, hcut]
  generalize hv : (((s.modCore n fun c => { c with leaving := c.leaving.eraseIdx k }).modDie (dieOf n) fun x =>
    x.modPhase l.unit.phid (countedUnit (!l.cancelled) l.fault l.status)).modDie (dieOf n) fun x => x.modLaunch l.unit.lid countedLaunch) = v
  have hq : (v.die (dieOf n)).phase? l.unit.phid = some (countedUnit (!l.cancelled) l.fault l.status p) := by
    rw [← hv, State.die_modDie, State.die_modDie]
    exact phase?_modPhase (x := s.die (dieOf n)) hp fun _ => rfl
  have hto : s.retire n k = v := by
    unfold State.retire
    simp only [hl, hret, hhome, hnocut, Bool.not_true, Bool.or_self, Bool.false_eq_true, if_false]
    rw [unitDone_counts (s := s.modCore n _) _ _ _ hp hla hmore, hv]
    unfold State.sweepPhase
    rw [hq]
    exact if_neg (by rw [show (countedUnit (!l.cancelled) l.fault l.status p).rejected = false from hrej]; exact Bool.false_ne_true)
  refine ⟨v, countedUnit (!l.cancelled) l.fault l.status p, congrArg Host.Outcome.next hto, ?_, hq, ?_, ?_, rfl, rfl, ?_, ?_, ?_⟩
  · rw [← hv, State.coreAt_modDie, State.coreAt_modDie, State.coreAt_modCore]
  · cases l.cancelled <;> rfl
  · cases l.cancelled <;> rfl
  · by_cases hp0 : p.status = 0
    · simp only [countedUnit, hp0, and_true, if_true]
      exact ite_eq_left_iff.mpr fun h => (not_not.mp h).symm
    · simp only [countedUnit, hp0, and_false, if_false]
  · rw [← hv, State.die_modDie, State.die_modDie]
    exact (find?_map_if (f := countedLaunch) (fun _ h => h) _).trans (congrArg _ hla)
  · rw [← hv, State.modDie_mem, State.modDie_mem]
    rfl

/-- The task of a node that its phase launches (R319, R329). -/
def nodeTask (p : Phase) (n : Nat) (nd : Node) (lid : Word) (since : Nat) : Machine.Task :=
  { kind := .launch nd.kdesc nd.argb lid nd.units 0 [], part := p.part, ctx := p.ctx, prio := p.prio, dline := p.dline, phid := p.phid, jid := p.jid
    since := since, acq := p.acq ++ (p.nacq.filter fun a => decide (a.1 = n)).map fun a => a.2 }

theorem taskEntryFree_takes {s : State} {d : DieId} {w : Dw × Nat} {p : Phase} {nd : Node} (hw : s.waitReady d = some w)
    (hp : (s.die d).phase? w.1 = some p) (hnd : p.nodes[w.2]? = some nd) :
    ∃ t x, exec (.taskEntryFree d) s = .next t ∧ (t.die d).waitLaunch = (s.die d).waitLaunch.erase w ∧ (t.die d).tasks = (s.die d).tasks ++ [x] ∧
      x.kind = .launch nd.kdesc nd.argb (s.die d).lidNext nd.units 0 [] ∧ x.phid = w.1 ∧ x.part = p.part ∧ x.ctx = p.ctx ∧ x.prio = p.prio ∧
      x.dline = p.dline ∧ t.mem = s.mem := by
  have hphid : p.phid = w.1 := by simpa using List.find?_some hp
  have hwait : ∀ (x : Die) (t : Machine.Task), (x.pushTask t).waitLaunch = x.waitLaunch := fun x t => by
    unfold Die.pushTask Die.levelStart
    dsimp only
    (repeat' split) <;> rfl
  generalize hv : (s.modDie d fun x => { x with waitLaunch := x.waitLaunch.erase w }) = v
  have hdie : v.die d = { s.die d with waitLaunch := (s.die d).waitLaunch.erase w } := by rw [← hv, State.die_modDie]
  have hto : s.entryFree d = v.setDie d ((v.die d).handUnits p w.2 nd) := by
    have hpv : (v.die d).phase? w.1 = some p := by rw [hdie]; exact hp
    unfold State.entryFree
    simp only [hw]
    rw [hv, hpv]
    simp only [hnd]
  have hset : ((v.setDie d ((v.die d).handUnits p w.2 nd)).die d) = (v.die d).handUnits p w.2 nd := by cases d <;> rfl
  have hmem : (v.setDie d ((v.die d).handUnits p w.2 nd)).mem = s.mem := by
    have hvmem : v.mem = s.mem := by rw [← hv, State.modDie_mem]
    rw [← hvmem]
    cases d <;> rfl
  refine ⟨_, nodeTask p w.2 nd (s.die d).lidNext (s.die d).time, congrArg Host.Outcome.next hto, ?_, ?_, rfl, hphid, rfl, rfl, rfl, rfl, hmem⟩
  · rw [hset, hdie]
    exact hwait ..
  · rw [hset, hdie]
    exact pushTask_tail fun _ h => by cases h

/-! ## The end of a phase (R12, R313, R314, R316) -/

/-- Fields of a record, each a number and its bytes, one after the other. -/
def fieldBytes (l : List (Nat × Nat)) : List Byte := l.flatMap fun f => leBytes f.1 f.2

/-- Where field i of a record begins. -/
def fieldPos : List (Nat × Nat) → Nat → Nat
  | f :: l, i + 1 => f.2 + fieldPos l i
  | _, _ => 0

theorem fieldPos_zero (l : List (Nat × Nat)) : fieldPos l 0 = 0 := by cases l <;> rfl

/-- Where memory holds a record, each of its fields stands at its place. -/
theorem bytesValue_fieldBytes {m : List Host.Cell} {pa : Nat} {l : List (Nat × Nat)}
    (hm : ∀ j, j < (fieldBytes l).length → memRead m (pa + j) = (fieldBytes l).getD j 0) {i : Nat} {f : Nat × Nat} (hf : l[i]? = some f) :
    bytesValue m (pa + fieldPos l i) f.2 = f.1 % 256 ^ f.2 := by
  induction l generalizing pa i with
  | nil => simp at hf
  | cons g l ih =>
    have hbytes : fieldBytes (g :: l) = leBytes g.1 g.2 ++ fieldBytes l := List.flatMap_cons
    have hlen : (fieldBytes (g :: l)).length = g.2 + (fieldBytes l).length := by rw [hbytes, List.length_append, leBytes_length]
    cases i with
    | zero =>
      obtain rfl : g = f := Option.some.inj hf
      refine bytesValue_of_leBytes fun j hj => ?_
      rw [show pa + fieldPos (g :: l) 0 = pa from rfl, hm j (by omega), hbytes, List.getD_append _ _ _ _ (by rwa [leBytes_length])]
    | succ i =>
      have hrest : ∀ j, j < (fieldBytes l).length → memRead m (pa + g.2 + j) = (fieldBytes l).getD j 0 := fun j hj => by
        rw [Nat.add_assoc, hm (g.2 + j) (by omega), hbytes, List.getD_append_right _ _ _ _ (by rw [leBytes_length]; omega), leBytes_length,
          Nat.add_sub_cancel_left]
      rw [fieldPos, ← Nat.add_assoc]
      exact ih hrest hf

/-- The fields of a completion record (R314). -/
def crecFields (r : Crec) (tag : Dw) (tend : Nat) : List (Nat × Nat) :=
  [(r.status + r.level * 2 ^ 8 + bitN r.dmet * 2 ^ 16 + bitN r.hasdl * 2 ^ 17, 4), (sat32 r.faults, 4), (sat32 r.urun, 4), (sat32 r.ucan, 4),
    (r.phid.toNat, 8), (r.jid.toNat, 4), (r.graph, 4), (tag.toNat, 8), (r.tstart, 8), (tend, 8), (0, 8)]

theorem crec_bytes (r : Crec) (tag : Dw) (tend : Nat) : r.bytes tag tend = fieldBytes (crecFields r tag tend) := by
  simp [Crec.bytes, fieldBytes, crecFields, List.append_assoc]

theorem crec_bytes_length (r : Crec) (tag : Dw) (tend : Nat) : (r.bytes tag tend).length = 64 := by simp [Crec.bytes, leBytes_length]

theorem sat32_mod (n : Nat) : sat32 n % 256 ^ 4 = min n (2 ^ 32 - 1) := by
  unfold sat32
  exact Nat.mod_eq_of_lt (by omega)

/-- Where the fields of a completion record stand, and what they hold (R314). -/
theorem crecFields_read {m : List Host.Cell} {pa : Nat} {r : Crec} {tag : Dw} {tend : Nat}
    (h : ∀ (i : Nat) (f : Nat × Nat), (crecFields r tag tend)[i]? = some f → bytesValue m (pa + fieldPos (crecFields r tag tend) i) f.2 = f.1 % 256 ^ f.2) :
    bytesValue m pa 4 = (r.status + r.level * 2 ^ 8 + bitN r.dmet * 2 ^ 16 + bitN r.hasdl * 2 ^ 17) % 2 ^ 32 ∧
    bytesValue m (pa + 4) 4 = min r.faults (2 ^ 32 - 1) ∧ bytesValue m (pa + 8) 4 = min r.urun (2 ^ 32 - 1) ∧
    bytesValue m (pa + 12) 4 = min r.ucan (2 ^ 32 - 1) ∧ bytesValue m (pa + 16) 8 = r.phid.toNat ∧ bytesValue m (pa + 24) 4 = r.jid.toNat ∧
    bytesValue m (pa + 32) 8 = tag.toNat ∧ bytesValue m (pa + 40) 8 = r.tstart % 2 ^ 64 ∧ bytesValue m (pa + 48) 8 = tend % 2 ^ 64 :=
  ⟨h 0 _ rfl, (h 1 _ rfl).trans (sat32_mod _), (h 2 _ rfl).trans (sat32_mod _), (h 3 _ rfl).trans (sat32_mod _),
    (h 4 _ rfl).trans (Nat.mod_eq_of_lt r.phid.isLt), (h 5 _ rfl).trans (Nat.mod_eq_of_lt r.jid.isLt), (h 7 _ rfl).trans (Nat.mod_eq_of_lt tag.isLt),
    h 8 _ rfl, h 9 _ rfl⟩

section

variable {s : State} {d : DieId} {phid : Dw} {p : Phase}

/-- The record of a phase that ends now (R314, R316). -/
def phaseCrec (p : Phase) (now : Nat) : Crec :=
  { status := if p.status ≠ 0 then p.status else bitN p.cancelled, level := p.level, dmet := p.hasdl && !(p.hasdl && decide (p.dline.toNat < now))
    hasdl := p.hasdl, faults := p.faults, urun := p.urun, ucan := p.ucan + p.unlaunched, phid := p.phid, jid := p.jid, graph := p.graph
    tstart := p.tstart }

/-- A die that a phase has left. -/
def withoutPhase (phid : Dw) (graph : Nat) (x : Die) : Die :=
  { x with
    phases := x.phases.filter fun q => decide (q.phid ≠ phid), badCounters := x.badCounters.filter fun g => decide (g ≠ graph)
    launches := x.launches.filter fun l => decide (l.phid ≠ phid) }

/-- The phase leaves the list of its die, and its job counts it (R12). -/
def leftPhase (u : State) (d : DieId) (phid : Dw) (p : Phase) : State :=
  ((u.modDie d (withoutPhase phid p.graph)).modDie d.other fun x => { x with launches := x.launches.filter fun l => decide (l.phid ≠ phid) }).jobDone d p.part p.jid

/-- The stream of a phase that has ended: a late one counts a miss (R339, R341). -/
def streamEnded (u : State) (d : DieId) (p : Phase) (late : Bool) : State :=
  match p.stream.bind fun k => (u.die d).stream? k with
  | some k => (u.modDie d fun x => x.modCox k.e fun k => { k with miss := if late then min 65535 (k.miss + 1) else k.miss }).coxSettle d k.e
  | none => u

/-- What the end of its stream's phase leaves of a die. -/
theorem streamEnded_die (u : State) (d : DieId) (p : Phase) (late : Bool) : ((streamEnded u d p late).die d).phases = (u.die d).phases ∧
    ((streamEnded u d p late).die d).jobs = (u.die d).jobs ∧ ((streamEnded u d p late).die d).queuedPh = (u.die d).queuedPh ∧
    (streamEnded u d p late).mem = u.mem := by
  unfold streamEnded
  split
  · unfold State.coxSettle
    rw [State.die_modDie, State.die_modDie, State.modDie_mem, State.modDie_mem]
    exact ⟨rfl, rfl, rfl, rfl⟩
  · exact ⟨rfl, rfl, rfl, rfl⟩

theorem leftPhase_die (u : State) (d : DieId) (phid : Dw) (p : Phase) : ((leftPhase u d phid p).die d).phases = (u.die d).phases.filter (fun q => decide (q.phid ≠ phid)) ∧
    (leftPhase u d phid p).die d = (withoutPhase phid p.graph (u.die d)).modJob p.part p.jid (fun k => { k with done := k.done + 1 }) ∧
    ((leftPhase u d phid p).die d).queuedPh = (u.die d).queuedPh ∧ (leftPhase u d phid p).mem = u.mem := by
  have hne : d ≠ d.other := by cases d <;> decide
  unfold leftPhase State.jobDone
  rw [State.die_modDie, State.die_modDie_ne _ _ _ _ hne, State.die_modDie, State.modDie_mem, State.modDie_mem, State.modDie_mem]
  exact ⟨rfl, rfl, rfl, rfl⟩

/-- A graph without a queued release. -/
theorem releaseQueued_none {u : State} {g fuel : Nat} (h : ∀ q ∈ (u.die d).queuedPh, q.graph ≠ g) : u.releaseQueued d g (fuel + 1) = u := by
  have hnone : ((u.die d).queuedPh.find? fun q => decide (q.graph = g)) = none := List.find?_eq_none.mpr fun q hq => by simpa using h q hq
  unfold State.releaseQueued
  rw [hnone]

theorem phaseEnd_eq (hp : (s.die d).phase? phid = some p) (hdone : s.phaseDone d p = true) (hq : ∀ q ∈ (s.die d).queuedPh, q.graph ≠ p.graph)
    (hrec : s.recBreaks d p.cmd = false) : ∃ late, s.phaseEnd d phid =
      streamEnded (leftPhase (s.complete d p.cmd (phaseCrec p (s.die d).time)) d phid p) d p late := by
  refine ⟨(p.hasdl && decide (p.dline.toNat < (s.die d).time)) && decide ((phaseCrec p (s.die d).time).status ≠ 1), ?_⟩
  unfold State.phaseEnd
  simp only [hp, hdone, hrec, Bool.not_true, Bool.false_eq_true, if_false]
  refine (releaseQueued_none fun q hmem => hq q ?_).trans rfl
  have hqueued := (Acted.complete s d p.cmd (phaseCrec p (s.die d).time)).die d |>.queuedPh
  have hleft := (leftPhase_die (s.complete d p.cmd (phaseCrec p (s.die d).time)) d phid p).2.2.1
  have hstream := (streamEnded_die (leftPhase (s.complete d p.cmd (phaseCrec p (s.die d).time)) d phid p) d p
    ((p.hasdl && decide (p.dline.toNat < (s.die d).time)) && decide ((phaseCrec p (s.die d).time).status ≠ 1))).2.2.1
  rw [← hqueued, ← hleft, ← hstream]
  exact hmem

theorem phaseComplete_freezes (hp : (s.die d).phase? phid = some p) (hdone : s.phaseDone d p = true) (hrec : s.recBreaks d p.cmd = true) :
    ∃ t, exec (.phaseComplete d phid) s = .next t ∧ p.cmd.fn.val ∈ (t.die d).frozenFns ∧ t.mem = s.mem ∧ (t.die d).phases = (s.die d).phases := by
  have hto : s.phaseEnd d phid = s.freezeFunction d p.cmd.fn := by
    unfold State.phaseEnd
    simp only [hp, hdone, hrec, Bool.not_true, Bool.false_eq_true, if_false, if_true]
  refine ⟨_, congrArg Host.Outcome.next hto, ?_⟩
  unfold State.freezeFunction
  split
  · rename_i hin
    exact ⟨by simpa using hin, rfl, rfl⟩
  · have hdie : ∀ (u : State) (o : Out), (u.outp o).die d = u.die d := fun u o => by cases d <;> rfl
    rw [hdie, State.die_modDie]
    exact ⟨by simp, by simp [State.outp], rfl⟩

/-- The phase has left its die, and its job has counted it. -/
theorem phaseComplete_leaves (hp : (s.die d).phase? phid = some p) (hdone : s.phaseDone d p = true) (hq : ∀ q ∈ (s.die d).queuedPh, q.graph ≠ p.graph)
    (hrec : s.recBreaks d p.cmd = false) : ((s.phaseEnd d phid).die d).phase? phid = none ∧
      ∀ j, (s.die d).job? p.part p.jid = some j → ∃ k, ((s.phaseEnd d phid).die d).job? p.part p.jid = some k ∧ k.done = j.done + 1 ∧ k.total = j.total := by
  obtain ⟨late, hto⟩ := phaseEnd_eq hp hdone hq hrec
  obtain ⟨hphases, hjobs, -, -⟩ := streamEnded_die (leftPhase (s.complete d p.cmd (phaseCrec p (s.die d).time)) d phid p) d p late
  obtain ⟨hleft, hdie, -, -⟩ := leftPhase_die (s.complete d p.cmd (phaseCrec p (s.die d).time)) d phid p
  rw [hto]
  refine ⟨?_, fun j hj => ⟨{ j with done := j.done + 1 }, ?_, rfl, rfl⟩⟩
  · unfold Die.phase?
    rw [hphases, hleft]
    exact List.find?_eq_none.mpr fun q hmem => by simpa using (List.mem_filter.mp hmem).2
  · have hkept : ((s.complete d p.cmd (phaseCrec p (s.die d).time)).die d).job? p.part p.jid = some j :=
      (((Acted.complete s d p.cmd (phaseCrec p (s.die d).time)).die d).job? ..).trans hj
    unfold Die.job? at hkept ⊢
    rw [hjobs, hdie]
    exact job?_modJob (x := withoutPhase phid p.graph _) (fun k => { k with done := k.done + 1 }) hkept fun _ => ⟨rfl, rfl⟩

/-- The record's one write of 64 bytes (R314). -/
theorem phaseComplete_mem {pa : Nat} (hp : (s.die d).phase? phid = some p) (hdone : s.phaseDone d p = true)
    (hq : ∀ q ∈ (s.die d).queuedPh, q.graph ≠ p.graph) (hrec : s.recBreaks d p.cmd = false) (hcrec : p.cmd.crec ≠ 0)
    (hpa : s.fePa d p.cmd.ctx p.cmd.part needWr 64 64 p.cmd.crec = some pa) (hslot : s.hitsSlot pa 64 = false) (hsig : p.cmd.sigk = 0) :
    (s.phaseEnd d phid).mem = (s.homeStore pa ((phaseCrec p (s.die d).time).bytes p.cmd.tag (s.die d).time)).mem := by
  obtain ⟨late, hto⟩ := phaseEnd_eq hp hdone hq hrec
  obtain ⟨-, -, -, hmem⟩ := streamEnded_die (leftPhase (s.complete d p.cmd (phaseCrec p (s.die d).time)) d phid p) d p late
  obtain ⟨-, -, -, hmem'⟩ := leftPhase_die (s.complete d p.cmd (phaseCrec p (s.die d).time)) d phid p
  rw [hto, hmem, hmem']
  unfold State.complete State.signal State.writeCrec
  simp only [hsig, if_neg hcrec, hpa, hslot, Bool.false_eq_true, if_false]

theorem phaseCrec_status (now : Nat) : (phaseCrec p now).status + (phaseCrec p now).level * 2 ^ 8 + bitN (phaseCrec p now).dmet * 2 ^ 16 +
    bitN (phaseCrec p now).hasdl * 2 ^ 17 = (if p.status ≠ 0 then p.status else if p.cancelled then 1 else 0) + p.level * 2 ^ 8 +
      (if p.hasdl = true ∧ now ≤ p.dline.toNat then 2 ^ 16 else 0) + (if p.hasdl then 2 ^ 17 else 0) := by
  have hbit : ∀ (c : Bool) (k : Nat), bitN c * k = if c then k else 0 := fun c k => by cases c <;> simp [bitN]
  have hmet : (p.hasdl && !(p.hasdl && decide (p.dline.toNat < now))) = decide (p.hasdl = true ∧ now ≤ p.dline.toNat) := by
    rw [Bool.eq_iff_iff]
    cases p.hasdl <;> simp
  unfold phaseCrec
  dsimp only
  rw [hmet, hbit, hbit]
  simp only [decide_eq_true_eq]
  rfl

theorem phaseComplete_record {pa : Nat} (hp : (s.die d).phase? phid = some p) (hdone : s.phaseDone d p = true)
    (hq : ∀ q ∈ (s.die d).queuedPh, q.graph ≠ p.graph) (hrec : s.recBreaks d p.cmd = false) (hcrec : p.cmd.crec ≠ 0)
    (hpa : s.fePa d p.cmd.ctx p.cmd.part needWr 64 64 p.cmd.crec = some pa) (hslot : s.hitsSlot pa 64 = false) (hsig : p.cmd.sigk = 0) (hinv : MemInv s) :
    (∀ (i : Nat) (f : Nat × Nat), (crecFields (phaseCrec p (s.die d).time) p.cmd.tag (s.die d).time)[i]? = some f →
      bytesValue (s.phaseEnd d phid).mem (pa + fieldPos (crecFields (phaseCrec p (s.die d).time) p.cmd.tag (s.die d).time) i) f.2 = f.1 % 256 ^ f.2) ∧
    ∀ a, a < pa ∨ pa + 64 ≤ a → memRead (s.phaseEnd d phid).mem a = memRead s.mem a := by
  have hlen := crec_bytes_length (phaseCrec p (s.die d).time) p.cmd.tag (s.die d).time
  rw [phaseComplete_mem hp hdone hq hrec hcrec hpa hslot hsig]
  refine ⟨fun i f hf => bytesValue_fieldBytes (fun j hj => ?_) hf, fun a ha => memRead_homeStore_ne (by rw [hlen]; exact hslot) hinv (by rw [hlen]; exact ha)⟩
  rw [← crec_bytes] at hj ⊢
  exact memRead_homeStore (by rw [hlen]; exact hslot) hinv hj

end

/-! ## Units, phases and their records -/

/-- Settles O48: a push, a park, a placement and a retirement are each one step of the die's lists, named by its outcome; a resumed unit reads the fields of
its record where they were written (`contRec_fields`, `contRec_regs`), and a phase's record stands as its fields (`bytesValue_fieldBytes`). -/
theorem unitEvents : Obligations.UnitEvents := by
  unfold Obligations.UnitEvents
  refine ⟨⟨fun s n id va u deps pa r hdue hcut hcut' htr hrec => spawnPush_launches hdue hcut hcut' htr hrec,
    fun s n id va u deps p hdue hcut hp hrec hbr => spawnPush_counts hdue hcut hp hrec hbr,
    fun s n p u pa x hpark hu hrun hplay hslots hcancel hquiet htr hx hpart hpoison => ?_,
    fun s n p i pa k round kn hfree hheld hp hk hcrew hkn => ?_,
    fun s n k l p la hl hret hcut hp _ hrej hla hmore => unitRetire_counts hl hret hcut hp hrej hla hmore,
    fun s d w p nd hw hp hnd => taskEntryFree_takes hw hp hnd⟩,
    fun s d phid p hp hdone hq => ⟨fun hrec => phaseComplete_freezes hp hdone hrec, fun hrec => ?_⟩⟩
  · have hparking : Parking s n p u pa x := ⟨hpark, hu, hrun, hplay, hslots, hcancel, hquiet, htr, hx, hpart, hpoison⟩
    refine ⟨fun hph hpoll hroom => ?_, fun hph => park_goesOn hparking hph⟩
    obtain ⟨t, y, hto, hunit, hparked, hslot, hwaits⟩ := park_leaves hparking hph hpoll hroom
    exact ⟨t, _, y, hto, hunit, hparked, rfl, rfl, rfl, rfl, rfl, rfl, rfl, rfl, rfl, hslot, hwaits⟩
  · intro s' v htr hpoison arg
    obtain ⟨event, hplace⟩ := placeOn_enters (s := s.takeTask (dieOf n) i k round) hkn htr hpoison
    obtain ⟨hunit, hctx⟩ := enter_core s' n v (placedCtx k (entryCtx v kn.ft (argWords s' v pa))) event
    obtain ⟨hlid, hphid, hprio, hvctx, hpart, huidx⟩ := unitInfo_task (s.takeTask (dieOf n) i k round) (dieOf n) k (s.takeTask (dieOf n) i k round).nextId
    have hto : s.unitPlace n = s'.enter n v (placedCtx k (entryCtx v kn.ft (argWords s' v pa))) event :=
      (unitPlace_takes hfree hheld hp hk hcrew).trans hplace
    have harg : ∀ j, j < 8 → (argWords s' v pa).getD j 0 = arg j := fun j hj => argWords_getD s' v pa hj
    have hsecs : v.secs = kn.secs := unitInfo_secs hkn _
    refine ⟨_, v, congrArg Host.Outcome.next hto, hunit, hlid, hphid, hprio, hvctx, hpart, ?_, ?_⟩
    · rw [huidx, BitVec.toNat_ofNat]
    · rw [hctx]
      refine ⟨entryRest_placedCtx k harg, fun q hq => atEntry_placedCtx k hsecs hq, fun hstarts => ?_, fun r hr => ?_⟩
      · rw [placedCtx_fresh hstarts]
        exact entered_fresh harg hsecs
      · rw [placedCtx_cont hr]
        exact entered_resumed r _ fun q => by rw [entryCtx_seat]; rfl
  · obtain ⟨hgone, hjob⟩ := phaseComplete_leaves hp hdone hq hrec
    refine ⟨_, rfl, hgone, hjob, fun pa hcrec hpa hslot hsig hinv => ?_⟩
    obtain ⟨hfield, hrest⟩ := phaseComplete_record hp hdone hq hrec hcrec hpa hslot hsig hinv
    obtain ⟨hword, hfaults, hurun, hucan, hphid, hjid, htag, hstart, hend⟩ := crecFields_read hfield
    exact ⟨hword.trans (congrArg (· % 2 ^ 32) (phaseCrec_status _)), hfaults, hurun, hucan, hphid, hjid, htag, hstart, hend, hrest⟩

end Sys2Proof
end

section
/-! PROOF. What the registers hold at reset, and what a read of one answers. -/

namespace Sys2Proof

open Machine Spec

/-! ## The registers at reset -/

theorem coreAt_reset (n : CoreId) : State.reset.coreAt n = Core.reset := Vector.getElem_replicate ..

/-- Settles O7: every core of reset holds the one reset context, and each register file of it one value throughout. -/
theorem resetRegisters : Obligations.ResetRegisters := by
  intro n
  rw [coreAt_reset]
  refine ⟨rfl, rfl, rfl, rfl, rfl, rfl, fun i => ?_, fun i => ?_, fun i => ⟨?_, ?_, ?_⟩, fun q => ?_⟩
  · exact Vector.getElem_replicate ..
  · exact Vector.getElem_replicate ..
  · exact Vector.getElem_replicate ..
  · exact Vector.getElem_replicate ..
  · exact Vector.getElem_replicate ..
  · have h : Ctx.reset.queue q = Queue.reset := Vector.getElem_replicate ..
    show (Ctx.reset.queue q).binding = 0
    rw [h]; rfl

/-! ## Reads of registers -/

/-- A name below 24 does not turn (R41). -/
theorem rotName_low (b : BitVec 3) (i : BitVec 5) (h : i.toNat < 24) : rotName b i = i := if_pos h

/-- A name from 24 on turns with the rotation base, modulo 8 (R41). -/
theorem rotName_high (b : BitVec 3) (i j : BitVec 5) (h : 24 ≤ i.toNat)
    (hj : (j.toNat : Int) = 24 + ((i.toNat : Int) - 24 - b.toNat) % 8) : rotName b i = j := by
  have hb := b.isLt
  unfold rotName
  rw [if_neg (by omega)]
  apply BitVec.eq_of_toNat_eq
  rw [BitVec.toNat_ofNat]
  omega

theorem ne_zero_of_high {i : BitVec 5} (h : 24 ≤ i.toNat) : i ≠ 0 := by
  rintro rfl; exact absurd h (by decide)

/-- A read of an a register whose physical register is j, in no window. -/
theorem rdA_eq {s : State} {tag : Nat} {i j : BitVec 5} (h0 : i ≠ 0) (hj : rotName ((here s).seat .a).rb i = j)
    (hw : (here s).inWindow (.a j) = false) : s.rdA tag i = (here s).a.get j.toFin := by
  subst hj
  unfold State.rdA
  exact (if_neg h0).trans (if_neg (by rw [Bool.not_eq_true]; exact hw))

/-- A read of a v register whose physical register is j, in no window. -/
theorem rdV_eq {s : State} {tag : Nat} {i j : BitVec 5} (hj : rotName ((here s).seat .v).rb i = j)
    (hw : (here s).inWindow (.v j) = false) : s.rdV tag i = (here s).v.get j.toFin := by
  subst hj
  unfold State.rdV
  exact if_neg (by rw [Bool.not_eq_true]; exact hw)

/-- Settles O6: register 0 is told apart before the window is, and outside a window the file is read at the register's physical name. -/
theorem registerReads : Obligations.RegisterReads := by
  intro s tag
  have out : ∀ {d : Dest}, (here s).inWindow d = false → ¬ (here s).inWindow d = true := fun h => by rw [h]; exact Bool.false_ne_true
  refine ⟨rfl, rfl, rfl, fun i h0 hw => ?_, fun i h0 hi hw => ?_, fun i j hi hj hw => ?_, fun i j hi hj hw => ?_, fun i hw => ?_, fun i hw => ?_,
    fun i h0 hw => ?_, fun i hi hw => ?_⟩
  · exact (if_neg h0).trans (if_neg (out hw))
  · exact rdA_eq h0 (rotName_low _ _ hi) hw
  · exact rdA_eq (ne_zero_of_high hi) (rotName_high _ _ _ hi hj) hw
  · exact rdV_eq (rotName_high _ _ _ hi hj) hw
  · exact if_neg (out hw)
  · exact if_neg (out hw)
  · exact (if_neg h0).trans (if_neg (out hw))
  · exact rdV_eq (rotName_low _ _ hi) hw

end Sys2Proof
end

section
/-! PROOF. The branches and jumps of the seats: the condition and the target of each word, and where its seat goes. -/

namespace Sys2Proof

open Machine Spec

/-- A branch word, its condition and its target told by the spec's expressions. -/
theorem exec_branch {s u : State} {k : SeatId} {i : Instr} {st b b' : Bool} {a a' : Dw} (hi : Issues s k st i)
    (he : exec i s = issue k st i (branchV u b' a') s) (hb : b' = b) (ha : a' = a) : ∃ t, exec i s = .next t ∧ Past k (ToBranch b a) u t := by
  subst hb ha
  rw [he]
  exact issue_branch hi

theorem target_eq_wrap (a : Dw) {w : Nat} (v : BitVec w) (h : w ≤ 64) : target a v = wrap ((a.toNat : Int) + 4 * v.toInt) := target_eq a v h

theorem not_slt_eq (a b : Dw) : (!a.slt b) = decide (b.toInt ≤ a.toInt) := by
  rw [BitVec.slt_eq_decide, ← decide_not]; exact decide_eq_decide.mpr Int.not_lt

theorem not_ult_eq (a b : Dw) : (!a.ult b) = decide (b.toNat ≤ a.toNat) := by
  rw [BitVec.ult_eq_decide, ← decide_not]; exact decide_eq_decide.mpr Nat.not_lt

theorem bne_eq_decide (a b : Dw) : (a != b) = decide (a ≠ b) := by
  rw [decide_not]; rfl

/-- The table of C's branches (R146, R147) names the condition and the target that the word's rule computes. -/
theorem exec_cBranch {s : State} {i : Instr} {st taken : Bool} {a : Dw} (h : cBranch s i = some (st, taken, a)) (hi : Issues s .c st i) :
    ∃ t, exec i s = .next t ∧ Past .c (ToBranch taken a) s t := by
  cases i <;> simp only [cBranch, reduceCtorEq, Option.some.injEq, Prod.mk.injEq] at h <;> obtain ⟨rfl, rfl, rfl⟩ := h
  case beq => exact exec_branch hi rfl rfl (target_eq_wrap _ _ (by decide))
  case bne => exact exec_branch hi rfl (bne_eq_decide ..) (target_eq_wrap _ _ (by decide))
  case blt => exact exec_branch hi rfl BitVec.slt_eq_decide (target_eq_wrap _ _ (by decide))
  case bge => exact exec_branch hi rfl (not_slt_eq ..) (target_eq_wrap _ _ (by decide))
  case bltu => exact exec_branch hi rfl BitVec.ult_eq_decide (target_eq_wrap _ _ (by decide))
  case bgeu => exact exec_branch hi rfl (not_ult_eq ..) (target_eq_wrap _ _ (by decide))
  case jmp => exact exec_branch hi rfl rfl (target_eq_wrap _ _ (by decide))
  case jr => exact exec_branch hi rfl rfl rfl

/-- The table of A's branches (R162) names the condition and the target that the word's rule computes. -/
theorem exec_aBranch {s : State} {i : Instr} {st taken : Bool} {a : Dw} (h : aBranch s i = some (st, taken, a)) (hi : Issues s .a st i) :
    ∃ t, exec i s = .next t ∧ Past .a (ToBranch taken a) s t := by
  cases i <;> simp only [aBranch, reduceCtorEq, Option.some.injEq, Prod.mk.injEq] at h <;> obtain ⟨rfl, rfl, rfl⟩ := h
  case abeq => exact exec_branch hi rfl rfl (target_eq_wrap _ _ (by decide))
  case abne => exact exec_branch hi rfl (bne_eq_decide ..) (target_eq_wrap _ _ (by decide))
  case ablt => exact exec_branch hi rfl BitVec.slt_eq_decide (target_eq_wrap _ _ (by decide))
  case abge => exact exec_branch hi rfl (not_slt_eq ..) (target_eq_wrap _ _ (by decide))
  case ajmp => exact exec_branch hi rfl rfl (target_eq_wrap _ _ (by decide))
  case ajr => exact exec_branch hi rfl rfl rfl

/-- The table of M's branches (R246) names the condition and the target that the word's rule computes. -/
theorem exec_mBranch {s : State} {i : Instr} {st taken : Bool} {a : Dw} (h : mBranch s i = some (st, taken, a)) (hi : Issues s .m st i) :
    ∃ t, exec i s = .next t ∧ Past .m (ToBranch taken a) s t := by
  cases i <;> simp only [mBranch, reduceCtorEq, Option.some.injEq, Prod.mk.injEq] at h <;> obtain ⟨rfl, rfl, rfl⟩ := h
  case mbz => exact exec_branch hi rfl rfl (target_eq_wrap _ _ (by decide))
  case mbnz => exact exec_branch hi rfl (bne_eq_decide ..) (target_eq_wrap _ _ (by decide))
  case mblt => exact exec_branch hi rfl BitVec.slt_eq_decide (target_eq_wrap _ _ (by decide))
  case mjmp => exact exec_branch hi rfl rfl (target_eq_wrap _ _ (by decide))
  case mjr => exact exec_branch hi rfl rfl rfl

/-- The table of V's branches (R222) names the condition and the target that the word's rule computes. -/
theorem exec_vBranch {s : State} {i : Instr} {st taken : Bool} {a : Dw} (h : vBranch s i = some (st, taken, a)) (hi : Issues s .v st i) :
    ∃ t, exec i s = .next t ∧ Past .v (ToBranch taken a) s t := by
  cases i <;> simp only [vBranch, reduceCtorEq, Option.some.injEq, Prod.mk.injEq] at h <;> obtain ⟨rfl, rfl, rfl⟩ := h
  case vbz => exact exec_branch hi rfl rfl (target_eq_wrap _ _ (by decide))
  case vbnz => exact exec_branch hi rfl (bne_eq_decide ..) (target_eq_wrap _ _ (by decide))
  case vjmp => exact exec_branch hi rfl rfl (target_eq_wrap _ _ (by decide))

/-- Settles O14: the table of C's branches, and JAL, whose link is the pc and 12. -/
theorem cBranchGoes : Obligations.CBranchGoes := by
  refine ⟨fun s i st taken a h hi => exec_cBranch h hi, fun s st imm hi => ?_⟩
  have hl : wrap ((s.pcOf .c).toNat + 12) = s.pcOf .c + 12 := by rw [add_eq_ofInt]; rfl
  rw [hl]
  exact exec_branch hi rfl rfl (target_eq_wrap _ _ (by decide))

/-- Settles O35: the tables of A's and M's branches, and FTSET. -/
theorem seatBranches : Obligations.SeatBranches :=
  ⟨fun _ _ _ _ _ h hi => exec_aBranch h hi, fun _ _ _ _ _ h hi => exec_mBranch h hi, fun _ _ _ _ hi => issue_seq hi⟩

end Sys2Proof
end

section
/-! PROOF. The words of the common group, in every seat. -/

namespace Sys2Proof

open Machine Spec

/-! ## The seat whose turn it is -/

theorem turn_of_canIssue {s : State} {k : SeatId} (h : s.canIssue k = true) : s.turn = .seat k := by
  simp only [State.canIssue, Bool.and_eq_true, decide_eq_true_eq] at h
  exact h.1.1.1.1.1.1.2

theorem turnSeat_of_canIssue {s : State} {k : SeatId} (h : s.canIssue k = true) : s.turnSeat = k := by
  rw [State.turnSeat, turn_of_canIssue h]

/-- A word of the common group is issued in the seat whose turn it is. -/
theorem exec_common {s : State} {k : SeatId} {st : Bool} {i : Instr} {v : SeatId → Verdict} (hi : Issues s k st i)
    (he : exec i s = issue s.turnSeat st i (v s.turnSeat) s) : exec i s = issue k st i (v k) s := by
  rw [he, turnSeat_of_canIssue hi.1]

/-! ## Verdicts told of a word that issues -/

theorem exec_go {s u : State} {k : SeatId} {st : Bool} {i : Instr} {v : Verdict} (hi : Issues s k st i) (he : exec i s = issue k st i v s)
    (hv : v = .go u .seq) : ∃ t, exec i s = .next t ∧ Past k ToNext u t := by
  rw [he, hv]; exact issue_seq hi

theorem exec_stall {s u : State} {k : SeatId} {st : Bool} {i : Instr} {v : Verdict} (hi : Issues s k st i) (he : exec i s = issue k st i v s)
    (hv : v = .stall u) : ∃ t, exec i s = .next t ∧ Waits u t := by
  rw [he, hv]; exact issue_stall hi

theorem exec_trap {s : State} {k : SeatId} {st : Bool} {i : Instr} {v : Verdict} {q : Cause} {tval : Dw} (hi : Issues s k st i)
    (he : exec i s = issue k st i v s) (hv : v = .trap q tval) : ∃ t, exec i s = .next t ∧ Trapped k q tval s t := by
  rw [he, hv]; exact issue_trap hi

/-- A word that issues and then traps: its seat moves past it, and keeps the cause with the address of the word. -/
theorem issue_goTrap {s : State} {k : SeatId} {st : Bool} {i : Instr} {q : Cause} {tval : Dw} (hi : Issues s k st i) (hq : q.tvalStated = true) :
    ∃ t u, issue k st i (.goTrap s .seq q tval) s = .next t ∧ Past k ToNext s u ∧
      t = u.modCtx s.cur fun x => x.modSeat k fun z => { z with cause := some { cause := q, tval := tval, tpc := s.pcOf k, issued := true } } := by
  refine ⟨_, _, ?_, pass_past s k .seq _ (advance_seq ..), rfl⟩
  unfold issue
  rw [if_pos hi.1, hi.2]
  simp only [State.settle, State.raise, hq, if_true]
  rfl

/-! ## The words -/

theorem tpostV_eq {s : State} {x : BitVec 4} {n : BitVec 8} (hn : n ≠ 0) :
    tpostV x n s = if 65535 < ((here s).k.get x.toFin).toNat + (s.coreAt s.cur).postsTo x + n.toNat then .trap .tokenOverflow 0
      else .go (s.pendF (.post x n)) .seq := if_neg hn

/-- A token that holds n gives n up. -/
theorem token_less (v : BitVec 16) (n : BitVec 8) (h : n.toNat ≤ v.toNat) : v - n.setWidth 16 = BitVec.ofNat 16 (v.toNat - n.toNat) := by
  have := n.isLt
  bv_omega

theorem twaitV_go {s : State} {x : BitVec 4} {n : BitVec 8} (hn : n ≠ 0) (h : n.toNat ≤ ((here s).k.get x.toFin).toNat) :
    twaitV x n s = .go (s.modCtx s.cur fun y => { y with k := y.k.set x.toFin (BitVec.ofNat 16 (((here s).k.get x.toFin).toNat - n.toNat)) }) .seq := by
  rw [← token_less _ _ h]
  exact (if_neg hn).trans (if_pos h)

theorem twaitV_stall {s : State} {x : BitVec 4} {n : BitVec 8} (hn : n ≠ 0) (h : ((here s).k.get x.toFin).toNat < n.toNat) :
    twaitV x n s = .stall (s.why 16) := (if_neg hn).trans (if_neg (Nat.not_le.mpr h))

/-- BNDY where the place is no tile boundary of the unit. -/
theorem bndyV_within {s : State} {k : SeatId} {st : Bool} {lp : Loop} (h : ((here s).seat k).body = some lp) : bndyV st k s = .go s .seq := by
  have hb : ((s.coreAt s.cur).ctx.seat k).body = some lp := h
  unfold bndyV
  simp only [hb, Option.isNone_some, Bool.false_and, Bool.false_eq_true, if_false]
  split <;> rfl

/-- BNDY where its seat is alone, in no loop, outside a handler. -/
theorem bndyV_alone {s : State} {k : SeatId} {st : Bool} {u : UnitInfo} (hu : (s.coreAt s.cur).unit = some u) (hh : (s.coreAt s.cur).handler = none)
    (hl : ((here s).seat k).loop = none) (ha : (here s).actives = [k]) :
    bndyV st k s = if u.stop.isSome then .go (s.pendF .boundary) .seq else .go s .seq := by
  have hb : ((s.coreAt s.cur).ctx.seat k).body = none := by
    have : ((s.coreAt s.cur).ctx.seat k).loop = none := hl
    simp only [Seat.body, this]
  have ha' : (s.coreAt s.cur).ctx.actives = [k] := ha
  unfold bndyV
  simp only [hb, hh, hu, ha', Option.isNone_none, decide_true, Bool.or_true, Bool.and_true, Bool.true_and]

/-- Settles O37: one verdict a word, told of the seat whose turn it is. -/
theorem commonWords : Obligations.CommonWords := by
  intro s k st
  refine ⟨fun hi => ?_, fun n x hi hn => ⟨fun h => ?_, fun h => ?_⟩, fun n x hi hn => ⟨fun h => ?_, fun h => ?_⟩, fun f v hi => ?_,
    fun f v hi => ⟨fun h => ?_, fun h => ?_⟩, fun c hi => ⟨fun h => ?_, fun h => ?_⟩, fun u hi hu hh hl ha => ⟨fun h => ?_, fun h => ?_⟩, fun lp hi hb => ?_⟩
  · exact exec_go hi (exec_common (v := fun _ => vNop s) hi rfl) rfl
  · exact exec_trap hi (exec_common (v := fun _ => vTpost x n s) hi rfl) ((tpostV_eq hn).trans (if_pos h))
  · exact exec_go hi (exec_common (v := fun _ => vTpost x n s) hi rfl) ((tpostV_eq hn).trans (if_neg (Nat.not_lt.mpr h)))
  · exact exec_go hi (exec_common (v := fun _ => vTwait x n s) hi rfl) (twaitV_go hn h)
  · exact exec_stall hi (exec_common (v := fun _ => vTwait x n s) hi rfl) (twaitV_stall hn h)
  · exact exec_go hi (exec_common (v := fun _ => vFset f v s) hi rfl) rfl
  · exact exec_go hi (exec_common (v := fun _ => vFwait f v s) hi rfl) (if_pos h)
  · exact exec_stall hi (exec_common (v := fun _ => vFwait f v s) hi rfl) (if_neg h)
  · exact exec_go hi (exec_common (v := fun _ => vBrk c s) hi rfl) (if_pos h)
  · have hv : vBrk c s = .goTrap s .seq .breakpoint (BitVec.ofNat 64 c.toNat) := by
      rw [← zx_eq]; exact if_neg (by rw [h]; exact Bool.false_ne_true)
    rw [exec_common (v := fun _ => vBrk c s) hi rfl, hv]
    exact issue_goTrap hi rfl
  · exact exec_go hi (exec_common (v := fun j => vBndy st j s) hi rfl) ((bndyV_alone hu hh hl ha).trans (by rw [h]; rfl))
  · exact exec_go hi (exec_common (v := fun j => vBndy st j s) hi rfl) ((bndyV_alone hu hh hl ha).trans (if_pos h))
  · exact exec_go hi (exec_common (v := fun j => vBndy st j s) hi rfl) (bndyV_within hb)

end Sys2Proof
end

section
/-! PROOF. The end of a hold, a seat past its last word, and a result that lands. -/

namespace Sys2Proof

open Machine Spec

theorem oneCore_modCtx (n : CoreId) (s : State) (f : Ctx → Ctx) : OneCore n s (s.modCtx n f) :=
  oneCore_modCore n s fun c => { c with ctx := f c.ctx }

/-! ## Seats that run out -/

/-- A cause of seat k, to be taken at the end of the clock: the core keeps all else. -/
theorem coreAt_raise_atClockEnd (s : State) (n : CoreId) (k : SeatId) (q : Cause) (tval pc : Dw) (b : Bool) :
    ∃ tv, (q.tvalStated = true → tv = tval) ∧ ((s.raise n k q tval pc b).atClockEnd n).coreAt n =
      { s.coreAt n with why := (s.coreAt n).why ++ [102]
                        ctx := (s.coreAt n).ctx.modSeat k fun z => { z with cause := some { cause := q, tval := tv, tpc := pc, issued := b } } } := by
  refine ⟨if q.tvalStated then tval else Config.freeDw s.free (640 + k.toNat), fun h => if_pos h, ?_⟩
  simp only [State.atClockEnd, State.raise, State.coreAt_modCore, State.coreAt_modCtx]

theorem oneCore_raise_atClockEnd (s : State) (n : CoreId) (k : SeatId) (q : Cause) (tval pc : Dw) (b : Bool) :
    OneCore n s ((s.raise n k q tval pc b).atClockEnd n) := by
  unfold State.atClockEnd State.raise
  exact oneCore_trans (oneCore_modCtx ..) (oneCore_modCore ..)

/-- A seat that has run out in a handler or in a loop body keeps the cause. -/
theorem runOut_traps {s : State} {n : CoreId} {k : SeatId} (h : s.ranOut n k = true)
    (hb : (s.coreAt n).handler.isSome = true ∨ ((s.coreAt n).ctx.seat k).body.isSome = true) :
    s.runOut n k = (s.raise n k (if (s.coreAt n).handler.isSome then .branchTarget else .loopBody) 0 ((s.coreAt n).ctx.seat k).pc false).atClockEnd n := by
  unfold State.runOut
  dsimp only
  rw [h, Bool.not_true, if_neg Bool.false_ne_true]
  cases hh : (s.coreAt n).handler with
  | some x => rfl
  | none =>
    rw [hh] at hb
    obtain ⟨lp, hlp⟩ := Option.isSome_iff_exists.mp (hb.resolve_left Bool.false_ne_true)
    rw [hlp]; rfl

/-- A seat that has run out elsewhere becomes inactive. -/
theorem runOut_parks {s : State} {n : CoreId} {k : SeatId} (h : s.ranOut n k = true) (hh : (s.coreAt n).handler = none)
    (hb : ((s.coreAt n).ctx.seat k).body = none) :
    s.runOut n k = s.modCtx n fun x => x.modSeat k fun t => { t with act := false, strk := false, dslots := 0, dtaken := false } := by
  unfold State.runOut
  dsimp only
  rw [h, Bool.not_true, if_neg Bool.false_ne_true, hh, hb]
  rfl

/-- Settles O39: the event of each of the two, whose state is written out by the lemmas above. -/
theorem seatEvents : Obligations.SeatEvents := by
  refine ⟨fun s n hh hm hl => ?_, fun s n k hr hh hb => ?_, fun s n k hr hb => ?_⟩
  · have hover : s.holdOver n = true := by simp only [State.holdOver, hh, hm, hl]; rfl
    exact ⟨_, congrArg Host.Outcome.next (if_pos hover), oneCore_modCore .., State.coreAt_modCore ..⟩
  · refine ⟨_, congrArg Host.Outcome.next (runOut_parks hr hh hb), oneCore_modCore .., ?_, fun j hj => ?_, ?_, ?_⟩ <;> rw [State.coreAt_modCtx]
    · rw [Ctx.seat_modSeat]
    · exact Ctx.seat_modSeat_ne _ _ _ _ hj
    · dsimp only
      exact .modSeat ..
    · rfl
  · obtain ⟨tv, -, hc⟩ := coreAt_raise_atClockEnd s n k (if (s.coreAt n).handler.isSome then .branchTarget else .loopBody) 0
      ((s.coreAt n).ctx.seat k).pc false
    refine ⟨_, ⟨if (s.coreAt n).handler.isSome then .branchTarget else .loopBody, tv, ((s.coreAt n).ctx.seat k).pc, false⟩, congrArg Host.Outcome.next (runOut_traps hr hb), oneCore_raise_atClockEnd .., ?_, rfl, rfl, rfl,
      ?_⟩ <;> rw [hc]
    · rw [Ctx.seat_modSeat]
    · dsimp only
      exact .modSeat ..

/-! ## The merge of a result (R26, R201) -/

/-- Bit i of a mask of the byte j. -/
theorem getLsbD_byteMask (j i : Nat) (hi : i < 8192) : ((0xFF : Line) <<< (8 * j)).getLsbD i = decide (i / 8 = j) := by
  have h255 : ∀ m, (0xFF : Line).getLsbD m = (decide (m < 8192) && decide (m < 8)) := fun m => by
    rw [show (0xFF : Line).getLsbD m = (decide (m < 8192) && (2 ^ 8 - 1).testBit m) from BitVec.getLsbD_ofNat .., Nat.testBit_two_pow_sub_one]
  rw [BitVec.getLsbD_shiftLeft, h255, Bool.eq_iff_iff]
  simp only [Bool.and_eq_true, Bool.not_eq_true', decide_eq_true_eq, decide_eq_false_iff_not]
  omega

/-- One byte of a merge. -/
def mergeByte (en : BitVec 1024) (new : Line) (acc : Line) (j : Nat) : Line :=
  if en.getLsbD j then (acc &&& ~~~((0xFF : Line) <<< (8 * j))) ||| (new &&& ((0xFF : Line) <<< (8 * j))) else acc

theorem mergeBytes_eq_foldl (en : BitVec 1024) (old new : Line) : mergeBytes en old new = (List.range 1024).foldl (mergeByte en new) old := rfl

theorem getLsbD_mergeByte (en : BitVec 1024) (new acc : Line) (j i : Nat) (hi : i < 8192) :
    (mergeByte en new acc j).getLsbD i = if i / 8 = j ∧ en.getLsbD j = true then new.getLsbD i else acc.getLsbD i := by
  unfold mergeByte
  by_cases he : en.getLsbD j = true
  · rw [if_pos he, BitVec.getLsbD_or, BitVec.getLsbD_and, BitVec.getLsbD_and, BitVec.getLsbD_not, getLsbD_byteMask _ _ hi, decide_eq_true hi]
    by_cases hj : i / 8 = j
    · simp [hj, he]
    · simp [hj]
  · rw [if_neg he, if_neg fun h => he h.2]

/-- The bytes below n of a merge have been merged. -/
theorem getLsbD_mergeBytes_upto (en : BitVec 1024) (old new : Line) (i : Nat) (hi : i < 8192) (n : Nat) :
    ((List.range n).foldl (mergeByte en new) old).getLsbD i = if i / 8 < n ∧ en.getLsbD (i / 8) = true then new.getLsbD i else old.getLsbD i := by
  induction n with
  | zero => simp
  | succ n ih =>
    rw [List.range_succ, List.foldl_append, List.foldl_cons, List.foldl_nil, getLsbD_mergeByte _ _ _ _ _ hi, ih]
    by_cases hn : i / 8 = n
    · subst hn; simp
    · simp only [hn, false_and, if_false, show (i / 8 < n + 1) = (i / 8 < n) from propext ⟨fun h => by omega, fun h => by omega⟩]

theorem getLsbD_mergeLine (en : BitVec 1024) (old new : Line) (i : Nat) (hi : i < 8192) :
    (mergeLine en old new).getLsbD i = if en.getLsbD (i / 8) = true then new.getLsbD i else old.getLsbD i := by
  unfold mergeLine
  split
  · rename_i he
    rw [he, BitVec.getLsbD_allOnes, decide_eq_true (by omega), if_pos rfl]
  · rw [mergeBytes_eq_foldl, getLsbD_mergeBytes_upto _ _ _ _ hi]
    simp [show i / 8 < 1024 by omega]

/-- A byte of a merged value is the new one's where it is enabled (R201). -/
theorem mergeLine_byte (en : BitVec 1024) (old new : Line) (j : Nat) (hj : j < 1024) :
    (mergeLine en old new).extractLsb' (8 * j) 8 = if en.getLsbD j then new.extractLsb' (8 * j) 8 else old.extractLsb' (8 * j) 8 := by
  apply BitVec.eq_of_getLsbD_eq
  intro i hi
  rw [BitVec.getLsbD_extractLsb', getLsbD_mergeLine _ _ _ _ (by omega), show (8 * j + i) / 8 = j by omega]
  split <;> rw [BitVec.getLsbD_extractLsb']

theorem mergePred_bit (en : BitVec 1024) (old : Pred) (new : Line) (j : Nat) (hj : j < 256) :
    ((old &&& ~~~(en.setWidth 256)) ||| (new.setWidth 256 &&& en.setWidth 256) : Pred).getLsbD j =
      if en.getLsbD j then new.getLsbD j else old.getLsbD j := by
  simp only [BitVec.getLsbD_or, BitVec.getLsbD_and, BitVec.getLsbD_not, BitVec.getLsbD_setWidth, hj, decide_true, Bool.true_and]
  cases en.getLsbD j <;> simp

theorem setWidth_eq_low (v : Line) (w : Nat) (h : w ≤ 8192) : v.setWidth w = v.extractLsb' 0 w := BitVec.setWidth_eq_extractLsb' h

/-- UHAND keeps a 4-byte aligned address (R155). -/
theorem alignedLow (v : Line) : v.setWidth 64 &&& ~~~(3 : Dw) = v.extractLsb' 2 62 ++ (0 : BitVec 2) := by
  have h3 : ∀ i, i < 64 → (3 : Dw).getLsbD i = decide (i < 2) := by decide
  apply BitVec.eq_of_getLsbD_eq
  intro i hi
  rw [BitVec.getLsbD_append, BitVec.getLsbD_and, BitVec.getLsbD_not, BitVec.getLsbD_setWidth, h3 i hi, BitVec.getLsbD_extractLsb']
  by_cases h2 : i < 2
  · simp [h2]
  · have : i - 2 < 62 := by omega
    simp [h2, hi, this, show 2 + (i - 2) = i by omega]

/-! ## A result that lands (R32, R33) -/

/-- What a result writes, case by case of its destination. -/
theorem land_landed (x : Ctx) (r : InFlight) : landed x (x.land r) r := by
  unfold landed Ctx.land
  cases r.dest with
  | none => rfl
  | c i => dsimp only; rw [setWidth_eq_low _ _ (by decide)]; split <;> rfl
  | a i => dsimp only; rw [setWidth_eq_low _ _ (by decide)]; split <;> rfl
  | x i => dsimp only; rw [setWidth_eq_low _ _ (by decide)]
  | m i => dsimp only; rw [setWidth_eq_low _ _ (by decide)]
  | v i => exact ⟨_, rfl, fun j hj => mergeLine_byte _ _ _ _ hj⟩
  | p i => exact ⟨_, by dsimp only; split <;> rfl, fun j hj => mergePred_bit _ _ _ _ hj⟩
  | l i => dsimp only; rw [setWidth_eq_low _ _ (by decide)]
  | sys i => dsimp only; rw [alignedLow]
  | fmt i => dsimp only; rw [setWidth_eq_low _ _ (by decide)]
  | dph => dsimp only; rw [setWidth_eq_low _ _ (by decide)]
  | queue q t => rfl

/-- The first element that meets a test is the one that leaves the list. -/
theorem dropFirst_eq_erase {α : Type} [DecidableEq α] (p : α → Bool) (r : α) (l : List α) (h : l.find? p = some r) : dropFirst p l = l.erase r := by
  induction l with
  | nil => cases h
  | cons a l ih =>
    unfold dropFirst
    by_cases ha : p a = true
    · rw [List.find?_cons_of_pos ha] at h
      rw [if_pos ha, Option.some.inj h, List.erase_cons_head]
    · rw [List.find?_cons_of_neg ha] at h
      have hne : a ≠ r := fun e => ha (e ▸ List.find?_some h)
      rw [if_neg ha, ih h, List.erase_cons_tail (by simpa using hne)]

theorem kindIdx_lt (d : Dest) : d.kindIdx.2 < 1024 := by
  cases d with
  | none => exact Nat.zero_lt_succ _
  | dph => exact Nat.zero_lt_succ _
  | _ => simp only [Dest.kindIdx]; omega

/-- The entry of the replay log for a value from outside the core (R389). -/
def valueEntry (c : Core) (r : InFlight) : List Byte :=
  leBytes (2 + 2 ^ 4 * r.seat.toNat + 2 ^ 6 * r.dest.kindIdx.2 + 2 ^ 16 * ((c.csc - c.dbg.rlcsc).toNat % 2 ^ 48)) 8 ++
    leBytes (r.val.extractLsb' 0 64).toNat 8

theorem coreAt_logEntry_value {s : State} {n : CoreId} {r : InFlight} (hu : (s.coreAt n).unit.isSome = true) :
    (s.logEntry n 2 r.seat r.dest.kindIdx.2 (r.val.setWidth 64).toNat []).coreAt n =
      { s.coreAt n with dbg := if (s.coreAt n).dbg.rec_ = true then
          { (s.coreAt n).dbg with rlq := (s.coreAt n).dbg.rlq ++ [valueEntry (s.coreAt n) r] } else (s.coreAt n).dbg } := by
  unfold State.logEntry
  obtain ⟨u, hu⟩ := Option.isSome_iff_exists.mp hu
  by_cases hr : (s.coreAt n).dbg.rec_ = true
  · simp only [hr, hu, Bool.not_true, Option.isNone_some, Bool.or_self, Bool.false_eq_true, if_false, if_true, State.coreAt_setCore, valueEntry, Dbg.cyc,
      List.append_nil, Nat.mod_eq_of_lt (kindIdx_lt _), setWidth_eq_low _ 64 (by decide), show ((2 : Nat) = 1) = False from by simp, Nat.mul_comm (2 ^ _)]
  · simp only [hr, Bool.not_false, Bool.true_or, if_true, Bool.false_eq_true, if_false]

theorem oneCore_logEntry (s : State) (n : CoreId) (kind : Nat) (k : SeatId) (idx val : Nat) (data : List Byte) :
    OneCore n s (s.logEntry n kind k idx val data) := by
  unfold State.logEntry
  dsimp only
  split
  · exact ⟨fun _ _ => rfl, fun _ => rfl, rfl, rfl⟩
  · exact ⟨fun m hm => State.coreAt_setCore_ne _ _ _ _ hm, fun _ => rfl, rfl, rfl⟩

/-- A core that does not play takes no entry of a log. -/
theorem playDue_none {s : State} {n : CoreId} (h : s.playing n = false) : s.playDue n = none := by
  unfold State.playDue; rw [h]; rfl

theorem resultLand_eq {s : State} {n : CoreId} {r : InFlight} (hs : s.atStart n = true) (ha : s.advancing n = true) (hp : s.playing n = false)
    (hr : (s.coreAt n).ctx.inflight.find? (s.coreAt n).ctx.landable = some r) : s.resultLand n = s.landOne n r := by
  unfold State.resultLand
  rw [hs, ha, playDue_none hp, hr]
  rfl

/-- The first result that may land has left the list of results in flight. -/
def withoutLanding (s : State) (n : CoreId) : State := s.modCtx n fun x => { x with inflight := dropFirst x.landable x.inflight }

/-- That result has been written to its register as well. -/
def withLanded (s : State) (n : CoreId) (r : InFlight) : State := (withoutLanding s n).modCtx n fun x => x.land r

theorem coreAt_withoutLanding {s : State} {n : CoreId} {r : InFlight} (h : (s.coreAt n).ctx.inflight.find? (s.coreAt n).ctx.landable = some r) :
    (withoutLanding s n).coreAt n = { s.coreAt n with ctx := { (s.coreAt n).ctx with inflight := (s.coreAt n).ctx.inflight.erase r } } := by
  rw [← dropFirst_eq_erase _ _ _ h]
  exact State.coreAt_modCtx ..

theorem coreAt_withLanded {s : State} {n : CoreId} {r : InFlight} (h : (s.coreAt n).ctx.inflight.find? (s.coreAt n).ctx.landable = some r) :
    (withLanded s n r).coreAt n =
      { s.coreAt n with ctx := ({ (s.coreAt n).ctx with inflight := (s.coreAt n).ctx.inflight.erase r } : Ctx).land r } :=
  (State.coreAt_modCtx ..).trans (by rw [coreAt_withoutLanding h])

theorem oneCore_withoutLanding (s : State) (n : CoreId) : OneCore n s (withoutLanding s n) := oneCore_modCtx ..

theorem oneCore_withLanded (s : State) (n : CoreId) (r : InFlight) : OneCore n s (withLanded s n r) :=
  oneCore_trans (oneCore_withoutLanding s n) (oneCore_modCtx ..)

/-- A value from outside the core goes into a recording log after it has landed (R389). -/
theorem landOne_outside {s : State} {n : CoreId} {r : InFlight} (he : r.err = none) (hx : r.ext = true) (hp : (withoutLanding s n).playing n = false) :
    s.landOne n r = (withLanded s n r).logEntry n 2 r.seat r.dest.kindIdx.2 (r.val.setWidth 64).toNat [] := by
  unfold State.landOne
  simp only [he, hx, Bool.not_true, Bool.false_eq_true, if_false]
  exact if_neg (by rw [← Bool.not_eq_true] at hp; exact hp)

theorem landOne_inside {s : State} {n : CoreId} {r : InFlight} (he : r.err = none) (hx : r.ext = false) : s.landOne n r = withLanded s n r := by
  unfold State.landOne
  simp only [he, hx, Bool.not_false, if_true]
  rfl

theorem landOne_traps {s : State} {n : CoreId} {r : InFlight} {q : SeatCause} (he : r.err = some q) :
    s.landOne n r = ((withoutLanding s n).raise n r.seat q.cause q.tval q.tpc q.issued).atClockEnd n := by
  unfold State.landOne
  simp only [he]
  rfl

/-- Settles O10: a result without a trap lands as its destination says, under its enables, and is logged where it comes from outside; one with a trap
leaves its cause in its seat. -/
theorem resultLands : Obligations.ResultLands := by
  intro s n r hs ha hp c hr
  have hu : c.unit.isSome = true := by
    simp only [State.advancing, Bool.and_eq_true] at ha
    exact ha.1.1.1.1
  have hrun : exec (.resultLand n) s = .next (s.landOne n r) := congrArg Host.Outcome.next (resultLand_eq hs ha hp hr)
  refine ⟨fun he => ?_, fun q he => ?_⟩
  · have hl := land_landed { c.ctx with inflight := c.ctx.inflight.erase r } r
    by_cases hx : r.ext = true
    · have hpu : (withoutLanding s n).playing n = false := by rw [State.playing, coreAt_withoutLanding hr]; exact hp
      have hc := coreAt_logEntry_value (s := withLanded s n r) (n := n) (r := r) (by rw [coreAt_withLanded hr]; exact hu)
      rw [coreAt_withLanded hr] at hc
      refine ⟨_, hrun.trans (by rw [landOne_outside he hx hpu]), oneCore_trans (oneCore_withLanded s n r) (oneCore_logEntry ..), ?_, ?_, ?_⟩ <;> rw [hc]
      · exact hl
      · simp only [hx, true_and]; rfl
    · have hx' : r.ext = false := by rw [← Bool.not_eq_true]; exact hx
      refine ⟨_, hrun.trans (by rw [landOne_inside he hx']), oneCore_withLanded s n r, ?_, ?_, ?_⟩ <;> rw [coreAt_withLanded hr]
      · exact hl
      · exact (if_neg fun h => hx h.1).symm
  · obtain ⟨tv, htv, hc⟩ := coreAt_raise_atClockEnd (withoutLanding s n) n r.seat q.cause q.tval q.tpc q.issued
    refine ⟨_, tv, hrun.trans (by rw [landOne_traps he]), oneCore_trans (oneCore_withoutLanding s n) (oneCore_raise_atClockEnd ..), htv, ?_⟩
    rw [hc, coreAt_withoutLanding hr]

end Sys2Proof
end

section
/-! PROOF. The checks that every word meets, and a word of a seat as its own rule issued under them. -/

namespace Sys2Proof

open Machine Spec
open Laws.DecodesBack (own_seat getLsbD_append_hi getLsbD_stroke)

/-! ## A word is its own rule, issued -/

/-- The stroke bit that a word carries is bit 31 of its encoding (R113). -/
theorem issue_eq_of_stroke {k : SeatId} {st : Bool} {i : Instr} {v : Verdict} {s : State} {w : Word} (he : encode i = some w) (hw : w.getLsbD 31 = st) :
    issue k st i v s = issue k (stroke i) i v s := by
  have : stroke i = st := by rw [stroke, he]; exact hw
  rw [this]

theorem exec_eq_issue_c {s : State} {i : Instr} (hi : i.seat = some (some .c)) :
    exec i s = issue .c (stroke i) i (wordVerdict .c i s) s := by
  cases i with
  | add | sub | mul | mulh | mulhu | div | divu | rem | and | or | xor | shl | shr | sar | min | max | slt | sltu | addi | andi | ori | xori | shli
  | shri | sari | slti | lui | beq | bne | blt | bge | bltu | bgeu | jmp | jal | jr | lset | spawn | park | exit | cncl | crd | sysr | sysw | trap
  | rft | time | scope =>
    refine issue_eq_of_stroke rfl ?_
    repeat rw [getLsbD_append_hi (by decide)]
    exact getLsbD_stroke
  | _ => cases hi

theorem exec_eq_issue_a {s : State} {i : Instr} (hi : i.seat = some (some .a)) :
    exec i s = issue .a (stroke i) i (wordVerdict .a i s) s := by
  cases i with
  | aadd | asub | amul | aand | aor | ashl | ashr | aaddi | alui | abeq | abne | ablt | abge | ajmp | ajr | ldb | ldbs | ldh | ldhs | ldw | ldws
  | ldd | stb | sth | stw | std | ldv | stv | qbind | qpat | qstop | qmc | amoadd | amomin | amomax | amoand | amoor | amoxor | amoswp | amocas
  | aset | afree | await | aread | acred | cpy | gath | scat | cpyr | chlnk | chkck | rgres | rgpub | rgpop | rgcur | waita =>
    refine issue_eq_of_stroke rfl ?_
    repeat rw [getLsbD_append_hi (by decide)]
    exact getLsbD_stroke
  | _ => cases hi

theorem exec_eq_issue_v {s : State} {i : Instr} (hi : i.seat = some (some .v)) :
    exec i s = issue .v (stroke i) i (wordVerdict .v i s) s := by
  cases i with
  | vadd | vsub | vmul | vfma | vfms | vscac | vmax | vmin | vabs | vneg | vrcp | vrsq | vexp2 | vlog2 | vcmpeq | vcmpne | vcmplt | vcmple | vsel
  | vand | vor | vxor | vshl | vshr | vsar | pand | por | pnot | pcnt | vcvt | vqnt | vdq | vrsum | vrmax | vperm | vbcast | vscan | vaddiF32
  | vmuliF32 | vmoviF32 | vaddiF16 | vmuliF16 | vmoviF16 | vaddiBF16 | vmuliBF16 | vmoviBF16 | vaddiI32 | vmoviI32 | vandi | vori | xadd | xsub
  | xmul | xli | xget | xput | vbz | vbnz | vjmp | vsweep | vjlim | vdist | vdph | vmov | vpack | vunpk | vsplt | vcat =>
    refine issue_eq_of_stroke rfl ?_
    repeat rw [getLsbD_append_hi (by decide)]
    exact getLsbD_stroke
  | _ => cases hi

theorem exec_eq_issue_m {s : State} {i : Instr} (hi : i.seat = some (some .m)) :
    exec i s = issue .m (stroke i) i (wordVerdict .m i s) s := by
  cases i with
  | mma | mmaj | mdrn | mzero | ftset | ftget | mpidx | madd | msub | mand | mor | mshl | mshr | mli | mlui | mbz | mbnz | mblt | mjmp | mjr =>
    refine issue_eq_of_stroke rfl ?_
    repeat rw [getLsbD_append_hi (by decide)]
    exact getLsbD_stroke
  | _ => cases hi

theorem exec_eq_issue_common {s : State} {i : Instr} (hi : i.seat = some none) :
    exec i s = issue s.turnSeat (stroke i) i (wordVerdict s.turnSeat i s) s := by
  cases i with
  | nop | mloop | tpost | twait | fset | fwait | brk | bndy =>
    refine issue_eq_of_stroke rfl ?_
    repeat rw [getLsbD_append_hi (by decide)]
    exact getLsbD_stroke
  | _ => cases hi


/-- A word that a seat fetches is its own rule's verdict, under the checks of issue. -/
theorem exec_eq_issue {s : State} {k : SeatId} {i : Instr} (hi : i.inSeat k) (hc : s.canIssue k = true) :
    exec i s = issue k (stroke i) i (wordVerdict k i s) s := by
  rcases hi with hi | hi
  · cases k with
    | c => exact exec_eq_issue_c hi
    | a => exact exec_eq_issue_a hi
    | v => exact exec_eq_issue_v hi
    | m => exact exec_eq_issue_m hi
  · have := exec_eq_issue_common (s := s) hi
    rwa [turnSeat_of_canIssue hc] at this

/-! ## Words that are undefined where they stand (R115, R155, R156, R350, R358) -/

/-- A handler register is no other handler's to read. -/
theorem sysRead_privilege {s : State} {u : UnitInfo} {i : Nat} (hu : (s.coreAt s.cur).unit = some u) (hs : ¬inSup s) (hlo : 256 ≤ i) (hhi : i ≤ 1023) :
    s.sysRead i = .error .privilege := by
  unfold State.sysRead
  simp only [hu]
  rw [if_neg (by omega), if_pos ⟨hlo, hhi⟩]
  cases hh : (s.coreAt s.cur).handler with
  | none => rfl
  | some h =>
    have : h.sup = false := by rw [← Bool.not_eq_true]; exact fun e => hs ⟨h, hh, e⟩
    simp only [this]; rfl

/-- SYSR is undefined at the numbers that name no register (R155). -/
theorem sysRead_undefined {s : State} {u : UnitInfo} (i : Nat) (hu : (s.coreAt s.cur).unit = some u) :
    s.sysRead i = .error .undefinedInstruction ↔ noSysr s i := by
  unfold noSysr
  by_cases h16 : i ≤ 16
  · unfold State.sysRead
    simp only [hu, if_pos h16]
    exact iff_of_false (by simp) (by omega)
  · by_cases hr : 256 ≤ i ∧ i ≤ 1023
    · by_cases hs : inSup s
      · obtain ⟨h, hh, hsup⟩ := id hs
        unfold State.sysRead
        simp only [hu, hh, hsup, if_neg h16, if_pos hr]
        by_cases h266 : 266 < i
        · simp [h266, hs]
        · exact iff_of_false (by simp [h266]) (by omega)
      · rw [sysRead_privilege hu hs hr.1 hr.2]
        exact iff_of_false (by simp) (by simp only [hs, and_false, or_false]; omega)
    · unfold State.sysRead
      simp only [hu, if_neg h16, if_neg hr]
      exact iff_of_true trivial (by omega)

theorem sysrV_isUndefined {s : State} {u : UnitInfo} (d : BitVec 5) (sys : BitVec 13) (hu : (s.coreAt s.cur).unit = some u) :
    (sysrV d sys s).isUndefined = true ↔ noSysr s sys.toNat := by
  rw [← sysRead_undefined _ hu]
  unfold sysrV
  cases s.sysRead sys.toNat with
  | ok v => simp [Verdict.isUndefined]
  | error q => cases q <;> simp [Verdict.isUndefined]

theorem syswV_privilege {s : State} {a : BitVec 5} {sys : BitVec 13} (hs : ¬inSup s) (hlo : 256 ≤ sys.toNat) (hhi : sys.toNat ≤ 1023) :
    syswV a sys s = .trap .privilege 0 := by
  unfold syswV
  dsimp only
  rw [if_neg (by omega), if_pos ⟨hlo, hhi⟩]
  cases hh : (s.coreAt s.cur).handler with
  | none => rfl
  | some h =>
    have : h.sup = false := by rw [← Bool.not_eq_true]; exact fun e => hs ⟨h, hh, e⟩
    simp only [this]; rfl

/-- SYSW is undefined at the numbers that may not be written, and at the reserved values of INVAL (R156, R358). -/
theorem syswV_isUndefined {s : State} (a : BitVec 5) (sys : BitVec 13) :
    (syswV a sys s).isUndefined = true ↔ noSysw s sys.toNat (s.rdC 0 a) := by
  unfold noSysw
  by_cases h12 : sys.toNat = 12
  · unfold syswV
    simp only [if_pos h12]
    exact iff_of_false (by simp [Verdict.isUndefined]) (by omega)
  · by_cases hr : 256 ≤ sys.toNat ∧ sys.toNat ≤ 1023
    · by_cases hs : inSup s
      · obtain ⟨h, hh, hsup⟩ := id hs
        unfold syswV
        simp only [hh, hsup, if_neg h12, if_pos hr, hs, true_and]
        rw [if_neg (by simp)]
        generalize sys.toNat = i at h12 hr ⊢
        split
        · exact iff_of_false (by simp [Verdict.isUndefined]) (by omega)
        · exact iff_of_false (by simp [Verdict.isUndefined]) (by omega)
        · split
          · rename_i h
            exact iff_of_true rfl (.inr (.inr (.inr (.inr (.inr (.inr (.inr ⟨rfl, h⟩)))))))
          · rename_i h
            exact iff_of_false (by simp [Verdict.isUndefined]) (by simp only [h, and_false, or_false]; omega)
        · exact iff_of_false (by simp [Verdict.isUndefined]) (by omega)
        · exact iff_of_false (by split <;> simp [Verdict.isUndefined]) (by omega)
        · exact iff_of_false (by split <;> simp [Verdict.isUndefined]) (by omega)
        · have hi : i = 256 ∨ i = 257 ∨ i = 260 ∨ i = 261 ∨ 266 ≤ i := by simp only [imp_false] at *; omega
          exact iff_of_true rfl (.inr (.inr (hi.imp id (Or.imp id (Or.imp id (Or.imp id .inl))))))
      · rw [syswV_privilege hs hr.1 hr.2]
        exact iff_of_false (by simp [Verdict.isUndefined]) (by simp only [hs, false_and, or_false]; omega)
    · unfold syswV
      simp only [if_neg h12, if_neg hr]
      exact iff_of_true rfl (by omega)

theorem spawnV_isUndefined {s : State} {u : UnitInfo} (a : BitVec 5) (hu : (s.coreAt s.cur).unit = some u) :
    (spawnV a s).isUndefined = true ↔ (s.coreAt s.cur).handler.isSome = true := by
  unfold spawnV
  simp only [hu]
  cases (s.coreAt s.cur).handler with
  | none => simp only; split <;> simp [Verdict.isUndefined]
  | some h => simp [Verdict.isUndefined]

theorem parkV_isUndefined {s : State} {u : UnitInfo} (a b : BitVec 5) (fn : BitVec 1) (hu : (s.coreAt s.cur).unit = some u) :
    (parkV a b fn s).isUndefined = true ↔ (s.coreAt s.cur).handler.isSome = true := by
  unfold parkV
  simp only [hu]
  cases (s.coreAt s.cur).handler with
  | none =>
    simp only
    split
    · simp [Verdict.isUndefined]
    · split <;> simp [Verdict.isUndefined]
  | some h => simp [Verdict.isUndefined]

theorem lsetV_defined (d a : BitVec 5) (imm : BitVec 13) (s : State) : (lsetV d a imm s).isUndefined = false := by
  unfold lsetV; dsimp only; (repeat' split) <;> rfl

theorem exitV_defined (s : State) : (exitV s).isUndefined = false := by
  unfold exitV; dsimp only; (repeat' split) <;> rfl

theorem crdV_defined (d a b : BitVec 5) (fn : BitVec 3) (s : State) : (crdV d a b fn s).isUndefined = false := by
  unfold crdV; split <;> rfl

theorem rftV_defined (s : State) : (rftV s).isUndefined = false := by
  unfold rftV; dsimp only; (repeat' split) <;> rfl

theorem vFwait_defined (f : BitVec 3) (v : BitVec 1) (s : State) : (vFwait f v s).isUndefined = false := by
  unfold vFwait; split <;> rfl

theorem brkV_defined (c : BitVec 8) (s : State) : (brkV c s).isUndefined = false := by
  unfold brkV; split <;> rfl

theorem bndyV_defined (st : Bool) (k : SeatId) (s : State) : (bndyV st k s).isUndefined = false := by
  unfold bndyV; dsimp only; (repeat' split) <;> rfl

theorem mloopV_defined {st : Bool} {k : SeatId} {l : BitVec 3} {n : BitVec 6} {stg ms : BitVec 3} {s : State} (h : stg.toNat ≤ ms.toNat) :
    (mloopV st k l n stg ms s).isUndefined = false := by
  unfold mloopV
  dsimp only
  rw [if_neg (Nat.not_lt.mpr h)]
  (repeat' split) <;> rfl

theorem tpostV_defined {x : BitVec 4} {n : BitVec 8} {s : State} (h : n ≠ 0) : (tpostV x n s).isUndefined = false := by
  rw [tpostV_eq h]; split <;> rfl

theorem twaitV_defined {x : BitVec 4} {n : BitVec 8} {s : State} (h : n ≠ 0) : (twaitV x n s).isUndefined = false := by
  unfold twaitV; dsimp only; rw [if_neg h]; split <;> rfl

/-- A word of C with defined fields is undefined exactly where `undefinedHere` says. -/
theorem wordVerdict_isUndefined {s : State} {u : UnitInfo} {i : Instr} (hu : (s.coreAt s.cur).unit = some u) (hi : i.inSeat .c) (hw : i.wf = true) :
    (wordVerdict .c i s).isUndefined = true ↔ undefinedHere s i := by
  have no : ∀ {v : Verdict}, v.isUndefined = false → (v.isUndefined = true ↔ False) := fun h => by rw [h]; simp
  cases i with
  | add | sub | mul | mulh | mulhu | div | divu | rem | and | or | xor | shl | shr | sar | min | max | slt | sltu | addi | andi | ori | xori | shli
  | shri | sari | slti | lui | beq | bne | blt | bge | bltu | bgeu | jmp | jal | jr | cncl | time | scope => exact no rfl
  | sysr _ d sys => exact sysrV_isUndefined d sys hu
  | sysw _ a sys => exact syswV_isUndefined a sys
  | spawn _ a => exact spawnV_isUndefined a hu
  | park _ a b fn => exact parkV_isUndefined a b fn hu
  | lset _ d a imm => exact no (lsetV_defined d a imm s)
  | exit => exact no (exitV_defined s)
  | crd _ d a b fn => exact no (crdV_defined d a b fn s)
  | trap => exact no rfl
  | rft => exact no (rftV_defined s)
  | nop | fset => exact no rfl
  | fwait _ f v => exact no (vFwait_defined f v s)
  | brk _ c => exact no (brkV_defined c s)
  | bndy st => exact no (bndyV_defined st .c s)
  | mloop st l n stg ms => exact no (mloopV_defined (k := .c) (by simpa [Instr.wf] using hw))
  | tpost _ x n => exact no (tpostV_defined (by simpa [Instr.wf] using hw))
  | twait _ x n => exact no (twaitV_defined (by simpa [Instr.wf] using hw))
  | _ => rcases hi with hi | hi <;> cases hi

/-- No other word is undefined where it stands. -/
theorem not_undefinedHere_of_seat {s : State} {i : Instr} (h : i.seat ≠ some (some .c)) : ¬undefinedHere s i := by
  intro hu
  cases i with
  | sysr | sysw | spawn | park => exact h rfl
  | _ => exact hu

/-! ## The checks (R35, R37, R39, R115, R116, R350) -/

theorem unit_of_canIssue {s : State} {k : SeatId} (h : s.canIssue k = true) : ∃ u, (s.coreAt s.cur).unit = some u := by
  simp only [State.canIssue, State.advancing, Bool.and_eq_true] at h
  exact Option.isSome_iff_exists.mp h.1.1.1.1.1.1.1.1.1.1.1

/-- Seat k has no partner for a stroked word: a handler runs, or no other seat is active (R37, R350). -/
def Alone (s : State) (k : SeatId) : Prop := (s.coreAt s.cur).handler.isSome = true ∨ (here s).actives = [k]

/-- A stroked word waits for its partners. -/
theorem precheck_wait {s : State} {k : SeatId} {st : Bool} {i : Instr} (hst : st = true) (hb : ((here s).seat k).body = none) (ha : ¬Alone s k) :
    s.precheck k st i false = .wait := by
  obtain ⟨hh, hact⟩ : _ ∧ (s.coreAt s.cur).ctx.actives ≠ [k] := not_or.mp ha
  have hh' : (s.coreAt s.cur).handler.isNone = true := by simpa using hh
  unfold State.precheck
  exact if_pos (by simpa [hst, hh', show ((s.coreAt s.cur).ctx.seat k).body = none from hb] using hact)

/-- The checks of a word that does not wait, in their order. -/
theorem precheck_eq {s : State} {k : SeatId} {st : Bool} {i : Instr} (h : ¬(st = true ∧ ((here s).seat k).body = none ∧ ¬Alone s k)) :
    s.precheck k st i false = if !i.wf then .trap .undefinedInstruction
      else if decide (((here s).seat k).dslots ≠ 0) && (st || isTransfer i) then .trap .delaySlotWord
      else match ((here s).seat k).body with
        | some _ => if isTransfer i then .trap .loopBody else .ok
        | none => if !st then .ok else .trap .strokeWithoutCrew := by
  unfold State.precheck
  refine (if_neg fun hc => h ?_).trans ?_
  · simp only [Bool.and_eq_true, Option.isNone_iff_eq_none, decide_eq_true_eq] at hc
    obtain ⟨⟨⟨⟨hst, -⟩, hb⟩, hh⟩, hact⟩ := hc
    exact ⟨hst, hb, not_or.mpr ⟨by rw [hh]; simp, hact⟩⟩
  · simp only [Bool.or_false]
    rfl

theorem Trapped.of_unstated {k : SeatId} {q : Cause} {tv tv' : Dw} {s t : State} (h : Trapped k q tv s t) (hq : q.tvalStated = false) :
    Trapped k q tv' s t := by
  obtain ⟨x, hx, -⟩ := h.seat
  exact { h with seat := ⟨x, hx, fun e => absurd (hq.symm.trans e) Bool.false_ne_true⟩ }

/-- The state of a word that traps as it is told to. -/
theorem settle_trap {s : State} {k : SeatId} {q : Cause} {tv : Dw} : Trapped k q tv s (s.settle k (.trap q tv)).passTurn := raise_trapped s k q tv

theorem isUndefined_eq_trap {v : Verdict} (h : v.isUndefined = true) : ∃ tv, v = .trap .undefinedInstruction tv := by
  cases v with
  | trap q tv =>
    cases q with
    | undefinedInstruction => exact ⟨tv, rfl⟩
    | _ => cases h
  | _ => cases h

/-- An undefined word that does not wait traps so: before its own rule, or by it on C, where it comes before what the checks find. -/
theorem issue_undefined {s : State} {k : SeatId} {st : Bool} {i : Instr} {v : Verdict} (hc : s.canIssue k = true) (hp : s.precheck k st i false ≠ .wait)
    (h : (k = .c ∧ v.isUndefined = true) ∨ s.precheck k st i false = .trap .undefinedInstruction) :
    ∃ u, issue k st i v s = .next u ∧ Trapped k .undefinedInstruction 0 s u := by
  have key : ∀ tv, Trapped k .undefinedInstruction 0 s (s.settle k (.trap .undefinedInstruction tv)).passTurn := fun tv => settle_trap.of_unstated rfl
  unfold issue
  rw [if_pos hc]
  by_cases hv : k = .c ∧ v.isUndefined = true
  · obtain ⟨tv, rfl⟩ := isUndefined_eq_trap hv.2
    cases hq : s.precheck k st i false with
    | wait => exact absurd hq hp
    | ok => exact ⟨_, rfl, key tv⟩
    | trap q => exact ⟨_, rfl, by rw [if_pos (by rw [hv.1]; rfl)]; exact key tv⟩
  · rw [h.resolve_left hv]
    exact ⟨_, rfl, by rw [if_neg (by simpa using hv)]; exact key 0⟩

/-- Settles O5: each clause is one outcome of the checks in their order; on C an undefined word is told apart from a defined one by its own rule. -/
theorem wordChecks : Obligations.WordChecks := by
  intro s k i hi hc t alone waits defined
  obtain ⟨u, hu⟩ := unit_of_canIssue hc
  have hx := exec_eq_issue hi hc
  have hdef : defined → (decide (k = .c) && (wordVerdict k i s).isUndefined) = false := by
    rintro ⟨hw, hn⟩
    by_cases hk : k = .c
    · subst hk
      rw [← Bool.not_eq_true, Bool.and_eq_true, wordVerdict_isUndefined hu hi hw]
      exact fun h => hn h.2
    · rw [decide_eq_false hk, Bool.false_and]
  have turned : ∀ {q}, defined → s.precheck k (stroke i) i false = .trap q → ∃ u, exec i s = .next u ∧ Trapped k q 0 s u := fun hd hp => by
    rw [hx]; exact issue_turned hc (hdef hd) hp
  refine ⟨fun hd hw => ?_, fun hw => ?_, fun hd hw hs hst => ?_, fun hd hs hb htr => ?_, fun hd hs hb hst ha => ?_⟩
  · have hp := precheck_eq (i := i) hw
    rw [hx]
    refine issue_undefined hc ?_ ?_
    · rw [hp]; (repeat' split) <;> simp
    · by_cases hwf : i.wf = true
      · have hu' : undefinedHere s i := by_contra fun h => hd ⟨hwf, h⟩
        have hseat : i.seat = some (some .c) := by_contra fun h => not_undefinedHere_of_seat h hu'
        obtain rfl := own_seat hseat hi
        exact .inl ⟨rfl, (wordVerdict_isUndefined hu hi hwf).mpr hu'⟩
      · exact .inr (hp.trans (if_pos (by simpa using hwf)))
  · rw [hx]
    unfold issue
    rw [if_pos hc, precheck_wait hw.1 hw.2.1 hw.2.2]
  · refine turned hd ((precheck_eq hw).trans ((if_neg (by simp [hd.1])).trans (if_pos ?_)))
    have hs' : ((here s).seat k).dslots ≠ 0 := hs
    simp only [Bool.and_eq_true, Bool.or_eq_true, decide_eq_true_eq]
    exact ⟨hs', hst⟩
  · obtain ⟨lp, hlp⟩ := Option.isSome_iff_exists.mp hb
    have hlp' : ((here s).seat k).body = some lp := hlp
    have hs' : ((here s).seat k).dslots = 0 := hs
    refine turned hd ((precheck_eq fun h => by rw [hlp'] at h; cases h.2.1).trans ?_)
    simp [hd.1, hs', hlp', htr]
  · have hs' : ((here s).seat k).dslots = 0 := hs
    have hb' : ((here s).seat k).body = none := hb
    refine turned hd ((precheck_eq fun h => h.2.2 ha).trans ?_)
    simp [hd.1, hs', hb', hst]

end Sys2Proof
end

section
/-! PROOF. MLOOP, and the words of a kernel step outside the iterations of a seat. -/

namespace Sys2Proof

open Machine Spec

/-! ## The register of a loop (R38, R39) -/

/-- A loop that MLOOP is no partner of runs on the register: another seat's, or the C seat's own that a handler's frame keeps. -/
def Busy (s : State) (k : SeatId) (l : BitVec 3) : Prop :=
  (∃ j lp, j ≠ k ∧ ((here s).seat j).body = some lp ∧ lp.reg = l) ∨
    ∃ h lp, (s.coreAt s.cur).handler = some h ∧ (h.saved.seat .c).body = some lp ∧ lp.reg = l

theorem loopTaken_iff (s : State) (k : SeatId) (l : BitVec 3) : s.loopTaken false k l = true ↔ Busy s k l := by
  have hseat : ∀ j, (decide (j ≠ k) && (match ((s.coreAt s.cur).ctx.seat j).body with
      | some lp => decide (lp.reg = l) && !(false && lp.group && decide (lp.step = 0) && decide (lp.pos = 0) &&
          decide ((s.coreAt s.cur).moved &&& seatBit j ≠ 0))
      | none => false)) = true ↔ ∃ lp, j ≠ k ∧ ((here s).seat j).body = some lp ∧ lp.reg = l := fun j => by
    unfold here
    cases ((s.coreAt s.cur).ctx.seat j).body <;> simp
  have hframe : (match (s.coreAt s.cur).handler with
      | some h => (match (h.saved.seat .c).body with | some lp => decide (lp.reg = l) | none => false)
      | none => false) = true ↔ ∃ h lp, (s.coreAt s.cur).handler = some h ∧ (h.saved.seat .c).body = some lp ∧ lp.reg = l := by
    cases (s.coreAt s.cur).handler with
    | none => simp
    | some h => cases hb : (h.saved.seat .c).body <;> simp [hb]
  have hall : ∀ j : SeatId, j ∈ [SeatId.c, .a, .v, .m] := fun j => by cases j <;> simp
  unfold State.loopTaken Busy
  simp only [List.any_eq_true, Bool.or_eq_true]
  constructor
  · rintro ⟨j, -, h | h⟩
    · exact .inl ⟨j, (hseat j).mp h⟩
    · exact .inr (hframe.mp h)
  · rintro (⟨j, h⟩ | h)
    · exact ⟨j, hall j, .inl ((hseat j).mpr h)⟩
    · exact ⟨.c, hall .c, .inr (hframe.mpr h)⟩

/-- A stroked MLOOP outside a handler finds its register free where no other seat runs a loop on it. -/
theorem loopTaken_of_free {s : State} {st : Bool} {k : SeatId} {l : BitVec 3} (hh : (s.coreAt s.cur).handler = none)
    (h : ∀ j lp, j ≠ k → ((here s).seat j).body = some lp → lp.reg ≠ l) : s.loopTaken st k l = false := by
  unfold State.loopTaken
  rw [List.any_eq_false]
  intro j _
  simp only [hh, Bool.or_false, Bool.and_eq_true, decide_eq_true_eq, not_and]
  intro hj
  cases hb : ((s.coreAt s.cur).ctx.seat j).body with
  | none => simp
  | some lp => simp [h j lp hj hb]

/-! ## What MLOOP does (R39, R40, R42) -/

/-- The loop that an MLOOP enters at kernel step 0 (R39, R40). -/
def enteredLoop (s : State) (st : Bool) (k : SeatId) (l : BitVec 3) (n : BitVec 6) (stg ms : BitVec 3) : Loop :=
  { reg := l, len := n.toNat + 1, stage := stg.toNat, ms := ms.toNat, head := ((here s).seat k).pc, trip := ((here s).l.get l.toFin).toNat % 2 ^ 32,
    step := 0, pos := 0, b0 := ((here s).seat k).rb, base := 0, group := st, lsq := false, lepi := false, lmid := false, i0 := 0, dith := false }

theorem mloopV_urgent {s : State} {st : Bool} {k : SeatId} {l : BitVec 3} {n : BitVec 6} {stg ms : BitVec 3} (hms : stg.toNat ≤ ms.toNat)
    (hu : (s.coreAt s.cur).urgent = true) : mloopV st k l n stg ms s = .stall s :=
  (if_neg (Nat.not_lt.mpr hms)).trans (if_pos hu)

theorem mloopV_again {s : State} {st : Bool} {k : SeatId} {l : BitVec 3} {n : BitVec 6} {stg ms : BitVec 3} {lp : Loop} (hms : stg.toNat ≤ ms.toNat)
    (hu : (s.coreAt s.cur).urgent = false) (hl : ((here s).seat k).loop = some lp) : mloopV st k l n stg ms s =
      .go (s.modSeatOf k fun t => { t with rb := if k = .a ∨ k = .v then lp.b0 + BitVec.ofNat 3 lp.i0 else t.rb })
        (.loop { lp with lepi := false, lmid := false, lsq := false, base := lp.i0, step := 0, pos := 0 }) := by
  have hl' : ((s.coreAt s.cur).ctx.seat k).loop = some lp := hl
  unfold mloopV
  dsimp only
  rw [if_neg (Nat.not_lt.mpr hms), if_neg (by rw [hu]; exact Bool.false_ne_true), hl']

/-- An MLOOP at which the seat is in no loop. -/
theorem mloopV_new {s : State} {st : Bool} {k : SeatId} {l : BitVec 3} {n : BitVec 6} {stg ms : BitVec 3} (hms : stg.toNat ≤ ms.toNat)
    (hu : (s.coreAt s.cur).urgent = false) (hl : ((here s).seat k).loop = none) : mloopV st k l n stg ms s =
      if s.loopTaken st k l then .trap .loopBusy 0
      else if ((here s).l.get l.toFin).toNat % 2 ^ 32 = 0 then .go s (.skip (((here s).seat k).pc + 4 * BitVec.ofNat 64 (n.toNat + 2)))
      else .go s (.loop (enteredLoop s st k l n stg ms)) := by
  have hl' : ((s.coreAt s.cur).ctx.seat k).loop = none := hl
  unfold mloopV
  dsimp only
  rw [if_neg (Nat.not_lt.mpr hms), if_neg (by rw [hu]; exact Bool.false_ne_true), hl']
  simp only [State.rdL, BitVec.toNat_setWidth]
  rfl

theorem exec_mloop {s : State} {k : SeatId} (st : Bool) (l : BitVec 3) (n : BitVec 6) (stg ms : BitVec 3) (hc : s.canIssue k = true) :
    exec (.mloop st l n stg ms) s = issue k st (.mloop st l n stg ms) (mloopV st k l n stg ms s) s := by
  have h : exec (.mloop st l n stg ms) s = issue s.turnSeat st (.mloop st l n stg ms) (mloopV st s.turnSeat l n stg ms s) s := rfl
  rw [h, turnSeat_of_canIssue hc]

/-- The word behind a body of n + 1 words and its MLOOP. -/
theorem behindBody (pc : Dw) (n : Nat) : pc + 4 * BitVec.ofNat 64 (n + 2) = wrap (pc.toNat + 4 * ((n : Int) + 2)) := by
  unfold wrap
  rw [show ((n : Int) + 2) = ((n + 2 : Nat) : Int) from rfl, BitVec.ofInt_add, BitVec.ofInt_mul, BitVec.ofInt_natCast, BitVec.ofInt_natCast, BitVec.ofNat_toNat,
    BitVec.setWidth_eq]
  rfl

/-- The cause that the checks find in a stroked MLOOP that does not wait. -/
theorem precheck_strokedMloop {s : State} {k : SeatId} {l : BitVec 3} {n : BitVec 6} {stg ms : BitVec 3} (hms : stg.toNat ≤ ms.toNat)
    (h : ((here s).seat k).body.isSome = true ∨ Alone s k) : s.precheck k true (.mloop true l n stg ms) false =
      .trap (if ((here s).seat k).dslots ≠ 0 then .delaySlotWord else if ((here s).seat k).body.isSome = true then .loopBody else .strokeWithoutCrew) := by
  have hw : (Instr.mloop true l n stg ms).wf = true := by simpa [Instr.wf] using hms
  have htr : isTransfer (.mloop true l n stg ms) = true := rfl
  rw [precheck_eq fun hc => h.elim (fun hb => by rw [hc.2.1] at hb; cases hb) hc.2.2, hw, htr]
  by_cases hs : ((here s).seat k).dslots = 0
  · cases hb : ((here s).seat k).body <;> simp [hs]
  · rw [if_pos hs]
    simp only [Bool.not_true, Bool.false_eq_true, if_false, decide_eq_true hs, Bool.or_true, Bool.and_true, if_true]

/-! ## A partner's MLOOP (R37, R39) -/

/-- A stroked word at the head of a partner, which no check turns away, does what its own rule says. -/
theorem partnerV_eq_word {s : State} {k : SeatId} {i : Instr} (hw : s.nextWord s.cur k = .word i) (hs : (s.coreAt s.cur).seatWaits k = false)
    (hp : s.precheck k true i true = .ok) : s.partnerV k = wordVerdict k i s := by
  unfold State.partnerV
  rw [hs, if_neg Bool.false_ne_true, hw]
  simp only [hp]

/-- At a rendezvous an MLOOP outside a body and a delay slot passes the checks. -/
theorem precheck_metMloop {s : State} {k : SeatId} {l : BitVec 3} {n : BitVec 6} {stg ms : BitVec 3} (hms : stg.toNat ≤ ms.toNat)
    (hd : ((here s).seat k).dslots = 0) (hl : ((here s).seat k).loop = none) : s.precheck k true (.mloop true l n stg ms) true = .ok := by
  have hw : (Instr.mloop true l n stg ms).wf = true := by simpa [Instr.wf] using hms
  have hb : ((s.coreAt s.cur).ctx.seat k).body = none := by
    have : ((s.coreAt s.cur).ctx.seat k).loop = none := hl
    simp only [Seat.body, this]
  have hd' : ((s.coreAt s.cur).ctx.seat k).dslots = 0 := hd
  unfold State.precheck
  simp [hw, hb, hd']

/-! ## A squashed word (R40) -/

/-- The turn of a seat in a kernel step outside its iterations squashes the word. -/
theorem seatTurn_squash {s : State} {k : SeatId} {lp : Loop} (h : turnOf s k) (hc : s.canIssue k = true) (hb : ((here s).seat k).body = some lp)
    (hi : lp.issues = false) : s.seatTurn k = .next (s.squash k).passTurn := by
  have hstep : s.seatStep k = .squash := by
    have hb' : ((s.coreAt s.cur).ctx.seat k).body = some lp := hb
    unfold State.seatStep
    simp [hc, hb', hi]
  have hdue : (if k = .c then s.dueStart else none) = none := by
    by_cases hk : k = .c
    · rw [if_pos hk, (h.2 hk).2]
    · rw [if_neg hk]
  unfold State.seatTurn
  rw [hdue, hstep]
  rfl

/-- A seat moved past a word: what `pass_past` says, without the note that it has moved and the turn passed on. -/
theorem pass_moves (s : State) (k : SeatId) : (∀ m, m ≠ s.cur → (s.pass k .seq).coreAt m = s.coreAt m) ∧
    RegsKept (here s) ((s.pass k .seq).coreAt s.cur).ctx ∧ ToNext k ((here s).seat k) (((s.pass k .seq).coreAt s.cur).ctx.seat k) ∧
    (∀ j, j ≠ k → ((s.pass k .seq).coreAt s.cur).ctx.seat j = (here s).seat j) ∧ PackageKept s (s.pass k .seq) := by
  have h := pass_past s k .seq ToNext (advance_seq ..)
  have hc : (((s.pass k .seq).modCore s.cur fun c => { c with moved := c.moved ||| seatBit k }).passTurn.coreAt s.cur).ctx =
      ((s.pass k .seq).coreAt s.cur).ctx := by simp
  refine ⟨fun m hm => ?_, hc ▸ h.regs, hc ▸ h.seat, fun j hj => hc ▸ h.seats j hj, ?_⟩
  · simpa [hm] using h.cores m hm
  · obtain ⟨mem, bow, stern, poison, slots, parked, parts, shared, links, reconf, isolate, source, cur, inputs, nextId⟩ := h.package
    exact ⟨mem, bow, stern, poison, slots, parked, parts, shared, links, reconf, isolate, source, cur, inputs, nextId⟩

/-- A squashed word moves its seat, is counted, and leaves a mark of the clock. -/
theorem squash_moves (s : State) (k : SeatId) : (∀ m, m ≠ s.cur → (s.squash k).coreAt m = s.coreAt m) ∧
    RegsKept (here s) ((s.squash k).coreAt s.cur).ctx ∧ ToNext k ((here s).seat k) (((s.squash k).coreAt s.cur).ctx.seat k) ∧
    (∀ j, j ≠ k → ((s.squash k).coreAt s.cur).ctx.seat j = (here s).seat j) ∧ PackageKept s (s.squash k) := by
  obtain ⟨hcores, hregs, hseat, hseats, hpkg⟩ := pass_moves s k
  have hcount := count_counted (s.pass k .seq) s.cur 18 1
  have hcur : (s.pass k .seq).cur = s.cur := hpkg.cur
  have heq : s.squash k = ((s.pass k .seq).count s.cur 18 1).modCore s.cur fun c => { c with why := c.why ++ [110 + k.toNat] } := by
    unfold State.squash State.why
    rw [hcount.package.cur, hcur]
  have hctx : ((s.squash k).coreAt s.cur).ctx = ((s.pass k .seq).coreAt s.cur).ctx := by
    rw [heq, State.coreAt_modCore]; exact hcount.same.1
  refine ⟨fun m hm => ?_, hctx ▸ hregs, hctx ▸ hseat, fun j hj => hctx ▸ hseats j hj, ?_⟩
  · rw [heq, State.coreAt_modCore_ne _ _ _ _ hm, hcount.cores m hm, hcores m hm]
  · rw [heq]; exact (hpkg.trans hcount.package).trans (.modCore ..)

/-- Settles O38: MLOOP's verdict case by case, the checks before a stroked one, and the move of a squashed word. -/
theorem loopWords : Obligations.LoopWords := by
  refine ⟨?_, ?_, ?_, ?_, ?_, ?_⟩
  · intro s k l n stg ms hi hms hu hl trip busy
    have hx := exec_mloop false l n stg ms hi.1
    have hv := mloopV_new (st := false) (k := k) (l := l) (n := n) hms hu hl
    have htaken := loopTaken_iff s k l
    refine ⟨fun hb => exec_trap hi hx (hv.trans (if_pos (htaken.mpr hb))), fun hb ht => ?_, fun hb ht => ?_⟩
    · have hgo := hv.trans ((if_neg (htaken.not.mpr hb)).trans (if_pos ht))
      rw [hx, hgo, behindBody]
      exact issue_skip hi
    · have hgo := hv.trans ((if_neg (htaken.not.mpr hb)).trans (if_neg ht))
      obtain ⟨t, hst, hpast⟩ := issue_loop (u := s) (lp := enteredLoop s false k l n stg ms) hi
      exact ⟨_, t, by rw [hx, hgo]; exact hst, hpast, rfl, rfl, rfl, rfl, rfl, rfl, rfl, rfl, rfl, rfl, rfl, rfl⟩
  · intro s k l n stg ms hi hms hu
    exact exec_stall hi (exec_mloop false l n stg ms hi.1) (mloopV_urgent hms hu)
  · intro s k l n stg ms lp hi hms hu hl
    rw [exec_mloop false l n stg ms hi.1, mloopV_again hms hu hl]
    have hb0 : lp.b0 + BitVec.ofNat 3 lp.i0 = BitVec.ofNat 3 (lp.b0.toNat + lp.i0) := by
      rw [BitVec.ofNat_add, BitVec.ofNat_toNat, BitVec.setWidth_eq]
    rw [hb0]
    exact issue_loop hi
  · intro s k l n stg ms hc hms bad
    refine ⟨fun hb hh ha => ⟨_, ?_, rfl⟩, fun hb => ?_⟩
    · rw [exec_mloop true l n stg ms hc]
      unfold issue
      rw [if_pos hc, precheck_wait rfl hb (not_or.mpr ⟨by rw [hh]; simp, ha⟩)]
    · have hp := precheck_strokedMloop (l := l) (n := n) hms (hb.imp id id)
      obtain ⟨t, ht, htr⟩ := issue_turned (v := mloopV true k l n stg ms s) hc (by rw [mloopV_defined hms, Bool.and_false]) hp
      refine ⟨t, _, ?_, (exec_mloop true l n stg ms hc).trans ht, htr⟩
      unfold bad
      (repeat' split) <;> rfl
  · intro s k l n stg ms hw hms hs hd hl hu hh hfree trip ht
    have hv : s.partnerV k = .go s (.loop (enteredLoop s true k l n stg ms)) := by
      rw [partnerV_eq_word hw hs (precheck_metMloop hms hd hl)]
      exact (mloopV_new hms hu hl).trans ((if_neg (by rw [loopTaken_of_free hh hfree]; exact Bool.false_ne_true)).trans (if_neg ht))
    refine ⟨enteredLoop s true k l n stg ms, ?_, rfl, rfl, rfl, rfl, rfl, rfl, rfl, rfl, rfl, rfl, rfl⟩
    rw [hv]
    exact pass_past s k _ _ (advance_loop ..)
  · intro s k lp hturn hdue hc hb hi
    obtain ⟨hcores, hregs, hseat, hseats, hpkg⟩ := squash_moves s k
    exact ⟨_, (step_eq_seatTurn ⟨hturn, hdue⟩).trans (seatTurn_squash ⟨hturn, hdue⟩ hc hb hi), hcores, hregs, hseat, hseats,
      hpkg.trans (.passTurn _)⟩

end Sys2Proof
end

section
/-! PROOF. A rendezvous in which a partner's AWAIT waits: its slot counts it, which wakes a WAITA of another core. -/

namespace Sys2Proof

open Machine Spec

/-- AWAIT with a stroke: it waits for phase 0 of the slot at a1; it is no word of the C seat. -/
def meetWord : Word := (encode (.await true 0 1 0 0 0)).getD 0

/-- A slot of phase 0 in core 0's scratchpad, which nobody waits at. -/
def meetSlot : Slot :=
  { pa := padBase 0 + 0x1000, expect := 1, arrived := 0, waiters := [], region := 0, tag := 0, kind := 0, phase := false, arg := 0, closed := false,
    ovr := false, base := 0, len64 := 0, late := 0, dline := 0, die := .bow, ctx := 0, part := 0, poisoned := false, wlog := [] }

/-- A seat at the start of its section. -/
def meetSeat : Seat := { Seat.reset with pc := BitVec.ofNat 64 localBase, act := true }

/-- Core 0 with its C and A seats at the stroked word, a1 the slot's address; core 1 has a WAITA of the slot's line. -/
def meetState : State :=
  let s := (State.reset.placeWord meetWord).modCtx 0 fun x =>
    { x with seats := ((Vector.replicate 4 Seat.reset).set 0 meetSeat).set 1 meetSeat, a := x.a.set 1 (BitVec.ofNat 64 (localBase + 0x1000)) }
  { s.modCtx 1 fun x => { x with await := some (.line 0 meetSlot.pa false) } with slots := [meetSlot], turn := .seat .c }

/-- The slot counts core 0 among its waiters. -/
def meetRegistered : State := meetState.modSlot meetSlot.pa fun u => { u with waiters := u.waiters ++ [.await 0] }

/-- The state in which the AWAIT waits. -/
def meetWaiting : State := (meetRegistered.why 17).modCtx meetRegistered.cur fun x => { x with await := some (.await meetSlot.pa false false none) }

set_option maxRecDepth 20000 in
/-- The rendezvous is due in that state. -/
theorem meetState_due : meetState.atStart 0 = true ∧ meetState.meetDue = true ∧ meetState.partners = [.c, .a] := ⟨rfl, rfl, rfl⟩

set_option maxRecDepth 20000 in
/-- The word is undefined in the C seat; in the A seat it registers at the slot and waits. -/
theorem meetState_verdicts : meetState.partnerV .c = .trap .undefinedInstruction 0 ∧ meetState.partnerV .a = .stall meetWaiting := ⟨rfl, rfl⟩

/-- The slot's layout holds the number of its waiters, so the registration changes its line. -/
theorem meetSlot_counts : meetSlot.image ≠ { meetSlot with waiters := meetSlot.waiters ++ [Waiter.await 0] }.image := by decide

set_option maxRecDepth 20000 in
theorem meetState_slot : meetState.slot? meetSlot.pa = some meetSlot ∧ (meetState.coreAt 1).ctx.await = some (.line 0 meetSlot.pa false) := ⟨rfl, rfl⟩

/-- The registration wakes the WAITA of core 1. -/
theorem meetRegistered_wakes : (meetRegistered.coreAt 1).ctx.await = some (.line 0 meetSlot.pa true) := by
  obtain ⟨hslot, hawait⟩ := meetState_slot
  have hhit : overlaps meetSlot.pa 16 meetSlot.pa 64 = true := by decide
  unfold meetRegistered State.modSlot
  rw [hslot]
  dsimp only
  rw [if_pos (decide_eq_true meetSlot_counts), wakeLine_coreAt]
  show wokenAwait meetSlot.pa 16 (meetState.coreAt 1).ctx.await = _
  rw [hawait, wokenAwait, hhit, Bool.or_true]

theorem waitStroke_cores (l : List SeatId) (s : State) : (s.waitStroke l).cur = s.cur ∧ ∀ m, m ≠ s.cur → (s.waitStroke l).coreAt m = s.coreAt m := by
  unfold State.waitStroke
  induction l generalizing s with
  | nil => exact ⟨rfl, fun _ _ => rfl⟩
  | cons k l ih => exact ⟨(ih _).1, fun m hm => ((ih (s.modCtx s.cur _)).2 m hm).trans (State.coreAt_modCtx_ne _ _ _ _ hm)⟩

/-- The AWAIT that waits holds both seats: its state stands. -/
theorem meetState_rendezvous : meetState.rendezvous = (meetWaiting.waitStroke [.c, .a]).skipSeats [.c, .a] := by
  obtain ⟨-, -, hpart⟩ := meetState_due
  obtain ⟨hc, ha⟩ := meetState_verdicts
  unfold State.rendezvous
  simp only [hpart, List.findSome?, hc, ha]

set_option maxRecDepth 20000 in
theorem meetWaiting_cur : meetWaiting.cur = 0 := rfl

/-- In the state after the rendezvous core 1 has been woken. -/
theorem meetState_wakes : (meetState.rendezvous.coreAt 1).ctx.await = some (.line 0 meetSlot.pa true) := by
  obtain ⟨hcur, hstand⟩ := waitStroke_cores [.c, .a] meetWaiting
  have hreg : meetRegistered.cur = 0 := meetWaiting_cur
  have hne : (1 : CoreId) ≠ 0 := by decide
  have h1 : meetState.rendezvous.coreAt 1 = meetWaiting.coreAt 1 := by
    rw [meetState_rendezvous]
    unfold State.skipSeats
    rw [State.coreAt_modCore_ne _ _ _ _ (by rw [hcur, meetWaiting_cur]; exact hne), hstand _ (by rw [meetWaiting_cur]; exact hne)]
  have h2 : meetWaiting.coreAt 1 = meetRegistered.coreAt 1 := by
    unfold meetWaiting State.why
    rw [State.coreAt_modCtx_ne _ _ _ _ (by rw [hreg]; exact hne), State.coreAt_modCore_ne _ _ _ _ (by rw [hreg]; exact hne)]
  rw [h1, h2, meetRegistered_wakes]

/-- Refutes O40: a partner's AWAIT registers at its slot as it stalls, and the slot's line, which counts its waiters, changes; a WAITA of another core that
watches the line is woken (R75, R196), so that core does not stand. -/
theorem not_rendezvous : ¬ Obligations.Rendezvous := by
  unfold Obligations.Rendezvous
  intro h
  obtain ⟨hstart, hdue, hpart⟩ := meetState_due
  obtain ⟨-, ha⟩ := meetState_verdicts
  obtain ⟨t, ht, hcores, -⟩ := (h meetState 0 hstart hdue).2.1 ⟨.a, by rw [hpart]; simp, meetWaiting, ha⟩
  have hrun : exec (.strokeRendezvous 0) meetState = .next meetState.rendezvous :=
    congrArg Host.Outcome.next (if_pos (by rw [hstart, hdue]; rfl))
  obtain rfl : meetState.rendezvous = t := Host.Outcome.next.inj (hrun.symm.trans ht)
  have hsame := congrArg (fun c : Core => c.ctx.await) (hcores 1 (by decide))
  have hw : some (AWait.line 0 meetSlot.pa true) = some (AWait.line 0 meetSlot.pa false) := (meetState_wakes.symm.trans hsame).trans meetState_slot.2
  cases hw

end Sys2Proof
end

section
/-! PROOF. Taking a trap. -/

namespace Sys2Proof

open Machine Spec

/-! ## Withdrawing an AWAIT (R13, R179) -/

/-- An AWAIT watches no line, so its own withdrawal does not touch it. -/
theorem withdrawAwait_self (s : State) (n : CoreId) : (s.withdrawAwait n).coreAt n = s.coreAt n := by
  unfold State.withdrawAwait
  split
  · rename_i pa hpa
    have hw : ∀ k, wokenAwait pa k (s.coreAt n).ctx.await = (s.coreAt n).ctx.await := fun k => by
      unfold Ctx.awaitsAt at hpa
      split at hpa
      · rename_i h; rw [h]; rfl
      · cases hpa
    refine iteInduction (motive := fun u : State => u.coreAt n = s.coreAt n) (fun _ => ?_) fun _ => rfl
    rw [wakeLine_coreAt]
    show { s.coreAt n with ctx := { (s.coreAt n).ctx with await := wokenAwait pa 16 (s.coreAt n).ctx.await } } = s.coreAt n
    rw [hw]
  · rfl

theorem wakeLine_memParts (s : State) (pa k : Nat) : (s.wakeLine pa k).mem = s.mem ∧ (s.wakeLine pa k).parts = s.parts ∧ (s.wakeLine pa k).outs = s.outs := by
  unfold State.wakeLine
  dsimp only
  split <;> exact ⟨rfl, rfl, rfl⟩

theorem modSlot_memParts (s : State) (pa : Nat) (f : Slot → Slot) :
    (s.modSlot pa f).mem = s.mem ∧ (s.modSlot pa f).parts = s.parts ∧ (s.modSlot pa f).outs = s.outs :=
  iteInduction (motive := fun u : State => u.mem = s.mem ∧ u.parts = s.parts ∧ u.outs = s.outs) (fun _ => wakeLine_memParts ..) fun _ => ⟨rfl, rfl, rfl⟩

theorem coreAt_ite_congr {c : Prop} [Decidable c] {a b a' b' : State} {m : CoreId} (ha : a.coreAt m = a'.coreAt m) (hb : b.coreAt m = b'.coreAt m) :
    (if c then a else b).coreAt m = (if c then a' else b').coreAt m := by split <;> assumption

/-- Two states that differ in core n alone, and not in what it awaits there, change alike with a slot. -/
theorem oneCore_modSlot {n : CoreId} {s u : State} (h : OneCore n s u) (pa : Nat) (f : Slot → Slot) : OneCore n (s.modSlot pa f) (u.modSlot pa f) := by
  have hslot : u.slot? pa = s.slot? pa := by unfold State.slot?; rw [h.slots]
  refine ⟨fun m hm => ?_, fun a => ?_, ?_, ?_⟩
  · unfold State.modSlot
    rw [hslot]
    refine coreAt_ite_congr ?_ (h.cores m hm)
    rw [wakeLine_coreAt, wakeLine_coreAt]
    show { u.coreAt m with ctx := { (u.coreAt m).ctx with await := wokenAwait pa 16 (u.coreAt m).ctx.await } } = _
    rw [h.cores m hm]; rfl
  · rw [(modSlot_memParts ..).1, (modSlot_memParts ..).1, h.mem]
  · rw [modSlot_slots, modSlot_slots, h.slots]
  · rw [(modSlot_memParts ..).2.1, (modSlot_memParts ..).2.1, h.parts]

theorem oneCore_withdrawAwait {n : CoreId} {s u : State} (h : OneCore n s u) (ha : (u.coreAt n).ctx.await = (s.coreAt n).ctx.await) :
    OneCore n (s.withdrawAwait n) (u.withdrawAwait n) := by
  have hat : (u.coreAt n).ctx.awaitsAt = (s.coreAt n).ctx.awaitsAt := by unfold Ctx.awaitsAt; rw [ha]
  unfold State.withdrawAwait
  rw [hat]
  split
  · exact oneCore_modSlot h ..
  · exact h

/-! ## The contexts of the dies stand -/

theorem contexts_wakeLine (s : State) (pa k : Nat) (d : DieId) : ((s.wakeLine pa k).die d).contexts = (s.die d).contexts := by
  obtain ⟨b, hb⟩ := wakeLine_die s pa k d
  rw [hb]; split <;> rfl

theorem contexts_withdrawAwait (s : State) (n : CoreId) (d : DieId) : ((s.withdrawAwait n).die d).contexts = (s.die d).contexts := by
  unfold State.withdrawAwait
  split
  · refine iteInduction (motive := fun u : State => (u.die d).contexts = (s.die d).contexts) (fun _ => ?_) fun _ => by cases d <;> rfl
    rw [contexts_wakeLine]; cases d <;> rfl
  · rfl

theorem contexts_of_dieKept {a b : Die} (h : DieKept a b) : b.contexts = a.contexts := by
  unfold DieKept at h; rw [← h]

theorem contexts_landReserved (s : State) (n : CoreId) (d : DieId) : ((s.landReserved n).die d).contexts = (s.die d).contexts := by
  unfold State.landReserved
  split
  · rw [State.die_modCtx]; exact contexts_of_dieKept ((count_counted ..).package.die d)
  · rfl

theorem contexts_dropWaits (s : State) (n : CoreId) (d : DieId) : ((s.dropWaits n).die d).contexts = (s.die d).contexts := by
  unfold State.dropWaits
  by_cases h : d = dieOf n
  · subst h; rw [State.die_modDie, State.die_modCore]
  · rw [State.die_modDie_ne _ _ _ _ h, State.die_modCore]

/-! ## The state before the handler starts -/

/-- An entry that the drain has reserved lands in the queues and in the engine alone (R247). -/
theorem drainLands_eq (x : Ctx) : ∃ qs e, x.drainLands = { x with queues := qs, eng := e } := by
  unfold Ctx.drainLands
  split
  · exact ⟨x.queues, x.eng, rfl⟩
  · dsimp only
    split <;> exact ⟨_, _, rfl⟩

/-- What the freeze for a trap brings core n to before its handler starts: x is its context. -/
structure Readied (n : CoreId) (s : State) (x : Ctx) (v : State) : Prop where
  one : OneCore n (s.withdrawAwait n) v
  core : ∃ d w, v.coreAt n = { s.coreAt n with ctx := x, dbg := d, walkAns := w }
  contexts : ∀ c, v.contextOf n c = s.contextOf n c

theorem oneCore_dropWaits (s : State) (n : CoreId) : OneCore n s (s.dropWaits n) :=
  ⟨fun m hm => by simp [State.dropWaits, hm], fun a => by simp [State.dropWaits], by simp [State.dropWaits], by simp [State.dropWaits]⟩

theorem dropWaits_core (s : State) (n : CoreId) : ∃ w, (s.dropWaits n).coreAt n = { s.coreAt n with walkAns := w } := by
  unfold State.dropWaits
  exact ⟨_, by rw [State.coreAt_modDie, State.coreAt_modCore]⟩

theorem readied_of {n : CoreId} {s u : State} {x : Ctx} {d : Dbg} (hone : OneCore n s u) (hcore : u.coreAt n = { s.coreAt n with ctx := x, dbg := d })
    (ha : x.await = (s.coreAt n).ctx.await) (hctx : ∀ d, (u.die d).contexts = (s.die d).contexts) :
    Readied n s x ((u.withdrawAwait n).dropWaits n) := by
  have hawait : (u.coreAt n).ctx.await = (s.coreAt n).ctx.await := by rw [hcore]; exact ha
  obtain ⟨w, hw⟩ := dropWaits_core (u.withdrawAwait n) n
  refine ⟨oneCore_trans (oneCore_withdrawAwait hone hawait) (oneCore_dropWaits ..), ⟨d, w, ?_⟩, fun c => ?_⟩
  · rw [hw, withdrawAwait_self, hcore]
  · unfold State.contextOf
    rw [contexts_dropWaits, contexts_withdrawAwait, hctx]

/-- Outside a handler, the drain's entry has landed. -/
theorem readied_landed (s : State) (n : CoreId) : Readied n s (s.coreAt n).ctx.drainLands (((s.landReserved n).withdrawAwait n).dropWaits n) := by
  obtain ⟨d, hd⟩ := landReserved_core s n
  obtain ⟨qs, e, he⟩ := drainLands_eq (s.coreAt n).ctx
  have hone : OneCore n s (s.landReserved n) := by
    unfold State.landReserved
    split
    · exact oneCore_trans (Logged.count n s 22 1).oneCore (oneCore_modCtx ..)
    · exact ⟨fun _ _ => rfl, fun _ => rfl, rfl, rfl⟩
  exact readied_of hone hd (by rw [he]) fun d => contexts_landReserved s n d

theorem readied_handler (s : State) (n : CoreId) : Readied n s (s.coreAt n).ctx ((s.withdrawAwait n).dropWaits n) :=
  readied_of (d := (s.coreAt n).dbg) ⟨fun _ _ => rfl, fun _ => rfl, rfl, rfl⟩ rfl rfl fun _ => rfl

/-! ## The cases of a trap (R348 to R351, R359) -/

/-- The trap of a unit needs the supervisor's handler. -/
def needsSup (x : Ctx) (q : Cause) : Bool := q.toSup || decide (x.uhandGov = 0)

/-- The frame of a trap of the unit. -/
def frameOf (x : Ctx) (k : SeatId) (q : SeatCause) (efinfo : Nat) : Handler :=
  { sup := needsSup x q.cause, cause := q.cause, tpc := q.tpc, tval := q.tval, tseat := k, orig := q.cause, dcode := 0, esc := false, saved := x.atFreeze,
    writes := [], saveWritten := false, efinfo := efinfo, bad := false, req := none }

/-- The frame of a trap that goes on from the user handler to the supervisor's (R351). -/
def escalated (h : Handler) (q : SeatCause) : Handler :=
  { h with sup := true, cause := (if decide (q.cause = .software) then h.orig else .handlerFault), esc := true,
           dcode := if decide (q.cause = .software) then q.tval.setWidth 8 else 0 }

section
variable {s : State} {n : CoreId} {k : SeatId} {q : SeatCause} {efinfo : Nat} {core : Core} {sh : Dw}

/-- A handler starts, at UHAND or at shbase. -/
theorem takeTrap_enters (hcore : ((s.withdrawAwait n).dropWaits n).coreAt n = core) (hh : core.handler = none)
    (hsh : (((s.withdrawAwait n).dropWaits n).contextOf n core.ctxNum).shbase = sh) (hgo : ¬(needsSup core.ctx q.cause = true ∧ sh = 0)) :
    s.takeTrap n k q efinfo = ((s.withdrawAwait n).dropWaits n).setCore n { core with
      hold := false, handler := some (frameOf core.ctx k q efinfo),
      ctx := (core.ctx.atFreeze.keepCauses k).enterHandler (if needsSup core.ctx q.cause then sh else core.ctx.uhandGov) } := by
  subst hcore hsh
  unfold State.takeTrap
  simp only [hh]
  exact if_neg (by rw [Bool.and_eq_true, decide_eq_true_eq]; exact hgo)

/-- The core freezes as a master where the trap needs a handler that the context has not (R359). -/
theorem takeTrap_freezes (hcore : ((s.withdrawAwait n).dropWaits n).coreAt n = core) (hh : core.handler = none)
    (hsh : (((s.withdrawAwait n).dropWaits n).contextOf n core.ctxNum).shbase = 0) (hsup : needsSup core.ctx q.cause = true) :
    s.takeTrap n k q efinfo = (((s.withdrawAwait n).dropWaits n).setCore n { core with hold := false, ctx := core.ctx.atFreeze, chosen := some k }).freezeCore
      n q.cause := by
  subst hcore
  unfold State.takeTrap
  simp only [hh]
  exact if_pos (by rw [Bool.and_eq_true, decide_eq_true_eq]; exact ⟨hsup, hsh⟩)

/-- A trap of the user handler goes to the supervisor's (R351). -/
theorem takeTrap_escalates {h : Handler} (hcore : ((s.withdrawAwait n).dropWaits n).coreAt n = core) (hh : core.handler = some h)
    (hsh : (((s.withdrawAwait n).dropWaits n).contextOf n core.ctxNum).shbase = sh) (hsup : h.sup = false) (hne : sh ≠ 0) :
    s.takeTrap n k q efinfo = ((s.withdrawAwait n).dropWaits n).setCore n { core with
      hold := false, handler := some (escalated h q), pend := [], ctx := (core.ctx.discard h.saved).enterHandler sh } := by
  subst hcore hsh
  unfold State.takeTrap
  simp only [hh, hsup, Bool.false_or]
  exact if_neg (by rw [decide_eq_true_eq]; exact hne)

/-- A trap of the supervisor's handler freezes the core as a master, as does one of the user handler where there is no supervisor's (R351, R359). -/
theorem takeTrap_handlerFreezes {h : Handler} (hcore : ((s.withdrawAwait n).dropWaits n).coreAt n = core) (hh : core.handler = some h)
    (hsh : (((s.withdrawAwait n).dropWaits n).contextOf n core.ctxNum).shbase = sh) (hsup : h.sup = true ∨ sh = 0) :
    s.takeTrap n k q efinfo = (((s.withdrawAwait n).dropWaits n).modCtx n fun x => x.modSeat k fun t => { t with cause := none }).freezeCore
      n .handlerFault := by
  subst hcore hsh
  unfold State.takeTrap
  simp only [hh]
  exact if_pos (by rw [Bool.or_eq_true, decide_eq_true_eq]; exact hsup)

/-- A core that nothing freezes freezes as a master; the policy core is notified. -/
theorem freezeCore_eq (h : (s.coreAt n).frozen = none) (c : Cause) : s.freezeCore n c =
    (s.modCore n fun k => { k with frozen := some .master, hold := false }).outp (.frozen (dieOf n) (.core n) c.code.toNat) :=
  if_neg (by rw [h]; simp)

theorem oneCore_freezeCore (h : (s.coreAt n).frozen = none) (c : Cause) : OneCore n s (s.freezeCore n c) := by
  rw [freezeCore_eq h]
  exact oneCore_trans (t := s.modCore n fun k => { k with frozen := some .master, hold := false }) (oneCore_modCore ..)
    ⟨fun _ _ => rfl, fun _ => rfl, rfl, rfl⟩

theorem oneCore_setCore (c : Core) : OneCore n s (s.setCore n c) := ⟨fun m hm => State.coreAt_setCore_ne s n m c hm, fun _ => rfl, rfl, rfl⟩

/-! ## The step -/

theorem traceUnitOf_logged (e c : Nat) : Logged n s (s.traceUnitOf n e c) ∧ (s.traceUnitOf n e c).outs = s.outs := by
  unfold State.traceUnitOf
  split
  · exact ⟨.traceUnit .., (traceRec_only ..).outs⟩
  · exact ⟨.refl n s, rfl⟩

/-- What is counted and traced of a trap touches no register (R379, R384). -/
theorem enterTrap_logged {y : State} (hy : (if (s.coreAt n).handler.isNone then s.landReserved n else s).takeTrap n k q efinfo = y) :
    Logged n y (s.enterTrap n k q efinfo) ∧ (s.enterTrap n k q efinfo).outs = y.outs := by
  unfold State.enterTrap
  rw [hy]
  dsimp only
  obtain ⟨hlog, houts⟩ := traceUnitOf_logged (s := if q.cause.translation then (y.count n 26 1).count n 25 1 else y.count n 26 1) (n := n) 7
    q.cause.code.toNat
  have h26 := Logged.count n y 26 1
  refine ⟨(Logged.ite n _ (h26.trans (.count ..)) h26).trans hlog, houts.trans ?_⟩
  split
  · rw [(count_counted ..).outs, (count_counted ..).outs]
  · rw [(count_counted ..).outs]

theorem trapEntry_eq (hmay : s.mayTrap n = true) (hdue : (s.coreAt n).dueCause = some (k, q)) : s.trapEntry n = s.enterTrap n k q 0 := by
  unfold State.trapEntry
  rw [hdue]
  exact if_pos hmay

theorem frozen_of_mayTrap (hmay : s.mayTrap n = true) : (s.coreAt n).frozen = none := by
  simp only [State.mayTrap, Bool.and_eq_true, Option.isNone_iff_eq_none] at hmay
  exact hmay.1.1.2

end

theorem needsSup_iff (s : State) (n : CoreId) (q : Cause) : needsSup (s.coreAt n).ctx q = true ↔ toSupervisor s n q := by
  simp [needsSup, toSupervisor]

/-- The causes that a trap drops and keeps stand in the seats alone. -/
theorem keepCauses_regs (x : Ctx) (k : SeatId) : RegsKept x (x.keepCauses k) := by
  unfold Ctx.keepCauses
  simp only [List.foldl_cons, List.foldl_nil]
  exact (RegsKept.modSeat ..).trans ((RegsKept.modSeat ..).trans ((RegsKept.modSeat ..).trans (.modSeat ..)))

/-- The C seat at the entry of a handler, and what the entry leaves. -/
theorem enterHandler_entry (x : Ctx) (pc : Dw) : ((x.enterHandler pc).seat .c).pc = pc ∧ ((x.enterHandler pc).seat .c).act = true ∧
    ((x.enterHandler pc).seat .c).dslots = 0 ∧ ((x.enterHandler pc).seat .c).loop = none ∧ ((x.enterHandler pc).seat .c).cause = none ∧
    (x.enterHandler pc).inflight = [] ∧ (x.enterHandler pc).c = x.c ∧ (x.enterHandler pc).f = x.f ∧ (x.enterHandler pc).uhand = x.uhand ∧
    ∀ k, ((x.enterHandler pc).seat k).osb = (x.seat k).osb := by
  have hc : (x.enterHandler pc).seat .c =
      { (x.seat .c) with pc := pc, act := true, dtgt := 0, dslots := 0, dtaken := false, strk := false, loop := none, cause := none } :=
    Ctx.seat_setSeat x .c _
  refine ⟨by rw [hc], by rw [hc], by rw [hc], by rw [hc], by rw [hc], rfl, rfl, rfl, rfl, fun k => ?_⟩
  by_cases hk : k = .c
  · subst hk; rw [hc]
  · exact congrArg Seat.osb (Ctx.seat_setSeat_ne x .c k _ hk)

/-- What a user handler has changed of the streams is the frame's again (R351). -/
theorem discard_osb (live saved : Ctx) (k : SeatId) : ((live.discard saved).seat k).osb = (saved.seat k).osb := by
  have h : (live.discard saved).seat k = (([SeatId.c, .a, .v, .m].foldl (fun y j => y.modSeat j fun t => { t with osb := (saved.seat j).osb }) live).seat k) := rfl
  rw [h]
  simp only [List.foldl_cons, List.foldl_nil]
  cases k <;> simp

section
variable {s : State} {n : CoreId} {k : SeatId} {q : SeatCause}

/-- A trap outside a handler that finds one: x is the context whose c registers the handler starts with. -/
theorem enterTrap_handles (hh : (s.coreAt n).handler = none) (hgo : toSupervisor s n q.cause → supEntry s n ≠ 0) :
    OneCore n (s.withdrawAwait n) (s.enterTrap n k q 0) ∧ ∃ (x : Ctx) (d : Dbg) (w : _), x.c = (s.coreAt n).ctx.c ∧ (s.enterTrap n k q 0).coreAt n = { s.coreAt n with
      hold := false, walkAns := w, dbg := d, handler := some (frameOf (s.coreAt n).ctx.drainLands k q 0)
      ctx := x.enterHandler (if needsSup (s.coreAt n).ctx q.cause then supEntry s n else (s.coreAt n).ctx.uhandGov) } := by
  have hr := readied_landed s n
  obtain ⟨d, w, hcore⟩ := hr.core
  obtain ⟨qs, e, hx⟩ := drainLands_eq (s.coreAt n).ctx
  have hneeds : needsSup (s.coreAt n).ctx.drainLands q.cause = needsSup (s.coreAt n).ctx q.cause := by rw [hx]; rfl
  have hgov : (s.coreAt n).ctx.drainLands.uhandGov = (s.coreAt n).ctx.uhandGov := by rw [hx]
  have hy := takeTrap_enters (k := k) (q := q) (efinfo := 0) (sh := supEntry s n) hcore hh (congrArg Context.shbase (hr.contexts _))
    (fun h => hgo ((needsSup_iff s n _).mp (hneeds ▸ h.1)) h.2)
  obtain ⟨hlog, -⟩ := enterTrap_logged (efinfo := 0) (k := k) (q := q) ((congrArg (State.takeTrap · n k q 0) (by rw [hh]; rfl)).trans hy)
  obtain ⟨d', hd⟩ := hlog.core
  refine ⟨oneCore_trans hr.one (oneCore_trans (oneCore_setCore _) hlog.oneCore), (s.coreAt n).ctx.drainLands.atFreeze.keepCauses k, d', w, ?_, ?_⟩
  · rw [(keepCauses_regs ..).c, hx]; rfl
  · rw [hd, State.coreAt_setCore]
    dsimp only
    rw [hneeds, hgov]

/-- A trap outside a handler that finds none: the core freezes as a master, and the policy core is notified. -/
theorem enterTrap_freezes (hmay : s.mayTrap n = true) (hh : (s.coreAt n).handler = none) (hsup : toSupervisor s n q.cause) (hzero : supEntry s n = 0) :
    OneCore n (s.withdrawAwait n) (s.enterTrap n k q 0) ∧ .frozen (dieOf n) (.core n) q.cause.code.toNat ∈ (s.enterTrap n k q 0).outs ∧
      ∃ d w, (s.enterTrap n k q 0).coreAt n = { s.coreAt n with
        hold := false, walkAns := w, dbg := d, frozen := some .master, chosen := some k, ctx := (s.coreAt n).ctx.drainLands.atFreeze } := by
  have hr := readied_landed s n
  obtain ⟨d, w, hcore⟩ := hr.core
  obtain ⟨qs, e, hx⟩ := drainLands_eq (s.coreAt n).ctx
  have hneeds : needsSup (s.coreAt n).ctx.drainLands q.cause = needsSup (s.coreAt n).ctx q.cause := by rw [hx]; rfl
  have hy := takeTrap_freezes (k := k) (q := q) (efinfo := 0) hcore hh ((congrArg Context.shbase (hr.contexts _)).trans hzero)
    (hneeds.trans ((needsSup_iff s n _).mpr hsup))
  obtain ⟨hlog, houts⟩ := enterTrap_logged (efinfo := 0) (k := k) (q := q) ((congrArg (State.takeTrap · n k q 0) (by rw [hh]; rfl)).trans hy)
  obtain ⟨d', hd⟩ := hlog.core
  have hfree := frozen_of_mayTrap hmay
  refine ⟨oneCore_trans hr.one (oneCore_trans (oneCore_setCore _) (oneCore_trans (oneCore_freezeCore ?_ _) hlog.oneCore)), ?_, d', w, ?_⟩
  · rw [State.coreAt_setCore]; exact hfree
  · rw [houts, freezeCore_eq (by rw [State.coreAt_setCore]; exact hfree)]
    exact List.mem_append_right _ (List.mem_singleton.mpr rfl)
  · rw [hd, freezeCore_eq (by rw [State.coreAt_setCore]; exact hfree), State.coreAt_outp, State.coreAt_modCore, State.coreAt_setCore]

/-- A trap of the user handler with a supervisor's to go to. -/
theorem enterTrap_escalates {h : Handler} (hh : (s.coreAt n).handler = some h) (hsup : h.sup = false) (hne : supEntry s n ≠ 0) :
    OneCore n (s.withdrawAwait n) (s.enterTrap n k q 0) ∧ ∃ d w, (s.enterTrap n k q 0).coreAt n = { s.coreAt n with
      hold := false, walkAns := w, dbg := d, pend := [], handler := some (escalated h q)
      ctx := ((s.coreAt n).ctx.discard h.saved).enterHandler (supEntry s n) } := by
  have hr := readied_handler s n
  obtain ⟨d, w, hcore⟩ := hr.core
  have hy := takeTrap_escalates (k := k) (q := q) (efinfo := 0) (sh := supEntry s n) hcore hh (congrArg Context.shbase (hr.contexts _)) hsup hne
  obtain ⟨hlog, -⟩ := enterTrap_logged (efinfo := 0) (k := k) (q := q) ((congrArg (State.takeTrap · n k q 0) (by rw [hh]; rfl)).trans hy)
  obtain ⟨d', hd⟩ := hlog.core
  exact ⟨oneCore_trans hr.one (oneCore_trans (oneCore_setCore _) hlog.oneCore), d', w, by rw [hd, State.coreAt_setCore]⟩

/-- Any other trap of a handler. -/
theorem enterTrap_handlerFreezes {h : Handler} (hmay : s.mayTrap n = true) (hh : (s.coreAt n).handler = some h)
    (hsup : h.sup = true ∨ supEntry s n = 0) :
    OneCore n (s.withdrawAwait n) (s.enterTrap n k q 0) ∧ ((s.enterTrap n k q 0).coreAt n).frozen = some .master := by
  have hr := readied_handler s n
  obtain ⟨d, w, hcore⟩ := hr.core
  have hy := takeTrap_handlerFreezes (k := k) (q := q) (efinfo := 0) (sh := supEntry s n) hcore hh (congrArg Context.shbase (hr.contexts _)) hsup
  obtain ⟨hlog, -⟩ := enterTrap_logged (efinfo := 0) (k := k) (q := q) ((congrArg (State.takeTrap · n k q 0) (by rw [hh]; rfl)).trans hy)
  obtain ⟨d', hd⟩ := hlog.core
  have hfree := frozen_of_mayTrap hmay
  refine ⟨oneCore_trans hr.one (oneCore_trans (oneCore_modCtx n _ _) (oneCore_trans (oneCore_freezeCore ?_ _) hlog.oneCore)), ?_⟩
  · rw [State.coreAt_modCtx, hcore]; exact hfree
  · rw [hd]; exact freezeCore_frozen ..

end

/-- Settles O41: the state before the handler starts is the core's own, with its AWAIT withdrawn and the drain's entry landed; each case of a trap writes
the frame and the C seat from it, and what is counted and traced touches neither. -/
theorem trapEntry : Obligations.TrapEntry := by
  refine ⟨fun s n k q hmay hh hfirst hgo => ?_, fun s n k q hmay hh hfirst hsup hzero => ?_, fun s n q h hmay hh hq => ?_⟩
  · have hdue : (s.coreAt n).dueCause = some (k, q) := by unfold Core.dueCause; rw [hh]; exact hfirst
    obtain ⟨hone, x, d, w, hxc, hcore⟩ := enterTrap_handles (k := k) hh hgo
    obtain ⟨hpc, hact, hds, hloop, hcause, hin, hc, -⟩ := enterHandler_entry x
      (if needsSup (s.coreAt n).ctx q.cause then supEntry s n else (s.coreAt n).ctx.uhandGov)
    have hneeds : (frameOf (s.coreAt n).ctx.drainLands k q 0).sup = needsSup (s.coreAt n).ctx q.cause := by
      obtain ⟨qs, e, hx⟩ := drainLands_eq (s.coreAt n).ctx
      rw [hx]; rfl
    refine ⟨_, frameOf (s.coreAt n).ctx.drainLands k q 0, congrArg Host.Outcome.next (trapEntry_eq hmay hdue), ?_⟩
    rw [hcore, hneeds]
    exact ⟨rfl, needsSup_iff s n _, rfl, rfl, rfl, rfl, rfl, rfl, rfl, rfl, rfl, hpc, hact, hds, hloop, hcause, hin, hc.trans hxc, rfl, hone⟩
  · have hdue : (s.coreAt n).dueCause = some (k, q) := by unfold Core.dueCause; rw [hh]; exact hfirst
    obtain ⟨hone, hout, d, w, hcore⟩ := enterTrap_freezes (k := k) hmay hh hsup hzero
    refine ⟨_, congrArg Host.Outcome.next (trapEntry_eq hmay hdue), hone, ?_⟩
    rw [hcore]
    exact ⟨rfl, hh, rfl, rfl, rfl, hout⟩
  · have hdue : (s.coreAt n).dueCause = some (.c, q) := by unfold Core.dueCause; rw [hh, hq]; rfl
    have hrun : exec (.trapEntry n) s = .next (s.enterTrap n .c q 0) := congrArg Host.Outcome.next (trapEntry_eq hmay hdue)
    refine ⟨fun hsup hne => ?_, fun hsup => ?_⟩
    · obtain ⟨hone, d, w, hcore⟩ := enterTrap_escalates (k := .c) (q := q) hh hsup hne
      obtain ⟨hpc, -, -, -, -, hin, hc, hf, hu, hosb⟩ := enterHandler_entry ((s.coreAt n).ctx.discard h.saved) (supEntry s n)
      refine ⟨_, escalated h q, hrun, hone, ?_⟩
      rw [hcore]
      exact ⟨rfl, rfl, rfl, rfl, rfl, by simp [escalated], by simp [escalated], rfl, rfl, rfl, hpc, hc, hf, hu,
        fun k => (hosb k).trans (discard_osb ..), hin⟩
    · obtain ⟨hone, hfrozen⟩ := enterTrap_handlerFreezes (k := .c) (q := q) hmay hh hsup
      exact ⟨_, hrun, hone, hfrozen⟩

end Sys2Proof
end

section
/-! PROOF. The end of a running clock. -/

namespace Sys2Proof

open Machine Spec

/-! ## Crews: what records leave of the power gate (R377, R379) -/

/-- The power gates of the crews stand. -/
def SameGates (s t : State) : Prop := ∀ w, (t.crewAt w).gated = (s.crewAt w).gated

theorem crewAt_setCrew_self (s : State) (w : CrewId) (c : Crew) : (s.setCrew w c).crewAt w = c := Vector.getElem_set_self ..

theorem crewAt_setCrew_ne (s : State) (w v : CrewId) (c : Crew) (h : v ≠ w) : (s.setCrew w c).crewAt v = s.crewAt v :=
  Vector.getElem_set_ne w.isLt v.isLt fun e => h (Fin.ext e.symm)

theorem SameGates.setCrew {s : State} {w : CrewId} {c : Crew} (h : c.gated = (s.crewAt w).gated) : SameGates s (s.setCrew w c) := by
  intro v
  by_cases hv : v = w
  · subst hv; rw [crewAt_setCrew_self, h]
  · rw [crewAt_setCrew_ne _ _ _ _ hv]

theorem SameGates.trans {s t u : State} (h : SameGates s t) (g : SameGates t u) : SameGates s u := fun w => (g w).trans (h w)

theorem SameGates.of_crews {s t : State} (h : t.crews = s.crews) : SameGates s t := fun w => by unfold State.crewAt; rw [h]

theorem flushLoss_gated (c : Crew) : c.flushLoss.gated = c.gated := by
  unfold Crew.flushLoss
  split <;> rfl

theorem SameGates.traceEpoch (s : State) (w : CrewId) (cause : Nat) : SameGates s (s.traceEpoch w cause) := by
  have hg := flushLoss_gated (s.crewAt w)
  unfold State.traceEpoch
  dsimp only
  generalize (s.crewAt w).flushLoss = c at hg ⊢
  split
  · exact .of_crews rfl
  · split
    · exact .setCrew rfl
    · split
      · exact .setCrew hg
      · exact .setCrew hg

theorem SameGates.traceRec (s : State) (n : CoreId) (kind : Nat) (data : List Dw) : SameGates s (s.traceRec n kind data) := by
  unfold State.traceRec
  dsimp only
  split
  · exact .of_crews rfl
  · have he : SameGates s (if s.deltaFar n then s.traceEpoch (crewOf n) 5 else s) := by
      split
      · exact .traceEpoch s _ _
      · exact .of_crews rfl
    generalize (if s.deltaFar n then s.traceEpoch (crewOf n) 5 else s) = u at he ⊢
    have hg := flushLoss_gated (u.crewAt (crewOf n))
    generalize (u.crewAt (crewOf n)).flushLoss = c at hg ⊢
    refine he.trans ?_
    split <;> exact .setCrew hg

/-! ## The counters of a clock (R372, R384) -/

/-- What the counters of a clock change: core n's counters, its bank cells and pointers, the dies' counters and the crews' buffers. -/
structure ClockCounted (n : CoreId) (s t : State) : Prop where
  cores : ∀ m, m ≠ n → t.coreAt m = s.coreAt m
  core : ∃ x y z b, t.coreAt n = { s.coreAt n with dbg := { (s.coreAt n).dbg with ecsel := x, ecval := y, cells := z }, bankPtr := b }
  mem : t.mem = s.mem
  slots : t.slots = s.slots
  parts : t.parts = s.parts
  cur : t.cur = s.cur
  gates : SameGates s t

theorem ClockCounted.refl (n : CoreId) (s : State) : ClockCounted n s s :=
  ⟨fun _ _ => rfl, ⟨_, _, _, _, rfl⟩, rfl, rfl, rfl, rfl, fun _ => rfl⟩

theorem ClockCounted.trans {n : CoreId} {s t u : State} (h : ClockCounted n s t) (g : ClockCounted n t u) : ClockCounted n s u := by
  obtain ⟨x, y, z, b, hc⟩ := h.core
  obtain ⟨x', y', z', b', gc⟩ := g.core
  exact ⟨fun m hm => (g.cores m hm).trans (h.cores m hm), ⟨x', y', z', b', by rw [gc, hc]⟩, g.mem.trans h.mem, g.slots.trans h.slots,
    g.parts.trans h.parts, g.cur.trans h.cur, h.gates.trans g.gates⟩

/-- A core event counts in the core's counters alone. -/
theorem count_core (s : State) (n : CoreId) (code inc : Nat) : ∃ x y, (s.count n code inc).coreAt n =
    { s.coreAt n with dbg := { (s.coreAt n).dbg with ecsel := x, ecval := y } } := by
  obtain ⟨d, hd⟩ := (Logged.count n s code inc).core
  have hkept : CoreKept (s.coreAt n) ((s.count n code inc).coreAt n) := (count_counted ..).core
  rw [hd] at hkept
  have hdbg : { d with ecsel := (s.coreAt n).dbg.ecsel, ecval := (s.coreAt n).dbg.ecval } = (s.coreAt n).dbg := congrArg Core.dbg hkept
  exact ⟨d.ecsel, d.ecval, by rw [hd, ← hdbg]⟩

theorem SameGates.count (s : State) (n : CoreId) (code inc : Nat) : SameGates s (s.count n code inc) := by
  unfold State.count State.counterRecord
  dsimp only
  refine SameGates.trans (t := if Dbg.wrapped (s.coreAt n).dbg ((s.modCore n fun c => c.bump code inc).coreAt n).dbg then _ else
    s.modCore n fun c => c.bump code inc) ?_ (.of_crews (State.modDie_crews ..))
  split
  · exact SameGates.trans (t := s.modCore n fun c => c.bump code inc) (.of_crews rfl) (.traceRec _ _ _ _)
  · exact .of_crews rfl

theorem ClockCounted.count (n : CoreId) (s : State) (code inc : Nat) : ClockCounted n s (s.count n code inc) := by
  have hlog := Logged.count n s code inc
  obtain ⟨x, y, hc⟩ := count_core s n code inc
  exact ⟨hlog.cores, ⟨x, y, _, _, hc⟩, hlog.mem, hlog.slots, hlog.parts, (count_counted ..).package.cur, .count s n code inc⟩

theorem ClockCounted.ite {n : CoreId} {s t u : State} {c : Prop} [Decidable c] (ht : ClockCounted n s t) (hu : ClockCounted n s u) :
    ClockCounted n s (if c then t else u) := by split <;> assumption

theorem ClockCounted.countIf (n : CoreId) (s : State) (c : Prop) [Decidable c] (code inc : Nat) : ClockCounted n s (if c then s.count n code inc else s) :=
  .ite (.count ..) (.refl n s)

theorem ClockCounted.foldl {α : Type} {n : CoreId} {f : State → α → State} (h : ∀ s a, ClockCounted n s (f s a)) (l : List α) (s : State) :
    ClockCounted n s (l.foldl f s) := by
  induction l generalizing s with
  | nil => exact .refl n s
  | cons a l ih => exact (h s a).trans (ih _)

theorem ClockCounted.loseBanks (n : CoreId) (s : State) : ClockCounted n s (s.loseBanks n) := by
  unfold State.loseBanks
  dsimp only
  refine .ite (.refl n s) ?_
  exact ⟨fun m hm => State.coreAt_modCore_ne _ _ _ _ hm, ⟨(s.coreAt n).dbg.ecsel, (s.coreAt n).dbg.ecval, _, _, State.coreAt_modCore ..⟩, rfl, rfl, rfl, rfl,
    .of_crews rfl⟩

theorem ClockCounted.countClock (n : CoreId) (s : State) : ClockCounted n s (s.countClock n) := by
  unfold State.countClock
  refine .ite (.refl n s) ?_
  dsimp only
  refine .trans ?_ (.foldl (fun s w => .count n s w 1) _ _)
  refine .trans ?_ (.countIf ..)
  refine .trans ?_ (.countIf ..)
  refine .trans ?_ (.foldl (fun s k => .ite (.count ..) (.countIf ..)) _ _)
  refine .trans ?_ (.countIf ..)
  refine .trans ?_ (.countIf ..)
  refine .trans ?_ (.countIf ..)
  exact ((ClockCounted.loseBanks n s).trans (.count ..)).trans (.count ..)

/-! ## What a clock's words leave for its end (R31, R160, R167) -/

theorem lastOf_cons {α : Type} (f : Pending → Option α) (p : Pending) (l : List Pending) : lastOf (p :: l) f = (lastOf l f).or (f p) := by
  unfold lastOf
  rw [List.reverse_cons, List.findSome?_append, List.findSome?_singleton]

/-- A part of the context that each effect either sets or leaves is as the last one that sets it says. -/
theorem foldl_last {α : Type} (part : Ctx → α) (f : Pending → Option α) (h : ∀ x p, part (x.applyPending p) = (f p).getD (part x)) (l : List Pending)
    (x : Ctx) : part (l.foldl Ctx.applyPending x) = (lastOf l f).getD (part x) := by
  induction l generalizing x with
  | nil => rfl
  | cons p l ih =>
    rw [List.foldl_cons, ih, h, lastOf_cons]
    cases lastOf l f <;> rfl

/-- A part of the context that no effect touches stands. -/
theorem foldl_stands {α : Type} (part : Ctx → α) (h : ∀ x p, part (x.applyPending p) = part x) (l : List Pending) (x : Ctx) :
    part (l.foldl Ctx.applyPending x) = part x := by
  induction l generalizing x with
  | nil => rfl
  | cons p l ih => rw [List.foldl_cons, ih, h]

/-- The four seats take a new scope of a stream (R160). -/
theorem scope_seat (x : Ctx) (o : BitVec 2) (e : BitVec 5) (k : SeatId) :
    (x.applyPending (.scope o e)).seat k = { x.seat k with osb := (x.seat k).osb.set o.toFin e } := by
  unfold Ctx.applyPending
  simp only [List.foldl_cons, List.foldl_nil]
  cases k <;> simp

theorem scope_rest (x : Ctx) (o : BitVec 2) (e : BitVec 5) : { x.applyPending (.scope o e) with seats := x.seats } = x := rfl

theorem queue_setQueue (x : Ctx) (q : BitVec 3) (u : Queue) : (x.setQueue q u).queue q = u := Vector.getElem_set_self ..

theorem queue_setQueue_ne (x : Ctx) (q r : BitVec 3) (u : Queue) (h : r ≠ q) : (x.setQueue q u).queue r = x.queue r :=
  Vector.getElem_set_ne q.toFin.isLt r.toFin.isLt fun e => h (BitVec.eq_of_toNat_eq e.symm)

/-- What each effect leaves: all but the tokens, the flags, the seats and the queues. -/
theorem pending_rest (l : List Pending) (x : Ctx) :
    { l.foldl Ctx.applyPending x with k := x.k, f := x.f, seats := x.seats, queues := x.queues } = x := by
  have h := foldl_stands (fun y : Ctx => { y with k := x.k, f := x.f, seats := x.seats, queues := x.queues })
    (fun y p => by cases p <;> rfl) l x
  exact h

theorem get_set_same {α : Type} {n : Nat} (v : Vector α n) (i : Fin n) (a : α) : (v.set i a).get i = a := Vector.getElem_set_self ..

theorem get_set_ne {α : Type} {n : Nat} (v : Vector α n) (i j : Fin n) (a : α) (h : j ≠ i) : (v.set i a).get j = v.get j :=
  Vector.getElem_set_ne i.isLt j.isLt fun e => h (Fin.ext e.symm)

/-- Posts to a token add up (R31). -/
theorem pending_tokens (l : List Pending) (x : Ctx) (t : BitVec 4) : (l.foldl Ctx.applyPending x).k.get t.toFin =
    x.k.get t.toFin + BitVec.ofNat 16 ((l.map fun p => match p with | .post k n => if k = t then n.toNat else 0 | _ => 0).sum) := by
  induction l generalizing x with
  | nil => simp
  | cons p l ih =>
    rw [List.foldl_cons, ih, List.map_cons, List.sum_cons, BitVec.ofNat_add, ← BitVec.add_assoc]
    congr 1
    cases p with
    | post k n =>
      by_cases hk : k = t
      · subst hk
        simp only [Ctx.applyPending, get_set_same, if_true]
        congr 1
        apply BitVec.eq_of_toNat_eq
        simp
      · have hne : t.toFin ≠ k.toFin := fun e => hk (BitVec.eq_of_toNat_eq (congrArg Fin.val e).symm)
        simp only [Ctx.applyPending, get_set_ne _ _ _ _ hne, if_neg hk]
        rw [BitVec.add_zero]
    | _ => simp [Ctx.applyPending]

/-- FSET sets the bit of its flag and no other. -/
theorem flag_bit (x : Ctx) (f g : BitVec 3) (v : Bool) : (x.applyPending (.flag g v)).f.getLsbD f.toNat = if g = f then v else x.f.getLsbD f.toNat := by
  have hf : f.toNat < 8 := f.isLt
  have hbit : ((1 : BitVec 8) <<< g.toNat).getLsbD f.toNat = decide (g = f) := by
    rw [BitVec.getLsbD_shiftLeft, BitVec.ofNat_eq_ofNat, BitVec.getLsbD_one, Bool.eq_iff_iff]
    simp only [Bool.and_eq_true, Bool.not_eq_true', decide_eq_true_eq, decide_eq_false_iff_not, ← BitVec.toNat_inj]
    omega
  unfold Ctx.applyPending
  dsimp only
  cases v
  · rw [if_neg Bool.false_ne_true, BitVec.getLsbD_and, BitVec.getLsbD_not, hbit]
    by_cases hg : g = f <;> simp [hg, hf]
  · rw [if_pos rfl, BitVec.getLsbD_or, hbit]
    by_cases hg : g = f <;> simp [hg]

/-- The last FSET of a flag wins (R31). -/
theorem pending_flags (l : List Pending) (x : Ctx) (f : BitVec 3) : (l.foldl Ctx.applyPending x).f.getLsbD f.toNat =
    (lastOf l fun p => match p with | .flag g v => if g = f then some v else none | _ => none).getD (x.f.getLsbD f.toNat) := by
  refine foldl_last (fun y => y.f.getLsbD f.toNat) _ (fun y p => ?_) l x
  cases p with
  | flag g v =>
    rw [flag_bit]
    by_cases hg : g = f
    · simp only [if_pos hg, Option.getD_some]
    · simp only [if_neg hg, Option.getD_none]
  | _ => rfl

/-- The last SCOPE of a stream wins, in every seat (R160). -/
theorem pending_scopes (l : List Pending) (x : Ctx) (k : SeatId) (os : BitVec 2) : ((l.foldl Ctx.applyPending x).seat k).osb.get os.toFin =
    (lastOf l fun p => match p with | .scope o e => if o = os then some e else none | _ => none).getD ((x.seat k).osb.get os.toFin) := by
  refine foldl_last (fun y => (y.seat k).osb.get os.toFin) _ (fun y p => ?_) l x
  cases p with
  | scope o e =>
    simp only [scope_seat]
    by_cases ho : o = os
    · subst ho; simp only [get_set_same, if_true, Option.getD_some]
    · have hne : os.toFin ≠ o.toFin := fun e => ho (BitVec.eq_of_toNat_eq (congrArg Fin.val e).symm)
      simp only [get_set_ne _ _ _ _ hne, if_neg ho, Option.getD_none]
  | _ => rfl

/-- No effect changes a seat but in its scopes. -/
theorem pending_seats (l : List Pending) (x : Ctx) (k : SeatId) : { (l.foldl Ctx.applyPending x).seat k with osb := (x.seat k).osb } = x.seat k :=
  foldl_stands (fun y => { y.seat k with osb := (x.seat k).osb }) (fun y p => by
    cases p with
    | scope o e => simp only [scope_seat]
    | _ => rfl) l x

/-- The last QBIND of a queue wins (R167). -/
theorem pending_bindings (l : List Pending) (x : Ctx) (q : BitVec 3) : (((l.foldl Ctx.applyPending x).queue q).dir, ((l.foldl Ctx.applyPending x).queue q).esz) =
    (lastOf l (boundTo q)).getD ((x.queue q).dir, (x.queue q).esz) := by
  refine foldl_last (fun y => ((y.queue q).dir, (y.queue q).esz)) _ (fun y p => ?_) l x
  cases p with
  | bind r d e =>
    by_cases hr : r = q
    · subst hr; simp [Ctx.applyPending, queue_setQueue, boundTo]
    · simp [Ctx.applyPending, queue_setQueue_ne _ _ _ _ (Ne.symm hr), boundTo, hr]
  | _ => rfl

/-- No effect changes a queue but in its binding. -/
theorem pending_queues (l : List Pending) (x : Ctx) (q : BitVec 3) :
    (((l.foldl Ctx.applyPending x).queue q).pat, ((l.foldl Ctx.applyPending x).queue q).ents) = ((x.queue q).pat, (x.queue q).ents) :=
  foldl_stands (fun y => ((y.queue q).pat, (y.queue q).ents)) (fun y p => by
    cases p with
    | bind r d e =>
      by_cases hr : r = q
      · subst hr; simp [Ctx.applyPending, queue_setQueue]
      · simp [Ctx.applyPending, queue_setQueue_ne _ _ _ _ (Ne.symm hr)]
    | _ => rfl) l x

/-! ## The end of a running clock -/

theorem ClockCounted.running {n : CoreId} {s t : State} (h : ClockCounted n s t) : t.running n = s.running n := by
  obtain ⟨x, y, z, b, hc⟩ := h.core
  unfold State.running State.advancing
  rw [hc, h.gates]

theorem ClockCounted.why {n : CoreId} {s t : State} (h : ClockCounted n s t) : (t.coreAt n).why = (s.coreAt n).why := by
  obtain ⟨x, y, z, b, hc⟩ := h.core
  rw [hc]

theorem loopRecord_of_no_mark (s : State) (n : CoreId) (h : (s.coreAt n).why = []) : s.loopRecord n = s := by
  unfold State.loopRecord
  rw [h]
  rfl

theorem dbgTick_play (d : Dbg) (csc : Dw) : (d.tick csc).play = d.play := by
  unfold Dbg.tick
  dsimp only
  split
  · rfl
  · split <;> rfl

/-- What a running clock's end leaves of its core: the effects of its words, in its context, and one schedule cycle more. -/
structure ClockEnded (n : CoreId) (s t : State) : Prop where
  others : OneCore n s t
  cur : t.cur = s.cur
  ctx : (t.coreAt n).ctx = (((s.coreAt n).pend.foldl Ctx.applyPending (s.coreAt n).ctx).tick).tickShape
  csc : (t.coreAt n).csc = (s.coreAt n).csc + 1
  ended : (t.coreAt n).ended = true
  pend : (t.coreAt n).pend = []
  moved : (t.coreAt n).moved = 0
  playing : t.playing n = s.playing n

theorem tickClock_of_running (s : State) (n : CoreId) (hrun : s.running n = true) (hwhy : (s.coreAt n).why = []) : ClockEnded n s (s.tickClock n) := by
  have hcount := ClockCounted.countClock n s
  unfold State.tickClock
  rw [loopRecord_of_no_mark _ _ (hcount.why.trans hwhy)]
  generalize s.countClock n = u at hcount ⊢
  have hnot : (u.coreAt n).returned = false := by unfold Core.returned; rw [hcount.why, hwhy]; rfl
  have hrun' : u.running n = true := hcount.running.trans hrun
  have hadv : u.advancing n = true := by unfold State.running at hrun'; exact (Bool.and_eq_true_iff.1 hrun').1
  obtain ⟨x, y, z, b, hc⟩ := hcount.core
  have hone : OneCore n s u := ⟨hcount.cores, fun a => by rw [hcount.mem], hcount.slots, hcount.parts⟩
  simp only [hnot, hrun', hadv, Bool.not_false, Bool.and_true, if_true]
  refine ⟨oneCore_trans hone (oneCore_modCore n u _), hcount.cur, ?_, ?_, ?_, ?_, ?_, ?_⟩
  · rw [State.coreAt_modCore, hc]
  · rw [State.coreAt_modCore, hc]
  · rw [State.coreAt_modCore]
  · rw [State.coreAt_modCore]
  · rw [State.coreAt_modCore]
  · unfold State.playing
    rw [State.coreAt_modCore, dbgTick_play, hc]
    rfl

theorem diverged_of_no_mark (s : State) (n : CoreId) (h : (s.coreAt n).why = []) : s.diverged n = false := by
  unfold State.diverged
  rw [h]
  simp

theorem flushLog_of_empty (s : State) (n : CoreId) (h : (s.coreAt n).dbg.rlq = []) : s.flushLog n = s := by
  unfold State.flushLog
  rw [h]
  rfl

/-- A clock whose words leave neither a boundary nor a leave closes with its tick. -/
theorem closeClock_of_plain (s : State) (n : CoreId) (hwhy : (s.coreAt n).why = []) (hlog : (s.coreAt n).dbg.rlq = [])
    (hpend : ∀ p ∈ (s.coreAt n).pend, p ≠ .boundary ∧ p ≠ .lost ∧ ∀ a b, p ≠ .leave a b) : s.closeClock n = (s.tickClock n).playDrain n := by
  have hboundary : (s.coreAt n).pend.contains .boundary = false := by
    rw [List.contains_eq_mem, decide_eq_false]
    exact fun h => (hpend _ h).1 rfl
  have hlost : (s.coreAt n).pend.contains .lost = false := by
    rw [List.contains_eq_mem, decide_eq_false]
    exact fun h => (hpend _ h).2.1 rfl
  unfold State.closeClock
  simp only [diverged_of_no_mark s n hwhy, flushLog_of_empty s n hlog, hboundary, hlost, Bool.false_and, Bool.false_eq_true, if_false]
  split
  case h_1 a b h =>
    obtain ⟨p, hp, hleave⟩ := List.exists_of_findSome?_eq_some h
    cases p with
    | leave c d => exact absurd rfl ((hpend _ hp).2.2 c d)
    | _ => exact absurd hleave (by simp)
  case h_2 => rfl

/-- A play run's drain changes only the entries of queues. -/
theorem playDrain_core (s : State) (n : CoreId) : ∃ qs, (s.playDrain n).coreAt n = { s.coreAt n with ctx := { (s.coreAt n).ctx with queues := qs } } ∧
    (∀ q : BitVec 3, ∃ e, qs.get q.toFin = { (s.coreAt n).ctx.queue q with ents := e }) ∧ (s.playing n = false → qs = (s.coreAt n).ctx.queues) := by
  unfold State.playDrain
  dsimp only
  by_cases hp : s.playing n = true
  · simp only [hp, Bool.not_true, Bool.false_eq_true, if_false]
    refine ⟨_, State.coreAt_modCtx .., fun q => ?_, fun h => absurd h (by simp)⟩
    refine ⟨if (s.coreAt n).dbg.playQs.getLsbD q.toNat && decide (((s.coreAt n).ctx.queue q).dir = 2) then
      ((s.coreAt n).ctx.queue q).ents.dropWhile fun e => e.landed else ((s.coreAt n).ctx.queue q).ents, ?_⟩
    refine (Vector.getElem_mapIdx ..).trans ?_
    change (if (s.coreAt n).dbg.playQs.getLsbD q.toNat && decide (((s.coreAt n).ctx.queue q).dir = 2) then _ else (s.coreAt n).ctx.queue q) = _
    split <;> rfl
  · simp only [Bool.eq_false_iff.2 hp, Bool.not_false, if_true]
    exact ⟨_, rfl, fun q => ⟨_, rfl⟩, fun _ => rfl⟩

theorem playDrain_oneCore (s : State) (n : CoreId) : OneCore n s (s.playDrain n) := by
  unfold State.playDrain
  dsimp only
  split
  · exact ⟨fun _ _ => rfl, fun _ => rfl, rfl, rfl⟩
  · exact oneCore_modCtx n s _

theorem playDrain_cur (s : State) (n : CoreId) : (s.playDrain n).cur = s.cur := by
  unfold State.playDrain
  dsimp only
  split <;> rfl

theorem step_finish_open (s : State) (hturn : s.turn = .finish) (hopen : (s.coreAt s.cur).ended = false) : step s = .next (s.closeClock s.cur) := by
  unfold step State.finishTurn
  rw [hturn]
  simp only [hopen, Bool.not_false, if_true]

/-- A clock's tick touches, of the context, only the results in flight and the shape unit. -/
theorem tick_rest (x y : Ctx) (qs : Vector Queue 8) :
    { ({ (y.tick).tickShape with queues := qs } : Ctx) with
      k := x.k, f := x.f, seats := x.seats, queues := x.queues, inflight := x.inflight, shape := x.shape } =
    { ({ y with k := x.k, f := x.f, seats := x.seats, queues := x.queues } : Ctx) with inflight := x.inflight, shape := x.shape } := rfl

/-- Settles O11: the clock closes with its tick, whose parts the lemmas about the words' effects give, and a play run's drain takes queue entries alone. -/
theorem clockEnds : Obligations.ClockEnds := by
  unfold Obligations.ClockEnds
  intro s hturn hopen hrun hwhy hlog hpend x pend
  obtain ⟨hothers, hcur, hctx, hcsc, hended, hnone, hmoved, hplay⟩ := tickClock_of_running s s.cur hrun hwhy
  obtain ⟨qs, hcore, hqs, hsame⟩ := playDrain_core (s.tickClock s.cur) s.cur
  have hcur' : ((s.tickClock s.cur).playDrain s.cur).cur = s.cur := (playDrain_cur ..).trans hcur
  have hhere : here ((s.tickClock s.cur).playDrain s.cur) = { ((pend.foldl Ctx.applyPending x).tick).tickShape with queues := qs } := by
    unfold here
    rw [hcur', hcore, hctx]
    rfl
  have hqueue (q : BitVec 3) : ∃ e, (here ((s.tickClock s.cur).playDrain s.cur)).queue q = { (pend.foldl Ctx.applyPending x).queue q with ents := e } := by
    obtain ⟨e, he⟩ := hqs q
    rw [hhere]
    rw [hctx] at he
    exact ⟨e, he⟩
  refine ⟨_, (step_finish_open s hturn hopen).trans (congrArg _ (closeClock_of_plain s s.cur hwhy hlog hpend)), hcur', ?_, ?_, ?_, ?_, fun k => ?_, fun f => ?_,
    fun k os => ?_, fun q => ?_, fun k => ?_, ?_, ?_, oneCore_trans hothers (playDrain_oneCore _ _)⟩
  · rw [hcore]; exact hcsc
  · rw [hcore]; exact hended
  · rw [hcore]; exact hnone
  · rw [hcore]; exact hmoved
  · rw [hhere]; exact pending_tokens pend x k
  · rw [hhere]; exact pending_flags pend x f
  · rw [hhere]; exact pending_scopes pend x k os
  · obtain ⟨e, he⟩ := hqueue q
    have hbind := pending_bindings pend x q
    obtain ⟨hpat, hents⟩ := Prod.mk.inj (pending_queues pend x q)
    refine ⟨?_, ?_, ?_, fun hp => ?_⟩
    · rw [he]; exact congrArg Prod.fst hbind
    · rw [he]; exact congrArg Prod.snd hbind
    · rw [he]; exact hpat
    · have hq : ((here ((s.tickClock s.cur).playDrain s.cur)).queue q) = (pend.foldl Ctx.applyPending x).queue q := by
        rw [hhere, hsame (hplay.trans hp), hctx]
        rfl
      rw [hq]; exact hents
  · have hseat : (here ((s.tickClock s.cur).playDrain s.cur)).seat k = (pend.foldl Ctx.applyPending x).seat k := by rw [hhere]; cases k <;> rfl
    rw [hseat, pending_seats]
  · rw [hhere]
    exact congrArg (List.map _) (foldl_stands (fun y => y.inflight) (fun y p => by cases p <;> rfl) pend x)
  · rw [hhere, tick_rest, pending_rest]

end Sys2Proof
end

section
/-! PROOF. The words of V: queue operands, packed values, reductions, the shape unit and the motion words. -/

namespace Sys2Proof

open Machine Spec

/-! ## Queue operands (R28, R29, R202, R349) -/

/-- A source that is no load queue, or a destination that is one. -/
def BadDirection (s : State) (srcs : List VOp) (d : BitVec 6) : Prop :=
  (∃ o ∈ srcs.filter fun o => isQueue o.1, (s.queueAt (queueOf o.1)).dir ≠ 1) ∨ (isQueue d = true ∧ (s.queueAt (queueOf d)).dir = 1)

/-- A queue of another element size. -/
def BadWidth (s : State) (srcs : List VOp) (d : BitVec 6) (desz : BitVec 2) : Prop :=
  (∃ o ∈ srcs.filter fun o => isQueue o.1, (s.queueAt (queueOf o.1)).esz ≠ o.2) ∨ (isQueue d = true ∧ (s.queueAt (queueOf d)).esz ≠ desz)

/-- A destination queue that is no store queue. -/
def NoStoreQueue (s : State) (d : BitVec 6) : Prop := isQueue d = true ∧ (s.queueAt (queueOf d)).dir ≠ 2

/-- A source queue whose head has not landed. -/
def NoHead (s : State) (srcs : List VOp) : Prop := ∃ o ∈ srcs.filter fun o => isQueue o.1, (s.queueAt (queueOf o.1)).head = none

/-- A destination queue without room. -/
def QueueFull (s : State) (d : BitVec 6) : Prop := isQueue d = true ∧ 4 ≤ (s.queueAt (queueOf d)).ents.length

section Checks
variable {s : State} {srcs : List VOp} {d : BitVec 6} {desz : BitVec 2} {k : Verdict}

theorem any_decide {α : Type} (l : List α) (p : α → Prop) [DecidablePred p] : (l.any fun o => decide (p o)) = true ↔ ∃ o ∈ l, p o := by
  simp

theorem any_dest (p : VOp → Prop) [DecidablePred p] :
    (((some (d, desz)).toList.filter fun o => isQueue o.1).any fun o => decide (p o)) = true ↔ isQueue d = true ∧ p (d, desz) := by
  cases h : isQueue d <;> simp [h]

theorem badWidth_iff : (((srcs.filter fun o => isQueue o.1) ++ (some (d, desz)).toList.filter fun o => isQueue o.1).any fun o =>
    decide ((s.queueAt (queueOf o.1)).esz ≠ o.2)) = true ↔ BadWidth s srcs d desz := by
  rw [List.any_append, Bool.or_eq_true, any_decide, any_dest]
  rfl

theorem noStore_iff : (((some (d, desz)).toList.filter fun o => isQueue o.1).any fun o => decide ((s.queueAt (queueOf o.1)).dir ≠ 2)) = true ↔
    NoStoreQueue s d := any_dest _

theorem full_iff : (((some (d, desz)).toList.filter fun o => isQueue o.1).any fun o => (s.queueAt (queueOf o.1)).noRoom) = true ↔ QueueFull s d :=
  any_dest fun o => 4 ≤ (s.queueAt (queueOf o.1)).ents.length

theorem noHead_iff : ((srcs.filter fun o => isQueue o.1).any fun o => (s.queueAt (queueOf o.1)).head.isNone) = true ↔ NoHead s srcs := by
  simp only [List.any_eq_true, Option.isNone_iff_eq_none]
  rfl

theorem withQueues_badDirection (h : BadDirection s srcs d) : s.withQueues srcs (some (d, desz)) k = .trap .queueDirection 0 := by
  unfold State.withQueues State.withQueuesOr
  dsimp only
  obtain hs | hd := h
  · exact if_pos ((any_decide _ _).2 hs)
  · split
    · rfl
    · exact if_pos ((any_dest _).2 hd)

/-- What the checks do once the directions of the queues have passed. -/
theorem withQueuesOr_directed {dst : Option VOp} {own : Option Cause} (hs : ¬∃ o ∈ srcs.filter fun o => isQueue o.1, (s.queueAt (queueOf o.1)).dir ≠ 1)
    (hd : ¬∃ o ∈ dst.toList.filter fun o => isQueue o.1, (s.queueAt (queueOf o.1)).dir = 1) : s.withQueuesOr srcs dst own k =
    let qs := srcs.filter fun o => isQueue o.1
    let qd := dst.toList.filter fun o => isQueue o.1
    if (qs ++ qd).any fun o => decide ((s.queueAt (queueOf o.1)).esz ≠ o.2) then .trap .queueWidth 0
    else if qd.any fun o => decide ((s.queueAt (queueOf o.1)).dir ≠ 2) then .trap .queueDirection 0
    else if qs.any fun o => (s.queueAt (queueOf o.1)).head.isNone then .stall (s.why 14)
    else if qd.any fun o => (s.queueAt (queueOf o.1)).noRoom then .stall (s.why 15)
    else match own with
      | some c => .trap c 0
      | none => match qs.findSome? fun o => (s.queueAt (queueOf o.1)).head.bind fun e => e.poison with
        | some tv => .trap .poisonedHead tv
        | none => k :=
  (if_neg fun h => hs ((any_decide _ _).1 h)).trans (if_neg fun h => hd ((any_decide _ _).1 h))

theorem withQueues_directed (h : ¬BadDirection s srcs d) : s.withQueues srcs (some (d, desz)) k =
    let qs := srcs.filter fun o => isQueue o.1
    let qd := (some (d, desz)).toList.filter fun o => isQueue o.1
    if (qs ++ qd).any fun o => decide ((s.queueAt (queueOf o.1)).esz ≠ o.2) then .trap .queueWidth 0
    else if qd.any fun o => decide ((s.queueAt (queueOf o.1)).dir ≠ 2) then .trap .queueDirection 0
    else if qs.any fun o => (s.queueAt (queueOf o.1)).head.isNone then .stall (s.why 14)
    else if qd.any fun o => (s.queueAt (queueOf o.1)).noRoom then .stall (s.why 15)
    else match qs.findSome? fun o => (s.queueAt (queueOf o.1)).head.bind fun e => e.poison with
      | some tv => .trap .poisonedHead tv
      | none => k :=
  withQueuesOr_directed (fun hs => h (.inl hs)) fun hd => h (.inr ((any_dest _).1 ((any_decide _ _).2 hd)))

theorem withQueues_badWidth (h1 : ¬BadDirection s srcs d) (h2 : BadWidth s srcs d desz) : s.withQueues srcs (some (d, desz)) k = .trap .queueWidth 0 :=
  (withQueues_directed h1).trans (if_pos (badWidth_iff.2 h2))

theorem withQueues_noStore (h1 : ¬BadDirection s srcs d) (h2 : ¬BadWidth s srcs d desz) (h3 : NoStoreQueue s d) :
    s.withQueues srcs (some (d, desz)) k = .trap .queueDirection 0 :=
  (withQueues_directed h1).trans ((if_neg (mt badWidth_iff.1 h2)).trans (if_pos (noStore_iff.2 h3)))

/-- What the checks do once the queues' bindings have passed. -/
theorem withQueues_bound (h1 : ¬BadDirection s srcs d) (h2 : ¬BadWidth s srcs d desz) (h3 : ¬NoStoreQueue s d) : s.withQueues srcs (some (d, desz)) k =
    let qs := srcs.filter fun o => isQueue o.1
    if qs.any fun o => (s.queueAt (queueOf o.1)).head.isNone then .stall (s.why 14)
    else if ((some (d, desz)).toList.filter fun o => isQueue o.1).any fun o => (s.queueAt (queueOf o.1)).noRoom then .stall (s.why 15)
    else match qs.findSome? fun o => (s.queueAt (queueOf o.1)).head.bind fun e => e.poison with
      | some tv => .trap .poisonedHead tv
      | none => k :=
  (withQueues_directed h1).trans ((if_neg (mt badWidth_iff.1 h2)).trans (if_neg (mt noStore_iff.1 h3)))

theorem withQueues_noHead (h1 : ¬BadDirection s srcs d) (h2 : ¬BadWidth s srcs d desz) (h3 : ¬NoStoreQueue s d) (h4 : NoHead s srcs) :
    s.withQueues srcs (some (d, desz)) k = .stall (s.why 14) :=
  (withQueues_bound h1 h2 h3).trans (if_pos (noHead_iff.2 h4))

theorem withQueues_full (h1 : ¬BadDirection s srcs d) (h2 : ¬BadWidth s srcs d desz) (h3 : ¬NoStoreQueue s d) (h4 : ¬NoHead s srcs) (h5 : QueueFull s d) :
    s.withQueues srcs (some (d, desz)) k = .stall (s.why 15) :=
  (withQueues_bound h1 h2 h3).trans ((if_neg (mt noHead_iff.1 h4)).trans (if_pos (full_iff.2 h5)))

theorem withQueues_room (h1 : ¬BadDirection s srcs d) (h2 : ¬BadWidth s srcs d desz) (h3 : ¬NoStoreQueue s d) (h4 : ¬NoHead s srcs) (h5 : ¬QueueFull s d) :
    s.withQueues srcs (some (d, desz)) k =
    match (srcs.filter fun o => isQueue o.1).findSome? fun o => (s.queueAt (queueOf o.1)).head.bind fun e => e.poison with
      | some tv => .trap .poisonedHead tv
      | none => k :=
  (withQueues_bound h1 h2 h3).trans ((if_neg (mt noHead_iff.1 h4)).trans (if_neg (mt full_iff.1 h5)))

theorem withQueues_poisoned {tv : Dw} (h1 : ¬BadDirection s srcs d) (h2 : ¬BadWidth s srcs d desz) (h3 : ¬NoStoreQueue s d) (h4 : ¬NoHead s srcs)
    (h5 : ¬QueueFull s d) (h6 : ((srcs.filter fun o => isQueue o.1).findSome? fun o => (s.queueAt (queueOf o.1)).head.bind fun e => e.poison) = some tv) :
    s.withQueues srcs (some (d, desz)) k = .trap .poisonedHead tv := by
  rw [withQueues_room h1 h2 h3 h4 h5, h6]

/-- Queues that are ready pass every check. -/
theorem withQueuesOr_ready {dst : Option VOp} {own : Option Cause} (h : queuesReady s srcs dst.toList) :
    s.withQueuesOr srcs dst own k = match own with | some c => .trap c 0 | none => k := by
  obtain ⟨hs, hd⟩ := h
  have hsrc : ∀ o ∈ srcs.filter fun o => isQueue o.1, (s.queueAt (queueOf o.1)).dir = 1 ∧ (s.queueAt (queueOf o.1)).esz = o.2 ∧
      ∃ e, (s.queueAt (queueOf o.1)).head = some e ∧ e.poison = none := fun o ho => hs o (List.mem_filter.1 ho).1 (List.mem_filter.1 ho).2
  have hdst : ∀ o ∈ dst.toList.filter fun o => isQueue o.1, (s.queueAt (queueOf o.1)).dir = 2 ∧ (s.queueAt (queueOf o.1)).esz = o.2 ∧
      (s.queueAt (queueOf o.1)).ents.length < 4 := fun o ho => hd o (List.mem_filter.1 ho).1 (List.mem_filter.1 ho).2
  have hdir : ¬∃ o ∈ dst.toList.filter fun o => isQueue o.1, (s.queueAt (queueOf o.1)).dir = 1 := fun ⟨o, ho, h1⟩ => by
    rw [(hdst o ho).1] at h1; exact absurd h1 (by decide)
  rw [withQueuesOr_directed (fun ⟨o, ho, h1⟩ => h1 (hsrc o ho).1) hdir]
  dsimp only
  rw [if_neg, if_neg, if_neg, if_neg]
  · have hpoison : ((srcs.filter fun o => isQueue o.1).findSome? fun o => (s.queueAt (queueOf o.1)).head.bind fun e => e.poison) = none := by
      refine List.findSome?_eq_none_iff.2 fun o ho => ?_
      obtain ⟨-, -, e, he, hp⟩ := hsrc o ho
      rw [he]
      exact hp
    rw [hpoison]
  · rintro hroom
    obtain ⟨o, ho, hfull⟩ := List.any_eq_true.1 hroom
    exact absurd (of_decide_eq_true hfull) (Nat.not_le.2 (hdst o ho).2.2)
  · rw [noHead_iff]
    rintro ⟨o, ho, hnone⟩
    obtain ⟨-, -, e, he, -⟩ := hsrc o ho
    rw [he] at hnone
    cases hnone
  · rw [any_decide]
    exact fun ⟨o, ho, h2⟩ => h2 (hdst o ho).1
  · rw [any_decide]
    rintro ⟨o, ho, hesz⟩
    obtain ho | ho := List.mem_append.1 ho
    · exact hesz (hsrc o ho).2.1
    · exact hesz (hdst o ho).2.1

theorem withQueues_ready {dst : Option VOp} (h : queuesReady s srcs dst.toList) : s.withQueues srcs dst k = k := withQueuesOr_ready (own := none) h

end Checks

end Sys2Proof
end

section
/-! PROOF. The reductions of V, and the queue checks of the words that write elements. -/

namespace Sys2Proof

open Machine Spec

/-! ## The pairwise tree (R111) -/

theorem pairUp_length (f : Nat → Nat → Nat) : ∀ (n : Nat) (l : List Nat), l.length = 2 * n → (pairUp f l).length = n
  | 0, l, h => by
    rw [List.length_eq_zero_iff.1 h]
    rfl
  | n + 1, a :: b :: r, h => by
    rw [pairUp, List.length_cons, pairUp_length f n r (by simp only [List.length_cons] at h; omega)]
  | _ + 1, [], h => by simp at h
  | n + 1, [a], h => by simp only [List.length_cons, List.length_nil] at h; omega

theorem pairUp_getD (f : Nat → Nat → Nat) : ∀ (n : Nat) (l : List Nat) (g : Nat), l.length = 2 * n → g < n →
    (pairUp f l).getD g 0 = f (l.getD (2 * g) 0) (l.getD (2 * g + 1) 0)
  | n + 1, a :: b :: r, 0, _, _ => rfl
  | n + 1, a :: b :: r, g + 1, h, hg => by
    rw [pairUp, List.getD_cons_succ, pairUp_getD f n r g (by simp only [List.length_cons] at h; omega) (by omega)]
    rfl
  | _ + 1, [], _, h, _ => by simp at h
  | n + 1, [a], _, h, _ => by simp only [List.length_cons, List.length_nil] at h; omega

theorem pairTree_length (f : Nat → Nat → Nat) (n L : Nat) (l : List Nat) (h : l.length = 2 ^ L * n) : (pairTree f L l).length = n := by
  induction L generalizing l with
  | zero => simpa [pairTree] using h
  | succ L ih => exact ih _ (pairUp_length f _ l (by rw [h, pow_succ']; ring))

/-- A tree over pairs is the tree one level higher. -/
theorem tree_pairs (f : Nat → Nat → Nat) (x : Nat → Nat) (L g : Nat) : tree f (fun k => f (x (2 * k)) (x (2 * k + 1))) L g = tree f x (L + 1) g := by
  induction L generalizing g with
  | zero => rfl
  | succ L ih => rw [tree, ih, ih]; rfl

theorem tree_congr (f : Nat → Nat → Nat) (x y : Nat → Nat) (n L g : Nat) (hg : g < n) (h : ∀ k, k < 2 ^ L * n → x k = y k) : tree f x L g = tree f y L g := by
  induction L generalizing n g with
  | zero => exact h g (by simpa using hg)
  | succ L ih =>
    have hlow (k : Nat) (hk : k < 2 ^ L * (2 * n)) : x k = y k := h k (by rw [pow_succ, mul_assoc]; exact hk)
    rw [tree, tree, ih (2 * n) (2 * g) (by omega) hlow, ih (2 * n) (2 * g + 1) (by omega) hlow]

/-- The levels of pairs over a list are the tree over its elements. -/
theorem pairTree_getD (f : Nat → Nat → Nat) (n L g : Nat) (l : List Nat) (h : l.length = 2 ^ L * n) (hg : g < n) :
    (pairTree f L l).getD g 0 = tree f (fun k => l.getD k 0) L g := by
  induction L generalizing l with
  | zero => rfl
  | succ L ih =>
    have hl : l.length = 2 * (2 ^ L * n) := by rw [h, pow_succ']; ring
    rw [pairTree, ih _ (pairUp_length f _ l hl), ← tree_pairs]
    exact tree_congr f _ _ n L g hg fun k hk => pairUp_getD f _ l k hl hk

/-! ## Reductions (R217) -/

theorem getD_map_zero (f : Nat → Nat) (l : List Nat) (e : Nat) (h : e < l.length) : (l.map f).getD e 0 = f (l.getD e 0) := by
  rw [List.getD_eq_getElem _ _ (by simpa using h), List.getElem_map, List.getD_eq_getElem _ _ h]

/-- Element k of a line, or what stands for one whose lane is off. -/
def onElem (ty : BitVec 2) (on : Pred) (off : Nat) (a : Line) (k : Nat) : Nat := if on.getLsbD (tyBytes ty * k / 4) then elemOf (tyBytes ty) a k else off

theorem onElems_length (ty : BitVec 2) (on : Pred) (off : Nat) (a : Line) : (onElems ty on off a).length = 1024 / tyBytes ty := by
  simp [onElems, elems_length]

theorem onElems_getD (ty : BitVec 2) (on : Pred) (off : Nat) (a : Line) (k : Nat) (h : k < 1024 / tyBytes ty) :
    (onElems ty on off a).getD k 0 = onElem ty on off a k := by
  have helem := elems_getD (tyBytes ty) a k h
  rw [List.getD_eq_getElem _ _ (by rw [elems_length]; exact h)] at helem
  rw [List.getD_eq_getElem _ _ (by rw [onElems_length]; exact h)]
  simp [onElems, onElem, helem]

/-- The groups' results, then +0. -/
theorem treeLine_elem {ty : BitVec 2} {lv n : Nat} (hn : 2 ^ lv * n = 1024 / tyBytes ty) (f : Nat → Nat → Nat) (widen out : Nat → Nat) (on : Pred) (off : Nat)
    (a : Line) (e : Nat) (he : e < 1024 / tyBytes ty) :
    elemOf (tyBytes ty) (packElems (tyBytes ty) ((pairTree f lv ((onElems ty on off a).map widen)).map out)) e =
      (if e < n then out (tree f (fun k => widen (onElem ty on off a k)) lv e) else 0) % 2 ^ (8 * tyBytes ty) := by
  have hlen : ((onElems ty on off a).map widen).length = 2 ^ lv * n := by rw [List.length_map, onElems_length, hn]
  have htree : (pairTree f lv ((onElems ty on off a).map widen)).length = n := pairTree_length f n lv _ hlen
  rw [elemOf_packElems _ _ _ (fits he)]
  congr 1
  by_cases h : e < n
  · rw [if_pos h, getD_map_zero _ _ _ (by rw [htree]; exact h), pairTree_getD f n lv e _ hlen h]
    refine congrArg out (tree_congr f _ _ n lv e h fun k hk => ?_)
    rw [hn] at hk
    rw [getD_map_zero _ _ _ (by rw [onElems_length]; exact hk), onElems_getD _ _ _ _ _ hk]
  · rw [if_neg h, List.getD_eq_default _ _ (by rw [List.length_map, htree]; omega)]

/-- The level count of a defined word divides a line into whole groups. -/
theorem levels_groups {b : BitVec 6} {ty : BitVec 2} (h : levelsOk b ty = true) :
    2 ^ levels b ty * (1024 / tyBytes ty / 2 ^ levels b ty) = 1024 / tyBytes ty := by
  unfold levelsOk at h
  unfold levels tyBytes
  by_cases hty : ty = tyF16 ∨ ty = tyBf16
  · simp only [if_pos hty, decide_eq_true_eq] at h
    simp only [if_pos hty, if_true]
    generalize b.toNat = n at h
    revert n
    decide
  · simp only [if_neg hty, decide_eq_true_eq] at h
    simp only [if_neg hty, show (4 : Nat) ≠ 2 by decide, if_false]
    generalize b.toNat = n at h
    revert n
    decide

/-- The word of a seat that issues has defined fields. -/
theorem Issues.wf {s : State} {k : SeatId} {st : Bool} {i : Instr} (h : Issues s k st i) : i.wf = true := by
  obtain ⟨-, hpre⟩ := h
  unfold State.precheck at hpre
  by_contra hwf
  dsimp only at hpre
  split at hpre
  · cases hpre
  · rw [if_pos (by simpa using hwf)] at hpre
    cases hpre

/-! ## The words that write elements -/

/-- A reduction's word goes on with the line of its groups' results. -/
theorem exec_vReduce {s : State} {i : Instr} {x : VWord} (hx : vReduce s i = some x) (hi : Issues s .v x.st i) :
    ∃ v, (∀ e, e < 1024 / x.w → elemOf x.w v e = x.el e % 2 ^ (8 * x.w)) ∧ exec i s = issue .v x.st i
      (s.withQueues x.srcs (some (x.d, x.desz)) (.go ((s.takeHeads (x.srcs.map Prod.fst)).sendV x.d v x.en x.lat) .seq)) s := by
  have hwf := hi.wf
  cases i <;> simp only [vReduce, reduceCtorEq, Option.some.injEq] at hx <;> subst hx
  case vrsum st d a b p ty =>
    simp only [Instr.wf, Bool.and_eq_true] at hwf
    exact ⟨_, fun e he => treeLine_elem (levels_groups hwf.2) (sumStep ty) (sumIn ty) (sumOut ty) _ _ _ e he, rfl⟩
  case vrmax st d a b p ty =>
    simp only [Instr.wf, Bool.and_eq_true] at hwf
    refine ⟨rmaxLine ty (levels b ty) (s.rdP 7 p) (s.vsrc 0 a (tyBytes ty)), fun e he => ?_, rfl⟩
    have hline := treeLine_elem (levels_groups hwf.2) (maxStep ty) id id (s.rdP 7 p) (maxOff ty) (s.vsrc 0 a (tyBytes ty)) e he
    rw [List.map_id, List.map_id] at hline
    exact hline

/-- The words that write elements meet the checks on their queue operands. -/
theorem exec_vWord {s : State} {i : Instr} {x : VWord} (hx : vElement s i = some x ∨ vMove s i = some x ∨ vReduce s i = some x) :
    ∃ k, exec i s = issue .v x.st i (s.withQueues x.srcs (some (x.d, x.desz)) k) s := by
  rcases hx with hx | hx | hx
  · cases i <;> simp only [vElement, reduceCtorEq, Option.some.injEq] at hx <;> subst hx <;> exact ⟨_, rfl⟩
  · cases i <;> simp only [vMove, reduceCtorEq, Option.some.injEq] at hx <;> subst hx <;> exact ⟨_, rfl⟩
  · cases i <;> simp only [vReduce, reduceCtorEq, Option.some.injEq] at hx <;> subst hx <;> exact ⟨_, rfl⟩

/-- Settles O28: the reductions' lines are the tree's, and each check of the queue operands answers for every word that writes elements. -/
theorem vReduceResult : Obligations.VReduceResult := by
  refine ⟨fun s i x hx hi hready => ?_, fun s i x hx hi => ?_⟩
  · obtain ⟨v, hv, he⟩ := exec_vReduce hx hi
    obtain ⟨t, ht, hpast⟩ := exec_go hi he (withQueues_ready hready)
    exact ⟨v, t, hv, ht, hpast⟩
  · obtain ⟨k, he⟩ := exec_vWord hx
    exact ⟨fun h1 => exec_trap hi he (withQueues_badDirection h1),
      fun h1 h2 => exec_trap hi he (withQueues_badWidth h1 h2),
      fun h1 h2 h3 => exec_trap hi he (withQueues_noStore h1 h2 h3),
      fun h1 h2 h3 h4 => exec_stall hi he (withQueues_noHead h1 h2 h3 h4),
      fun h1 h2 h3 h4 h5 => exec_stall hi he (withQueues_full h1 h2 h3 h4 h5),
      fun h1 h2 h3 h4 h5 tv h6 => exec_trap hi he (withQueues_poisoned h1 h2 h3 h4 h5 h6)⟩

end Sys2Proof
end

section
/-! PROOF. The other words of V: branches, XPUT, VDPH, the shape unit's words and VJLIM. -/

namespace Sys2Proof

open Machine Spec

/-- Bit i of a predicate is its lane's. -/
theorem predOf_getLsbD (f : Nat → Bool) (i : Nat) (h : i < 256) : (predOf f).getLsbD i = f i := by
  have hdigit := packNat_digit 2 (by decide) ((List.range 256).map fun i => Machine.bit (f i)) i
  rw [List.getD_eq_getElem _ _ (by simpa using h), List.getElem_map, List.getElem_range] at hdigit
  unfold predOf
  rw [BitVec.getLsbD_ofNat, Nat.testBit_eq_decide_div_mod_eq, hdigit]
  cases f i <;> simp [Machine.bit, h]

/-- Element e of a line of words packed in order. -/
theorem packWords_elem (f : Nat → Nat) (e : Nat) (h : e < 256) : elemOf 4 (packElems 4 ((List.range 256).map f)) e = f e % 2 ^ 32 := moveLine_elem 4 f e h

/-- The word that XPUT places lies at its element. -/
theorem xput_elem (x k : Nat) (h : k < 256) : elemOf 4 (BitVec.ofNat 8192 (x % 2 ^ 32) <<< (32 * k)) k = x % 2 ^ 32 := by
  unfold elemOf
  have hword : (BitVec.ofNat 8192 (x % 2 ^ 32) <<< (32 * k)).extractLsb' (8 * 4 * k) (8 * 4) = BitVec.ofNat 32 x := by
    apply BitVec.eq_of_getLsbD_eq
    intro i hi
    rw [BitVec.getLsbD_extractLsb', BitVec.getLsbD_shiftLeft, BitVec.getLsbD_ofNat, BitVec.getLsbD_ofNat, Nat.testBit_mod_two_pow,
      show 8 * 4 * k + i - 32 * k = i by omega]
    simp [hi, show 8 * 4 * k + i < 8192 by omega, show ¬8 * 4 * k + i < 32 * k by omega, show i < 8192 by omega]
  rw [hword, BitVec.toNat_ofNat]

/-- XPUT writes the four bytes of its element. -/
theorem xput_enable (k j : Nat) (hj : j < 1024) : ((0xF : BitVec 1024) <<< (4 * k)).getLsbD j = decide (j / 4 = k) := by
  have hlow (i : Nat) (h : i < 1024) : (0xF : BitVec 1024).getLsbD i = decide (i < 4) := by
    rw [show (0xF : BitVec 1024) = BitVec.ofNat 1024 (2 ^ 4 - 1) from rfl, BitVec.getLsbD_ofNat, Nat.testBit_two_pow_sub_one]
    simp [h]
  rw [BitVec.getLsbD_shiftLeft, hlow _ (by omega), Bool.eq_iff_iff]
  simp only [Bool.and_eq_true, Bool.not_eq_true', decide_eq_true_eq, decide_eq_false_iff_not]
  omega

/-! ## The shape unit (R224) -/

theorem shapeBusy_of_running {s : State} {h : Shape} (hs : (here s).shape = some h) (hrem : h.rem ≠ 0) : s.shapeBusy = some .shapeUnitBusy := by
  unfold State.shapeBusy
  rw [show (s.coreAt s.cur).ctx.shape = some h from hs]
  exact if_neg hrem

theorem shapeBusy_of_idle {s : State} (h : ∀ u, (here s).shape = some u → u.rem = 0) : s.shapeBusy = none := by
  unfold State.shapeBusy
  cases hs : (s.coreAt s.cur).ctx.shape with
  | none => rfl
  | some u => exact if_pos (h u hs)

theorem withQueuesOr_busy {s : State} {srcs : List VOp} {dst : Option VOp} {k : Verdict} {h : Shape} (hready : queuesReady s srcs dst.toList)
    (hs : (here s).shape = some h) (hrem : h.rem ≠ 0) : s.withQueuesOr srcs dst s.shapeBusy k = .trap .shapeUnitBusy 0 := by
  rw [withQueuesOr_ready hready, shapeBusy_of_running hs hrem]

theorem withQueuesOr_idle {s : State} {srcs : List VOp} {dst : Option VOp} {k : Verdict} (hready : queuesReady s srcs dst.toList)
    (h : ∀ u, (here s).shape = some u → u.rem = 0) : s.withQueuesOr srcs dst s.shapeBusy k = k := by
  rw [withQueuesOr_ready hready, shapeBusy_of_idle h]

/-- Settles O33: the table of V's branches, XPUT and VDPH, the shape unit's words, and VJLIM's two results. -/
theorem vOtherWords : Obligations.VOtherWords := by
  refine ⟨⟨fun s i st taken target h hi => exec_vBranch h hi, fun s st a b vr hi => ?_, fun s st imm hi => issue_seq hi⟩,
    fun s st d a b p ty hi hready => ⟨fun h hs hrem => ?_, fun hidle => ?_⟩, fun s st d a b p ty hi hready => ⟨fun h hs hrem => ?_, fun hidle => ?_⟩,
    fun s st d a b p ty hi hready => ?_⟩
  · obtain ⟨t, ht, hpast⟩ := exec_go hi (v := xputV a b vr s) rfl rfl
    exact ⟨_, _, t, xput_elem _ _ (Nat.mod_lt _ (by decide)), fun j hj => xput_enable _ j hj, ht, hpast⟩
  · exact exec_trap hi rfl (withQueuesOr_busy (dst := none) hready hs hrem)
  · obtain ⟨t, ht, hpast⟩ := exec_go hi rfl (withQueuesOr_idle (dst := none) hready hidle)
    exact ⟨_, _, t, rfl, fun e he => predOf_getLsbD _ e he, ht, hpast⟩
  · exact exec_trap hi rfl (withQueuesOr_busy (dst := some (d, 3)) hready hs hrem)
  · obtain ⟨t, ht, hpast⟩ := exec_go hi rfl (withQueuesOr_idle (dst := some (d, 3)) hready hidle)
    exact ⟨_, _, t, rfl, fun e he => packWords_elem _ e he, ht, hpast⟩
  · obtain ⟨t, ht, hpast⟩ := exec_go hi rfl (withQueues_ready (dst := none) hready)
    refine ⟨_, _, t, fun e he => ⟨?_, ?_⟩, ht, hpast⟩
    · rw [List.map_map]; exact packWords_elem _ e he
    · rw [List.map_map]; exact packWords_elem _ e he

end Sys2Proof
end

section
/-! PROOF. The line and queue words of A: LDV, STV, QBIND, QPAT, QSTOP and QMC. -/

namespace Sys2Proof

open Machine Spec

/-! ## Vector accesses (R50, R55, R166) -/

theorem firstFault_of_found {ι : Type} (ks : List ι) (g : ι → Dw) (f : ι → Nat) : firstFault (ks.map fun k => (g k, Tr.ok (f k))) = none := by
  unfold firstFault
  induction ks with
  | nil => rfl
  | cons k ks ih => exact ih

/-- An access whose parts are all found is found. -/
theorem translateWhole_found {ι : Type} {s : State} {n : CoreId} {ctx : Fin 64} {p : Fin 32} {ag : Agent} {need : Need} {al : Nat} (ks : List ι)
    (g : ι → Dw × Nat) (f : ι → Nat)
    (h : ∀ k ∈ ks, translate s n ctx p ag false need (decide ((g k).1.toNat % al ≠ 0)) (g k).1 (g k).2 = .ok (f k)) :
    translateWhole s n ctx p ag need al (ks.map g) = .ok (ks.map fun k => (f k, (g k).2)) := by
  have hparts : ((ks.map g).map fun a => (a.1, translate s n ctx p ag false need (decide (a.1.toNat % al ≠ 0)) a.1 a.2)) =
      ks.map fun k => ((g k).1, Tr.ok (f k)) := by
    rw [List.map_map]
    exact List.map_congr_left fun k hk => Prod.ext rfl (h k hk)
  have hmiss : ((ks.map fun k => ((g k).1, Tr.ok (f k))).find? fun a => decide (a.2 = .miss)) = none := by
    simp [List.find?_eq_none]
  unfold translateWhole
  simp only [hparts, hmiss, firstFault_of_found ks (fun k => (g k).1) f]
  refine (if_neg ?_).trans ?_
  · simp [List.any_map]
  · simp [List.zip_map']

theorem range_getD (l : List Nat) (n : Nat) (h : l.length = n) : ((List.range n).map fun i => l.toArray.getD i 0) = l := by
  subst h
  apply List.ext_getElem
  · simp
  · intro i h1 h2
    simp [h2]

/-- A vector access whose sixteen blocks are found goes on with them. -/
theorem withBlocks_found {s : State} {need : Need} {va : Dw} {blocks : List Nat} (h : foundBlocks s need va blocks) (k : List Nat → Verdict) :
    s.withBlocks need va k = k blocks := by
  obtain ⟨hrow, hlen, hfound⟩ := h
  have hwhole : translateWhole s s.cur (s.ctxOn s.cur) (s.partOn s.cur) (.seat .a) need 64
      ((List.range 16).map fun i => (va + BitVec.ofNat 64 (64 * i), 64)) = .ok ((List.range 16).map fun i => (blocks.toArray.getD i 0, 64)) :=
    translateWhole_found (List.range 16) (fun i => (va + BitVec.ofNat 64 (64 * i), 64)) (fun i => blocks.toArray.getD i 0)
      fun i hi => hfound ⟨i, List.mem_range.1 hi⟩
  unfold State.withBlocks
  rw [hrow, hwhole]
  simp only [Bool.false_eq_true, if_false, List.map_map]
  exact congrArg k (range_getD blocks 16 hlen)

theorem ea_eq (s : State) (b : BitVec 5) (off : BitVec 7) (unit : Nat) : s.ea b off unit = ea s b off unit := by
  unfold State.ea Spec.ea wrap
  have hoff : (sx off : Dw) = BitVec.ofInt 64 off.toInt := by rw [← sx_toInt off (by decide), BitVec.ofInt_toInt]
  rw [BitVec.ofInt_add, BitVec.ofInt_mul, BitVec.ofInt_toInt, BitVec.ofInt_natCast, hoff]

theorem ifRoom_full {s : State} {os : BitVec 2} (v : Verdict) (h : s.streamFull os = true) : s.ifRoom os v = .stall (s.why 13) := if_pos h

theorem ifRoom_room {s : State} {os : BitVec 2} (v : Verdict) (h : s.streamFull os = false) : s.ifRoom os v = v := by
  unfold State.ifRoom
  rw [h]
  exact if_neg Bool.false_ne_true

/-! ## LDV and STV (R166) -/

section Lines
variable {s : State} {t b : BitVec 5} {os : BitVec 2} {pm : BitVec 4} {off : BitVec 7} {blocks : List Nat}

theorem ldvV_found (hdir : (s.queueAt (queueNo t)).dir = 1) (hpat : (s.queueAt (queueNo t)).pat = false)
    (hfound : foundBlocks s needRd (ea s b off 1024) blocks) : ldvV t b os pm off s =
      if (s.queueAt (queueNo t)).noRoom then .stall (s.why 15)
      else s.ifRoom os (.go ((s.issueOp os pm (.ldv blocks (ea s b off 1024) (queueNo t) s.nextId) false).modCtx s.cur fun x =>
        x.setQueue (queueNo t) ((x.queue (queueNo t)).reserve s.nextId)) .seq) := by
  rw [← ea_eq] at hfound ⊢
  exact (if_neg (not_not.2 hdir)).trans ((if_neg (Bool.eq_false_iff.1 hpat)).trans (withBlocks_found hfound _))

theorem stvV_found (hdir : (s.queueAt (queueNo t)).dir = 2) (hpat : (s.queueAt (queueNo t)).pat = false)
    (hfound : foundBlocks s needWr (ea s b off 1024) blocks) : stvV t b os pm off s =
      if blocks.any fun pa => s.hitsSlot pa 64 then .trap .liveSlot (ea s b off 1024)
      else match (s.queueAt (queueNo t)).head with
        | none => .stall (s.why 14)
        | some e => s.ifRoom os (match e.poison with
          | some tv => .trap .poisonedHead tv
          | none => .go ((s.issueOp os pm (.stv blocks e.data) false).modCtx s.cur fun x =>
              x.setQueue (queueNo t) (x.queue (queueNo t)).take) .seq) := by
  rw [← ea_eq] at hfound ⊢
  exact (if_neg (not_not.2 hdir)).trans ((if_neg (Bool.eq_false_iff.1 hpat)).trans (withBlocks_found hfound _))

theorem stvV_live (hdir : (s.queueAt (queueNo t)).dir = 2) (hpat : (s.queueAt (queueNo t)).pat = false)
    (hfound : foundBlocks s needWr (ea s b off 1024) blocks) (hlive : ∃ pa ∈ blocks, s.hitsSlot pa 64 = true) :
    stvV t b os pm off s = .trap .liveSlot (ea s b off 1024) := (stvV_found hdir hpat hfound).trans (if_pos (List.any_eq_true.2 hlive))

/-- STV whose blocks hold no live slot looks at the head of its queue. -/
theorem stvV_free (hdir : (s.queueAt (queueNo t)).dir = 2) (hpat : (s.queueAt (queueNo t)).pat = false)
    (hfound : foundBlocks s needWr (ea s b off 1024) blocks) (hfree : ∀ pa ∈ blocks, s.hitsSlot pa 64 = false) : stvV t b os pm off s =
      match (s.queueAt (queueNo t)).head with
        | none => .stall (s.why 14)
        | some e => s.ifRoom os (match e.poison with
          | some tv => .trap .poisonedHead tv
          | none => .go ((s.issueOp os pm (.stv blocks e.data) false).modCtx s.cur fun x =>
              x.setQueue (queueNo t) (x.queue (queueNo t)).take) .seq) := by
  refine (stvV_found hdir hpat hfound).trans (if_neg fun hlive => ?_)
  obtain ⟨pa, hmem, hpa⟩ := List.any_eq_true.1 hlive
  rw [hfree pa hmem] at hpa
  cases hpa

end Lines

theorem not_isSome {α : Type} {o : Option α} (h : o = none) : ¬o.isSome = true := by rw [h]; exact Bool.false_ne_true

/-! ## Patterns (R170, R172) -/

theorem setWidth_toFin_eq {c : BitVec 5} {g : Fin 4} (h : c.toNat = g.val) : (c.setWidth 2).toFin = g := by
  apply Fin.ext
  change (c.setWidth 2).toNat = g.val
  rw [BitVec.toNat_setWidth, h, Nat.mod_eq_of_lt g.isLt]

/-- A pattern of queue q told to stop. -/
def stopPattern (q : BitVec 3) (p : Option Pattern) : Option Pattern := p.map fun p => if p.q = q then { p with stop := true } else p

/-- QSTOP tells the pattern that holds its queue to stop. -/
theorem qstopV_held {s : State} {d : BitVec 5} {g : Fin 4} {p : Pattern} (hpat : (s.queueAt (queueNo d)).pat = true)
    (hp : (s.coreAt s.cur).pats.get g = some p) (hq : p.q = queueNo d) :
    qstopV d s = .go (s.modCore s.cur fun c => { c with pats := c.pats.map (stopPattern (queueNo d)) }) .seq := by
  have hmem : some p ∈ (s.coreAt s.cur).pats.toList := by
    rw [← hp]
    exact Vector.mem_toList_iff.2 (Vector.getElem_mem g.isLt)
  refine (if_neg (by rw [show (s.queueAt (qOf d)).pat = true from hpat]; simp)).trans (if_pos (List.any_eq_true.2 ⟨some p, hmem, ?_⟩))
  exact decide_eq_true hq

/-- A defined QBIND names no direction 3. -/
theorem qbind_direction {s : State} {k : SeatId} {st : Bool} {d : BitVec 5} {e r : BitVec 2} (h : Issues s k st (.qbind st d e r)) : r ≠ 3 := by
  have hwf := h.wf
  simp only [Instr.wf, Bool.and_eq_true, decide_eq_true_eq] at hwf
  rintro rfl
  exact absurd hwf.2 (by decide)

/-- Settles O24: LDV and STV after their blocks are found, then the queue's words in the order of their checks. -/
theorem lineAndQueueWords : Obligations.LineAndQueueWords := by
  refine ⟨⟨fun s st t b os pm off hi => ⟨fun hdir => ?_, fun hdir hpat => ?_, fun blocks hdir hpat hfound => ⟨fun hfull => ?_, fun hroom hos => ?_,
      fun hroom hos => ?_⟩⟩,
    fun s st t b os pm off hi => ⟨fun hdir => ?_, fun hdir hpat => ?_, fun blocks hdir hpat hfound => ⟨fun hlive => ?_, fun hfree =>
      ⟨fun hhead => ?_, fun e hhead hos => ?_, fun e tv hhead hpoison hos => ?_, fun e hhead hpoison hos => ?_⟩⟩⟩⟩,
    fun s st d e r hi => ⟨fun hbusy => ?_, fun hents hpat => ?_⟩,
    fun s st t b os pm c g hi hc => ⟨fun hrun => ?_, fun hrun hpat => ?_, fun hrun hpat hdir => ?_, fun hrun hpat hdir hplay hos => ?_⟩,
    fun s st d hi => ⟨fun hpat => ?_, fun g p hpat hp hq => ?_⟩,
    fun s st t b os pm c hi => ⟨fun hrun => ?_, fun hrun hplay hos => ?_⟩⟩
  · exact exec_trap hi (v := ldvV t b os pm off s) rfl (if_pos hdir)
  · exact exec_trap hi (v := ldvV t b os pm off s) rfl ((if_neg (not_not.2 hdir)).trans (if_pos hpat))
  · exact exec_stall hi (v := ldvV t b os pm off s) rfl ((ldvV_found hdir hpat hfound).trans (if_pos (decide_eq_true hfull)))
  · exact exec_stall hi (v := ldvV t b os pm off s) rfl
      ((ldvV_found hdir hpat hfound).trans ((if_neg (mt of_decide_eq_true (Nat.not_le.2 hroom))).trans (ifRoom_full _ hos)))
  · exact exec_go hi (v := ldvV t b os pm off s) rfl
      ((ldvV_found hdir hpat hfound).trans ((if_neg (mt of_decide_eq_true (Nat.not_le.2 hroom))).trans (ifRoom_room _ hos)))
  · exact exec_trap hi (v := stvV t b os pm off s) rfl (if_pos hdir)
  · exact exec_trap hi (v := stvV t b os pm off s) rfl ((if_neg (not_not.2 hdir)).trans (if_pos hpat))
  · exact exec_trap hi (v := stvV t b os pm off s) rfl (stvV_live hdir hpat hfound hlive)
  · exact exec_stall hi (v := stvV t b os pm off s) rfl (by rw [stvV_free hdir hpat hfound hfree, hhead])
  · exact exec_stall hi (v := stvV t b os pm off s) rfl (by rw [stvV_free hdir hpat hfound hfree, hhead]; exact ifRoom_full _ hos)
  · exact exec_trap hi (v := stvV t b os pm off s) rfl (by rw [stvV_free hdir hpat hfound hfree, hhead]; dsimp only; rw [ifRoom_room _ hos, hpoison])
  · exact exec_go hi (v := stvV t b os pm off s) rfl (by rw [stvV_free hdir hpat hfound hfree, hhead]; dsimp only; rw [ifRoom_room _ hos, hpoison])
  · exact exec_trap hi (v := qbindV d r e s) rfl ((if_neg (qbind_direction hi)).trans (if_pos hbusy))
  · exact exec_go hi (v := qbindV d r e s) rfl ((if_neg (qbind_direction hi)).trans (if_neg (not_or.2 ⟨not_not.2 hents, Bool.eq_false_iff.1 hpat⟩)))
  · obtain rfl := setWidth_toFin_eq hc
    exact exec_trap hi (v := qpatV t b os pm c s) rfl (if_pos hrun)
  · obtain rfl := setWidth_toFin_eq hc
    exact exec_trap hi (v := qpatV t b os pm c s) rfl ((if_neg (not_isSome hrun)).trans (if_pos hpat))
  · obtain rfl := setWidth_toFin_eq hc
    exact exec_trap hi (v := qpatV t b os pm c s) rfl ((if_neg (not_isSome hrun)).trans ((if_neg (Bool.eq_false_iff.1 hpat)).trans (if_pos hdir)))
  · obtain rfl := setWidth_toFin_eq hc
    exact exec_go hi (v := qpatV t b os pm c s) rfl ((if_neg (not_isSome hrun)).trans ((if_neg (Bool.eq_false_iff.1 hpat)).trans
      ((if_neg hdir).trans ((if_neg (Bool.eq_false_iff.1 hplay)).trans (ifRoom_room _ hos)))))
  · exact exec_go hi (v := qstopV d s) rfl (if_pos (by rw [show (s.queueAt (qOf d)).pat = false from hpat]; rfl))
  · obtain ⟨w, hw, hpast⟩ := exec_go hi (v := qstopV d s) rfl (qstopV_held hpat hp hq)
    refine ⟨w, _, hw, hpast, ?_⟩
    rw [State.coreAt_modCore]
    have hget : ((s.coreAt s.cur).pats.map (stopPattern (queueNo d))).get g = stopPattern (queueNo d) ((s.coreAt s.cur).pats.get g) := Vector.getElem_map ..
    rw [hget, hp]
    simp [stopPattern, hq]
  · exact exec_trap hi (v := qmcV t b os pm c s) rfl (if_pos hrun)
  · exact exec_go hi (v := qmcV t b os pm c s) rfl 
      ((if_neg (not_isSome hrun)).trans ((if_neg (Bool.eq_false_iff.1 hplay)).trans (ifRoom_room _ hos)))

end Sys2Proof
end

section
/-! PROOF. The words of A that make one access: what a translation that fails does, and the loads, stores, atomics, ring and chain words that join their
stream. -/

namespace Sys2Proof

open Machine Spec

/-! ## One access (R50 to R56, R163) -/

section Access
variable {s : State} {need : Need} {al size pa : Nat} {va : Dw} {k : Nat → Verdict}

theorem withA_eq : s.withA need al size va k = match found s ⟨need, al, size, va⟩ with
    | .ok pa => k pa
    | .fault c => .trap c va
    | .miss => .stall (s.addMiss s.cur (s.ctxOn s.cur) (.seat .a) va)
    | .breaks _ => .stall (s.freezeCore s.cur .protection) := rfl

theorem withA_ok (h : found s ⟨need, al, size, va⟩ = .ok pa) : s.withA need al size va k = k pa := by rw [withA_eq, h]

theorem withA_fault {q : Cause} (h : found s ⟨need, al, size, va⟩ = .fault q) : s.withA need al size va k = .trap q va := by rw [withA_eq, h]

theorem withA_miss (h : found s ⟨need, al, size, va⟩ = .miss) :
    s.withA need al size va k = .stall (s.addMiss s.cur (s.ctxOn s.cur) (.seat .a) va) := by rw [withA_eq, h]

theorem withA_breaks (h : found s ⟨need, al, size, va⟩ = .breaks pa) : s.withA need al size va k = .stall (s.freezeCore s.cur .protection) := by
  rw [withA_eq, h]

end Access

/-! ## The table of accesses -/

/-- The word at physical address pa joins its stream in state u: it returns a value, or leaves its operation. -/
def Joins (s : State) (os : BitVec 2) (x : Access) (i : Instr) (pa : Nat) (u : State) : Prop :=
  (∃ pm t lat kind, loadWord s pa i = some (pm, t, lat, kind) ∧ u = s.issueLoad os pm kind t lat false x.va) ∨
  (∃ pm kind, storeWord s pa i = some (pm, kind) ∧ u = s.issueOp os pm kind false (keptVa x i))

/-- An atomic's access is of 8 bytes or of 4 (R174). -/
theorem amoAccess_eq (fn : BitVec 2) (va : Dw) : (if fn = 1 then (⟨needAt, 8, 8, va⟩ : Access) else ⟨needAt, 4, 4, va⟩) =
    ⟨needAt, if fn = 1 then 8 else 4, if fn = 1 then 8 else 4, va⟩ := by split <;> rfl

/-- Every word of the table translates its access first; one that joins its stream then refuses a live slot, and looks for room. -/
theorem exec_access {s : State} {i : Instr} {st : Bool} {os : BitVec 2} {x : Access} (h : access s i = some (st, os, x)) :
    ∃ k : Nat → Verdict, exec i s = issue .a st i (s.withA x.need x.align x.size x.va k) s ∧
      ∀ pa u, Joins s os x i pa u → k pa = if meetsSlot s pa x i then .trap .liveSlot x.va else s.ifRoom os (.go u .seq) := by
  cases i <;> simp only [access, amoAccess_eq, ← ea_eq, reduceCtorEq, Option.some.injEq, Prod.mk.injEq] at h <;> obtain ⟨rfl, rfl, rfl⟩ := h
  -- the rule of each word of the table is a `withA`; what stands behind it matters only where one of the two tables names the word
  all_goals
    refine ⟨_, rfl, ?_⟩
    rintro pa u (⟨pm, t, lat, kind, hload, rfl⟩ | ⟨pm, kind, hstore, rfl⟩)
    · cases hload <;> rfl
    · cases hstore <;> rfl

/-- Settles O20: every word of the table is a `withA`, and its translation decides. -/
theorem accessFaults : Obligations.AccessFaults := by
  intro s i st os x h hi
  obtain ⟨k, hk, -⟩ := exec_access h
  exact ⟨fun q hq => exec_trap hi hk (withA_fault hq), fun hmiss => exec_stall hi hk (withA_miss hmiss),
    fun pa hbreaks => exec_stall hi hk (withA_breaks hbreaks)⟩

/-! ## Words that join their stream (R58, R61, R74) -/

/-- What a word does whose access is found: a live slot refuses it, a full stream makes it wait, else it joins its stream. -/
theorem access_joins {s u : State} {i : Instr} {st : Bool} {os : BitVec 2} {x : Access} {pa : Nat} (h : access s i = some (st, os, x))
    (hi : Issues s .a st i) (hfound : found s x = .ok pa) (hjoins : Joins s os x i pa u) :
    (meetsSlot s pa x i = true → ∃ w, exec i s = .next w ∧ Trapped .a .liveSlot x.va s w) ∧
    (meetsSlot s pa x i = false → s.streamFull os = true → ∃ w, exec i s = .next w ∧ Waits (s.why 13) w) ∧
    (meetsSlot s pa x i = false → s.streamFull os = false → ∃ w, exec i s = .next w ∧ Past .a ToNext u w) := by
  obtain ⟨k, hk, hrule⟩ := exec_access h
  have hverdict := (withA_ok (k := k) hfound).trans (hrule pa u hjoins)
  refine ⟨fun hlive => ?_, fun hfree hfull => ?_, fun hfree hroom => ?_⟩
  · exact exec_trap hi hk (hverdict.trans (if_pos hlive))
  · exact exec_stall hi hk (hverdict.trans ((if_neg (Bool.eq_false_iff.1 hfree)).trans (ifRoom_full _ hfull)))
  · exact exec_go hi hk (hverdict.trans ((if_neg (Bool.eq_false_iff.1 hfree)).trans (ifRoom_room _ hroom)))

/-- Settles O21: the words that return a value join their stream by `issueLoad`. -/
theorem loadsIssue : Obligations.LoadsIssue :=
  fun _ _ _ _ _ _ pm t lat kind h hload hi hfound => access_joins h hi hfound (.inl ⟨pm, t, lat, kind, hload, rfl⟩)

/-- Settles O22: the words that return no value join their stream by `issueOp`. -/
theorem storesIssue : Obligations.StoresIssue :=
  fun _ _ _ _ _ _ pm kind h hstore hi hfound => access_joins h hi hfound (.inr ⟨pm, kind, hstore, rfl⟩)

end Sys2Proof
end

section
/-! PROOF. What issuing one memory operation changes, and its frame (R58 to R60, R85). -/

namespace Sys2Proof

open Machine Spec

/-- The acquires an operation follows are those that its predecessor streams cover (R60, R85). -/
theorem mem_coverOf (x : Ctx) (pm : BitVec 4) (a : Nat) : a ∈ x.coverOf pm ↔ ∃ i : Fin 4, pm.getLsbD i.val = true ∧ a ∈ x.scov.get i := by
  have hget (i : Fin 4) : x.scov.toArray.getD i.val [] = x.scov.get i := by
    simp [Vector.get_eq_getElem, Array.getD_eq_getD_getElem?]
  unfold Ctx.coverOf
  rw [List.mem_flatMap]
  constructor
  · rintro ⟨i, hi, ha⟩
    obtain ⟨hpm, ha⟩ : pm.getLsbD i = true ∧ a ∈ x.scov.toArray.getD i [] := by
      split at ha
      · exact ⟨‹_›, ha⟩
      · cases ha
    exact ⟨⟨i, List.mem_range.1 hi⟩, hpm, (hget ⟨i, List.mem_range.1 hi⟩) ▸ ha⟩
  · rintro ⟨i, hpm, ha⟩
    exact ⟨i.val, List.mem_range.2 i.isLt, by rw [if_pos hpm, hget]; exact ha⟩

/-- The operation that issue adds to the pipeline (R58, R59). -/
def issuedOp (s : State) (os : BitVec 2) (pm : BitVec 4) (kind : OpKind) (va : Dw) : MemOp :=
  { id := s.nextId, os := os, pm := pm, scope := ((here s).seat .a).osb.get os.toFin, owner := s.serial, kind := kind, done := [], bad := [],
    homed := false, cov := (here s).coverOf pm, pc := s.pcOf .a, va := va, buf := 0, reply := none }

/-- The context after issue: the stream has one operation more issued, and covers what the operation follows and acquires (R60, R85). -/
def issuedCtx (s : State) (os : BitVec 2) (pm : BitVec 4) (acq : Bool) : Ctx :=
  { here s with osiss := (here s).osiss.set os.toFin ((here s).osiss.get os.toFin + 1)
                scov := (here s).scov.set os.toFin
                  (((here s).scov.get os.toFin) ++ (here s).coverOf pm ++ (if acq then [s.nextId] else [])).eraseDups }

/-- Outside a play run issue changes the pipeline and the context of the current core, and takes an identity. -/
theorem issueOp_eq {s : State} (os : BitVec 2) (pm : BitVec 4) (kind : OpKind) (acq : Bool) (va : Dw) (hplay : s.playing s.cur = false) :
    s.issueOp os pm kind acq va = { s.setCore s.cur { s.coreAt s.cur with
      ctx := issuedCtx s os pm acq, ops := (s.coreAt s.cur).ops ++ [issuedOp s os pm kind va] } with nextId := s.nextId + 1 } := by
  unfold State.issueOp
  rw [hplay]
  rfl

theorem coreAt_issueOp {s : State} (os : BitVec 2) (pm : BitVec 4) (kind : OpKind) (acq : Bool) (va : Dw) (hplay : s.playing s.cur = false) :
    (s.issueOp os pm kind acq va).coreAt s.cur = { s.coreAt s.cur with
      ctx := issuedCtx s os pm acq, ops := (s.coreAt s.cur).ops ++ [issuedOp s os pm kind va] } := by
  rw [issueOp_eq _ _ _ _ _ hplay]
  exact State.coreAt_setCore ..

theorem issueOp_cur (s : State) (os : BitVec 2) (pm : BitVec 4) (kind : OpKind) (acq : Bool) (va : Dw) :
    (s.issueOp os pm kind acq va).cur = s.cur := by
  unfold State.issueOp
  dsimp only
  split <;> rfl

theorem here_issueOp {s : State} (os : BitVec 2) (pm : BitVec 4) (kind : OpKind) (acq : Bool) (va : Dw) (hplay : s.playing s.cur = false) :
    here (s.issueOp os pm kind acq va) = issuedCtx s os pm acq := by
  unfold here
  rw [issueOp_cur, coreAt_issueOp _ _ _ _ _ hplay]

/-- What a stream covers after issue. -/
theorem mem_issuedCtx_scov (s : State) (os : BitVec 2) (pm : BitVec 4) (acq : Bool) (a : Nat) : a ∈ (issuedCtx s os pm acq).scov.get os.toFin ↔
    a ∈ (here s).scov.get os.toFin ∨ a ∈ (here s).coverOf pm ∨ acq = true ∧ a = s.nextId := by
  unfold issuedCtx
  dsimp only
  rw [show (((here s).scov.set os.toFin _ _).get os.toFin) = _ from Vector.getElem_set_self .., List.mem_eraseDups, List.mem_append, List.mem_append, or_assoc]
  cases acq <;> simp

/-- Settles O23: the core and the context that `issueOp` leaves, read field by field. -/
theorem operationIssued : Obligations.OperationIssued := by
  intro s os pm kind acq va hplay u
  have hcore : u.coreAt s.cur = _ := coreAt_issueOp os pm kind acq va hplay
  have hhere : here u = _ := here_issueOp os pm kind acq va hplay
  have hu : u = _ := issueOp_eq os pm kind acq va hplay
  rw [hcore, hhere]
  refine ⟨⟨issuedOp s os pm kind va, rfl, rfl, rfl, rfl, rfl, rfl, rfl, rfl, rfl, rfl, rfl, rfl, mem_coverOf _ _, mem_issuedCtx_scov s os pm acq⟩,
    by rw [hu], Vector.getElem_set_self .., fun j hj => ?_, rfl, rfl, fun m hm => ?_, State.issueOp_mem .., by rw [hu]; rfl⟩
  · have hne : os.toFin.val ≠ j.val := fun h => hj (Fin.ext h.symm)
    exact ⟨Vector.getElem_set_ne os.toFin.isLt j.isLt hne, Vector.getElem_set_ne os.toFin.isLt j.isLt hne⟩
  · rw [hu]
    exact State.coreAt_setCore_ne _ _ _ _ hm

end Sys2Proof
end

section
/-! PROOF. The words of A that wait at the head of their seat, AREAD, and the copy words (R60, R70, R85, R177 to R187, R196, R334). -/

namespace Sys2Proof

open Machine Spec

theorem exec_stay {s u : State} {k : SeatId} {st : Bool} {i : Instr} {v : Verdict} (hi : Issues s k st i) (he : exec i s = issue k st i v s)
    (hv : v = .go u .stay) : ∃ t, exec i s = .next t ∧ Past k Stays u t := by
  rw [he, hv]; exact issue_stay hi

/-! ## ASET, AFREE and WAITA (R177, R178, R196) -/

section Words
variable {s : State} {t b : BitVec 5} {os : BitVec 2} {pm : BitVec 4} {off : BitVec 7} {pa : Nat}

theorem asetV_found {spa rpa : Nat} (hslot : found s ⟨needRw, 1, 16, s.rdA 1 b⟩ = .ok spa) (hrec : found s ⟨needRd, 64, 64, s.rdA 0 t⟩ = .ok rpa)
    (hroom : s.streamFull os = false) : asetV t b os pm s =
      .go ((s.issueOp os pm (.aset rpa spa 0 (s.rdA 0 t)) false (s.rdA 1 b)).modCtx s.cur fun x => { x with await := some (.answer s.nextId) }) .stay :=
  (withA_ok hslot).trans ((withA_ok hrec).trans (ifRoom_room _ hroom))

theorem afreeV_found (hfound : found s ⟨needRw, 16, 16, ea s b off 16⟩ = .ok pa) (hroom : s.streamFull os = false) : afreeV b os pm off s =
    .go ((s.issueOp os pm (.afree pa) false (ea s b off 16)).modCtx s.cur fun x => { x with await := some (.answer s.nextId) }) .stay := by
  rw [← ea_eq] at hfound ⊢
  exact (withA_ok hfound).trans (ifRoom_room _ hroom)

theorem waitaV_found (hfound : found s ⟨needRd, 64, 64, ea s b off 64⟩ = .ok pa) : waitaV b os pm off s =
    if !s.maskDone pm then .stall (s.why 17)
    else s.ifRoom os (.go ((s.issueOp os pm (.waita pa) false).modCtx s.cur fun x => { x with await := some (.line s.nextId pa false) }) .seq) := by
  rw [← ea_eq] at hfound
  exact withA_ok hfound

/-! ## AREAD (R180) -/

/-- The slot whose view ea names is aligned, so that its alignment is no check of its own. -/
theorem found_viewed {need : Need} (e : Dw) : found s ⟨need, 16, 16, e - BitVec.ofNat 64 (e.toNat % 16)⟩ =
    found s ⟨need, 1, 16, e - BitVec.ofNat 64 (e.toNat % 16)⟩ := by
  have haligned : (e - BitVec.ofNat 64 (e.toNat % 16)).toNat % 16 = 0 := by
    rw [BitVec.toNat_sub, BitVec.toNat_ofNat]
    omega
  unfold found
  simp only [haligned, Nat.mod_one]

theorem areadV_view (hsel : (ea s b off 16).toNat % 16 ≤ 4)
    (hfound : found s ⟨needRd, 16, 16, ea s b off 16 - BitVec.ofNat 64 ((ea s b off 16).toNat % 16)⟩ = .ok pa) (hroom : s.streamFull os = false) :
    areadV t b os pm off s =
      .go (s.issueLoad os pm (fun d => .aread pa ((ea s b off 16).toNat % 16) d) t 8 true (ea s b off 16)) .seq := by
  rw [found_viewed] at hfound
  rw [← ea_eq] at hsel hfound ⊢
  unfold areadV
  simp only [if_neg (Nat.not_le.2 (Nat.lt_succ_of_le hsel))]
  exact (withA_ok hfound).trans (ifRoom_room _ hroom)

theorem areadV_noView {q : Cause} (hsel : 5 ≤ (ea s b off 16).toNat % 16) (hfault : found s ⟨needRd, 16, 1, ea s b off 16⟩ = .fault q) :
    areadV t b os pm off s = .trap q (ea s b off 16) := by
  rw [← ea_eq] at hsel hfault ⊢
  unfold areadV
  simp only [if_pos hsel]
  exact withA_fault hfault

/-! ## AWAIT (R75, R85, R179) -/

/-- AWAIT stands at the head of its seat, waiting as w says. -/
def waiting (u : State) (w : AWait) : Verdict := .stall ((u.why 17).modCtx u.cur fun x => { x with await := some w })

/-- AWAIT comes to wait in a state u of the same core. -/
theorem exec_waiting {u : State} {st : Bool} {w : AWait} (hi : Issues s .a st (.await st t b os pm off)) (hcur : u.cur = s.cur)
    (hv : awaitV t b os pm off s = waiting u w) : ∃ v, exec (.await st t b os pm off) s = .next v ∧
      Waits ((u.why 17).modCtx s.cur fun x => { x with await := some w }) v :=
  exec_stall hi (v := awaitV t b os pm off s) rfl (by rw [hv, waiting, hcur])

theorem logWake_cur (s : State) (n : CoreId) (k : SeatId) : (s.logWake n k).cur = s.cur :=
  iteInduction (motive := fun u : State => u.cur = s.cur) (fun _ => rfl) fun _ => rfl

theorem wakeLine_cur (s : State) (pa n : Nat) : (s.wakeLine pa n).cur = s.cur :=
  iteInduction (motive := fun u : State => u.cur = s.cur) (fun _ => rfl) fun _ => rfl

theorem modSlot_cur (s : State) (pa : Nat) (f : Slot → Slot) : (s.modSlot pa f).cur = s.cur :=
  iteInduction (motive := fun u : State => u.cur = s.cur) (fun _ => wakeLine_cur ..) fun _ => rfl

/-- AWAIT where no wait stands, its access found: first its predecessors, then its slot. -/
theorem awaitV_starts (hplay : s.playing s.cur = false) (hawait : (here s).await = none) (hfound : found s ⟨needRd, 16, 16, ea s b off 16⟩ = .ok pa) :
    awaitV t b os pm off s =
      if !s.maskDone pm then .stall (s.why 17)
      else match s.slot? pa with
        | none => .trap .slotState (ea s b off 16)
        | some z =>
          if z.poisoned then .trap .data (ea s b off 16)
          else if z.phase ≠ (s.rdA 0 t).getLsbD 0 then waiting (s.logWake s.cur .a) (.await pa ((s.rdA 0 t).getLsbD 0) false (some s.nextId))
          else if 65535 ≤ z.waiters.length then waiting s (.await pa ((s.rdA 0 t).getLsbD 0) true none)
          else waiting (s.modSlot pa fun u => { u with waiters := u.waiters ++ [.await s.cur] }) (.await pa ((s.rdA 0 t).getLsbD 0) false none) := by
  rw [← ea_eq] at hfound ⊢
  unfold awaitV
  rw [show (s.coreAt s.cur).ctx.await = none from hawait]
  refine (withA_ok hfound).trans ?_
  rw [hplay]
  rfl

/-- AWAIT that has read its slot's phase registers with it, or polls where it has 65,535 waiters; a phase that stands already releases it. -/
theorem awaitV_reads {z : Slot} (hplay : s.playing s.cur = false) (hawait : (here s).await = none)
    (hfound : found s ⟨needRd, 16, 16, ea s b off 16⟩ = .ok pa) (hpre : s.maskDone pm = true) (hz : s.slot? pa = some z) (hpoison : z.poisoned = false) :
    awaitV t b os pm off s =
      if z.phase ≠ (s.rdA 0 t).getLsbD 0 then waiting (s.logWake s.cur .a) (.await pa ((s.rdA 0 t).getLsbD 0) false (some s.nextId))
      else if 65535 ≤ z.waiters.length then waiting s (.await pa ((s.rdA 0 t).getLsbD 0) true none)
      else waiting (s.modSlot pa fun u => { u with waiters := u.waiters ++ [.await s.cur] }) (.await pa ((s.rdA 0 t).getLsbD 0) false none) := by
  rw [awaitV_starts hplay hawait hfound, hpre, hz]
  exact if_neg (Bool.eq_false_iff.1 hpoison)

/-- What AWAIT does at its wait, once its slot is not poisoned: released it issues, else its slot must live still. -/
def awaitGoes (s : State) (os : BitVec 2) (pm : BitVec 4) (pa : Nat) (ph polling : Bool) (va : Dw) : Option Nat → Verdict
  | some at_ => s.ifRoom os (.go ((s.issueDone os pm (some (pa, at_))).modCtx s.cur fun x => { x with await := none }) .seq)
  | none => if (s.slot? pa).isNone then .trap .slotState va else waiting s (.await pa ph polling none)

theorem awaitV_stands {ph polling : Bool} {at_ : Option Nat} (hplay : s.playing s.cur = false)
    (hawait : (here s).await = some (.await pa ph polling at_)) : awaitV t b os pm off s =
      if (match s.slot? pa with | some z => z.poisoned | none => false) then .trap .data (ea s b off 16)
      else awaitGoes s os pm pa ph polling (ea s b off 16) at_ := by
  rw [← ea_eq]
  unfold awaitV
  rw [show (s.coreAt s.cur).ctx.await = _ from hawait]
  dsimp only
  rw [hplay]
  rfl

theorem awaitV_poisoned {ph polling : Bool} {at_ : Option Nat} (hplay : s.playing s.cur = false)
    (hawait : (here s).await = some (.await pa ph polling at_)) (hslot : ∃ z, s.slot? pa = some z ∧ z.poisoned = true) :
    awaitV t b os pm off s = .trap .data (ea s b off 16) := by
  obtain ⟨z, hz, hpoison⟩ := hslot
  rw [awaitV_stands hplay hawait, hz]
  exact if_pos hpoison

theorem awaitV_sound {ph polling : Bool} {at_ : Option Nat} (hplay : s.playing s.cur = false)
    (hawait : (here s).await = some (.await pa ph polling at_)) (hslot : ∀ z, s.slot? pa = some z → z.poisoned = false) :
    awaitV t b os pm off s = awaitGoes s os pm pa ph polling (ea s b off 16) at_ := by
  rw [awaitV_stands hplay hawait]
  refine if_neg ?_
  cases hz : s.slot? pa with
  | none => exact Bool.false_ne_true
  | some z => exact Bool.eq_false_iff.1 (hslot z hz)

end Words

/-! ## Copy words (R185, R187, R334, R335) -/

/-- The copy engine has no entry for a command, or commands stand in the spill ring before it (R187, R334). -/
def spills (c : Core) : Bool := decide (64 ≤ c.engineEntries) || c.copies.any fun k : Copy => k.spilled

theorem spills_iff (c : Core) : spills c = true ↔ 64 ≤ (c.copies.filter fun k => !k.spilled).length ∨ ∃ k ∈ c.copies, k.spilled = true := by
  rw [spills, Bool.or_eq_true, decide_eq_true_eq, List.any_eq_true]
  rfl

section Copies
variable {s : State} {i : Instr} {st : Bool} {os : BitVec 2} {x : Access} {pa : Nat} {pm : BitVec 4} {code : BitVec 8}

/-- What a copy word does that finds its record and the latch empty. -/
def copyEnters (s : State) (os : BitVec 2) (pm : BitVec 4) (code : BitVec 8) (va : Dw) : Verdict :=
  let k := mkCopy s code va (some s.nextId) (spills (s.coreAt s.cur))
  let u := s.issueOp os pm (.copy s.nextId) false
  if !spills (s.coreAt s.cur) then .go (u.modCore s.cur fun c => { c with copies := c.copies ++ [k] }) .seq
  else match u.spillWrite s.cur k os pm with
    | .written z => .go (z.modCore z.cur fun c => { c with copies := c.copies ++ [k] }) .seq
    | .faults => .go (u.modCore s.cur fun c => { c with latch := some k }) .seq
    | .breaks => .go ((u.modCore s.cur fun c => { c with latch := some k }).freezeCore s.cur .protection) .seq

theorem copyV_found {b : BitVec 5} {off : BitVec 7} (hplay : s.playing s.cur = false) (hfound : found s ⟨needRw, 64, 64, s.ea b off 64⟩ = .ok pa) :
    copyV code b os pm off s =
      if (s.coreAt s.cur).latch.isSome then .stall s else s.ifRoom os (copyEnters s os pm code (s.ea b off 64)) := by
  refine (withA_ok hfound).trans ?_
  unfold copyEnters
  simp only [hplay, issueOp_cur]
  rfl

/-- A copy word whose record is found waits for a full latch, then for room in its stream. -/
theorem exec_copy (h : access s i = some (st, os, x)) (hc : copyWord i = some (pm, code)) (hplay : s.playing s.cur = false)
    (hfound : found s x = .ok pa) : exec i s = issue .a st i
      (if (s.coreAt s.cur).latch.isSome then .stall s else s.ifRoom os (copyEnters s os pm code x.va)) s := by
  cases i <;> cases hc <;> simp only [access, ← ea_eq, Option.some.injEq, Prod.mk.injEq] at h <;> obtain ⟨rfl, rfl, rfl⟩ := h
  all_goals exact congrArg (issue .a _ _ · s) (copyV_found hplay hfound)

theorem copyEnters_engine {va : Dw} (h : ¬spills (s.coreAt s.cur) = true) : copyEnters s os pm code va =
    .go ((s.issueOp os pm (.copy s.nextId) false).modCore s.cur fun c => { c with copies := c.copies ++ [mkCopy s code va (some s.nextId) false] }) .seq := by
  unfold copyEnters
  rw [Bool.eq_false_iff.2 h]
  rfl

theorem copyEnters_spill {va : Dw} (h : spills (s.coreAt s.cur) = true) : copyEnters s os pm code va =
    match (s.issueOp os pm (.copy s.nextId) false).spillWrite s.cur (mkCopy s code va (some s.nextId) true) os pm with
    | .written z => .go (z.modCore z.cur fun c => { c with copies := c.copies ++ [mkCopy s code va (some s.nextId) true] }) .seq
    | .faults =>
      .go ((s.issueOp os pm (.copy s.nextId) false).modCore s.cur fun c => { c with latch := some (mkCopy s code va (some s.nextId) true) }) .seq
    | .breaks => .go (((s.issueOp os pm (.copy s.nextId) false).modCore s.cur fun c =>
        { c with latch := some (mkCopy s code va (some s.nextId) true) }).freezeCore s.cur .protection) .seq := by
  unfold copyEnters
  rw [h]
  rfl

/-- The copy words: the latch, the stream's room, the engine's room, and the spill ring's answer. -/
theorem copyWords (h : access s i = some (st, os, x)) (hc : copyWord i = some (pm, code)) (hi : Issues s .a st i) (hfound : found s x = .ok pa)
    (hplay : s.playing s.cur = false) :
    ((s.coreAt s.cur).latch.isSome = true → ∃ w, exec i s = .next w ∧ Waits s w) ∧
    ((s.coreAt s.cur).latch = none → s.streamFull os = true → ∃ w, exec i s = .next w ∧ Waits (s.why 13) w) ∧
    (∀ u, (s.coreAt s.cur).latch = none → s.streamFull os = false → copyEnters s os pm code x.va = .go u .seq →
      ∃ w, exec i s = .next w ∧ Past .a ToNext u w) := by
  have he := exec_copy h hc hplay hfound
  refine ⟨fun hlatch => ?_, fun hlatch hfull => ?_, fun u hlatch hroom henters => ?_⟩
  · exact exec_stall hi he (if_pos hlatch)
  · exact exec_stall hi he ((if_neg (not_isSome hlatch)).trans (ifRoom_full _ hfull))
  · exact exec_go hi he ((if_neg (not_isSome hlatch)).trans ((ifRoom_room _ hroom).trans henters))

end Copies

/-- Settles O25: the slot words after their accesses are found, AWAIT where it starts and where it stands, and the copy words. -/
theorem slotAndCopyWords : Obligations.SlotAndCopyWords := by
  refine ⟨⟨fun s st t b os pm spa rpa hi hslot hrec hroom => ?_, fun s st b os pm off pa hi hfound hroom => ?_,
    fun s st b os pm off pa hi hfound => ⟨fun hpre => ?_, fun hpre hroom => ?_⟩,
    fun s st t b os pm off pa hi => ⟨fun hsel hfound hroom => ?_, fun hsel q hfault => ?_⟩,
    fun s st t b os pm off pa hi hplay => ⟨fun hawait hfound => ⟨fun hpre => ?_, fun hpre hz => ?_, fun z hpre hz => ⟨fun hpoison => ?_,
      fun hpoison hphase => ?_, fun hpoison hphase hmany => ?_, fun hpoison hphase hfew => ?_⟩⟩, fun ph polling at_ hawait hslot => ?_,
      fun ph polling hawait hz => ?_, fun ph polling at_ hawait hslot hroom => ?_⟩⟩,
    fun s i st os x pa pm code h hc hi hfound hplay => ?_⟩
  · exact exec_stay hi (v := asetV t b os pm s) rfl (asetV_found hslot hrec hroom)
  · exact exec_stay hi (v := afreeV b os pm off s) rfl (afreeV_found hfound hroom)
  · exact exec_stall hi (v := waitaV b os pm off s) rfl (by rw [waitaV_found hfound, hpre]; rfl)
  · exact exec_go hi (v := waitaV b os pm off s) rfl (by rw [waitaV_found hfound, hpre]; exact ifRoom_room _ hroom)
  · exact exec_go hi (v := areadV t b os pm off s) rfl (areadV_view hsel hfound hroom)
  · exact exec_trap hi (v := areadV t b os pm off s) rfl (areadV_noView hsel hfault)
  · exact exec_stall hi (v := awaitV t b os pm off s) rfl (by rw [awaitV_starts hplay hawait hfound, hpre]; rfl)
  · exact exec_trap hi (v := awaitV t b os pm off s) rfl (by rw [awaitV_starts hplay hawait hfound, hpre, hz]; rfl)
  · exact exec_trap hi (v := awaitV t b os pm off s) rfl (by rw [awaitV_starts hplay hawait hfound, hpre, hz]; exact if_pos hpoison)
  · exact exec_waiting hi (logWake_cur ..) ((awaitV_reads hplay hawait hfound hpre hz hpoison).trans (if_pos hphase))
  · exact exec_waiting hi rfl ((awaitV_reads hplay hawait hfound hpre hz hpoison).trans ((if_neg (not_not.2 hphase)).trans (if_pos hmany)))
  · exact exec_waiting hi (modSlot_cur ..)
      ((awaitV_reads hplay hawait hfound hpre hz hpoison).trans ((if_neg (not_not.2 hphase)).trans (if_neg (Nat.not_le.2 hfew))))
  · exact exec_trap hi (v := awaitV t b os pm off s) rfl (awaitV_poisoned hplay hawait hslot)
  · refine exec_trap hi (v := awaitV t b os pm off s) rfl ((awaitV_sound hplay hawait (by simp [hz])).trans ?_)
    exact if_pos (by rw [hz]; rfl)
  · exact exec_go hi (v := awaitV t b os pm off s) rfl ((awaitV_sound hplay hawait hslot).trans (ifRoom_room _ hroom))
  · obtain ⟨hwaits, hfull, hgo⟩ := copyWords h hc hi hfound hplay
    refine ⟨hwaits, hfull, fun hlatch hroom hengine => ?_, fun z hlatch hroom hspill hz => ?_, fun hlatch hroom hspill hz => ?_,
      fun hlatch hroom hspill hz => ?_⟩
    · exact hgo _ hlatch hroom (copyEnters_engine (mt (spills_iff _).1 hengine))
    · exact hgo _ hlatch hroom (by rw [copyEnters_spill ((spills_iff _).2 hspill), hz])
    · exact hgo _ hlatch hroom (by rw [copyEnters_spill ((spills_iff _).2 hspill), hz])
    · exact hgo _ hlatch hroom (by rw [copyEnters_spill ((spills_iff _).2 hspill), hz])

end Sys2Proof
end

section
/-! PROOF. RFT: the frame restored, and what it leaves (R57, R158, R352, R363). -/

namespace Sys2Proof

open Machine Spec

/-! ## The loops that a write has brought into being (R39, R355) -/

/-- y is x but for the loops of its seats, and a seat in a loop of a length, or in none, keeps it. -/
structure Adopted (x y : Ctx) : Prop where
  rest : { y with seats := x.seats } = x
  seat : ∀ k, { y.seat k with loop := (x.seat k).loop } = x.seat k
  loop : ∀ k, (∀ lp, (x.seat k).loop = some lp → lp.len ≠ 0) → (y.seat k).loop = (x.seat k).loop

theorem Adopted.refl (x : Ctx) : Adopted x x := ⟨rfl, fun _ => rfl, fun _ _ => rfl⟩

theorem Adopted.trans {x y z : Ctx} (h : Adopted x y) (g : Adopted y z) : Adopted x z where
  rest := by rw [← h.rest, ← g.rest]
  seat k := by rw [← h.seat k, ← g.seat k]
  loop k hk := by
    have hloop := h.loop k hk
    rw [g.loop k fun lp hlp => hk lp (hloop ▸ hlp), hloop]

/-- A seat whose loop has no length yet gets a loop. -/
theorem Adopted.setLoop {x : Ctx} {k : SeatId} {lp : Loop} (l : Option Loop) (hloop : (x.seat k).loop = some lp) (hlen : lp.len = 0) :
    Adopted x (x.modSeat k fun t => { t with loop := l }) := by
  refine ⟨rfl, fun j => ?_, fun j hj => ?_⟩
  · by_cases hjk : j = k
    · subst hjk; rw [Ctx.seat_modSeat]
    · rw [Ctx.seat_modSeat_ne _ _ _ _ hjk]
  · by_cases hjk : j = k
    · subst hjk; exact absurd hlen (hj lp hloop)
    · rw [Ctx.seat_modSeat_ne _ _ _ _ hjk]

/-- t is s but for the context of core n, in which loops have been adopted. -/
structure AdoptedOn (n : CoreId) (s t : State) : Prop where
  one : OneCore n s t
  cur : t.cur = s.cur
  core : ∃ y, Adopted (s.coreAt n).ctx y ∧ t.coreAt n = { s.coreAt n with ctx := y }

theorem AdoptedOn.refl (n : CoreId) (s : State) : AdoptedOn n s s := ⟨⟨fun _ _ => rfl, fun _ => rfl, rfl, rfl⟩, rfl, _, .refl _, rfl⟩

theorem AdoptedOn.trans {n : CoreId} {s t u : State} (h : AdoptedOn n s t) (g : AdoptedOn n t u) : AdoptedOn n s u := by
  obtain ⟨y, hy, ht⟩ := h.core
  obtain ⟨z, hz, hu⟩ := g.core
  rw [ht] at hz hu
  exact ⟨oneCore_trans h.one g.one, g.cur.trans h.cur, z, hy.trans hz, hu⟩

theorem adoptLoop_adopted (s : State) (n : CoreId) (k : SeatId) : AdoptedOn n s (s.adoptLoop n k) := by
  unfold State.adoptLoop
  dsimp only
  split
  · exact .refl n s
  · rename_i lp hloop
    split
    · exact .refl n s
    · rename_i hlen
      split
      · split
        · refine ⟨oneCore_modCtx .., rfl, _, .setLoop (some _) hloop (not_not.1 hlen), State.coreAt_modCtx ..⟩
        · exact .refl n s
      · exact .refl n s

theorem adoptLoops_adopted (s : State) (n : CoreId) : AdoptedOn n s (s.adoptLoops n) := by
  unfold State.adoptLoops
  generalize [SeatId.c, .a, .v, .m] = seats
  induction seats generalizing s with
  | nil => exact .refl n s
  | cons k seats ih => exact (adoptLoop_adopted s n k).trans (ih _)

/-! ## The frame restored (R352, R358) -/

theorem seat_discard (live saved : Ctx) (k : SeatId) : (live.discard saved).seat k = { live.seat k with osb := (saved.seat k).osb } := by
  have hfold : (live.discard saved).seat k =
      (([SeatId.c, .a, .v, .m].foldl (fun y k => y.modSeat k fun t => { t with osb := (saved.seat k).osb }) live).seat k) := rfl
  rw [hfold]
  cases k <;> simp

/-- The C seat of the frame as RFT restores it: a cause stays where its word issued and another seat's was taken. -/
def frameSeat (h : Handler) : Seat :=
  { h.saved.seat .c with cause := match (h.saved.seat .c).cause with
    | some q => if h.tseat ≠ .c ∧ q.issued then some q else none
    | none => none }

/-- What RFT resumes where the handler wrote nothing of the frame: fields of the frame, and the unit's own. -/
structure Restored (live : Ctx) (h : Handler) (x : Ctx) : Prop where
  c : x.c = h.saved.c
  f : x.f = h.saved.f
  inflight : x.inflight = h.saved.inflight
  pc : (x.seat .c).pc = (h.saved.seat .c).pc
  loop : (∀ lp, (h.saved.seat .c).loop = some lp → lp.len ≠ 0) → (x.seat .c).loop = (h.saved.seat .c).loop
  dslots : (x.seat .c).dslots = (h.saved.seat .c).dslots
  osiss : x.osiss = live.osiss
  osprf : x.osprf = live.osprf
  a : x.a = live.a
  v : x.v = live.v
  m : x.m = live.m

theorem seat_afterReturn (live : Ctx) {h : Handler} (hw : h.writes = []) : (live.afterReturn h).seat .c = frameSeat h := by
  unfold Ctx.afterReturn
  rw [hw]
  refine (seat_discard (live.setSeat .c (frameSeat h)) h.saved .c).trans ?_
  rw [Ctx.seat_setSeat]
  rfl

theorem afterReturn_restored (live : Ctx) {h : Handler} (hw : h.writes = []) : Restored live h (live.afterReturn h) := by
  have hseat := seat_afterReturn live hw
  refine ⟨?_, ?_, ?_, by rw [hseat]; rfl, fun _ => by rw [hseat]; rfl, by rw [hseat]; rfl, ?_, ?_, ?_, ?_, ?_⟩ <;>
    · unfold Ctx.afterReturn
      rw [hw]
      rfl

/-- The adoption of loops changes no loop that the frame gives its length. -/
theorem Restored.adopted {live x y : Ctx} {h : Handler} (r : Restored live h x) (g : Adopted x y) (hloop : (x.seat .c).loop = (h.saved.seat .c).loop) :
    Restored live h y where
  c := (congrArg Ctx.c g.rest).trans r.c
  f := (congrArg Ctx.f g.rest).trans r.f
  inflight := (congrArg Ctx.inflight g.rest).trans r.inflight
  pc := (congrArg Seat.pc (g.seat .c)).trans r.pc
  loop hlen := (g.loop .c fun lp hlp => hlen lp (hloop ▸ hlp)).trans hloop
  dslots := (congrArg Seat.dslots (g.seat .c)).trans r.dslots
  osiss := (congrArg Ctx.osiss g.rest).trans r.osiss
  osprf := (congrArg Ctx.osprf g.rest).trans r.osprf
  a := (congrArg Ctx.a g.rest).trans r.a
  v := (congrArg Ctx.v g.rest).trans r.v
  m := (congrArg Ctx.m g.rest).trans r.m

/-- A seat that stays changes nothing of it. -/
theorem Restored.stays {live x y : Ctx} {h : Handler} (r : Restored live h x) (g : RegsKept x y) (hseat : Stays .c (x.seat .c) (y.seat .c)) :
    Restored live h y where
  c := g.c.trans r.c
  f := g.f.trans r.f
  inflight := g.inflight.trans r.inflight
  pc := (congrArg Seat.pc hseat).trans r.pc
  loop hlen := (congrArg Seat.loop hseat).trans (r.loop hlen)
  dslots := (congrArg Seat.dslots hseat).trans r.dslots
  osiss := g.osiss.trans r.osiss
  osprf := g.osprf.trans r.osprf
  a := g.a.trans r.a
  v := g.v.trans r.v
  m := g.m.trans r.m

/-- The state that RFT leaves before the C seat's turn ends. -/
def afterRft (s : State) (h : Handler) : State := ((s.returnTrap s.cur h).adoptLoops s.cur).traceUnitOf s.cur 8 0

theorem traceUnitOf_cur (s : State) (n : CoreId) (event cause : Nat) : (s.traceUnitOf n event cause).cur = s.cur := by
  unfold State.traceUnitOf
  split
  · exact (traceRec_only ..).package.cur
  · rfl

/-- What `afterRft` leaves: every other core, and on its own the handler has ended and loops of the restored context are adopted. -/
theorem afterRft_core (s : State) (h : Handler) : OneCore s.cur s (afterRft s h) ∧ (afterRft s h).cur = s.cur ∧
    Adopted ((here s).afterReturn h) (here (afterRft s h)) ∧ ((afterRft s h).coreAt s.cur).handler = none ∧
      ((afterRft s h).coreAt s.cur).skip = 0xF := by
  have hreturn : (s.returnTrap s.cur h).coreAt s.cur = _ := State.coreAt_modCore ..
  have hadopt := adoptLoops_adopted (s.returnTrap s.cur h) s.cur
  have hlog := Logged.traceUnitOf s.cur ((s.returnTrap s.cur h).adoptLoops s.cur) 8 0
  obtain ⟨y, hy, hcore⟩ := hadopt.core
  obtain ⟨d, hd⟩ := hlog.core
  have hcur : (afterRft s h).cur = s.cur := (traceUnitOf_cur ..).trans hadopt.cur
  have hafter : (afterRft s h).coreAt s.cur = _ := hd
  rw [hcore, hreturn] at hafter
  rw [hreturn] at hy
  have hhere : here (afterRft s h) = y := by rw [here, hcur, hafter]
  exact ⟨oneCore_trans (oneCore_modCore ..) (oneCore_trans hadopt.one hlog.oneCore), hcur, by rw [hhere]; exact hy, by rw [hafter], by rw [hafter]⟩

/-! ## RFT -/

theorem past_oneCore {k : SeatId} {goes : SeatId → Seat → Seat → Prop} {u t : State} (h : Past k goes u t) : OneCore u.cur u t :=
  ⟨h.cores, h.package.mem, h.package.slots, h.package.parts⟩

/-- What RFT does in a handler. -/
theorem rftV_handler {s : State} {h : Handler} (hh : (s.coreAt s.cur).handler = some h) : rftV s =
    if (here s).inflight ≠ [] ∨ h.saved.awaitsDump then .stall s else if h.bad then .go (s.pendF .lost) .stay else .go (afterRft s h) .stay := by
  unfold rftV
  dsimp only
  rw [hh]
  rfl

theorem rftV_ready {s : State} {h : Handler} (hh : (s.coreAt s.cur).handler = some h) (hland : (here s).inflight = [])
    (hdump : h.saved.awaitsDump = false) : rftV s = if h.bad then .go (s.pendF .lost) .stay else .go (afterRft s h) .stay :=
  (rftV_handler hh).trans (if_neg (not_or.2 ⟨not_not.2 hland, Bool.eq_false_iff.1 hdump⟩))

/-- Settles O42: the frame that `afterReturn` restores, kept by the loops' adoption and by the pass of the C seat. -/
theorem returnFromTrap : Obligations.ReturnFromTrap := by
  refine fun s st hi => ⟨fun hh => ?_, fun h hh hwait => ?_, fun h hh hland hdump hbad => ?_, fun h hh hland hdump hbad hwrites => ?_⟩
  · exact exec_trap hi (v := rftV s) rfl (by unfold rftV; dsimp only; rw [hh])
  · exact exec_stall hi (v := rftV s) rfl ((rftV_handler hh).trans (if_pos hwait))
  · exact exec_stay hi (v := rftV s) rfl ((rftV_ready hh hland hdump).trans (if_pos hbad))
  · obtain ⟨t, ht, hpast⟩ := exec_stay hi (v := rftV s) rfl ((rftV_ready hh hland hdump).trans (if_neg (Bool.eq_false_iff.1 hbad)))
    obtain ⟨hone, hcur, hadopt, hhandler, hskip⟩ := afterRft_core s h
    have hloop : (((here s).afterReturn h).seat .c).loop = (h.saved.seat .c).loop := by rw [seat_afterReturn _ hwrites]; rfl
    have hrest := ((afterReturn_restored (here s) hwrites).adopted hadopt hloop).stays hpast.regs hpast.seat
    have hcore : CoreKept _ _ := hpast.core
    have hone' := past_oneCore hpast
    rw [hcur] at hrest hcore hone'
    exact ⟨t, ht, (congrArg Core.handler hcore).trans hhandler, hrest.c, hrest.f, hrest.inflight, hrest.pc, hrest.loop, hrest.dslots, hrest.osiss,
      hrest.osprf, hrest.a, hrest.v, hrest.m, (congrArg Core.skip hcore).trans hskip, oneCore_trans hone hone'⟩

end Sys2Proof
end

section
/-! PROOF. The words of V that send a value to an x register. -/

namespace Sys2Proof

open Machine Spec

/-! ## Values as expressions over integers (R96, R221) -/

theorem sx_eq_wrap {w : Nat} (v : BitVec w) (h : w ≤ 64) : sx v = wrap v.toInt := by
  rw [wrap, ← sx_toInt v h, BitVec.ofInt_toInt]

theorem xaddVal_eq_wrap (a b : Dw) {w : Nat} (v : BitVec w) (h : w ≤ 64) : a + b + sx v = wrap (a.toInt + b.toInt + v.toInt) := by
  rw [wrap, BitVec.ofInt_add, BitVec.ofInt_add, BitVec.ofInt_toInt, BitVec.ofInt_toInt, sx_eq_wrap v h, wrap]

theorem xsubVal_eq_wrap (a b : Dw) {w : Nat} (v : BitVec w) (h : w ≤ 64) : a - b + sx v = wrap (a.toInt - b.toInt + v.toInt) := by
  rw [wrap, BitVec.ofInt_add, Int.sub_eq_add_neg, BitVec.ofInt_add, BitVec.ofInt_neg, BitVec.ofInt_toInt, BitVec.ofInt_toInt, ← BitVec.sub_eq_add_neg,
    sx_eq_wrap v h, wrap]

/-- XLI with b = 0 takes the signed immediate; with b ≠ 0 it shifts eleven bits more in below those of x register a (R221). -/
theorem xliV_eq (s : State) (d a b : BitVec 4) (imm : BitVec 11) : xliV d a b imm s =
    .go (s.sendX d (if b = 0 then wrap imm.toInt else wrap ((s.rdX 0 a).toNat * 2 ^ 11) ||| BitVec.ofNat 64 imm.toNat) 1) .seq := by
  unfold xliV
  split
  · rw [sx_eq_wrap imm (by decide)]
  · rw [shl_eq_ofInt, zx_eq]; rfl

/-- Settles O31: the table of the words that write an x register names the value that each word's rule computes. -/
theorem xScalarResult : Obligations.XScalarResult := by
  intro s i st d v lat h hi
  cases i <;> simp only [xScalar, reduceCtorEq, Option.some.injEq, Prod.mk.injEq] at h <;> obtain ⟨rfl, rfl, rfl, rfl⟩ := h
  case xadd => exact exec_go hi rfl (congrArg (fun x => Verdict.go (s.sendX _ x 1) .seq) (xaddVal_eq_wrap _ _ _ (by decide)))
  case xsub => exact exec_go hi rfl (congrArg (fun x => Verdict.go (s.sendX _ x 1) .seq) (xsubVal_eq_wrap _ _ _ (by decide)))
  case xmul => exact issue_seq hi
  case xli => exact exec_go hi rfl (xliV_eq s _ _ _ _)
  case xget => exact issue_seq hi
  case pcnt => exact issue_seq hi

end Sys2Proof
end

section
/-! PROOF. The words of M that fill and empty the engine's operation queue: MMA, MMAJ, MDRN and MZERO. -/

namespace Sys2Proof

open Machine Spec

/-! ## The format entry and the crew at issue (R107, R119, R250) -/

/-- The entry that an f field selects is read at its number, or at the low bits of its loop register's count. -/
theorem rdFmt_fmtSel (s : State) (f : BitVec 5) : s.rdFmt 0 (s.fmtSel f) = formatOf s f := by
  unfold State.fmtSel formatOf State.rdL
  split
  · rfl
  · dsimp only [here]
    congr 1
    apply BitVec.eq_of_toNat_eq
    simp only [BitVec.toNat_setWidth, BitVec.extractLsb'_toNat, BitVec.toNat_ofNat, Nat.shiftRight_eq_div_pow]
    exact Nat.mod_mod_of_dvd _ (by decide)

/-- The bit that the checks read of the unit. -/
def crewBit (s : State) : Bool := match (s.coreAt s.cur).unit with | some u => u.crew | none => false

theorem crewBit_iff (s : State) : crewBit s = true ↔ inCrew s := by
  unfold crewBit inCrew
  cases (s.coreAt s.cur).unit <;> simp

/-! ## The checks of the queues (R237) -/

/-- An operand queue that is no load queue, an output that is unbound or names an operand's queue, or one queue for operands of two formats or of Q4Q. -/
def MmaDirectionBad (s : State) (o a b : BitVec 3) (e : BitVec 16) : Prop :=
  (s.queueAt a).dir ≠ 1 ∨ (s.queueAt b).dir ≠ 1 ∨ (s.queueAt o).dir = 0 ∨ o = a ∨ o = b ∨ (a = b ∧ (entA e ≠ entB e ∨ isQ4 (entA e) = true))

/-- A queue of another element size. -/
def MmaWidthBad (s : State) (o a b : BitVec 3) (e : BitVec 16) : Prop :=
  (s.queueAt a).esz ≠ fmtEsz (entA e) ∨ (s.queueAt b).esz ≠ fmtEsz (entB e) ∨ (s.queueAt o).esz ≠ (if entOutf e then 2 else 3)

section Queues
variable {s : State} {o a b : BitVec 3} {e : BitVec 16}

theorem mmaQueues_direction (h : MmaDirectionBad s o a b e) : s.mmaQueues o a b e = some .queueDirection := by
  unfold MmaDirectionBad at h
  unfold State.mmaQueues
  dsimp only
  split
  · rfl
  · exact if_pos (by tauto)

theorem mmaQueues_directed (h : ¬MmaDirectionBad s o a b e) : s.mmaQueues o a b e =
    if (s.queueAt a).esz ≠ fmtEsz (entA e) ∨ (s.queueAt b).esz ≠ fmtEsz (entB e) then some .queueWidth
    else if (s.queueAt o).esz ≠ drainEsz (entOutf e) then some .queueWidth else none := by
  unfold MmaDirectionBad at h
  exact (if_neg (by tauto)).trans (if_neg (by tauto))

theorem mmaQueues_width (h : ¬MmaDirectionBad s o a b e) (hw : MmaWidthBad s o a b e) : s.mmaQueues o a b e = some .queueWidth := by
  rw [mmaQueues_directed h]
  split
  · rfl
  · exact if_pos (by unfold MmaWidthBad at hw; tauto)

theorem mmaQueues_ok (h : ¬MmaDirectionBad s o a b e) (hw : ¬MmaWidthBad s o a b e) : s.mmaQueues o a b e = none := by
  rw [mmaQueues_directed h]
  unfold MmaWidthBad at hw
  exact (if_neg (by tauto)).trans (if_neg (by tauto))

end Queues

/-! ## MMA and MMAJ: one verdict for each check (R238, R250, R251, R349) -/

section Verdicts
variable {s : State} {joint : Bool} {w : Word} {o a b : BitVec 3} {f : BitVec 5} {kk : BitVec 9}

/-- The operation that MMA or MMAJ puts into the queue. -/
def mmaOp (s : State) (joint : Bool) (w : Word) (f : BitVec 5) : EngOp :=
  { kind := if joint then .mmaj else .mma, word := w, ent := formatOf s f, addr := s.pcOf .m }

theorem mmaV_noCrew (hj : joint = true) (hc : ¬inCrew s) : mmaV joint w o a b f kk s = .trap .crew 0 := by
  rw [← crewBit_iff, Bool.not_eq_true] at hc
  exact if_pos (show (joint && !crewBit s) = true by rw [hc, hj]; rfl)

/-- What MMA and MMAJ do once a joint word stands in a crew. -/
theorem mmaV_inCrew (hc : joint = true → inCrew s) (hp : s.playing s.cur = false) : mmaV joint w o a b f kk s =
    if !entryOk (formatOf s f) ((kk.toNat + 1) * 8) then .trap .format 0
    else match s.mmaQueues o a b (formatOf s f) with
      | some c => .trap c 0
      | none =>
        if joint && isQ4 (entB (formatOf s f)) then .trap .format 0
        else if joint ∧ a = b then .trap .queueDirection 0
        else if s.engFull then .stall s
        else .go (s.pushEng (mmaOp s joint w f) (decide (entDith (formatOf s f) = 1))) .seq := by
  have hcrew : ¬(joint && !crewBit s) = true := by
    simp only [Bool.and_eq_true, Bool.not_eq_true', not_and, Bool.not_eq_false]
    exact fun hj => (crewBit_iff s).2 (hc hj)
  refine (if_neg hcrew).trans ?_
  rw [rdFmt_fmtSel, hp, Bool.and_false]
  rfl

theorem mmaV_badFormat (hc : joint = true → inCrew s) (hp : s.playing s.cur = false) (he : entryOk (formatOf s f) ((kk.toNat + 1) * 8) = false) :
    mmaV joint w o a b f kk s = .trap .format 0 := by
  rw [mmaV_inCrew hc hp, he]
  rfl

variable (hc : joint = true → inCrew s) (hp : s.playing s.cur = false) (he : ¬entryOk (formatOf s f) ((kk.toNat + 1) * 8) = false)
include hc hp he

theorem mmaV_badQueue {c : Cause} (hq : s.mmaQueues o a b (formatOf s f) = some c) : mmaV joint w o a b f kk s = .trap c 0 := by
  rw [mmaV_inCrew hc hp, if_neg (by simpa using he), hq]

variable (hq : s.mmaQueues o a b (formatOf s f) = none)
include hq

theorem mmaV_queued : mmaV joint w o a b f kk s =
    if joint && isQ4 (entB (formatOf s f)) then .trap .format 0
    else if joint ∧ a = b then .trap .queueDirection 0
    else if s.engFull then .stall s
    else .go (s.pushEng (mmaOp s joint w f) (decide (entDith (formatOf s f) = 1))) .seq := by
  rw [mmaV_inCrew hc hp, if_neg (by simpa using he), hq]

theorem mmaV_jointQ4 (h4 : joint = true ∧ isQ4 (entB (formatOf s f)) = true) : mmaV joint w o a b f kk s = .trap .format 0 :=
  (mmaV_queued hc hp he hq).trans (if_pos (by simpa using h4))

variable (h4 : ¬(joint = true ∧ isQ4 (entB (formatOf s f)) = true))
include h4

theorem mmaV_jointSame (hs : joint = true ∧ a = b) : mmaV joint w o a b f kk s = .trap .queueDirection 0 :=
  (mmaV_queued hc hp he hq).trans ((if_neg (by simpa using h4)).trans (if_pos hs))

variable (hs : ¬(joint = true ∧ a = b))
include hs

theorem mmaV_full (hf : 2 ≤ (here s).eng.opq.length) : mmaV joint w o a b f kk s = .stall s :=
  (mmaV_queued hc hp he hq).trans ((if_neg (by simpa using h4)).trans ((if_neg hs).trans (if_pos (decide_eq_true hf))))

theorem mmaV_goes (hf : (here s).eng.opq.length < 2) :
    mmaV joint w o a b f kk s = .go (s.pushEng (mmaOp s joint w f) (decide (entDith (formatOf s f) = 1))) .seq :=
  (mmaV_queued hc hp he hq).trans ((if_neg (by simpa using h4)).trans ((if_neg hs).trans (if_neg fun h => absurd (of_decide_eq_true h) (Nat.not_le.2 hf))))

end Verdicts

/-- MMA and MMAJ are one rule, issued with their own encoding. -/
theorem exec_mmaWord {i : Instr} {joint st : Bool} {o a b : BitVec 3} {f : BitVec 5} {kk : BitVec 9} (h : mmaWord i = some (joint, st, o, a, b, f, kk))
    (s : State) : ∃ w, encode i = some w ∧ exec i s = issue .m st i (mmaV joint w o a b f kk s) s := by
  cases i <;> simp only [mmaWord, reduceCtorEq, Option.some.injEq, Prod.mk.injEq] at h <;> obtain ⟨rfl, rfl, rfl, rfl, rfl, rfl, rfl⟩ := h
  case mma => exact ⟨_, rfl, rfl⟩
  case mmaj => exact ⟨_, rfl, rfl⟩

/-! ## What a word that takes an entry leaves (R106, R230) -/

/-- The loop of a seat, if it stands in one, marked by the dither rule. -/
def seatDithered (t : Seat) : Seat := { t with loop := t.loop.map fun lp => { lp with dith := true } }

theorem here_modCtx (s : State) (f : Ctx → Ctx) : here (s.modCtx s.cur f) = f (here s) := by
  unfold here
  rw [State.modCtx_cur, State.coreAt_modCtx]

/-- A context that has taken an operation, its M seat's loop marked where the entry has the dither rule. -/
def ctxPushed (x : Ctx) (op : EngOp) (dith : Bool) : Ctx :=
  let y : Ctx := { x with eng := { x.eng with opq := x.eng.opq ++ [op], lastBf16 := if op.kind = .mdrn then x.eng.lastBf16 else entOutf op.ent } }
  if dith then y.modSeat .m seatDithered else y

theorem pushed_seat (x : Ctx) (op : EngOp) (dith : Bool) (j : SeatId) :
    (ctxPushed x op dith).seat j = if j = .m ∧ dith = true then seatDithered (x.seat .m) else x.seat j := by
  unfold ctxPushed
  cases dith with
  | false => simp; rfl
  | true =>
    by_cases hj : j = .m
    · subst hj; simp; rfl
    · simp [hj]; rfl

theorem pushed_eng (x : Ctx) (op : EngOp) (dith : Bool) : (ctxPushed x op dith).eng =
    { x.eng with opq := x.eng.opq ++ [op], lastBf16 := if op.kind = .mdrn then x.eng.lastBf16 else entOutf op.ent } := by
  cases dith <;> rfl

theorem pushed_rest (x : Ctx) (op : EngOp) (dith : Bool) : { ctxPushed x op dith with eng := x.eng, seats := x.seats } = x := by
  cases dith <;> rfl

theorem pushEng_plain (s : State) (op : EngOp) : s.pushEng op false = s.modCtx s.cur fun x => ctxPushed x op false := rfl

theorem pushEng_dithered (s : State) (op : EngOp) : s.pushEng op true =
    (s.modCtx s.cur fun x => ctxPushed x op false).modCtx (s.modCtx s.cur fun x => ctxPushed x op false).cur fun x => x.modSeat .m seatDithered := rfl

theorem here_pushEng (s : State) (op : EngOp) (dith : Bool) : here (s.pushEng op dith) = ctxPushed (here s) op dith := by
  cases dith with
  | false => rw [pushEng_plain, here_modCtx]
  | true => rw [pushEng_dithered, here_modCtx, here_modCtx]; rfl

theorem pushEng_coreAt_ne (s : State) (op : EngOp) (dith : Bool) {m : CoreId} (h : m ≠ s.cur) : (s.pushEng op dith).coreAt m = s.coreAt m := by
  cases dith with
  | false => rw [pushEng_plain, State.coreAt_modCtx_ne _ _ _ _ h]
  | true => rw [pushEng_dithered]; exact (State.coreAt_modCtx_ne _ _ _ _ h).trans (State.coreAt_modCtx_ne _ _ _ _ h)

theorem PackageKept.pushEng (s : State) (op : EngOp) (dith : Bool) : PackageKept s (s.pushEng op dith) := by
  cases dith with
  | false => rw [pushEng_plain]; exact .modCore ..
  | true => rw [pushEng_dithered]; exact (PackageKept.modCore ..).trans (.modCore ..)

/-! ## MDRN and MZERO (R242, R243) -/

section Drain
variable {s : State} {w : Word} {o : BitVec 3}

theorem mdrnV_unbound (h : (s.queueAt o).dir = 0) : mdrnV w o s = .trap .queueDirection 0 := if_pos h

variable (hd : (s.queueAt o).dir ≠ 0)
include hd

theorem mdrnV_width (h : (s.queueAt o).esz ≠ (if (here s).eng.lastBf16 then 2 else 3)) : mdrnV w o s = .trap .queueWidth 0 :=
  (if_neg hd).trans (if_pos h)

variable (hw : (s.queueAt o).esz = (if (here s).eng.lastBf16 then 2 else 3))
include hw

theorem mdrnV_full (hf : 2 ≤ (here s).eng.opq.length) : mdrnV w o s = .stall s :=
  (if_neg hd).trans ((if_neg (not_not.2 hw)).trans (if_pos (decide_eq_true hf)))

theorem mdrnV_goes (hf : (here s).eng.opq.length < 2) : mdrnV w o s = .go (s.modCtx s.cur fun x => { x with eng := { x.eng with
    opq := x.eng.opq ++ [{ kind := .mdrn, word := w, ent := if (here s).eng.lastBf16 then 0x100 else 0, addr := s.pcOf .m }] } }) .seq :=
  (if_neg hd).trans ((if_neg (not_not.2 hw)).trans (if_neg fun h => absurd (of_decide_eq_true h) (Nat.not_le.2 hf)))

end Drain

theorem mzeroV_joint {s : State} (h : ∃ o ∈ (here s).eng.opq, o.kind = .mmaj) : mzeroV s = .trap .jointBusy 0 :=
  if_pos ((any_decide _ _).2 h)

theorem mzeroV_goes {s : State} (h : ∀ o ∈ (here s).eng.opq, o.kind ≠ .mmaj) : mzeroV s = .go (s.modCtx s.cur fun x => { x with eng := { x.eng with
    opq := [], running := false, spanDone := false, dbusy := false, lastBf16 := false, halt := true } }) .seq :=
  if_neg fun ha => by
    obtain ⟨o, ho, hk⟩ := (any_decide _ _).1 ha
    exact h o ho hk

/-! ## The obligation -/

/-- What MMA or MMAJ leaves when it takes an entry of the operation queue. -/
theorem mmaWord_takes {s : State} {i : Instr} {joint st : Bool} {o a b : BitVec 3} {f : BitVec 5} {kk : BitVec 9} {w : Word} (hi : Issues s .m st i)
    (hx : exec i s = issue .m st i (mmaV joint w o a b f kk s) s)
    (hv : mmaV joint w o a b f kk s = .go (s.pushEng (mmaOp s joint w f) (decide (entDith (formatOf s f) = 1))) .seq) :
    ∃ (u t : State), exec i s = .next t ∧ Past .m ToNext u t ∧
      (∀ j, (here u).seat j = if j = .m ∧ entDith (formatOf s f) = 1 then seatDithered ((here s).seat .m) else (here s).seat j) ∧
      (here u).eng = { (here s).eng with opq := (here s).eng.opq ++ [mmaOp s joint w f], lastBf16 := entOutf (formatOf s f) } ∧
      (∀ m, m ≠ s.cur → u.coreAt m = s.coreAt m) ∧ PackageKept s u ∧ { here u with eng := (here s).eng, seats := (here s).seats } = here s := by
  obtain ⟨t, ht, hpast⟩ := exec_go hi hx hv
  have hkind : (mmaOp s joint w f).kind ≠ .mdrn := by cases joint <;> exact EngKind.noConfusion
  refine ⟨_, t, ht, hpast, fun j => ?_, ?_, fun m hm => pushEng_coreAt_ne _ _ _ hm, .pushEng .., ?_⟩
  · rw [here_pushEng, pushed_seat]; simp only [decide_eq_true_eq]
  · rw [here_pushEng, pushed_eng, if_neg hkind]; rfl
  · rw [here_pushEng]; exact pushed_rest ..

/-- Settles O36: each check of MMA and MMAJ answers in its order, and the word that passes them all takes an entry; then MDRN and MZERO. -/
theorem matrixWords : Obligations.MatrixWords := by
  refine ⟨fun s i joint st o a b f kk hw hi hp => ?_, fun s st o hi => ⟨fun hd => ?_, fun hd hesz => ?_, fun hd hesz hf => ?_, fun hd hesz hf => ?_⟩,
    fun s st hi => ⟨fun hj => ?_, fun hj => ?_⟩⟩
  · obtain ⟨w, henc, hx⟩ := exec_mmaWord hw s
    refine ⟨fun hj hc => exec_trap hi hx (mmaV_noCrew hj hc), fun hc he => exec_trap hi hx (mmaV_badFormat hc hp he), fun hc he =>
      ⟨fun hd => exec_trap hi hx (mmaV_badQueue hc hp he (mmaQueues_direction hd)), fun hd =>
        ⟨fun hesz => exec_trap hi hx (mmaV_badQueue hc hp he (mmaQueues_width hd hesz)), fun hesz h4 => ?_, fun hesz h4 hs => ?_, fun hesz h4 hs => ?_⟩⟩⟩
    · exact exec_trap hi hx (mmaV_jointQ4 hc hp he (mmaQueues_ok hd hesz) h4)
    · exact exec_trap hi hx (mmaV_jointSame hc hp he (mmaQueues_ok hd hesz) h4 hs)
    · refine ⟨fun hf => exec_stall hi hx (mmaV_full hc hp he (mmaQueues_ok hd hesz) h4 hs hf), fun hf => ?_⟩
      obtain ⟨u, t, htakes⟩ := mmaWord_takes hi hx (mmaV_goes hc hp he (mmaQueues_ok hd hesz) h4 hs hf)
      exact ⟨w, u, t, henc, htakes⟩
  · exact exec_trap hi rfl (mdrnV_unbound hd)
  · exact exec_trap hi rfl (mdrnV_width hd hesz)
  · exact exec_stall hi rfl (mdrnV_full hd hesz hf)
  · obtain ⟨t, ht, hpast⟩ := exec_go hi rfl (mdrnV_goes hd hesz hf)
    exact ⟨_, t, rfl, ht, hpast⟩
  · exact exec_trap hi rfl (mzeroV_joint hj)
  · exact exec_go hi rfl (mzeroV_goes hj)

end Sys2Proof
end

section
/-! PROOF. The matrix engine's own steps: a group whose operands share one queue while their formats differ. -/

namespace Sys2Proof

open Machine Spec

/-! ## The front bank after a group (R239) -/

/-- Field c of a row packed in 32-bit fields. -/
theorem packRow_extract (f : Nat → Nat) (c : Fin 128) :
    (BitVec.ofNat 4096 (packNat (2 ^ 32) ((List.range 128).map f))).extractLsb' (32 * c.val) 32 = BitVec.ofNat 32 (f c.val) := by
  have hc := c.isLt
  have hdigit := packNat_digit (2 ^ 32) (by decide) ((List.range 128).map f) c.val
  rw [List.getD_eq_getElem _ _ (by simp), List.getElem_map, List.getElem_range, ← pow_mul] at hdigit
  apply BitVec.eq_of_toNat_eq
  rw [BitVec.extractLsb'_toNat, BitVec.toNat_ofNat, BitVec.toNat_ofNat, Nat.shiftRight_eq_div_pow, ← hdigit]
  generalize packNat (2 ^ 32) ((List.range 128).map f) = x
  rw [show 4096 = 32 * c.val + (4096 - 32 * c.val) by omega, pow_add, Nat.mod_mul_right_div_self, Nat.mod_mod_of_dvd _ (pow_dvd_pow 2 (by omega))]

/-- Accumulator c of row r after a group. -/
theorem groupFront_elem (int8 : Bool) (front : Vector (BitVec 4096) 128) (av bv : Nat → Nat → Fv) (r c : Fin 128) :
    ((groupFront int8 front av bv).get r).extractLsb' (32 * c.val) 32 =
      BitVec.ofNat 32 (accStep int8 ((front.get r).extractLsb' (32 * c.val) 32).toNat (groupSum fun j => (av r.val j, bv j c.val))) := by
  have hrow : (groupFront int8 front av bv).get r = BitVec.ofNat 4096 (packNat (2 ^ 32) ((List.range 128).map fun k =>
      accStep int8 ((front.get r).extractLsb' (32 * k) 32).toNat (groupSum fun j => (av r.val j, bv j k)))) := Vector.getElem_mapIdx ..
  rw [hrow, packRow_extract]

/-- The entries of operand A that the engine still takes for its group. -/
def wantsA (e : Engine) (o : EngOp) : Nat := takesAt (entA o.ent) (e.kpos % 128 / 8) - e.gotA

/-- Those of operand B: none, where one queue holds both. -/
def wantsB (e : Engine) (o : EngOp) : Nat := if o.a = o.b then 0 else takesAt (entB o.ent) (e.kpos % 128 / 8) - e.gotB

/-- The entries of operand A that the engine holds for a group once it has taken la. -/
def heldA (e : Engine) (la : List Line) : Line × Line := latched e.gotA e.latA e.latA2 la

/-- Those of operand B: operand A's, where one queue holds both. -/
def heldB (e : Engine) (o : EngOp) (la lb : List Line) : Line × Line := if o.a = o.b then heldA e la else latched e.gotB e.latB e.latB2 lb

/-- The front bank after the group whose entries are la and lb. -/
def frontAfter (e : Engine) (o : EngOp) (la lb : List Line) : Vector (BitVec 4096) 128 :=
  groupFront (decide (entA o.ent = 2)) e.front
    (fun r j => denseElem (entA o.ent) (entBsc o.ent) (heldA e la).1 (heldA e la).2 (e.scale.toArray.getD r 0) (e.kpos % 128 / 8) r j)
    (fun j c => denseElem (entB o.ent) (entBsc o.ent) (heldB e o la lb).1 (heldB e o la lb).2 (e.scale.toArray.getD c 0) (e.kpos % 128 / 8) c j)

section Group
variable {s : State} {n : CoreId} {o : EngOp} {la lb : List Line}

theorem groupBoundary_mma (hon : s.engineOn n = true) (hact : (s.coreAt n).ctx.eng.active .mma = some o)
    (hscale : (s.coreAt n).ctx.eng.wantsScale o = false) : s.groupBoundary n = s.groupStep n o := by
  unfold State.groupBoundary
  simp [hon, hact, hscale]

/-- A group whose entries are all there accumulates them into the front bank. -/
theorem groupStep_front (hneedA : needs (wantsA (s.coreAt n).ctx.eng o) ((s.coreAt n).ctx.queue o.a) (entA o.ent) = none)
    (hneedB : needs (wantsB (s.coreAt n).ctx.eng o) ((s.coreAt n).ctx.queue o.b) (entB o.ent) = none)
    (ha : ((s.coreAt n).ctx.queue o.a).firsts (wantsA (s.coreAt n).ctx.eng o) = .ok la)
    (hb : ((s.coreAt n).ctx.queue o.b).firsts (wantsB (s.coreAt n).ctx.eng o) = .ok lb) :
    ((s.groupStep n o).coreAt n).ctx.eng.front = frontAfter (s.coreAt n).ctx.eng o la lb := by
  unfold wantsA at hneedA ha
  unfold wantsB at hneedB hb
  unfold State.groupStep
  simp only [hneedA, hneedB, ha, hb, Option.or_none]
  rw [State.modEng, State.coreAt_modCtx]
  rfl

end Group

/-! ## One queue for operands of two formats -/

/-- MMA q0, q0, q0 with operand A in E4M3 and operand B in BF16: no word puts it into the queue (R237). -/
def sharedOp : EngOp := { kind := .mma, word := 0, ent := 0x0040, addr := 0 }

/-- A load queue of 8-bit elements, whose entry has 1.0 as its first element. -/
def sharedQueue : Queue := { dir := 1, esz := 1, pat := false, ents := [{ ticket := 0, landed := true, data := 0x38, poison := none }] }

/-- Core 0 whose engine runs that operation, 1.0 in BF16 standing in the latch of operand A's second entry. -/
def sharedState : State := (State.reset.placeWord 0x7C000000).modCtx 0 fun x =>
  ({ x with eng := { x.eng with opq := [sharedOp], running := true, latA2 := 0x3F80 } } : Ctx).setQueue 0 sharedQueue

set_option maxRecDepth 20000 in
/-- The group meets the hypotheses of its clause in that state. -/
theorem sharedState_group : sharedState.engineOn 0 = true ∧ (sharedState.coreAt 0).ctx.eng.active .mma = some sharedOp ∧
    (sharedState.coreAt 0).ctx.eng.wantsScale sharedOp = false ∧
    needs (wantsA (sharedState.coreAt 0).ctx.eng sharedOp) ((sharedState.coreAt 0).ctx.queue sharedOp.a) (entA sharedOp.ent) = none ∧
    needs (wantsB (sharedState.coreAt 0).ctx.eng sharedOp) ((sharedState.coreAt 0).ctx.queue sharedOp.b) (entB sharedOp.ent) = none ∧
    ((sharedState.coreAt 0).ctx.queue sharedOp.a).firsts (wantsA (sharedState.coreAt 0).ctx.eng sharedOp) = .ok [0x38] ∧
    ((sharedState.coreAt 0).ctx.queue sharedOp.b).firsts (wantsB (sharedState.coreAt 0).ctx.eng sharedOp) = .ok [] :=
  ⟨rfl, rfl, rfl, rfl, rfl, rfl, rfl⟩

set_option maxRecDepth 20000 in
/-- Accumulator 64 of row 0 takes the product of 1.0 and the latch's 1.0. -/
theorem sharedState_accumulates :
    ((frontAfter (sharedState.coreAt 0).ctx.eng sharedOp [0x38] []).get 0).extractLsb' (32 * (64 : Fin 128).val) 32 = 0x3F800000 := by
  rw [frontAfter, groupFront_elem]
  decide

/-- Element j of operand A's row 0, as the clause reads it. -/
def sharedLeft (j : Nat) : Fv := operandElem 0 false 0x38 0 ((sharedState.coreAt 0).ctx.eng.scale.get 0) 0 0 j

/-- Element j of operand B's column 64, as the clause reads it: in a second entry of zeros, operand A taking one entry. -/
def sharedRight (j : Nat) : Fv := operandElem 4 false 0x38 0 ((sharedState.coreAt 0).ctx.eng.scale.get 64) 0 64 j

set_option maxRecDepth 20000 in
/-- By the clause the accumulator would stay 0. -/
theorem sharedState_stated : BitVec.ofNat 32 (fp32.round .near ((fp32.value
    (((sharedState.coreAt 0).ctx.eng.front.get 0).extractLsb' (32 * (64 : Fin 128).val) 32).toNat).add
      (exactSum fun j => (sharedLeft j).mul (sharedRight j)))) = 0 := by
  decide

/-- Refutes O50: its clause on a group speaks of an operation whose operands share one queue while A takes one 8-bit entry and B is read as 16-bit
elements, which R237 keeps out of the queue. The clause takes B's second entry as 0 there; the engine reads the latch of A's second entry (R239). -/
theorem not_matrixEvents : ¬ Obligations.MatrixEvents := by
  unfold Obligations.MatrixEvents
  rintro ⟨-, hgroup, -⟩
  obtain ⟨hon, hact, hscale, hneedA, hneedB, ha, hb⟩ := sharedState_group
  obtain ⟨t, ht, -, -, -, -, -, -, -, hacc, -⟩ := hgroup sharedState 0 sharedOp [0x38] [] hon hact hscale hneedA hneedB ha hb
  obtain rfl : sharedState.groupBoundary 0 = t := Host.Outcome.next.inj ht
  have hstated := ((hacc rfl rfl (by decide) (by decide) 0 64).1 (by decide)).trans sharedState_stated
  rw [groupBoundary_mma hon hact hscale, groupStep_front hneedA hneedB ha hb, sharedState_accumulates] at hstated
  exact absurd hstated (by decide)

end Sys2Proof
end

section
/-! PROOF. The words of V that convert, expand and scan: VSCAC, VCVT, VDQ and VSCAN. -/

namespace Sys2Proof

open Machine Spec

/-! ## Fields of a line -/

/-- A field of a field. -/
theorem extract_div_mod (x : Line) (p n k m : Nat) (h : k + m ≤ n) :
    (x.extractLsb' p n).toNat / 2 ^ k % 2 ^ m = (x.extractLsb' (p + k) m).toNat := by
  rw [BitVec.extractLsb'_toNat, BitVec.extractLsb'_toNat, Nat.shiftRight_eq_div_pow, Nat.shiftRight_eq_div_pow, pow_add 2 p k, ← Nat.div_div_eq_div_mul]
  generalize x.toNat / 2 ^ p = y
  rw [show n = k + (n - k) by omega, pow_add, Nat.mod_mul_right_div_self, Nat.mod_mod_of_dvd _ (pow_dvd_pow 2 (by omega))]

/-- A bit of a field. -/
theorem extract_bit (x : Line) (p n k : Nat) (h : k < n) : decide ((x.extractLsb' p n).toNat / 2 ^ k % 2 = 1) = x.getLsbD (p + k) := by
  rw [← Nat.testBit_eq_decide_div_mod_eq, BitVec.testBit_toNat, BitVec.getLsbD_extractLsb']
  simp [h]

/-- Shifting a line up by whole elements moves its elements up. -/
theorem elemOf_shiftLeft (w : Nat) (x : Line) (o e : Nat) (h : 8 * w * (o + e + 1) ≤ 8192) : elemOf w (x <<< (8 * (o * w))) (o + e) = elemOf w x e := by
  have hsum : 8 * w * (o + e) = 8 * (o * w) + 8 * w * e := by ring
  have htop : 8 * w * (o + e + 1) = 8 * (o * w) + 8 * w * e + 8 * w := by ring
  unfold elemOf
  congr 1
  apply BitVec.eq_of_getLsbD_eq
  intro i hi
  rw [BitVec.getLsbD_extractLsb', BitVec.getLsbD_extractLsb', BitVec.getLsbD_shiftLeft, hsum,
    show 8 * (o * w) + 8 * w * e + i - 8 * (o * w) = 8 * w * e + i by omega]
  simp [hi, show 8 * (o * w) + 8 * w * e + i < 8192 by omega, show ¬8 * (o * w) + 8 * w * e + i < 8 * (o * w) by omega]

/-- A run of n bits from bit o on. -/
theorem runMask_getLsbD (n o j : Nat) (hj : j < 1024) : (BitVec.ofNat 1024 ((2 ^ n - 1) * 2 ^ o)).getLsbD j = decide (o ≤ j ∧ j < o + n) := by
  rw [BitVec.getLsbD_ofNat, Nat.testBit_mul_two_pow, Nat.testBit_two_pow_sub_one, Bool.eq_iff_iff]
  simp only [hj, decide_true, Bool.true_and, Bool.and_eq_true, decide_eq_true_eq]
  omega

/-! ## VSCAC (R207) -/

/-- Element e of a line that a function of e and of three lines' elements packs. -/
theorem zipThree_elem (f : Nat → Nat → Nat → Nat → Nat) (a b c : Line) (e : Nat) (h : e < 256) :
    elemOf 4 (packElems 4 (List.zipWith (fun g z => g z) (List.zipWith (fun g z => g z) (List.zipWith (fun g z => g z) ((List.range 256).map f) (elems 4 a))
      (elems 4 b)) (elems 4 c))) e = f e (elemOf 4 a e) (elemOf 4 b e) (elemOf 4 c e) % 2 ^ 32 := by
  have hlen (x : Line) : (elems 4 x).length = 256 := elems_length 4 x
  have helem (x : Line) : (elems 4 x)[e]'(by rw [hlen]; exact h) = elemOf 4 x e := by
    rw [← elems_getD 4 x e h, List.getD_eq_getElem _ _ (by rw [hlen]; exact h)]
  rw [elemOf_packElems _ _ _ (by omega), List.getD_eq_getElem _ _ (by simpa [hlen] using h), List.getElem_zipWith, List.getElem_zipWith, List.getElem_zipWith,
    List.getElem_map, List.getElem_range, helem, helem, helem]

/-- The super-scale of element e's row. -/
theorem rowScale_eq (x : Dw) (e : Nat) : (if e < 128 then (x.extractLsb' 0 32).toNat else (x.extractLsb' 32 32).toNat) =
    if e < 128 then x.toNat % 2 ^ 32 else x.toNat / 2 ^ 32 := by
  have hx := x.isLt
  rw [BitVec.extractLsb'_toNat, BitVec.extractLsb'_toNat, Nat.shiftRight_eq_div_pow, Nat.shiftRight_eq_div_pow]
  split
  · simp
  · omega

/-! ## VCVT (R95, R96, R213, R214) -/

theorem cvtFmt_eq (f : Nat) : cvtFmt f = floatFormat f := rfl

theorem cvtWidth_cases (f : Nat) : cvtWidth f = 1 ∨ cvtWidth f = 2 ∨ cvtWidth f = 4 := by
  unfold cvtWidth
  split <;> simp

/-- A float as an integer of n bits, saturated (R96). -/
theorem intBits_toIntSat (n : Nat) (hn : n = 8 ∨ n = 16 ∨ n = 32) (mode : Rmode) (v : Fv) : intBits n (v.toIntSat n mode) = (match v with
    | .nan => 0
    | .inf neg => if neg then 2 ^ (n - 1) else 2 ^ (n - 1) - 1
    | v => clampBits n (v.toIntRound mode)) := by
  cases v with
  | nan => simp [Fv.toIntSat, intBits]
  | inf neg => rcases hn with rfl | rfl | rfl <;> cases neg <;> rfl
  | fin => rfl

/-- Converting an element is the spec's rule for its two formats. -/
theorem cvtElem_eq (sf df : Nat) (mode : Rmode) (x : Nat) : cvtElem sf df mode x = converted sf df mode x := by
  have hw : 8 * cvtWidth df = 8 ∨ 8 * cvtWidth df = 16 ∨ 8 * cvtWidth df = 32 := by have := cvtWidth_cases df; omega
  unfold cvtElem converted
  rw [cvtFmt_eq, cvtFmt_eq]
  cases floatFormat sf with
  | some f =>
    cases floatFormat df with
    | some g => rfl
    | none => exact intBits_toIntSat _ hw mode (f.value x)
  | none => cases floatFormat df <;> rfl

/-- The parts that vcvtOk admits lie within the line. -/
theorem cvtPart_fits {ws wd part : Nat} (hs : ws = 1 ∨ ws = 2 ∨ ws = 4) (hd : wd = 1 ∨ wd = 2 ∨ wd = 4)
    (h : part < if wd < ws then ws / wd else wd / ws) :
    (if ws < wd then part * (1024 / max ws wd) else 0) + 1024 / max ws wd ≤ 1024 / ws ∧
    wd * ((if wd < ws then part * (1024 / max ws wd) else 0) + 1024 / max ws wd) ≤ 1024 := by
  rcases hs with rfl | rfl | rfl <;> rcases hd with rfl | rfl | rfl <;> norm_num at h ⊢ <;> omega

/-- n elements of a line, from element k on, each changed by a function of its place among them. -/
theorem convertedList_getD (w : Nat) (x : Line) (k n e : Nat) (f : Nat → Nat → Nat) (h : k + n ≤ 1024 / w) (he : e < n) :
    (((((elems w x).drop k).take n).zip (List.range n)).map fun y => f y.2 y.1).getD e 0 = f e (elemOf w x (e + k)) := by
  have hlen : e < (((elems w x).drop k).take n).length := by rw [List.length_take, List.length_drop, elems_length]; omega
  rw [List.getD_eq_getElem _ _ (by simpa [elems_length] using by omega), List.getElem_map, List.getElem_zip]
  dsimp only
  rw [List.getElem_range, List.getElem_take, List.getElem_drop, ← elems_getD w x (e + k) (by omega), List.getD_eq_getElem _ _ (by rw [elems_length]; omega)]
  simp only [Nat.add_comm]

/-- The fields of a VCVT that is defined. -/
theorem vcvt_part {st : Bool} {d a b : BitVec 6} {p : BitVec 3} {ty : BitVec 2} (h : (Instr.vcvt st d a b p ty).wf = true) :
    ty.toNat < if cvtWidth (b.toNat % 8) < cvtWidth (b.toNat / 8) then cvtWidth (b.toNat / 8) / cvtWidth (b.toNat % 8)
      else cvtWidth (b.toNat % 8) / cvtWidth (b.toNat / 8) := by
  simp only [Instr.wf, vcvtOk, cvtParts, Bool.and_eq_true, decide_eq_true_eq] at h
  exact of_decide_eq_true h.1.2

/-! ## VDQ (R100, R216) -/

/-- An element of a Q4Q block by its fields (R98, R100). -/
theorem q4Dequant_eq (c e : Nat) (mask : Bool) (sup : Fv) (hc : c < 2 ^ 4) (he : e < 2 ^ 20) : q4Dequant c e mask sup =
    if e / 2 ^ 14 = 63 then .nan else if mask = true ∧ c % 8 = 7 then .inf (decide (8 ≤ c))
    else ((Fv.fin (decide (8 ≤ c)) (q4Mag (c % 8)) (-10)).mul (.fin false (2 ^ 14 + e % 2 ^ 14) ((e / 2 ^ 14 : Nat) - 77))).mul sup := by
  unfold q4Dequant se20Value
  rw [Nat.mod_eq_of_lt (show c < 16 by omega), Nat.mod_eq_of_lt (show e / 16384 < 64 by omega)]
  norm_num
  by_cases h : e / 16384 = 63
  · rw [if_pos h, if_pos h]
  · rw [if_neg h, if_neg h]

/-- Element j of superblock i from the fields of its records. -/
theorem dequantElem_eq (v : Line) (i j : Nat) (hj : j < 128) :
    dequantElem (v.extractLsb' (8 * (64 * i)) (8 * 64)).toNat (v.extractLsb' (8 * (128 + 48 * i)) (8 * 48)).toNat j = dequantised v i j := by
  have hbase : 8 * (128 + 48 * i) = 1024 + 384 * i := by ring
  have hcode : (v.extractLsb' (8 * (64 * i)) (8 * 64)).toNat / 16 ^ j % 16 = codeAt v i j := by
    rw [show 16 ^ j = 2 ^ (4 * j) by rw [pow_mul]; norm_num, show (16 : Nat) = 2 ^ 4 by norm_num, extract_div_mod _ _ _ _ _ (by omega), codeAt,
      show 8 * (64 * i) + 4 * j = 512 * i + 4 * j by ring]
  unfold dequantElem
  dsimp only
  rw [hcode, hbase, extract_div_mod _ _ _ _ _ (by omega), extract_div_mod _ _ _ _ _ (by omega), extract_bit _ _ _ _ (by omega),
    q4Dequant_eq _ _ _ _ (show codeAt v i j < 2 ^ 4 from BitVec.isLt _) (BitVec.isLt _), ← Nat.add_assoc]
  rfl

/-- Element j of the line that VDQ writes. -/
theorem dequantLine_elem (p : BitVec 3) (ty : BitVec 2) (phase : Nat) (a : Line) (j : Nat) (hj : j < 1024 / tyBytes ty) :
    elemOf (tyBytes ty) (dequantLine p ty phase a) j = if j < 256 then
      (tyFmt ty).round (rmodeOf p (j % 8) phase) (dequantised a (j / 128) (j % 128)) % 2 ^ (8 * tyBytes ty) else 0 := by
  unfold dequantLine
  dsimp only
  rw [elemOf_packElems _ _ _ (fits hj)]
  by_cases h0 : j < 128
  · rw [List.getD_append _ _ _ _ (by simpa using h0), List.getD_eq_getElem _ _ (by simpa using h0), List.getElem_map, List.getElem_range, if_pos (by omega),
      Nat.div_eq_of_lt h0, Nat.mod_eq_of_lt h0, ← dequantElem_eq a 0 j h0]
  · rw [List.getD_append_right _ _ _ _ (by simpa using h0)]
    by_cases h1 : j < 256
    · have hrow : j - 128 < 128 := by omega
      rw [List.getD_eq_getElem _ _ (by simpa using by omega), List.getElem_map, List.getElem_range, if_pos h1, show j / 128 = 1 by omega,
        show j % 128 = j - 128 by omega, ← dequantElem_eq a 1 (j - 128) hrow]
      simp only [List.length_map, List.length_range, show (j - 128) % 8 = j % 8 by omega]
    · rw [List.getD_eq_default _ _ (by simpa using by omega), if_neg h1, Nat.zero_mod]

/-! ## VSCAN (R111, R218) -/

/-- One aligned block more, to the left of those to come: what stands at its right end. -/
def blockStep (ty : BitVec 2) (sum : Nat × Nat → Nat) (acc : Option Nat) (b : Nat × Nat) : Option Nat :=
  some (match acc with | some a => sumStep ty a (sum b) | none => sum b)

/-- The sum over blocks from the left, where some is already there. -/
theorem foldl_blockStep_some (ty : BitVec 2) (sum : Nat × Nat → Nat) (l : List (Nat × Nat)) (a : Nat) :
    l.foldl (blockStep ty sum) (some a) = some (l.foldl (fun x b => sumStep ty x (sum b)) a) := by
  induction l generalizing a with
  | nil => rfl
  | cons b l ih => exact ih _

/-- A tree over elements that begin at a whole tree is the tree of its number. -/
theorem tree_offset (f : Nat → Nat → Nat) (x : Nat → Nat) (L m g : Nat) : tree f (fun i => x (m * 2 ^ L + i)) L g = tree f x L (m + g) := by
  induction L generalizing m g with
  | zero => simp [tree]
  | succ L ih =>
    have hbase : m * 2 ^ (L + 1) = 2 * m * 2 ^ L := by rw [pow_succ]; ring
    rw [tree, tree, hbase, ih, ih, show 2 * m + 2 * g = 2 * (m + g) by ring, show 2 * m + (2 * g + 1) = 2 * (m + g) + 1 by ring]

theorem headD_eq_getD (l : List Nat) : l.headD 0 = l.getD 0 0 := by cases l <;> rfl

/-- The tree over a list's first 2^L elements, which are x's from a whole tree on. -/
theorem pairTree_take_headD {f : Nat → Nat → Nat} {x : Nat → Nat} {L m : Nat} {l : List Nat} (hlen : 2 ^ L ≤ l.length)
    (hl : ∀ i, i < 2 ^ L → l.getD i 0 = x (m * 2 ^ L + i)) : (pairTree f L (l.take (2 ^ L))).headD 0 = tree f x L m := by
  have hsize : (l.take (2 ^ L)).length = 2 ^ L * 1 := by rw [List.length_take]; omega
  rw [headD_eq_getD, pairTree_getD f 1 L 0 _ hsize (by decide), ← Nat.add_zero m, ← tree_offset]
  refine tree_congr f _ _ 1 L 0 (by decide) fun i hi => ?_
  rw [mul_one] at hi
  rw [← hl i hi, List.getD_eq_getElem?_getD, List.getD_eq_getElem?_getD, List.getElem?_take_of_lt hi]

/-- The scan at position j folds the blocks of its first j + 1 elements; the elements of list l are x's, from those that are folded on. -/
theorem scanAt_eq (ty : BitVec 2) (x : Nat → Nat) (j base k start : Nat) (l : List Nat) (acc : Option Nat) (hlen : (j + 1) % 2 ^ (k + 1) ≤ l.length)
    (hl : ∀ i, i < (j + 1) % 2 ^ (k + 1) → l.getD i 0 = x (base + start + i)) (hdvd : 2 ^ k ∣ base + start) : scanAt ty j k l acc =
    ((blocksFrom (j + 1) k start).foldl (blockStep ty fun b => tree (sumStep ty) x b.2 ((base + b.1) / 2 ^ b.2)) acc).getD 0 := by
  induction k generalizing start l acc with
  | zero =>
    unfold scanAt blocksFrom
    split
    · rename_i hodd
      rw [headD_eq_getD, hl 0 (by simpa using by omega)]
      cases acc <;> simp [blockStep, tree]
    · rfl
  | succ k ih =>
    have hsplit := Nat.mod_pow_succ (x := j + 1) (b := 2) (k := k + 1)
    have hdvd' : 2 ^ k ∣ base + start := (pow_dvd_pow 2 (Nat.le_succ k)).trans hdvd
    unfold scanAt blocksFrom
    by_cases hbit : (j + 1) / 2 ^ (k + 1) % 2 = 1
    · rw [hbit, mul_one] at hsplit
      rw [if_pos hbit, if_pos hbit, List.foldl_cons]
      have hblock : (pairTree (sumStep ty) (k + 1) (l.take (2 ^ (k + 1)))).headD 0 = tree (sumStep ty) x (k + 1) ((base + start) / 2 ^ (k + 1)) :=
        pairTree_take_headD (by omega) fun i hi => by rw [Nat.div_mul_cancel hdvd]; exact hl i (by omega)
      dsimp only
      rw [hblock]
      refine ih (start + 2 ^ (k + 1)) _ _ ?_ (fun i hi => ?_) ?_
      · rw [List.length_drop]; omega
      · rw [List.getD_eq_getElem?_getD, List.getElem?_drop, ← List.getD_eq_getElem?_getD, hl _ (by omega)]
        congr 1
        ring
      · rw [← add_assoc]
        exact hdvd'.add (pow_dvd_pow 2 (Nat.le_succ k))
    · rw [show (j + 1) / 2 ^ (k + 1) % 2 = 0 by omega, mul_zero, add_zero] at hsplit
      rw [if_neg hbit, if_neg hbit]
      exact ih start l acc (by omega) (fun i hi => hl i (by omega)) hdvd'

/-- The sum that the spec gives a position is the fold over all blocks. -/
theorem prefixSum_eq (ty : BitVec 2) (x : Nat → Nat) (L g j : Nat) : prefixSum ty x L g j =
    ((blocksFrom (j + 1) L 0).foldl (blockStep ty fun b => tree (sumStep ty) x b.2 ((g * 2 ^ L + b.1) / 2 ^ b.2)) none).getD 0 := by
  unfold prefixSum
  cases blocksFrom (j + 1) L 0 with
  | nil => rfl
  | cons b r => exact (congrArg (fun o => Option.getD o 0) (foldl_blockStep_some ..)).symm

/-- Element e of the line that VSCAN writes. -/
theorem scanLine_elem {ty : BitVec 2} {lv : Nat} (hn : 2 ^ lv * (1024 / tyBytes ty / 2 ^ lv) = 1024 / tyBytes ty) (on : Pred) (a : Line) (e : Nat)
    (he : e < 1024 / tyBytes ty) : elemOf (tyBytes ty) (scanLine ty lv on a) e =
      sumOut ty (prefixSum ty (fun k => sumIn ty (onElem ty on 0 a k)) lv (e / 2 ^ lv) (e % 2 ^ lv)) % 2 ^ (8 * tyBytes ty) := by
  have hlen : ((onElems ty on 0 a).map (sumIn ty)).length = 1024 / tyBytes ty := by rw [List.length_map, onElems_length]
  have hpos : 0 < 2 ^ lv := Nat.two_pow_pos lv
  have hgroup : e / 2 ^ lv < 1024 / tyBytes ty / 2 ^ lv := Nat.div_lt_div_of_lt_of_dvd ⟨_, hn.symm⟩ he
  have hend : e / 2 ^ lv * 2 ^ lv + 2 ^ lv ≤ 1024 / tyBytes ty := by
    rw [← hn, ← Nat.succ_mul, mul_comm]
    exact Nat.mul_le_mul_left _ hgroup
  have hmod := Nat.mod_lt e hpos
  have hfull : (e % 2 ^ lv + 1) % 2 ^ (lv + 1) = e % 2 ^ lv + 1 := Nat.mod_eq_of_lt (by rw [pow_succ]; omega)
  unfold scanLine
  dsimp only
  rw [elemOf_packElems _ _ _ (fits he), getD_map_zero _ _ _ (by rw [List.length_range, hlen]; exact he), List.getD_eq_getElem _ _ (by rw [List.length_range, hlen]; exact he),
    List.getElem_range, prefixSum_eq]
  congr 2
  refine scanAt_eq ty _ _ (e / 2 ^ lv * 2 ^ lv) lv 0 _ none ?_ (fun i hi => ?_) (Dvd.intro_left _ rfl)
  · rw [hfull, List.length_take, List.length_drop, hlen]; omega
  · rw [hfull] at hi
    rw [List.getD_eq_getElem?_getD, List.getElem?_take_of_lt (by omega), List.getElem?_drop, ← List.getD_eq_getElem?_getD,
      getD_map_zero _ _ _ (by rw [onElems_length]; omega), onElems_getD _ _ _ _ _ (by omega), Nat.add_zero]

end Sys2Proof
end

section
/-! PROOF. VQNT: the fields of a quantised line, and the conversions' obligation. -/

namespace Sys2Proof

open Machine Spec

/-! ## Fields of a packed natural -/

theorem packNat_lt (base : Nat) (hb : 0 < base) (l : List Nat) : packNat base l < base ^ l.length := by
  induction l with
  | nil => simp [packNat]
  | cons v r ih =>
    have hv := Nat.mod_lt v hb
    rw [packNat, List.length_cons, pow_succ']
    calc v % base + base * packNat base r < base * (packNat base r + 1) := by rw [mul_add, mul_one]; omega
      _ ≤ base * base ^ r.length := Nat.mul_le_mul_left _ ih

/-- A field of the low part. -/
theorem field_low (x y : Nat) {n k m : Nat} (h : k + m ≤ n) : (x + 2 ^ n * y) / 2 ^ k % 2 ^ m = x / 2 ^ k % 2 ^ m := by
  have hdvd : 2 ^ (k + m) ∣ 2 ^ n * y := (pow_dvd_pow 2 h).mul_right y
  rw [← Nat.mod_mul_right_div_self, ← Nat.mod_mul_right_div_self, ← pow_add, Nat.add_mod, Nat.mod_eq_zero_of_dvd hdvd, Nat.add_zero, Nat.mod_mod]

/-- A field of the high part. -/
theorem field_high {x n : Nat} (hx : x < 2 ^ n) (y k m : Nat) : (x + 2 ^ n * y) / 2 ^ (n + k) % 2 ^ m = y / 2 ^ k % 2 ^ m := by
  rw [pow_add, ← Nat.div_div_eq_div_mul, Nat.add_mul_div_left _ _ (Nat.two_pow_pos n), Nat.div_eq_of_lt hx, Nat.zero_add]

/-- A field of a line given as a natural. -/
theorem extract_ofNat (x p n : Nat) (h : p + n ≤ 8192) : ((BitVec.ofNat 8192 x).extractLsb' p n).toNat = x / 2 ^ p % 2 ^ n := by
  rw [BitVec.extractLsb'_toNat, BitVec.toNat_ofNat, Nat.shiftRight_eq_div_pow, show 8192 = p + (8192 - p) by omega, pow_add, Nat.mod_mul_right_div_self,
    Nat.mod_mod_of_dvd _ (pow_dvd_pow 2 (by omega))]

/-! ## Magnitudes (R102) -/

/-- The larger of two values that are no NaN is one of them. -/
theorem max_eq_or {x y : Fv} (hx : x.isNan = false) (hy : y.isNan = false) : x.max y = x ∨ x.max y = y := by
  unfold Fv.max
  rw [hx, hy]
  split_ifs <;> simp_all

/-- A magnitude whose unit FP32 holds. -/
def Magnitude (v : Fv) : Prop := ∃ m e, v = .fin false m e ∧ fp32.emin ≤ e

theorem Magnitude.max {x y : Fv} (hx : Magnitude x) (hy : Magnitude y) : Magnitude (x.max y) := by
  have hxn : x.isNan = false := by obtain ⟨m, e, rfl, -⟩ := hx; rfl
  have hyn : y.isNan = false := by obtain ⟨m, e, rfl, -⟩ := hy; rfl
  obtain h | h := max_eq_or hxn hyn <;> rw [h] <;> assumption

theorem magnitude_zero : Magnitude Fv.zero := ⟨0, 0, rfl, by decide⟩

/-- The unit of a finite FP32 value is that of the subnormals, or a larger one. -/
theorem emin_le_of_value {x : Nat} {n : Bool} {m : Nat} {e : Int} (h : fp32.value x = .fin n m e) : fp32.emin ≤ e := by
  unfold Ffmt.value at h
  dsimp only at h
  split at h
  · cases h
  · split at h
    · split at h <;> cases h
    · split at h
      · cases h; exact le_refl _
      · cases h; omega

theorem magnitude_blockMax {l : List Fv} (h : ∀ v ∈ l, ∃ x, v = fp32.value x) : Magnitude (blockMax l) := by
  unfold blockMax
  refine List.foldlRecOn l _ magnitude_zero fun a ha v hv => ?_
  obtain ⟨x, rfl⟩ := h v hv
  cases hval : fp32.value x with
  | nan => exact ha
  | inf n => exact ha
  | fin n m e => exact ha.max ⟨m, e, rfl, emin_le_of_value hval⟩

theorem blockOf_values (l : List Nat) (b : Nat) : ∀ v ∈ blockOf l b, ∃ x, v = fp32.value x := by
  intro v hv
  obtain ⟨x, -, rfl⟩ := List.mem_map.1 hv
  exact ⟨x, rfl⟩

theorem magnitude_superScale (l : List Nat) : Magnitude (superScale l) := by
  unfold superScale
  refine List.foldlRecOn _ _ magnitude_zero fun a ha b _ => ?_
  dsimp only
  split
  · exact ha
  · exact ha.max (magnitude_blockMax (blockOf_values l b))

/-! ## The super-scale as FP32 (R93, R95) -/

/-- A magnitude split at a unit that is not above its leading bit keeps at least one unit. -/
theorem splitAt_pos {m : Nat} {e u : Int} (hm : m ≠ 0) (h : u ≤ e + m.log2) : 0 < (Machine.splitAt m e u).1 := by
  unfold Machine.splitAt
  split
  · exact Nat.mul_pos (Nat.pos_of_ne_zero hm) (Nat.two_pow_pos _)
  · exact Nat.div_pos ((Nat.pow_le_pow_right (by decide) (by omega)).trans (Nat.log2_self_le hm)) (Nat.two_pow_pos _)

/-- Rounding keeps at least one unit of a magnitude that is no zero. -/
theorem roundBits_pos (mode : Rmode) {m : Nat} {e : Int} (hm : m ≠ 0) (he : fp32.emin ≤ e) : 0 < (fp32.roundBits mode false m e).1 := by
  unfold Ffmt.roundBits
  dsimp only
  have hunit : max fp32.emin (e + (m.log2 : Int) - fp32.fw) ≤ e + m.log2 := max_le (by omega) (by omega)
  have hmin : fp32.emin ≤ max fp32.emin (e + (m.log2 : Int) - fp32.fw) := le_max_left ..
  have hq := splitAt_pos hm hunit
  generalize max fp32.emin (e + (m.log2 : Int) - fp32.fw) = u at hmin hq ⊢
  generalize Machine.splitAt m e u = z at hq ⊢
  have hexp : 0 < (u - fp32.emin + 1).toNat * 2 ^ fp32.fw := Nat.mul_pos (by omega) (Nat.two_pow_pos _)
  have hkept : 0 < if roundsUp mode false z.1 z.2.1 z.2.2 then z.1 + 1 else z.1 := by split <;> omega
  generalize (if roundsUp mode false z.1 z.2.1 z.2.2 then z.1 + 1 else z.1) = kept at hkept ⊢
  split <;> omega

theorem round_near_zero_iff {m : Nat} {e : Int} (he : fp32.emin ≤ e) : fp32.round .near (.fin false m e) = 0 ↔ m = 0 := by
  unfold Ffmt.round
  by_cases hm : m = 0
  · simp [hm]
  · have hb := roundBits_pos .near hm he
    simp only [hm, if_false, Bool.false_eq_true, iff_false]
    split
    · decide
    · omega

theorem round_near_lt (m : Nat) (e : Int) : fp32.round .near (.fin false m e) < 2 ^ 32 := by
  unfold Ffmt.round
  by_cases hm : m = 0
  · simp [hm]
  · simp only [hm, if_false, Bool.false_eq_true]
    split
    · decide
    · have hmax : fp32.maxBits < 2 ^ 32 := by decide
      omega

/-! ## A block's scale and codes (R102) -/

/-- The block scale of magnitude am × 2^ae under super-scale sm × 2^se. -/
def blockScale (sm : Nat) (se : Int) (am : Nat) (ae : Int) : Nat :=
  if sm = 0 then 0 else if (ratioOf am ae sm se).1 = 0 then 0 else se20Ceil (ratioOf am ae sm se).1 (ratioOf am ae sm se).2

/-- The code of element q of a block with scale `scale`, whose mask bit is `infs`. -/
def blockCode (p : BitVec 3) (phase : Nat) (infs : Bool) (sm : Nat) (se : Int) (scale q : Nat) (v : Fv) : Nat :=
  match v with
  | .nan => 0
  | .inf n => if n then 15 else 7
  | .fin n m e =>
    if sm = 0 ∨ m = 0 then 0
    else match se20Value scale with
      | some (.fin _ bm be) =>
        let i := q4Index (rmodeOf p q phase) n (ratioOf m e (bm * sm) (be + se)).1 (ratioOf m e (bm * sm) (be + se)).2
        (if infs ∧ i = 7 then 6 else i) + (if n then 8 else 0)
      | _ => 0

theorem quantBlock_nan (p : BitVec 3) (phase : Nat) (sup : Fv) {k : List Fv} (h : k.any Fv.isNan = true) :
    quantBlock p phase sup k = (0xFFFFF, List.replicate 8 0, true) := if_pos h

theorem quantBlock_eq (p : BitVec 3) (phase : Nat) {k : List Fv} {sm am : Nat} {se ae : Int} (h : k.any Fv.isNan = false)
    (hmax : blockMax k = .fin false am ae) : quantBlock p phase (.fin false sm se) k = (blockScale sm se am ae,
      (k.zip (List.range 8)).map fun x => blockCode p phase (k.any Fv.isInf) sm se (blockScale sm se am ae) x.2 x.1, k.any Fv.isInf) := by
  unfold quantBlock
  rw [h, hmax]
  rfl

/-- The SE20 of exponent field e whose fraction has been rounded up to c (R102, step 3). -/
theorem se20Grid_le {a d c e : Nat} (hsmall : ¬d * 32767 ≤ a * 32768) (he : e < 63) (hc : c ≤ 32768) (hdef : (a * 2 ^ (77 - e) + d - 1) / d = c) :
    (if c ≤ 16384 then e * 16384 else if c = 32768 then (e + 1) * 16384 else e * 16384 + (c - 16384)) ≤ 0xFBFFF := by
  have hne : c = 32768 → e ≠ 62 := by
    rintro rfl rfl
    have hfloor := Nat.div_mul_le_self (a * 2 ^ (77 - 62) + d - 1) d
    rw [hdef] at hfloor
    omega
  split_ifs with h1 h2
  · omega
  · have := hne h2; omega
  · omega

theorem se20Ceil_le (a d : Nat) : se20Ceil a d ≤ 0xFBFFF := by
  unfold se20Ceil
  split
  · exact le_refl _
  · rename_i hsmall
    extract_lets ceil
    split
    · exact le_refl _
    · rename_i e hfind
      have hc : ceil e ≤ 32768 := by simpa using List.find?_some hfind
      exact se20Grid_le hsmall (List.mem_range.1 (List.mem_of_find?_eq_some hfind)) hc rfl

theorem blockScale_le (sm : Nat) (se : Int) (am : Nat) (ae : Int) : blockScale sm se am ae ≤ 0xFBFFF := by
  unfold blockScale
  split_ifs
  · exact Nat.zero_le _
  · exact Nat.zero_le _
  · exact se20Ceil_le ..

theorem q4Index_le (mode : Rmode) (neg : Bool) (a d : Nat) : q4Index mode neg a d ≤ 7 := by
  unfold q4Index
  dsimp only
  split
  · exact Nat.zero_le _
  · split
    · exact le_refl _
    · rename_i hlast
      have hlo : ((List.range 7).filter fun i => decide (q4Mag (i + 1) * d ≤ 1024 * a)).length ≤ 6 := by
        rw [List.range_succ, List.filter_append, List.length_append]
        have h6 := List.length_filter_le (fun i => decide (q4Mag (i + 1) * d ≤ 1024 * a)) (List.range 6)
        have h7 : ([6].filter fun i => decide (q4Mag (i + 1) * d ≤ 1024 * a)) = [] := by
          rw [List.filter_cons_of_neg (by simpa using hlast), List.filter_nil]
        rw [h7, List.length_nil]
        simpa using h6
      have hstep (up : Bool) (lo : Nat) (h : lo ≤ 6) : (if up then lo + 1 else lo) ≤ 7 := by split <;> omega
      exact hstep _ _ hlo

/-- A finite element of a block under a super-scale that is no zero: its index with the sign in bit 3. -/
theorem blockCode_fin (p : BitVec 3) (phase : Nat) (infs n : Bool) {sm m scale : Nat} (se e : Int) (q : Nat) (hsm : sm ≠ 0) (hm : m ≠ 0)
    (hscale : scale ≤ 0xFBFFF) : ∃ i, i ≤ 7 ∧ (infs = true → i ≠ 7) ∧ blockCode p phase infs sm se scale q (.fin n m e) = i + if n then 8 else 0 := by
  have hval : se20Value scale = some (.fin false (16384 + scale % 16384) (((scale / 16384 % 64 : Nat) : Int) - 77)) := if_neg (by omega)
  unfold blockCode
  dsimp only
  rw [if_neg (by tauto), hval]
  dsimp only
  generalize ratioOf m e _ _ = z
  have hidx := q4Index_le (rmodeOf p q phase) n z.1 z.2
  generalize q4Index (rmodeOf p q phase) n z.1 z.2 = i at hidx
  by_cases hi : infs = true ∧ i = 7
  · exact ⟨6, by decide, fun _ => by decide, by rw [if_pos hi]⟩
  · exact ⟨i, hidx, fun h hi7 => hi ⟨h, hi7⟩, by rw [if_neg hi]⟩

/-! ## The fields of a quantised line (R99, R215) -/

/-- The elements of superblock i. -/
def superElems (a : Line) (i : Nat) : List Nat := if i = 0 then (elems 4 a).take 128 else (elems 4 a).drop 128

theorem superElems_length (a : Line) (i : Nat) : (superElems a i).length = 128 := by
  unfold superElems
  split
  · rw [List.length_take, elems_length]; rfl
  · rw [List.length_drop, elems_length]

theorem superElems_getD (a : Line) {i j : Nat} (hi : i < 2) (hj : j < 128) : (superElems a i).getD j 0 = elemOf 4 a (128 * i + j) := by
  rw [← elems_getD 4 a (128 * i + j) (by omega)]
  unfold superElems
  split
  · rename_i h0
    rw [List.getD_eq_getElem?_getD, List.getElem?_take_of_lt hj, h0, List.getD_eq_getElem?_getD, Nat.mul_zero, Nat.zero_add]
  · rename_i h0
    rw [List.getD_eq_getElem?_getD, List.getElem?_drop, List.getD_eq_getElem?_getD, show 128 * i + j = 128 + j by omega]

/-- Block b of superblock i, as the values of its eight elements. -/
theorem blockOf_superElems (a : Line) {i b : Nat} (hi : i < 2) (hb : b < 16) :
    blockOf (superElems a i) b = (List.range 8).map fun q => fp32.value (elemOf 4 a (128 * i + (8 * b + q))) := by
  unfold blockOf
  apply List.ext_getElem
  · rw [List.length_map, List.length_take, List.length_drop, superElems_length, List.length_map, List.length_range]; omega
  · intro q h1 h2
    rw [List.length_map, List.length_range] at h2
    rw [List.getElem_map, List.getElem_map, List.getElem_range, List.getElem_take, List.getElem_drop, ← superElems_getD a hi (by omega),
      List.getD_eq_getElem _ _ (by rw [superElems_length]; omega)]

/-- The scale, the codes and the mask bit of block b of superblock i. -/
def blockFields (p : BitVec 3) (phase : Nat) (a : Line) (i b : Nat) : Nat × List Nat × Bool :=
  quantBlock p phase (superScale (superElems a i)) (blockOf (superElems a i) b)

theorem quantBlock_codes_length (p : BitVec 3) (phase : Nat) (sup : Fv) {k : List Fv} (h : k.length = 8) : (quantBlock p phase sup k).2.1.length = 8 := by
  unfold quantBlock
  split
  · rfl
  · dsimp only
    split
    · simp [h]
    · rfl

theorem blockFields_codes_length (p : BitVec 3) (phase : Nat) (a : Line) {i b : Nat} (hi : i < 2) (hb : b < 16) : (blockFields p phase a i b).2.1.length = 8 :=
  quantBlock_codes_length _ _ _ (by rw [blockOf_superElems a hi hb, List.length_map, List.length_range])

/-- Lists of eight, one behind the other. -/
theorem flatMap_getD (l : List Nat) (f : Nat → List Nat) (hf : ∀ x ∈ l, (f x).length = 8) (b q : Nat) (hb : b < l.length) (hq : q < 8) :
    (l.flatMap f).getD (8 * b + q) 0 = (f l[b]).getD q 0 := by
  induction l generalizing b with
  | nil => exact absurd hb (Nat.not_lt_zero _)
  | cons x l ih =>
    have hx := hf x List.mem_cons_self
    rw [List.flatMap_cons]
    cases b with
    | zero => rw [List.getD_append _ _ _ _ (by omega), Nat.mul_zero, Nat.zero_add]; rfl
    | succ b =>
      rw [List.getD_append_right _ _ _ _ (by omega), hx, show 8 * (b + 1) + q - 8 = 8 * b + q by omega,
        ih (fun y hy => hf y (List.mem_cons_of_mem _ hy)) b (by simpa using hb)]
      rfl

theorem flatMap_length (l : List Nat) (f : Nat → List Nat) (hf : ∀ x ∈ l, (f x).length = 8) : (l.flatMap f).length = 8 * l.length := by
  induction l with
  | nil => rfl
  | cons x l ih =>
    rw [List.flatMap_cons, List.length_append, hf x List.mem_cons_self, ih fun y hy => hf y (List.mem_cons_of_mem _ hy), List.length_cons]
    ring

/-- The code record of superblock i. -/
def codeRecord (p : BitVec 3) (phase : Nat) (a : Line) (i : Nat) : Nat := packNat 16 ((List.range 16).flatMap fun b => (blockFields p phase a i b).2.1)

/-- The block scales of superblock i, one behind the other. -/
def scaleRun (p : BitVec 3) (phase : Nat) (a : Line) (i : Nat) : Nat := packNat (2 ^ 20) ((List.range 16).map fun b => (blockFields p phase a i b).1)

/-- Its mask bits. -/
def maskRun (p : BitVec 3) (phase : Nat) (a : Line) (i : Nat) : Nat := packNat 2 ((List.range 16).map fun b => Machine.bit (blockFields p phase a i b).2.2)

/-- Its super-scale as FP32. -/
def superBits (a : Line) (i : Nat) : Nat := fp32.round .near (superScale (superElems a i))

/-- The scale record of superblock i. -/
def scaleRecord (p : BitVec 3) (phase : Nat) (a : Line) (i : Nat) : Nat :=
  scaleRun p phase a i + 2 ^ 320 * (superBits a i + 2 ^ 32 * maskRun p phase a i)

theorem quantSuper_eq (p : BitVec 3) (phase : Nat) (a : Line) (i : Nat) :
    quantSuper p phase (superElems a i) = (codeRecord p phase a i, scaleRecord p phase a i) := by
  have hrecord : (quantSuper p phase (superElems a i)).2 = scaleRun p phase a i + superBits a i * 2 ^ 320 + maskRun p phase a i * 2 ^ 352 := by
    unfold quantSuper scaleRun maskRun
    dsimp only
    rw [List.map_map, List.map_map]
    rfl
  have hcodes : (quantSuper p phase (superElems a i)).1 = codeRecord p phase a i := by
    unfold quantSuper codeRecord
    dsimp only
    rw [List.flatMap_map]
    rfl
  refine Prod.ext hcodes (hrecord.trans ?_)
  unfold scaleRecord
  rw [mul_add, ← mul_assoc, ← pow_add]
  ring

/-- The line that VQNT writes, from the bottom up. -/
theorem quantLine_eq (p : BitVec 3) (phase : Nat) (a : Line) : quantLine p phase a = BitVec.ofNat 8192 (codeRecord p phase a 0 +
    2 ^ 512 * (codeRecord p phase a 1 + 2 ^ 512 * (scaleRecord p phase a 0 + 2 ^ 384 * scaleRecord p phase a 1))) := by
  unfold quantLine
  dsimp only
  rw [show (elems 4 a).take 128 = superElems a 0 from rfl, show (elems 4 a).drop 128 = superElems a 1 from rfl, quantSuper_eq, quantSuper_eq]
  dsimp only
  rw [show (2 : Nat) ^ 1408 = 2 ^ 512 * (2 ^ 512 * 2 ^ 384) by rw [← pow_add, ← pow_add], show (2 : Nat) ^ 1024 = 2 ^ 512 * 2 ^ 512 by rw [← pow_add]]
  generalize (2 : Nat) ^ 512 = u
  generalize (2 : Nat) ^ 384 = w
  generalize codeRecord p phase a 0 = c0
  generalize codeRecord p phase a 1 = c1
  generalize scaleRecord p phase a 0 = s0
  generalize scaleRecord p phase a 1 = s1
  exact congrArg (BitVec.ofNat 8192) (by ring)

theorem blockFields_flat_length (p : BitVec 3) (phase : Nat) (a : Line) {i : Nat} (hi : i < 2) :
    ((List.range 16).flatMap fun b => (blockFields p phase a i b).2.1).length = 128 := by
  rw [flatMap_length _ _ fun b hb => blockFields_codes_length p phase a hi (List.mem_range.1 hb)]
  rfl

theorem codeRecord_lt (p : BitVec 3) (phase : Nat) (a : Line) {i : Nat} (hi : i < 2) : codeRecord p phase a i < 2 ^ 512 := by
  have h := packNat_lt 16 (by decide) ((List.range 16).flatMap fun b => (blockFields p phase a i b).2.1)
  rw [blockFields_flat_length p phase a hi, show (16 : Nat) ^ 128 = 2 ^ 512 by rw [show (16 : Nat) = 2 ^ 4 by rfl, ← pow_mul]] at h
  exact h

theorem scaleRun_lt (p : BitVec 3) (phase : Nat) (a : Line) (i : Nat) : scaleRun p phase a i < 2 ^ 320 := by
  have h := packNat_lt (2 ^ 20) (by decide) ((List.range 16).map fun b => (blockFields p phase a i b).1)
  rw [List.length_map, List.length_range, ← pow_mul] at h
  exact h

theorem maskRun_lt (p : BitVec 3) (phase : Nat) (a : Line) (i : Nat) : maskRun p phase a i < 2 ^ 16 := by
  have h := packNat_lt 2 (by decide) ((List.range 16).map fun b => Machine.bit (blockFields p phase a i b).2.2)
  rw [List.length_map, List.length_range] at h
  exact h

theorem superBits_lt (a : Line) (i : Nat) : superBits a i < 2 ^ 32 := by
  obtain ⟨m, e, h, -⟩ := magnitude_superScale (superElems a i)
  rw [superBits, h]
  exact round_near_lt m e

theorem scaleRecord_lt (p : BitVec 3) (phase : Nat) (a : Line) (i : Nat) : scaleRecord p phase a i < 2 ^ 368 := by
  have hlow := scaleRun_lt p phase a i
  have hhigh : superBits a i + 2 ^ 32 * maskRun p phase a i + 1 ≤ 2 ^ 48 := by
    have := superBits_lt a i
    have := maskRun_lt p phase a i
    omega
  unfold scaleRecord
  rw [show (368 : Nat) = 320 + 48 by rfl, pow_add]
  generalize superBits a i + 2 ^ 32 * maskRun p phase a i = y at hhigh ⊢
  generalize (2 : Nat) ^ 320 = u at hlow ⊢
  calc scaleRun p phase a i + u * y < u * (y + 1) := by rw [mul_add, mul_one]; omega
    _ ≤ u * 2 ^ 48 := Nat.mul_le_mul_left u hhigh

/-- A field of a code record, read from the line. -/
theorem quantLine_codeField (p : BitVec 3) (phase : Nat) (a : Line) {i k m : Nat} (hi : i < 2) (h : k + m ≤ 512) :
    ((quantLine p phase a).extractLsb' (512 * i + k) m).toNat = codeRecord p phase a i / 2 ^ k % 2 ^ m := by
  rw [quantLine_eq, extract_ofNat _ _ _ (by omega)]
  obtain rfl | rfl : i = 0 ∨ i = 1 := by omega
  · rw [Nat.mul_zero, Nat.zero_add, field_low _ _ h]
  · rw [Nat.mul_one, field_high (codeRecord_lt p phase a (by decide)), field_low _ _ h]

/-- A field of a scale record, read from the line. -/
theorem quantLine_scaleField (p : BitVec 3) (phase : Nat) (a : Line) {i k m : Nat} (hi : i < 2) (h : k + m ≤ 384) :
    ((quantLine p phase a).extractLsb' (1024 + 384 * i + k) m).toNat = scaleRecord p phase a i / 2 ^ k % 2 ^ m := by
  have hlt : scaleRecord p phase a 0 < 2 ^ 384 := (scaleRecord_lt p phase a 0).trans_le (Nat.pow_le_pow_right (by decide) (by decide))
  rw [quantLine_eq, extract_ofNat _ _ _ (by omega), show 1024 + 384 * i + k = 512 + (512 + (384 * i + k)) by omega,
    field_high (codeRecord_lt p phase a (by decide)), field_high (codeRecord_lt p phase a (by decide))]
  obtain rfl | rfl : i = 0 ∨ i = 1 := by omega
  · rw [Nat.mul_zero, Nat.zero_add, field_low _ _ h]
  · rw [Nat.mul_one, field_high hlt]

theorem quantLine_above (p : BitVec 3) (phase : Nat) (a : Line) : (quantLine p phase a).extractLsb' 1792 6400 = 0 := by
  apply BitVec.eq_of_toNat_eq
  have hlt (i : Nat) : scaleRecord p phase a i < 2 ^ 384 := (scaleRecord_lt p phase a i).trans_le (Nat.pow_le_pow_right (by decide) (by decide))
  rw [quantLine_eq, extract_ofNat _ _ _ (by decide), show 1792 = 512 + (512 + (384 + 384)) by rfl, field_high (codeRecord_lt p phase a (by decide)),
    field_high (codeRecord_lt p phase a (by decide)), field_high (hlt 0), Nat.div_eq_of_lt (hlt 1), Nat.zero_mod]
  simp

/-- Above its mask bits a scale record is zero. -/
theorem quantLine_aboveMask (p : BitVec 3) (phase : Nat) (a : Line) {i : Nat} (hi : i < 2) : (quantLine p phase a).extractLsb' (1024 + 384 * i + 368) 16 = 0 := by
  apply BitVec.eq_of_toNat_eq
  rw [quantLine_scaleField p phase a hi (by decide), Nat.div_eq_of_lt (scaleRecord_lt p phase a i), Nat.zero_mod]
  rfl

section Fields
variable (p : BitVec 3) (phase : Nat) (a : Line) {i b : Nat} (hi : i < 2) (hb : b < 16)
include hi

theorem superAt_quantLine : superAt (quantLine p phase a) i = superBits a i := by
  have hlt := superBits_lt a i
  rw [superAt, quantLine_scaleField p phase a hi (by decide), scaleRecord, show 320 = 320 + 0 by rfl]
  rw [field_high (scaleRun_lt p phase a i), field_low _ _ (by decide), pow_zero, Nat.div_one, Nat.mod_eq_of_lt hlt]

include hb

theorem codeAt_quantLine {q : Nat} (hq : q < 8) : codeAt (quantLine p phase a) i (8 * b + q) = (blockFields p phase a i b).2.1.getD q 0 % 16 := by
  have hdigit := packNat_digit 16 (by decide) ((List.range 16).flatMap fun b => (blockFields p phase a i b).2.1) (8 * b + q)
  rw [flatMap_getD _ _ (fun b hb => blockFields_codes_length p phase a hi (List.mem_range.1 hb)) b q (by simpa using hb) hq, List.getElem_range,
    show 16 ^ (8 * b + q) = 2 ^ (4 * (8 * b + q)) by rw [pow_mul]; norm_num] at hdigit
  rw [codeAt, quantLine_codeField p phase a hi (by omega)]
  exact hdigit

theorem bscaleAt_quantLine : bscaleAt (quantLine p phase a) i b = (blockFields p phase a i b).1 % 2 ^ 20 := by
  have hdigit := packNat_digit (2 ^ 20) (by decide) ((List.range 16).map fun b => (blockFields p phase a i b).1) b
  rw [List.getD_eq_getElem _ _ (by simpa using hb), List.getElem_map, List.getElem_range, ← pow_mul] at hdigit
  rw [bscaleAt, quantLine_scaleField p phase a hi (by omega), scaleRecord, field_low _ _ (by omega)]
  exact hdigit

theorem nfAt_quantLine : nfAt (quantLine p phase a) i b = (blockFields p phase a i b).2.2 := by
  have hdigit := packNat_digit 2 (by decide) ((List.range 16).map fun b => Machine.bit (blockFields p phase a i b).2.2) b
  rw [List.getD_eq_getElem _ _ (by simpa using hb), List.getElem_map, List.getElem_range] at hdigit
  have hfield : scaleRecord p phase a i / 2 ^ (352 + b) % 2 ^ 1 = maskRun p phase a i / 2 ^ b % 2 ^ 1 := by
    rw [scaleRecord, show 352 + b = 320 + (32 + b) by omega, field_high (scaleRun_lt p phase a i), field_high (superBits_lt a i)]
  rw [nfAt, ← Nat.add_zero (1024 + 384 * i + 352 + b), ← extract_bit _ _ 1 0 (by decide), pow_zero, Nat.div_one, Nat.add_assoc,
    quantLine_scaleField p phase a hi (by omega), hfield, pow_one, maskRun, hdigit]
  cases (blockFields p phase a i b).2.2 <;> rfl

end Fields

/-! ## What R102 says of each block -/

section Block
variable (a : Line) {i b : Nat} (hi : i < 2) (hb : b < 16)
include hi hb

theorem block_any (f : Fv → Bool) : (blockOf (superElems a i) b).any f = true ↔ ∃ q, q < 8 ∧ f (fp32.value (elemOf 4 a (128 * i + (8 * b + q)))) = true := by
  rw [blockOf_superElems a hi hb]
  simp [List.any_eq_true]

theorem block_isNan : (blockOf (superElems a i) b).any Fv.isNan = true ↔ ∃ q, q < 8 ∧ fp32.value (elemOf 4 a (128 * i + (8 * b + q))) = .nan := by
  have hnan (v : Fv) : v.isNan = true ↔ v = .nan := by cases v <;> simp [Fv.isNan]
  simp only [block_any a hi hb, hnan]

theorem block_isInf : (blockOf (superElems a i) b).any Fv.isInf = true ↔ ∃ q n, q < 8 ∧ fp32.value (elemOf 4 a (128 * i + (8 * b + q))) = .inf n := by
  have hinf (v : Fv) : v.isInf = true ↔ ∃ n, v = .inf n := by cases v <;> simp [Fv.isInf]
  simp only [block_any a hi hb, hinf, exists_and_left]

/-- The scale, the codes and the mask bit of a block without a NaN, under its super-scale. -/
theorem blockFields_eq (p : BitVec 3) (phase : Nat) (h : (blockOf (superElems a i) b).any Fv.isNan = false) :
    ∃ sm se scale, (superBits a i = 0 ↔ sm = 0) ∧ scale ≤ 0xFBFFF ∧ (sm = 0 → scale = 0) ∧ (blockFields p phase a i b).1 = scale ∧
      (blockFields p phase a i b).2.2 = (blockOf (superElems a i) b).any Fv.isInf ∧
      ∀ q, q < 8 → (blockFields p phase a i b).2.1.getD q 0 =
        blockCode p phase ((blockOf (superElems a i) b).any Fv.isInf) sm se scale q (fp32.value (elemOf 4 a (128 * i + (8 * b + q)))) := by
  obtain ⟨sm, se, hsup, hse⟩ := magnitude_superScale (superElems a i)
  obtain ⟨am, ae, hmax, -⟩ := magnitude_blockMax (blockOf_values (superElems a i) b)
  have hfields := quantBlock_eq p phase (sm := sm) (se := se) h hmax
  rw [← hsup] at hfields
  refine ⟨sm, se, blockScale sm se am ae, ?_, blockScale_le .., fun h0 => if_pos h0, congrArg Prod.fst hfields, congrArg (fun z => z.2.2) hfields, fun q hq => ?_⟩
  · rw [superBits, hsup, round_near_zero_iff hse]
  · have hlen : q < ((blockOf (superElems a i) b).zip (List.range 8)).length := by
      rw [List.length_zip, blockOf_superElems a hi hb, List.length_map, List.length_range]; simpa using hq
    rw [blockFields, hfields]
    dsimp only
    rw [List.getD_eq_getElem _ _ (by rw [List.length_map]; exact hlen), List.getElem_map, List.getElem_zip, List.getElem_range]
    simp only [blockOf_superElems a hi hb, List.getElem_map, List.getElem_range]

end Block

theorem blockCode_zero (p : BitVec 3) (phase : Nat) (infs n : Bool) {sm m : Nat} (se e : Int) (scale q : Nat) (h : m = 0 ∨ sm = 0) :
    blockCode p phase infs sm se scale q (.fin n m e) = 0 := if_pos h.symm

/-- The line that VQNT writes is quantised as R102 says, in both superblocks. -/
theorem quantised_quantLine (p : BitVec 3) (phase : Nat) (a : Line) {i : Nat} (hi : i < 2) : quantised a (quantLine p phase a) i := by
  intro b hb nan inf
  have hcode {q : Nat} (hq : q < 8) := codeAt_quantLine p phase a hi hb hq
  rw [bscaleAt_quantLine p phase a hi hb, nfAt_quantLine p phase a hi hb, superAt_quantLine p phase a hi]
  refine ⟨fun hnan => ?_, fun hnan => ?_⟩
  · have hfields : blockFields p phase a i b = _ := quantBlock_nan p phase _ ((block_isNan a hi hb).2 hnan)
    refine ⟨by rw [hfields]; rfl, by rw [hfields], fun q hq => ?_⟩
    rw [hcode hq, hfields, List.getD_eq_getElem _ _ (by simpa using hq), List.getElem_replicate]
  · obtain ⟨sm, se, scale, hzero, hle, hscale, h1, h3, h2⟩ := blockFields_eq a hi hb p phase (Bool.eq_false_iff.2 fun h => hnan ((block_isNan a hi hb).1 h))
    have hinf := block_isInf a hi hb
    rw [h1, h3, Nat.mod_eq_of_lt (by omega)]
    refine ⟨hle, hinf, fun h0 => hscale (hzero.1 h0), fun q hq => ⟨fun n hx => ?_, fun n m e hx => ⟨fun h0 => ?_, fun hm hs => ?_, fun hany => ?_⟩⟩⟩
    all_goals rw [hcode hq, h2 q hq, show fp32.value (elemOf 4 a (128 * i + (8 * b + q))) = _ from hx]
    · cases n <;> rfl
    · rw [blockCode_zero _ _ _ _ _ _ _ _ (h0.imp_right hzero.1)]
    · obtain ⟨idx, hidx, -, hval⟩ := blockCode_fin p phase ((blockOf (superElems a i) b).any Fv.isInf) n se e q (mt hzero.2 hs) hm hle
      rw [hval]
      cases n <;> simp <;> omega
    · by_cases h0 : m = 0 ∨ sm = 0
      · rw [blockCode_zero _ _ _ _ _ _ _ _ h0]; decide
      · obtain ⟨idx, hidx, hne, hval⟩ := blockCode_fin p phase ((blockOf (superElems a i) b).any Fv.isInf) n se e q (fun h => h0 (.inr h)) (fun h => h0 (.inl h)) hle
        have := hne (hinf.2 hany)
        rw [hval]
        cases n <;> simp <;> omega

/-! ## The obligation -/

/-- VCVT's line: the converted elements of its part, and the bytes it writes. -/
theorem vcvt_line {sf df : Nat} {part : Nat} (hpart : part < if cvtWidth df < cvtWidth sf then cvtWidth sf / cvtWidth df else cvtWidth df / cvtWidth sf)
    (x : Line) (mode : Nat → Rmode) (e : Nat) (he : e < 1024 / max (cvtWidth sf) (cvtWidth df)) :
    let n := 1024 / max (cvtWidth sf) (cvtWidth df)
    let src := (elems (cvtWidth sf) x).drop (if cvtWidth sf < cvtWidth df then part * n else 0)
    let out := ((src.take n).zip (List.range n)).map fun y => cvtElem sf df (mode y.2) y.1
    let o := if cvtWidth df < cvtWidth sf then part * n else 0
    elemOf (cvtWidth df) (packElems (cvtWidth df) out <<< (8 * (o * cvtWidth df))) (o + e) =
      converted sf df (mode e) (elemOf (cvtWidth sf) x (e + if cvtWidth sf < cvtWidth df then part * n else 0)) % 2 ^ (8 * cvtWidth df) := by
  obtain ⟨hsrc, hdst⟩ := cvtPart_fits (cvtWidth_cases sf) (cvtWidth_cases df) hpart
  intro n src out o
  have hend : 8 * cvtWidth df * (o + e + 1) ≤ 8192 := by
    rw [mul_assoc]
    exact (Nat.mul_le_mul_left 8 ((Nat.mul_le_mul_left _ (show o + (e + 1) ≤ o + n from Nat.add_le_add_left he o)).trans hdst)).trans (by decide)
  have hlow : 8 * cvtWidth df * (e + 1) ≤ 8192 := (Nat.mul_le_mul_left _ (by omega)).trans hend
  rw [elemOf_shiftLeft _ _ _ _ hend, elemOf_packElems _ _ _ hlow]
  rw [convertedList_getD (cvtWidth sf) x _ n e (fun q y => cvtElem sf df (mode q) y) hsrc he, cvtElem_eq]

/-- Settles O32: each word's line has the elements that the spec's rule names, and its queues being ready the word goes on. -/
theorem vConvertWords : Obligations.VConvertWords := by
  refine ⟨fun s st d a b p ty hi hready => ?_, fun s st d a b p ty hi => ?_, fun s st d a p ty hi hready => ?_, fun s st d a p ty hi hready => ?_,
    fun s st d a b p ty hi hready => ?_⟩
  · obtain ⟨t, ht, hpast⟩ := exec_go hi (v := vscacV d a b p s) rfl (withQueues_ready (dst := some (d, 3)) hready)
    refine ⟨_, t, fun e he => ?_, ht, hpast⟩
    rw [zipThree_elem _ _ _ _ _ he, ← rowScale_eq]
    rfl
  · intro sf df ws wd n o hready
    obtain ⟨t, ht, hpast⟩ := exec_go hi (v := vcvtV d a b p ty s) rfl (withQueues_ready (dst := some (d, cvtEsz df)) hready)
    have hoff : (if wd < ws then ty.toNat * n * wd else 0) = o * wd := by
      simp only [o]
      split
      · rfl
      · rw [Nat.zero_mul]
    refine ⟨_, _, t, fun e he => ?_, fun j hj => ?_, ht, hpast⟩
    · rw [hoff]
      exact vcvt_line (vcvt_part hi.wf) _ (fun q => rmodeOf p q (here s).dph.toNat) e he
    · rw [hoff, runMask_getLsbD _ _ _ hj, ← Nat.add_mul]
  · obtain ⟨t, ht, hpast⟩ := exec_go hi (v := vdqV d a p ty s) rfl (withQueues_ready (dst := some (d, tyEsz ty)) hready)
    exact ⟨_, t, fun j hj => dequantLine_elem p ty _ _ j hj, ht, hpast⟩
  · obtain ⟨t, ht, hpast⟩ := exec_go hi (v := vqntV d a p s) rfl (withQueues_ready (dst := some (d, 0)) hready)
    exact ⟨_, t, quantised_quantLine p _ _ (by decide), quantised_quantLine p _ _ (by decide),
      ⟨quantLine_aboveMask p _ _ (i := 0) (by decide), quantLine_aboveMask p _ _ (i := 1) (by decide), quantLine_above p _ _⟩, rfl, ht, hpast⟩
  · have hwf := hi.wf
    simp only [Instr.wf, Bool.and_eq_true] at hwf
    obtain ⟨t, ht, hpast⟩ := exec_go hi rfl (withQueues_ready (dst := some (d, tyEsz ty)) hready)
    exact ⟨_, t, fun e he => scanLine_elem (levels_groups hwf.2) _ _ e he, ht, hpast⟩

end Sys2Proof
end

section
/-! PROOF. Decoding and encoding are inverse to each other. -/

namespace Sys2Proof

open Laws

/-! ## What decodes is its own encoding -/

theorem fieldsCommon_seat {w : Word} {i : Instr} (h : fieldsCommon w = some i) : i.seat = some none := by
  unfold fieldsCommon at h
  dsimp only at h
  split at h <;> cases h <;> rfl

/-- A seat reads a word as an instruction of its own map or of the common group (R114): each row of the four maps is of its seat. -/
theorem fieldsOf_inSeat {k : SeatId} {w : Word} {i : Instr} (h : fieldsOf k w = some i) : i.inSeat k := by
  unfold fieldsOf at h
  split at h
  case isTrue => exact .inr (fieldsCommon_seat h)
  case isFalse =>
    cases k
    all_goals
      left
      dsimp only [fieldsC, fieldsA, fieldsV, fieldsM] at h
      split at h <;> cases h <;> rfl

/-- The outcome of decoding: the fields read, where the encoder gives the word back for them and they hold values that the instruction accepts. -/
theorem decode_eq_ok_iff {k : SeatId} {w : Word} {i : Instr} :
    decode k w = .ok i ↔ fieldsOf k w = some i ∧ encode i = some w ∧ i.wf = true := by
  refine ⟨fun h => ?_, fun ⟨hfields, hencode, hwf⟩ => DecodesBack.decode_of_fields hfields hencode hwf⟩
  unfold decode at h
  split at h
  case h_1 => cases h
  case h_2 j hfields =>
    split_ifs at h with hencode hwf
    cases h
    exact ⟨hfields, hencode, hwf⟩

/-- Settles O2: the decoder answers no word that is not its own encoding, and reads it in the map of its seat. -/
theorem encodeDecode : Obligations.EncodeDecode := by
  intro k w i h
  obtain ⟨hfields, hencode, hwf⟩ := decode_eq_ok_iff.1 h
  exact ⟨hencode, hwf, fieldsOf_inSeat hfields⟩

/-! ## What is encoded decodes -/

/-- Each instruction word is read back by the law of its row (R125, R133 to R136); an event has no word. -/
theorem decodesBack (i : Instr) : DecodesBack.Statement i := by
  cases i with
  | add => exact DecodesBack.add .. | sub => exact DecodesBack.sub .. | mul => exact DecodesBack.mul .. | mulh => exact DecodesBack.mulh ..
  | mulhu => exact DecodesBack.mulhu .. | div => exact DecodesBack.div .. | divu => exact DecodesBack.divu .. | rem => exact DecodesBack.rem ..
  | and => exact DecodesBack.and .. | or => exact DecodesBack.or .. | xor => exact DecodesBack.xor .. | shl => exact DecodesBack.shl ..
  | shr => exact DecodesBack.shr .. | sar => exact DecodesBack.sar .. | min => exact DecodesBack.min .. | max => exact DecodesBack.max ..
  | slt => exact DecodesBack.slt .. | sltu => exact DecodesBack.sltu .. | addi => exact DecodesBack.addi .. | andi => exact DecodesBack.andi ..
  | ori => exact DecodesBack.ori .. | xori => exact DecodesBack.xori .. | shli => exact DecodesBack.shli .. | shri => exact DecodesBack.shri ..
  | sari => exact DecodesBack.sari .. | slti => exact DecodesBack.slti .. | lui => exact DecodesBack.lui .. | beq => exact DecodesBack.beq ..
  | bne => exact DecodesBack.bne .. | blt => exact DecodesBack.blt .. | bge => exact DecodesBack.bge .. | bltu => exact DecodesBack.bltu ..
  | bgeu => exact DecodesBack.bgeu .. | jmp => exact DecodesBack.jmp .. | jal => exact DecodesBack.jal .. | jr => exact DecodesBack.jr ..
  | lset => exact DecodesBack.lset .. | spawn => exact DecodesBack.spawn .. | park => exact DecodesBack.park .. | exit => exact DecodesBack.exit ..
  | cncl => exact DecodesBack.cncl .. | crd => exact DecodesBack.crd .. | sysr => exact DecodesBack.sysr .. | sysw => exact DecodesBack.sysw ..
  | trap => exact DecodesBack.trap .. | rft => exact DecodesBack.rft .. | time => exact DecodesBack.time .. | scope => exact DecodesBack.scope ..
  | aadd => exact DecodesBack.aadd .. | asub => exact DecodesBack.asub .. | amul => exact DecodesBack.amul .. | aand => exact DecodesBack.aand ..
  | aor => exact DecodesBack.aor .. | ashl => exact DecodesBack.ashl .. | ashr => exact DecodesBack.ashr .. | aaddi => exact DecodesBack.aaddi ..
  | alui => exact DecodesBack.alui .. | abeq => exact DecodesBack.abeq .. | abne => exact DecodesBack.abne .. | ablt => exact DecodesBack.ablt ..
  | abge => exact DecodesBack.abge .. | ajmp => exact DecodesBack.ajmp .. | ajr => exact DecodesBack.ajr .. | ldb => exact DecodesBack.ldb ..
  | ldbs => exact DecodesBack.ldbs .. | ldh => exact DecodesBack.ldh .. | ldhs => exact DecodesBack.ldhs .. | ldw => exact DecodesBack.ldw ..
  | ldws => exact DecodesBack.ldws .. | ldd => exact DecodesBack.ldd .. | stb => exact DecodesBack.stb .. | sth => exact DecodesBack.sth ..
  | stw => exact DecodesBack.stw .. | std => exact DecodesBack.std .. | ldv => exact DecodesBack.ldv .. | stv => exact DecodesBack.stv ..
  | qbind => exact DecodesBack.qbind .. | qpat => exact DecodesBack.qpat .. | qstop => exact DecodesBack.qstop .. | qmc => exact DecodesBack.qmc ..
  | amoadd => exact DecodesBack.amoadd .. | amomin => exact DecodesBack.amomin .. | amomax => exact DecodesBack.amomax ..
  | amoand => exact DecodesBack.amoand .. | amoor => exact DecodesBack.amoor .. | amoxor => exact DecodesBack.amoxor ..
  | amoswp => exact DecodesBack.amoswp .. | amocas => exact DecodesBack.amocas .. | aset => exact DecodesBack.aset ..
  | afree => exact DecodesBack.afree .. | await => exact DecodesBack.await .. | aread => exact DecodesBack.aread ..
  | acred => exact DecodesBack.acred .. | cpy => exact DecodesBack.cpy .. | gath => exact DecodesBack.gath .. | scat => exact DecodesBack.scat ..
  | cpyr => exact DecodesBack.cpyr .. | chlnk => exact DecodesBack.chlnk .. | chkck => exact DecodesBack.chkck ..
  | rgres => exact DecodesBack.rgres .. | rgpub => exact DecodesBack.rgpub .. | rgpop => exact DecodesBack.rgpop ..
  | rgcur => exact DecodesBack.rgcur .. | waita => exact DecodesBack.waita ..
  | vadd => exact DecodesBack.vadd .. | vsub => exact DecodesBack.vsub .. | vmul => exact DecodesBack.vmul .. | vfma => exact DecodesBack.vfma ..
  | vfms => exact DecodesBack.vfms .. | vscac => exact DecodesBack.vscac .. | vmax => exact DecodesBack.vmax .. | vmin => exact DecodesBack.vmin ..
  | vabs => exact DecodesBack.vabs .. | vneg => exact DecodesBack.vneg .. | vrcp => exact DecodesBack.vrcp .. | vrsq => exact DecodesBack.vrsq ..
  | vexp2 => exact DecodesBack.vexp2 .. | vlog2 => exact DecodesBack.vlog2 .. | vcmpeq => exact DecodesBack.vcmpeq ..
  | vcmpne => exact DecodesBack.vcmpne .. | vcmplt => exact DecodesBack.vcmplt .. | vcmple => exact DecodesBack.vcmple ..
  | vsel => exact DecodesBack.vsel .. | vand => exact DecodesBack.vand .. | vor => exact DecodesBack.vor .. | vxor => exact DecodesBack.vxor ..
  | vshl => exact DecodesBack.vshl .. | vshr => exact DecodesBack.vshr .. | vsar => exact DecodesBack.vsar .. | pand => exact DecodesBack.pand ..
  | por => exact DecodesBack.por .. | pnot => exact DecodesBack.pnot .. | pcnt => exact DecodesBack.pcnt .. | vcvt => exact DecodesBack.vcvt ..
  | vqnt => exact DecodesBack.vqnt .. | vdq => exact DecodesBack.vdq .. | vrsum => exact DecodesBack.vrsum .. | vrmax => exact DecodesBack.vrmax ..
  | vperm => exact DecodesBack.vperm .. | vbcast => exact DecodesBack.vbcast .. | vscan => exact DecodesBack.vscan ..
  | vaddiF32 => exact DecodesBack.vaddiF32 .. | vmuliF32 => exact DecodesBack.vmuliF32 .. | vmoviF32 => exact DecodesBack.vmoviF32 ..
  | vaddiF16 => exact DecodesBack.vaddiF16 .. | vmuliF16 => exact DecodesBack.vmuliF16 .. | vmoviF16 => exact DecodesBack.vmoviF16 ..
  | vaddiBF16 => exact DecodesBack.vaddiBF16 .. | vmuliBF16 => exact DecodesBack.vmuliBF16 .. | vmoviBF16 => exact DecodesBack.vmoviBF16 ..
  | vaddiI32 => exact DecodesBack.vaddiI32 .. | vmoviI32 => exact DecodesBack.vmoviI32 .. | vandi => exact DecodesBack.vandi ..
  | vori => exact DecodesBack.vori .. | xadd => exact DecodesBack.xadd .. | xsub => exact DecodesBack.xsub .. | xmul => exact DecodesBack.xmul ..
  | xli => exact DecodesBack.xli .. | xget => exact DecodesBack.xget .. | xput => exact DecodesBack.xput .. | vbz => exact DecodesBack.vbz ..
  | vbnz => exact DecodesBack.vbnz .. | vjmp => exact DecodesBack.vjmp .. | vsweep => exact DecodesBack.vsweep ..
  | vjlim => exact DecodesBack.vjlim .. | vdist => exact DecodesBack.vdist .. | vdph => exact DecodesBack.vdph ..
  | vmov => exact DecodesBack.vmov .. | vpack => exact DecodesBack.vpack .. | vunpk => exact DecodesBack.vunpk ..
  | vsplt => exact DecodesBack.vsplt .. | vcat => exact DecodesBack.vcat ..
  | mma => exact DecodesBack.mma .. | mmaj => exact DecodesBack.mmaj .. | mdrn => exact DecodesBack.mdrn .. | mzero => exact DecodesBack.mzero ..
  | ftset => exact DecodesBack.ftset .. | ftget => exact DecodesBack.ftget .. | mpidx => exact DecodesBack.mpidx ..
  | madd => exact DecodesBack.madd .. | msub => exact DecodesBack.msub .. | mand => exact DecodesBack.mand .. | mor => exact DecodesBack.mor ..
  | mshl => exact DecodesBack.mshl .. | mshr => exact DecodesBack.mshr .. | mli => exact DecodesBack.mli .. | mlui => exact DecodesBack.mlui ..
  | mbz => exact DecodesBack.mbz .. | mbnz => exact DecodesBack.mbnz .. | mblt => exact DecodesBack.mblt .. | mjmp => exact DecodesBack.mjmp ..
  | mjr => exact DecodesBack.mjr ..
  | nop => exact DecodesBack.nop .. | mloop => exact DecodesBack.mloop .. | tpost => exact DecodesBack.tpost ..
  | twait => exact DecodesBack.twait .. | fset => exact DecodesBack.fset .. | fwait => exact DecodesBack.fwait .. | brk => exact DecodesBack.brk ..
  | bndy => exact DecodesBack.bndy ..
  | _ => exact DecodesBack.event rfl rfl

/-- Settles O1: every instruction is read back in each seat that fetches it. -/
theorem decodeEncode : Obligations.DecodeEncode := fun i => by
  obtain ⟨hback, -⟩ := decodesBack i
  exact hback

end Sys2Proof
end

section
/-! PROOF. The immediate forms of V. -/

namespace Sys2Proof

open Machine Spec

/-! ## Immediates as expressions over integers (R123, R220) -/

/-- A sum with the integer immediate, which mode 1 places in the upper half of the element and mode 0 extends by its sign. -/
theorem b32_add_imm (n : Nat) (md : BitVec 1) (imm : BitVec 16) :
    b32 (n + if md = 1 then (imm.toNat * 2 ^ 16 : Int) else imm.toInt) = (n + immI32 md imm) % 2 ^ 32 := by
  unfold b32 immI32
  split
  · rw [← BitVec.toNat_ofNat, ← BitVec.ofInt_natCast]
    norm_cast
  · rw [BitVec.ofInt_add, BitVec.ofInt_natCast, BitVec.toNat_add, BitVec.toNat_ofNat, BitVec.signExtend, Nat.mod_add_mod]

theorem b32_imm (md : BitVec 1) (imm : BitVec 16) : b32 (if md = 1 then (imm.toNat * 2 ^ 16 : Int) else imm.toInt) = immI32 md imm % 2 ^ 32 := by
  simpa using b32_add_imm 0 md imm

theorem u32_and_toNat (x m : Nat) : (u32 x &&& u32 m).toNat = (x &&& m) % 2 ^ 32 := by
  rw [BitVec.toNat_and, u32, u32, BitVec.toNat_ofNat, BitVec.toNat_ofNat, ← Nat.and_mod_two_pow]

theorem u32_or_toNat (x m : Nat) : (u32 x ||| u32 m).toNat = (x ||| m) % 2 ^ 32 := by
  rw [BitVec.toNat_or, u32, u32, BitVec.toNat_ofNat, BitVec.toNat_ofNat, ← Nat.or_mod_two_pow]

/-! ## The words -/

/-- An immediate form goes on with every element of v register d rewritten: the float forms as the table writes it, the integer forms modulo 2^32. -/
theorem exec_vImmediate {i : Instr} {st : Bool} {d : BitVec 6} {lat w : Nat} {f : Nat → Nat} (h : vImmediate i = some (st, d, lat, w, f)) (s : State) :
    ∃ g : Nat → Nat, exec i s = issue .v st i (viV w lat d g s) s ∧ ∀ x, g x % 2 ^ (8 * w) = f x % 2 ^ (8 * w) := by
  cases i <;> simp only [vImmediate, reduceCtorEq, Option.some.injEq, Prod.mk.injEq] at h <;> obtain ⟨rfl, rfl, rfl, rfl, rfl⟩ := h
  case vaddiI32 st d md imm => exact ⟨_, rfl, fun x => congrArg (· % 2 ^ 32) (b32_add_imm x md imm).symm⟩
  case vmoviI32 st d md imm => exact ⟨_, rfl, fun _ => by rw [b32_imm, Nat.mod_mod]⟩
  case vandi st d md imm => exact ⟨_, rfl, fun x => by rw [u32_and_toNat, Nat.mod_mod]⟩
  case vori st d md imm => exact ⟨_, rfl, fun x => by rw [u32_or_toNat, Nat.mod_mod]⟩
  all_goals exact ⟨_, rfl, fun _ => rfl⟩

/-- Settles O30: each word rewrites element by element, to what the table names in the bits that an element holds. -/
theorem vImmediateResult : Obligations.VImmediateResult := by
  intro s i st d lat w f h hi
  obtain ⟨g, he, hg⟩ := exec_vImmediate h s
  obtain ⟨t, ht, hpast⟩ := exec_go hi he rfl
  exact ⟨_, t, fun e hlt => (map1_elem w g _ e hlt).trans (hg _), ht, hpast⟩

end Sys2Proof
end

section
/-! PROOF. The elementwise words of V, its data-movement words, its compare words, and the words on whole predicates. -/

namespace Sys2Proof

open Machine Spec

/-! ## Elements of 32 bits and 16 -/

theorem tyBytes_cases (ty : BitVec 2) : tyBytes ty = 2 ∨ tyBytes ty = 4 := by
  unfold tyBytes
  split
  · exact .inl rfl
  · exact .inr rfl

theorem elemOf_lt (w : Nat) (x : Line) (e : Nat) : elemOf w x e < 2 ^ (8 * w) := BitVec.isLt _

theorem elemOf_ty_lt (ty : BitVec 2) (x : Line) (e : Nat) : elemOf (tyBytes ty) x e < 2 ^ 32 := by
  refine (elemOf_lt _ x e).trans_le (Nat.pow_le_pow_right (by decide) ?_)
  obtain h | h := tyBytes_cases ty <;> simp [h]

/-! ## The integer operations as expressions over integers (R96, R208, R211) -/

theorem u32_toNat {x : Nat} (h : x < 2 ^ 32) : (u32 x).toNat = x := by
  rw [u32, BitVec.toNat_ofNat, Nat.mod_eq_of_lt h]

theorem b32_natCast (n : Nat) : b32 n = n % 2 ^ 32 := by
  rw [b32, BitVec.ofInt_natCast, BitVec.toNat_ofNat]

theorem u32_shl_toNat {x : Nat} (h : x < 2 ^ 32) (k : Nat) : (u32 x <<< k).toNat = b32 (x * 2 ^ k) := by
  rw [BitVec.toNat_shiftLeft, u32_toNat h, Nat.shiftLeft_eq, ← b32_natCast]
  norm_cast

theorem u32_shr_toNat {x : Nat} (h : x < 2 ^ 32) (k : Nat) : (u32 x >>> k).toNat = b32 (x / 2 ^ k) := by
  have hquot : b32 ((x / 2 ^ k : Nat) : Int) = x / 2 ^ k := by
    rw [b32_natCast, Nat.mod_eq_of_lt ((Nat.div_le_self ..).trans_lt h)]
  rw [BitVec.toNat_ushiftRight, u32_toNat h, Nat.shiftRight_eq_div_pow, ← hquot]
  norm_cast

theorem u32_sar_toNat (x k : Nat) : ((u32 x).sshiftRight k).toNat = b32 (s32 x / 2 ^ k) := by
  have hval : ((u32 x).sshiftRight k).toInt = s32 x / 2 ^ k := by
    rw [BitVec.toInt_sshiftRight, Int.shiftRight_eq_div_pow]
    norm_cast
  rw [b32, ← hval, BitVec.ofInt_toInt]

theorem satInt_eq_clamp32 (v : Int) : satInt 32 v = clamp32 v := rfl

/-! ## Lanes of a predicate and the bytes that they turn on (R199, R200) -/

/-- A lane turns its four bytes on. -/
theorem predBytes_getLsbD (p : Pred) (j : Nat) (hj : j < 1024) : (predBytes p).getLsbD j = p.getLsbD (j / 4) := by
  have hlane : j / 4 < 256 := by omega
  unfold predBytes
  split
  · rename_i hall
    rw [hall, BitVec.getLsbD_allOnes, BitVec.getLsbD_allOnes, decide_eq_true hj, decide_eq_true hlane]
  · generalize hl : ((List.range 256).map fun i => if p.getLsbD i then 15 else 0) = l
    have hdigit : packNat 16 l / 16 ^ (j / 4) % 2 ^ 4 = if p.getLsbD (j / 4) then 15 else 0 := by
      have h := packNat_digit 16 (by decide) l (j / 4)
      rw [← hl, List.getD_eq_getElem _ _ (by simpa using hlane), List.getElem_map, List.getElem_range, hl] at h
      rw [show (2 : Nat) ^ 4 = 16 from rfl, h]
      split <;> rfl
    have hbit : (packNat 16 l).testBit j = (packNat 16 l / 16 ^ (j / 4) % 2 ^ 4).testBit (j % 4) := by
      rw [Nat.testBit_mod_two_pow, decide_eq_true (Nat.mod_lt _ (by decide)), Bool.true_and, show (16 : Nat) = 2 ^ 4 from rfl, ← pow_mul,
        Nat.testBit_div_two_pow, Nat.mod_add_div]
    rw [BitVec.getLsbD_ofNat, decide_eq_true hj, Bool.true_and, hbit, hdigit]
    have hlow : (15 : Nat).testBit (j % 4) = true := by
      rw [show (15 : Nat) = 2 ^ 4 - 1 from rfl, Nat.testBit_two_pow_sub_one, decide_eq_true (Nat.mod_lt _ (by decide))]
    cases p.getLsbD (j / 4)
    · exact Nat.zero_testBit _
    · exact hlow

/-- An element of a value merged under a predicate comes whole from one of the two, as its lane says. -/
theorem mergeLine_elem (ty : BitVec 2) (p : Pred) (old new : Line) (e : Nat) (he : e < 1024 / tyBytes ty) :
    elemOf (tyBytes ty) (mergeLine (predBytes p) old new) e =
      if p.getLsbD (tyBytes ty * e / 4) then elemOf (tyBytes ty) new e else elemOf (tyBytes ty) old e := by
  have hbit (i : Nat) (hi : i < 8 * tyBytes ty) : (mergeLine (predBytes p) old new).getLsbD (8 * tyBytes ty * e + i) =
      if p.getLsbD (tyBytes ty * e / 4) then new.getLsbD (8 * tyBytes ty * e + i) else old.getLsbD (8 * tyBytes ty * e + i) := by
    have hlane : 8 * tyBytes ty * e + i < 8192 ∧ (8 * tyBytes ty * e + i) / 8 / 4 = tyBytes ty * e / 4 := by
      obtain h | h := tyBytes_cases ty <;> rw [h] at he hi ⊢ <;> omega
    obtain ⟨hlt, hlane⟩ := hlane
    rw [getLsbD_mergeLine _ _ _ _ hlt, predBytes_getLsbD _ _ (by omega), hlane]
  have hfield : (mergeLine (predBytes p) old new).extractLsb' (8 * tyBytes ty * e) (8 * tyBytes ty) =
      if p.getLsbD (tyBytes ty * e / 4) then new.extractLsb' (8 * tyBytes ty * e) (8 * tyBytes ty)
      else old.extractLsb' (8 * tyBytes ty * e) (8 * tyBytes ty) := by
    apply BitVec.eq_of_getLsbD_eq
    intro i hi
    rw [BitVec.getLsbD_extractLsb', decide_eq_true hi, Bool.true_and, hbit i hi]
    split <;> rw [BitVec.getLsbD_extractLsb', decide_eq_true hi, Bool.true_and]
  unfold elemOf
  rw [hfield]
  split <;> rfl

/-! ## A word whose rule is a line of elements -/

/-- The rule of the word goes on, once its queues are ready, with a line that has the table's elements. -/
def Computes (s : State) (i : Instr) (x : VWord) : Prop :=
  ∃ v, (∀ e, e < 1024 / x.w → elemOf x.w v e = x.el e % 2 ^ (8 * x.w)) ∧ exec i s = issue .v x.st i
    (s.withQueues x.srcs (some (x.d, x.desz)) (.go ((s.takeHeads (x.srcs.map Prod.fst)).sendV x.d v x.en x.lat) .seq)) s

/-- A word that issues with its queues ready sends its line. -/
theorem Computes.sends {s : State} {i : Instr} {x : VWord} (h : Computes s i x) (hi : Issues s .v x.st i)
    (hready : queuesReady s x.srcs [(x.d, x.desz)]) :
    ∃ v t, (∀ e, e < 1024 / x.w → elemOf x.w v e = x.el e % 2 ^ (8 * x.w)) ∧ exec i s = .next t ∧
      Past .v ToNext ((s.takeHeads (x.srcs.map Prod.fst)).sendV x.d v x.en x.lat) t := by
  obtain ⟨v, hv, he⟩ := h
  obtain ⟨t, ht, hpast⟩ := exec_go hi he (withQueues_ready hready)
  exact ⟨v, t, hv, ht, hpast⟩

section Shapes
variable {s : State} {i : Instr} {st : Bool} {d a b : BitVec 6} {p : BitVec 3} {ty : BitVec 2} {lat : Nat}

/-- A word of one source, its function given on 32-bit elements. -/
theorem computes_one {f g : Nat → Nat} (he : exec i s = issue .v st i (vec1V ty d a p lat f s) s) (hfg : ∀ x, x < 2 ^ 32 → f x = g x) :
    Computes s i (one s st d a p ty lat g) :=
  ⟨_, fun e hlt => (map1_elem _ f _ e hlt).trans (congrArg (· % 2 ^ (8 * tyBytes ty)) (hfg _ (elemOf_ty_lt ty _ e))), he⟩

/-- A word of two sources, its function given on 32-bit elements. -/
theorem computes_two {f g : Nat → Nat → Nat} (he : exec i s = issue .v st i (vec2V ty d a b p lat f s) s)
    (hfg : ∀ x y, x < 2 ^ 32 → y < 2 ^ 32 → f x y = g x y) : Computes s i (two s st d a b p ty lat g) :=
  ⟨_, fun e hlt => (map2_elem _ f _ _ e hlt).trans (congrArg (· % 2 ^ (8 * tyBytes ty)) (hfg _ _ (elemOf_ty_lt ty _ e) (elemOf_ty_lt ty _ e))), he⟩

/-- An accumulating word reads d as a third operand (R206). -/
theorem computes_accumulated {minus : Bool} (he : exec i s = issue .v st i (vecAccV ty d a b p (tyFma ty minus) s) s) :
    Computes s i { two s st d a b p ty 4 (fun _ _ => 0) with el := accumulated s d a b ty minus } :=
  ⟨_, fun e hlt => map3_elem _ (tyFma ty minus) _ _ _ e hlt, he⟩

/-- VPACK, VSPLT, VUNPK and VCAT choose an element of a or of b by number (R219). -/
theorem computes_weave {f : Nat → Nat → Bool × Nat} {el : Nat → Nat} (he : exec i s = issue .v st i (weaveV ty d a b p f s) s)
    (hel : ∀ e, elemOf (tyBytes ty) (if (f (512 / tyBytes ty) e).1 then s.vsrc 1 b (tyBytes ty) else s.vsrc 0 a (tyBytes ty))
      (f (512 / tyBytes ty) e).2 = el e) :
    Computes s i { two s st d a b p ty 2 (fun _ _ => 0) with el := el } :=
  ⟨_, fun e hlt => (moveLine_elem _ _ e hlt).trans (congrArg (· % 2 ^ (8 * tyBytes ty)) (hel e)), he⟩

end Shapes

/-! ## The elementwise words (R205, R206, R208, R211) -/

theorem computes_vElement {s : State} {i : Instr} {x : VWord} (hx : vElement s i = some x) : Computes s i x := by
  cases i <;> simp only [vElement, reduceCtorEq, Option.some.injEq] at hx <;> subst hx
  case vfma | vfms => exact computes_accumulated rfl
  case vabs | vneg | vrcp | vrsq | vexp2 | vlog2 => exact computes_one rfl fun _ _ => rfl
  case vadd | vsub | vmul | vmax | vmin => exact computes_two rfl fun _ _ _ _ => rfl
  case vand => exact computes_two rfl fun x y hx hy => by rw [BitVec.toNat_and, u32_toNat hx, u32_toNat hy]
  case vor => exact computes_two rfl fun x y hx hy => by rw [BitVec.toNat_or, u32_toNat hx, u32_toNat hy]
  case vxor => exact computes_two rfl fun x y hx hy => by rw [BitVec.toNat_xor, u32_toNat hx, u32_toNat hy]
  case vshl => exact computes_two rfl fun x y hx _ => u32_shl_toNat hx _
  case vshr => exact computes_two rfl fun x y hx _ => u32_shr_toNat hx _
  case vsar => exact computes_two rfl fun x y _ _ => u32_sar_toNat x _

/-- Settles O26: each word's rule maps the elements by the table's function. -/
theorem vElementResult : Obligations.VElementResult := fun _ _ _ hx hi hready => (computes_vElement hx).sends hi hready

/-! ## The data-movement words (R210, R219) -/

/-- Numbers below h choose an element of x, the others one of y. -/
theorem weave_halves (w h : Nat) (x y : Line) (j k e : Nat) :
    elemOf w (if (if e < h then (false, j) else (true, k)).1 then y else x) (if e < h then (false, j) else (true, k)).2 =
      if e < h then elemOf w x j else elemOf w y k := by
  split <;> rfl

/-- Even numbers choose an element of x, odd ones one of y. -/
theorem weave_alternate (w : Nat) (x y : Line) (e : Nat) :
    elemOf w (if decide (e % 2 = 1) then y else x) (e / 2) = if e % 2 = 0 then elemOf w x (e / 2) else elemOf w y (e / 2) := by
  obtain h | h := Nat.mod_two_eq_zero_or_one e <;> rw [h] <;> rfl

theorem computes_vMove {s : State} {i : Instr} {x : VWord} (hx : vMove s i = some x) : Computes s i x := by
  cases i <;> simp only [vMove, reduceCtorEq, Option.some.injEq] at hx <;> subst hx
  case vmov => exact computes_one rfl fun _ _ => rfl
  case vsel st d a b p ty =>
    refine ⟨_, fun e he => ?_, rfl⟩
    exact (Nat.mod_eq_of_lt (elemOf_lt ..)).symm.trans (congrArg (· % 2 ^ (8 * tyBytes ty)) (mergeLine_elem ty _ _ _ e he))
  case vperm | vbcast => exact ⟨_, fun e he => moveLine_elem _ _ e he, rfl⟩
  case vpack | vsplt | vcat => exact computes_weave rfl fun _ => weave_halves ..
  case vunpk => exact computes_weave rfl fun _ => weave_alternate ..

/-- Settles O27: each word's rule copies the elements that the table names. -/
theorem vMoveResult : Obligations.VMoveResult := fun _ _ _ hx hi hready => (computes_vMove hx).sends hi hready

/-! ## The compare words and the words on whole predicates (R209, R212) -/

/-- A lane holds where it is on and its 32-bit element, or both of its 16-bit elements, are related. -/
theorem cmpPred_getLsbD (ty : BitVec 2) (on : Pred) (r : Nat → Nat → Bool) (x y : Line) (l : Nat) (hl : l < 256) :
    (cmpPred ty on r x y).getLsbD l = (on.getLsbD l &&
      if tyBytes ty = 4 then r (elemOf 4 x l) (elemOf 4 y l)
      else r (elemOf 2 x (2 * l)) (elemOf 2 y (2 * l)) && r (elemOf 2 x (2 * l + 1)) (elemOf 2 y (2 * l + 1))) := by
  refine (predOf_getLsbD _ l hl).trans ?_
  obtain h | h := tyBytes_cases ty <;> rw [h] <;> rfl

/-- A compare word compares by the table's relation. -/
theorem exec_vCompare {i : Instr} {st : Bool} {d a b : BitVec 6} {p : BitVec 3} {ty : BitVec 2} {r : Nat → Nat → Bool}
    (h : vCompare i = some (st, d, a, b, p, ty, r)) (s : State) : exec i s = issue .v st i (cmpV ty d a b p r s) s := by
  cases i <;> simp only [vCompare, reduceCtorEq, Option.some.injEq, Prod.mk.injEq] at h <;> obtain ⟨rfl, rfl, rfl, rfl, rfl, rfl, rfl⟩ := h
  all_goals rfl

theorem cmpV_ready {s : State} {d a b : BitVec 6} {p : BitVec 3} {ty : BitVec 2} {r : Nat → Nat → Bool}
    (h : queuesReady s [(a, tyEsz ty), (b, tyEsz ty)] []) : cmpV ty d a b p r s =
      .go ((s.takeHeads [a, b]).sendP d (cmpPred ty (s.rdP 7 p) r (s.vsrc 0 a (tyBytes ty)) (s.vsrc 1 b (tyBytes ty))) 2) .seq :=
  withQueues_ready (dst := none) h

/-- A word on predicates goes on with one that has the table's bits. -/
theorem exec_vPred {s : State} {i : Instr} {st : Bool} {d : BitVec 6} {r : Nat → Bool} (h : vPred s i = some (st, d, r)) :
    ∃ v : Pred, (∀ l, l < 256 → v.getLsbD l = r l) ∧ exec i s = issue .v st i (predV d v s) s := by
  cases i <;> simp only [vPred, reduceCtorEq, Option.some.injEq, Prod.mk.injEq] at h <;> obtain ⟨rfl, rfl, rfl⟩ := h
  case pand => exact ⟨_, fun l _ => BitVec.getLsbD_and, rfl⟩
  case por => exact ⟨_, fun l _ => BitVec.getLsbD_or, rfl⟩
  case pnot => exact ⟨_, fun l hl => by rw [BitVec.getLsbD_not, decide_eq_true hl, Bool.true_and], rfl⟩

/-- Settles O29: a compare word's predicate has a bit for each lane, and PAND, POR and PNOT work on each bit. -/
theorem vCompareResult : Obligations.VCompareResult := by
  refine ⟨fun s i st d a b p ty r h hi hready => ?_, fun s i st d r h hi => ?_⟩
  · obtain ⟨t, ht, hpast⟩ := exec_go hi (exec_vCompare h s) (cmpV_ready hready)
    exact ⟨_, t, cmpPred_getLsbD ty (s.rdP 7 p) r (s.vsrc 0 a (tyBytes ty)) (s.vsrc 1 b (tyBytes ty)), ht, hpast⟩
  · obtain ⟨v, hv, he⟩ := exec_vPred h
    obtain ⟨t, ht, hpast⟩ := exec_go hi he rfl
    exact ⟨v, t, hv, ht, hpast⟩

end Sys2Proof
end

section
/-! PROOF. The words of M that send a value to an m register: the scalar words, FTGET and MPIDX. -/

namespace Sys2Proof

open Machine Spec

/-! ## Values as expressions over integers (R245) -/

theorem sub_sx_eq_wrap (a : Dw) {w : Nat} (v : BitVec w) (h : w ≤ 64) : a - sx v = wrap (a.toInt - v.toInt) :=
  BitVec.eq_of_toInt_eq (by rw [wrap, BitVec.toInt_ofInt, BitVec.toInt_sub, sx_toInt v h])

theorem sx_shl_eq_wrap {w : Nat} (v : BitVec w) (h : w ≤ 64) (k : Nat) : sx v <<< k = wrap (v.toInt * 2 ^ k) := by
  have hpow : BitVec.ofInt 64 (2 ^ k) = BitVec.twoPow 64 k :=
    BitVec.eq_of_toNat_eq (by rw [← Nat.cast_two, ← Nat.cast_pow, BitVec.ofInt_natCast, BitVec.toNat_ofNat, BitVec.toNat_twoPow])
  rw [sx_eq_wrap v h, BitVec.shiftLeft_eq_mul_twoPow, ← hpow, wrap, wrap, BitVec.ofInt_mul]

/-- A word that sends a value to an m register, the value told by the spec's expression. -/
theorem exec_sendM {s : State} {st : Bool} {i : Instr} {d : BitVec 4} {v v' : Dw} {lat : Nat} (hi : Issues s .m st i)
    (he : exec i s = issue .m st i (.go (s.sendM d v' lat) .seq) s) (hv : v' = v) :
    ∃ t, exec i s = .next t ∧ Past .m ToNext (s.sendM d v lat) t :=
  exec_go hi he (by rw [hv])

/-- Settles O34: the table of the words that write an m register names the value that each word's rule computes. -/
theorem mScalarResult : Obligations.MScalarResult := by
  intro s i st d v lat h hi
  cases i <;> simp only [mScalar, reduceCtorEq, Option.some.injEq, Prod.mk.injEq] at h <;> obtain ⟨rfl, rfl, rfl, rfl⟩ := h
  case madd => exact exec_sendM hi rfl (add_sx_eq _ _ (by decide))
  case msub => exact exec_sendM hi rfl (sub_sx_eq_wrap _ _ (by decide))
  case mand => exact exec_sendM hi rfl (congrArg _ (sx_eq_wrap _ (by decide)))
  case mor => exact exec_sendM hi rfl (congrArg _ (sx_eq_wrap _ (by decide)))
  case mshl => exact exec_sendM hi rfl (shl_eq_ofInt ..)
  case mshr => exact exec_sendM hi rfl (shr_eq_ofInt ..)
  case mli => exact exec_sendM hi rfl (sx_eq_wrap _ (by decide))
  case mlui => exact exec_sendM hi rfl (sx_shl_eq_wrap _ (by decide) 15)
  case ftget => exact exec_sendM hi rfl (zx_eq _)
  case mpidx => exact exec_sendM hi rfl (zx_eq _)

end Sys2Proof
end

section
/-! PROOF. What the walk of a graph, and the action of a slot, leave of the dies: the parts that neither changes, as one value of the state that stands. -/

namespace Sys2Proof

open Machine Spec

/-! ## The parts that stand -/

/-- A die without what the walk of a graph and a cancel change: phases, launches, task entries, and the notes to its rings. -/
def offWalk (x : Die) : Die :=
  { x with
    rings := Vector.replicate 64 Ring.reset, tasks := [], levelSince := Vector.replicate 384 0, waitLaunch := [], lidNext := 0, phases := [], launches := [] }

/-- A stream's entry without what the flip of its input slot notes in it (R338). -/
def offFlip (k : Cox) : Cox := { k with iarr := false, state := 0, iacq := 0, itime := 0 }

/-- A snapshot without the messages that its die records and holds (R387). -/
def offHold (p : Snapshot) : Snapshot := { p with channel := [], heldMsgs := [] }

/-- A die without what the actions of slots change: as `offWalk`, and its sends, its frozen masters, its counters, the flips of input slots, and what a cut
holds. -/
def offAction (x : Die) : Die :=
  { offWalk x with
    frozenFns := [], frozenQs := [], sessions := [], sends := [], ecsel := Vector.replicate 32 0, ecval := Vector.replicate 32 0
    cox := x.cox.map offFlip, snap := x.snap.map offHold }

/-- The parts `part` of the dies, which cores stand halted, and where the live slots are. -/
def standing (part : Die → Die) (s : State) : (DieId → Die) × (CoreId → Option HaltWhy) × List Nat :=
  (fun d => part (s.die d), fun n => (s.coreAt n).dbg.halted, s.slots.map Slot.pa)

theorem standing_offAction {s t : State} (h : standing offWalk t = standing offWalk s) : standing offAction t = standing offAction s := by
  obtain ⟨hdie, hrest⟩ := Prod.mk.inj h
  refine Prod.ext (funext fun d => ?_) hrest
  exact congrArg (fun x : Die => { x with
    frozenFns := [], frozenQs := [], sessions := [], sends := [], ecsel := Vector.replicate 32 0, ecval := Vector.replicate 32 0
    cox := x.cox.map offFlip, snap := x.snap.map offHold }) (congrFun hdie d)

section

variable {part : Die → Die} {s t : State}

theorem standing_die (h : standing part t = standing part s) (d : DieId) : part (t.die d) = part (s.die d) := congrFun (Prod.mk.inj h).1 d

theorem standing_halted (h : standing part t = standing part s) (n : CoreId) : (t.coreAt n).dbg.halted = (s.coreAt n).dbg.halted :=
  congrFun (Prod.mk.inj (Prod.mk.inj h).2).1 n

theorem standing_slots (h : standing part t = standing part s) : t.slots.map Slot.pa = s.slots.map Slot.pa := (Prod.mk.inj (Prod.mk.inj h).2).2

end

theorem standing_intro {part : Die → Die} {s t : State} (hdie : ∀ d, part (t.die d) = part (s.die d)) (hhalt : ∀ n, (t.coreAt n).dbg.halted = (s.coreAt n).dbg.halted)
    (hslots : t.slots.map Slot.pa = s.slots.map Slot.pa) : standing part t = standing part s :=
  Prod.ext (funext hdie) (Prod.ext (funext hhalt) hslots)

theorem standing_of_dies {part : Die → Die} {s t : State} (hb : t.bow = s.bow) (hs : t.stern = s.stern)
    (hhalt : ∀ n, (t.coreAt n).dbg.halted = (s.coreAt n).dbg.halted) (hslots : t.slots.map Slot.pa = s.slots.map Slot.pa) : standing part t = standing part s :=
  standing_intro (fun d => congrArg part (by cases d; exacts [hb, hs])) hhalt hslots

theorem standing_modDie {part : Die → Die} (s : State) (d : DieId) (f : Die → Die) (h : part (f (s.die d)) = part (s.die d)) :
    standing part (s.modDie d f) = standing part s := by
  refine standing_intro (fun e => ?_) (fun n => by simp) (by simp)
  by_cases he : e = d
  · subst he; simpa using h
  · simp [he]

theorem standing_setDie {part : Die → Die} (s : State) (d : DieId) (x : Die) (h : part x = part (s.die d)) : standing part (s.setDie d x) = standing part s :=
  standing_modDie s d (fun _ => x) h

theorem standing_modCore {part : Die → Die} (s : State) (n : CoreId) (f : Core → Core) (h : (f (s.coreAt n)).dbg.halted = (s.coreAt n).dbg.halted) :
    standing part (s.modCore n f) = standing part s := by
  refine standing_intro (fun e => by simp) (fun m => ?_) rfl
  by_cases hm : m = n
  · subst hm; simpa using h
  · simp [hm]

@[simp] theorem standing_modCtx (part : Die → Die) (s : State) (n : CoreId) (f : Ctx → Ctx) : standing part (s.modCtx n f) = standing part s :=
  standing_modCore s n _ rfl

@[simp] theorem standing_outp (part : Die → Die) (s : State) (o : Out) : standing part (s.outp o) = standing part s :=
  standing_intro (fun d => by simp) (fun _ => rfl) rfl

@[simp] theorem standing_ite (part : Die → Die) (c : Prop) [Decidable c] (s t : State) :
    standing part (if c then s else t) = if c then standing part s else standing part t := apply_ite _ c s t

@[simp] theorem standing_foldl {part : Die → Die} {α : Type} (l : List α) (f : State → α → State) (h : ∀ s x, standing part (f s x) = standing part s) (s : State) :
    standing part (l.foldl f s) = standing part s := foldl_keeps h l s

/-! ## Watched lines and slots -/

@[simp] theorem standing_wakeLine (s : State) (pa n : Nat) : standing offWalk (s.wakeLine pa n) = standing offWalk s := by
  refine standing_intro (fun d => ?_) (fun m => by rw [wakeLine_coreAt]) (by rw [wakeLine_slots])
  obtain ⟨b, hb⟩ := wakeLine_die s pa n d
  rw [hb]
  split <;> rfl

@[simp] theorem standing_modSlot (s : State) (pa : Nat) (f : Slot → Slot) (hf : ∀ t, (f t).pa = t.pa) : standing offWalk (s.modSlot pa f) = standing offWalk s := by
  have hset : standing offWalk { s with slots := s.slots.map fun t => if t.pa = pa then f t else t } = standing offWalk s := by
    refine standing_of_dies rfl rfl (fun _ => rfl) ?_
    rw [List.map_map]
    refine List.map_congr_left fun t _ => ?_
    dsimp only [Function.comp]
    split
    · exact hf t
    · rfl
  unfold State.modSlot
  simp [hset]

@[simp] theorem standing_logEntry (part : Die → Die) (s : State) (n : CoreId) (kind : Nat) (k : SeatId) (idx val : Nat) (data : List Byte) :
    standing part (s.logEntry n kind k idx val data) = standing part s := by
  refine (standing_ite ..).trans (ite_eq_left_iff.mpr fun _ => ?_)
  refine standing_modCore s n (fun c => { c with dbg := { (if kind = 1 then { c.dbg with rlcsc := c.csc } else c.dbg) with rlq := _ } }) ?_
  dsimp only
  split <;> rfl

/-! ## The walk of a graph -/

@[simp] theorem offWalk_pushTask (x : Die) (t : Machine.Task) : offWalk (x.pushTask t) = offWalk x := by
  unfold Die.pushTask Die.levelStart
  dsimp only
  (repeat' split) <;> rfl

@[simp] theorem offWalk_modPhase (x : Die) (phid : Dw) (f : Phase → Phase) : offWalk (x.modPhase phid f) = offWalk x := rfl

theorem offWalk_launchUnits (x : Die) (share : Nat) (p : Phase) (n : Nat) (nd : Node) : offWalk (x.launchUnits share p n nd) = offWalk x := by
  unfold Die.launchUnits
  split
  · rfl
  · exact (offWalk_pushTask ..).trans rfl

theorem offWalk_nodeStep (x : Die) (share : Nat) (acq : List (Nat × Nat)) (phid : Dw) (w : NodeWork) : offWalk (x.nodeStep share acq phid w).1 = offWalk x := by
  unfold Die.nodeStep
  split
  · rfl
  · cases w with
    | launch n =>
      dsimp only
      split
      · rfl
      · simp only [apply_ite Prod.fst, apply_ite offWalk, offWalk_modPhase, offWalk_launchUnits, ite_self]
    | complete n => rfl
    | dec n => dsimp only; split <;> rfl

theorem offWalk_runNodes (share : Nat) (acq : List (Nat × Nat)) (phid : Dw) (fuel : Nat) (x : Die) (l : List NodeWork) :
    offWalk (Die.runNodes share acq phid fuel x l) = offWalk x := by
  induction fuel generalizing x l with
  | zero => rfl
  | succ fuel ih =>
    cases l with
    | nil => rfl
    | cons w l => exact (ih _ _).trans (offWalk_nodeStep ..)

@[simp] theorem standing_walk (s : State) (d : DieId) (phid : Dw) (work : List NodeWork) (acq : List (Nat × Nat)) :
    standing offWalk (s.walk d phid work acq) = standing offWalk s := by
  unfold State.walk
  split
  · rfl
  · exact standing_setDie s d _ (offWalk_runNodes ..)

/-! ## Cancellation -/

theorem standing_modPhase (s : State) (d : DieId) (phid : Dw) (f : Phase → Phase) :
    standing offWalk (s.modDie d fun x => x.modPhase phid f) = standing offWalk s := standing_modDie s d _ rfl

@[simp] theorem standing_unitDone (s : State) (d : DieId) (phid : Dw) (lid : Word) (run fault : Bool) (status : Nat) :
    standing offWalk (s.unitDone d phid lid run fault status) = standing offWalk s := by
  have hcount : standing offWalk ((s.modDie (s.phaseHome d phid) fun x => x.modPhase phid (countedUnit run fault status)).modDie d fun x =>
      x.modLaunch lid countedLaunch) = standing offWalk s := (standing_modDie _ d _ rfl).trans (standing_modPhase ..)
  unfold State.unitDone
  dsimp only
  split
  · split
    · split
      · exact (standing_walk ..).trans hcount
      · exact (standing_modPhase ..).trans hcount
    · exact hcount
  · exact hcount

theorem standing_cancelUnits (s : State) (d : DieId) (phid : Dw) (lid : Word) (n : Nat) :
    standing offWalk (s.cancelUnits d phid lid n) = standing offWalk s := by
  induction n generalizing s with
  | zero => rfl
  | succ n ih => exact (ih _).trans (standing_unitDone ..)

theorem standing_cancelTasks (s : State) (d : DieId) (sel : Machine.Task → Bool) : standing offWalk (s.cancelTasks d sel) = standing offWalk s :=
  (standing_foldl _ _ (fun _ _ => standing_cancelUnits ..) _).trans (standing_modDie s d (fun x => { x with tasks := x.tasks.filter fun t => !sel t }) rfl)

theorem standing_dropWaiters (s : State) (gone : Waiter → Bool) : standing offWalk (s.dropWaiters gone) = standing offWalk s := by
  refine standing_foldl _ _ (fun u t => ?_) s
  split
  · exact standing_modSlot u t.pa _ fun _ => rfl
  · rfl

theorem standing_cancelParked (s : State) (d : DieId) (sel : ContRec → Bool) : standing offWalk (s.cancelParked d sel) = standing offWalk s := by
  unfold State.cancelParked
  dsimp only
  rw [standing_foldl _ _ fun u p => standing_unitDone ..]
  refine Eq.trans ?_ (standing_dropWaiters s fun w => (s.parked.filter fun p => decide (p.die = d) && sel p.record).any fun p => decide (w = .parked p.id))
  exact standing_of_dies rfl rfl (fun _ => rfl) rfl

/-- A change of every core of a die that halts and resumes none. -/
theorem standing_ofFn {part : Die → Die} {s t : State} {f : CoreId → Core} (hcores : t.cores = Vector.ofFn f) (hb : t.bow = s.bow) (hs : t.stern = s.stern)
    (hslots : t.slots = s.slots) (h : ∀ n, (f n).dbg.halted = (s.coreAt n).dbg.halted) : standing part t = standing part s := by
  refine standing_of_dies hb hs (fun n => ?_) (by rw [hslots])
  rw [← h n, State.coreAt, hcores, Vector.get_eq_getElem, Vector.getElem_ofFn]

theorem dropHeld_halted (l : List Image) (c : Core) : (l.foldl (fun c x => c.dropHeld x.held.unit) c).dbg.halted = c.dbg.halted := by
  induction l generalizing c with
  | nil => rfl
  | cons x l ih => exact (ih _).trans rfl

theorem standing_cancelHeld (s : State) (d : DieId) (sel : UnitInfo → Bool) : standing offWalk (s.cancelHeld d sel) = standing offWalk s := by
  unfold State.cancelHeld
  refine standing_ofFn rfl rfl rfl rfl fun n => ?_
  dsimp only
  split
  · rfl
  · refine (dropHeld_halted ..).trans ?_
    split
    · split <;> rfl
    · rfl

theorem standing_cancelRunning (s : State) (d : DieId) (sel : UnitInfo → Bool) : standing offWalk (s.cancelRunning d sel) = standing offWalk s := by
  unfold State.cancelRunning
  refine standing_ofFn rfl rfl rfl rfl fun n => ?_
  dsimp only
  split <;> rfl

theorem standing_cancelAll (s : State) (d : DieId) (phOk : Dw → Bool) (lidOk : Word → Bool) :
    standing offWalk (s.cancelAll d phOk lidOk) = standing offWalk s := by
  unfold State.cancelAll
  dsimp only
  rw [standing_cancelRunning, standing_cancelHeld, standing_cancelParked, standing_cancelTasks]

theorem standing_cancelPhase (s : State) (d : DieId) (phid : Dw) (status : Nat) : standing offWalk (s.cancelPhase d phid status) = standing offWalk s := by
  rw [cancelPhase_eq, standing_cancelAll, standing_cancelAll]
  exact standing_modDie s d _ rfl

@[simp] theorem standing_sweepPhase (s : State) (d : DieId) (phid : Dw) : standing offWalk (s.sweepPhase d phid) = standing offWalk s := by
  unfold State.sweepPhase
  split
  · split
    · exact (standing_cancelPhase ..).trans (standing_modPhase ..)
    · rfl
  · rfl

end Sys2Proof
end

section
/-! PROOF. The action of a slot, a write at its home, a credit, and the record and signal of a command leave the parts of the package that `offAction` names. -/

namespace Sys2Proof

open Machine Spec

/-! ## Counters, masters and what a cut holds -/

theorem offAction_counters (x : Die) (a : Vector (BitVec 16) 32) (b : Vector (BitVec 48) 32) : offAction { x with ecsel := a, ecval := b } = offAction x := rfl

@[simp] theorem standing_countDie (s : State) (d : DieId) (code inc : Nat) : standing offAction (s.countDie d code inc) = standing offAction s :=
  standing_modDie s d _ (offAction_counters ..)

/-- A slot that changes at its home stays where it is. -/
@[simp] theorem standing_modSlot_pa (s : State) (pa : Nat) (f : Slot → Slot) (hf : ∀ t, (f t).pa = t.pa) :
    standing offAction (s.modSlot pa f) = standing offAction s := standing_offAction (standing_modSlot s pa f hf)

@[simp] theorem standing_crosses (s : State) (d : DieId) : standing offAction (s.crosses d) = standing offAction s := by simp [State.crosses]

@[simp] theorem standing_hold (s : State) (d : DieId) (l : Link) (i : Msg) : standing offAction (s.hold d l i) = standing offAction s := by
  refine standing_modDie s d _ ?_
  unfold offAction
  dsimp only
  rw [Option.map_map]
  rfl

@[simp] theorem standing_freezeQueue (s : State) (d : DieId) (q : Fin 64) : standing offAction (s.freezeQueue d q) = standing offAction s := by
  unfold State.freezeQueue
  split
  · rfl
  · exact (standing_outp ..).trans (standing_modDie s d _ rfl)

@[simp] theorem standing_freezeFunction (s : State) (d : DieId) (fn : Fin 33) : standing offAction (s.freezeFunction d fn) = standing offAction s := by
  unfold State.freezeFunction
  split
  · rfl
  · exact (standing_outp ..).trans (standing_modDie s d _ rfl)

@[simp] theorem standing_actionFault (s : State) (d : DieId) (t : Slot) (cause : Nat) : standing offAction (s.actionFault d t cause) = standing offAction s := by
  simp [State.actionFault]

/-! ## Launch actions, node actions and posts (R76 to R78) -/

@[simp] theorem standing_pushUnit (s : State) (d : DieId) (r : UnitRec) (part : Fin 32) (ctx : Fin 64) (prio : BitVec 4) (dline phid : Dw) (jid : Word)
    (acq : List (Nat × Nat)) : standing offWalk (s.pushUnit d r part ctx prio dline phid jid acq) = standing offWalk s := by
  unfold State.pushUnit
  dsimp only
  exact (standing_modDie _ d _ ((offWalk_pushTask ..).trans rfl)).trans (standing_modPhase ..)

theorem standing_launchFault (s : State) (d home : DieId) (t : Slot) (phid : Dw) (ph : Option Phase) : standing offAction ((match ph with
    | some _ => s.modDie home fun x => x.modPhase phid fun p => { p with faults := sat32 (p.faults + 1) }
    | none => s).actionFault d t 4) = standing offAction s := by
  refine (standing_actionFault ..).trans ?_
  split
  · exact standing_offAction (standing_modPhase ..)
  · rfl

@[simp] theorem standing_launchNow (s : State) (d : DieId) (t : Slot) (read : Option (BitVec 512)) :
    standing offAction (s.launchNow d t read) = standing offAction s := by
  unfold State.launchNow
  dsimp only
  split
  · exact standing_launchFault ..
  · split
    · exact standing_launchFault ..
    · split
      · exact standing_launchFault ..
      · simp [standing_offAction (standing_pushUnit ..)]

@[simp] theorem standing_launchAction (s : State) (d : DieId) (t : Slot) : standing offAction (s.launchAction d t) = standing offAction s := by
  simp [State.launchAction]

@[simp] theorem standing_nodeAction (s : State) (d : DieId) (t : Slot) : standing offAction (s.nodeAction d t) = standing offAction s := by
  unfold State.nodeAction
  dsimp only
  split
  · simp
  · simp [standing_offAction (standing_sweepPhase ..), standing_offAction (standing_walk ..)]

@[simp] theorem standing_outsidePost (s : State) (n : CoreId) (k : BitVec 4) (v : Nat) : standing offAction (s.outsidePost n k v) = standing offAction s := by
  simp [State.outsidePost, State.logPost, State.logWake]

@[simp] theorem standing_tokenPost (s : State) (d : DieId) (t : Slot) (core : CoreId) (k : BitVec 4) (n : Nat) :
    standing offAction (s.tokenPost d t core k n) = standing offAction s := by simp [State.tokenPost]

@[simp] theorem standing_tokenAction (s : State) (d : DieId) (t : Slot) : standing offAction (s.tokenAction d t) = standing offAction s := by
  unfold State.tokenAction
  dsimp only
  split <;> simp

/-! ## Region-triggered sends (R92, R416) -/

@[simp] theorem standing_sendOp (s : State) (d : DieId) (sid : Nat) (bytes : List Byte) : standing offAction (s.sendOp d sid bytes) = standing offAction s := by
  unfold State.sendOp
  split <;> simp

theorem standing_modSession (s : State) (d : DieId) (sid : Nat) (f : Session → Session) :
    standing offAction (s.modDie d fun x => x.modSession sid f) = standing offAction s := standing_modDie s d _ rfl

@[simp] theorem standing_regionSend (s : State) (d : DieId) (sid pa n : Nat) : standing offAction (s.regionSend d sid pa n) = standing offAction s := by
  have hqueue : ∀ (u : State) (m : Send), standing offAction (u.modDie d fun y => { y with sends := y.sends ++ [m] }) = standing offAction u :=
    fun u m => standing_modDie u d _ rfl
  unfold State.regionSend
  dsimp only
  split
  · rfl
  · simp [State.sendChunk, hqueue, standing_modSession]

/-! ## The completion of a slot (R72, R76) -/

@[simp] theorem standing_wakeWaiter (s : State) (pa : Nat) (ph : Bool) (at_ : Nat) (w : Waiter) :
    standing offAction (s.wakeWaiter pa ph at_ w) = standing offAction s := by
  cases w with
  | await n =>
    simp only [State.wakeWaiter]
    split
    · split
      · exact (standing_logEntry ..).trans (standing_modCtx ..)
      · rfl
    · rfl
  | park n => rfl
  | parked id =>
    simp only [State.wakeWaiter]
    split
    · rfl
    · refine standing_offAction ((standing_modDie _ _ _ (offWalk_pushTask ..)).trans ?_)
      exact standing_of_dies rfl rfl (fun _ => rfl) rfl
  | copy n id => exact standing_modCore s n _ rfl
  | cox d e =>
    refine standing_modDie s d _ ?_
    unfold offAction
    dsimp only
    rw [List.map_map]
    refine congrArg (fun l => { offWalk (s.die d) with
      frozenFns := [], frozenQs := [], sessions := [], sends := [], ecsel := Vector.replicate 32 0, ecval := Vector.replicate 32 0
      cox := l, snap := (s.die d).snap.map offHold }) (List.map_congr_left fun k _ => ?_)
    dsimp only [Function.comp]
    split <;> rfl

@[simp] theorem standing_releaseWaiter (s : State) (pa : Nat) (ph : Bool) (w : Waiter) :
    standing offAction (s.releaseWaiter pa ph w) = standing offAction s := by
  unfold State.releaseWaiter
  split <;> simp

@[simp] theorem standing_slotAction (s : State) (d : DieId) (t : Slot) : standing offAction (s.slotAction d t) = standing offAction s := by
  unfold State.slotAction
  refine (standing_ite ..).trans (ite_eq_iff'.mpr ⟨fun _ => standing_actionFault .., fun _ => ?_⟩)
  split
  · split <;> simp
  · simp
  · simp
  · simp
  · rfl

@[simp] theorem standing_nextId (part : Die → Die) (s : State) (k : Nat) : standing part { s with nextId := k } = standing part s :=
  standing_of_dies rfl rfl (fun _ => rfl) rfl

@[simp] theorem standing_completeSlot (s : State) (d : DieId) (pa : Nat) (above : Bool) :
    standing offAction (s.completeSlot d pa above) = standing offAction s := by
  unfold State.completeSlot
  split
  · rfl
  · dsimp only
    simp

@[simp] theorem standing_countBytes (s : State) (d : DieId) (pa n : Nat) : standing offAction (s.countBytes d pa n) = standing offAction s := by
  unfold State.countBytes
  split
  · rfl
  · simp

@[simp] theorem standing_deadline (s : State) (d : DieId) (pa : Nat) : standing offAction (s.deadline d pa) = standing offAction s := by
  unfold State.deadline
  split
  · rfl
  · dsimp only
    split <;> simp

/-! ## Writes at their homes and credits (R71 to R73) -/

@[simp] theorem standing_countWrite (s : State) (pa n : Nat) (t : Slot) : standing offAction (s.countWrite pa n t) = standing offAction s := by
  unfold State.countWrite
  dsimp only
  split
  · rfl
  · split
    · exact standing_deadline ..
    · rw [standing_countBytes, standing_nextId, standing_modSlot_pa _ _ _ fun _ => by rfl, standing_deadline]

@[simp] theorem standing_countAccess (s : State) (pa k : Nat) : standing offAction (s.countAccess pa k) = standing offAction s := by
  unfold State.countAccess
  split <;> simp

@[simp] theorem standing_homeStore (s : State) (pa : Nat) (bytes : List Byte) : standing offAction (s.homeStore pa bytes) = standing offAction s := by
  unfold State.homeStore
  dsimp only
  rw [standing_foldl _ _ fun _ _ => standing_countWrite .., standing_offAction (standing_wakeLine ..)]
  refine Eq.trans ?_ (standing_countAccess { s with mem := memWriteBytes s.mem pa (s.asideSlots pa bytes) } pa 1)
  exact standing_of_dies rfl rfl (fun _ => rfl) rfl

@[simp] theorem standing_credit (s : State) (pa n : Nat) : standing offAction (s.credit pa n) = standing offAction s := by
  unfold State.credit
  dsimp only
  split
  · simp
  · simp

/-! ## The record and the signal of a command (R313, R314) -/

@[simp] theorem standing_ringCause (s : State) (d : DieId) (r : Fin 64) (c : Nat) : standing offAction (s.ringCause d r c) = standing offAction s :=
  standing_modDie s d _ rfl

@[simp] theorem standing_writeCrec (s : State) (d : DieId) (c : Cmd) (r : Crec) : standing offAction (s.writeCrec d c r) = standing offAction s := by
  unfold State.writeCrec
  split
  · rfl
  · split <;> simp

@[simp] theorem standing_signal (s : State) (d : DieId) (c : Cmd) : standing offAction (s.signal d c) = standing offAction s := by
  unfold State.signal
  split
  · split <;> simp
  · split <;> simp
  · simp
  · rfl

@[simp] theorem standing_complete (s : State) (d : DieId) (c : Cmd) (r : Crec) : standing offAction (s.complete d c r) = standing offAction s := by
  simp [State.complete]

end Sys2Proof
end

section
/-! PROOF. The streams of the Cox unit and the host's command rings (R307 to R311, R321, R322, R338, R339, R415, R419). -/

namespace Sys2Proof

open Machine Spec

/-! ## A stream's entry, looked up -/

theorem coxAt_of_standing {s t : State} {d : DieId} {e : Nat} {k : Cox} (h : standing offAction t = standing offAction s) (hk : coxAt s d e = some k) :
    ∃ j, coxAt t d e = some j ∧ offFlip j = offFlip k := by
  have hcox : (t.die d).cox.map offFlip = (s.die d).cox.map offFlip := congrArg Die.cox (standing_die h d)
  have hfind := congrArg (List.find? fun k => decide (k.e = e)) hcox
  rw [List.find?_map, List.find?_map] at hfind
  exact Option.map_eq_some_iff.mp (hfind.trans (congrArg (Option.map offFlip) hk))

/-- A flip leaves a stream's grid and its misses. -/
theorem offFlip_kept {i k : Cox} (h : offFlip i = offFlip k) : i.nrel = k.nrel ∧ i.period = k.period ∧ i.miss = k.miss := by
  have hall := congrArg (fun j : Cox => (j.nrel, j.period, j.miss)) h
  simpa [offFlip] using hall

theorem coxAt_modCox {s : State} {d : DieId} {e : Nat} {f : Cox → Cox} {k : Cox} (hf : ∀ k, (f k).e = k.e) (hk : coxAt s d e = some k) :
    coxAt (s.modDie d fun x => x.modCox e f) d e = some (f k) := by
  unfold coxAt
  rw [State.die_modDie, cox?_modCox hf]
  exact congrArg (Option.map f) hk

/-- Settling a stream's state leaves the rest of its entry (R337). -/
theorem coxAt_coxSettle {s : State} {d : DieId} {e : Nat} {k : Cox} (hk : coxAt s d e = some k) : ∃ st, coxAt (s.coxSettle d e) d e = some { k with state := st } := by
  unfold coxAt State.coxSettle
  rw [State.die_modDie]
  refine ⟨_, (cox?_modCox ?_).trans (congrArg (Option.map _) hk)⟩
  exact fun _ => rfl

/-! ## Releases (R338, R415) -/

/-- The streams of a die: its entries, and the copies that it keeps for the other one. -/
def streamsOf (s : State) (d : DieId) : List Cox × List PeerStream := ((s.die d).cox, (s.die d).peers)

theorem streamsOf_modDie {s : State} {e : DieId} {f : Die → Die} (h : ((f (s.die e)).cox, (f (s.die e)).peers) = streamsOf s e) (d : DieId) :
    streamsOf (s.modDie e f) d = streamsOf s d := by
  unfold streamsOf at *
  by_cases hd : d = e
  · subst hd; rw [State.die_modDie]; exact h
  · rw [State.die_modDie_ne _ _ _ _ hd]

theorem streamsOf_offWalk {s t : State} (h : standing offWalk t = standing offWalk s) (d : DieId) : streamsOf t d = streamsOf s d :=
  have hdie : offWalk (t.die d) = offWalk (s.die d) := standing_die h d
  Prod.ext (congrArg (fun x : Die => x.cox) hdie : (offWalk _).cox = (offWalk _).cox) (congrArg (fun x : Die => x.peers) hdie : (offWalk _).peers = (offWalk _).peers)

/-- A release starts its phase without a change of any stream. -/
theorem streamsOf_startPhase (s : State) (d : DieId) (r : Release) (e : DieId) : streamsOf (s.startPhase d r) e = streamsOf s e := by
  unfold State.startPhase
  split
  · rfl
  · exact (streamsOf_offWalk ((standing_sweepPhase ..).trans (standing_walk ..)) e).trans (streamsOf_modDie rfl e)

@[simp] theorem standing_sessionRelease (s : State) (d : DieId) (k : Cox) (ndl : Nat) : standing offAction (s.sessionRelease d k ndl) = standing offAction s := by
  unfold State.sessionRelease
  split
  · rfl
  · simp [standing_modSession]

/-- The entry of a stream whose phase has been released at a time: one period on, with the phase's deadline (R338). -/
def releasedEntry (k : Cox) (rel : Nat) (j : Cox) : Cox :=
  { j with level := k.level, susp := k.susp, rose := false, ndl := rel + k.dline, iarr := false, nrel := j.nrel + j.period }

/-- A release notes itself in its session and in its stream's entry; the phase that it starts or queues changes no stream, but that its state is settled. -/
theorem coxStart_eq (s : State) (d : DieId) (k : Cox) (rel : Nat) (acq : List (Nat × Nat)) : ∃ u : State, s.coxStart d k rel acq = u.coxSettle d k.e ∧
    streamsOf u d = streamsOf ((s.sessionRelease d k (rel + k.dline)).modDie d fun x => x.modCox k.e (releasedEntry k rel)) d := by
  unfold State.coxStart
  refine ⟨_, rfl, ?_⟩
  have hcount : ∀ v : State, streamsOf ((v.modDie d fun x => x.modJob k.part k.jid fun j => { j with total := j.total + 1 }).countDie d 53 1) d = streamsOf v d :=
    fun v => (streamsOf_modDie rfl d).trans (streamsOf_modDie rfl d)
  split
  · exact (streamsOf_modDie rfl d).trans (hcount _)
  · exact (streamsOf_startPhase ..).trans (hcount _)

theorem coxAt_of_streams {s t : State} {d : DieId} (h : streamsOf t d = streamsOf s d) (e : Nat) : coxAt t d e = coxAt s d e := by
  have hcox : (t.die d).cox = (s.die d).cox := congrArg Prod.fst h
  unfold coxAt
  rw [hcox]

theorem coxAt_coxStart {s : State} {d : DieId} {k k' : Cox} (hk : coxAt s d k'.e = some k) (rel : Nat) (acq : List (Nat × Nat)) :
    ∃ i st, offFlip i = offFlip k ∧ coxAt (s.coxStart d k' rel acq) d k'.e = some { releasedEntry k' rel i with state := st } := by
  obtain ⟨u, hu, hstreams⟩ := coxStart_eq s d k' rel acq
  obtain ⟨i, hi, hflip⟩ := coxAt_of_standing (standing_sessionRelease s d k' (rel + k'.dline)) hk
  have hrel : coxAt u d k'.e = some (releasedEntry k' rel i) := (coxAt_of_streams hstreams _).trans (coxAt_modCox (fun _ => rfl) hi)
  obtain ⟨st, hst⟩ := coxAt_coxSettle hrel
  exact ⟨i, st, hflip, by rw [hu, hst]⟩

/-- Recovery raises a level or ends a suspension (R342). -/
theorem raised_eq (s : State) (d : DieId) (k : Cox) : ∃ l r p, s.raised d k = { k with level := l, rose := r, susp := p } ∧ (k.susp = false → p = false) := by
  have hup : ∃ l r p, (if k.susp then { k with susp := false, level := 3, rose := true } else { k with level := k.level - 1, rose := true } : Cox) =
      { k with level := l, rose := r, susp := p } ∧ (k.susp = false → p = false) := by
    split
    · exact ⟨_, _, _, rfl, fun _ => rfl⟩
    · exact ⟨_, _, _, rfl, id⟩
  unfold State.raised
  extract_lets up
  by_cases hrises : (!k.rose && (k.susp || decide (0 < k.level)) && coxFits (s.coxMhz d) (s.part k.part d).ceiling (replaceCox (s.coxOf d k.part) up)) = true
  · rw [if_pos hrises]
    exact hup
  · rw [if_neg hrises]
    exact ⟨_, _, _, rfl, id⟩

theorem coxRelease_releases {s : State} {d : DieId} {e : Nat} {k : Cox} (hk : coxAt s d e = some k) (hdue : s.releaseDue d k = true) (hsusp : k.susp = false) :
    ∃ t j, exec (.coxRelease d e) s = .next t ∧ coxAt t d e = some j ∧ j.nrel = k.nrel + k.period ∧ j.iarr = false ∧
      j.ndl = (if k.islot = 0 then k.nrel else max k.nrel k.itime) + k.dline := by
  obtain ⟨l, r, p, hraised, hp⟩ := raised_eq s d k
  have hin : (decide (k.islot ≠ 0) && !k.inputIn) = false := by
    simp only [State.releaseDue, hsusp, Bool.false_or, Bool.and_eq_true, Bool.or_eq_true, decide_eq_true_eq] at hdue
    rcases hdue.2 with h | h <;> simp [h]
  have he : k.e = e := by simpa using List.find?_some hk
  have hto : s.coxRelease d e = s.coxStart d (s.raised d k) k.releaseTime (if k.islot ≠ 0 then [(k.islot, k.iacq)] else []) := by
    unfold coxAt at hk
    unfold State.coxRelease
    simp only [hk, hdue, hin, hraised, hp hsusp, Bool.not_true, Bool.false_eq_true, if_false]
  have hke : (s.raised d k).e = e := by rw [hraised, he]
  obtain ⟨i, st, hflip, hi⟩ := coxAt_coxStart (k' := s.raised d k) (by rw [hke]; exact hk) k.releaseTime (if k.islot ≠ 0 then [(k.islot, k.iacq)] else [])
  obtain ⟨hnrel, hperiod, -⟩ := offFlip_kept hflip
  refine ⟨_, _, rfl, by rw [hto, ← hke]; exact hi, ?_, rfl, ?_⟩
  · show i.nrel + i.period = _
    rw [hnrel, hperiod]
  · show k.releaseTime + (s.raised d k).dline = _
    rw [hraised]
    rfl

/-! ## Skips (R307, R338) -/

theorem phaseSkip_misses {s : State} {d : DieId} {e : Nat} {k : Cox} (hk : coxAt s d e = some k) (hlate : s.lateQueued d k.key = none)
    (hdue : s.skipDue d k = true) (hrec : s.recBreaks d k.cmd = false) : ∃ t j, exec (.phaseSkip d e) s = .next t ∧ coxAt t d e = some j ∧
      j.miss = min 65535 (k.miss + 1) ∧ j.nrel = k.nrel + k.period := by
  generalize hu : (s.modDie d fun x => x.modCox e fun j =>
    { j with miss := min 65535 (j.miss + 1), nrel := j.nrel + k.period, rose := j.rose && decide (k.period = 0) }) = u
  have hmiss : coxAt u d e = some { k with miss := min 65535 (k.miss + 1), nrel := k.nrel + k.period, rose := k.rose && decide (k.period = 0) } := by
    rw [← hu]
    exact coxAt_modCox (fun _ => rfl) hk
  have hto : s.phaseSkip d e = ((u.complete d k.cmd (skipCrec 1 k.level (k.graphAt k.level) k.jid true (s.die d).time)).countDie d 54 1).coxSettle d e := by
    unfold coxAt at hk
    unfold State.phaseSkip
    simp only [hk, hlate, hdue, hrec, hu, ite_self, Bool.not_true, Bool.false_eq_true, if_false]
  have hkept : standing offAction ((u.complete d k.cmd (skipCrec 1 k.level (k.graphAt k.level) k.jid true (s.die d).time)).countDie d 54 1) =
    standing offAction u := by simp
  obtain ⟨i, hi, hflip⟩ := coxAt_of_standing hkept hmiss
  obtain ⟨st, hst⟩ := coxAt_coxSettle hi
  obtain ⟨hnrel, -, hmisses⟩ := offFlip_kept hflip
  exact ⟨_, { i with state := st }, rfl, by rw [hto, hst], hmisses, hnrel⟩

/-- A frozen function stands among its die's, and nothing else of the die changes (R368). -/
theorem freezeFunction_freezes (s : State) (d : DieId) (fn : Fin 33) :
    fn.val ∈ ((s.freezeFunction d fn).die d).frozenFns ∧ streamsOf (s.freezeFunction d fn) d = streamsOf s d := by
  unfold State.freezeFunction
  split
  · rename_i hin
    exact ⟨by simpa using hin, rfl⟩
  · unfold streamsOf
    rw [State.die_outp, State.die_modDie]
    exact ⟨by simp, rfl⟩

theorem phaseSkip_freezes {s : State} {d : DieId} {e : Nat} {k : Cox} (hk : coxAt s d e = some k) (hlate : s.lateQueued d k.key = none)
    (hdue : s.skipDue d k = true) (hrec : s.recBreaks d k.cmd = true) : ∃ t, exec (.phaseSkip d e) s = .next t ∧ k.cmd.fn.val ∈ (t.die d).frozenFns ∧
      t.mem = s.mem ∧ (t.die d).cox = (s.die d).cox := by
  have hto : s.phaseSkip d e = s.freezeFunction d k.cmd.fn := by
    unfold coxAt at hk
    unfold State.phaseSkip
    simp only [hk, hlate, hdue, hrec, ite_self, Bool.not_true, Bool.false_eq_true, if_false, if_true]
  obtain ⟨hfrozen, hstreams⟩ := freezeFunction_freezes s d k.cmd.fn
  refine ⟨_, rfl, ?_, ?_, ?_⟩
  · rw [hto]; exact hfrozen
  · rw [hto]; simp
  · rw [hto]; exact congrArg Prod.fst hstreams

/-! ## Copies of streams in the peer die, and the takeover (R419) -/

theorem peerStreamCopy_stands {s : State} {d : DieId} {p : PeerStream} (hp : p ∈ s.copiesDue d) : ∃ t, exec (.peerStreamCopy d p) s = .next t ∧
    p ∈ (t.die d.other).peers ∧ (∀ q ∈ (t.die d.other).peers, q.sid = p.sid → q = p) ∧ t.mem = s.mem ∧ t.cores = s.cores := by
  have hto : s.peerCopy d p =
      (s.modDie d.other fun x => { x with peers := (x.peers.filter fun q => decide (q.sid ≠ p.sid)) ++ [p] }).outp (.announce d p) :=
    if_pos (by simpa using hp)
  have hpeers : ((s.peerCopy d p).die d.other).peers = ((s.die d.other).peers.filter fun q => decide (q.sid ≠ p.sid)) ++ [p] := by
    rw [hto, State.die_outp, State.die_modDie]
  refine ⟨_, rfl, ?_, fun q hq hsid => ?_, by simp, ?_⟩
  · rw [hpeers]; simp
  · rw [hpeers] at hq
    simpa [hsid] using hq
  · rw [hto]
    exact State.modDie_cores ..

/-- What a stream's entry keeps as long as it stands: its number, its session and its grid (R337, R338). -/
def gridOf (k : Cox) : Nat × Option Nat × Nat × Nat × Nat := (k.e, k.sid, k.t0, k.period, k.dline)

/-- The grids of a die's streams, with the copies that it keeps for the other one. -/
def gridsOf (s : State) (d : DieId) : List (Nat × Option Nat × Nat × Nat × Nat) × List PeerStream := ((s.die d).cox.map gridOf, (s.die d).peers)

theorem gridsOf_streams {s t : State} {d : DieId} (h : streamsOf t d = streamsOf s d) : gridsOf t d = gridsOf s d :=
  congrArg (fun l : List Cox × List PeerStream => (l.1.map gridOf, l.2)) h

theorem gridsOf_standing {s t : State} (h : standing offAction t = standing offAction s) (d : DieId) : gridsOf t d = gridsOf s d := by
  have hmap : ∀ u : State, (u.die d).cox.map gridOf = ((u.die d).cox.map offFlip).map gridOf := fun u => by rw [List.map_map]; rfl
  have hdie : offAction (t.die d) = offAction (s.die d) := standing_die h d
  have hcox : (t.die d).cox.map offFlip = (s.die d).cox.map offFlip := congrArg Die.cox hdie
  have hpeers : (offAction (t.die d)).peers = (offAction (s.die d)).peers := congrArg Die.peers hdie
  change (t.die d).peers = (s.die d).peers at hpeers
  unfold gridsOf
  rw [hmap t, hmap s, hcox, hpeers]

theorem gridsOf_mapCox (s : State) (d : DieId) (f : Cox → Cox) (hf : ∀ k, gridOf (f k) = gridOf k) :
    gridsOf (s.modDie d fun x => { x with cox := x.cox.map f }) d = gridsOf s d := by
  unfold gridsOf
  rw [State.die_modDie, List.map_map]
  exact congrArg (·, _) (List.map_congr_left fun k _ => hf k)

theorem gridsOf_modCox (s : State) (d : DieId) (e : Nat) (f : Cox → Cox) (hf : ∀ k, gridOf (f k) = gridOf k) :
    gridsOf (s.modDie d fun x => x.modCox e f) d = gridsOf s d :=
  gridsOf_mapCox s d _ fun k => by split; exacts [hf k, rfl]

theorem gridsOf_coxSettle (s : State) (d : DieId) (e : Nat) : gridsOf (s.coxSettle d e) d = gridsOf s d :=
  gridsOf_mapCox s d _ fun k => by split <;> rfl

theorem gridsOf_coxStart (s : State) (d : DieId) (k : Cox) (rel : Nat) (acq : List (Nat × Nat)) : gridsOf (s.coxStart d k rel acq) d = gridsOf s d := by
  obtain ⟨u, hu, hstreams⟩ := coxStart_eq s d k rel acq
  rw [hu, gridsOf_coxSettle, gridsOf_streams hstreams, gridsOf_modCox _ _ _ (releasedEntry k rel) fun _ => rfl]
  exact gridsOf_standing (standing_sessionRelease ..) d

theorem gridsOf_coxStore (s : State) (d : DieId) (l : List Cox) : gridsOf (s.coxStore d l) d = gridsOf s d := by
  unfold State.coxStore
  dsimp only
  rw [foldl_keeps (g := fun u => gridsOf u d) fun u (k : Cox) => gridsOf_coxSettle u d k.e]
  exact gridsOf_mapCox s d _ fun k => by split <;> rfl

theorem gridsOf_coxRecompute (s : State) (d : DieId) (p : Fin 32) : gridsOf (s.coxRecompute d p) d = gridsOf s d :=
  (gridsOf_standing (standing_countDie ..) d).trans (gridsOf_coxStore ..)

theorem gridsOf_coxRegister (s : State) (d : DieId) (e pa : Nat) : gridsOf (s.coxRegister d e pa) d = gridsOf s d := by
  unfold State.coxRegister
  split
  · rfl
  · split
    · exact gridsOf_modCox s d e (fun k => { k with polling := true, seen := _ }) fun _ => rfl
    · refine gridsOf_standing (standing_modSlot_pa s pa (fun t => { t with waiters := t.waiters ++ [.cox d e] }) fun _ => ?_) d
      rfl

theorem gridsOf_takeoverRelease (s : State) (d : DieId) (e : Nat) : gridsOf (s.takeoverRelease d e) d = gridsOf s d := by
  have hat : ∀ n, gridsOf (s.modDie d fun x => x.modCox e fun j => { j with nrel := n }) d = gridsOf s d := fun n => gridsOf_modCox s d e _ fun _ => rfl
  unfold State.takeoverRelease
  split
  · rfl
  · dsimp only
    split
    · rfl
    · split
      · exact hat _
      · split
        · exact hat _
        · refine (gridsOf_coxStart ..).trans ((gridsOf_standing (standing_nextId ..) d).trans (hat _))

theorem le_foldl_max {α : Type} (g : α → Nat) (l : List α) (m : Nat) : m ≤ l.foldl (fun m k => max m (g k)) m ∧
    ∀ k ∈ l, g k ≤ l.foldl (fun m k => max m (g k)) m := by
  induction l generalizing m with
  | nil => simp
  | cons a l ih =>
    obtain ⟨hm, hl⟩ := ih (max m (g a))
    refine ⟨by rw [List.foldl_cons]; omega, fun k hk => ?_⟩
    rcases List.mem_cons.mp hk with rfl | hk
    · rw [List.foldl_cons]; omega
    · exact hl k hk

/-- The entry number of a stream that is taken over is free (R419). -/
theorem takeCox_free (x : Die) : ∀ j ∈ x.cox, j.e ≠ x.takeCox := by
  intro j hj
  unfold Die.takeCox
  cases hfree : x.freeCox with
  | some e =>
    have hnone := List.find?_some hfree
    simp only [Bool.not_eq_true', List.any_eq_false, decide_eq_true_eq] at hnone
    exact hnone j hj
  | none =>
    rw [Option.getD_none]
    by_cases hbig : 16384 ≤ j.e
    · have hle := (le_foldl_max (fun k : Cox => k.e - 16383) (x.cox.filter fun k => decide (16384 ≤ k.e)) 0).2 j (by simpa [hj] using hbig)
      omega
    · omega

theorem streamEntry_e (r : StreamRec) (e key t0 level islot : Nat) (cmd : Cmd) (jid : Word) (sid : Option Nat) :
    (streamEntry r e key t0 level islot cmd jid sid).e = e := rfl

theorem streamTakeover_takes {s : State} {d : DieId} {sid : Nat} {p : PeerStream} {z : Session} (hnext : s.takeoverNext d = some p) (hsid : p.sid = sid)
    (hz : (s.die d).session? sid = some z) : ∃ t, exec (.streamTakeover d sid) s = .next t ∧ (∀ q ∈ (t.die d).peers, q.sid ≠ sid) ∧
      ∃ k ∈ (t.die d).cox, (∀ j ∈ (s.die d).cox, j.e ≠ k.e) ∧ k.sid = some sid ∧ k.t0 = p.t0 ∧ k.period = p.srec.period ∧ k.dline = p.srec.dline := by
  generalize hk : streamEntry p.srec (s.die d).takeCox s.nextId p.t0 p.level z.fin (peerCmd p) p.jid (some sid) = k
  generalize hu : (({ s with nextId := s.nextId + 1 } : State).modDie d fun x =>
    { x with peers := x.peers.filter (fun q => decide (q.sid ≠ sid)), cox := x.cox ++ [k] }) = u
  have hstreams : streamsOf u d = ((s.die d).cox ++ [k], (s.die d).peers.filter fun q => decide (q.sid ≠ sid)) := by
    unfold streamsOf
    rw [← hu, State.die_modDie]
    cases d <;> rfl
  have hgrids : gridsOf (s.takeover d sid) d = gridsOf u d := by
    unfold State.takeover
    simp only [hnext, hsid, hz, hk, hu, ne_eq, not_true_eq_false, if_false]
    refine (gridsOf_standing (standing_outp ..) d).trans ?_
    rw [gridsOf_coxSettle, gridsOf_takeoverRelease, gridsOf_coxRecompute]
    have hbind : gridsOf (u.modDie d fun x => x.modSession sid fun y => y.bindStream (s.die d).takeCox false) d = gridsOf u d :=
      gridsOf_standing (standing_modSession ..) d
    split
    · exact (gridsOf_coxRegister ..).trans hbind
    · exact hbind
  obtain ⟨hcox, hpeers⟩ := Prod.mk.inj (hgrids.trans (congrArg (fun l : List Cox × List PeerStream => (l.1.map gridOf, l.2)) hstreams))
  have hmem : gridOf k ∈ ((s.takeover d sid).die d).cox.map gridOf := by
    rw [hcox, List.map_append]
    exact List.mem_append_right _ (List.mem_singleton_self _)
  obtain ⟨j, hj, hgrid⟩ := List.mem_map.mp hmem
  simp only [gridOf, Prod.mk.injEq] at hgrid
  obtain ⟨he, hs, ht0, hper, hdl⟩ := hgrid
  refine ⟨s.takeover d sid, rfl, fun q hq => ?_, j, hj, fun i hi => ?_, hs.trans ?_, ht0.trans ?_, hper.trans ?_, hdl.trans ?_⟩
  · have hleft : q ∈ (s.die d).peers.filter fun q => decide (q.sid ≠ sid) := hpeers.subst (motive := (q ∈ ·)) hq
    exact of_decide_eq_true (List.mem_filter.mp hleft).2
  · rw [he, ← hk, streamEntry_e]
    exact takeCox_free (s.die d) i hi
  all_goals rw [← hk]; rfl

end Sys2Proof
end

section
/-! PROOF. The host's command rings (R308 to R311, R321, R322), and the settling of O51. -/

namespace Sys2Proof

open Machine Spec

/-! ## What a ring's registers become -/

/-- A ring's change reaches that ring alone, and no memory. -/
theorem modRing_frame (s : State) (d : DieId) (r : Fin 64) (f : Ring → Ring) : (s.modRing d r f).mem = s.mem ∧ ∀ q, q ≠ r → (s.modRing d r f).ring d q = s.ring d q :=
  ⟨by simp, fun q hq => ring_modRing_ne s d d r q f fun h => hq h.2⟩

/-- The registers of a ring whose control register is written with `v` (R321). -/
def writtenRing (x : Ring) (v : Dw) : Ring := { x with ctl := ctlBits v }

/-- The control register of a ring that is off. -/
def offCtl (v : Dw) : Dw := v &&& ~~~(1 : Dw)

@[simp] theorem getLsbD_offCtl (v : Dw) : (offCtl v).getLsbD 0 = false := by simp [offCtl]

theorem wmode_writtenRing (x : Ring) (v : Dw) : (writtenRing x v).wmode = v.getLsbD 7 := by
  show (v &&& 0x7FFFF#64).getLsbD 7 = _
  rw [BitVec.getLsbD_and]
  simp

/-- A ring that is enabled (R308): it begins at its consumer's cursor `c`, read from `cva`; one that still carries out a command keeps its place (log 42). -/
def enabledRing (x : Ring) (v cva : Dw) (c : Nat) : Ring :=
  if x.blocked.isSome then { writtenRing x v with enabled := true, wake := !(writtenRing x v).wmode, watch := none, again := true }
  else { writtenRing x v with enabled := true, wake := !(writtenRing x v).wmode, watch := none, carried := false, cva := cva, c := c }

theorem ringEnable_takes {s : State} {d : DieId} {r : Fin 64} {v : Dw} {hpa cpa : Nat} (hoff : (s.ring d r).ctl.getLsbD 0 = false) (hon : v.getLsbD 0 = true)
    (hhead : s.feAccess d (writtenRing (s.ring d r) v).ctx (writtenRing (s.ring d r) v).part needRd 64 64 (writtenRing (s.ring d r) v).base = .ok hpa)
    (hclean : s.poisoned hpa 64 = false) (hgood : frontBad (s.recAt hpa) (writtenRing (s.ring d r) v).cons = false)
    (hcur : s.feAccess d (writtenRing (s.ring d r) v).ctx (writtenRing (s.ring d r) v).part needRd 8 8
      (cursorVa (s.recAt hpa) (writtenRing (s.ring d r) v).cons) = .ok cpa) :
    s.ringEnable d r v =
      s.modRing d r fun x => enabledRing x v (cursorVa (s.recAt hpa) (writtenRing (s.ring d r) v).cons) (s.valueAt cpa 8) := by
  unfold writtenRing at hhead hgood hcur
  unfold State.ringEnable
  simp only [hoff, hon, hhead, hclean, hgood, hcur, Bool.not_true, Bool.or_self, Bool.false_eq_true, if_false]
  rfl

theorem ringEnable_refuses {s : State} {d : DieId} {r : Fin 64} {v : Dw} {hpa : Nat} (hoff : (s.ring d r).ctl.getLsbD 0 = false) (hon : v.getLsbD 0 = true)
    (hhead : s.feAccess d (writtenRing (s.ring d r) v).ctx (writtenRing (s.ring d r) v).part needRd 64 64 (writtenRing (s.ring d r) v).base = .ok hpa)
    (hbad : frontBad (s.recAt hpa) (writtenRing (s.ring d r) v).cons = true) :
    s.ringEnable d r v = s.modRing d r fun x => { writtenRing x v with ctl := offCtl (ctlBits v), cause := 1 } := by
  unfold writtenRing at hhead hbad
  unfold State.ringEnable
  simp only [hoff, hon, hhead, hbad, Bool.not_true, Bool.or_self, Bool.or_true, Bool.false_eq_true, if_false, if_true]
  rfl

/-! ## The events of a ring's registers, its doorbell and its watch -/

theorem ringEnable_again {s : State} {d : DieId} {r : Fin 64} {v : Dw} {hpa cpa : Nat} {c : Cmd} (hoff : (s.ring d r).ctl.getLsbD 0 = false)
    (hon : v.getLsbD 0 = true) (hblocked : (s.ring d r).blocked = some c)
    (hhead : s.feAccess d (writtenRing (s.ring d r) v).ctx (writtenRing (s.ring d r) v).part needRd 64 64 (writtenRing (s.ring d r) v).base = .ok hpa)
    (hclean : s.poisoned hpa 64 = false) (hgood : frontBad (s.recAt hpa) (writtenRing (s.ring d r) v).cons = false)
    (hcur : s.feAccess d (writtenRing (s.ring d r) v).ctx (writtenRing (s.ring d r) v).part needRd 8 8
      (cursorVa (s.recAt hpa) (writtenRing (s.ring d r) v).cons) = .ok cpa) : ∃ t, exec (.ringEnable d r v) s = .next t ∧
      (t.ring d r).enabled = true ∧ (t.ring d r).blocked = some c ∧ (t.ring d r).c = (s.ring d r).c ∧ (t.ring d r).cva = (s.ring d r).cva ∧
      (t.ring d r).again = true ∧ t.mem = s.mem ∧ ∀ q, q ≠ r → t.ring d q = s.ring d q := by
  refine ⟨_, rfl, ?_⟩
  rw [ringEnable_takes hoff hon hhead hclean hgood hcur, ring_modRing, enabledRing, hblocked]
  exact ⟨rfl, hblocked, rfl, rfl, rfl, modRing_frame ..⟩

theorem ringEnable_fresh {s : State} {d : DieId} {r : Fin 64} {v : Dw} {hpa cpa : Nat} (hoff : (s.ring d r).ctl.getLsbD 0 = false)
    (hon : v.getLsbD 0 = true) (hfree : (s.ring d r).blocked = none)
    (hhead : s.feAccess d (writtenRing (s.ring d r) v).ctx (writtenRing (s.ring d r) v).part needRd 64 64 (writtenRing (s.ring d r) v).base = .ok hpa)
    (hclean : s.poisoned hpa 64 = false) (hgood : frontBad (s.recAt hpa) (writtenRing (s.ring d r) v).cons = false)
    (hcur : s.feAccess d (writtenRing (s.ring d r) v).ctx (writtenRing (s.ring d r) v).part needRd 8 8
      (cursorVa (s.recAt hpa) (writtenRing (s.ring d r) v).cons) = .ok cpa) : ∃ t, exec (.ringEnable d r v) s = .next t ∧
      (t.ring d r).enabled = true ∧ (t.ring d r).ctl = v &&& 0x7FFFF ∧ (t.ring d r).c = s.valueAt cpa 8 ∧ (t.ring d r).blocked = none ∧
      (t.ring d r).cva = cursorVa (s.recAt hpa) (writtenRing (s.ring d r) v).cons ∧ (t.ring d r).wake = !v.getLsbD 7 ∧ t.mem = s.mem ∧
      ∀ q, q ≠ r → t.ring d q = s.ring d q := by
  refine ⟨_, rfl, ?_⟩
  rw [ringEnable_takes hoff hon hhead hclean hgood hcur, ring_modRing, enabledRing, hfree, wmode_writtenRing]
  exact ⟨rfl, rfl, rfl, hfree, rfl, rfl, modRing_frame ..⟩

theorem ringEnable_badHeader {s : State} {d : DieId} {r : Fin 64} {v : Dw} {hpa : Nat} (hoff : (s.ring d r).ctl.getLsbD 0 = false) (hon : v.getLsbD 0 = true)
    (hhead : s.feAccess d (writtenRing (s.ring d r) v).ctx (writtenRing (s.ring d r) v).part needRd 64 64 (writtenRing (s.ring d r) v).base = .ok hpa)
    (hbad : frontBad (s.recAt hpa) (writtenRing (s.ring d r) v).cons = true) : ∃ t, exec (.ringEnable d r v) s = .next t ∧
      (t.ring d r).enabled = (s.ring d r).enabled ∧ (t.ring d r).ctl.getLsbD 0 = false ∧ (t.ring d r).cause = 1 ∧ t.mem = s.mem := by
  refine ⟨_, rfl, ?_⟩
  rw [ringEnable_refuses hoff hon hhead hbad, ring_modRing]
  exact ⟨rfl, getLsbD_offCtl _, rfl, (modRing_frame ..).1⟩

theorem ringDisable_stops {s : State} {d : DieId} {r : Fin 64} {v : Dw} (hoff : v.getLsbD 0 = false) (hon : (s.ring d r).ctl.getLsbD 0 = true) :
    ∃ t, exec (.ringDisable d r v) s = .next t ∧ (t.ring d r).enabled = false ∧ (t.ring d r).ctl.getLsbD 0 = false ∧
      (t.ring d r).blocked = (s.ring d r).blocked ∧ t.mem = s.mem ∧ ∀ q, q ≠ r → t.ring d q = s.ring d q := by
  refine ⟨_, rfl, ?_⟩
  unfold State.ringDisable
  rw [hoff, if_neg Bool.false_ne_true, ring_modRing, if_pos hon]
  exact ⟨rfl, getLsbD_offCtl _, rfl, modRing_frame ..⟩

theorem ringDisable_writes {s : State} {d : DieId} {r : Fin 64} {v : Dw} (hoff : v.getLsbD 0 = false) (hstood : (s.ring d r).ctl.getLsbD 0 = false) :
    ∃ t, exec (.ringDisable d r v) s = .next t ∧ t.ring d r = { s.ring d r with ctl := v &&& 0x7FFFF } ∧ t.mem = s.mem ∧
      ∀ q, q ≠ r → t.ring d q = s.ring d q := by
  refine ⟨_, rfl, ?_⟩
  unfold State.ringDisable
  rw [hoff, if_neg Bool.false_ne_true, ring_modRing, hstood, if_neg Bool.false_ne_true]
  exact ⟨rfl, modRing_frame ..⟩

theorem rdoor_wakes {s : State} {d : DieId} {x : Door} (hon : (s.ring d x.ring).enabled = true) : ∃ t, exec (.rdoor d x) s = .next t ∧
    t.ring d x.ring = (if x.fn = 0 ∨ ringFn (s.ring d x.ring).part = x.fn then { s.ring d x.ring with wake := true, watch := none } else s.ring d x.ring) ∧
    t.mem = s.mem ∧ ∀ q, q ≠ x.ring → t.ring d q = s.ring d q := by
  refine ⟨_, rfl, ?_, modRing_frame ..⟩
  rw [ring_modRing]
  simp only [hon, Bool.true_and, Bool.or_eq_true, decide_eq_true_eq]

theorem ringWatchWake_ends {s : State} {d : DieId} {r : Fin 64} (hwatch : (s.ring d r).watch.isSome = true) (hwake : (s.ring d r).wake = true) :
    ∃ t, exec (.ringWatchWake d r) s = .next t ∧ t.ring d r = { s.ring d r with watch := none } ∧ t.mem = s.mem ∧ ∀ q, q ≠ r → t.ring d q = s.ring d q := by
  have hto : exec (.ringWatchWake d r) s = .next (s.modRing d r fun y => { y with watch := none }) :=
    congrArg Host.Outcome.next (if_pos (by rw [hwatch, hwake]; rfl))
  exact ⟨_, hto, ring_modRing .., modRing_frame ..⟩

/-! ## The front end's turn -/

/-- The front end's turn has gone past a ring (R309). -/
def turned (s : State) (d : DieId) (r : Fin 64) : State := s.modDie d fun x => { x with ringTurn := (r.val + 1) % 64 }

@[simp] theorem turned_ring (s : State) (d : DieId) (r q : Fin 64) : (turned s d r).ring d q = s.ring d q := by
  unfold turned State.ring
  rw [State.die_modDie]

theorem ringTurn_turned_modRing (s : State) (d : DieId) (r : Fin 64) (f : Ring → Ring) : (((turned s d r).modRing d r f).die d).ringTurn = (r.val + 1) % 64 := by
  unfold State.modRing turned
  rw [State.die_modDie, State.die_modDie]

/-- A ring's slot, read to the point where its sequence is compared with the cursor plus one (R309, R310). -/
structure SlotRead (s : State) (d : DieId) (r : Fin 64) (hpa spa : Nat) : Prop where
  next : s.ringNext d = some r
  idle : (s.ring d r).carried = false
  head : (turned s d r).feAccess d (s.ring d r).ctx (s.ring d r).part needRd 64 64 (s.ring d r).base = .ok hpa
  clean : (turned s d r).poisoned hpa 64 = false
  good : frontBad ((turned s d r).recAt hpa) (s.ring d r).cons = false
  slot : (turned s d r).feAccess d (s.ring d r).ctx (s.ring d r).part needRd 8 8 (ringSlotVa ((turned s d r).recAt hpa) (s.ring d r).c) = .ok spa

/-- The line that a ring without a command watches: its slot's where the slot is free, else its header's (R310). -/
def watchedLine (s : State) (d : DieId) (r : Fin 64) (hpa spa : Nat) : Nat :=
  if (s.ring d r).c < recU ((turned s d r).recAt hpa) 0 64 then spa / 64 * 64 else hpa

theorem ringTake_command {s : State} {d : DieId} {r : Fin 64} {hpa spa : Nat} {b : List Byte} (h : SlotRead s d r hpa spa)
    (hseq : (turned s d r).valueAt spa 8 = ((s.ring d r).c + 1) % 2 ^ 64)
    (hwhole : (turned s d r).spanBreaks d (s.ring d r).ctx (s.ring d r).part (ringSlotVa ((turned s d r).recAt hpa) (s.ring d r).c) 128 = false)
    (hbytes : (turned s d r).feBytes d (s.ring d r).ctx (s.ring d r).part (ringSlotVa ((turned s d r).recAt hpa) (s.ring d r).c) 128 = some b) :
    s.ringTake d r = (turned s d r).modRing d r fun y =>
      { y with blocked := some (cmdOf b r y), cva := cursorVa ((turned s d r).recAt hpa) y.cons, carried := false } := by
  obtain ⟨hnext, hidle, hhead, hclean, hgood, hslot⟩ := h
  have hring := turned_ring s d r r
  unfold State.ringTake
  rw [if_neg (by rw [hnext]; exact fun hne => hne rfl), ← turned]
  cases (s.ring d r).blocked <;> simp only [hring, hidle, hhead, hclean, hgood, hslot, hseq, hwhole, hbytes, Bool.false_eq_true, if_false, if_true]

theorem ringTake_watch {s : State} {d : DieId} {r : Fin 64} {hpa spa : Nat} (h : SlotRead s d r hpa spa)
    (hseq : (turned s d r).valueAt spa 8 ≠ ((s.ring d r).c + 1) % 2 ^ 64) :
    s.ringTake d r = (turned s d r).modRing d r fun y =>
      { y with wake := false, watch := if y.wmode then none else some (watchedLine s d r hpa spa) } := by
  obtain ⟨hnext, hidle, hhead, hclean, hgood, hslot⟩ := h
  have hring := turned_ring s d r r
  unfold State.ringTake watchedLine
  rw [if_neg (by rw [hnext]; exact fun hne => hne rfl), ← turned]
  cases (s.ring d r).blocked <;> simp only [hring, hidle, hhead, hclean, hgood, hslot, hseq, Bool.false_eq_true, if_false]

theorem ringTake_takes {s : State} {d : DieId} {r : Fin 64} {hpa spa : Nat} {b : List Byte} (h : SlotRead s d r hpa spa)
    (hseq : (turned s d r).valueAt spa 8 = ((s.ring d r).c + 1) % 2 ^ 64)
    (hwhole : (turned s d r).spanBreaks d (s.ring d r).ctx (s.ring d r).part (ringSlotVa ((turned s d r).recAt hpa) (s.ring d r).c) 128 = false)
    (hbytes : (turned s d r).feBytes d (s.ring d r).ctx (s.ring d r).part (ringSlotVa ((turned s d r).recAt hpa) (s.ring d r).c) 128 = some b) :
    ∃ t, exec (.ringTake d r) s = .next t ∧ (t.ring d r).blocked = some (cmdOf b r (s.ring d r)) ∧ (t.ring d r).c = (s.ring d r).c ∧
      (t.ring d r).cva = cursorVa ((turned s d r).recAt hpa) (s.ring d r).cons ∧ (t.die d).ringTurn = (r.val + 1) % 64 ∧ t.mem = s.mem := by
  refine ⟨_, rfl, ?_⟩
  rw [ringTake_command h hseq hwhole hbytes, ring_modRing, turned_ring, ringTurn_turned_modRing]
  exact ⟨rfl, rfl, rfl, rfl, by simp [turned]⟩

theorem ringTake_waits {s : State} {d : DieId} {r : Fin 64} {hpa spa : Nat} (h : SlotRead s d r hpa spa)
    (hseq : (turned s d r).valueAt spa 8 ≠ ((s.ring d r).c + 1) % 2 ^ 64) :
    ∃ t, exec (.ringTake d r) s = .next t ∧ (t.ring d r).blocked = (s.ring d r).blocked ∧ (t.ring d r).c = (s.ring d r).c ∧ (t.ring d r).wake = false ∧
      ((t.ring d r).watch = none ↔ (s.ring d r).ctl.getLsbD 7 = true) ∧ t.mem = s.mem := by
  refine ⟨_, rfl, ?_⟩
  rw [ringTake_watch h hseq, ring_modRing, turned_ring]
  refine ⟨rfl, rfl, rfl, ?_, by simp [turned]⟩
  unfold Ring.wmode
  split
  · exact iff_of_true rfl ‹_›
  · exact iff_of_false (Option.some_ne_none _) ‹_›

/-! ## O51 -/

/-- Settles O51. A release and a skip settle, count and complete through operations that keep every stream's grid (`standing`); the rings' events change
one ring's registers (`modRing_frame`). -/
theorem streamAndRingEvents : Obligations.StreamAndRingEvents :=
  ⟨⟨fun _ _ _ _ hk hdue hsusp => coxRelease_releases hk hdue hsusp,
      fun _ _ _ _ hk hlate hdue => ⟨phaseSkip_misses hk hlate hdue, phaseSkip_freezes hk hlate hdue⟩,
      fun _ _ _ hp => peerStreamCopy_stands hp,
      fun _ _ _ _ _ hnext hsid hz => streamTakeover_takes hnext hsid hz⟩,
    fun _ _ _ _ _ _ _ hoff hon hblocked hhead hclean hgood hcur => ringEnable_again hoff hon hblocked hhead hclean hgood hcur,
    fun _ _ _ _ _ _ hoff hon hfree hhead hclean hgood hcur => ringEnable_fresh hoff hon hfree hhead hclean hgood hcur,
    fun _ _ _ _ _ hoff hon hhead hbad => ringEnable_badHeader hoff hon hhead hbad,
    fun _ _ _ _ hoff hon => ringDisable_stops hoff hon,
    fun _ _ _ _ hoff hstood => ringDisable_writes hoff hstood,
    fun _ _ _ hon => rdoor_wakes hon,
    fun _ _ _ hwatch hwake => ringWatchWake_ends hwatch hwake,
    fun _ _ _ _ _ _ hnext hidle hhead hclean hgood hslot hseq hwhole hbytes => ringTake_takes ⟨hnext, hidle, hhead, hclean, hgood, hslot⟩ hseq hwhole hbytes,
    fun _ _ _ _ _ hnext hidle hhead hclean hgood hslot hseq => ringTake_waits ⟨hnext, hidle, hhead, hclean, hgood, hslot⟩ hseq⟩

end Sys2Proof
end

section
/-! PROOF. Power, attestation, storage errors and function resets (R306, R366, R367, R395, R397), and the settling of O55. -/

namespace Sys2Proof

open Machine Spec

/-! ## The clock step (R397) -/

/-- What a die's clock step follows: its start, time, step, limit, power control and temperature. -/
def powerOf (x : Die) : StartSt × Nat × Nat × Nat × Dw × BitVec 8 := (x.start, x.time, x.clkStep, x.capLow, x.pwrctl, x.temp)

def powers (s : State) (e : DieId) : StartSt × Nat × Nat × Nat × Dw × BitVec 8 := powerOf (s.die e)

theorem powers_modDie (s : State) (d : DieId) (f : Die → Die) (h : ∀ x, powerOf (f x) = powerOf x) : powers (s.modDie d f) = powers s := by
  funext e
  unfold powers
  by_cases he : e = d
  · subst he; rw [State.die_modDie, h]
  · rw [State.die_modDie_ne _ _ _ _ he]

theorem powers_of_dieKept {s t : State} (h : ∀ e, DieKept (s.die e) (t.die e)) : powers t = powers s := by
  funext e
  have hkept : { t.die e with ecsel := (s.die e).ecsel, ecval := (s.die e).ecval } = s.die e := h e
  have hpower := congrArg powerOf hkept
  exact hpower

/-- Recording an epoch and recomputing admission leave the clock step and what it follows. -/
theorem powers_traceEpoch (s : State) (w : CrewId) (cause : Nat) : powers (s.traceEpoch w cause) = powers s :=
  powers_of_dieKept (traceEpoch_only s w cause).package.die

theorem powers_coxSettle (s : State) (d : DieId) (e : Nat) : powers (s.coxSettle d e) = powers s := powers_modDie _ _ _ fun _ => rfl

theorem powers_coxStore (s : State) (d : DieId) (l : List Cox) : powers (s.coxStore d l) = powers s := by
  unfold State.coxStore
  dsimp only
  rw [foldl_keeps (g := powers) fun u (k : Cox) => powers_coxSettle u d k.e]
  exact powers_modDie _ _ _ fun _ => rfl

theorem powers_countDie (s : State) (d : DieId) (code inc : Nat) : powers (s.countDie d code inc) = powers s := by
  funext e
  obtain ⟨c, v, hdie⟩ := countDie_die s d code inc e
  rw [powers, hdie]
  rfl

theorem powers_coxRecompute (s : State) (d : DieId) (p : Fin 32) : powers (s.coxRecompute d p) = powers s :=
  (powers_countDie ..).trans (powers_coxStore ..)

theorem powers_coxRecomputeAll (s : State) (d : DieId) : powers (s.coxRecomputeAll d) = powers s := foldl_keeps (fun u p => powers_coxRecompute u d p) _ s

/-- The clock step that a die's limits allow (R397). -/
def allowedStep (x : Die) : Nat := max x.capLow (capStep x.pwrctl)

theorem powers_setStep (s : State) (d : DieId) (step : Nat) : powers (s.setStep d step) = powers (s.modDie d fun x => { x with clkStep := step }) := by
  have hstep : ∀ u : State, powers (u.modDie d fun x => { x with clkStep := step, acc := 0 }) = powers (u.modDie d fun x => { x with clkStep := step }) := fun u => by
    funext e
    cases d <;> cases e <;> rfl
  unfold State.setStep
  split
  · rename_i heq
    funext e
    by_cases he : e = d
    · subst he; simp only [powers, powerOf, State.die_modDie, heq]
    · simp only [powers, State.die_modDie_ne _ _ _ _ he]
  · refine (powers_coxRecomputeAll ..).trans ?_
    rw [foldl_keeps (g := powers) fun u w => by split; exacts [powers_traceEpoch .., rfl], hstep]
    funext e
    cases d <;> cases e <;> rfl

/-- The clock step follows its limits, and nothing that they follow changes. -/
theorem powers_applyStep (s : State) (d : DieId) : powers (s.applyStep d) = powers (s.modDie d fun x => { x with clkStep := allowedStep (s.die d) }) :=
  powers_setStep ..

theorem powers_applyStep_self (s : State) (d : DieId) : powers (s.applyStep d) d = powerOf { s.die d with clkStep := allowedStep (s.die d) } := by
  rw [powers_applyStep, powers, State.die_modDie]

theorem powers_applyStep_ne (s : State) {d e : DieId} (h : e ≠ d) : powers (s.applyStep d) e = powers s e := by
  rw [powers_applyStep, powers, State.die_modDie_ne _ _ _ _ h, powers]

theorem DieId.other_ne (d : DieId) : d.other ≠ d := by cases d <;> decide

theorem DieId.eq_or_eq_other (d e : DieId) : e = d ∨ e = d.other := by cases d <;> cases e <;> decide

/-- The limits of both dies take effect. -/
theorem powers_applySteps (s : State) (d e : DieId) :
    powers ((s.applyStep d).applyStep d.other) e = powerOf { s.die e with clkStep := allowedStep (s.die e) } := by
  have hother : powers (s.applyStep d) d.other = powers s d.other := powers_applyStep_ne s d.other_ne
  rcases DieId.eq_or_eq_other d e with rfl | rfl
  · rw [powers_applyStep_ne _ e.other_ne.symm, powers_applyStep_self]
  · rw [powers_applyStep_self]
    simp only [powers, powerOf, Prod.mk.injEq] at hother
    obtain ⟨hstart, htime, -, hlow, hctl, htemp⟩ := hother
    simp only [powerOf, allowedStep, hstart, htime, hlow, hctl, htemp]

theorem clkStep_applySteps (s : State) (d e : DieId) : ((((s.applyStep d).applyStep d.other).die e).clkStep = allowedStep (s.die e)) ∧
    (((s.applyStep d).applyStep d.other).die e).temp = (s.die e).temp := by
  have h := powers_applySteps s d e
  simp only [powers, powerOf, Prod.mk.injEq] at h
  obtain ⟨-, -, hstep, -, -, htemp⟩ := h
  exact ⟨hstep, htemp⟩

/-- A sensor at 105 °C or above (R397). -/
theorem thermal_hot {x : Die} {temp : Nat} (h : 105 ≤ temp) (above : Bool) : (x.thermal temp above).capLow = min 6 (max x.capLow x.clkStep + 1) := by
  have hcool : ¬temp < 95 := by omega
  simp [Die.thermal, Die.lower, h, hcool]

/-- Below 105 °C, with the package's power above its limit, the sensors change no limit. -/
theorem thermal_above {x : Die} {temp : Nat} (h : temp < 105) : (x.thermal temp true).capLow = x.capLow := by
  have hcool : ¬105 ≤ temp := by omega
  simp [Die.thermal, Die.lower, hcool]

theorem powerEvaluation_hot {s : State} {d : DieId} {temp : BitVec 8} (hrun : (s.die d).start = .running) (hhot : 105 ≤ temp.toNat) :
    ∃ t, exec (.powerEvaluation d temp false) s = .next t ∧ (t.die d).clkStep =
      max (min 6 (max (s.die d).capLow (s.die d).clkStep + 1)) (min 6 ((s.die d).pwrctl.extractLsb' 0 3).toNat) ∧ (t.die d).temp = temp ∧ t.mem = s.mem := by
  have hto : s.powerEval d temp false = ((s.modDie d fun x => x.thermal temp.toNat false).applyStep d).applyStep d.other := by
    unfold State.powerEval
    rw [if_neg fun hne => hne hrun]
    rfl
  obtain ⟨hstep, htemp⟩ := clkStep_applySteps (s.modDie d fun x => x.thermal temp.toNat false) d d
  rw [State.die_modDie] at hstep htemp
  refine ⟨_, rfl, ?_, ?_, by simp⟩
  · rw [hto, hstep, allowedStep, thermal_hot hhot]
    rfl
  · rw [hto, htemp]
    exact (BitVec.ofNat_toNat 8 temp).trans (BitVec.setWidth_eq temp)

theorem powerEvaluation_package {s : State} {d : DieId} {temp : BitVec 8} (hrun : ∀ e, (s.die e).start = .running) (hcold : temp.toNat < 105)
    (hdue : (s.die d).pwrAt = 0 ∨ (s.die d).pwrAt + 10000 ≤ (s.die d).time) : ∃ t, exec (.powerEvaluation d temp true) s = .next t ∧ t.mem = s.mem ∧ ∀ e,
      (t.die e).clkStep = max (min 6 (max (s.die e).capLow (s.die e).clkStep + 1)) (min 6 ((s.die e).pwrctl.extractLsb' 0 3).toNat) := by
  have hnow : (s.die d).powerDue = true := by simpa [Die.powerDue] using hdue
  have hto : s.powerEval d temp true =
      ((((s.modDie d fun x => x.thermal temp.toNat true).modDie d Die.powerLower).modDie d.other Die.powerLower).applyStep d).applyStep d.other := by
    have hself : ((s.modDie d fun x => x.thermal temp.toNat true).die d).start = .running := by rw [State.die_modDie]; exact hrun d
    have hother : (((s.modDie d fun x => x.thermal temp.toNat true).modDie d Die.powerLower).die d.other).start = .running := by
      rw [State.die_modDie_ne _ _ _ _ d.other_ne, State.die_modDie_ne _ _ _ _ d.other_ne]
      exact hrun d.other
    unfold State.powerEval
    rw [if_neg fun hne => hne (hrun d)]
    simp only [hnow, hself, hother, Bool.and_self, decide_true, if_true]
  refine ⟨_, rfl, by simp, fun e => ?_⟩
  rw [hto, (clkStep_applySteps _ d e).1]
  rcases DieId.eq_or_eq_other d e with rfl | rfl
  · rw [State.die_modDie_ne _ _ _ _ e.other_ne.symm, State.die_modDie, State.die_modDie]
    show max (min 6 (max ((s.die e).thermal temp.toNat true).capLow (s.die e).clkStep + 1)) _ = _
    rw [thermal_above hcold]
    rfl
  · rw [State.die_modDie, State.die_modDie_ne _ _ _ _ d.other_ne, State.die_modDie_ne _ _ _ _ d.other_ne]
    rfl

/-! ## A report's bytes (R395) -/

theorem memWriteBytes_append (x y : List Byte) (m : List Host.Cell) (a : Nat) : memWriteBytes m a (x ++ y) = memWriteBytes (memWriteBytes m a x) (a + x.length) y := by
  induction x generalizing m a with
  | nil => rfl
  | cons b x ih => rw [List.cons_append, memWriteBytes, ih, memWriteBytes, List.length_cons, Nat.add_assoc, Nat.add_comm 1]

theorem length_memReadBytes (m : List Host.Cell) (a n : Nat) : (memReadBytes m a n).length = n := by
  induction n generalizing a with
  | zero => rfl
  | succ n ih => rw [memReadBytes, List.length_cons, ih]

theorem getD_memReadBytes {m : List Host.Cell} {a n j : Nat} (h : j < n) : (memReadBytes m a n).getD j 0 = memRead m (a + j) := by
  induction n generalizing a j with
  | zero => omega
  | succ n ih =>
    cases j with
    | zero => rfl
    | succ j => rw [memReadBytes, List.getD_cons_succ, ih (by omega), Nat.add_right_comm, Nat.add_assoc]

/-- The bytes that stand from an address on, read back. -/
theorem memReadBytes_of_bytes {m : List Host.Cell} {a : Nat} {b : List Byte} (h : ∀ j, j < b.length → memRead m (a + j) = b.getD j 0) :
    memReadBytes m a b.length = b := by
  refine List.ext_getElem (length_memReadBytes ..) fun j hj hj' => ?_
  rw [← List.getD_eq_getElem _ 0 hj, getD_memReadBytes hj', h j hj', List.getD_eq_getElem]

/-- A number that stands inside written bytes, read back (R6). -/
theorem bytesValue_infix {m : List Host.Cell} {a v n : Nat} {p q b : List Byte} (hb : b = p ++ (leBytes v n ++ q))
    (h : ∀ j, j < b.length → memRead m (a + j) = b.getD j 0) : bytesValue m (a + p.length) n = v % 256 ^ n := by
  refine bytesValue_of_leBytes fun j hj => ?_
  have hlen := leBytes_length v n
  rw [Nat.add_assoc, h (p.length + j) (by rw [hb]; simp only [List.length_append]; omega), hb, List.getD_append_right _ _ _ _ (by omega),
    List.getD_append _ _ _ _ (by omega), Nat.add_sub_cancel_left]

theorem hitsSlot_of_pas {s t : State} (h : t.slots.map Slot.pa = s.slots.map Slot.pa) (pa n : Nat) : t.hitsSlot pa n = s.hitsSlot pa n := by
  have hmap : ∀ u : State, u.hitsSlot pa n = (u.slots.map Slot.pa).any fun a => overlaps pa n a 16 := fun u => by rw [List.any_map]; rfl
  rw [hmap, hmap, h]

theorem hitsSlot_part {s : State} {pa n a k : Nat} (h : s.hitsSlot pa n = false) (hlo : pa ≤ a) (hhi : a + k ≤ pa + n) : s.hitsSlot a k = false := by
  simp only [State.hitsSlot, overlaps, List.any_eq_false, Bool.and_eq_true, decide_eq_true_eq, not_and] at h ⊢
  intro t ht hat
  have := h t ht
  omega

/-- Two pieces of bytes, one after the other, written at their home where no slot stands. -/
theorem homeStore_append_mem {s t : State} {pa : Nat} {x y : List Byte} (hslots : t.slots.map Slot.pa = s.slots.map Slot.pa) (hmem : t.mem = memWriteBytes s.mem pa x)
    (h : s.hitsSlot (pa + x.length) y.length = false) : (t.homeStore (pa + x.length) y).mem = memWriteBytes s.mem pa (x ++ y) := by
  rw [homeStore_mem _ _ _ ((hitsSlot_of_pas hslots ..).trans h), hmem, memWriteBytes_append]

/-- A report's 192 bytes stand in memory as one write leaves them. -/
theorem attest_mem {s : State} {d : DieId} {buf : Dw} (hruns : s.policyRuns d = true) (hin : hostPa buf + 192 ≤ 2 ^ 56)
    (hclear : s.hitsSlot (hostPa buf) 192 = false) {b : List Byte} (hb : s.report d (memReadBytes s.mem (hostPa buf) 32) = b) (hlen : b.length = 192) :
    (s.attest d buf).mem = memWriteBytes s.mem (hostPa buf) b := by
  have hto : s.attest d buf = ((s.homeStore (hostPa buf) (b.take 64)).homeStore (hostPa buf + 64) ((b.drop 64).take 64)).homeStore (hostPa buf + 128)
      (b.drop 128) := by
    unfold State.attest
    simp only [hruns, hb, Bool.not_true, Bool.false_or, decide_eq_true_eq]
    exact if_neg (by omega)
  generalize hostPa buf = pa at *
  have hx : (b.take 64).length = 64 := by simp [hlen]
  have hy : ((b.drop 64).take 64).length = 64 := by simp [hlen]
  have hxy : (b.take 64 ++ (b.drop 64).take 64).length = 128 := by rw [List.length_append, hx, hy]
  have hwhole : b.take 64 ++ (b.drop 64).take 64 ++ b.drop 128 = b := by
    rw [← List.drop_drop (i := 64) (j := 64), List.append_assoc, List.take_append_drop, List.take_append_drop]
  generalize hu : s.homeStore pa (b.take 64) = u at *
  have hslots : u.slots.map Slot.pa = s.slots.map Slot.pa := by rw [← hu]; exact standing_slots (standing_homeStore ..)
  have hmem : u.mem = memWriteBytes s.mem pa (b.take 64) := by rw [← hu]; exact homeStore_mem _ _ _ (hitsSlot_part hclear (by omega) (by omega))
  have hmem2 := homeStore_append_mem (y := (b.drop 64).take 64) hslots hmem (hitsSlot_part hclear (by omega) (by omega))
  rw [hx] at hmem2
  have hslots2 := (standing_slots (standing_homeStore u (pa + 64) ((b.drop 64).take 64))).trans hslots
  have hmem3 := homeStore_append_mem (y := b.drop 128) hslots2 hmem2 (hitsSlot_part hclear (by omega) (by simp [hlen, hxy]))
  rw [hxy, hwhole] at hmem3
  rw [hto, hmem3]

/-- The signature of a report's body by a die's key (R395) (log 34). -/
def signatureOf (d : DieId) (body : List Byte) : Nat := (Config.ed25519 (Config.deviceKey d.toNat) body).toNat

theorem report_eq (s : State) (d : DieId) (nonce : List Byte) : s.report d nonce =
    nonce ++ (leBytes (s.die d).digest.toNat 64 ++ (leBytes (s.hident d) 8 ++ (leBytes (s.die d).bstat 8 ++ (List.replicate 16 0 ++
      leBytes (signatureOf d (s.reportBody d nonce)) 64)))) := by
  simp only [State.report, State.reportBody, signatureOf, List.append_assoc]

theorem length_reportBody {s : State} {d : DieId} {nonce : List Byte} (h : nonce.length = 32) : (s.reportBody d nonce).length = 128 := by
  simp [State.reportBody, leBytes_length, h]

theorem length_report {s : State} {d : DieId} {nonce : List Byte} (h : nonce.length = 32) : (s.report d nonce).length = 192 := by
  rw [State.report, List.length_append, length_reportBody h, leBytes_length]

theorem hident_lt (s : State) (d : DieId) : s.hident d < 256 ^ 8 := by
  have hd : d.toNat < 2 := by cases d <;> decide
  have := (s.die d).stepping.isLt
  unfold State.hident
  omega

theorem bstat_lt (x : Die) : x.bstat < 256 ^ 8 := by
  have := x.bkind.isLt
  have := x.wfail.isLt
  have := x.fstep.isLt
  have : bitN x.sigbad ≤ 1 := by unfold bitN; split <;> omega
  unfold Die.bstat
  omega

theorem atreq_reports {s : State} {d : DieId} {buf : Dw} (hruns : s.policyRuns d = true) (hinv : MemInv s) (hin : hostPa buf + 192 ≤ 2 ^ 56)
    (hclear : s.hitsSlot (hostPa buf) 192 = false) : ∃ t, exec (.atreq d buf) s = .next t ∧
      (∀ i, i < 32 → memRead t.mem (hostPa buf + i) = memRead s.mem (hostPa buf + i)) ∧ bytesValue t.mem (hostPa buf + 96) 8 = s.hident d ∧
      bytesValue t.mem (hostPa buf + 104) 8 = (s.die d).bstat ∧ (∀ i, 112 ≤ i → i < 128 → memRead t.mem (hostPa buf + i) = 0) ∧
      bytesValue t.mem (hostPa buf + 32) 64 = (s.die d).digest.toNat ∧
      bytesValue t.mem (hostPa buf + 128) 64 = signatureOf d (memReadBytes t.mem (hostPa buf) 128) ∧
      ∀ a, a < hostPa buf ∨ hostPa buf + 192 ≤ a → memRead t.mem a = memRead s.mem a := by
  have hnonce := length_memReadBytes s.mem (hostPa buf) 32
  have hmem := attest_mem hruns hin hclear rfl (length_report hnonce)
  generalize hostPa buf = pa at *
  generalize hb : s.report d (memReadBytes s.mem pa 32) = b at *
  have hlen : b.length = 192 := by rw [← hb]; exact length_report hnonce
  have heq := hb.symm.trans (report_eq s d (memReadBytes s.mem pa 32))
  have hbody : b = s.reportBody d (memReadBytes s.mem pa 32) ++ (leBytes (signatureOf d (s.reportBody d (memReadBytes s.mem pa 32))) 64 ++ []) := by
    rw [← hb, List.append_nil]; rfl
  have hbodyLen := length_reportBody (s := s) (d := d) hnonce
  have hread : ∀ j, j < b.length → memRead (s.attest d buf).mem (pa + j) = b.getD j 0 := fun j hj => by
    rw [hmem, memRead_memWriteBytes _ _ _ _ hinv hj, List.getD_eq_getElem _ _ hj]
  have hfirst : ∀ i, i < 32 → (memReadBytes s.mem pa 32).getD i 0 = memRead s.mem (pa + i) := fun i hi => getD_memReadBytes hi
  generalize memReadBytes s.mem pa 32 = nonce at *
  have hbodyRead : memReadBytes (s.attest d buf).mem pa 128 = s.reportBody d nonce := by
    have hrest : ∀ j, j < (s.reportBody d nonce).length → memRead (s.attest d buf).mem (pa + j) = (s.reportBody d nonce).getD j 0 := fun j hj => by
      rw [hread j (by omega), hbody, List.getD_append _ _ _ _ hj]
    simpa [hbodyLen] using memReadBytes_of_bytes hrest
  have hfield : ∀ (p : List Byte) {v n k : Nat}, p.length = k → v < 256 ^ n → (∃ q, b = p ++ (leBytes v n ++ q)) →
      bytesValue (s.attest d buf).mem (pa + k) n = v := fun _ _ _ _ hk hv ⟨_, hp⟩ => by rw [← hk, bytesValue_infix hp hread, Nat.mod_eq_of_lt hv]
  refine ⟨_, rfl, fun i hi => ?_, ?_, ?_, fun i hlo hhi => ?_, ?_, ?_, fun a ha => ?_⟩
  · rw [hread i (by omega), heq, List.getD_append _ _ _ _ (by omega), hfirst i hi]
  · exact hfield (nonce ++ leBytes (s.die d).digest.toNat 64) (by simp [hnonce, leBytes_length]) (hident_lt s d) ⟨_, heq.trans (List.append_assoc ..).symm⟩
  · exact hfield (nonce ++ leBytes (s.die d).digest.toNat 64 ++ leBytes (s.hident d) 8) (by simp [hnonce, leBytes_length]) (bstat_lt _)
      ⟨_, heq.trans ((List.append_assoc ..).trans (List.append_assoc ..)).symm⟩
  · have hzeros : b = (nonce ++ (leBytes (s.die d).digest.toNat 64 ++ (leBytes (s.hident d) 8 ++ leBytes (s.die d).bstat 8))) ++
        (List.replicate 16 0 ++ leBytes (signatureOf d (s.reportBody d nonce)) 64) := by
      rw [heq]; simp only [List.append_assoc]
    have hbefore : (nonce ++ (leBytes (s.die d).digest.toNat 64 ++ (leBytes (s.hident d) 8 ++ leBytes (s.die d).bstat 8))).length = 112 := by
      simp [hnonce, leBytes_length]
    rw [hread i (by omega), hzeros, List.getD_append_right _ _ _ _ (by omega), hbefore, List.getD_append _ _ _ _ (by simp; omega),
      List.getD_replicate _ (by omega)]
  · refine hfield nonce hnonce ?_ ⟨_, heq⟩
    have := (s.die d).digest.isLt
    omega
  · rw [hbodyRead]
    refine hfield _ hbodyLen ?_ ⟨_, hbody⟩
    have := (Config.ed25519 (Config.deviceKey d.toNat) (s.reportBody d nonce)).isLt
    unfold signatureOf
    omega
  · rw [hmem, memRead_memWriteBytes_ne _ _ _ _ hinv (by omega)]

/-! ## Storage errors, function resets, a link that goes down (R306, R366, R367, R388) -/

theorem countError_poison (s : State) (pa : Nat) (fatal : Bool) : (s.countError pa fatal).poison = s.poison := by
  unfold State.countError
  split
  · exact State.modDie_poison ..
  · exact State.modDie_poison ..
  · exact (count_counted ..).package.poison
  · rfl

theorem blockError_poisons {s : State} {pa : Nat} (hspace : (spaceOf pa).isSome = true) (hclean : pa / 64 * 64 ∉ s.poison) :
    ∃ t, exec (.dataErrorDetected (.block pa true)) s = .next t ∧ t.poison = s.poison ++ [pa / 64 * 64] ∧ t.mem = s.mem := by
  have hnew : ¬((spaceOf pa).isNone || (s.countError pa true).poison.contains (pa / 64 * 64)) = true := by
    rw [countError_poison]
    simp [Option.isNone_eq_false_iff.mpr hspace, hclean]
  have hto : s.dataError (.block pa true) = { s.countError pa true with poison := (s.countError pa true).poison ++ [pa / 64 * 64] } := if_neg hnew
  exact ⟨_, rfl, by rw [hto, countError_poison], by simp⟩

theorem blockError_corrected (s : State) (pa : Nat) : ∃ t, exec (.dataErrorDetected (.block pa false)) s = .next t ∧ t.poison = s.poison ∧ t.mem = s.mem :=
  ⟨_, rfl, countError_poison .., by simp⟩

/-- A trap that is raised stands in its seat, and no other core changes. -/
theorem raise_stands (s : State) (n : CoreId) (k : SeatId) (c : Cause) (tval pc : Dw) (issued : Bool) : ∃ q, OneCore n s (s.raise n k c tval pc issued) ∧
    (((s.raise n k c tval pc issued).coreAt n).ctx.seat k).cause = some q ∧ q.cause = c := by
  refine ⟨{ cause := c, tval := if c.tvalStated then tval else Config.freeDw s.free (640 + k.toNat), tpc := pc, issued := issued }, ?_, ?_, rfl⟩ <;> unfold State.raise
  · exact oneCore_modCtx ..
  · rw [State.modCtx, State.coreAt_modCore]
    exact congrArg Seat.cause (Ctx.seat_modSeat ..)

theorem seatError_traps {s : State} {n : CoreId} {k : SeatId} {u : UnitInfo} (hunit : (s.coreAt n).unit = some u)
    (hcause : ((s.coreAt n).ctx.seat k).cause = none) (hact : ((s.coreAt n).ctx.seat k).act = true) :
    ∃ t q, exec (.dataErrorDetected (.seatState n k true)) s = .next t ∧ OneCore n s t ∧ ((t.coreAt n).ctx.seat k).cause = some q ∧ q.cause = .coreData := by
  have hto : s.dataError (.seatState n k true) = if (((s.count n 33 1).coreAt n).unit.isNone || (((s.count n 33 1).coreAt n).ctx.seat k).cause.isSome ||
      !(((s.count n 33 1).coreAt n).ctx.seat k).act) = true then s.count n 33 1
    else (s.count n 33 1).raise n k .coreData 0 (((s.count n 33 1).coreAt n).ctx.seat k).pc false := rfl
  have hlogged := Logged.count n s 33 1
  obtain ⟨x, y, hcore⟩ := count_core s n 33 1
  have hruns : ¬(((s.count n 33 1).coreAt n).unit.isNone || (((s.count n 33 1).coreAt n).ctx.seat k).cause.isSome ||
      !(((s.count n 33 1).coreAt n).ctx.seat k).act) = true := by
    rw [hcore]
    simp [hunit, hcause, hact]
  rw [if_neg hruns] at hto
  generalize s.count n 33 1 = v at *
  obtain ⟨q, hone, hseat, hq⟩ := raise_stands v n k .coreData 0 ((v.coreAt n).ctx.seat k).pc false
  exact ⟨_, q, congrArg Host.Outcome.next hto, oneCore_trans hlogged.oneCore hone, hseat, hq⟩

theorem functionReset_resets (s : State) (d : DieId) (fn : Fin 33) : ∃ t, exec (.functionLevelReset d fn) s = .next t ∧ t.mem = s.mem ∧ t.cores = s.cores ∧
    ∀ r, t.ring d r = if fn = 0 ∨ (s.ring d r).part.val + 1 = fn.val then Ring.reset else s.ring d r := by
  refine ⟨_, rfl, by simp, State.modDie_cores .., fun r => ?_⟩
  have hrings : ((s.functionReset d fn).die d).rings = (s.die d).rings.map fun x =>
      if (decide (fn = 0) || decide (x.part.val + 1 = fn.val)) = true then Ring.reset else x := by
    unfold State.functionReset
    rw [State.die_modDie]
    dsimp only
    split <;> rfl
  rw [State.ring, hrings, Vector.get_eq_getElem, Vector.getElem_map, ← Vector.get_eq_getElem]
  simp only [Bool.or_eq_true, decide_eq_true_eq]
  rfl

theorem hostLinkDown_remembers (s : State) (d : DieId) : ∃ t, exec (.hostLinkDown d) s = .next t ∧ (t.die d).linkDown = true ∧ t.mem = s.mem ∧
    t.cores = s.cores :=
  ⟨_, rfl, by rw [State.die_modDie], State.modDie_mem .., State.modDie_cores ..⟩

/-! ## O55 -/

/-- Settles O55. The clock step follows its limits through the settling of slices, the epochs and the recomputed admission (`powers_setStep`); a report is
one run of written bytes, read back field by field (`bytesValue_infix`). -/
theorem powerAndStorageEvents : Obligations.PowerAndStorageEvents := by
  refine ⟨fun _ _ _ hrun hhot => powerEvaluation_hot hrun hhot, fun _ _ _ hrun hcold hdue => powerEvaluation_package hrun hcold hdue,
    fun s d buf hruns hinv hin hclear => ?_, fun _ _ => rfl, fun s pa => ⟨fun hspace hclean => blockError_poisons hspace hclean, blockError_corrected s pa⟩,
    fun _ _ _ _ hunit hcause hact => seatError_traps hunit hcause hact, functionReset_resets, hostLinkDown_remembers⟩
  obtain ⟨t, hstep, hnonce, hhident, hbstat, hzeros, hdigest, hsig, hrest⟩ := atreq_reports hruns hinv hin hclear
  refine ⟨t, hstep, hnonce, hhident, hbstat.trans ?_, hzeros, hdigest, hsig, hrest⟩
  unfold Die.bstat bitN
  split <;> rfl

end Sys2Proof
end

section
/-! PROOF. Snapshots: the cut and its markers (R385 to R387). -/

namespace Sys2Proof

open Machine Spec

/-! ## What a marker that leaves changes -/

/-- A snapshot's markers have left (R386). -/
def unsent (p : Snapshot) : Snapshot := { p with outgoing := [] }

/-- A die without what markers that leave and arrive change: as `offAction`, and the marker that has arrived, and those that have still to leave. -/
def offMarker (x : Die) : Die := { offAction x with markerIn := none, snap := (offAction x).snap.map unsent }

theorem standing_offMarker {s t : State} (h : standing offAction t = standing offAction s) : standing offMarker t = standing offMarker s := by
  obtain ⟨hdie, hrest⟩ := Prod.mk.inj h
  refine Prod.ext (funext fun d => ?_) hrest
  exact congrArg (fun x : Die => { x with markerIn := none, snap := x.snap.map unsent }) (congrFun hdie d)

/-- What of a cut stands while messages are held and markers leave: its id, its scope, the links it waits for, and whether it is dumped. -/
def cutView (p : Snapshot) : Word × BitVec 2 × List Link × Bool := (p.id, p.scope, p.waiting, p.dumped)

theorem snap_of_view {o : Option Snapshot} {p : Snapshot} (h : o.map cutView = some (cutView p)) :
    ∃ q, o = some q ∧ q.id = p.id ∧ q.scope = p.scope ∧ q.waiting = p.waiting ∧ q.dumped = p.dumped := by
  obtain ⟨q, hq, hview⟩ := Option.map_eq_some_iff.mp h
  simp only [cutView, Prod.mk.injEq] at hview
  obtain ⟨hid, hscope, hwaiting, hdumped⟩ := hview
  exact ⟨q, hq, hid, hscope, hwaiting, hdumped⟩

theorem snap_offMarker {s t : State} (h : standing offMarker t = standing offMarker s) (d : DieId) :
    (t.die d).snap.map cutView = (s.die d).snap.map cutView ∧ (t.die d).snstat = (s.die d).snstat := by
  have hdie : offMarker (t.die d) = offMarker (s.die d) := standing_die h d
  have hview : ∀ x : Die, (offMarker x).snap.map cutView = x.snap.map cutView := fun x => by
    simp only [offMarker, offAction, Option.map_map]
    rfl
  have hsnap := congrArg (fun x : Die => x.snap.map cutView) hdie
  have hstat := congrArg Die.snstat hdie
  rw [hview, hview] at hsnap
  exact ⟨hsnap, hstat⟩

theorem standing_sendMarker (s : State) (d : DieId) (id : Word) (scope : BitVec 2) (l : Link) :
    standing offMarker (s.sendMarker d id scope l) = standing offMarker s := by
  unfold State.sendMarker
  refine Eq.trans ?_ (standing_outp offMarker s (.marker d l id))
  cases l with
  | bridge => exact (standing_modDie _ _ _ rfl).trans (standing_offMarker (standing_crosses ..))
  | scaleUp k => exact standing_offMarker (standing_countDie ..)
  | host =>
    dsimp only
    split
    · rfl
    · exact standing_offMarker (standing_homeStore ..)
  | network => rfl

theorem standing_markersOut (s : State) (d : DieId) (now : Bool) : standing offMarker (s.markersOut d now) = standing offMarker s := by
  unfold State.markersOut
  split
  · rfl
  · split
    · rfl
    · refine (standing_foldl _ _ (fun _ _ => standing_sendMarker ..) _).trans (standing_modDie _ _ _ ?_)
      unfold offMarker offAction
      simp only [Option.map_map]
      rfl

/-! ## The cut halts the cores of its die (R386) -/

theorem coreAt_traceUnitOf (s : State) (n : CoreId) (event cause : Nat) (m : CoreId) : (s.traceUnitOf n event cause).coreAt m = s.coreAt m := by
  unfold State.traceUnitOf
  split
  · exact (traceRec_only ..).coreAt m
  · rfl

theorem halted_debugHalt (s : State) (n : CoreId) (why : HaltWhy) (m : CoreId) :
    ((s.debugHalt n why).coreAt m).dbg.halted = if m = n then some why else (s.coreAt m).dbg.halted := by
  have hlog : ∀ u : State, ((u.logStart n 1).coreAt m).dbg.halted = (u.coreAt m).dbg.halted := fun u => by
    unfold State.logStart
    split
    · exact standing_halted (standing_logEntry id ..) m
    · rfl
  unfold State.debugHalt
  rw [hlog, coreAt_traceUnitOf]
  by_cases hm : m = n
  · subst hm
    rw [State.coreAt_modCore, if_pos rfl]
  · obtain ⟨w, hw⟩ := withdrawAwait_coreAt s n m
    rw [State.coreAt_modCore_ne _ _ _ _ hm, hw, if_neg hm]

/-- A core that has already halted keeps its reason over the cut. -/
theorem halted_cutCore (s : State) (n : CoreId) (id : Word) (m : CoreId) :
    ((s.cutCore n id).coreAt m).dbg.halted = if m = n then some ((s.coreAt m).dbg.halted.getD .cut) else (s.coreAt m).dbg.halted := by
  have hcore := fun k => (traceRec_only s n 7 [id.setWidth 64]).coreAt k
  unfold State.cutCore
  generalize s.traceRec n 7 [id.setWidth 64] = u at *
  rw [← hcore m]
  dsimp only
  cases hhalted : (u.coreAt n).dbg.halted with
  | some w =>
    rw [Option.isSome_some, if_pos rfl]
    split
    · rename_i hm
      rw [hm, hhalted, Option.getD_some]
    · rfl
  | none =>
    rw [Option.isSome_none, if_neg Bool.false_ne_true]
    by_cases hm : m = n
    · subst hm
      rw [if_pos rfl, hhalted, Option.getD_none]
      split
      · rw [State.coreAt_modCore, halted_debugHalt, if_pos rfl]
      · rw [State.coreAt_modCore]
    · rw [if_neg hm]
      split
      · rw [State.coreAt_modCore_ne _ _ _ _ hm, halted_debugHalt, if_neg hm]
      · rw [State.coreAt_modCore_ne _ _ _ _ hm]

theorem halted_cutCores (l : List CoreId) (s : State) (id : Word) (m : CoreId) :
    ((l.foldl (fun u n => u.cutCore n id) s).coreAt m).dbg.halted =
      if m ∈ l then some ((s.coreAt m).dbg.halted.getD .cut) else (s.coreAt m).dbg.halted := by
  induction l generalizing s with
  | nil => simp
  | cons n l ih =>
    rw [List.foldl_cons, ih, halted_cutCore]
    by_cases hm : m = n <;> by_cases hl : m ∈ l <;> simp [hm, hl]

theorem mem_coresOf {d : DieId} {n : CoreId} : n ∈ coresOf d ↔ dieOf n = d := by simp [coresOf]

/-- A die is cut, by its own go or by a marker. -/
theorem takeCut_cuts (s : State) (d : DieId) (id : Word) (scope : BitVec 2) (own : Bool) : ∃ p bits, ((s.takeCut d id scope own).die d).snap = some p ∧
    p.id = id ∧ p.scope = scope ∧ p.dumped = false ∧ (bits = 1 ∨ bits = 3) ∧ ((s.takeCut d id scope own).die d).snstat = snStat bits id ∧
    ∀ n, dieOf n = d → ((s.takeCut d id scope own).coreAt n).dbg.halted = some ((s.coreAt n).dbg.halted.getD .cut) := by
  unfold State.takeCut
  dsimp only
  generalize s.cutLinks d scope = links
  generalize hu : (coresOf d).foldl (fun u n => u.cutCore n id) s = u
  generalize hv : (coresOf d).foldl (fun u n => u.modCore n fun c => { c with copies := c.copies.map fun k => { k with frozen := true } }) u = v
  have hhalted : ∀ n, (v.coreAt n).dbg.halted = (u.coreAt n).dbg.halted := fun n => by
    rw [← hv]
    exact foldl_keeps (g := fun w => (w.coreAt n).dbg.halted) (fun w m => standing_halted (standing_modCore (part := fun x => x) w m _ rfl) n) _ u
  generalize hw : v.modDie d (fun x => { x with
    snap := some { id := id, scope := scope, own := own, waiting := links, outgoing := links, channel := [], heldMsgs := [], dumped := false }
    snstat := snStat (if links = [] then 3 else 1) id }) = w
  have hstanding := standing_markersOut w d false
  obtain ⟨hsnap, hstat⟩ := snap_offMarker hstanding d
  rw [← hw, State.die_modDie, hw] at hsnap hstat
  obtain ⟨p, hp, hid, hscope, -, hdumped⟩ := snap_of_view hsnap
  refine ⟨p, _, hp, hid, hscope, hdumped, ?_, hstat, fun n hn => ?_⟩
  · split
    · exact .inr rfl
    · exact .inl rfl
  · rw [standing_halted hstanding n, ← hw, State.coreAt_modDie, hhalted, ← hu, halted_cutCores, if_pos (mem_coresOf.mpr hn)]

theorem snStat_id (bits : Nat) (hbits : bits = 1 ∨ bits = 3) (id : Word) : (snStat bits id).extractLsb' 32 32 = id ∧ (snStat bits id).getLsbD 0 = true := by
  have hid := id.isLt
  have hnat : (snStat bits id).toNat = bits + id.toNat * 2 ^ 32 := by
    unfold snStat
    rw [BitVec.toNat_ofNat]
    omega
  refine ⟨BitVec.eq_of_toNat_eq ?_, ?_⟩
  · rw [BitVec.extractLsb'_toNat, hnat, Nat.shiftRight_eq_div_pow]
    omega
  · rw [BitVec.getLsbD, hnat, Nat.testBit_zero]
    simp only [decide_eq_true_eq]
    omega

theorem snapshotGo_cuts {s : State} {d : DieId} {v : Dw} (hrun : (s.die d).start = .running) (hgo : v.getLsbD 0 = true) (hid : (s.die d).snid ≠ 0)
    (hscope : (v.extractLsb' 2 2).toNat < 3) (hnone : (s.die d).snap = none) : ∃ t p, exec (.snapshotGo d v) s = .next t ∧ (t.die d).snap = some p ∧
      p.id = (s.die d).snid ∧ p.scope = v.extractLsb' 2 2 ∧ p.dumped = false ∧ (t.die d).snstat.extractLsb' 32 32 = (s.die d).snid ∧
      (t.die d).snstat.getLsbD 0 = true ∧ ∀ n, dieOf n = d → (s.coreAt n).dbg.halted = none → (t.coreAt n).dbg.halted = some .cut := by
  have hthree : v.extractLsb' 2 2 ≠ 3 := fun h => by rw [h] at hscope; exact absurd hscope (by decide)
  have hto : s.snapshotGo d v = (s.modDie d fun x => { x with snctl := v &&& 0x1C }).takeCut d (s.die d).snid (v.extractLsb' 2 2) true := by
    unfold State.snapshotGo
    refine if_neg ?_
    rw [hgo, hnone, hrun]
    exact not_or.mpr ⟨fun h => h rfl, not_or.mpr ⟨Bool.noConfusion, not_or.mpr ⟨hid, not_or.mpr ⟨hthree, Bool.false_ne_true⟩⟩⟩⟩
  obtain ⟨p, bits, hsnap, hpid, hpscope, hdumped, hbits, hstat, hhalted⟩ := takeCut_cuts (s.modDie d fun x => { x with snctl := v &&& 0x1C }) d (s.die d).snid
    (v.extractLsb' 2 2) true
  obtain ⟨hstatId, hstatGo⟩ := snStat_id bits hbits (s.die d).snid
  rw [← hto] at hsnap hstat hhalted
  refine ⟨_, p, rfl, ?_, hpid, hpscope, hdumped, ?_, ?_, fun n hn hran => ?_⟩
  · rw [State.die_fresh, hsnap]
  · rw [State.die_fresh, hstat, hstatId]
  · rw [State.die_fresh, hstat, hstatGo]
  · rw [State.coreAt_fresh, hhalted n hn, State.coreAt_modDie, hran]
    rfl

/-! ## Markers close their links (R385, R387) -/

/-- What the other die has sent before its marker is recorded, and nothing else of the package changes. -/
theorem sentBefore_keeps {β : Type} {g : State → β} (hhold : ∀ (u : State) (e : DieId) (m : Msg), g (u.hold e .bridge m) = g u) (s : State) (d : DieId) :
    g (s.sentBefore d) = g s := by
  have hput : ∀ (u : State) (m : Msg), g (if u.heldMsg d m then u else u.hold d .bridge m) = g u := fun u m => by
    split
    · rfl
    · exact hhold u d m
  unfold State.sentBefore
  dsimp only
  rw [foldl_keeps (g := g), foldl_keeps (g := g), foldl_keeps (g := g)]
  · intro u n
    rw [foldl_keeps (g := g) hput, foldl_keeps (g := g)]
    intro u o
    split
    · exact hhold u d _
    · rfl
  · exact fun u z => hput u _
  · intro u n
    refine foldl_keeps (g := g) (fun u o => ?_) _ u
    split
    · exact hput u _
    · rfl

theorem closeLink_closes {s : State} {d : DieId} {p : Snapshot} (hp : (s.die d).snap = some p) (l : Link) : ∃ q, ((s.closeLink d l p.id).die d).snap = some q ∧
    q.id = p.id ∧ q.waiting = p.waiting.filter (fun k => decide (k ≠ l)) ∧ (s.closeLink d l p.id).mem = s.mem ∧ (s.closeLink d l p.id).cores = s.cores := by
  generalize hu : (if (l = .bridge && p.waiting.contains .bridge) = true then s.sentBefore d else s) = u
  have hkept : standing offAction u = standing offAction s ∧ u.mem = s.mem ∧ u.cores = s.cores := by
    rw [← hu]
    split
    · exact ⟨sentBefore_keeps (fun _ _ _ => standing_hold ..) s d, sentBefore_keeps (fun _ _ _ => State.modDie_mem ..) s d,
        sentBefore_keeps (fun _ _ _ => State.modDie_cores ..) s d⟩
    · exact ⟨rfl, rfl, rfl⟩
  obtain ⟨hstanding, hmem, hcores⟩ := hkept
  obtain ⟨hsnap, -⟩ := snap_offMarker (standing_offMarker hstanding) d
  obtain ⟨q, hq, hid, -, -, -⟩ := snap_of_view (hsnap.trans (congrArg _ hp))
  have hto : s.closeLink d l p.id = u.modDie d fun x => { x with
      snap := x.snap.map fun p' => { p' with waiting := p.waiting.filter fun k => decide (k ≠ l) }
      snstat := if (p.waiting.filter fun k => decide (k ≠ l)) = [] then x.snstat ||| 2 else x.snstat } := by
    unfold State.closeLink
    simp only [hp, ne_eq, not_true_eq_false, if_false]
    rw [← hu]
  refine ⟨{ q with waiting := p.waiting.filter fun k => decide (k ≠ l) }, ?_, hid, rfl, ?_, ?_⟩
  · rw [hto, State.die_modDie, hq]
    rfl
  · rw [hto, State.modDie_mem, hmem]
  · rw [hto, State.modDie_cores, hcores]

theorem cutBy_cuts (s : State) (d : DieId) (l : Link) (id : Word) (scope : BitVec 2) : ∃ p, ((s.cutBy d l id scope).die d).snap = some p ∧ p.id = id := by
  unfold State.cutBy
  split
  · obtain ⟨p, -, hp, hid, -⟩ := takeCut_cuts (s.drainLink d) d id scope false
    dsimp only
    rw [State.die_modDie, hp]
    exact ⟨_, rfl, hid⟩
  · obtain ⟨p, -, hp, hid, -⟩ := takeCut_cuts s d id scope false
    exact ⟨p, hp, hid⟩

/-- The state in which a marker's link has given its marker. -/
def markerTaken (s : State) (d : DieId) (l : Link) : State := s.modDie d fun x => if l = .bridge then { x with markerIn := none } else x

theorem markerTaken_die (s : State) (d : DieId) (l : Link) :
    ((markerTaken s d l).die d).snap = (s.die d).snap ∧ ((markerTaken s d l).die d).start = (s.die d).start := by
  unfold markerTaken
  rw [State.die_modDie]
  split <;> exact ⟨rfl, rfl⟩

theorem snapshotMarker_eq {s : State} {d : DieId} {l : Link} {id : Word} (hrun : (s.die d).start = .running) (hid : id ≠ 0) (hlink : l ≠ .network) :
    s.snapshotMarker d l id = (if (s.die d).snap.isSome then markerTaken s d l else (markerTaken s d l).cutBy d l id (s.linkScope d l)).closeLink d l id := by
  obtain ⟨hsnap, hstart⟩ := markerTaken_die s d l
  unfold State.snapshotMarker
  dsimp only
  rw [← markerTaken, hsnap, hstart, hrun]
  exact if_neg (not_or.mpr ⟨fun h => h rfl, not_or.mpr ⟨hid, hlink⟩⟩)

theorem snapshotMarker_first {s : State} {d : DieId} {l : Link} {id : Word} (hrun : (s.die d).start = .running) (hid : id ≠ 0) (hlink : l ≠ .network)
    (hnone : (s.die d).snap = none) : ∃ t p, exec (.snapshotMarker d l id) s = .next t ∧ (t.die d).snap = some p ∧ p.id = id ∧ l ∉ p.waiting := by
  obtain ⟨p, hp, rfl⟩ := cutBy_cuts (markerTaken s d l) d l id (s.linkScope d l)
  obtain ⟨q, hq, hqid, hwaiting, -⟩ := closeLink_closes hp l
  refine ⟨_, q, rfl, ?_, hqid, by simp [hwaiting]⟩
  rw [State.die_fresh, snapshotMarker_eq hrun hid hlink, hnone, Option.isSome_none, if_neg Bool.false_ne_true, hq]

theorem snapshotMarker_closes {s : State} {d : DieId} {l : Link} {p : Snapshot} (hrun : (s.die d).start = .running) (hid : p.id ≠ 0) (hlink : l ≠ .network)
    (hp : (s.die d).snap = some p) : ∃ t q, exec (.snapshotMarker d l p.id) s = .next t ∧ (t.die d).snap = some q ∧ q.id = p.id ∧
      q.waiting = p.waiting.filter (fun k => decide (k ≠ l)) ∧ t.mem = s.mem ∧ t.cores = s.cores := by
  obtain ⟨q, hq, hqid, hwaiting, hmem, hcores⟩ := closeLink_closes ((markerTaken_die s d l).1.trans hp) l
  have hto : s.snapshotMarker d l p.id = (markerTaken s d l).closeLink d l p.id := by
    rw [snapshotMarker_eq hrun hid hlink, hp, Option.isSome_some, if_pos rfl]
  refine ⟨_, q, rfl, ?_, hqid, hwaiting, ?_, ?_⟩
  · rw [State.die_fresh, hto, hq]
  · show (s.snapshotMarker d l p.id).mem = _
    rw [hto, hmem]
    exact State.modDie_mem ..
  · show (s.snapshotMarker d l p.id).cores = _
    rw [hto, hcores]
    exact State.modDie_cores ..

theorem snmk_closes {s : State} {d : DieId} {v : Dw} {p : Snapshot} (hup : (s.die d).linkDown = false) (hp : (s.die d).snap = some p)
    (hid : p.id = v.setWidth 32) : ∃ t q, exec (.snmk d v) s = .next t ∧ (t.die d).snap = some q ∧
      q.waiting = p.waiting.filter (fun k => decide (k ≠ .host)) ∧ t.mem = s.mem ∧ t.cores = s.cores := by
  have hto : exec (.snmk d v) s = .next (s.closeLink d .host p.id) := by
    rw [hid]
    exact congrArg Host.Outcome.next (if_neg (by rw [hup]; exact Bool.false_ne_true))
  obtain ⟨q, hq, -, hwaiting, hmem, hcores⟩ := closeLink_closes hp .host
  exact ⟨_, q, hto, hq, hwaiting, hmem, hcores⟩

end Sys2Proof
end

section
/-! PROOF. The dump and the resume of a snapshot, the registers' accesses (R321, R388, R398), and the settling of O59. -/

namespace Sys2Proof

open Machine Spec

/-! ## The dump (R388) -/

/-- The parts of a dump each stand in it, whatever the order. -/
theorem infix_scatter {pick : Nat → Nat} {fill : Nat → List Byte} {m : Nat} {l : List (List Byte)} (hlen : l.length = m) :
    ∀ part ∈ l, part <:+: scatter pick fill m l := by
  induction m generalizing l with
  | zero => simp [List.length_eq_zero_iff.mp hlen]
  | succ m ih =>
    intro part hpart
    have hi : pick m % l.length < l.length := Nat.mod_lt _ (by omega)
    unfold scatter
    rw [List.getElem?_eq_getElem hi]
    rcases List.mem_cons.mp ((List.getElem_cons_eraseIdx_perm hi).mem_iff.mpr hpart) with rfl | hrest
    · exact ⟨_, _, rfl⟩
    · exact (ih (by rw [List.length_eraseIdx_of_lt hi]; omega) part hrest).trans (List.suffix_append _ _).isInfix

theorem infix_dumpBytes (s : State) (d : DieId) : ∀ part ∈ s.dumpParts d, part <:+: s.dumpBytes d := infix_scatter rfl

/-- A cut die that has dumped, with what SNSTAT tells of it. -/
def dumpMarked (s : State) (d : DieId) (bits : Dw) : State :=
  s.modDie d fun x => { x with snap := x.snap.map fun p => { p with dumped := true }, snstat := x.snstat ||| bits }

theorem dumpMarked_die {s : State} {d : DieId} {p : Snapshot} (hp : (s.die d).snap = some p) (bits : Dw) :
    ((dumpMarked s d bits).die d).snap = some { p with dumped := true } ∧ ((dumpMarked s d bits).die d).snstat = (s.die d).snstat ||| bits := by
  unfold dumpMarked
  rw [State.die_modDie, hp]
  exact ⟨rfl, rfl⟩

theorem getLsbD_or_of_right {v w : Dw} {i : Nat} (h : w.getLsbD i = true) : (v ||| w).getLsbD i = true := by
  rw [BitVec.getLsbD_or, h, Bool.or_true]

/-- A write by the device's own hand where no slot stands: its bytes, and no die's snapshot. -/
theorem plainStore_stores {s : State} {pa : Nat} {b : List Byte} : standing offWalk (s.plainStore pa b) = standing offWalk s ∧
    (s.plainStore pa b).slots = s.slots ∧ (s.plainStore pa b).outs = s.outs ∧
    (s.hitsSlot pa b.length = false → (s.plainStore pa b).mem = memWriteBytes s.mem pa b) := by
  unfold State.plainStore
  refine ⟨(standing_wakeLine ..).trans (standing_of_dies rfl rfl (fun _ => rfl) rfl), wakeLine_slots .., (wakeLine_memParts ..).2.2, fun hclear => ?_⟩
  rw [wakeLine_mem, State.asideSlots, if_neg (by rw [hclear]; exact Bool.false_ne_true)]
  rfl

theorem dumpDue_of {s : State} {d : DieId} {p : Snapshot} (hp : (s.die d).snap = some p) (hwaiting : p.waiting = []) (hsent : p.outgoing = [])
    (hdumped : p.dumped = false) : s.dumpDue d = true := by
  unfold State.dumpDue
  rw [hp]
  simp only [hwaiting, hsent, hdumped, decide_true, Bool.and_self, Bool.not_false]

theorem snapshotDump_done {s : State} {d : DieId} {p : Snapshot} (hp : (s.die d).snap = some p) (hdue : s.dumpDue d = true)
    (hup : (s.die d).linkDown = false) (hfits : (s.dumpBytes d).length ≤ (s.die d).dmpsize.toNat)
    (hin : hostBase + (s.die d).dmpbase.toNat + (s.dumpBytes d).length ≤ 2 ^ 56) : ∃ t q, exec (.snapshotDump d) s = .next t ∧ (t.die d).snap = some q ∧
      q.dumped = true ∧ (t.die d).snstat.getLsbD 2 = true ∧ t.slots = s.slots ∧ t.outs = s.outs ++ [.dump d p.id true] ∧
      (MemInv s → s.hitsSlot (hostBase + (s.die d).dmpbase.toNat) (s.dumpBytes d).length = false →
        wrote s t (hostBase + (s.die d).dmpbase.toNat) (s.dumpBytes d)) := by
  have hto : s.snapshotDump d =
      dumpMarked ((s.plainStore (hostBase + (s.die d).dmpbase.toNat) (s.dumpBytes d)).outp (.dump d p.id true)) d 4 := by
    unfold State.snapshotDump
    simp only [hdue, hp, hup, hin, Nat.not_lt.mpr hfits, Bool.not_true, Bool.not_false, Bool.false_eq_true, decide_true, Bool.and_self, if_false, if_true]
    rfl
  generalize hostBase + (s.die d).dmpbase.toNat = pa at *
  generalize s.dumpBytes d = b at *
  obtain ⟨hstanding, hslots, houts, hmem⟩ := plainStore_stores (s := s) (pa := pa) (b := b)
  have hdie : offWalk ((s.plainStore pa b).die d) = offWalk (s.die d) := standing_die hstanding d
  have hsnap : (((s.plainStore pa b).outp (.dump d p.id true)).die d).snap = some p := by
    have := congrArg Die.snap hdie
    rw [State.die_outp, ← hp]
    exact this
  obtain ⟨hq, hstat⟩ := dumpMarked_die hsnap 4
  have hmarked : ∀ u : State, (dumpMarked u d 4).mem = u.mem ∧ (dumpMarked u d 4).slots = u.slots ∧ (dumpMarked u d 4).outs = u.outs := fun u =>
    ⟨State.modDie_mem .., State.modDie_slots .., State.modDie_outs ..⟩
  obtain ⟨hm, hs, ho⟩ := hmarked ((s.plainStore pa b).outp (.dump d p.id true))
  refine ⟨_, { p with dumped := true }, rfl, ?_, rfl, ?_, ?_, ?_, fun hinv hclear => ?_⟩
  · rw [State.die_fresh, hto, hq]
  · rw [State.die_fresh, hto, hstat]
    exact getLsbD_or_of_right rfl
  · show (s.snapshotDump d).slots = _
    rw [hto, hs]
    exact hslots
  · show (s.snapshotDump d).outs = _
    rw [hto, ho, State.outp, houts]
  · intro a
    show memRead (s.snapshotDump d).mem a = _
    rw [hto, hm]
    show memRead (s.plainStore pa b).mem a = _
    rw [hmem hclear]
    split
    · rename_i hat
      obtain ⟨j, rfl⟩ := Nat.exists_eq_add_of_le hat.1
      have hj : j < b.length := by omega
      rw [memRead_memWriteBytes _ _ _ _ hinv hj, Nat.add_sub_cancel_left, List.getD_eq_getElem _ _ hj]
    · exact memRead_memWriteBytes_ne _ _ _ _ hinv (by omega)

theorem snapshotDump_tooLarge {s : State} {d : DieId} {p : Snapshot} (hp : (s.die d).snap = some p) (hdue : s.dumpDue d = true)
    (hlarge : (s.die d).dmpsize.toNat < (s.dumpBytes d).length) : ∃ t q, exec (.snapshotDump d) s = .next t ∧ (t.die d).snap = some q ∧
      q.dumped = true ∧ (t.die d).snstat.getLsbD 3 = true ∧ t.mem = s.mem ∧ t.cores = s.cores := by
  have hto : s.snapshotDump d = dumpMarked s d 8 := by
    unfold State.snapshotDump
    simp only [hdue, hlarge, Bool.not_true, Bool.false_eq_true, if_false, if_true]
    rfl
  obtain ⟨hq, hstat⟩ := dumpMarked_die hp 8
  refine ⟨_, { p with dumped := true }, rfl, ?_, rfl, ?_, ?_, ?_⟩
  · rw [State.die_fresh, hto, hq]
  · rw [State.die_fresh, hto, hstat]
    exact getLsbD_or_of_right rfl
  · show (s.snapshotDump d).mem = _
    rw [hto]
    exact State.modDie_mem ..
  · show (s.snapshotDump d).cores = _
    rw [hto]
    exact State.modDie_cores ..

/-! ## The resume (R386, R388) -/

/-- A die whose cut has ended: its snapshot is gone, and its queued sends are asked for again. -/
def uncut (s : State) (d : DieId) : State := s.modDie d fun x => { x with snap := none, sends := x.sends.map fun m => { m with asked := true } }

/-- The queued sends have no part in what falls due. -/
theorem dues_uncut (s : State) (d : DieId) : (uncut s d).dues d = (s.modDie d fun x => { x with snap := none }).dues d := by cases d <;> rfl

/-- Nothing that has come by falls due: time moves to its moment, where it stands already. -/
theorem applyDue_none {s : State} {d : DieId} {now : Nat} (h : ∀ e ∈ s.dues d, now < e.time) (fuel : Nat) :
    s.applyDue d now fuel = s.modDie d fun x => { x with time := max x.time now } := by
  have hnone : (s.dues d).filter (fun e => decide (e.time ≤ now)) = [] :=
    List.filter_eq_nil_iff.mpr fun e he => by simpa using h e he
  cases fuel with
  | zero => rfl
  | succ fuel =>
    unfold State.applyDue
    rw [hnone]
    rfl

theorem resumePreempted_core (s : State) (n : CoreId) (serial : Nat) :
    ((s.resumePreempted n serial).coreAt n).dbg = (s.coreAt n).dbg ∧ ((s.resumePreempted n serial).coreAt n).ctx = (s.coreAt n).ctx := by
  unfold State.resumePreempted
  rw [State.coreAt_modCore]
  exact ⟨rfl, rfl⟩

/-- The units whose copies go on with a core that resumes. -/
def resumedOwners (c : Core) : List Nat :=
  (match c.unit, c.frozen with
    | some _, some (.stopped _ _) => []
    | some u, _ => [u.serial]
    | none, _ => []) ++ c.leaving.map fun l => l.unit.serial

theorem resumeCore_eq (s : State) (n : CoreId) : s.resumeCore n =
    (resumedOwners (s.coreAt n)).foldl (fun u o => u.resumePreempted n o)
      (if (s.coreAt n).dbg.halted = some .cut then (s.modCore n Core.unhalt).traceUnitOf n 10 0 else s) := rfl

theorem resumeCore_own (s : State) (n : CoreId) : Own n s (s.resumeCore n) := by
  have hcopies : ∀ (l : List Nat) (u : State), Own n u (l.foldl (fun u o => u.resumePreempted n o) u) := fun l => by
    induction l with
    | nil => exact fun u => .refl n u
    | cons o l ih => exact fun u => (Own.modCore n u _).trans (ih _)
  rw [resumeCore_eq]
  refine Own.trans ?_ (hcopies _ _)
  split
  · exact (Own.modCore n s _).trans (Logged.traceUnitOf ..).own
  · exact .refl n s

/-- A core that the cut has halted runs on with its context. -/
theorem resumeCore_core (s : State) (n : CoreId) (h : (s.coreAt n).dbg.halted = some .cut) :
    ((s.resumeCore n).coreAt n).dbg.halted = none ∧ ((s.resumeCore n).coreAt n).ctx = (s.coreAt n).ctx := by
  have hcopies : ∀ (l : List Nat) (u : State),
      (((l.foldl (fun u o => u.resumePreempted n o) u).coreAt n).dbg, ((l.foldl (fun u o => u.resumePreempted n o) u).coreAt n).ctx) =
        ((u.coreAt n).dbg, (u.coreAt n).ctx) := fun l u =>
    foldl_keeps (g := fun u => ((u.coreAt n).dbg, (u.coreAt n).ctx)) (fun u o => Prod.ext (resumePreempted_core u n o).1 (resumePreempted_core u n o).2) l u
  rw [resumeCore_eq, if_pos h]
  obtain ⟨hdbg, hctx⟩ := Prod.mk.inj (hcopies (resumedOwners (s.coreAt n)) ((s.modCore n Core.unhalt).traceUnitOf n 10 0))
  rw [hdbg, hctx, coreAt_traceUnitOf, State.coreAt_modCore]
  exact ⟨rfl, rfl⟩

theorem snap_time_of_dieKept {x y : Die} (h : DieKept x y) : y.snap = x.snap ∧ y.time = x.time := by
  unfold DieKept at h
  constructor <;> rw [← h]

theorem resumeCore_die (s : State) (n : CoreId) (d : DieId) :
    ((s.resumeCore n).die d).snap = (s.die d).snap ∧ ((s.resumeCore n).die d).time = (s.die d).time := by
  have hstart : ∀ e, DieKept (s.die e) ((if (s.coreAt n).dbg.halted = some .cut then (s.modCore n Core.unhalt).traceUnitOf n 10 0 else s).die e) := fun e => by
    split
    · unfold State.traceUnitOf
      split
      · exact ((PackageKept.modCore s n Core.unhalt).trans (traceRec_only ..).package).die e
      · exact (PackageKept.modCore s n Core.unhalt).die e
    · rfl
  rw [resumeCore_eq, foldl_keeps (g := fun u => u.die d) fun u o => by cases d <;> rfl]
  exact snap_time_of_dieKept (hstart d)

theorem nodup_coresOf (d : DieId) : (coresOf d).Nodup := (List.nodup_finRange 352).filter _

theorem snapshotResume_resumes {s : State} {d : DieId} {p : Snapshot} (hp : (s.die d).snap = some p) (hheld : p.heldMsgs = []) (hsent : p.outgoing = [])
    (hmarker : (s.die d.other).markerIn = none)
    (hdues : ∀ e ∈ (s.modDie d fun x => { x with snap := none }).dues d, (s.die d).time < e.time) : ∃ t, exec (.snapshotResume d) s = .next t ∧
      (t.die d).snap = none ∧ (t.die d).time = (s.die d).time ∧ t.mem = s.mem ∧
      ∀ n, dieOf n = d → (s.coreAt n).dbg.halted = some .cut → (t.coreAt n).dbg.halted = none ∧ (t.coreAt n).ctx = (s.coreAt n).ctx := by
  generalize hu : (uncut s d).modDie d (fun x => { x with time := max x.time (s.die d).time }) = u
  have hto : s.snapshotResume d = (coresOf d).foldl State.resumeCore u := by
    have hout : s.markersOut d true = s := by
      unfold State.markersOut
      simp only [hp, hsent, decide_true, Bool.true_or, if_true]
    unfold State.snapshotResume
    simp only [hp, hout, hmarker, hheld, List.foldl_nil]
    rw [← uncut, applyDue_none (by rw [dues_uncut]; exact hdues), hu]
  have hudie : (u.die d).snap = none ∧ (u.die d).time = (s.die d).time := by
    rw [← hu, State.die_modDie, uncut, State.die_modDie]
    exact ⟨rfl, Nat.max_self _⟩
  have hucore : ∀ n, u.coreAt n = s.coreAt n := fun n => by rw [← hu, State.coreAt_modDie, uncut, State.coreAt_modDie]
  have humem : u.mem = s.mem := by rw [← hu, State.modDie_mem, uncut, State.modDie_mem]
  obtain ⟨hmem, -, -, hcores⟩ := foldl_own (C := fun _ => True)
    (P := fun c c' => c.dbg.halted = some .cut → c'.dbg.halted = none ∧ c'.ctx = c.ctx) (fun v n _ => resumeCore_own v n)
    (fun v n _ hcut => resumeCore_core v n hcut) (nodup_coresOf d) u fun _ _ => trivial
  have hdie : ((((coresOf d).foldl State.resumeCore u).die d).snap, (((coresOf d).foldl State.resumeCore u).die d).time) = ((u.die d).snap, (u.die d).time) :=
    foldl_keeps (g := fun u => ((u.die d).snap, (u.die d).time)) (fun v n => Prod.ext (resumeCore_die v n d).1 (resumeCore_die v n d).2) (coresOf d) u
  obtain ⟨hsnap, htime⟩ := Prod.mk.inj hdie
  refine ⟨_, rfl, ?_, ?_, ?_, fun n hn hcut => ?_⟩
  · rw [State.die_fresh, hto, hsnap, hudie.1]
  · rw [State.die_fresh, hto, htime, hudie.2]
  · show (s.snapshotResume d).mem = _
    rw [hto, hmem, humem]
  · rw [State.coreAt_fresh, hto, ← hucore n]
    exact hcores n (mem_coresOf.mpr hn) (by rw [hucore]; exact hcut)

/-! ## Register accesses (R321, R373, R388, R398) -/

/-- An access that the host's link, or the policy core, carries to a die that is on. -/
theorem registerWrite_carried {s : State} {d : DieId} {a : Bar} (hon : (s.die d).start ≠ .off) (hcarried : (s.die d).linkDown = false ∨ a.policy = true) :
    (∀ v, exec (.registerWrite d a (some v)) s = .next (s.registerStore d a v)) ∧ exec (.registerWrite d a none) s = .next (s.registerRead d a) := by
  have hpass : ¬((s.die d).start = .off ∨ ((s.die d).linkDown = true ∧ a.policy = false)) := by
    rintro (h | ⟨hdown, hhost⟩)
    · exact hon h
    · rcases hcarried with h | h
      · rw [h] at hdown; exact absurd hdown Bool.false_ne_true
      · rw [h] at hhost; exact absurd hhost.symm Bool.false_ne_true
  exact ⟨fun v => congrArg Host.Outcome.next (if_neg hpass), congrArg Host.Outcome.next (if_neg hpass)⟩

theorem barOk_function0 (s : State) (d : DieId) {off : Nat} (h : off % 8 = 0) : s.barOk d ⟨0, off, 8, false⟩ = true := by
  simp [State.barOk, State.reaches, h]

theorem barOk_bad (s : State) (d : DieId) {a : Bar} (h : a.size ≠ 8 ∨ a.off % 8 ≠ 0) : s.barOk d a = false := by
  rcases h with h | h <;> simp [State.barOk, h]

theorem registerWrite_pwrctl {s : State} {d : DieId} (hon : (s.die d).start ≠ .off) (hup : (s.die d).linkDown = false) (v : Dw) :
    ∃ t, exec (.registerWrite d ⟨0, 0x3010, 8, false⟩ (some v)) s = .next t ∧ (t.die d).pwrctl = v &&& 7 ∧ t.mem = s.mem ∧ t.cores = s.cores := by
  have hto : s.registerStore d ⟨0, 0x3010, 8, false⟩ v = s.modDie d fun x => { x with pwrctl := v &&& 7 } := by
    unfold State.registerStore
    rw [barOk_function0 s d (by decide), if_pos rfl, State.writeDie, if_neg (by decide), if_pos rfl]
  refine ⟨_, ((registerWrite_carried hon (.inl hup)).1 v).trans (congrArg _ hto), ?_, State.modDie_mem .., State.modDie_cores ..⟩
  rw [State.die_modDie]

theorem registerWrite_scope3 {s : State} {d : DieId} (hon : (s.die d).start ≠ .off) (hup : (s.die d).linkDown = false) {v : Dw}
    (hscope : v.extractLsb' 2 2 = 3) : exec (.registerWrite d ⟨0, 0x4800, 8, false⟩ (some v)) s = .next s := by
  refine ((registerWrite_carried hon (.inl hup)).1 v).trans (congrArg _ ?_)
  unfold State.registerStore
  rw [barOk_function0 s d (by decide), if_pos rfl, State.writeDie, if_neg (by decide), if_neg (by decide), if_neg (by decide), if_neg (by decide), if_pos rfl,
    if_pos hscope]

theorem registerWrite_unaligned {s : State} {d : DieId} (hon : (s.die d).start ≠ .off) (hup : (s.die d).linkDown = false) {a : Bar}
    (hbad : a.size ≠ 8 ∨ a.off % 8 ≠ 0) (v : Dw) : exec (.registerWrite d a (some v)) s = .next s ∧
      exec (.registerWrite d a none) s = .next { s with outs := s.outs ++ [.registerRead d a 0] } := by
  obtain ⟨hwrite, hread⟩ := registerWrite_carried (a := a) hon (.inl hup)
  have hno := barOk_bad s d hbad
  refine ⟨(hwrite v).trans (congrArg _ ?_), hread.trans (congrArg _ ?_)⟩
  · unfold State.registerStore
    rw [hno, if_neg Bool.false_ne_true]
  · unfold State.registerRead State.registerValue
    rw [hno]
    rfl

/-- Every function reads device time. -/
theorem registerRead_dtime {s : State} {d : DieId} (hon : (s.die d).start ≠ .off) (hup : (s.die d).linkDown = false) (fn : Fin 33) :
    exec (.registerWrite d ⟨fn, 0x0010, 8, false⟩ none) s =
      .next { s with outs := s.outs ++ [.registerRead d ⟨fn, 0x0010, 8, false⟩ (BitVec.ofNat 64 (s.die d).time)] } := by
  have hok : s.barOk d ⟨fn, 0x0010, 8, false⟩ = true := by simp [State.barOk, State.reaches]
  have hvalue : s.dieValue d 0x0010 = BitVec.ofNat 64 (s.die d).time := rfl
  refine (registerWrite_carried hon (.inl hup)).2.trans (congrArg _ ?_)
  unfold State.registerRead State.registerValue
  rw [hok, if_pos rfl, hvalue]
  dsimp only
  split <;> rfl

theorem registerRead_mboxout {s : State} {d : DieId} (hon : (s.die d).start ≠ .off) (hup : (s.die d).linkDown = false) :
    ∃ t, exec (.registerWrite d ⟨0, 0x2008, 8, false⟩ none) s = .next t ∧ t.outs = s.outs ++ [.registerRead d ⟨0, 0x2008, 8, false⟩ (s.die d).mboxout] ∧
      (t.die d).mboxst.getLsbD 1 = false ∧ t.mem = s.mem ∧ t.cores = s.cores := by
  have hto : s.registerRead d ⟨0, 0x2008, 8, false⟩ =
      (s.modDie d fun x => { x with mboxst := x.mboxst &&& 1 }).outp (.registerRead d ⟨0, 0x2008, 8, false⟩ (s.die d).mboxout) := by
    unfold State.registerRead State.registerValue
    rw [barOk_function0 s d (by decide), if_pos rfl]
    rfl
  refine ⟨_, (registerWrite_carried hon (.inl hup)).2.trans (congrArg _ hto), ?_, ?_, State.modDie_mem .., State.modDie_cores ..⟩
  · rw [State.outp, State.modDie_outs]
  · rw [State.die_outp, State.die_modDie, BitVec.getLsbD_and]
    simp

theorem registerWrite_policy {s : State} {d : DieId} (hon : (s.die d).start ≠ .off) (v : Dw) :
    ∃ t, exec (.registerWrite d ⟨0, 0x4808, 8, true⟩ (some v)) s = .next t ∧ (t.die d).snid = v.setWidth 32 ∧ t.mem = s.mem ∧ t.cores = s.cores := by
  have hok : s.barOk d ⟨0, 0x4808, 8, true⟩ = true := by simp [State.barOk, State.reaches]
  have hto : s.registerStore d ⟨0, 0x4808, 8, true⟩ v = s.modDie d fun x => { x with snid := v.setWidth 32 } := by
    unfold State.registerStore
    rw [hok, if_pos rfl, State.writeDie, if_neg (by decide), if_neg (by decide), if_neg (by decide), if_neg (by decide), if_neg (by decide), if_pos rfl]
  refine ⟨_, ((registerWrite_carried hon (.inr rfl)).1 v).trans (congrArg _ hto), ?_, State.modDie_mem .., State.modDie_cores ..⟩
  rw [State.die_modDie]

/-! ## O59 -/

/-- Settles O59. A cut halts each core by its own step (`halted_cutCores`), and markers that leave, arrive or are recorded keep what the snapshot tells
(`snap_offMarker`); a resume with nothing due only ends the cut and lets the cores run, each by its own step (`foldl_own`). -/
theorem snapshotEvents : Obligations.SnapshotEvents := by
  refine ⟨fun _ _ _ hrun hgo hid hscope hnone => snapshotGo_cuts hrun hgo hid hscope hnone,
    fun s d l id hrun hid hlink => ⟨fun hnone => snapshotMarker_first hrun hid hlink hnone, fun p hp hpid => ?_⟩,
    fun _ _ _ _ hup hp hid => snmk_closes hup hp hid, fun s d p hp hwaiting hsent hdumped hup => ?_,
    fun _ _ _ hp hheld hsent hmarker hdues => snapshotResume_resumes hp hheld hsent hmarker hdues,
    fun s d hon hup => ⟨registerWrite_pwrctl hon hup, fun _ hscope => registerWrite_scope3 hon hup hscope,
      fun _ v hbad => registerWrite_unaligned hon hup hbad v, registerRead_dtime hon hup, registerRead_mboxout hon hup⟩,
    fun _ _ v hon => registerWrite_policy hon v⟩
  · subst hpid
    exact snapshotMarker_closes hrun hid hlink hp
  · have hdue := dumpDue_of hp hwaiting hsent hdumped
    exact ⟨infix_dumpBytes s d, fun hfits hin => snapshotDump_done hp hdue hup hfits hin, fun hlarge => snapshotDump_tooLarge hp hdue hlarge⟩

end Sys2Proof
end
